-- ==== Sys2Proof/Word.lean ====
section
/-! DEFINITION. Word types of the TH48: bytes, 32- and 64-bit words, byte strings, and the type of a sparse table. -/

namespace Sys2Proof

/-- One byte (R7: multi-byte values are little-endian sequences of these). -/
abbrev Byte := BitVec 8

/-- A 32-bit register word. -/
abbrev W32 := BitVec 32

/-- A 64-bit word: an instruction word, an immediate word, a register pair. -/
abbrev W64 := BitVec 64

/-- A string of bytes, lowest address first. -/
abbrev Bytes := List Byte

/-- A sparse table: the entries that differ from a default, by rising key. -/
abbrev Tab (α : Type) := List (Nat × α)

end Sys2Proof
end

