-- ==== Sys2Proof/Syntax.lean ====
section
/-! DEFINITION. The commands of the TH48: one constructor of `Instr` for each row of spec/opcode_table.json, with the
operands the row needs. -/

namespace Sys2Proof

/-- The fields of an Ixfen instruction word but OPCODE, and its immediate word (Table 5-1, R140). -/
structure IWord where
  pg : BitVec 3 := 0
  pn : Bool := false
  d : BitVec 8 := 0
  a : BitVec 8 := 0
  b : BitVec 8 := 0
  c : BitVec 8 := 0
  mod : BitVec 12 := 0
  ak : BitVec 2 := 0
  bk : BitVec 2 := 0
  ck : BitVec 2 := 0
  dz : Bool := false
  imm : Bool := false
  immw : W64 := 0
  deriving DecidableEq, Repr

/-- What an ATOMIC does at the home (R159): operation (AOP of Table 5-13), 64-bit word, unsigned, operand and comparand. -/
structure AtomOp where
  aop : Nat
  w64 : Bool
  uns : Bool
  b : W64
  c : W64
  deriving DecidableEq, Repr

/-- What WR_LINE and WR_CUR carry (R241): the hoop, the first byte of the line that is written, and the bytes. -/
structure LineWrite where
  hoop : Nat
  off : Nat := 0
  data : Bytes
  deriving DecidableEq, Repr

/-- What ATOMIC carries (R241, R246): the hoop, the word's place in the line, and the operation. -/
structure LineAtomic where
  hoop : Nat
  off : Nat
  op : AtomOp
  deriving DecidableEq, Repr

/-- A scheduling entry: module core number (R16) and entry of that core (Table 4-1). -/
structure Ent where
  core : Nat
  entry : Nat
  deriving DecidableEq, Repr

/-- Where a management command comes from (R404, R416): 0 the PF's ring, 1 to 8 a VF's ring, 9 the sideband; with the
fields of its header (Table 16-1). `rsvd` says that a reserved header bit is 1, `unread` that the read of its parameters
fails (R408). -/
structure MHdr where
  ring : Nat
  irq : Bool := false
  hoop : Nat := 0
  rsvd : Bool := false
  tag : W32 := 0
  replyCap : Nat := 0
  paramAddr : Nat := 0
  replyAddr : Nat := 0
  unread : Bool := false
  deriving DecidableEq, Repr

/-- A configuration-space field that software writes (Table 15-1, R380, R389). -/
inductive CfgField where
  | vfEnable | numVfs | ariCapable | msixEnable | functionMask | bar2Size | vfBar4Size
  | maxPayload | maxReadRequest | aspm | l0pWidth | totalVfs | linkWidth | linkRate | vendorId
  deriving DecidableEq, Repr

/-- What a register write addresses: an offset in a BAR of a function (R382), or a configuration field. -/
inductive RegTarget where
  | bar (bar : Nat) (offset : Nat)
  | cfg (field : CfgField)
  deriving DecidableEq, Repr

/-- The status of a PCIe completion: Successful, Unsupported Request, Completer Abort, Request Retry Status. -/
inductive Cpl where
  | sc | ur | ca | rrs
  deriving DecidableEq, Repr

/-- A Klozar packet: the header of Table 14-3 and its payload bytes. `rsvd` says that reserved bit 84 is 1. -/
structure Pkt where
  dst : Nat
  src : Nat
  ptype : Nat
  rsvd : Bool := false
  tag : Nat := 0
  job : Nat := 0
  win : Nat := 0
  offset : Nat := 0
  data : Bytes := []
  deriving DecidableEq, Repr

/-- What FEC says of a flit (R345, R371): the symbols it corrected and the codewords it found uncorrectable since the flit before, and whether
the bytes of the flit itself are good. -/
structure Fec where
  corrected : Nat := 0
  uncorrectable : Nat := 0
  good : Bool := true
  deriving DecidableEq, Repr

/-- A flit as a port receives it: what FEC says of it and its 256 bytes. -/
structure RxFlit where
  fec : Fec := {}
  bytes : Bytes
  deriving DecidableEq, Repr

/-- What a port learns of its partner in IDENTIFY (Table 14-7). -/
structure Partner where
  chip : Nat
  board : Nat
  slot : Nat
  mgr : Bool
  port : Nat
  deriving DecidableEq, Repr

/-- The straps (R344, Table 20-6). -/
structure Straps where
  slot : BitVec 3 := 0
  board : BitVec 9 := 0
  mgrEn : Bool := true
  sbMode : Bool := true
  deriving DecidableEq, Repr

/-- A command of the TH48: one constructor for each row of the opcode table. -/
inductive Instr where
  -- ring entries (chapter 3), named by their queue
  | nop (q : Nat)
  | launch (q : Nat)
  | launchRecipe (q : Nat)
  | copy (q : Nat)
  | whey (q : Nat)
  | fenceWait (q : Nat)
  | fenceSignal (q : Nat)
  | eventRecord (q : Nat)
  | eventWait (q : Nat)
  | sessionCommit (q : Nat)
  | sessionReject (q : Nat)
  | settlementWaitDone (session : Nat)
  | weightFlip (q : Nat)
  | chain (q : Nat)
  | slotFetch (slot : Nat)
  | entryRetire (q : Nat) (idx : Nat)
  | confirmingReadDone (q : Nat) (status : Cpl)
  | qdbWptr (fn : Nat) (q : Nat) (value : W32)
  | fenceWaitSatisfied (q : Nat)
  | eventWaitSatisfied (q : Nat)
  -- recipes, dispatch, wheel, hoops (chapters 2 to 4)
  | nodeComplete (inst : Nat) (node : Nat)
  | blockCredit (core : Nat)
  | staggeredHandOut (core : Nat)
  | blockRetire (core : Nat) (place : Nat)
  | barrierStranded (core : Nat) (place : Nat)
  | kernelWatchdog (kernel : Nat)
  | overrunDebtRepaid (hoop : Nat) (cls : Nat)
  | flipDrained (hoop : Nat)
  | drainComplete (hoop : Nat)
  | scrubDone (hoop : Nat)
  | hoopCfgTablesLock (fn : Nat) (hoop : Nat)
  | hoopRelqPtrHead (fn : Nat) (hoop : Nat) (value : W32)
  | registerWrite (fn : Nat) (tgt : RegTarget) (width : Nat) (value : W64)
  -- Ixfen arithmetic (Tables 5-5, 5-6, 5-8, 5-9)
  | fadd (e : Ent) (w : IWord)
  | fsub (e : Ent) (w : IWord)
  | fmul (e : Ent) (w : IWord)
  | fma (e : Ent) (w : IWord)
  | fmin (e : Ent) (w : IWord)
  | fmax (e : Ent) (w : IWord)
  | iadd (e : Ent) (w : IWord)
  | isub (e : Ent) (w : IWord)
  | imul (e : Ent) (w : IWord)
  | imulhi (e : Ent) (w : IWord)
  | imad (e : Ent) (w : IWord)
  | and (e : Ent) (w : IWord)
  | or (e : Ent) (w : IWord)
  | xor (e : Ent) (w : IWord)
  | andn (e : Ent) (w : IWord)
  | shl (e : Ent) (w : IWord)
  | shr (e : Ent) (w : IWord)
  | popc (e : Ent) (w : IWord)
  | clz (e : Ent) (w : IWord)
  | brev (e : Ent) (w : IWord)
  | imin (e : Ent) (w : IWord)
  | imax (e : Ent) (w : IWord)
  | sel (e : Ent) (w : IWord)
  | mov (e : Ent) (w : IWord)
  | setp (e : Ent) (w : IWord)
  | cvt (e : Ent) (w : IWord)
  | cvts (e : Ent) (w : IWord)
  | xlane (e : Ent) (w : IWord)
  | lvote (e : Ent) (w : IWord)
  | rdsys (e : Ent) (w : IWord)
  | rcp (e : Ent) (w : IWord)
  | rsq (e : Ent) (w : IWord)
  | sqrt (e : Ent) (w : IWord)
  | exp2 (e : Ent) (w : IWord)
  | log2 (e : Ent) (w : IWord)
  | sinpi (e : Ent) (w : IWord)
  | cospi (e : Ent) (w : IWord)
  | tanh (e : Ent) (w : IWord)
  -- Ixfen memory, atomics, fences, control flow, uniform (Tables 5-11 to 5-16)
  | ldl (e : Ent) (w : IWord)
  | stl (e : Ent) (w : IWord)
  | ld (e : Ent) (w : IWord)
  | st (e : Ent) (w : IWord)
  | ldu (e : Ent) (w : IWord)
  | prf (e : Ent) (w : IWord)
  | gld (e : Ent) (w : IWord)
  | gst (e : Ent) (w : IWord)
  | sld (e : Ent) (w : IWord)
  | sst (e : Ent) (w : IWord)
  | atom (e : Ent) (w : IWord)
  | atoml (e : Ent) (w : IWord)
  | gatom (e : Ent) (w : IWord)
  | fence (e : Ent) (w : IWord)
  | fsignal (e : Ent) (w : IWord)
  | bar (e : Ent) (w : IWord)
  | barArrive (e : Ent) (w : IWord)
  | bra (e : Ent) (w : IWord)
  | brx (e : Ent) (w : IWord)
  | call (e : Ent) (w : IWord)
  | rcv (e : Ent) (w : IWord)
  | exit (e : Ent) (w : IWord)
  | trap (e : Ent) (w : IWord)
  | instructionNop (e : Ent) (w : IWord)
  | illegalOpcode (e : Ent) (opcode : Byte)
  | umov (e : Ent) (w : IWord)
  | uadd (e : Ent) (w : IWord)
  | usub (e : Ent) (w : IWord)
  | umul (e : Ent) (w : IWord)
  | ulop (e : Ent) (w : IWord)
  | ushf (e : Ent) (w : IWord)
  | usetp (e : Ent) (w : IWord)
  | v2u (e : Ent) (w : IWord)
  | plop (e : Ent) (w : IWord)
  -- the press (chapter 6)
  | mxbegin (e : Ent) (w : IWord)
  | pressGrant (core : Nat)
  | mxldin (e : Ent) (w : IWord)
  | mxstream (e : Ent) (w : IWord)
  | mxacc (e : Ent) (w : IWord)
  | mxdrain (e : Ent) (w : IWord)
  | mxwait (e : Ent) (w : IWord)
  | mxend (e : Ent) (w : IWord)
  | pressRelease (core : Nat)
  | matrixOpStart (core : Nat)
  | matrixOpDone (core : Nat)
  -- streams, messages, doorbell, update (chapters 5, 11, 12, 13)
  | sstart (e : Ent) (w : IWord)
  | swait (e : Ent) (w : IWord)
  | spoll (e : Ent) (w : IWord)
  | msend (e : Ent) (w : IWord)
  | doorbell (e : Ent) (w : IWord)
  | smupd (e : Ent) (w : IWord)
  | descriptorStart (desc : Nat)
  | descriptorComplete (desc : Nat)
  | wcBufferIssue (engine : Nat)
  | spillOldBlockFree (desc : Nat)
  | sessionRelease (session : Nat)
  | segmentWriteDrained (hoop : Nat)
  -- management commands (chapter 16), with header and parameter bytes
  | mgmtNop (h : MHdr) (p : Bytes)
  | hoopCreate (h : MHdr) (p : Bytes)
  | hoopResize (h : MHdr) (p : Bytes)
  | hoopDestroy (h : MHdr) (p : Bytes)
  | hoopQuery (h : MHdr) (p : Bytes)
  | queueCreate (h : MHdr) (p : Bytes)
  | queueReset (h : MHdr) (p : Bytes)
  | queueAbort (h : MHdr) (p : Bytes)
  | queueDestroy (h : MHdr) (p : Bytes)
  | segmentWrite (h : MHdr) (p : Bytes)
  | segmentCheck (h : MHdr) (p : Bytes)
  | kvPoolSet (h : MHdr) (p : Bytes)
  | sessionAlloc (h : MHdr) (p : Bytes)
  | sessionFree (h : MHdr) (p : Bytes)
  | sessionInfo (h : MHdr) (p : Bytes)
  | recipeLoad (h : MHdr) (p : Bytes)
  | wheelLoad (h : MHdr) (p : Bytes)
  | wheelPeriod (h : MHdr) (p : Bytes)
  | timeMasterSet (h : MHdr) (p : Bytes)
  | rxqConfig (h : MHdr) (p : Bytes)
  | routeQuery (h : MHdr) (p : Bytes)
  | boardMap (h : MHdr) (p : Bytes)
  | portEnable (h : MHdr) (p : Bytes)
  | powerCap (h : MHdr) (p : Bytes)
  | powerQuery (h : MHdr) (p : Bytes)
  | powerMode (h : MHdr) (p : Bytes)
  | statsConfig (h : MHdr) (p : Bytes)
  | histogramConfig (h : MHdr) (p : Bytes)
  | traceConfig (h : MHdr) (p : Bytes)
  | counterRead (h : MHdr) (p : Bytes)
  | watchSet (h : MHdr) (p : Bytes)
  | watchClear (h : MHdr) (p : Bytes)
  | debugNonce (h : MHdr) (p : Bytes)
  | debugUnlock (h : MHdr) (p : Bytes)
  | debugRelock (h : MHdr) (p : Bytes)
  | perturbSet (h : MHdr) (p : Bytes)
  | fwQuery (h : MHdr) (p : Bytes)
  | fwUpdate (h : MHdr) (p : Bytes)
  | identityGet (h : MHdr) (p : Bytes)
  | moduleReset (h : MHdr) (p : Bytes)
  | powerCycle (h : MHdr) (p : Bytes)
  | errSummaryRead (h : MHdr) (p : Bytes)
  -- register writes with rows of their own
  | mgmtRingEnable (fn : Nat) (value : W64)
  | mgmtTail (fn : Nat) (value : W32)
  | errqPtrHead (value : W32)
  | hoopErrqEnable (fn : Nat) (hoop : Nat) (value : W64)
  | hoopErrqPtrHead (fn : Nat) (hoop : Nat) (value : W32)
  | hoopWatchStopped (fn : Nat) (hoop : Nat)
  | hoopTracePtrHead (fn : Nat) (hoop : Nat) (value : W32)
  | cxlRetrain (port : Nat)
  | hdmCommit (decoder : Nat)
  | hdmUncommit (decoder : Nat)
  | recoveryResult (readBackOk : Bool)
  -- apertures, functions, PCIe
  | apertureRead (fn : Nat) (offset : Nat) (n : Nat)
  | apertureWrite (fn : Nat) (offset : Nat) (data : Bytes)
  | apertureAtomicop (fn : Nat) (offset : Nat) (op : Nat) (w64 : Bool) (operand : W64) (compare : W64)
  | vfFlr (vf : Nat)
  | vfDisable (vf : Nat)
  | busMasterEnable (fn : Nat) (on : Bool)
  | msixUnmask (fn : Nat) (vector : Nat)
  -- coherence (chapter 9)
  | rdShared (agent : Nat) (line : Nat) (hoop : Nat)
  | rdOwn (agent : Nat) (line : Nat) (hoop : Nat)
  | invOwn (agent : Nat) (line : Nat) (hoop : Nat)
  | wrLine (agent : Nat) (line : Nat) (req : LineWrite)
  | wb (agent : Nat) (line : Nat)
  | rdCur (agent : Nat) (line : Nat) (hoop : Nat)
  | wrCur (agent : Nat) (line : Nat) (req : LineWrite)
  | atomic (agent : Nat) (line : Nat) (req : LineAtomic)
  | snpShared (agent : Nat) (line : Nat)
  | snpInv (agent : Nat) (line : Nat)
  | snpCur (agent : Nat) (line : Nat)
  | rspI (agent : Nat) (line : Nat)
  | rspS (agent : Nat) (line : Nat)
  | rspFwd (agent : Nat) (line : Nat)
  | rspDirty (agent : Nat) (line : Nat)
  | cmp (agent : Nat) (line : Nat)
  | snoopTimeout (reporter : Nat) (suspect : Nat) (line : Nat)
  | completionTimeout (reporter : Nat) (suspect : Nat) (line : Nat)
  -- Klozar (chapter 14)
  | flitReceive (port : Nat) (f : RxFlit)
  | abortFlit (port : Nat) (f : RxFlit)
  | packetForward (port : Nat) (cls : Nat) (k : Pkt)
  | rdReq (port : Nat) (k : Pkt)
  | rdRsp (port : Nat) (k : Pkt)
  | wr (port : Nat) (k : Pkt)
  | wrAck (port : Nat) (k : Pkt)
  | atomPacket (port : Nat) (k : Pkt)
  | atomRsp (port : Nat) (k : Pkt)
  | refuse (port : Nat) (k : Pkt)
  | remoteTimeout (tag : Nat)
  | msg (port : Nat) (k : Pkt)
  | msgAck (port : Nat) (k : Pkt)
  | msgResend (tag : Nat)
  | tick (port : Nat) (k : Pkt)
  | tickIn (lowNs : Nat)
  | delayExchange (port : Nat)
  | delayReq (port : Nat) (k : Pkt)
  | delayRsp (port : Nat) (k : Pkt)
  | time (port : Nat) (k : Pkt)
  | boardUp (port : Nat) (k : Pkt)
  | portReport (port : Nat) (k : Pkt)
  | statsSummary (port : Nat) (k : Pkt)
  | linkState (port : Nat) (k : Pkt)
  | portTrained (port : Nat)
  | trainTimeout (port : Nat)
  | identifyDone (port : Nat) (partner : Partner)
  | portFailed (port : Nat) (condition : Nat)
  -- CXL (chapter 15)
  | cxlLinkDown (link : Nat)
  | cxlLinkTrain (link : Nat) (width : Nat) (speed : Nat) (capGib : Nat)
  -- power, start-up, thermal (chapters 18 to 20)
  | powerOn (straps : Straps)
  | perstNDeassert (straps : Straps)
  | startup (fault : Option (Nat × Nat))
  | thermalSample (readings : List (Option Int))
  | powerDecision (activity : List Nat)
  | powerMeasurement (watts : Nat) (activity : List (List Nat))
  | droop (rail : Nat)
  -- what completes a read of the host
  | pcieReadCompletion (tag : Nat) (status : Cpl) (data : Bytes)
  | pcieCompletionTimeout (tag : Nat)
  -- the commands without operands; then the rest: Lean's compiler builds no term of a constructor with operands past the 244th
  | mapperRun
  | wheelTick
  | substituteTick
  | missedTick
  | subslotBoundary
  | wheyDescriptorStart
  | debugLifetimeExpiry
  | fwProgramDone
  | recoveryGo
  | recoveryReset
  | pfFlr
  | pcieLinkDown
  | managerTick
  | tickSend
  | timeMasterLost
  | managerLost
  | routeInstall
  | perstNAssert
  | rollbackRaise
  | brownOut
  | coolantLoss
  | throttleStep
  | warmupEnd
  | opStep
  | ageingCounter
  | alertResponse
  | getEndpointId
  | getMessageTypeSupport
  | getVersion
  | getCapabilities
  | negotiateAlgorithms
  | getDigests
  | flowOkRise
  | pwrCycleReqRelease
  | pcieLinkUp
  | portRetrain (port : Nat)
  | cxlReadTimeout (address : Nat)
  | cxlEvent (link : Nat) (dpa : W64) (header : Bytes)
  | setEndpointId (eid : Byte)
  | getMctpVersionSupport (mtype : Byte)
  | getCertificate (slot : Nat) (offset : Nat) (length : Nat)
  | challenge (slot : Nat) (nonce : Bytes)
  | getMeasurements (index : Nat) (signed : Bool) (nonce : Bytes)
  | spdmUnsupportedRequest (code : Byte)
  | droopEnd (rail : Nat)
  | klozarTrainRetry (port : Nat)
  deriving DecidableEq, Repr

end Sys2Proof
end

