-- ==== Sys2Proof/Config.lean ====
section
/-! DEFINITION. What one part fixes and the manual does not give: free values, the results the manual bounds only,
and the named cryptographic standards, all as constants without a body. -/

namespace Sys2Proof.Config

/-- Free values (R100, R133, R191, R249, R316, R507): the n-th value that the manual leaves open. Log entry 5. -/
opaque freeValue : Nat → BitVec 64

/-- What a register or a byte of local store holds before its block has written it (R100): epoch, place. Log entry 5. -/
opaque freeCell : Nat → Nat → BitVec 64

/-- A byte of device memory whose contents the manual leaves undefined (R249, before R472). Log entry 7. -/
opaque lostByte : Nat → Nat → BitVec 8

/-- Which line of a full control cache leaves (R15, R242), of so many as it holds: the n-th choice. Log entry 13. -/
opaque controlVictim : Nat → Nat → Nat

/-- A special-function result where the manual gives a bound only (R154): function code 0x50 to 0x57, operand. Log entry 10. -/
opaque sfuResult : Nat → BitVec 32 → BitVec 32

/-- SHA-384 of a byte string, 48 bytes (named standard; R272, R446, R477). Log entry 11. -/
opaque sha384 : List (BitVec 8) → BitVec 384

/-- ECDSA P-384: key (96 bytes), signature (96 bytes), digest. Log entry 11. -/
opaque ecdsaVerify : List (BitVec 8) → List (BitVec 8) → BitVec 384 → Bool

/-- LMS with the parameter sets of R476: key (56 bytes), signature (2,668 bytes), message. Log entry 11. -/
opaque lmsVerify : List (BitVec 8) → List (BitVec 8) → List (BitVec 8) → Bool

/-- A P-384 private key by the counter-mode KDF of NIST SP 800-108 with HMAC-SHA-384, from the secret and a context (R481). Log entry 11. -/
opaque kdf : BitVec 384 → List (BitVec 8) → BitVec 384

/-- The public key of a P-384 private key, 96 bytes (R481). Log entry 11. -/
opaque publicKey : BitVec 384 → List (BitVec 8)

/-- A signature, 96 bytes, by a P-384 private key over a message (R481, R482). Log entry 11. -/
opaque ecdsaSign : BitVec 384 → List (BitVec 8) → List (BitVec 8)

/-- The X.509 certificate of a public key, signed by a private key (R481). Log entry 11. -/
opaque certify : BitVec 384 → List (BitVec 8) → List (BitVec 8)

/-- The Ryunex root (false) and intermediate (true) certificate that an image body carries (R481). Log entry 11. -/
opaque carried : Bool → List (BitVec 8) → List (BitVec 8)

/-- The setting that a Klozar port's equalisers reach (R359, R485): port, local time. Log entry 32. -/
opaque adapted : Nat → Nat → List (BitVec 8)

/-- What the module reports of an image while none runs (R482, R483): 0 SVN, 1 KEY_INDEX, 2 BODY_DIGEST, 3 the digest of the signed
part. Log entry 5. -/
opaque noImage : Nat → BitVec 384

/-- SHA-384 of the starter ROM, measurement 1 (R482). Log entry 11. -/
opaque starterDigest : BitVec 384

/-- The coefficient of an activity term in the estimate (R457): mode, point, term, in 2^-40 W for each unit of the term; fused or of the part number. Log entry 12. -/
opaque powerCoef : Bool → Nat → Nat → Nat

/-- The static term S of the estimate (R457, R463): mode, point, hottest reading, in W. Log entry 12. -/
opaque powerStatic : Bool → Nat → Int → Nat

/-- The activity list with every activity term at its maximum, at a point (R458). Log entry 12. -/
opaque maxActivity : Nat → List Nat

/-- The width (16, 8, 4, 2, 1 lanes) and the rate (64, 32, 16, 8, 5, 2.5 GT/s) at which the PCIe link trains, by the local time: the partner has a
part in both (R378). Log entry 47. -/
opaque pcieWidth : Nat → Fin 5
opaque pcieRate : Nat → Fin 6

/-- The vendor ID of the module's configuration space, which the manual names and does not give (R416). Log entry 47. -/
opaque pciVendor : BitVec 16

/-- Whether a rail's monitored margin lies below target (R468): rail, hour bits blown. Log entry 12. -/
opaque marginLow : Nat → Nat → Bool

/-- The JOB of a hoop of another chip (R353): which value was asked for, chip, hoop. Log entry 32. -/
opaque peerJob : Nat → Nat → Nat → BitVec 16

end Sys2Proof.Config
end

