-- ==== Sys2Proof/Machine/Tab.lean ====
section
/-! DEFINITION. Sparse tables: reading, writing and removing an entry, in one canonical form (keys strictly rising). -/

namespace Sys2Proof.Tab

/-- The value at a key, `dflt` where none is listed. -/
def get {α : Type} (dflt : α) : Tab α → Nat → α
  | [], _ => dflt
  | (k', v) :: t, k => if k' = k then v else get dflt t k

/-- The value at a key, if listed. -/
def find? {α : Type} : Tab α → Nat → Option α
  | [], _ => none
  | (k', v) :: t, k => if k' = k then some v else find? t k

/-- Put a value at its place in key order, over an older one. -/
def insert {α : Type} : Tab α → Nat → α → Tab α
  | [], k, v => [(k, v)]
  | (k', v') :: t, k, v =>
    if k < k' then (k, v) :: (k', v') :: t
    else if k' = k then (k, v) :: t
    else (k', v') :: insert t k v

/-- Remove every entry of a key. -/
def erase {α : Type} : Tab α → Nat → Tab α
  | [], _ => []
  | (k', v') :: t, k => if k' = k then erase t k else (k', v') :: erase t k

/-- Write a value; the default is not listed. -/
def put {α : Type} [DecidableEq α] (dflt : α) (t : Tab α) (k : Nat) (v : α) : Tab α :=
  if v = dflt then erase t k else insert t k v

/-- Keys strictly rise. -/
def sorted {α : Type} : Tab α → Bool
  | [] => true
  | [_] => true
  | (k, _) :: (k', v') :: t => decide (k < k') && sorted ((k', v') :: t)

/-- The keys listed. -/
def keys {α : Type} (t : Tab α) : List Nat := t.map (·.1)

/-- The values listed. -/
def vals {α : Type} (t : Tab α) : List α := t.map (·.2)

/-- The first key at or above `n` that is not listed, looking at `fuel` keys (the lowest free number of a pool). -/
def lowestFree {α : Type} (t : Tab α) (n fuel : Nat) : Option Nat :=
  ((List.range fuel).map (· + n)).find? (fun k => (find? t k).isNone)

end Sys2Proof.Tab
end

