-- ==== Sys2Proof/Machine/Memory.lean ====
section
/-! DEFINITION. Device memory: one byte per device address of the HBM3E and CXL tiers (R257), in one canonical form. -/

namespace Sys2Proof.Machine

/-- Device memory. `lost` is `none` when unlisted bytes read 0 (R472), and otherwise names the event that left the
contents undefined (R249): unlisted bytes are then free values. Log entry 7. -/
structure Memory where
  cells : Tab Byte
  lost : Option Nat
  deriving DecidableEq, Repr

/-- What a byte that nothing has written reads as. -/
def Memory.dflt (m : Memory) (a : Nat) : Byte :=
  match m.lost with
  | none => 0
  | some e => Config.lostByte e a

/-- The byte at an address. -/
def Memory.get (m : Memory) (a : Nat) : Byte := Tab.get (m.dflt a) m.cells a

/-- Write one byte; where unlisted bytes read 0, a zero is not listed. -/
def Memory.put (m : Memory) (a : Nat) (b : Byte) : Memory :=
  if m.lost = none ∧ b = 0 then { m with cells := Tab.erase m.cells a }
  else { m with cells := Tab.insert m.cells a b }

/-- Write bytes from an address up. -/
def Memory.write (m : Memory) (a : Nat) : Bytes → Memory
  | [] => m
  | b :: t => Memory.write (m.put a b) (a + 1) t

/-- Read `n` bytes from an address up. -/
def Memory.read (m : Memory) (a n : Nat) : Bytes := (List.range n).map (fun i => m.get (a + i))

/-- Every byte for which `p` holds becomes 0 (R38); the others keep what they hold. Where unlisted bytes are free, only
listed bytes and the addresses given can be set. -/
def Memory.clear (m : Memory) (p : Nat → Bool) : Memory :=
  match m.lost with
  | none => { m with cells := m.cells.filter (fun c => !p c.1) }
  | some _ => { m with cells := m.cells.map (fun c => if p c.1 then (c.1, 0) else c) }

/-- The canonical form: addresses strictly rise, and no listed byte is 0 where unlisted bytes read 0. -/
def Memory.wf (m : Memory) : Bool :=
  Tab.sorted m.cells && (m.lost.isSome || m.cells.all (fun c => c.2 != 0))

/-- Memory with every byte 0 (R472). -/
def Memory.zeroed : Memory := ⟨[], none⟩

/-- Memory whose contents the manual leaves undefined (R249). -/
def Memory.undefinedSince (e : Nat) : Memory := ⟨[], some e⟩

end Sys2Proof.Machine
end

