-- ==== Sys2Proof/Machine/Bits.lean ====
section
/-! DEFINITION. Bit fields, byte order and small arithmetic shared by every family. -/

namespace Sys2Proof.Machine

/-- Bits msb:lsb of a number (R6). -/
def bits (v msb lsb : Nat) : Nat := (v / 2 ^ lsb) % 2 ^ (msb + 1 - lsb)

/-- One bit of a number. -/
def bit (v n : Nat) : Bool := v.testBit n

/-- A number as 0 or 1. -/
def b2n (b : Bool) : Nat := if b then 1 else 0

/-- `n` bytes of a number, least significant first (R7). -/
def le : Nat → Nat → Bytes
  | 0, _ => []
  | n + 1, v => BitVec.ofNat 8 v :: le n (v / 256)

/-- The number that little-endian bytes spell (R7). -/
def ofLe : Bytes → Nat
  | [] => 0
  | b :: t => b.toNat + 256 * ofLe t

/-- `n` bytes of a number, most significant first (R346). -/
def be (n v : Nat) : Bytes := (le n v).reverse

/-- The number that most-significant-first bytes spell (R346). -/
def ofBe (b : Bytes) : Nat := ofLe b.reverse

/-- `n` bytes from offset `o` of a byte string; bytes beyond its end read 0. -/
def slice (b : Bytes) (o n : Nat) : Bytes :=
  let t := (b.drop o).take n
  t ++ List.replicate (n - t.length) 0

/-- The little-endian field of `n` bytes at offset `o`. -/
def fieldLe (b : Bytes) (o n : Nat) : Nat := ofLe (slice b o n)

/-- The most-significant-first field of `n` bytes at offset `o` (R346). -/
def fieldBe (b : Bytes) (o n : Nat) : Nat := ofBe (slice b o n)

/-- Whether every byte of a range is 0. -/
def zeroAt (b : Bytes) (o n : Nat) : Bool := (slice b o n).all (· == 0)

/-- The first offset of a list of reserved (offset, length) gaps whose bytes are not all 0 (R408 check 3, DETAIL of Table 16-2). -/
def firstNonzero (b : Bytes) (gaps : List (Nat × Nat)) : Option Nat :=
  (gaps.find? (fun g => !zeroAt b g.1 g.2)).map (·.1)

/-- Replace the bytes from offset `o`. -/
def splice (b : Bytes) (o : Nat) (v : Bytes) : Bytes := b.take o ++ v ++ b.drop (o + v.length)

/-- A number read as two's complement of `w` bits. -/
def signed (w v : Nat) : Int := if v % 2 ^ w < 2 ^ (w - 1) then (v % 2 ^ w : Nat) else (v % 2 ^ w : Nat) - (2 ^ w : Nat)

/-- The `w`-bit two's-complement code of an integer. -/
def unsigned (w : Nat) (i : Int) : Nat := (i % (2 ^ w : Nat)).toNat

/-- The number of 1 bits among the low `w` bits. -/
def popcount (w v : Nat) : Nat := ((List.range w).filter (fun i => v.testBit i)).length

/-- The positions of the 1 bits among the low `w` bits, rising. -/
def setBits (w v : Nat) : List Nat := (List.range w).filter (fun i => v.testBit i)

/-- A number with one bit set or cleared. -/
def setBit (v n : Nat) (b : Bool) : Nat :=
  if v.testBit n then (if b then v else v - 2 ^ n) else (if b then v + 2 ^ n else v)

/-- The mask with the given positions set. -/
def maskOf (l : List Nat) : Nat := l.foldl (fun m i => setBit m i true) 0

/-- The least number of a list. -/
def minOf : List Nat → Option Nat
  | [] => none
  | a :: t => some (t.foldl Nat.min a)

/-- Put a value into a sorted list, before its equals. -/
def insertBy {α : Type} (le : α → α → Bool) (a : α) : List α → List α
  | [] => [a]
  | b :: t => if le a b then a :: b :: t else b :: insertBy le a t

/-- A list in rising order; equals keep their order. -/
def sortBy {α : Type} (le : α → α → Bool) : List α → List α
  | [] => []
  | a :: t => insertBy le a (sortBy le t)

/-- Ceiling division. -/
def cdiv (a b : Nat) : Nat := (a + b - 1) / b

/-- A value rounded up to a multiple. -/
def roundUp (a b : Nat) : Nat := cdiv a b * b

/-- A saturating sum of `w` bits. -/
def satAdd (w a b : Nat) : Nat := Nat.min (a + b) (2 ^ w - 1)

/-- The difference of two free-running counts of `w` bits (R61, R55). -/
def ringDiff (w a b : Nat) : Nat := (a + 2 ^ w - b % 2 ^ w) % 2 ^ w

/-- One selection of a 16-bit Galois register with mask 0xB400 (R222). -/
def lfsr16 (s : Nat) : Nat :=
  let low := s % 2
  let s := s / 2
  if low = 1 then s ^^^ 0xB400 else s

/-- One shift of the 32-bit Galois register of R205. -/
def lfsr32 (s : Nat) : Nat :=
  let low := s % 2
  let s := s / 2
  if low = 1 then s ^^^ 0x80200003 else s

/-- A draw: 32 shifts (R205). -/
def draw (s : Nat) : Nat := (List.range 32).foldl (fun s _ => lfsr32 s) s

/-- The mixing function that seeds the generators (R206), modulo 2^32. -/
def mix (seed b i : Nat) : Nat :=
  let m := 2 ^ 32
  let s := (seed % m) ^^^ (b * 0x9e3779b9 % m) ^^^ (i * 0x6a09e667 % m)
  let s := (s ^^^ (s >>> 16)) * 0x2c1b3c6d % m
  let s := (s ^^^ (s >>> 15)) * 0x297a2d39 % m
  let s := s ^^^ (s >>> 16)
  if s = 0 then 1 else s

/-- The reversal of the low `w` bits. -/
def revBits (w v : Nat) : Nat := maskOf ((List.range w).filter (fun i => v.testBit (w - 1 - i)))

end Sys2Proof.Machine
end

