-- ==== Sys2Proof/Machine/Fields.lean ====
section
/-! DEFINITION. Register fields: where a field lies, its access code (Table 0-5) and its reset value. -/

namespace Sys2Proof.Machine

/-- The access codes of Table 0-5 (R9). -/
inductive Acc where
  | ro | rw | rwh | rwl | w1c | w1s | wo
  deriving DecidableEq, Repr

/-- A field: the address of its register's first instance, the stride of the instances, its lowest bit and width, its
access code, and the reset value of each instance. -/
structure Fld where
  base : Nat
  stride : Nat
  lo : Nat
  width : Nat
  acc : Acc
  rst : Nat → Nat

/-- A register: name, first address, stride, instances, width in bits, fields. -/
structure RegD where
  name : String
  base : Nat
  stride : Nat
  count : Nat
  bits : Nat
  fields : List Fld

/-- The key of instance `i` of a field in the register store: its register's address and its lowest bit. -/
def Fld.key (f : Fld) (i : Nat) : Nat := (f.base + f.stride * i) * 1024 + f.lo

/-- The value of a field in a register store. -/
def Fld.read (f : Fld) (r : Tab Nat) (i : Nat) : Nat := Tab.get (f.rst i) r (f.key i)

/-- A register store with a field written, cut to its width. -/
def Fld.write (f : Fld) (r : Tab Nat) (i v : Nat) : Tab Nat := Tab.put (f.rst i) r (f.key i) (v % 2 ^ f.width)

/-- The word a register reads as: its fields in place, reserved bits 0 (R11); a WO field reads 0 (R9). -/
def RegD.word (d : RegD) (r : Tab Nat) (i : Nat) : Nat :=
  d.fields.foldl (fun w f => w + (if f.acc = .wo then 0 else f.read r i) * 2 ^ f.lo) 0

/-- The bits of a register that some field covers; the others are reserved. -/
def RegD.covered (d : RegD) : Nat :=
  d.fields.foldl (fun w f => w ||| ((2 ^ f.width - 1) * 2 ^ f.lo)) 0

/-- The value a software write of `v` gives a field that holds `old`, by its access code (R9); `locked` is the lock of RWL. -/
def Acc.apply (a : Acc) (locked : Bool) (old v : Nat) : Nat :=
  match a with
  | .ro => old
  | .rw => v
  | .rwh => v
  | .rwl => if locked then old else v
  | .w1c => old - (old &&& v)
  | .w1s => old ||| v
  | .wo => old

end Sys2Proof.Machine
end

