-- ==== Sys2Proof/Machine/Regs.lean ====
section
/-! DEFINITION. Every register field of the manual, one definition each (R8), and the table of the registers they form. -/

namespace Sys2Proof.Machine.Reg

/-- HOOP_CFG.HOOP, bits 2:0 (R58). -/
def HOOP_CFG_HOOP : Fld := ⟨0x100010, 0x10000, 0, 3, .ro, fun _ => 0⟩

/-- HOOP_CFG.DEP_MODEL, bits 3 (R58). -/
def HOOP_CFG_DEP_MODEL : Fld := ⟨0x100010, 0x10000, 3, 1, .ro, fun _ => 0⟩

/-- HOOP_CFG.TABLES_LOCK, bits 4 (R58). -/
def HOOP_CFG_TABLES_LOCK : Fld := ⟨0x100010, 0x10000, 4, 1, .w1s, fun _ => 0⟩

/-- HOOP_CFG.WATCHDOG, bits 15:8 (R58). -/
def HOOP_CFG_WATCHDOG : Fld := ⟨0x100010, 0x10000, 8, 8, .ro, fun h => if h = 0 then 255 else 0⟩

/-- HOOP_CFG.STATE, bits 19:16 (R58). -/
def HOOP_CFG_STATE : Fld := ⟨0x100010, 0x10000, 16, 4, .ro, fun h => if h = 0 then 2 else 0⟩

/-- HOOP_CFG.LINK_SHARE, bits 26:20 (R58). -/
def HOOP_CFG_LINK_SHARE : Fld := ⟨0x100010, 0x10000, 20, 7, .ro, fun h => if h = 0 then 64 else 0⟩

/-- HOOP_CFG.SLOT_MIN, bits 39:32 (R58). -/
def HOOP_CFG_SLOT_MIN : Fld := ⟨0x100010, 0x10000, 32, 8, .ro, fun _ => 0⟩

/-- HOOP_CFG.SLOT_MAX, bits 47:40 (R58). -/
def HOOP_CFG_SLOT_MAX : Fld := ⟨0x100010, 0x10000, 40, 8, .ro, fun _ => 0⟩

/-- HOOP_CFG.POWER_SHARE, bits 54:48 (R58). -/
def HOOP_CFG_POWER_SHARE : Fld := ⟨0x100010, 0x10000, 48, 7, .ro, fun h => if h = 0 then 64 else 0⟩

/-- HOOP_STATUS.OVER_QUOTA, bits 0 (R59). -/
def HOOP_STATUS_OVER_QUOTA : Fld := ⟨0x100018, 0x10000, 0, 1, .ro, fun _ => 0⟩

/-- HOOP_STATUS.RELQ_FULL, bits 1 (R59). -/
def HOOP_STATUS_RELQ_FULL : Fld := ⟨0x100018, 0x10000, 1, 1, .ro, fun _ => 0⟩

/-- HOOP_STATUS.OVERRUN, bits 2 (R59). -/
def HOOP_STATUS_OVERRUN : Fld := ⟨0x100018, 0x10000, 2, 1, .w1c, fun _ => 0⟩

/-- HOOP_STATUS.WATCHDOG_FIRED, bits 3 (R59). -/
def HOOP_STATUS_WATCHDOG_FIRED : Fld := ⟨0x100018, 0x10000, 3, 1, .w1c, fun _ => 0⟩

/-- HOOP_STATUS.ABANDONED, bits 4 (R59). -/
def HOOP_STATUS_ABANDONED : Fld := ⟨0x100018, 0x10000, 4, 1, .w1c, fun _ => 0⟩

/-- HOOP_CLUSTERS.CLUSTERS, bits 31:0 (R59). -/
def HOOP_CLUSTERS_CLUSTERS : Fld := ⟨0x100020, 0x10000, 0, 32, .ro, fun h => if h = 0 then 4294967295 else 0⟩

/-- HOOP_CHGROUPS.GROUPS, bits 47:0 (R59). -/
def HOOP_CHGROUPS_GROUPS : Fld := ⟨0x100028, 0x10000, 0, 48, .ro, fun h => if h = 0 then 281474976710655 else 0⟩

/-- HOOP_CHGROUPS.RESERVE_GROUP, bits 53:48 (R59). -/
def HOOP_CHGROUPS_RESERVE_GROUP : Fld := ⟨0x100028, 0x10000, 48, 6, .ro, fun _ => 0⟩

/-- HOOP_WAYS.WAYS_d, bits 16 × d + 15 : 16 × d, d = 0–3 (R59). -/
def HOOP_WAYS_WAYS (i : Nat) : Fld := ⟨0x100030, 0x10000, 16 * i, 16, .ro, fun h => if h = 0 then 65535 else 0⟩

/-- HOOP_SESSIONS.BASE, bits 15:0 (R59). -/
def HOOP_SESSIONS_BASE : Fld := ⟨0x100038, 0x10000, 0, 16, .ro, fun _ => 0⟩

/-- HOOP_SESSIONS.COUNT, bits 32:16 (R59). -/
def HOOP_SESSIONS_COUNT : Fld := ⟨0x100038, 0x10000, 16, 17, .ro, fun h => if h = 0 then 65536 else 0⟩

/-- HOOP_SESSIONS.QUOTA, bits 49:33 (R59). -/
def HOOP_SESSIONS_QUOTA : Fld := ⟨0x100038, 0x10000, 33, 17, .ro, fun h => if h = 0 then 65536 else 0⟩

/-- HOOP_OBJTAB.ENTRIES_LOG2, bits 4:0 (R59). -/
def HOOP_OBJTAB_ENTRIES_LOG2 : Fld := ⟨0x100048, 0x10000, 0, 5, .rwl, fun _ => 0⟩

/-- HOOP_OBJTAB.BASE, bits 47:12 (R59). -/
def HOOP_OBJTAB_BASE : Fld := ⟨0x100048, 0x10000, 12, 36, .rwl, fun _ => 0⟩

/-- HOOP_RELQ.SIZE_LOG2, bits 4:0 (R59). -/
def HOOP_RELQ_SIZE_LOG2 : Fld := ⟨0x100050, 0x10000, 0, 5, .rwl, fun _ => 0⟩

/-- HOOP_RELQ.BASE, bits 47:12 (R59). -/
def HOOP_RELQ_BASE : Fld := ⟨0x100050, 0x10000, 12, 36, .rwl, fun _ => 0⟩

/-- HOOP_RELQ_PTR.TAIL, bits 31:0 (R59). -/
def HOOP_RELQ_PTR_TAIL : Fld := ⟨0x100058, 0x10000, 0, 32, .ro, fun _ => 0⟩

/-- HOOP_RELQ_PTR.HEAD, bits 63:32 (R59). -/
def HOOP_RELQ_PTR_HEAD : Fld := ⟨0x100058, 0x10000, 32, 32, .rw, fun _ => 0⟩

/-- HOOP_MEMQ.HBM_QUOTA, bits 15:0 (R59). -/
def HOOP_MEMQ_HBM_QUOTA : Fld := ⟨0x100060, 0x10000, 0, 16, .ro, fun h => if h = 0 then 1152 else 0⟩

/-- HOOP_MEMQ.HBM_USE, bits 31:16 (R59). -/
def HOOP_MEMQ_HBM_USE : Fld := ⟨0x100060, 0x10000, 16, 16, .ro, fun _ => 0⟩

/-- HOOP_MEMQ.CXL_QUOTA, bits 47:32 (R59). -/
def HOOP_MEMQ_CXL_QUOTA : Fld := ⟨0x100060, 0x10000, 32, 16, .ro, fun h => if h = 0 then 8192 else 0⟩

/-- HOOP_MEMQ.CXL_USE, bits 63:48 (R59). -/
def HOOP_MEMQ_CXL_USE : Fld := ⟨0x100060, 0x10000, 48, 16, .ro, fun _ => 0⟩

/-- HOOP_FENCES.BASE, bits 47:12 (R59). -/
def HOOP_FENCES_BASE : Fld := ⟨0x100068, 0x10000, 12, 36, .rwl, fun _ => 0⟩

/-- HOOP_FENCES.FENCES, bits 62:48 (R59). -/
def HOOP_FENCES_FENCES : Fld := ⟨0x100068, 0x10000, 48, 15, .ro, fun h => if h = 0 then 16384 else 0⟩

/-- HOOP_TICKS.TICKS, bits 63:0 (R59). -/
def HOOP_TICKS_TICKS : Fld := ⟨0x100070, 0x10000, 0, 64, .ro, fun _ => 0⟩

/-- WHEEL_STATUS.ROW, bits 7:0 (R60). -/
def WHEEL_STATUS_ROW : Fld := ⟨0x20000, 0x0, 0, 8, .ro, fun _ => 0⟩

/-- WHEEL_STATUS.SUBSLOT, bits 11:8 (R60). -/
def WHEEL_STATUS_SUBSLOT : Fld := ⟨0x20000, 0x0, 8, 4, .ro, fun _ => 0⟩

/-- WHEEL_STATUS.ROWS, bits 19:12 (R60). -/
def WHEEL_STATUS_ROWS : Fld := ⟨0x20000, 0x0, 12, 8, .ro, fun _ => 0⟩

/-- WHEEL_STATUS.PERIOD_US, bits 36:20 (R60). -/
def WHEEL_STATUS_PERIOD_US : Fld := ⟨0x20000, 0x0, 20, 17, .ro, fun _ => 1000⟩

/-- WHEEL_STATUS.REVOLUTIONS, bits 63:40 (R60). -/
def WHEEL_STATUS_REVOLUTIONS : Fld := ⟨0x20000, 0x0, 40, 24, .ro, fun _ => 0⟩

/-- HOOP_EVENTS.EVENTS, bits 14:0 (R70). -/
def HOOP_EVENTS_EVENTS : Fld := ⟨0x100078, 0x10000, 0, 15, .ro, fun h => if h = 0 then 16384 else 0⟩

/-- HOOP_RECIPES.STORE_MIB, bits 15:0 (R78). -/
def HOOP_RECIPES_STORE_MIB : Fld := ⟨0x100080, 0x10000, 0, 16, .ro, fun h => if h = 0 then 64 else 0⟩

/-- HOOP_RECIPES.LOADED, bits 26:16 (R78). -/
def HOOP_RECIPES_LOADED : Fld := ⟨0x100080, 0x10000, 16, 11, .ro, fun _ => 0⟩

/-- HOOP_RECIPES.LIVE, bits 37:32 (R78). -/
def HOOP_RECIPES_LIVE : Fld := ⟨0x100080, 0x10000, 32, 6, .ro, fun _ => 0⟩

/-- DISP_CFG.STAGGER_FC, bits 7:0 (R110). -/
def DISP_CFG_STAGGER_FC : Fld := ⟨0x21000, 0x8, 0, 8, .rw, fun _ => 24⟩

/-- DISP_CFG.RUN_BLOCKS, bits 14:8 (R110). -/
def DISP_CFG_RUN_BLOCKS : Fld := ⟨0x21000, 0x8, 8, 7, .rw, fun _ => 8⟩

/-- HOOP_NUMFLAGS.VECTOR, bits 3:0 (R211). -/
def HOOP_NUMFLAGS_VECTOR : Fld := ⟨0x100088, 0x10000, 0, 4, .w1c, fun _ => 0⟩

/-- HOOP_NUMFLAGS.PRESS, bits 7:4 (R211). -/
def HOOP_NUMFLAGS_PRESS : Fld := ⟨0x100088, 0x10000, 4, 4, .w1c, fun _ => 0⟩

/-- HOOP_NUMFLAGS.STREAM, bits 11:8 (R211). -/
def HOOP_NUMFLAGS_STREAM : Fld := ⟨0x100088, 0x10000, 8, 4, .w1c, fun _ => 0⟩

/-- HOOP_NUMFLAGS.UPDATE, bits 15:12 (R211). -/
def HOOP_NUMFLAGS_UPDATE : Fld := ⟨0x100088, 0x10000, 12, 4, .w1c, fun _ => 0⟩

/-- CORE_CURD.SPLIT, bits 4:0 (R236). -/
def CORE_CURD_SPLIT : Fld := ⟨0x30000, 0x20, 0, 5, .ro, fun _ => 0⟩

/-- CORE_CURD.BUSY, bits 5 (R236). -/
def CORE_CURD_BUSY : Fld := ⟨0x30000, 0x20, 5, 1, .ro, fun _ => 0⟩

/-- CORE_CURD.HOOP, bits 10:8 (R236). -/
def CORE_CURD_HOOP : Fld := ⟨0x30000, 0x20, 8, 3, .ro, fun _ => 0⟩

/-- CORE_CURD.L1_KIB, bits 28:16 (R236). -/
def CORE_CURD_L1_KIB : Fld := ⟨0x30000, 0x20, 16, 13, .ro, fun _ => 6144⟩

/-- CORE_REPAIR.PHYS, bits 6:0 (R236). -/
def CORE_REPAIR_PHYS : Fld := ⟨0x30008, 0x20, 0, 7, .ro, fun k => k % 64⟩

/-- CORE_REPAIR.ROW_SPARES, bits 9:8 (R236). -/
def CORE_REPAIR_ROW_SPARES : Fld := ⟨0x30008, 0x20, 8, 2, .ro, fun _ => 0⟩

/-- CORE_REPAIR.COL_SPARES, bits 11:10 (R236). -/
def CORE_REPAIR_COL_SPARES : Fld := ⟨0x30008, 0x20, 10, 2, .ro, fun _ => 0⟩

/-- CORE_REPAIR.ROW_OUT0, bits 23:16 (R236). -/
def CORE_REPAIR_ROW_OUT0 : Fld := ⟨0x30008, 0x20, 16, 8, .ro, fun _ => 0xFF⟩

/-- CORE_REPAIR.ROW_OUT1, bits 31:24 (R236). -/
def CORE_REPAIR_ROW_OUT1 : Fld := ⟨0x30008, 0x20, 24, 8, .ro, fun _ => 0xFF⟩

/-- CORE_REPAIR.COL_OUT0, bits 39:32 (R236). -/
def CORE_REPAIR_COL_OUT0 : Fld := ⟨0x30008, 0x20, 32, 8, .ro, fun _ => 0xFF⟩

/-- CORE_REPAIR.COL_OUT1, bits 47:40 (R236). -/
def CORE_REPAIR_COL_OUT1 : Fld := ⟨0x30008, 0x20, 40, 8, .ro, fun _ => 0xFF⟩

/-- CORE_ECC.CORR, bits 31:0 (R236). -/
def CORE_ECC_CORR : Fld := ⟨0x30010, 0x20, 0, 32, .rwh, fun _ => 0⟩

/-- CORE_ECC.UNCORR, bits 47:32 (R236). -/
def CORE_ECC_UNCORR : Fld := ⟨0x30010, 0x20, 32, 16, .rwh, fun _ => 0⟩

/-- DIE_REPAIR.OFF0, bits 6:0 (R236). -/
def DIE_REPAIR_OFF0 : Fld := ⟨0x32000, 0x10, 0, 7, .ro, fun _ => 64⟩

/-- DIE_REPAIR.OFF1, bits 14:8 (R236). -/
def DIE_REPAIR_OFF1 : Fld := ⟨0x32000, 0x10, 8, 7, .ro, fun _ => 65⟩

/-- L2_WAYS.OWNER_w, bits 4 × w + 3 : 4 × w, w = 0–15 (R236). -/
def L2_WAYS_OWNER (i : Nat) : Fld := ⟨0x32008, 0x10, 4 * i, 4, .ro, fun _ => 8⟩

/-- L2_ECC.CORR, bits 31:0 (R236). -/
def L2_ECC_CORR : Fld := ⟨0x32100, 0x8, 0, 32, .rwh, fun _ => 0⟩

/-- L2_ECC.UNCORR, bits 43:32 (R236). -/
def L2_ECC_UNCORR : Fld := ⟨0x32100, 0x8, 32, 12, .rwh, fun _ => 0⟩

/-- L2_ECC.PINNED, bits 55:48 (R236). -/
def L2_ECC_PINNED : Fld := ⟨0x32100, 0x8, 48, 8, .ro, fun _ => 0⟩

/-- COH_FATAL.VALID, bits 0 (R250). -/
def COH_FATAL_VALID : Fld := ⟨0x33000, 0x0, 0, 1, .w1c, fun _ => 0⟩

/-- COH_FATAL.CAUSE, bits 7:4 (R250). -/
def COH_FATAL_CAUSE : Fld := ⟨0x33000, 0x0, 4, 4, .ro, fun _ => 0⟩

/-- COH_FATAL.REPORTER, bits 10:8 (R250). -/
def COH_FATAL_REPORTER : Fld := ⟨0x33000, 0x0, 8, 3, .ro, fun _ => 0⟩

/-- COH_FATAL.SUSPECT, bits 14:12 (R250). -/
def COH_FATAL_SUSPECT : Fld := ⟨0x33000, 0x0, 12, 3, .ro, fun _ => 0⟩

/-- COH_FATAL.SLICE, bits 20:16 (R250). -/
def COH_FATAL_SLICE : Fld := ⟨0x33000, 0x0, 16, 5, .ro, fun _ => 0⟩

/-- COH_FATAL.TIME_US, bits 63:32 (R250). -/
def COH_FATAL_TIME_US : Fld := ⟨0x33000, 0x0, 32, 32, .ro, fun _ => 0⟩

/-- COH_FATAL_ADDR.LINE, bits 47:7 (R250). -/
def COH_FATAL_ADDR_LINE : Fld := ⟨0x33008, 0x0, 7, 41, .ro, fun _ => 0⟩

/-- FATAL_RECORD.RECORD, bits 511:0 (R250). -/
def FATAL_RECORD_RECORD : Fld := ⟨0x33040, 0x0, 0, 512, .ro, fun _ => 0⟩

/-- HOOP_SEGS.SEG_VALID, bits 15:0 (R277). -/
def HOOP_SEGS_SEG_VALID : Fld := ⟨0x100090, 0x10000, 0, 16, .ro, fun _ => 0⟩

/-- HOOP_SEGS.WIN_VALID, bits 31:16 (R277). -/
def HOOP_SEGS_WIN_VALID : Fld := ⟨0x100090, 0x10000, 16, 16, .ro, fun _ => 0⟩

/-- HOOP_SEGS.GEN, bits 63:32 (R277). -/
def HOOP_SEGS_GEN : Fld := ⟨0x100090, 0x10000, 32, 32, .ro, fun _ => 0⟩

/-- HOOP_REMOTE.JOB, bits 15:0 (R277). -/
def HOOP_REMOTE_JOB : Fld := ⟨0x100098, 0x10000, 0, 16, .ro, fun _ => 0⟩

/-- HOOP_REMOTE.SLICE_CHIPS, bits 28:16 (R277). -/
def HOOP_REMOTE_SLICE_CHIPS : Fld := ⟨0x100098, 0x10000, 16, 13, .ro, fun _ => 0⟩

/-- HOOP_CXL.BASE_GIB, bits 12:0 (R277). -/
def HOOP_CXL_BASE_GIB : Fld := ⟨0x1000a0, 0x10000, 0, 13, .ro, fun _ => 0⟩

/-- HOOP_CXL.SIZE_GIB, bits 29:16 (R277). -/
def HOOP_CXL_SIZE_GIB : Fld := ⟨0x1000a0, 0x10000, 16, 14, .ro, fun h => if h = 0 then 8192 else 0⟩

/-- STREAM_SPLIT.READ, bits 4:0 (R296). -/
def STREAM_SPLIT_READ : Fld := ⟨0x22000, 0x8, 0, 5, .rw, fun _ => 8⟩

/-- STREAM_SPLIT.WRITE, bits 12:8 (R296). -/
def STREAM_SPLIT_WRITE : Fld := ⟨0x22000, 0x8, 8, 5, .rw, fun _ => 6⟩

/-- STREAM_SPLIT.REMOTE, bits 20:16 (R296). -/
def STREAM_SPLIT_REMOTE : Fld := ⟨0x22000, 0x8, 16, 5, .rw, fun _ => 2⟩

/-- HOOP_WHEY.QUEUED, bits 8:0 (R300). -/
def HOOP_WHEY_QUEUED : Fld := ⟨0x1000a8, 0x10000, 0, 9, .ro, fun _ => 0⟩

/-- HOOP_WHEY.DONE, bits 63:32 (R300). -/
def HOOP_WHEY_DONE : Fld := ⟨0x1000a8, 0x10000, 32, 32, .ro, fun _ => 0⟩

/-- HOOP_KVPOOL_HBM.VALID, bits 0 (R322). -/
def HOOP_KVPOOL_HBM_VALID : Fld := ⟨0x1000b0, 0x10000, 0, 1, .ro, fun _ => 0⟩

/-- HOOP_KVPOOL_HBM.SEG, bits 4:1 (R322). -/
def HOOP_KVPOOL_HBM_SEG : Fld := ⟨0x1000b0, 0x10000, 1, 4, .ro, fun _ => 0⟩

/-- HOOP_KVPOOL_HBM.BLOCK_LOG2, bits 9:5 (R322). -/
def HOOP_KVPOOL_HBM_BLOCK_LOG2 : Fld := ⟨0x1000b0, 0x10000, 5, 5, .ro, fun _ => 0⟩

/-- HOOP_KVPOOL_HBM.BLOCKS, bits 43:16 (R322). -/
def HOOP_KVPOOL_HBM_BLOCKS : Fld := ⟨0x1000b0, 0x10000, 16, 28, .ro, fun _ => 0⟩

/-- HOOP_KVPOOL_CXL.VALID, bits 0 (R322). -/
def HOOP_KVPOOL_CXL_VALID : Fld := ⟨0x1000b8, 0x10000, 0, 1, .ro, fun _ => 0⟩

/-- HOOP_KVPOOL_CXL.SEG, bits 4:1 (R322). -/
def HOOP_KVPOOL_CXL_SEG : Fld := ⟨0x1000b8, 0x10000, 1, 4, .ro, fun _ => 0⟩

/-- HOOP_KVPOOL_CXL.BLOCK_LOG2, bits 9:5 (R322). -/
def HOOP_KVPOOL_CXL_BLOCK_LOG2 : Fld := ⟨0x1000b8, 0x10000, 5, 5, .ro, fun _ => 0⟩

/-- HOOP_KVPOOL_CXL.BLOCKS, bits 43:16 (R322). -/
def HOOP_KVPOOL_CXL_BLOCKS : Fld := ⟨0x1000b8, 0x10000, 16, 28, .ro, fun _ => 0⟩

/-- HOOP_KVUSE.LIVE, bits 16:0 (R322). -/
def HOOP_KVUSE_LIVE : Fld := ⟨0x1000c0, 0x10000, 0, 17, .ro, fun _ => 0⟩

/-- HOOP_KVUSE.DAMAGED, bits 48:32 (R322). -/
def HOOP_KVUSE_DAMAGED : Fld := ⟨0x1000c0, 0x10000, 32, 17, .ro, fun _ => 0⟩

/-- HOOP_KVFREE.HBM_FREE, bits 27:0 (R322). -/
def HOOP_KVFREE_HBM_FREE : Fld := ⟨0x1000c8, 0x10000, 0, 28, .ro, fun _ => 0⟩

/-- HOOP_KVFREE.CXL_FREE, bits 59:32 (R322). -/
def HOOP_KVFREE_CXL_FREE : Fld := ⟨0x1000c8, 0x10000, 32, 28, .ro, fun _ => 0⟩

/-- HOOP_SEGMAP.MAP_s, bits 4 × s + 3 : 4 × s, s = 0–15 (R341). -/
def HOOP_SEGMAP_MAP (i : Nat) : Fld := ⟨0x1000d0, 0x10000, 4 * i, 4, .ro, fun _ => i⟩

/-- HOOP_FLIP.PENDING, bits 0 (R341). -/
def HOOP_FLIP_PENDING : Fld := ⟨0x1000d8, 0x10000, 0, 1, .ro, fun _ => 0⟩

/-- HOOP_FLIP.DRAINING, bits 1 (R341). -/
def HOOP_FLIP_DRAINING : Fld := ⟨0x1000d8, 0x10000, 1, 1, .ro, fun _ => 0⟩

/-- HOOP_FLIP.APPLIED, bits 47:32 (R341). -/
def HOOP_FLIP_APPLIED : Fld := ⟨0x1000d8, 0x10000, 32, 16, .ro, fun _ => 0⟩

/-- HOOP_FLIP.DRAINED, bits 63:48 (R341). -/
def HOOP_FLIP_DRAINED : Fld := ⟨0x1000d8, 0x10000, 48, 16, .ro, fun _ => 0⟩

/-- KLZ_ID.SLOT, bits 2:0 (R375). -/
def KLZ_ID_SLOT : Fld := ⟨0x40000, 0x0, 0, 3, .ro, fun _ => 0⟩

/-- KLZ_ID.BOARD, bits 11:3 (R375). -/
def KLZ_ID_BOARD : Fld := ⟨0x40000, 0x0, 3, 9, .ro, fun _ => 0⟩

/-- KLZ_ID.MGR_EN, bits 12 (R375). -/
def KLZ_ID_MGR_EN : Fld := ⟨0x40000, 0x0, 12, 1, .ro, fun _ => 0⟩

/-- KLZ_ID.CHIP, bits 27:16 (R375). -/
def KLZ_ID_CHIP : Fld := ⟨0x40000, 0x0, 16, 12, .ro, fun _ => 0⟩

/-- KLZ_ID.ROLE, bits 29:28 (R375). -/
def KLZ_ID_ROLE : Fld := ⟨0x40000, 0x0, 28, 2, .ro, fun _ => 0⟩

/-- KLZ_ID.TIME_MASTER, bits 30 (R375). -/
def KLZ_ID_TIME_MASTER : Fld := ⟨0x40000, 0x0, 30, 1, .ro, fun _ => 0⟩

/-- KLZ_PORT_STATUS.STATE, bits 2:0 (R375). -/
def KLZ_PORT_STATUS_STATE : Fld := ⟨0x40100, 0x20, 0, 3, .ro, fun _ => 0⟩

/-- KLZ_PORT_STATUS.PARTNER_CHIP, bits 15:4 (R375). -/
def KLZ_PORT_STATUS_PARTNER_CHIP : Fld := ⟨0x40100, 0x20, 4, 12, .ro, fun _ => 0⟩

/-- KLZ_PORT_STATUS.PARTNER_PORT, bits 18:16 (R375). -/
def KLZ_PORT_STATUS_PARTNER_PORT : Fld := ⟨0x40100, 0x20, 16, 3, .ro, fun _ => 0⟩

/-- KLZ_PORT_STATUS.PARTNER_MGR, bits 19 (R375). -/
def KLZ_PORT_STATUS_PARTNER_MGR : Fld := ⟨0x40100, 0x20, 19, 1, .ro, fun _ => 0⟩

/-- KLZ_PORT_STATUS.FAILS, bits 23:20 (R375). -/
def KLZ_PORT_STATUS_FAILS : Fld := ⟨0x40100, 0x20, 20, 4, .ro, fun _ => 0⟩

/-- KLZ_PORT_STATUS.DISABLED, bits 24 (R375). -/
def KLZ_PORT_STATUS_DISABLED : Fld := ⟨0x40100, 0x20, 24, 1, .ro, fun _ => 0⟩

/-- KLZ_PORT_STATUS.DELAY_NS, bits 47:32 (R375). -/
def KLZ_PORT_STATUS_DELAY_NS : Fld := ⟨0x40100, 0x20, 32, 16, .ro, fun _ => 0⟩

/-- KLZ_PORT_ERR.FEC_CORR, bits 31:0 (R375). -/
def KLZ_PORT_ERR_FEC_CORR : Fld := ⟨0x40108, 0x20, 0, 32, .rwh, fun _ => 0⟩

/-- KLZ_PORT_ERR.REPLAYS, bits 47:32 (R375). -/
def KLZ_PORT_ERR_REPLAYS : Fld := ⟨0x40108, 0x20, 32, 16, .rwh, fun _ => 0⟩

/-- KLZ_PORT_ERR.FEC_UNCORR, bits 63:48 (R375). -/
def KLZ_PORT_ERR_FEC_UNCORR : Fld := ⟨0x40108, 0x20, 48, 16, .rwh, fun _ => 0⟩

/-- KLZ_PORT_TRAFFIC.TX_FLITS, bits 31:0 (R375). -/
def KLZ_PORT_TRAFFIC_TX_FLITS : Fld := ⟨0x40110, 0x20, 0, 32, .ro, fun _ => 0⟩

/-- KLZ_PORT_TRAFFIC.RX_FLITS, bits 63:32 (R375). -/
def KLZ_PORT_TRAFFIC_RX_FLITS : Fld := ⟨0x40110, 0x20, 32, 32, .ro, fun _ => 0⟩

/-- KLZ_TICK.SOURCE, bits 2:0 (R375). -/
def KLZ_TICK_SOURCE : Fld := ⟨0x40200, 0x0, 0, 3, .ro, fun _ => 0⟩

/-- KLZ_TICK.MGR_PRESENT, bits 3 (R375). -/
def KLZ_TICK_MGR_PRESENT : Fld := ⟨0x40200, 0x0, 3, 1, .ro, fun _ => 0⟩

/-- KLZ_TICK.TM_PRESENT, bits 4 (R375). -/
def KLZ_TICK_TM_PRESENT : Fld := ⟨0x40200, 0x0, 4, 1, .ro, fun _ => 0⟩

/-- KLZ_TICK.OFFSET_NS, bits 23:8 (R375). -/
def KLZ_TICK_OFFSET_NS : Fld := ⟨0x40200, 0x0, 8, 16, .ro, fun _ => 0⟩

/-- KLZ_TICK.MISSED, bits 63:32 (R375). -/
def KLZ_TICK_MISSED : Fld := ⟨0x40200, 0x0, 32, 32, .rwh, fun _ => 0⟩

/-- KLZ_TICK_IN.TICK_IN_DELAY_NS, bits 15:0 (R375). -/
def KLZ_TICK_IN_TICK_IN_DELAY_NS : Fld := ⟨0x40208, 0x0, 0, 16, .rw, fun _ => 0⟩

/-- KLZ_TICK_IN.TICK_IN_EN, bits 16 (R375). -/
def KLZ_TICK_IN_TICK_IN_EN : Fld := ⟨0x40208, 0x0, 16, 1, .rw, fun _ => 1⟩

/-- KLZ_ROUTE.GEN, bits 31:0 (R375). -/
def KLZ_ROUTE_GEN : Fld := ⟨0x40210, 0x0, 0, 32, .ro, fun _ => 0⟩

/-- KLZ_ROUTE.REACHABLE, bits 44:32 (R375). -/
def KLZ_ROUTE_REACHABLE : Fld := ⟨0x40210, 0x0, 32, 13, .ro, fun _ => 0⟩

/-- KLZ_TIMEOUT.REMOTE_TIMEOUT_MS, bits 6:0 (R375). -/
def KLZ_TIMEOUT_REMOTE_TIMEOUT_MS : Fld := ⟨0x40218, 0x0, 0, 7, .rw, fun _ => 4⟩

/-- KLZ_RT.PRIMARY, bits 3:0 (R375). -/
def KLZ_RT_PRIMARY : Fld := ⟨0x48000, 0x2, 0, 4, .ro, fun _ => 15⟩

/-- KLZ_RT.ALT, bits 7:4 (R375). -/
def KLZ_RT_ALT : Fld := ⟨0x48000, 0x2, 4, 4, .ro, fun _ => 15⟩

/-- KLZ_RT.HOPS, bits 10:8 (R375). -/
def KLZ_RT_HOPS : Fld := ⟨0x48000, 0x2, 8, 3, .ro, fun _ => 0⟩

/-- KLZ_RT.ALT_HOPS, bits 13:11 (R375). -/
def KLZ_RT_ALT_HOPS : Fld := ⟨0x48000, 0x2, 11, 3, .ro, fun _ => 0⟩

/-- HOOP_LINK.RESHAPED, bits 0 (R376). -/
def HOOP_LINK_RESHAPED : Fld := ⟨0x1000e0, 0x10000, 0, 1, .w1c, fun _ => 0⟩

/-- HOOP_LINK.MGR_LOST, bits 1 (R376). -/
def HOOP_LINK_MGR_LOST : Fld := ⟨0x1000e0, 0x10000, 1, 1, .w1c, fun _ => 0⟩

/-- HOOP_LINK.RESHAPES, bits 31:16 (R376). -/
def HOOP_LINK_RESHAPES : Fld := ⟨0x1000e0, 0x10000, 16, 16, .ro, fun _ => 0⟩

/-- HOOP_LINK.ROUTE_GEN, bits 63:32 (R376). -/
def HOOP_LINK_ROUTE_GEN : Fld := ⟨0x1000e0, 0x10000, 32, 32, .ro, fun _ => 0⟩

/-- HOOP_RXQ.ENABLED, bits 15:0 (R376). -/
def HOOP_RXQ_ENABLED : Fld := ⟨0x1000e8, 0x10000, 0, 16, .ro, fun _ => 0⟩

/-- PF_APERTURE.BASE, bits 13:0 (R386). -/
def PF_APERTURE_BASE : Fld := ⟨0x100, 0x0, 0, 14, .rw, fun _ => 0⟩

/-- HOOP_APERTURE.BASE, bits 17:0 (R387). -/
def HOOP_APERTURE_BASE : Fld := ⟨0x1000f0, 0x10000, 0, 18, .rw, fun _ => 0⟩

/-- CXL_PORT_CFG.BIFURCATE, bits 0 (R403). -/
def CXL_PORT_CFG_BIFURCATE : Fld := ⟨0x50000, 0x8, 0, 1, .rw, fun _ => 0⟩

/-- CXL_PORT_CFG.RETRAIN, bits 1 (R403). -/
def CXL_PORT_CFG_RETRAIN : Fld := ⟨0x50000, 0x8, 1, 1, .wo, fun _ => 0⟩

/-- CXL_LINK_STATUS.STATE, bits 1:0 (R403). -/
def CXL_LINK_STATUS_STATE : Fld := ⟨0x50100, 0x8, 0, 2, .ro, fun _ => 0⟩

/-- CXL_LINK_STATUS.WIDTH, bits 6:2 (R403). -/
def CXL_LINK_STATUS_WIDTH : Fld := ⟨0x50100, 0x8, 2, 5, .ro, fun _ => 0⟩

/-- CXL_LINK_STATUS.SPEED, bits 9:7 (R403). -/
def CXL_LINK_STATUS_SPEED : Fld := ⟨0x50100, 0x8, 7, 3, .ro, fun _ => 0⟩

/-- CXL_LINK_STATUS.DEVICE, bits 10 (R403). -/
def CXL_LINK_STATUS_DEVICE : Fld := ⟨0x50100, 0x8, 10, 1, .ro, fun _ => 0⟩

/-- CXL_LINK_STATUS.CAP_GIB, bits 47:32 (R403). -/
def CXL_LINK_STATUS_CAP_GIB : Fld := ⟨0x50100, 0x8, 32, 16, .ro, fun _ => 0⟩

/-- CXL_HDM_RANGE.BASE, bits 14:0 (R403). -/
def CXL_HDM_RANGE_BASE : Fld := ⟨0x51000, 0x10, 0, 15, .rwl, fun _ => 0⟩

/-- CXL_HDM_RANGE.SIZE, bits 31:16 (R403). -/
def CXL_HDM_RANGE_SIZE : Fld := ⟨0x51000, 0x10, 16, 16, .rwl, fun _ => 0⟩

/-- CXL_HDM_RANGE.DPA_BASE, bits 47:32 (R403). -/
def CXL_HDM_RANGE_DPA_BASE : Fld := ⟨0x51000, 0x10, 32, 16, .rwl, fun _ => 0⟩

/-- CXL_HDM_CTRL.WAYS, bits 0 (R403). -/
def CXL_HDM_CTRL_WAYS : Fld := ⟨0x51008, 0x10, 0, 1, .rwl, fun _ => 0⟩

/-- CXL_HDM_CTRL.T0, bits 2:1 (R403). -/
def CXL_HDM_CTRL_T0 : Fld := ⟨0x51008, 0x10, 1, 2, .rwl, fun _ => 0⟩

/-- CXL_HDM_CTRL.T1, bits 4:3 (R403). -/
def CXL_HDM_CTRL_T1 : Fld := ⟨0x51008, 0x10, 3, 2, .rwl, fun _ => 0⟩

/-- CXL_HDM_CTRL.COMMIT, bits 8 (R403). -/
def CXL_HDM_CTRL_COMMIT : Fld := ⟨0x51008, 0x10, 8, 1, .rwh, fun _ => 0⟩

/-- CXL_HDM_CTRL.COMMITTED, bits 9 (R403). -/
def CXL_HDM_CTRL_COMMITTED : Fld := ⟨0x51008, 0x10, 9, 1, .ro, fun _ => 0⟩

/-- CXL_HDM_CTRL.ERROR, bits 10 (R403). -/
def CXL_HDM_CTRL_ERROR : Fld := ⟨0x51008, 0x10, 10, 1, .ro, fun _ => 0⟩

/-- CXL_HDM_CTRL.PAIRED, bits 11 (R403). -/
def CXL_HDM_CTRL_PAIRED : Fld := ⟨0x51008, 0x10, 11, 1, .ro, fun _ => 0⟩

/-- CXL_HDM_CTRL.LOST, bits 12 (R403). -/
def CXL_HDM_CTRL_LOST : Fld := ⟨0x51008, 0x10, 12, 1, .w1c, fun _ => 0⟩

/-- MGMT_RING.ENABLE, bits 0 (R404). -/
def MGMT_RING_ENABLE : Fld := ⟨0x8000000, 0x1000, 0, 1, .rw, fun _ => 0⟩

/-- MGMT_RING.SIZE_LOG2, bits 7:4 (R404). -/
def MGMT_RING_SIZE_LOG2 : Fld := ⟨0x8000000, 0x1000, 4, 4, .rwl, fun _ => 0⟩

/-- MGMT_RING.BASE, bits 63:12 (R404). -/
def MGMT_RING_BASE : Fld := ⟨0x8000000, 0x1000, 12, 52, .rwl, fun _ => 0⟩

/-- MGMT_TAIL.TAIL, bits 31:0 (R404). -/
def MGMT_TAIL_TAIL : Fld := ⟨0x8000008, 0x1000, 0, 32, .rw, fun _ => 0⟩

/-- MGMT_HEAD.HEAD, bits 31:0 (R404). -/
def MGMT_HEAD_HEAD : Fld := ⟨0x8000010, 0x1000, 0, 32, .ro, fun _ => 0⟩

/-- MGMT_STATUS.BUSY, bits 0 (R404). -/
def MGMT_STATUS_BUSY : Fld := ⟨0x8000018, 0x1000, 0, 1, .ro, fun _ => 0⟩

/-- MGMT_STATUS.FETCH_FAULT, bits 1 (R404). -/
def MGMT_STATUS_FETCH_FAULT : Fld := ⟨0x8000018, 0x1000, 1, 1, .w1c, fun _ => 0⟩

/-- MGMT_STATUS.TAIL_INVALID, bits 2 (R404). -/
def MGMT_STATUS_TAIL_INVALID : Fld := ⟨0x8000018, 0x1000, 2, 1, .w1c, fun _ => 0⟩

/-- MGMT_STATUS.OPCODE, bits 15:8 (R404). -/
def MGMT_STATUS_OPCODE : Fld := ⟨0x8000018, 0x1000, 8, 8, .ro, fun _ => 0⟩

/-- ERRQ_BASE.ADDR, bits 43:0 (R423). -/
def ERRQ_BASE_ADDR : Fld := ⟨0x60000, 0x0, 0, 44, .ro, fun _ => 0x011FFFF00000⟩

/-- ERRQ_PTR.TAIL, bits 31:0 (R423). -/
def ERRQ_PTR_TAIL : Fld := ⟨0x60008, 0x0, 0, 32, .ro, fun _ => 0⟩

/-- ERRQ_PTR.HEAD, bits 63:32 (R423). -/
def ERRQ_PTR_HEAD : Fld := ⟨0x60008, 0x0, 32, 32, .rw, fun _ => 0⟩

/-- ERR_SUMMARY.CLASS, bits 15:0 (R423). -/
def ERR_SUMMARY_CLASS : Fld := ⟨0x60010, 0x0, 0, 16, .w1c, fun _ => 0⟩

/-- ERR_SUMMARY.DROPPED, bits 31:16 (R423). -/
def ERR_SUMMARY_DROPPED : Fld := ⟨0x60010, 0x0, 16, 16, .w1c, fun _ => 0⟩

/-- ERRQ_CTRL.IRQ_EN, bits 0 (R423). -/
def ERRQ_CTRL_IRQ_EN : Fld := ⟨0x60018, 0x0, 0, 1, .rw, fun _ => 0⟩

/-- HOOP_ERRQ.ENABLE, bits 0 (R424). -/
def HOOP_ERRQ_ENABLE : Fld := ⟨0x100100, 0x10000, 0, 1, .rw, fun _ => 0⟩

/-- HOOP_ERRQ.SIZE_LOG2, bits 4:1 (R424). -/
def HOOP_ERRQ_SIZE_LOG2 : Fld := ⟨0x100100, 0x10000, 1, 4, .rwl, fun _ => 0⟩

/-- HOOP_ERRQ.BASE, bits 47:12 (R424). -/
def HOOP_ERRQ_BASE : Fld := ⟨0x100100, 0x10000, 12, 36, .rwl, fun _ => 0⟩

/-- HOOP_ERRQ_PTR.TAIL, bits 31:0 (R424). -/
def HOOP_ERRQ_PTR_TAIL : Fld := ⟨0x100108, 0x10000, 0, 32, .ro, fun _ => 0⟩

/-- HOOP_ERRQ_PTR.HEAD, bits 63:32 (R424). -/
def HOOP_ERRQ_PTR_HEAD : Fld := ⟨0x100108, 0x10000, 32, 32, .rw, fun _ => 0⟩

/-- HOOP_ERR_SUMMARY.CLASS, bits 15:0 (R424). -/
def HOOP_ERR_SUMMARY_CLASS : Fld := ⟨0x100110, 0x10000, 0, 16, .w1c, fun _ => 0⟩

/-- HOOP_ERR_SUMMARY.DROPPED, bits 31:16 (R424). -/
def HOOP_ERR_SUMMARY_DROPPED : Fld := ⟨0x100110, 0x10000, 16, 16, .w1c, fun _ => 0⟩

/-- HOOP_STATS.ENABLE, bits 0 (R451). -/
def HOOP_STATS_ENABLE : Fld := ⟨0x100120, 0x10000, 0, 1, .ro, fun _ => 0⟩

/-- HOOP_STATS.FAULT, bits 1 (R451). -/
def HOOP_STATS_FAULT : Fld := ⟨0x100120, 0x10000, 1, 1, .w1c, fun _ => 0⟩

/-- HOOP_STATS.LAST, bits 13:8 (R451). -/
def HOOP_STATS_LAST : Fld := ⟨0x100120, 0x10000, 8, 6, .ro, fun _ => 0⟩

/-- HOOP_STATS.BASE, bits 47:18 (R451). -/
def HOOP_STATS_BASE : Fld := ⟨0x100120, 0x10000, 18, 30, .ro, fun _ => 0⟩

/-- HOOP_TRACE.ENABLE, bits 0 (R451). -/
def HOOP_TRACE_ENABLE : Fld := ⟨0x100128, 0x10000, 0, 1, .ro, fun _ => 0⟩

/-- HOOP_TRACE.WRAP, bits 1 (R451). -/
def HOOP_TRACE_WRAP : Fld := ⟨0x100128, 0x10000, 1, 1, .ro, fun _ => 0⟩

/-- HOOP_TRACE.DROPPED, bits 2 (R451). -/
def HOOP_TRACE_DROPPED : Fld := ⟨0x100128, 0x10000, 2, 1, .w1c, fun _ => 0⟩

/-- HOOP_TRACE.SIZE_LOG2, bits 9:5 (R451). -/
def HOOP_TRACE_SIZE_LOG2 : Fld := ⟨0x100128, 0x10000, 5, 5, .ro, fun _ => 0⟩

/-- HOOP_TRACE.BASE, bits 47:12 (R451). -/
def HOOP_TRACE_BASE : Fld := ⟨0x100128, 0x10000, 12, 36, .ro, fun _ => 0⟩

/-- HOOP_TRACE.LOST, bits 63:48 (R451). -/
def HOOP_TRACE_LOST : Fld := ⟨0x100128, 0x10000, 48, 16, .rwh, fun _ => 0⟩

/-- HOOP_TRACE_PTR.TAIL, bits 31:0 (R451). -/
def HOOP_TRACE_PTR_TAIL : Fld := ⟨0x100130, 0x10000, 0, 32, .ro, fun _ => 0⟩

/-- HOOP_TRACE_PTR.HEAD, bits 63:32 (R451). -/
def HOOP_TRACE_PTR_HEAD : Fld := ⟨0x100130, 0x10000, 32, 32, .rw, fun _ => 0⟩

/-- HOOP_WATCH.ENABLED, bits 15:0 (R451). -/
def HOOP_WATCH_ENABLED : Fld := ⟨0x100138, 0x10000, 0, 16, .ro, fun _ => 0⟩

/-- HOOP_WATCH.HIT, bits 31:16 (R451). -/
def HOOP_WATCH_HIT : Fld := ⟨0x100138, 0x10000, 16, 16, .w1c, fun _ => 0⟩

/-- HOOP_WATCH.STOPPED, bits 32 (R451). -/
def HOOP_WATCH_STOPPED : Fld := ⟨0x100138, 0x10000, 32, 1, .w1c, fun _ => 0⟩

/-- DEBUG_STATUS.UNLOCKED, bits 0 (R452). -/
def DEBUG_STATUS_UNLOCKED : Fld := ⟨0x61000, 0x0, 0, 1, .ro, fun _ => 0⟩

/-- DEBUG_STATUS.PERTURB_ACTIVE, bits 1 (R452). -/
def DEBUG_STATUS_PERTURB_ACTIVE : Fld := ⟨0x61000, 0x0, 1, 1, .ro, fun _ => 0⟩

/-- DEBUG_STATUS.REMAINING, bits 63:32 (R452). -/
def DEBUG_STATUS_REMAINING : Fld := ⟨0x61000, 0x0, 32, 32, .ro, fun _ => 0⟩

/-- PERTURB_CFG.TARGET, bits 2:0 (R452). -/
def PERTURB_CFG_TARGET : Fld := ⟨0x61100, 0x10, 0, 3, .ro, fun _ => 0⟩

/-- PERTURB_CFG.SELECT, bits 10:8 (R452). -/
def PERTURB_CFG_SELECT : Fld := ⟨0x61100, 0x10, 8, 3, .ro, fun _ => 0⟩

/-- PERTURB_CFG.RATE_LOG2, bits 19:16 (R452). -/
def PERTURB_CFG_RATE_LOG2 : Fld := ⟨0x61100, 0x10, 16, 4, .ro, fun _ => 0⟩

/-- PERTURB_CFG.DELAY, bits 47:32 (R452). -/
def PERTURB_CFG_DELAY : Fld := ⟨0x61100, 0x10, 32, 16, .ro, fun _ => 0⟩

/-- PERTURB_CFG.SEED, bits 63:48 (R452). -/
def PERTURB_CFG_SEED : Fld := ⟨0x61100, 0x10, 48, 16, .ro, fun _ => 0⟩

/-- PERTURB_HITS.HITS, bits 63:0 (R452). -/
def PERTURB_HITS_HITS : Fld := ⟨0x61108, 0x10, 0, 64, .ro, fun _ => 0⟩

/-- POWER_STATUS.POINT, bits 3:0 (R470). -/
def POWER_STATUS_POINT : Fld := ⟨0x70000, 0x0, 0, 4, .ro, fun _ => 0⟩

/-- POWER_STATUS.CEILING, bits 7:4 (R470). -/
def POWER_STATUS_CEILING : Fld := ⟨0x70000, 0x0, 4, 4, .ro, fun _ => 0⟩

/-- POWER_STATUS.MODE, bits 8 (R470). -/
def POWER_STATUS_MODE : Fld := ⟨0x70000, 0x0, 8, 1, .ro, fun _ => 0⟩

/-- POWER_STATUS.WARMUP, bits 9 (R470). -/
def POWER_STATUS_WARMUP : Fld := ⟨0x70000, 0x0, 9, 1, .ro, fun _ => 1⟩

/-- POWER_STATUS.DISTRUST, bits 10 (R470). -/
def POWER_STATUS_DISTRUST : Fld := ⟨0x70000, 0x0, 10, 1, .ro, fun _ => 0⟩

/-- POWER_STATUS.BELOW_FLOOR, bits 11 (R470). -/
def POWER_STATUS_BELOW_FLOOR : Fld := ⟨0x70000, 0x0, 11, 1, .ro, fun _ => 0⟩

/-- POWER_STATUS.THROTTLE, bits 12 (R470). -/
def POWER_STATUS_THROTTLE : Fld := ⟨0x70000, 0x0, 12, 1, .ro, fun _ => 0⟩

/-- POWER_STATUS.AGEING_LIMIT, bits 13 (R470). -/
def POWER_STATUS_AGEING_LIMIT : Fld := ⟨0x70000, 0x0, 13, 1, .ro, fun _ => 0⟩

/-- POWER_STATUS.DUTY, bits 19:16 (R470). -/
def POWER_STATUS_DUTY : Fld := ⟨0x70000, 0x0, 16, 4, .ro, fun _ => 0⟩

/-- POWER_STATUS.OP_MAX, bits 23:20 (R470). -/
def POWER_STATUS_OP_MAX : Fld := ⟨0x70000, 0x0, 20, 4, .ro, fun _ => 0⟩

/-- POWER_MEAS.MEASURED_W, bits 15:0 (R470). -/
def POWER_MEAS_MEASURED_W : Fld := ⟨0x70008, 0x0, 0, 16, .ro, fun _ => 0⟩

/-- POWER_MEAS.ESTIMATE_W, bits 31:16 (R470). -/
def POWER_MEAS_ESTIMATE_W : Fld := ⟨0x70008, 0x0, 16, 16, .ro, fun _ => 0⟩

/-- POWER_MEAS.FLOOR_W, bits 47:32 (R470). -/
def POWER_MEAS_FLOOR_W : Fld := ⟨0x70008, 0x0, 32, 16, .ro, fun _ => 0⟩

/-- POWER_MEAS.CAP_W, bits 63:48 (R470). -/
def POWER_MEAS_CAP_W : Fld := ⟨0x70008, 0x0, 48, 16, .ro, fun _ => 2400⟩

/-- POWER_EVENTS.MISMATCHES, bits 15:0 (R470). -/
def POWER_EVENTS_MISMATCHES : Fld := ⟨0x70010, 0x0, 0, 16, .rwh, fun _ => 0⟩

/-- POWER_EVENTS.CAP_EXCURSIONS, bits 31:16 (R470). -/
def POWER_EVENTS_CAP_EXCURSIONS : Fld := ⟨0x70010, 0x0, 16, 16, .rwh, fun _ => 0⟩

/-- POWER_EVENTS.DROOPS, bits 63:32 (R470). -/
def POWER_EVENTS_DROOPS : Fld := ⟨0x70010, 0x0, 32, 32, .rwh, fun _ => 0⟩

/-- THERM_LIMITS.WARN, bits 11:0 (R470). -/
def THERM_LIMITS_WARN : Fld := ⟨0x70100, 0x8, 0, 12, .rw, fun z => if z = 2 then 0x550 else 0x5F0⟩

/-- THERM_LIMITS.THROTTLE, bits 27:16 (R470). -/
def THERM_LIMITS_THROTTLE : Fld := ⟨0x70100, 0x8, 16, 12, .rw, fun z => if z = 2 then 0x5F0 else 0x690⟩

/-- THERM_LIMITS.TRIP, bits 43:32 (R470). -/
def THERM_LIMITS_TRIP : Fld := ⟨0x70100, 0x8, 32, 12, .ro, fun z => if z = 2 then 0x690 else 0x730⟩

/-- THERM_POINT.TEMP, bits 15:0 (R470). -/
def THERM_POINT_TEMP : Fld := ⟨0x71000, 0x4, 0, 16, .ro, fun _ => 0⟩

/-- THERM_POINT.VALID, bits 16 (R470). -/
def THERM_POINT_VALID : Fld := ⟨0x71000, 0x4, 16, 1, .ro, fun _ => 0⟩

/-- THERM_POINT.WARN, bits 17 (R470). -/
def THERM_POINT_WARN : Fld := ⟨0x71000, 0x4, 17, 1, .ro, fun _ => 0⟩

/-- THERM_POINT.THROTTLE, bits 18 (R470). -/
def THERM_POINT_THROTTLE : Fld := ⟨0x71000, 0x4, 18, 1, .ro, fun _ => 0⟩

/-- THERM_POINT.FAULT, bits 19 (R470). -/
def THERM_POINT_FAULT : Fld := ⟨0x71000, 0x4, 19, 1, .ro, fun _ => 0⟩

/-- AGEING.BASELINE_MV, bits 9:0 (R470). -/
def AGEING_BASELINE_MV : Fld := ⟨0x72000, 0x8, 0, 10, .ro, fun _ => 0⟩

/-- AGEING.TRIM_MV, bits 15:10 (R470). -/
def AGEING_TRIM_MV : Fld := ⟨0x72000, 0x8, 10, 6, .ro, fun _ => 0⟩

/-- AGEING.LIMIT, bits 16 (R470). -/
def AGEING_LIMIT : Fld := ⟨0x72000, 0x8, 16, 1, .ro, fun _ => 0⟩

/-- AGEING.HOURS, bits 63:32 (R470). -/
def AGEING_HOURS : Fld := ⟨0x72000, 0x8, 32, 32, .ro, fun _ => 0⟩

/-- BOOT_STATUS.STAGE, bits 3:0 (R484). -/
def BOOT_STATUS_STAGE : Fld := ⟨0x80000, 0x0, 0, 4, .ro, fun _ => 0⟩

/-- BOOT_STATUS.CAUSE, bits 15:8 (R484). -/
def BOOT_STATUS_CAUSE : Fld := ⟨0x80000, 0x0, 8, 8, .ro, fun _ => 0⟩

/-- BOOT_STATUS.DETAIL, bits 23:16 (R484). -/
def BOOT_STATUS_DETAIL : Fld := ⟨0x80000, 0x0, 16, 8, .ro, fun _ => 0⟩

/-- BOOT_STATUS.BOOT_MS, bits 63:32 (R484). -/
def BOOT_STATUS_BOOT_MS : Fld := ⟨0x80000, 0x0, 32, 32, .ro, fun _ => 0⟩

/-- RECOVERY_CTRL.LENGTH, bits 26:0 (R484). -/
def RECOVERY_CTRL_LENGTH : Fld := ⟨0x80008, 0x0, 0, 27, .rw, fun _ => 0⟩

/-- RECOVERY_CTRL.GO, bits 32 (R484). -/
def RECOVERY_CTRL_GO : Fld := ⟨0x80008, 0x0, 32, 1, .wo, fun _ => 0⟩

/-- RECOVERY_CTRL.BUSY, bits 33 (R484). -/
def RECOVERY_CTRL_BUSY : Fld := ⟨0x80008, 0x0, 33, 1, .ro, fun _ => 0⟩

/-- RECOVERY_CTRL.RESULT, bits 41:40 (R484). -/
def RECOVERY_CTRL_RESULT : Fld := ⟨0x80008, 0x0, 40, 2, .ro, fun _ => 0⟩

/-- The registers of hoop windows (R58, R277, R322, R341, R376, R387, R424, R451). -/
def hoopTable : List RegD := [
  ⟨"HOOP_CFG", 0x100010, 0x10000, 8, 64, [HOOP_CFG_HOOP] ++ [HOOP_CFG_DEP_MODEL] ++ [HOOP_CFG_TABLES_LOCK] ++ [HOOP_CFG_WATCHDOG] ++ [HOOP_CFG_STATE] ++ [HOOP_CFG_LINK_SHARE] ++ [HOOP_CFG_SLOT_MIN] ++ [HOOP_CFG_SLOT_MAX] ++ [HOOP_CFG_POWER_SHARE]⟩,
  ⟨"HOOP_STATUS", 0x100018, 0x10000, 8, 64, [HOOP_STATUS_OVER_QUOTA] ++ [HOOP_STATUS_RELQ_FULL] ++ [HOOP_STATUS_OVERRUN] ++ [HOOP_STATUS_WATCHDOG_FIRED] ++ [HOOP_STATUS_ABANDONED]⟩,
  ⟨"HOOP_CLUSTERS", 0x100020, 0x10000, 8, 64, [HOOP_CLUSTERS_CLUSTERS]⟩,
  ⟨"HOOP_CHGROUPS", 0x100028, 0x10000, 8, 64, [HOOP_CHGROUPS_GROUPS] ++ [HOOP_CHGROUPS_RESERVE_GROUP]⟩,
  ⟨"HOOP_WAYS", 0x100030, 0x10000, 8, 64, (List.range 4).map HOOP_WAYS_WAYS⟩,
  ⟨"HOOP_SESSIONS", 0x100038, 0x10000, 8, 64, [HOOP_SESSIONS_BASE] ++ [HOOP_SESSIONS_COUNT] ++ [HOOP_SESSIONS_QUOTA]⟩,
  ⟨"HOOP_OBJTAB", 0x100048, 0x10000, 8, 64, [HOOP_OBJTAB_ENTRIES_LOG2] ++ [HOOP_OBJTAB_BASE]⟩,
  ⟨"HOOP_RELQ", 0x100050, 0x10000, 8, 64, [HOOP_RELQ_SIZE_LOG2] ++ [HOOP_RELQ_BASE]⟩,
  ⟨"HOOP_RELQ_PTR", 0x100058, 0x10000, 8, 64, [HOOP_RELQ_PTR_TAIL] ++ [HOOP_RELQ_PTR_HEAD]⟩,
  ⟨"HOOP_MEMQ", 0x100060, 0x10000, 8, 64, [HOOP_MEMQ_HBM_QUOTA] ++ [HOOP_MEMQ_HBM_USE] ++ [HOOP_MEMQ_CXL_QUOTA] ++ [HOOP_MEMQ_CXL_USE]⟩,
  ⟨"HOOP_FENCES", 0x100068, 0x10000, 8, 64, [HOOP_FENCES_BASE] ++ [HOOP_FENCES_FENCES]⟩,
  ⟨"HOOP_TICKS", 0x100070, 0x10000, 8, 64, [HOOP_TICKS_TICKS]⟩,
  ⟨"HOOP_EVENTS", 0x100078, 0x10000, 8, 64, [HOOP_EVENTS_EVENTS]⟩,
  ⟨"HOOP_RECIPES", 0x100080, 0x10000, 8, 64, [HOOP_RECIPES_STORE_MIB] ++ [HOOP_RECIPES_LOADED] ++ [HOOP_RECIPES_LIVE]⟩,
  ⟨"HOOP_NUMFLAGS", 0x100088, 0x10000, 8, 64, [HOOP_NUMFLAGS_VECTOR] ++ [HOOP_NUMFLAGS_PRESS] ++ [HOOP_NUMFLAGS_STREAM] ++ [HOOP_NUMFLAGS_UPDATE]⟩,
  ⟨"HOOP_SEGS", 0x100090, 0x10000, 8, 64, [HOOP_SEGS_SEG_VALID] ++ [HOOP_SEGS_WIN_VALID] ++ [HOOP_SEGS_GEN]⟩,
  ⟨"HOOP_REMOTE", 0x100098, 0x10000, 8, 64, [HOOP_REMOTE_JOB] ++ [HOOP_REMOTE_SLICE_CHIPS]⟩,
  ⟨"HOOP_CXL", 0x1000a0, 0x10000, 8, 64, [HOOP_CXL_BASE_GIB] ++ [HOOP_CXL_SIZE_GIB]⟩,
  ⟨"HOOP_WHEY", 0x1000a8, 0x10000, 8, 64, [HOOP_WHEY_QUEUED] ++ [HOOP_WHEY_DONE]⟩,
  ⟨"HOOP_KVPOOL_HBM", 0x1000b0, 0x10000, 8, 64, [HOOP_KVPOOL_HBM_VALID] ++ [HOOP_KVPOOL_HBM_SEG] ++ [HOOP_KVPOOL_HBM_BLOCK_LOG2] ++ [HOOP_KVPOOL_HBM_BLOCKS]⟩,
  ⟨"HOOP_KVPOOL_CXL", 0x1000b8, 0x10000, 8, 64, [HOOP_KVPOOL_CXL_VALID] ++ [HOOP_KVPOOL_CXL_SEG] ++ [HOOP_KVPOOL_CXL_BLOCK_LOG2] ++ [HOOP_KVPOOL_CXL_BLOCKS]⟩,
  ⟨"HOOP_KVUSE", 0x1000c0, 0x10000, 8, 64, [HOOP_KVUSE_LIVE] ++ [HOOP_KVUSE_DAMAGED]⟩,
  ⟨"HOOP_KVFREE", 0x1000c8, 0x10000, 8, 64, [HOOP_KVFREE_HBM_FREE] ++ [HOOP_KVFREE_CXL_FREE]⟩,
  ⟨"HOOP_SEGMAP", 0x1000d0, 0x10000, 8, 64, (List.range 16).map HOOP_SEGMAP_MAP⟩,
  ⟨"HOOP_FLIP", 0x1000d8, 0x10000, 8, 64, [HOOP_FLIP_PENDING] ++ [HOOP_FLIP_DRAINING] ++ [HOOP_FLIP_APPLIED] ++ [HOOP_FLIP_DRAINED]⟩,
  ⟨"HOOP_LINK", 0x1000e0, 0x10000, 8, 64, [HOOP_LINK_RESHAPED] ++ [HOOP_LINK_MGR_LOST] ++ [HOOP_LINK_RESHAPES] ++ [HOOP_LINK_ROUTE_GEN]⟩,
  ⟨"HOOP_RXQ", 0x1000e8, 0x10000, 8, 64, [HOOP_RXQ_ENABLED]⟩,
  ⟨"HOOP_APERTURE", 0x1000f0, 0x10000, 8, 64, [HOOP_APERTURE_BASE]⟩,
  ⟨"HOOP_ERRQ", 0x100100, 0x10000, 8, 64, [HOOP_ERRQ_ENABLE] ++ [HOOP_ERRQ_SIZE_LOG2] ++ [HOOP_ERRQ_BASE]⟩,
  ⟨"HOOP_ERRQ_PTR", 0x100108, 0x10000, 8, 64, [HOOP_ERRQ_PTR_TAIL] ++ [HOOP_ERRQ_PTR_HEAD]⟩,
  ⟨"HOOP_ERR_SUMMARY", 0x100110, 0x10000, 8, 64, [HOOP_ERR_SUMMARY_CLASS] ++ [HOOP_ERR_SUMMARY_DROPPED]⟩,
  ⟨"HOOP_STATS", 0x100120, 0x10000, 8, 64, [HOOP_STATS_ENABLE] ++ [HOOP_STATS_FAULT] ++ [HOOP_STATS_LAST] ++ [HOOP_STATS_BASE]⟩,
  ⟨"HOOP_TRACE", 0x100128, 0x10000, 8, 64, [HOOP_TRACE_ENABLE] ++ [HOOP_TRACE_WRAP] ++ [HOOP_TRACE_DROPPED] ++ [HOOP_TRACE_SIZE_LOG2] ++ [HOOP_TRACE_BASE] ++ [HOOP_TRACE_LOST]⟩,
  ⟨"HOOP_TRACE_PTR", 0x100130, 0x10000, 8, 64, [HOOP_TRACE_PTR_TAIL] ++ [HOOP_TRACE_PTR_HEAD]⟩,
  ⟨"HOOP_WATCH", 0x100138, 0x10000, 8, 64, [HOOP_WATCH_ENABLED] ++ [HOOP_WATCH_HIT] ++ [HOOP_WATCH_STOPPED]⟩]

/-- The PF BAR0 registers outside the hoop windows and the ring window (Table 15-3). -/
def pfTable : List RegD := [
  ⟨"WHEEL_STATUS", 0x20000, 0x0, 1, 64, [WHEEL_STATUS_ROW] ++ [WHEEL_STATUS_SUBSLOT] ++ [WHEEL_STATUS_ROWS] ++ [WHEEL_STATUS_PERIOD_US] ++ [WHEEL_STATUS_REVOLUTIONS]⟩,
  ⟨"DISP_CFG", 0x21000, 0x8, 4, 64, [DISP_CFG_STAGGER_FC] ++ [DISP_CFG_RUN_BLOCKS]⟩,
  ⟨"CORE_CURD", 0x30000, 0x20, 256, 64, [CORE_CURD_SPLIT] ++ [CORE_CURD_BUSY] ++ [CORE_CURD_HOOP] ++ [CORE_CURD_L1_KIB]⟩,
  ⟨"CORE_REPAIR", 0x30008, 0x20, 256, 64, [CORE_REPAIR_PHYS] ++ [CORE_REPAIR_ROW_SPARES] ++ [CORE_REPAIR_COL_SPARES] ++ [CORE_REPAIR_ROW_OUT0] ++ [CORE_REPAIR_ROW_OUT1] ++ [CORE_REPAIR_COL_OUT0] ++ [CORE_REPAIR_COL_OUT1]⟩,
  ⟨"CORE_ECC", 0x30010, 0x20, 256, 64, [CORE_ECC_CORR] ++ [CORE_ECC_UNCORR]⟩,
  ⟨"DIE_REPAIR", 0x32000, 0x10, 4, 64, [DIE_REPAIR_OFF0] ++ [DIE_REPAIR_OFF1]⟩,
  ⟨"L2_WAYS", 0x32008, 0x10, 4, 64, (List.range 16).map L2_WAYS_OWNER⟩,
  ⟨"L2_ECC", 0x32100, 0x8, 4, 64, [L2_ECC_CORR] ++ [L2_ECC_UNCORR] ++ [L2_ECC_PINNED]⟩,
  ⟨"COH_FATAL", 0x33000, 0x0, 1, 64, [COH_FATAL_VALID] ++ [COH_FATAL_CAUSE] ++ [COH_FATAL_REPORTER] ++ [COH_FATAL_SUSPECT] ++ [COH_FATAL_SLICE] ++ [COH_FATAL_TIME_US]⟩,
  ⟨"COH_FATAL_ADDR", 0x33008, 0x0, 1, 64, [COH_FATAL_ADDR_LINE]⟩,
  ⟨"FATAL_RECORD", 0x33040, 0x0, 1, 512, [FATAL_RECORD_RECORD]⟩,
  ⟨"STREAM_SPLIT", 0x22000, 0x8, 4, 64, [STREAM_SPLIT_READ] ++ [STREAM_SPLIT_WRITE] ++ [STREAM_SPLIT_REMOTE]⟩,
  ⟨"KLZ_ID", 0x40000, 0x0, 1, 64, [KLZ_ID_SLOT] ++ [KLZ_ID_BOARD] ++ [KLZ_ID_MGR_EN] ++ [KLZ_ID_CHIP] ++ [KLZ_ID_ROLE] ++ [KLZ_ID_TIME_MASTER]⟩,
  ⟨"KLZ_PORT_STATUS", 0x40100, 0x20, 8, 64, [KLZ_PORT_STATUS_STATE] ++ [KLZ_PORT_STATUS_PARTNER_CHIP] ++ [KLZ_PORT_STATUS_PARTNER_PORT] ++ [KLZ_PORT_STATUS_PARTNER_MGR] ++ [KLZ_PORT_STATUS_FAILS] ++ [KLZ_PORT_STATUS_DISABLED] ++ [KLZ_PORT_STATUS_DELAY_NS]⟩,
  ⟨"KLZ_PORT_ERR", 0x40108, 0x20, 8, 64, [KLZ_PORT_ERR_FEC_CORR] ++ [KLZ_PORT_ERR_REPLAYS] ++ [KLZ_PORT_ERR_FEC_UNCORR]⟩,
  ⟨"KLZ_PORT_TRAFFIC", 0x40110, 0x20, 8, 64, [KLZ_PORT_TRAFFIC_TX_FLITS] ++ [KLZ_PORT_TRAFFIC_RX_FLITS]⟩,
  ⟨"KLZ_TICK", 0x40200, 0x0, 1, 64, [KLZ_TICK_SOURCE] ++ [KLZ_TICK_MGR_PRESENT] ++ [KLZ_TICK_TM_PRESENT] ++ [KLZ_TICK_OFFSET_NS] ++ [KLZ_TICK_MISSED]⟩,
  ⟨"KLZ_TICK_IN", 0x40208, 0x0, 1, 64, [KLZ_TICK_IN_TICK_IN_DELAY_NS] ++ [KLZ_TICK_IN_TICK_IN_EN]⟩,
  ⟨"KLZ_ROUTE", 0x40210, 0x0, 1, 64, [KLZ_ROUTE_GEN] ++ [KLZ_ROUTE_REACHABLE]⟩,
  ⟨"KLZ_TIMEOUT", 0x40218, 0x0, 1, 64, [KLZ_TIMEOUT_REMOTE_TIMEOUT_MS]⟩,
  ⟨"KLZ_RT", 0x48000, 0x2, 4096, 16, [KLZ_RT_PRIMARY] ++ [KLZ_RT_ALT] ++ [KLZ_RT_HOPS] ++ [KLZ_RT_ALT_HOPS]⟩,
  ⟨"PF_APERTURE", 0x100, 0x0, 1, 64, [PF_APERTURE_BASE]⟩,
  ⟨"CXL_PORT_CFG", 0x50000, 0x8, 2, 64, [CXL_PORT_CFG_BIFURCATE] ++ [CXL_PORT_CFG_RETRAIN]⟩,
  ⟨"CXL_LINK_STATUS", 0x50100, 0x8, 4, 64, [CXL_LINK_STATUS_STATE] ++ [CXL_LINK_STATUS_WIDTH] ++ [CXL_LINK_STATUS_SPEED] ++ [CXL_LINK_STATUS_DEVICE] ++ [CXL_LINK_STATUS_CAP_GIB]⟩,
  ⟨"CXL_HDM_RANGE", 0x51000, 0x10, 8, 64, [CXL_HDM_RANGE_BASE] ++ [CXL_HDM_RANGE_SIZE] ++ [CXL_HDM_RANGE_DPA_BASE]⟩,
  ⟨"CXL_HDM_CTRL", 0x51008, 0x10, 8, 64, [CXL_HDM_CTRL_WAYS] ++ [CXL_HDM_CTRL_T0] ++ [CXL_HDM_CTRL_T1] ++ [CXL_HDM_CTRL_COMMIT] ++ [CXL_HDM_CTRL_COMMITTED] ++ [CXL_HDM_CTRL_ERROR] ++ [CXL_HDM_CTRL_PAIRED] ++ [CXL_HDM_CTRL_LOST]⟩,
  ⟨"ERRQ_BASE", 0x60000, 0x0, 1, 64, [ERRQ_BASE_ADDR]⟩,
  ⟨"ERRQ_PTR", 0x60008, 0x0, 1, 64, [ERRQ_PTR_TAIL] ++ [ERRQ_PTR_HEAD]⟩,
  ⟨"ERR_SUMMARY", 0x60010, 0x0, 1, 64, [ERR_SUMMARY_CLASS] ++ [ERR_SUMMARY_DROPPED]⟩,
  ⟨"ERRQ_CTRL", 0x60018, 0x0, 1, 64, [ERRQ_CTRL_IRQ_EN]⟩,
  ⟨"DEBUG_STATUS", 0x61000, 0x0, 1, 64, [DEBUG_STATUS_UNLOCKED] ++ [DEBUG_STATUS_PERTURB_ACTIVE] ++ [DEBUG_STATUS_REMAINING]⟩,
  ⟨"PERTURB_CFG", 0x61100, 0x10, 8, 64, [PERTURB_CFG_TARGET] ++ [PERTURB_CFG_SELECT] ++ [PERTURB_CFG_RATE_LOG2] ++ [PERTURB_CFG_DELAY] ++ [PERTURB_CFG_SEED]⟩,
  ⟨"PERTURB_HITS", 0x61108, 0x10, 8, 64, [PERTURB_HITS_HITS]⟩,
  ⟨"POWER_STATUS", 0x70000, 0x0, 1, 64, [POWER_STATUS_POINT] ++ [POWER_STATUS_CEILING] ++ [POWER_STATUS_MODE] ++ [POWER_STATUS_WARMUP] ++ [POWER_STATUS_DISTRUST] ++ [POWER_STATUS_BELOW_FLOOR] ++ [POWER_STATUS_THROTTLE] ++ [POWER_STATUS_AGEING_LIMIT] ++ [POWER_STATUS_DUTY] ++ [POWER_STATUS_OP_MAX]⟩,
  ⟨"POWER_MEAS", 0x70008, 0x0, 1, 64, [POWER_MEAS_MEASURED_W] ++ [POWER_MEAS_ESTIMATE_W] ++ [POWER_MEAS_FLOOR_W] ++ [POWER_MEAS_CAP_W]⟩,
  ⟨"POWER_EVENTS", 0x70010, 0x0, 1, 64, [POWER_EVENTS_MISMATCHES] ++ [POWER_EVENTS_CAP_EXCURSIONS] ++ [POWER_EVENTS_DROOPS]⟩,
  ⟨"THERM_LIMITS", 0x70100, 0x8, 3, 64, [THERM_LIMITS_WARN] ++ [THERM_LIMITS_THROTTLE] ++ [THERM_LIMITS_TRIP]⟩,
  ⟨"THERM_POINT", 0x71000, 0x4, 168, 32, [THERM_POINT_TEMP] ++ [THERM_POINT_VALID] ++ [THERM_POINT_WARN] ++ [THERM_POINT_THROTTLE] ++ [THERM_POINT_FAULT]⟩,
  ⟨"AGEING", 0x72000, 0x8, 5, 64, [AGEING_BASELINE_MV] ++ [AGEING_TRIM_MV] ++ [AGEING_LIMIT] ++ [AGEING_HOURS]⟩,
  ⟨"BOOT_STATUS", 0x80000, 0x0, 1, 64, [BOOT_STATUS_STAGE] ++ [BOOT_STATUS_CAUSE] ++ [BOOT_STATUS_DETAIL] ++ [BOOT_STATUS_BOOT_MS]⟩,
  ⟨"RECOVERY_CTRL", 0x80008, 0x0, 1, 64, [RECOVERY_CTRL_LENGTH] ++ [RECOVERY_CTRL_GO] ++ [RECOVERY_CTRL_BUSY] ++ [RECOVERY_CTRL_RESULT]⟩]

/-- The ring window's registers (R404). -/
def ringTable : List RegD := [
  ⟨"MGMT_RING", 0x8000000, 0x1000, 10, 64, [MGMT_RING_ENABLE] ++ [MGMT_RING_SIZE_LOG2] ++ [MGMT_RING_BASE]⟩,
  ⟨"MGMT_TAIL", 0x8000008, 0x1000, 10, 32, [MGMT_TAIL_TAIL]⟩,
  ⟨"MGMT_HEAD", 0x8000010, 0x1000, 10, 32, [MGMT_HEAD_HEAD]⟩,
  ⟨"MGMT_STATUS", 0x8000018, 0x1000, 10, 64, [MGMT_STATUS_BUSY] ++ [MGMT_STATUS_FETCH_FAULT] ++ [MGMT_STATUS_TAIL_INVALID] ++ [MGMT_STATUS_OPCODE]⟩]

/-- The hoop-window fields that FLR and disable leave alone (R58, R70, R277): shown with a dash in the Reset column. -/
def kept : List Fld := [HOOP_CFG_HOOP] ++ [HOOP_CFG_DEP_MODEL] ++ [HOOP_CFG_WATCHDOG] ++ [HOOP_CFG_STATE] ++ [HOOP_CFG_LINK_SHARE] ++ [HOOP_CFG_SLOT_MIN] ++ [HOOP_CFG_SLOT_MAX] ++ [HOOP_CFG_POWER_SHARE] ++ [HOOP_CLUSTERS_CLUSTERS] ++ [HOOP_CHGROUPS_GROUPS] ++ [HOOP_CHGROUPS_RESERVE_GROUP] ++ (List.range 4).map HOOP_WAYS_WAYS ++ [HOOP_SESSIONS_BASE] ++ [HOOP_SESSIONS_COUNT] ++ [HOOP_SESSIONS_QUOTA] ++ [HOOP_MEMQ_HBM_QUOTA] ++ [HOOP_MEMQ_HBM_USE] ++ [HOOP_MEMQ_CXL_QUOTA] ++ [HOOP_MEMQ_CXL_USE] ++ [HOOP_FENCES_FENCES] ++ [HOOP_EVENTS_EVENTS] ++ [HOOP_RECIPES_STORE_MIB] ++ [HOOP_CXL_BASE_GIB] ++ [HOOP_CXL_SIZE_GIB]

end Sys2Proof.Machine.Reg
end

