-- ==== Sys2Proof/Machine/ShapeWork.lean ====
section
/-! DEFINITION. The data of work in progress: ring entries, queues, slots, recipes, instances, kernels, and what each
hoop keeps beside its registers. -/

namespace Sys2Proof.Machine

/-- When something began: TIME of Table 3-14 and the local time. -/
structure Stamp where
  time : Nat := 0
  now : Nat := 0
  deriving DecidableEq, Repr

/-- A fetched ring entry that has not retired (R35, R63). `id` is the model's number for it, `ptr` is its ring pointer; `done` its status once it has
ended; `skip` the handles that could not be read (R54); `target` the captured count of an event entry (R70); `map` the
flip count of the segment map it is bound to (R337); `err` that a global record was posted and `fault` that a fault
caused the status (R420); `buf` the bytes that host reads brought for it (R267); `since` its fetch; `begun` the local time at which it started; `at_` the local time at which it ended
(R138). -/
structure Entry where
  id : Nat := 0
  bytes : Bytes
  ptr : Nat
  chained : Bool := false
  started : Bool := false
  done : Option Nat := none
  node : Nat := 0xFFFF
  result : Nat := 0
  skip : List Nat := []
  target : Nat := 0
  map : Nat := 0
  err : Bool := false
  fault : Bool := false
  buf : List (Nat × Bytes) := []
  since : Stamp := {}
  begun : Nat := 0
  at_ : Nat := 0
  deriving DecidableEq, Repr

/-- What unmapping saves of a queue in its context in device memory (R35): read pointer, shadow, and the dependency state, as the
opcode, index and awaited value or target of an unsatisfied wait. The manual places the context nowhere. -/
structure QCtx where
  rptr : Nat
  shadow : Nat
  wait : Option (Nat × Nat × Nat) := none
  deriving DecidableEq, Repr

/-- A completion record that is written or due (R90 to R95), with the mode and vector of its queue when it retired (whether CONFIRMED, function,
vector), and the tag of its confirming read. -/
structure CRec where
  ptr : Nat
  addr : Nat
  data : Bytes
  irq : Bool
  conf : Bool
  fn : Nat
  vec : Nat
  tag : Option Nat := none
  deriving DecidableEq, Repr

/-- A queue (R61, R62, R72, R73). `state` is Table 3-6. `chain` is the running chain: next address, entries left,
pointer of the CHAIN entry (R66). `pre` holds chained entries that a read of the host brought, by address. `gone` lists the entries that
an abort or a discard has still to read, as (address, pointer) (R56, R96); `ctx` is the context that the last unmapping saved. -/
structure Queue where
  state : Nat := 0
  hoop : Nat := 0
  ring : Nat := 0
  sizeLog2 : Nat := 6
  cls : Nat := 0
  completion : Nat := 0
  confirmed : Bool := false
  vector : Nat := 0
  vecFn : Nat := 0
  owner : Nat := 0
  rptr : Nat := 0
  shadow : Nat := 0
  rung : Bool := false
  stopFetch : Bool := false
  entries : List Entry := []
  recs : List CRec := []
  lost : List Bytes := []
  chain : Option (Nat × Nat × Nat) := none
  pre : List (Nat × Bytes) := []
  gone : List (Nat × Nat) := []
  ctx : Option QCtx := none
  deriving DecidableEq, Repr

/-- A queue slot (R74 to R76): queue mapped, Table 3-7 state, cached write pointer, and when it entered its state. -/
structure Slot where
  queue : Nat := 0
  state : Nat := 0
  cached : Nat := 0
  since : Nat := 0
  deriving DecidableEq, Repr

/-- A node of a stored recipe (R80). -/
structure RNode where
  type : Nat
  early : Bool
  inDeg : Nat
  succ : List Nat
  params : Bytes
  deriving DecidableEq, Repr

/-- A patch of a recipe (R81). -/
structure RPatch where
  node : Nat
  offset : Nat
  width : Nat
  slot : Nat
  deriving DecidableEq, Repr

/-- A stored recipe (R78 to R81), with the bytes of its hoop's recipe store that hold its binary: offset and length of each part. -/
structure Recipe where
  nodes : List RNode
  patches : List RPatch
  objects : List Nat
  paramLen : Nat
  size : Nat
  parts : List (Nat × Nat) := []
  deriving DecidableEq, Repr

/-- A node of an instance (R82 to R89): instance copy of its parameters, completion counter, dispatch counter, its
status once it has ended, whether it has started and whether it was released (R87). `handed` says that its last
block has been handed out, `seen` that its completion was observed, `fault` that a fault caused its status, `cancelled` that it was never
run since a predecessor failed (R85), `since` its start, `at_` the local time of its end. -/
structure INode where
  params : Bytes
  counter : Nat
  dispatch : Nat
  started : Bool := false
  handed : Bool := false
  done : Option Nat := none
  seen : Bool := false
  fault : Bool := false
  target : Nat := 0
  result : Nat := 0
  since : Stamp := {}
  cancelled : Bool := false
  at_ : Nat := 0
  deriving DecidableEq, Repr

/-- A live recipe instance: hoop, recipe index, queue and pointer of its LAUNCH_RECIPE entry, nodes, abort status. -/
structure Inst where
  hoop : Nat
  recipe : Nat
  queue : Nat
  entry : Nat
  ptr : Nat
  nodes : Tab INode
  abort : Bool := false
  deriving DecidableEq, Repr

/-- A kernel (R65, R101 to R111, R135 to R138). `inst` names its instance and node, else it is a LAUNCH of `queue` at
`ptr`. `early` says that its blocks are held (R87). `runs` are the claimed runs of each die, as (next, end). `cfg` is
the DISP_CFG word that governs the kernel on a die (R111). `fault` is the status and detail of its first fault;
`since` its admission, once the gate has admitted it, and `order` the place of that admission (R108); `overSince` the local time its present overrun runs from (R46). -/
structure Kernel where
  hoop : Nat
  queue : Nat
  entry : Nat
  ptr : Nat
  inst : Option (Nat × Nat) := none
  code : Nat
  regs : Nat
  split : Nat
  local_ : Nat
  bx : Nat
  byy : Nat
  bz : Nat
  seed : Nat
  params : Nat
  gx : Nat
  gy : Nat
  gz : Nat
  map : Nat := 0
  order : Nat := 0
  early : Bool := false
  started : Bool := false
  age : Nat := 0
  overrun : Nat := 0
  overSince : Option Nat := none
  nextBlock : Nat := 0
  runs : Tab (List (Nat × Nat)) := []
  cfg : Tab (Nat × Nat) := []
  outstanding : Nat := 0
  retired : Nat := 0
  given : List Nat := []
  fault : Option (Nat × Bytes) := none
  abort : Option Nat := none
  since : Option Stamp := none
  deriving DecidableEq, Repr

/-- A pending release of an object (Table 2-8): handle, type, tick. -/
structure Rel where
  handle : Nat
  type : Nat
  tick : Nat
  deriving DecidableEq, Repr

/-- A descriptor in a hoop's whey queue (R299): its entry, whether it is the entry's last, its 64 bytes. -/
structure Whey where
  queue : Nat
  entry : Nat
  last : Bool
  bytes : Bytes
  deriving DecidableEq, Repr

/-- What a hoop keeps beside its registers: pending shares (R40), overrun debt in ns per class with the local time from which the open window repays it (R46), releases held on
chip (R55), pending flips with the local time of their retirement and the protected slots (R335 to R339), the segment map before the last application (R337),
what its drain or scrub serves (1 HOOP_DESTROY, 2 FLR or disable; R36), whether its ticks restart when it next enters
ACTIVE (R59), the chips that a new
route table changed with their old hop counts, while the mark of R373 is set, the whey queue (R299). -/
structure HoopX where
  linkPend : Option Nat := none
  powerPend : Option Nat := none
  debt : Tab (Nat × Nat) := []
  held : List Rel := []
  flips : List (Nat × Nat × Nat) := []
  flipSlots : List Nat := []
  oldMap : List Nat := []
  purpose : Nat := 0
  fresh : Bool := true
  reshape : List (Nat × Nat) := []
  whey : List Whey := []
  deriving DecidableEq, Repr

end Sys2Proof.Machine
end

