-- ==== Sys2Proof/Machine/ShapeCore.lean ====
section
/-! DEFINITION. The data of one core: scheduling entries, resident blocks, local store, L1 and victim cache, press. -/

namespace Sys2Proof.Machine

/-- Why a scheduling entry does not issue (R112, R113): it is ready; it tries its instruction again when sent again
(held, a wait whose condition is unmet, a full queue); it waits at a wait point, 0 to 15 the barriers, 16 MXBEGIN, 17
MXEND (R126); it stands at its reconvergence point (R119); it awaits data of another agent. -/
inductive Park where
  | ready
  | retry
  | wait (point : Nat)
  | reconv
  | data
  deriving DecidableEq, Repr

/-- A pending reconvergence context: the point and the split it belongs to (R118, R119). -/
structure Ctx where
  point : Nat
  split : Nat
  deriving DecidableEq, Repr

/-- A place of the deferred stack (R118, R506). -/
structure Defer where
  mask : Nat
  target : Nat
  ctx : List Ctx
  deriving DecidableEq, Repr

/-- An instruction that awaits a structure or a zero-length read from the host before it acts: opcode, word, the (lane, tag) pairs that are
due, the data that has come by lane and address, and accesses that failed as (lane, address, fault code). -/
structure Await where
  op : Nat
  w : IWord
  due : List (Nat × Nat) := []
  got : List (Nat × Nat × Bytes) := []
  bad : List (Nat × Nat × Nat) := []
  deriving DecidableEq, Repr

/-- A wait that the trace records (Table 17-6): when it began, its KIND, OBJECT and DETAIL. -/
structure Wait where
  stamp : Stamp
  kind : Nat
  object : Nat
  detail : Nat
  deriving DecidableEq, Repr

/-- A scheduling entry in use (R112): block place, group, lanes, program counter, park, contexts (innermost first),
deferred stack (top first), what it awaits, the wait it is in, the host read of its fetch (tag, address), and the bytes that such reads brought,
or none where they failed, by address. -/
structure SEnt where
  place : Nat
  group : Nat
  mask : Nat
  pc : Nat
  park : Park := .ready
  ctx : List Ctx := []
  stack : List Defer := []
  await : Option Await := none
  since : Option Wait := none
  fetch : Option (Nat × Nat) := none
  code : List (Nat × Option Bytes) := []
  deriving DecidableEq, Repr

/-- A split (R118): its group, the entry that issued the branch, the point, its lanes, the lanes that have arrived at the point by
entry, and the contexts that enclose it. -/
structure Split where
  group : Nat
  home : Nat
  point : Nat
  lanes : Nat
  arrived : Tab Nat := []
  ctx : List Ctx
  deriving DecidableEq, Repr

/-- An operation a block started and its handle (R170): 0 a stream descriptor, 1 a message; the number of the operation; whether it
has completed and how; whether it has been awaited, or its message has no handle (D = uz). `wide` says that its destination scope is
die or wider (R290), `detail`, `polled` (the first SPOLL) and `poller` (its group) serve the trace (Table 17-6). -/
structure Handle where
  kind : Nat
  op : Nat
  wide : Bool := false
  detail : Nat := 0
  polled : Option Stamp := none
  poller : Nat := 0xFF
  done : Bool := false
  fault : Option (Nat × Nat × Nat) := none
  awaited : Bool := false
  deriving DecidableEq, Repr

/-- A load or atomic whose data of a host or another chip have not all come (R113): where it issued, its lanes, its destination (none under
D = rz), `uni` for a uniform one, its registers, its bytes for each lane, sign extension, whether it acquires and invalidates the L1, whether it
writes; lane and bytes that have come, (lane, address, tag, place in the answer) that are due, (lane, address, code) that failed. -/
structure Load where
  pc : Nat
  group : Nat
  mask : Nat
  lanes : Nat
  dst : Option Nat
  uni : Bool := false
  regs : Nat
  n : Nat
  sgn : Bool := false
  acquire : Bool := false
  drop : Bool := false
  writes : Bool := false
  got : List (Nat × Bytes) := []
  due : List (Nat × Nat × Nat × Nat) := []
  bad : List (Nat × Nat × Nat) := []
  deriving DecidableEq, Repr

/-- An SMUPD whose elements wait for host data (R136, R329): its block's place (none once the block has ended), hoop, map, where it issued,
its descriptor, (lane, element), (lane, address, tag) that are due, (lane, address, bytes) that have come. -/
structure UpdOp where
  place : Option Nat
  hoop : Nat
  map : Nat
  group : Nat
  mask : Nat
  pc : Nat
  desc : Bytes
  idx : List (Nat × Nat)
  due : List (Nat × Nat × Nat)
  got : List (Nat × Nat × Bytes) := []
  deriving DecidableEq, Repr

/-- A resident block (R98 to R100). Registers and local store that nothing has written since its start hold what earlier
work left: free values of `epoch`, or 0 where `clean` says that the core was scrubbed and no work has left anything (R38). `v` is by thread × 256 + register, `u` by group × 64 + register, `p` the lanes that are
true by group × 8 + n (n = 1 to 7 for p0 to p6), `gens` by thread, `exited` the lanes by group, `arrived` the lanes by
wait point × 32 + group. `quarters` are those of its groups; `ready` orders the completed MXBEGIN rendezvous; `ending` says that the MXEND rendezvous is complete;
`last` is where its last lanes exited: pc, group, lanes; `loads` the open loads by issue order; `gstOut` the tags of GSTs not acknowledged, `gstFail` the first refusal. -/
structure Block where
  kernel : Nat
  lin : Nat
  x : Nat
  y : Nat
  z : Nat
  threads : Nat
  epoch : Nat
  v : Tab Nat := []
  u : Tab Nat := []
  p : Tab Nat := []
  gens : Tab Nat := []
  exited : Tab Nat := []
  arrived : Tab Nat := []
  region : Bool := false
  ready : Option Nat := none
  ending : Bool := false
  grants : Nat := 0
  handles : Tab Handle := []
  splits : Tab Split := []
  gstFail : Option (Nat × Nat × Nat) := none
  gstOut : List Nat := []
  quarters : List Nat := []
  last : Nat × Nat × Nat := (0, 0, 0)
  clean : Bool := false
  loads : Tab Load := []
  deriving DecidableEq, Repr

/-- A line of an L1 way or of the victim cache: line number, bytes as filled, the evict-first mark (R221 to R224). -/
structure L1Line where
  line : Nat
  data : Bytes
  evict : Bool := false
  deriving DecidableEq, Repr

/-- A place of the column buffer (R188): a K-column, its scales, the STYPE, SCALE and channel it was delivered with, and whether it holds an
uncorrectable error (R185). -/
structure Col where
  bytes : Bytes
  scales : Bytes
  stype : Nat
  scale : Nat
  chan : Nat
  bad : Bool := false
  deriving DecidableEq, Repr

/-- A K-column in the pipeline of the array (R180): the operation that sends it, its accumulator column, its partial sums with their flags by
row, the rows that depend on an uncorrectable operand, and the unfrozen ac since it entered. -/
structure Flight where
  seq : Nat
  col : Nat
  sums : List (Nat × Nat)
  taint : List Nat := []
  age : Nat := 0
  deriving DecidableEq, Repr

/-- An uncorrectable error that an operation of the press met (R185): the operation, the accumulator columns that it sends to or reads (none for
a tile), and ARG1. -/
structure PressErr where
  seq : Nat
  cols : Option (List Nat)
  arg1 : Nat
  deriving DecidableEq, Repr

/-- A matrix operation in the press queue (R182): 0 MXLDIN, 1 MXSTREAM, 2 MXACC, 3 MXDRAIN, in issue order `seq`. `taken` counts the rows loaded,
the columns entered, or the half columns read; `landed` the columns landed; `rows` the rows written; `snap` and `badSnap` are the accumulators as
a drain found them at its start, which no landing changes before it has read them (R186). -/
structure MxOp where
  kind : Nat
  seq : Nat
  handle : Nat := 0
  a : Nat := 0
  b : Nat := 0
  c : Option Nat := none
  type : Nat := 0
  scale : Nat := 0
  src : Bool := false
  n : Nat := 0
  first : Nat := 0
  cols : Nat := 0
  cursor : Nat := 0
  mode : Bool := false
  rnd : Nat := 0
  sat : Bool := false
  global : Bool := false
  place : Nat := 0
  group : Nat := 0
  started : Bool := false
  taken : Nat := 0
  landed : Nat := 0
  rows : Nat := 0
  snap : Tab Nat := []
  badSnap : List (Nat × Bool) := []
  deriving DecidableEq, Repr

/-- A bound accumulator handle (R181). -/
structure Acch where
  first : Nat
  cols : Nat
  cursor : Nat
  deriving DecidableEq, Repr

/-- The press of a core (R176 to R192): owning place, tile bytes per row and scales, its TYPE and SCALE as issued and as
held, accumulators (row × 1,024 + column; those without a landing hold free values of `epoch`, or 0 on a core that was scrubbed and has
run no block since, R38, which `clean` says), fresh marks by column, each with its place in issue order, handles, current handle, operations, row
generators, the pipeline, the rows of the held tile and the accumulators with an uncorrectable error (whether an operand's), errors to raise. -/
structure Press where
  owner : Option Nat := none
  epoch : Nat := 0
  tile : List (Bytes × Bytes) := []
  tileType : Option (Nat × Nat) := none
  heldType : Option (Nat × Nat) := none
  acc : Tab Nat := []
  fresh : Tab (List Nat) := []
  handles : Tab Acch := []
  cur : Option Nat := none
  ops : List MxOp := []
  gens : Tab Nat := []
  clean : Bool := false
  pipe : List Flight := []
  badTile : List Nat := []
  badAcc : List (Nat × Bool) := []
  bad : List PressErr := []
  deriving DecidableEq, Repr

/-- A core: the kernel it runs, its blocks by place, scheduling entries, local store by core-local address (R218),
uncorrectable 64-bit words of local store and registers (place × 1,024 + thread, register), L1 by set × 8 + way, victim
cache (oldest first), replacement generator, press, column buffer, the channel of the multicast
group that it left in the last ac with whether it was frozen then (R190), the kernel whose stagger a first credit waits for (R109), and whether no
block has ended on it since its registers, curd memory and accumulators were zeroed (R38), the open SMUPDs, and the errors that nothing has met
(R233, R234): words of local store, registers and lines of the L1 or victim cache with a single-bit error, lines with an uncorrectable one. -/
structure Core where
  kernel : Option Nat := none
  blocks : Tab Block := []
  ents : Tab SEnt := []
  loc : Tab Byte := []
  badLocal : List Nat := []
  badReg : List (Nat × Nat) := []
  l1 : Tab L1Line := []
  victim : List L1Line := []
  gen : Nat := 1
  press : Press := {}
  cols : List Col := []
  left : Option (Nat × Bool) := none
  credit : Option Nat := none
  clean : Bool := false
  upds : Tab UpdOp := []
  softLoc : List Nat := []
  softReg : List (Nat × Nat) := []
  softL1 : List Nat := []
  badL1 : List Nat := []
  deriving DecidableEq, Repr

end Sys2Proof.Machine
end

