-- ==== Sys2Proof/Machine/ShapeLink.lean ====
section
/-! DEFINITION. The data of the Klozar links (chapter 14): ports, link-state database, remote requests, tick sources. -/

namespace Sys2Proof.Machine

/-- The fields of a Klozar flit but its CRC (Table 14-1). -/
structure Flit where
  ftype : Nat
  vc : Nat := 0
  cls : Nat := 0
  pstart : Nat := 255
  seq : Nat := 0
  ack : Nat := 0
  nak : Bool := false
  payload : Bytes := []
  cvc : Nat := 0
  ccls : Nat := 0
  ccount : Nat := 0
  deriving DecidableEq, Repr

/-- A packet at its output port (R348, R349, R356): the model's number, its VC and class, the hoop that originates it (8: transit), the bytes not
yet sent, how many are still to come, whether its header has departed, whether its input failed; what its header's departure stamps (0 nothing, 1 T1,
2 T3, 3 LEAD to the local time `due`; R364, R365); and the input port whose receive buffer holds the bytes, with the flits (SEQ and bytes). -/
structure TxPkt where
  id : Nat
  vc : Nat
  cls : Nat
  src : Nat := 8
  bytes : Bytes
  more : Nat := 0
  begun : Bool := false
  cut : Bool := false
  stamp : Nat := 0
  due : Int := 0
  from_ : Nat := 8
  segs : List (Nat × Nat) := []
  deriving DecidableEq, Repr

/-- The packet under way in a stream of an input port (R350, R356): its header and, for this chip, its data so far; the flits that hold a header not yet
complete, and whether PSTART named it; the bytes still to come once the header is; where it is forwarded (output port and number there); whether it is discarded. -/
structure RxPkt where
  bytes : Bytes := []
  segs : List (Nat × Nat) := []
  left : Option Nat := none
  named : Bool := false
  fwd : Option (Nat × Nat) := none
  drop : Bool := false
  deriving DecidableEq, Repr

/-- A Klozar port (R342 to R349, R359, R364, R371). `blk` is the block counter, `txSeq` the next SEQ, `retry` the flits ACK does not cover, `again`
those that a NAK has sent again, `waiting` the packets to send, `used` the flits sent and not credited by VC × 4 + class; `wasLocal` whether the
last packet of VC 0 was local, `turn`, `fresh` and `deficit` the round robin of its hoops, `served` the hoop last served in VC 1; `rxSeq` the next SEQ
expected, `naking` that flits are discarded until the replay, `nakDue` that the next flit carries NAK, `held` the flits of the receive buffer (SEQ to VC × 4 +
class and pieces still there), `owed` the credits to return, `rx` the packet under way by VC × 4 + class; `replays` and `uncorr` the times of recent
replays and uncorrectable codewords, `seqReplays` how often the oldest flit was replayed; `fails` the times of recent failures; `ds` the
last delays measured (newest first), `t1` the send time of a DELAY_REQ without its answer; `trainFailed` that training found no link; `eq` the setting of
its equalisers (R359, R485). -/
structure Port where
  blk : Nat := 0
  txSeq : Nat := 0
  retry : List Flit := []
  again : List Flit := []
  waiting : List TxPkt := []
  used : Tab Nat := []
  wasLocal : Bool := false
  turn : Nat := 0
  fresh : Bool := true
  deficit : Tab Nat := []
  served : Nat := 8
  rxSeq : Nat := 0
  naking : Bool := false
  nakDue : Bool := false
  held : Tab (Nat × Nat) := []
  owed : Tab Nat := []
  rx : Tab RxPkt := []
  replays : List Nat := []
  uncorr : List Nat := []
  seqReplays : Nat := 0
  fails : List Nat := []
  ds : List Int := []
  t1 : Option Nat := none
  trainFailed : Bool := false
  eq : Bytes := []
  deriving DecidableEq, Repr

/-- A LINK_STATE record of the database (R358): sequence number, and (partner, partner port, UP) of each port. -/
structure LinkRec where
  seq : Nat
  ports : List (Nat × Nat × Bool)
  deriving DecidableEq, Repr

/-- A remote request that the rind die holds until its answer (R352): what it serves, 0 lanes of a GLD or GATOM (core,
place, load), 1 a posted GST (core, place, entry), 2 a line of a descriptor (descriptor, source position, bytes), 3 a message (core, place,
handle; place 192 for D = uz); target chip, window, address, whether it writes, when it was sent, and the packet. -/
structure Remote where
  kind : Nat
  a : Nat
  b : Nat
  c : Nat
  hoop : Nat
  chip : Nat
  win : Nat := 0
  off : Nat := 0
  writes : Bool := false
  sent : Nat := 0
  pkt : Pkt
  resend : Bool := false
  deriving DecidableEq, Repr

/-- A receive queue (R353, R355): its settings, acceptances, the HEAD last read, messages that wait for a read of HEAD from the host. -/
structure RxQueue where
  accept : Nat := 0
  ring : Nat := 0
  slotLog2 : Nat := 0
  countLog2 : Nat := 0
  ctrl : Nat := 0
  seq : Nat := 0
  head : Nat := 0
  held : List (Nat × Pkt) := []
  deriving DecidableEq, Repr

/-- A tick source that has delivered: source code of KLZ_TICK, number, local time it fires at (R365, R366). -/
structure TickSrc where
  source : Nat
  number : Nat
  at_ : Nat
  deriving DecidableEq, Repr

/-- The links and the machine of many modules. `boardUp` is the manager heard in BOARD_UP, `conflict` that R362 holds,
`ticked` that a tick has been taken from a source since reset, `lost` that the manager is lost, `number` the last tick
number, `srcs` the sources for the next tick, `tickIn` the local time of the last TICK_IN edge accepted, `master` the time master followed, `oldMaster` the one before it and until when its TIME is not followed, `times` the last TIME numbers flooded by master, `timeAt` when the last TIME came, `pkts` packets handed to ports, `adjust` the correction
of the next tick and `trim` the period correction in ns (R369), `loop` the packets under way to this chip itself (R276), `ownSeq` the sequence of the
module's own record, `stale` whether a table is due (R358), `faultMap` and `summaries` by slot (R361, R440), `fresh` the
slots whose summary came since the last tick (R440); `presets` the equaliser presets of this module's slot by port, read from the flash at start-up (R485). -/
structure Klz where
  presets : Tab Bytes := []
  ports : Tab Port := []
  db : Tab LinkRec := []
  ownSeq : Nat := 0
  stale : Bool := false
  remotes : Tab Remote := []
  nextTag : Nat := 0
  loop : List Pkt := []
  rxqs : Tab RxQueue := []
  boardUp : Option Nat := none
  conflict : Bool := false
  ticked : Bool := false
  lost : Bool := false
  number : Nat := 0
  srcs : List TickSrc := []
  tickIn : Option Nat := none
  master : Option Nat := none
  oldMaster : Option (Nat × Nat) := none
  times : Tab (List Nat) := []
  timeAt : Nat := 0
  pkts : Nat := 0
  adjust : Int := 0
  trim : Int := 0
  faultMap : Tab (List Nat) := []
  summaries : Tab Bytes := []
  fresh : List Nat := []
  deriving DecidableEq, Repr

end Sys2Proof.Machine
end

