-- ==== Sys2Proof/Machine/ShapeMem.lean ====
section
/-! DEFINITION. The data of caches and coherence, host reads, sessions, and stream engines. -/

namespace Sys2Proof.Machine

/-- A cache line of an agent (R228 to R237): state 1 S, 2 K, 3 E, 4 M; way, used bit, hoop of its allocation, its
uncorrectable 64-bit words (R234), and whether it is pinned (R235). -/
structure CLine where
  state : Nat
  way : Nat := 0
  used : Bool := true
  hoop : Nat := 0
  bad : List Nat := []
  pin : Bool := false
  deriving DecidableEq, Repr

/-- A request open at its home (R239 to R243): kind (0 RD_SHARED, 1 RD_OWN, 2 INV_OWN, 3 WR_LINE, 4 WB, 5 RD_CUR,
6 WR_CUR, 7 ATOMIC), requester, hoop, agents whose response is due, responses (agent, 0 RSP_I, 1 RSP_S, 2 RSP_FWD,
3 RSP_DIRTY); the bytes that a WR_LINE or WR_CUR carries, at an offset of the line, and what an ATOMIC does. -/
structure Track where
  kind : Nat
  agent : Nat
  hoop : Nat
  off : Nat := 0
  data : Bytes := []
  op : Option AtomOp := none
  due : List Nat := []
  rsps : List (Nat × Nat) := []
  deriving DecidableEq, Repr

/-- The coherent domain: lines held by each agent (0 to 3 VD0 to VD3, 4 RD), open requests by line, requests waiting in
arrival order, write-backs sent and not taken (agent, line), snoops answered whose response is on the ring
(agent, line, response), a counter for the lines that leave the control cache, single-bit errors that stand in lines of agents (agent, line; R233),
uncorrectable errors that nothing has met (CAUSE of Table 9-6, agent, line): a message to an agent, a home's tracker, a tag; what memory holds
beneath a dirty line, by line (R231); the ATOMIC requests that met an uncorrectable word (hoop, address) and the failed
requests of CXL.mem (link, address; R401), whose records are due. -/
structure Coh where
  caches : Tab (Tab CLine) := []
  opened : Tab Track := []
  waiting : List (Nat × Track) := []
  wbs : List (Nat × Nat) := []
  ring : List (Nat × Nat × Nat) := []
  picks : Nat := 0
  soft : List (Nat × Nat) := []
  faults : List (Nat × Nat × Nat) := []
  under : Tab Bytes := []
  failed : List (Nat × Nat) := []
  lost : List (Nat × Nat) := []
  deriving DecidableEq, Repr

/-- A host read or atomic outstanding (R267, R94, R254, R409): what it serves. 0 a structure that an instruction reads (core, entry, lane),
1 the confirming read of a record (queue, pointer), 2 bytes for a descriptor (descriptor, source position, bytes), 3 the
zero-length read of a host-scope release (core, entry, 0), 4 a slot of a management ring (ring, 0, 0), 5 a structure that an
entry names (queue, entry, hoop virtual address), 6 a chained entry (queue, hoop virtual address, 0), 7 the binary of a RECIPE_LOAD (ring, hoop, 0), 8 the HEAD of a
receive queue (hoop × 16 + queue, 0, 0), 9 lanes of a load or atomic (core, place, load), 10 elements of an SMUPD (core, operation, 0), 11 a word
of an instruction (core, entry, hoop virtual address), 12 the parameters of a management command (ring, 0, 0). -/
structure HRead where
  kind : Nat
  a : Nat
  b : Nat
  c : Nat
  fn : Nat
  addr : Nat
  deriving DecidableEq, Repr

/-- A PCIe request of a host read or atomic: the read that it serves, its requester and bytes, the operation of an AtomicOp (as `Out.hostAtomic` has it), its tag once
it is sent, and the bytes that have come (Table 15-1, R267). -/
structure Ask where
  read : Nat
  fn : Nat
  addr : Nat
  n : Nat
  op : Option (Nat × Bool × Nat × Nat) := none
  tag : Option Nat := none
  come : Option Bytes := none
  deriving DecidableEq, Repr

/-- A session descriptor (Table 12-1), with the descriptors whose writes are in flight and whether its COUNT has reached 0 (R309, R320), the end of the
tokens that a SESSION_REJECT discarded and no write has passed since (R316), and whether the descriptor holds an uncorrectable error that nothing has met
(R320). -/
structure Sess where
  state : Nat := 0
  hoop : Nat := 0
  bsize : Nat := 0
  tpb : Nat := 0
  record : Nat := 0
  blist : Nat := 0
  committed : Nat := 0
  prov : Nat := 0
  blocks : Nat := 0
  maxlen : Nat := 0
  cxl : Nat := 0
  handle : Nat := 0
  tiermap : Nat := 0
  writes : List Nat := []
  rel : Bool := false
  rej : Nat := 0
  err : Bool := false
  deriving DecidableEq, Repr

/-- Who supplied a stream descriptor (R278): a block (core, place, handle), a COPY entry (queue, entry number, index) or a
copy node (instance, node, index). -/
inductive DOwner where
  | block (core place handle : Nat)
  | copy (queue entry idx : Nat)
  | node (inst node idx : Nat)
  deriving DecidableEq, Repr

/-- A line that a stream engine has read (R295): kind 0 a line of device memory, 1 + h one of the host tier of hoop h, 9 + h one of another chip read for
hoop h; its number; the fault code of its failure, or 0; its bytes, none where the data are uncorrectable. -/
structure ELine where
  kind : Nat
  line : Nat
  code : Nat := 0
  data : List (Option Byte) := []
  deriving DecidableEq, Repr

/-- A write of a descriptor within one line, still to go into the write-combining window (R294): host or device address, hoop virtual address, bytes. -/
structure OutPiece where
  host : Bool
  a : Nat
  va : Nat
  data : Bytes
  deriving DecidableEq, Repr

/-- A stream descriptor at an engine (R278 to R295): hoop, bound map, 128 bytes, owner, engine, state (0 queued,
1 running, 2 moved, 3 ended), outcome status and deferred fault (code, ARG1, ARG2), bytes written, reads due and those sent before an acquire of its
engine, the lines read for its next unit, multicast members still active, the units (runs, elements or records) that it does, the
next unit, the lines done of that unit of an L2_FILL, the generator, the writes still to go into the window, the records of a multicast read and not
delivered, the lines of a put still to send, the one that is sent and
the bytes that do not fill a line (R292, R352), whether it wrote to the host tier and the read that releases it (R290), the
device address of the uncorrectable data that stopped it, the spill's next block, target
and line, and old block, and the session that it moves. -/
structure Desc where
  hoop : Nat
  map : Nat := 0
  bytes : Bytes
  owner : DOwner
  engine : Nat := 0
  state : Nat := 0
  status : Nat := 0
  fault : Option (Nat × Nat × Nat) := none
  written : Nat := 0
  due : List Nat := []
  stale : List Nat := []
  buf : List ELine := []
  members : List Nat := []
  pos : Nat := 0
  next : Nat := 0
  sub : Nat := 0
  gen : Option Nat := none
  out : List OutPiece := []
  recs : List Col := []
  puts : List (Nat × Bytes) := []
  putTag : Option Nat := none
  acc : Option (Nat × Bytes) := none
  host : Bool := false
  rel : Option Nat := none
  stopDev : Option Nat := none
  spillNext : Nat := 0
  spillNew : Option Nat := none
  spillLine : Nat := 0
  spillOld : Option (Nat × Nat) := none
  sess : Option Nat := none
  deriving DecidableEq, Repr

/-- A write-combining buffer (R294): whether it is of the host tier, its line number, the descriptors whose bytes it holds, hoop,
CACHE, bytes by offset, and the hits of its line that are recorded (descriptor, watchpoint; R444). -/
structure WcBuf where
  host : Bool
  line : Nat
  descs : List Nat
  hoop : Nat
  cache : Nat := 0
  data : Tab Byte := []
  hits : List (Nat × Nat) := []
  deriving DecidableEq, Repr

/-- The credit pools of a die's engines (R296): read, write and remote credits, and the engine of the die whose turn it is to take first. -/
structure Pools where
  read : Nat := 1024
  write : Nat := 1024
  remote : Nat := 1024
  turn : Nat := 0
  deriving DecidableEq, Repr

/-- A stream engine (R279, R294, R295): queue of descriptors in order, write-combining buffers oldest first, the lines it keeps, last
read last, the running descriptor whose turn it is, and the host write that issued lines are being combined into (hoop, address, bytes). -/
structure Engine where
  queue : List Nat := []
  wc : List WcBuf := []
  kept : List ELine := []
  turn : Nat := 0
  post : Option (Nat × Nat × Bytes) := none
  deriving DecidableEq, Repr

end Sys2Proof.Machine
end

