-- ==== Sys2Proof/Machine/ShapePower.lean ====
section
/-! DEFINITION. The data of power, thermal control, start-up, management and sideband (chapters 16, 18 to 20). -/

namespace Sys2Proof.Machine

/-- The power controller (R453 to R466). `goal` is the point selected, `moving` the point of the step in progress;
`estimates` those since the last measurement, `deltas` the last 8 of 10 × M less their sum, `meas` the last 10 of M (newest
first); `outside` and `inside` count measurements outside and inside 15 %; `holdUntil` and `upAt` bound the next step up; `warm`
counts ticks of warm-up; `mode` waits for a tick; `ceil` is the thermal ceiling; duty cycling keeps its credit, A, whether T reached the floor during the whole interval, and the thermal lowering;
`droops` the recent detections, `stretched` the rails; `hot` the points that throttle; `warned`, `invalid`, `trips` per sensor point. -/
structure Power where
  goal : Nat := 0
  moving : Option Nat := none
  activity : List Nat := []
  estimates : List Nat := []
  deltas : List Int := []
  meas : List Nat := []
  outside : Nat := 0
  inside : Nat := 0
  holdUntil : Nat := 0
  upAt : Option Nat := none
  warm : Nat := 0
  mode : Option (Nat × Nat) := none
  ceil : Nat := 0
  credit : Nat := 0
  above : Bool := false
  thermalDuty : Nat := 0
  droops : List Nat := []
  stretched : Nat := 0
  hot : List Nat := []
  warned : List Nat := []
  invalid : Tab Nat := []
  trips : Tab Nat := []
  deriving DecidableEq, Repr

/-- A command of a management ring or the sideband that has been accepted and whose reply waits: header, opcode (R406,
R407), and what it waits for (0 programming the flash, 1 the segment drain of R270, 2 a queue abort, 3 a scrub, 4 a queue reset or destroy, 5 the recovery check), with two numbers of that wait. -/
structure MPend where
  hdr : MHdr
  opcode : Nat
  wait : Nat
  a : Nat := 0
  b : Nat := 0
  data : Bytes := []
  deriving DecidableEq, Repr

/-- A management command that is accepted and does not execute yet (R407, R408): opcode, header, whether it names a hoop, LENGTH, its parameters once they
are read, whether their read is open, and the local time of its acceptance. -/
structure MCmd where
  op : Nat
  hdr : MHdr
  names : Bool
  len : Nat
  params : Option Bytes := none
  asked : Bool := false
  at_ : Nat
  deriving DecidableEq, Repr

/-- An access that the rind die holds while a SEGMENT_WRITE replaces what translates it (R270 step 2): a host read, write or AtomicOp of an aperture
(function, offset, bytes or data), an inbound remote request, or a doorbell write behind a held write (R385). -/
inductive HeldAcc where
  | read (fn offset n : Nat)
  | write (fn offset : Nat) (data : Bytes)
  | atomic (fn offset op : Nat) (w64 : Bool) (operand compare : Nat)
  | remote (k : Pkt)
  | doorbell (q value : Nat)
  deriving DecidableEq, Repr

/-- The key engine (R481): the secret and the device private key while it holds them, the alias private key, and the public keys of the two. -/
structure KeyEngine where
  secret : Option (BitVec 384) := none
  device : Option (BitVec 384) := none
  alias_ : Option (BitVec 384) := none
  devicePub : Bytes := []
  aliasPub : Bytes := []
  deriving DecidableEq, Repr

/-- Start-up and firmware (R413, R471 to R484): whether a start-up is due and since when, the power-cycle pulse, the staging
buffer, the bytes FW_UPDATE has staged, the length of the image that is being checked, CAUSE + 256 × DETAIL of the last start-up or check, the header of the running image, the measurements taken, the image being
programmed (true from the recovery load), the reset that a recovery load earned, replies that wait, the commands that wait their turn and whether one's turn has come, the accesses that a segment write holds, MCTP endpoint, the key engine and the certificates of slot 0 from the root on (R481). -/
structure Boot where
  starting : Bool := false
  startAt : Nat := 0
  pulse : Bool := false
  staging : Bytes := []
  staged : Nat := 0
  checking : Nat := 0
  lastCause : Nat := 0
  header : Bytes := []
  programming : Option Bool := none
  recovered : Bool := false
  waits : List MPend := []
  cmds : List MCmd := []
  turn : Bool := false
  held : List HeldAcc := []
  eid : Nat := 0
  engine : KeyEngine := {}
  certs : List Bytes := []
  deriving DecidableEq, Repr

end Sys2Proof.Machine
end

