-- ==== Sys2Proof/Machine/ShapeStat.lean ====
section
/-! DEFINITION. The data of statistics, trace, watchpoints and debug (chapter 17). -/

namespace Sys2Proof.Machine

/-- A histogram (R435, R436): its SHIFT and RATE_LOG2, the settings that wait for the next tick, bins, MIN, MAX, SAMPLES. -/
structure Hist where
  shift : Nat
  rate : Nat := 6
  next : Option (Nat × Nat) := none
  bins : Tab Nat := []
  min : Nat := 0xFFFFFFFF
  max : Nat := 0
  samples : Nat := 0
  deriving DecidableEq, Repr

/-- A watchpoint (R443). -/
structure Watch where
  access : Nat
  action : Nat
  sources : Nat
  base : Nat
  limit : Nat
  deriving DecidableEq, Repr

/-- The statistics of a hoop (R428 to R445): the counters of the interval, cycles in thousandths, the counts of R429, histograms, the flags of the page, the settings that wait for a tick, the
latest page, the trace settings and the watchpoints. -/
structure HStat where
  counters : Tab Nat := []
  errors : Tab Nat := []
  watchHits : Tab Nat := []
  byClass : Tab Nat := []
  overrunSat : Nat := 0
  hists : Tab Hist := []
  numflags : Nat := 0
  partialNext : Bool := true
  held : Bool := false
  stopped : Bool := false
  traceLost : Bool := false
  perturbed : Bool := false
  next : Option (Bool × Nat) := none
  page : Bytes := []
  kinds : Nat := 0
  minNs : Nat := 0
  watches : Tab Watch := []
  deriving DecidableEq, Repr

/-- An event that a perturbation delays (Table 17-9): a credit of a port for a VC × 4 + class, a block credit of a core, a doorbell of a queue, the
completion of a descriptor. -/
inductive Late where
  | linkCredit (port key n : Nat)
  | blockCredit (core : Nat)
  | doorbell (queue value : Nat)
  | descDone (desc : Nat)
  deriving DecidableEq, Repr

/-- The module's statistics (R438 to R440, R446 to R449): class counts, counters of no hoop (page and trace writes, traffic of no hoop), ring
bytes by hop-direction (Table 17-5), module
histograms (8 to 14 of R439), module page, debug nonce, RIGHTS of the unlock and whether it has a LIFETIME, the generators of the perturbation entries, the
events that they delay with the local time each is due, and whether an entry was enabled during the interval. -/
structure Stat where
  hoops : Tab HStat := []
  errors : Tab Nat := []
  other : Tab Nat := []
  ring : Tab Nat := []
  hists : Tab Hist := []
  page : Bytes := []
  partialNext : Bool := true
  nonce : Option Bytes := none
  rights : Nat := 0
  expires : Bool := false
  gens : Tab Nat := []
  late : List (Nat × Late) := []
  perturbed : Bool := false
  deriving DecidableEq, Repr

end Sys2Proof.Machine
end

