-- ==== Sys2Proof/Machine/ShapeSys.lean ====
section
/-! DEFINITION. The data of the module's services: what it sends out, PCIe functions, errors, wheel, links, statistics,
power, start-up, sideband and pins. -/

namespace Sys2Proof.Machine

/-- What the block sends out, in order (log entry 6): a posted PCIe write, a PCIe read or atomic request with its tag,
an MSI-X write, the completion of an aperture access or the Request Retry Status of a configuration request, a Klozar packet handed to a port, a Klozar block as the PAM4 levels of lanes 0 and 1, a coherence message (from, to, kind, line), a message on the sideband, the module's answer to the alert response address, an in-band interrupt of the I3C target (R496), an SPDM response (the fields the manual
states), a CXL.mem request (kind 0 MemRd, 1 MemWr, 2 MemWrPtl with its byte mask; R400), the AER report. -/
inductive Out where
  | hostWrite (fn addr : Nat) (data : Bytes)
  | hostRead (fn addr n tag : Nat)
  | hostAtomic (fn addr op : Nat) (w64 : Bool) (b c : Nat) (tag : Nat)
  | msix (fn vector addr data : Nat)
  | completion (fn : Nat) (status : Cpl) (data : Bytes)
  | packet (port : Nat) (k : Pkt)
  | block (port : Nat) (lane0 lane1 : List Nat)
  | ringMsg (src dst kind line : Nat)
  | oldValue (agent line off : Nat) (data : Bytes)
  | mctp (mtype : Nat) (data : Bytes)
  | alertAddress (address : Nat)
  | inBand (address : Nat)
  | spdm (code : Nat) (data : Bytes)
  | cxl (link dpa kind mask : Nat)
  | aer
  deriving DecidableEq, Repr

/-- An MSI-X table entry (R389). -/
structure MsixEnt where
  addr : Nat := 0
  data : Nat := 0
  masked : Bool := true
  deriving DecidableEq, Repr

/-- The PCIe port and its functions (R378 to R393). `failed` counts the failed host-tier writes of R390 by function. Masks have bit f for function f: 0 the PF, v VF v. Sizes in GiB.
Of Table 15-1: Max Payload Size and Max Read Request Size in bytes, ASPM L1 enabled by function, the width that L0p asks for (0 all lanes), and the lanes and the
rate in tenths of GT/s that the link has trained (0 while it is down). -/
structure Pcie where
  up : Bool := false
  busMaster : Nat := 0
  vfEnable : Bool := false
  numVfs : Nat := 0
  ari : Bool := false
  msixEnable : Nat := 0
  funcMask : Nat := 0
  bar2Gib : Nat := 64
  vfBar4Gib : Nat := 64
  entries : Tab MsixEnt := []
  pend : List (Nat × Nat) := []
  flr : Nat := 0
  crs : Bool := true
  failed : Tab Nat := []
  mps : Nat := 128
  mrrs : Nat := 512
  aspm : Nat := 0
  l0p : Nat := 0
  lanes : Nat := 0
  rate : Nat := 0
  deriving DecidableEq, Repr

/-- A tracked signature of an interval (R421): code, hoop, queue, object, pointer; further occurrences, the detail,
time and HELD flag of the last. -/
structure Sig where
  code : Nat
  hoop : Nat
  queue : Nat
  object : Nat
  pointer : Nat
  count : Nat := 0
  detail : Bytes := []
  time : Nat := 0
  held : Bool := false
  deriving DecidableEq, Repr

/-- The tracking of one error ring, the global one or a view (R421 to R424): when its vector was last sent, and whether it is due once 10 µs have passed. -/
structure ErrRing where
  sigs : List Sig := []
  drops : Tab Nat := []
  lastIrq : Option Nat := none
  irqDue : Bool := false
  deriving DecidableEq, Repr

/-- A row of the wheel table (Table 2-5): its sub-slots as END and eight class masks. -/
structure WRow where
  subs : List (Nat × List Nat)
  deriving DecidableEq, Repr

/-- The wheel (R41 to R46, R368, R462): rows, loaded table waiting for a revolution boundary, pending period with the
tick it takes effect at, whether the current sub-slot is held for duty cycling, the local time it began at. -/
structure Wheel where
  rows : List WRow := [⟨[(255, List.replicate 8 0xFFFF)]⟩]
  pending : Option (List WRow) := none
  period : Option (Nat × Nat) := none
  held : Bool := false
  subAt : Nat := 0
  deriving DecidableEq, Repr

/-- Local time (R364, R90): ns since power-on, local time of the last tick, tick
count since reset, the ic count of each die since reset in 1/3000 ic, and the fc count in thousandths. -/
structure Clock where
  now : Nat := 0
  tickAt : Nat := 0
  ticks : Nat := 0
  ic : Tab Nat := []
  fc : Nat := 0
  deriving DecidableEq, Repr

/-- Whether the module lives: input power, the switched rails, clocks stopped by a trip or loss of supply, fatal, rind die
dead; `age` the powered ns since the last bit of the powered-time counter, which SRAM keeps until power-off, `short` the rails out of trim and short of margin (R468), `trip` the
local time of a trip's shutdown and the place of its record in what has been sent (R467), `failed` CAUSE and DETAIL of the fault that has ended a start-up in
FAILED since power-on (R474). -/
structure Life where
  powered : Bool := false
  rails : Bool := false
  fatal : Bool := false
  rindDead : Bool := false
  stopped : Bool := false
  age : Nat := 0
  short : Nat := 0
  trip : Option (Nat × Nat) := none
  failed : Option (Nat × Nat) := none
  deriving DecidableEq, Repr

/-- Pins (R491 to R498): inputs PERST_N, FLOW_OK; outputs as asserted flags, ALERT_N with the local time of the last event that asserts it (R498); the levels at the straps, and the straps as
last sampled (R344). -/
structure Pins where
  perstN : Bool := false
  flowOk : Bool := false
  alert : Bool := false
  alertAt : Option Nat := none
  thermtrip : Bool := false
  cycleReq : Bool := false
  tickOut : Nat := 0
  levels : Straps := {}
  straps : Straps := {}
  deriving DecidableEq, Repr

/-- The spare rows and columns of a core's press in use: the physical rows and columns mapped out, 0xFF for none (R193, R236). -/
structure Spare where
  row0 : Nat := 0xFF
  row1 : Nat := 0xFF
  col0 : Nat := 0xFF
  col1 : Nat := 0xFF
  deriving DecidableEq, Repr

/-- The fuses (R1, R17, R193, R223, R446, R468, R477, R481, R483): the unique secret, die serials and RD serial, the physical cores of a die that are
not enabled (by default 64 and 65), the press repair map of a core, rollback count,
revoked keys, digests, AVS baselines, trim bits and hour bits blown. -/
structure Fuses where
  secret : BitVec 384 := 0
  off : Tab (Nat × Nat) := []
  spare : Tab Spare := []
  serials : Tab Nat := []
  rollback : Nat := 0
  revoked : Nat := 0
  ecdsaDigests : List Nat := [0, 0, 0, 0]
  lmsDigests : List Nat := [0, 0, 0, 0]
  debugDigest : Nat := 0
  baseline : List Nat := [0, 0, 0, 0, 0]
  trim : List Nat := [0, 0, 0, 0, 0]
  hours : Nat := 0
  deriving DecidableEq, Repr

/-- The flash (R23, R475): what the image area holds from its first byte, and the stored equaliser presets by 8 × slot + port. -/
structure Flash where
  image : Bytes := []
  presets : Tab Bytes := []
  deriving DecidableEq, Repr

/-- What survives everything: fuses, the device certificate in the identity OTP (R481), and flash (R414, Table 16-10). -/
structure NonVol where
  fuses : Fuses := {}
  otp : Bytes := []
  flash : Flash := {}
  deriving DecidableEq, Repr

end Sys2Proof.Machine
end

