-- ==== Sys2Proof/Machine/State.lean ====
section
/-! DEFINITION. The state of the TH48: everything the manual gives the module, as plain data, and the state right after
reset. -/

namespace Sys2Proof.Machine

/-- Why a step stops with a fault. -/
inductive Fault where
  /-- Raised by a register write that writes 1 to a reserved bit: R11 leaves the behaviour undefined. Safe: the module
  may do anything, the model stops. -/
  | reservedBitWritten
  deriving DecidableEq, Repr

/-- Why a step has no meaning. -/
inductive Refusal where
  /-- Raised by an arm of exec that has no meaning yet. Safe: the model says nothing. -/
  | notModelled (mnemonic : String)
  deriving DecidableEq, Repr

/-- Work and its agents: queues, slots, the mapper's and the whey engine's place, recipes (hoop × 1,024 + index), instances, kernels, credits
of free cores that wait at the dispatchers in arrival order (R107), hoop extras, and the kernels that faults ended at the latest such local
time, with their numbers and that time (R138). -/
structure Work where
  queues : Tab Queue := []
  slots : Tab Slot := []
  lastMapped : Nat := 4095
  lastWhey : Nat := 7
  recipes : Tab Recipe := []
  insts : Tab Inst := []
  kernels : Tab Kernel := []
  credits : List Nat := []
  faulted : List (Nat × Nat × Kernel) := []
  hoops : Tab HoopX := []
  deriving DecidableEq, Repr

/-- Engines and sessions: descriptors, engines, sessions, host reads outstanding, segment buffers (R268) by engine:
0 to 255 the load/store path of a core, 256 to 511 its press, 512 to 575 a stream engine, 576 to 579 a die's second level,
580 that of the rind die; each a list of hoop × 32 + slot (windows from 16), most recently used first; HDM decoders whose link has gone
down since their commit (R402), the credit pools of each die. -/
structure Flow where
  descs : Tab Desc := []
  engines : Tab Engine := []
  sessions : Tab Sess := []
  reads : Tab HRead := []
  asks : List Ask := []
  segbufs : Tab (List Nat) := []
  lostHdm : List Nat := []
  pools : Tab Pools := []
  deriving DecidableEq, Repr

/-- The module but its fuses, flash and command queue; `ms` says which part it is (R1: false TH48-M, true TH48-MS). -/
structure Device where
  ms : Bool := false
  regs : Tab Nat := []
  mem : Memory := ⟨[], some 0⟩
  bad : List Nat := []
  fresh : Nat := 1
  out : List Out := []
  life : Life := {}
  clock : Clock := {}
  pins : Pins := {}
  pcie : Pcie := {}
  work : Work := {}
  cores : Tab Core := []
  coh : Coh := {}
  flow : Flow := {}
  wheel : Wheel := {}
  errs : Tab ErrRing := []
  klz : Klz := {}
  stat : Stat := {}
  power : Power := {}
  boot : Boot := {}
  deriving DecidableEq, Repr

/-- The state of the model: the commands that wait, what survives everything, the rest of the module. -/
structure State where
  pending : List Instr
  nv : NonVol
  dev : Device
  deriving DecidableEq, Repr

/-- The module right after reset: every register at its reset value (R12), no command waiting. The input is off until
POWER_ON; memory is undefined until start-up (R472). Log entries 1 and 2. -/
def State.reset : State := ⟨[], {}, {}⟩

end Sys2Proof.Machine
end

