-- ==== Sys2Proof/Machine/Ops.lean ====
section
/-! DEFINITION. The named operations every family shares: register fields, free numbers, hoops, functions, time, PCIe
writes and vectors. -/

namespace Sys2Proof.Machine

/-- The value of a register field (R8). -/
def Device.rd (d : Device) (f : Fld) (i : Nat := 0) : Nat := f.read d.regs i

/-- A register field set by hardware, cut to its width. -/
def Device.wr (d : Device) (f : Fld) (i v : Nat) : Device := { d with regs := f.write d.regs i v }

/-- Add to a wrapping count. -/
def Device.count (d : Device) (f : Fld) (i : Nat) (n : Nat := 1) : Device := d.wr f i (d.rd f i + n)

/-- Add to a saturating count. -/
def Device.countSat (d : Device) (f : Fld) (i : Nat) (n : Nat := 1) : Device := d.wr f i (satAdd f.width (d.rd f i) n)

/-- Set bits of a status field (R9: hardware sets W1C bits). -/
def Device.setBits (d : Device) (f : Fld) (i m : Nat) : Device := d.wr f i (d.rd f i ||| m)

/-- Send something out. -/
def Device.emit (d : Device) (o : Out) : Device := { d with out := d.out ++ [o] }

/-- Take the next number of the model's own counter: identities, orders and free values. -/
def Device.step1 (d : Device) : Device := { d with fresh := d.fresh + 1 }

/-- The outcome of a command that runs: the next state, with the queue and what survives everything as they were. -/
def State.done (s : State) (d : Device) : Host.Outcome State Fault Refusal := .next { s with dev := d }

/-- Whether the module runs work: READY, not fatal, its clocks running (R36, R249, R472). -/
def Device.live (d : Device) : Bool :=
  d.rd Reg.BOOT_STATUS_STAGE == 4 && !d.life.fatal && !d.life.stopped && d.life.powered

/-! Hoops -/

def Device.hoopState (d : Device) (h : Nat) : Nat := d.rd Reg.HOOP_CFG_STATE h
def Device.hx (d : Device) (h : Nat) : HoopX := Tab.get {} d.work.hoops h
def Device.setHx (d : Device) (h : Nat) (x : HoopX) : Device :=
  { d with work := { d.work with hoops := Tab.put {} d.work.hoops h x } }

/-- TotalVFs limits: the VFs that exist (R380). -/
def Device.vfs (d : Device) : Nat :=
  if d.pcie.vfEnable then (if !d.pcie.ari && d.pcie.numVfs > 7 then 7 else Nat.min d.pcie.numVfs 8) else 0

/-- Whether a function exists (R380). -/
def Device.fnExists (d : Device) (fn : Nat) : Bool := fn == 0 || fn ≤ d.vfs

/-- The function that owns a hoop (R381). -/
def Device.ownerFn (d : Device) (h : Nat) : Nat := if h + 1 ≤ d.vfs then h + 1 else 0

/-! Time -/

/-- TIME of Table 3-14: ns since the last tick in bits 25:0, saturating, and HOOP_TICKS in bits 63:26. -/
def Device.time (d : Device) (h : Nat) : Nat :=
  Nat.min (d.clock.now - d.clock.tickAt) (2 ^ 26 - 1)
    + (d.rd Reg.HOOP_TICKS_TICKS (if h < 8 then h else 0) % 2 ^ 38) * 2 ^ 26

/-! The die ring -/

/-- The hop-directions of Table 17-5 on the shortest way of the die ring from one agent to another. -/
def ringPath (src dst : Nat) : List Nat :=
  let f := (dst + 5 - src) % 5
  if f ≤ 2 then (List.range f).map (fun i => (src + i) % 5)
  else (List.range (5 - f)).map (fun i => 5 + (src + 4 - i) % 5)

/-- Bytes that a message takes on each hop of its way (R247). -/
def Device.ringAdd (d : Device) (hops : List Nat) (bytes : Nat) : Device :=
  { d with stat := { d.stat with ring := hops.foldl (fun t i => Tab.put 0 t i (Tab.get 0 t i + bytes)) d.stat.ring } }

/-- A control message of the ring, and the data messages of n bytes (R247): 16 bytes, and 144 for each 128. The sizes of dispatch, management
and port traffic are this model's choice (R20); log entry 43. -/
def Device.ringCtl (d : Device) (src dst : Nat) : Device := d.ringAdd (ringPath src dst) 16
def Device.ringData (d : Device) (src dst n : Nat) : Device := d.ringAdd (ringPath src dst) (144 * ((n + 127) / 128))

/-! PCIe writes and MSI-X -/

/-- Whether a function may issue requests: the link is up, Bus Master Enable is 1, no FLR (R390, R391, R396). -/
def Device.mayMaster (d : Device) (fn : Nat) : Bool :=
  d.pcie.up && d.pcie.busMaster.testBit fn && !d.pcie.flr.testBit fn && d.fnExists fn

/-- A transfer of PCIe cut where its address meets a multiple of a payload or request size, so that no part is longer than that size or crosses a
4 KiB boundary (Table 15-1): at most `f` cuts. DESIGN CHOICE (log entry 47): the places of the cuts. -/
def cuts (size a n : Nat) : Nat → List (Nat × Nat)
  | 0 => if a % size + n ≤ size then [(a, n)] else [(a, size - a % size), (a + (size - a % size), n - (size - a % size))]
  | f + 1 => if a % size + n ≤ size then [(a, n)] else (a, size - a % size) :: cuts size (a + (size - a % size)) (n - (size - a % size)) f

/-- A posted write to host memory, in parts of Max Payload Size; discarded, and counted as a failed write, while the function may not issue requests (R390). -/
def Device.hostWrite (d : Device) (fn addr : Nat) (data : Bytes) : Device :=
  if d.mayMaster fn then
    (cuts d.pcie.mps addr data.length (data.length / d.pcie.mps)).foldl (fun d x => d.emit (.hostWrite fn x.1 (slice data (x.1 - addr) x.2))) d
  else { d with pcie := { d.pcie with failed := Tab.put 0 d.pcie.failed fn (Tab.get 0 d.pcie.failed fn + 1) } }

/-- A posted write that a vat die's core, press or stream engine makes: its data cross the ring to the port (R20). -/
def Device.hostWriteBy (d : Device) (die fn addr : Nat) (data : Bytes) : Device :=
  (if d.mayMaster fn then d.ringData die 4 data.length else d).hostWrite fn addr data

/-- The MSI-X entry of a vector. -/
def Device.msixEnt (d : Device) (fn v : Nat) : MsixEnt := Tab.get {} d.pcie.entries (fn * 256 + v)

/-- Whether a vector can be sent now (R389, R390). -/
def Device.msixOpen (d : Device) (fn v : Nat) : Bool :=
  d.mayMaster fn && d.pcie.msixEnable.testBit fn && !d.pcie.funcMask.testBit fn && !(d.msixEnt fn v).masked

/-- Send a vector, or set its pending bit (R389). -/
def Device.sendVector (d : Device) (fn v : Nat) : Device :=
  if d.msixOpen fn v then
    { d with pcie := { d.pcie with pend := d.pcie.pend.filter (· != (fn, v)) } }.emit
      (.msix fn v (d.msixEnt fn v).addr (d.msixEnt fn v).data)
  else if d.pcie.pend.contains (fn, v) then d
  else { d with pcie := { d.pcie with pend := d.pcie.pend ++ [(fn, v)] } }

/-- Send every pending vector of a function that is open now (R389). -/
def Device.flushVectors (d : Device) (fn : Nat) : Device :=
  (d.pcie.pend.filter (·.1 == fn)).foldl (fun d p => if d.msixOpen p.1 p.2 then d.sendVector p.1 p.2 else d) d

/-! Cores, blocks, entries -/

/-- The seed of a core's replacement generator (R223), from the die serial. -/
def l1Seed (serial c : Nat) : Nat :=
  let g := bits serial 15 0 ^^^ bits serial 31 16 ^^^ bits serial 47 32 ^^^ bits serial 63 48
  let g := (g ^^^ (c * 0x9e37)) % 65536
  if g = 0 then 1 else g

def Device.core (d : Device) (k : Nat) : Core := Tab.get {} d.cores k
def Device.setCore (d : Device) (k : Nat) (c : Core) : Device := { d with cores := Tab.put {} d.cores k c }
def Device.modCore (d : Device) (k : Nat) (f : Core → Core) : Device := d.setCore k (f (d.core k))
/-- The L1 and victim cache of a core are emptied: its first block of a kernel, or an acquire (R110, R226, R254). -/
def Device.dropL1 (d : Device) (k : Nat) : Device := d.modCore k (fun c => { c with l1 := [], victim := [], softL1 := [], badL1 := [] })
def Core.block? (c : Core) (p : Nat) : Option Block := Tab.find? c.blocks p
def Device.modBlock (d : Device) (k p : Nat) (f : Block → Block) : Device :=
  d.modCore k (fun c => match Tab.find? c.blocks p with
    | some b => { c with blocks := Tab.insert c.blocks p (f b) }
    | none => c)
def Device.modEnt (d : Device) (k e : Nat) (f : SEnt → SEnt) : Device :=
  d.modCore k (fun c => match Tab.find? c.ents e with
    | some x => { c with ents := Tab.insert c.ents e (f x) }
    | none => c)

/-! Work tables -/

def Device.queue (d : Device) (q : Nat) : Queue := Tab.get {} d.work.queues q
def Device.setQueue (d : Device) (q : Nat) (x : Queue) : Device :=
  { d with work := { d.work with queues := Tab.put {} d.work.queues q x } }
def Device.modQueue (d : Device) (q : Nat) (f : Queue → Queue) : Device := d.setQueue q (f (d.queue q))
def Device.slot (d : Device) (s : Nat) : Slot := Tab.get {} d.work.slots s
def Device.setSlot (d : Device) (s : Nat) (x : Slot) : Device :=
  { d with work := { d.work with slots := Tab.put {} d.work.slots s x } }
def Device.kernel? (d : Device) (k : Nat) : Option Kernel := Tab.find? d.work.kernels k
def Device.setKernel (d : Device) (k : Nat) (x : Kernel) : Device :=
  { d with work := { d.work with kernels := Tab.insert d.work.kernels k x } }
def Device.modKernel (d : Device) (k : Nat) (f : Kernel → Kernel) : Device :=
  match d.kernel? k with
  | some x => d.setKernel k (f x)
  | none => d
def Device.dropKernel (d : Device) (k : Nat) : Device :=
  { d with work := { d.work with kernels := Tab.erase d.work.kernels k } }
def Device.inst? (d : Device) (i : Nat) : Option Inst := Tab.find? d.work.insts i
def Device.setInst (d : Device) (i : Nat) (x : Inst) : Device :=
  { d with work := { d.work with insts := Tab.insert d.work.insts i x } }
def Device.dropInst (d : Device) (i : Nat) : Device :=
  { d with work := { d.work with insts := Tab.erase d.work.insts i } }
def Device.recipe? (d : Device) (h r : Nat) : Option Recipe := Tab.find? d.work.recipes (h * 1024 + r)
def Device.sess (d : Device) (s : Nat) : Sess := Tab.get {} d.flow.sessions s
def Device.setSess (d : Device) (s : Nat) (x : Sess) : Device :=
  { d with flow := { d.flow with sessions := Tab.put {} d.flow.sessions s x } }
def Device.modSess (d : Device) (s : Nat) (f : Sess → Sess) : Device := d.setSess s (f (d.sess s))
def Device.desc? (d : Device) (i : Nat) : Option Desc := Tab.find? d.flow.descs i
def Device.setDesc (d : Device) (i : Nat) (x : Desc) : Device :=
  { d with flow := { d.flow with descs := Tab.insert d.flow.descs i x } }
def Device.modDesc (d : Device) (i : Nat) (f : Desc → Desc) : Device :=
  match d.desc? i with
  | some x => d.setDesc i (f x)
  | none => d
def Device.engine (d : Device) (e : Nat) : Engine := Tab.get {} d.flow.engines e
def Device.setEngine (d : Device) (e : Nat) (x : Engine) : Device :=
  { d with flow := { d.flow with engines := Tab.put {} d.flow.engines e x } }

/-- The vat die whose core or stream engine asks for a host read; what the rind die asks for itself takes no ring (R20). -/
def Device.readDie (d : Device) (r : HRead) : Nat :=
  match r.kind with
  | 0 | 3 | 9 | 10 | 11 => r.a / 64
  | 2 => ((d.desc? r.a).map (fun (x : Desc) => x.engine / 16)).getD 4
  | _ => 4

/-- The tags that requests outstanding hold. -/
def Device.tagsHeld (d : Device) : List Nat := d.flow.asks.filterMap (fun a => a.tag)

/-- A free 14-bit tag, the first from a number on: none while all are held (Table 15-1). DESIGN CHOICE (log entry 47). -/
def Device.freeTag (d : Device) (want : Nat) : Option Nat :=
  let held := d.tagsHeld
  if 2 ^ 14 ≤ held.length then none
  else List.find? (fun t => !held.contains t) ((List.range (held.length + 1)).map (fun i => (want + i) % 2 ^ 14))

/-- Whether a request waits for a tag. -/
def Ask.waiting (a : Ask) : Bool := a.tag.isNone && a.come.isNone

/-- Requests that wait are sent, the oldest first, while tags are free. -/
def Device.sendAsks (d : Device) : Device :=
  (d.flow.asks.filter Ask.waiting).foldl (fun d a =>
    match d.freeTag a.read with
    | none => d
    | some t =>
      ({ d with flow := { d.flow with asks := d.flow.asks.map (fun b => if b = a then { a with tag := some t } else b) } }).emit
        (match a.op with
          | none => .hostRead a.fn a.addr a.n t
          | some (op, w64, b, c) => .hostAtomic a.fn a.addr op w64 b c t)) d

/-- Open a host read, numbered `fresh`, and send its requests, none beyond Max Read Request Size (R267, Table 15-1). -/
def Device.openRead (d : Device) (r : HRead) (n : Nat) : Device :=
  let id := d.fresh
  let d := if d.readDie r = 4 then d else d.ringCtl (d.readDie r) 4
  let parts := (cuts d.pcie.mrrs r.addr n (n / d.pcie.mrrs)).map (fun x => ({ read := id, fn := r.fn, addr := x.1, n := x.2 } : Ask))
  Device.sendAsks { d with flow := { d.flow with reads := Tab.insert d.flow.reads id r, asks := d.flow.asks ++ parts }, fresh := id + 1 }

/-- Open an atomic at the host (R160), of `n` bytes. -/
def Device.openAtomic (d : Device) (r : HRead) (n op : Nat) (w64 : Bool) (b c : Nat) : Device :=
  let id := d.fresh
  let a : Ask := { read := id, fn := r.fn, addr := r.addr, n := n, op := some (op, w64, b, c) }
  Device.sendAsks { d with flow := { d.flow with reads := Tab.insert d.flow.reads id r, asks := d.flow.asks ++ [a] }, fresh := id + 1 }

/-- A host read is over; its requests hold no tag any more. -/
def Device.closeRead (d : Device) (id : Nat) : Device :=
  Device.sendAsks { d with flow := { d.flow with reads := Tab.erase d.flow.reads id, asks := d.flow.asks.filter (fun a => a.read != id) } }

end Sys2Proof.Machine
end

