-- ==== Sys2Proof/Machine/Place.lean ====
section
/-! DEFINITION. Device addresses and where they lie: channel groups, home dies, CXL decoders, lines and L2 sets (R19, R227, R258, R400). -/

namespace Sys2Proof.Machine

/-- Bytes of positions that a channel group has (R258). -/
def groupBytes (ms : Bool) : Nat := if ms then 18 * 2 ^ 30 else 24 * 2 ^ 30

/-- The device address of position `pos` of channel group `g` (R258). -/
def devAddr (g pos : Nat) : Nat := (3 * (g % 12) + pos / 2 ^ 33) * 2 ^ 35 + (g / 12) * 2 ^ 33 + pos % 2 ^ 33

/-- The channel group and position of an HBM3E device address (R258). -/
def groupPos (a : Nat) : Nat × Nat :=
  (12 * bits a 34 33 + bits a 40 35 / 3, (bits a 40 35 % 3) * 2 ^ 33 + bits a 32 0)

/-- First device address of the CXL tier (Table 10-1). -/
def cxlBase : Nat := 0x080000000000

def isHbm (a : Nat) : Bool := a < 0x012000000000
def isCxl (a : Nat) : Bool := cxlBase ≤ a && a < 0x100000000000

/-- Whether a device address is reserved or absent (Table 10-1, R258). -/
def absent (ms : Bool) (a : Nat) : Bool :=
  if isHbm a then ms && bits a 40 35 % 3 == 2 && bits a 32 0 ≥ 2 ^ 31 else !isCxl a

/-- The home die of a device address (R227, R258). -/
def homeDie (a : Nat) : Nat := if isHbm a then bits a 34 33 else a / 4096 % 4

/-- Device address of the module reserve (R418). -/
def reserveAddr (ms : Bool) : Nat := devAddr 47 (groupBytes ms - 2 ^ 20)

/-- The committed decoder that maps a CXL address, with its link and device physical address (R400); none when no decoder maps it. -/
def Device.cxlPlace (d : Device) (a : Nat) : Option (Nat × Nat × Nat) :=
  let o := a - cxlBase
  let unit := 2 ^ 28
  let hit := (List.range 8).find? (fun j =>
    d.rd Reg.CXL_HDM_CTRL_COMMITTED j == 1 &&
    d.rd Reg.CXL_HDM_RANGE_BASE j * unit ≤ o && o < (d.rd Reg.CXL_HDM_RANGE_BASE j + d.rd Reg.CXL_HDM_RANGE_SIZE j) * unit)
  match hit with
  | none => none
  | some j =>
    let r := o - d.rd Reg.CXL_HDM_RANGE_BASE j * unit
    let dpa := d.rd Reg.CXL_HDM_RANGE_DPA_BASE j * unit
    let two := d.rd Reg.CXL_HDM_CTRL_WAYS j == 1
    let k := r / 4096
    let link := if two && k % 2 == 1 then d.rd Reg.CXL_HDM_CTRL_T1 j else d.rd Reg.CXL_HDM_CTRL_T0 j
    let pa := if two then dpa + k / 2 * 4096 + r % 4096 else dpa + r
    some (j, link, pa)

/-- The link and device physical address of a CXL address; none when no decoder maps it, or the link or its device is lost (R266, R402). -/
def Device.cxlRoute (d : Device) (a : Nat) : Option (Nat × Nat) :=
  match d.cxlPlace a with
  | none => none
  | some (j, link, pa) => if d.flow.lostHdm.contains j || d.rd Reg.CXL_LINK_STATUS_STATE link != 2 then none else some (link, pa)

/-- Whether a committed decoder maps an address, lost or not (R386). -/
def Device.cxlMapped (d : Device) (a : Nat) : Bool :=
  (List.range 8).any (fun j =>
    d.rd Reg.CXL_HDM_CTRL_COMMITTED j == 1 &&
    d.rd Reg.CXL_HDM_RANGE_BASE j * 2 ^ 28 ≤ a - cxlBase &&
    a - cxlBase < (d.rd Reg.CXL_HDM_RANGE_BASE j + d.rd Reg.CXL_HDM_RANGE_SIZE j) * 2 ^ 28)

/-- The exclusive-or of the 5-bit fields of a line number (R227). -/
def sliceOf (n : Nat) : Nat := (List.range 9).foldl (fun x i => x ^^^ bits n (5 * i + 4) (5 * i)) 0

/-- The set of a line in its slice (R227). -/
def l2Set (n : Nat) : Nat := n / 32 % 3072

/-- Whether two lines lie in one set of one slice. -/
def sameSet (m n : Nat) : Bool := l2Set m == l2Set n && sliceOf m == sliceOf n

/-- The lines that n bytes at a device address touch. -/
def linesOf (a n : Nat) : List Nat := (List.range (if n = 0 then 0 else (a + n - 1) / 128 + 1 - a / 128)).map (· + a / 128)

/-- The bytes of a range that lie in a line. -/
def inLine (a n l : Nat) : Nat := Nat.min (a + n) (l * 128 + 128) - Nat.max a (l * 128)

end Sys2Proof.Machine
end

