-- ==== Sys2Proof/Machine/Count.lean ====
section
/-! DEFINITION. Counters, histograms and sticky flags, as every family uses them (R211, R428, R435 to R439). -/

namespace Sys2Proof.Machine

def Device.hstat (d : Device) (h : Nat) : HStat := Tab.get {} d.stat.hoops h
def Device.setHstat (d : Device) (h : Nat) (x : HStat) : Device :=
  { d with stat := { d.stat with hoops := Tab.put {} d.stat.hoops h x } }
def Device.modHstat (d : Device) (h : Nat) (f : HStat → HStat) : Device := d.setHstat h (f (d.hstat h))

/-- Whether a perturbation entry is enabled (R448, DEBUG_STATUS). -/
def Device.perturbing (d : Device) : Bool := (List.range 8).any (fun n => d.rd Reg.PERTURB_CFG_TARGET n != 0)

/-- The statistics of a hoop that enters HOLD from nothing: its first interval has HOLD, and PERTURBED while an entry is enabled (R432). -/
def Device.newHstat (d : Device) : HStat := { held := true, perturbed := d.perturbing }

/-- Add to counter `i` of Table 17-1 of a hoop; 8 counts for the module page alone, and work of no hoop, from 9 on, counts nowhere (R428, R438). -/
def Device.cnt (d : Device) (h i : Nat) (n : Nat := 1) : Device :=
  if h < 8 then d.modHstat h (fun x => { x with counters := Tab.put 0 x.counters i (Tab.get 0 x.counters i + n) })
  else if 8 < h then d
  else { d with stat := { d.stat with other := Tab.put 0 d.stat.other i (Tab.get 0 d.stat.other i + n) } }

/-- The bin of a sample (R435). -/
def histBin (shift v : Nat) : Nat := if v < 2 ^ shift then 0 else Nat.min (Nat.log2 v - shift + 1) 15

/-- Enter a sample (R435, R436). -/
def Hist.add (x : Hist) (v : Nat) : Hist :=
  let v := Nat.min v (2 ^ 32 - 1)
  let k := histBin x.shift v
  { x with bins := Tab.put 0 x.bins k (satAdd 32 (Tab.get 0 x.bins k) 1), min := Nat.min x.min v, max := Nat.max x.max v,
           samples := satAdd 32 x.samples 1 }

/-- The histogram of a hoop as created (Table 17-4), and of the module (R439). -/
def histNew (k : Nat) : Hist := { shift := match k with | 0 => 10 | 1 => 6 | 2 => 8 | 3 => 10 | _ => 4 }

def HStat.hist (x : HStat) (k : Nat) : Hist := Tab.get (histNew k) x.hists k

/-- Enter a sample in histogram `k` of a hoop. -/
def Device.sample (d : Device) (h k v : Nat) : Device :=
  d.modHstat h (fun x => { x with hists := Tab.put (histNew k) x.hists k ((x.hist k).add v) })

/-- Enter a sample in histogram `k` of the module, 8 to 14 (R439). -/
def Device.moduleSample (d : Device) (k v : Nat) : Device :=
  { d with stat := { d.stat with hists := Tab.put (histNew k) d.stat.hists k ((Tab.get (histNew k) d.stat.hists k).add v) } }

/-- Raise sticky flags of a unit, 0 vector, 1 press, 2 stream, 3 update (R211, R212). -/
def Device.numFlags (d : Device) (h unit nib : Nat) : Device :=
  if nib = 0 then d
  else
    let f := match unit with
      | 0 => Reg.HOOP_NUMFLAGS_VECTOR
      | 1 => Reg.HOOP_NUMFLAGS_PRESS
      | 2 => Reg.HOOP_NUMFLAGS_STREAM
      | _ => Reg.HOOP_NUMFLAGS_UPDATE
    (d.setBits f h nib).modHstat h (fun x => { x with numflags := x.numflags ||| nib * 16 ^ unit })

end Sys2Proof.Machine
end

