-- ==== Sys2Proof/Machine/Records.lean ====
section
/-! DEFINITION. Error records as bytes, the class bits of the summaries, and fatal events (R248 to R250, R417 to R419, R423). -/

namespace Sys2Proof.Machine

/-- The class of a record code (Table 16-8). -/
def codeClass (code : Nat) : Nat :=
  match code with
  | 0x01 => 1
  | 0x02 => 0
  | 0x03 => 0
  | 0x10 => 4
  | 0x11 => 6
  | 0x12 => 6
  | 0x18 => 5
  | 0x19 => 5
  | 0x20 => 2
  | 0x28 => 3
  | 0x30 => 7
  | 0x31 => 7
  | 0x32 => 7
  | 0x33 => 7
  | 0x38 => 8
  | 0x39 => 8
  | 0x3A => 8
  | 0x40 => 9
  | 0x41 => 9
  | 0x42 => 9
  | 0x48 => 10
  | 0x49 => 10
  | 0x50 => 11
  | 0x58 => 12
  | 0x60 => 13
  | 0x70 => 14
  | _ => 15

/-- Whether a code is never coalesced (R421). -/
def neverCoalesced (code : Nat) : Bool := code == 0x10 || code == 0x58 || code == 0x78

/-- An occurrence to report: record code, hoop (0xFF none), queue (0xFFFF none), object and pointer (0xFFFF_FFFF none),
detail bytes, and whether it was held under R89. -/
structure Occ where
  code : Nat
  hoop : Nat := 0xFF
  queue : Nat := 0xFFFF
  object : Nat := 0xFFFFFFFF
  pointer : Nat := 0xFFFFFFFF
  detail : Bytes := []
  held : Bool := false
  deriving DecidableEq, Repr

/-- The 64 bytes of a record (Table 16-7). -/
def recordBytes (o : Occ) (count time : Nat) (isRepeat phase : Bool) : Bytes :=
  le 2 o.code ++ le 1 (codeClass o.code)
    ++ le 1 (b2n isRepeat + 2 * b2n o.held + 128 * b2n phase)
    ++ le 1 o.hoop ++ le 1 0 ++ le 2 o.queue ++ le 4 o.object ++ le 4 o.pointer ++ le 4 count ++ le 4 0
    ++ le 8 time ++ slice o.detail 0 32

/-- Set the class bit of an occurrence, or its dropped bit (R423). -/
def Device.errBit (d : Device) (r c : Nat) (dropped : Bool) : Device :=
  if r = 8 then d.setBits (if dropped then Reg.ERR_SUMMARY_DROPPED else Reg.ERR_SUMMARY_CLASS) 0 (2 ^ c)
  else d.setBits (if dropped then Reg.HOOP_ERR_SUMMARY_DROPPED else Reg.HOOP_ERR_SUMMARY_CLASS) r (2 ^ c)

/-- A management message of MCTP type 0x7E: the PF's vendor ID, then its body (R416, R417). The vendor ID's byte order is PRESUMED; log entry 34. -/
def vendorMsg (b : Bytes) : Out := .mctp 0x7E (be 2 Config.pciVendor.toNat ++ b)

/-- The module's address on the sideband: SMBus address, or the I3C target's static address (R496). -/
def Device.sbAddress (d : Device) : Nat := 0x60 + d.pins.straps.slot.toNat

/-- ALERT_N asserts; with SB_MODE 0 the I3C target raises an in-band interrupt at each assertion (R496, R498). -/
def Device.alert (d : Device) : Device :=
  let fresh := !d.pins.alert && !d.pins.straps.sbMode
  let d := { d with pins := { d.pins with alert := true, alertAt := some d.clock.now } }
  if fresh then d.emit (.inBand d.sbAddress) else d

/-! Fatal events -/

/-- A fatal event (R248 to R250, R417): every hoop is DEAD, memory and dirty lines are lost, the fatal registers are
written unless VALID is 1, the BMC and the host are told. With the rind die dead nothing is recorded. -/
def Device.moduleFatal (d : Device) (cause reporter suspect slice line : Nat) : Device :=
  if d.life.fatal then d
  else
    let dead := suspect = 4
    let d := (List.range 8).foldl (fun d h => d.wr Reg.HOOP_CFG_STATE h 5) d
    let d := { d with life := { d.life with fatal := true, rindDead := dead }
                      mem := Memory.undefinedSince d.fresh, fresh := d.fresh + 1, coh := {} }
    if dead then d
    else
      let d := if d.rd Reg.COH_FATAL_VALID = 1 then d
        else
          let d := d.wr Reg.COH_FATAL_VALID 0 1
          let d := d.wr Reg.COH_FATAL_CAUSE 0 cause
          let d := d.wr Reg.COH_FATAL_REPORTER 0 reporter
          let d := d.wr Reg.COH_FATAL_SUSPECT 0 suspect
          let d := d.wr Reg.COH_FATAL_SLICE 0 slice
          let d := d.wr Reg.COH_FATAL_TIME_US 0 (d.clock.now / 1000)
          let d := d.wr Reg.COH_FATAL_ADDR_LINE 0 line
          let word := 1 + cause * 2 ^ 4 + reporter * 2 ^ 8 + suspect * 2 ^ 12 + slice * 2 ^ 16 + d.clock.now / 1000 % 2 ^ 32 * 2 ^ 32
          let o : Occ := { code := 0x70, detail := le 8 word ++ le 8 (line * 128) }
          d.wr Reg.FATAL_RECORD_RECORD 0 (ofLe (recordBytes o 1 (d.time 0) false false))
      let d := d.errBit 8 14 false
      let d := d.alert
      let rec_ := le 64 (d.rd Reg.FATAL_RECORD_RECORD)
      (d.emit (vendorMsg (le 1 0x79 ++ le 3 0 ++ le 4 0xFFFFFFFF ++ rec_))).emit .aer

end Sys2Proof.Machine
end

