-- ==== Sys2Proof/Machine/Coh.lean ====
section
/-! DEFINITION. The coherent domain as data (chapter 9) and the L2 (R227 to R235): tables 9-3 and 9-4, allocation, whole transactions. -/

namespace Sys2Proof.Machine

/-- The state an agent holds a line in: 0 I, 1 S, 2 K, 3 E, 4 M (Table 9-1). -/
def Coh.state (c : Coh) (a n : Nat) : Nat :=
  match Tab.find? (Tab.get [] c.caches a) n with
  | some l => l.state
  | none => 0

def Coh.setCache (c : Coh) (a : Nat) (t : Tab CLine) : Coh := { c with caches := Tab.put [] c.caches a t }

/-- Change a line that an agent holds. -/
def Coh.modLine (c : Coh) (a n : Nat) (f : CLine → CLine) : Coh :=
  let t := Tab.get [] c.caches a
  match Tab.find? t n with
  | none => c
  | some l => c.setCache a (Tab.insert t n (f l))

/-- Change the state of a line an agent holds; I drops it. A pinned line stays in M (R235, R237). -/
def Coh.setState (c : Coh) (a n st : Nat) : Coh :=
  let t := Tab.get [] c.caches a
  match Tab.find? t n with
  | none => c
  | some l => if l.pin then c else c.setCache a (if st = 0 then Tab.erase t n else Tab.insert t n { l with state := st })

/-- A hit sets the used bit of a line (R230). -/
def Coh.touch (c : Coh) (a n : Nat) : Coh := c.modLine a n (fun l => { l with used := true })

/-- Whether an agent has a line pinned, and the agent that has (R235). -/
def Coh.pinned (c : Coh) (a n : Nat) : Bool := ((Tab.find? (Tab.get [] c.caches a) n).map CLine.pin).getD false
def Coh.pinnedAt (c : Coh) (n : Nat) : Option Nat := (List.range 5).find? (fun a => c.pinned a n)

/-- A write of all 128 bytes replaces the data of a line wherever it lies: no word of it is bad, and it is pinned no longer (R235). -/
def Coh.renew (c : Coh) (n : Nat) : Coh := (List.range 5).foldl (fun c a => c.modLine a n (fun l => { l with bad := [], pin := false })) c

/-- The way a fill takes among the ways of a mask, with the lines of the set (R229, R230); none when it does not
allocate. A pinned way is never taken. The second answer says that the used bits of the permitted ways are cleared first. -/
def chooseWay (lines : List (Nat × CLine)) (mask : Nat) : Option (Nat × Bool) :=
  let at_ := fun w => lines.find? (fun l => l.2.way == w)
  let permitted := (setBits 16 mask).filter (fun w => match at_ w with
    | some l => !l.2.pin
    | none => true)
  match permitted.find? (fun w => (at_ w).isNone) with
  | some w => some (w, false)
  | none =>
    match permitted.find? (fun w => match at_ w with | some l => !l.2.used | none => false) with
    | some w => some (w, false)
    | none => permitted.head?.map (fun w => (w, true))

/-- The lines of a full control cache but one, which leaves; which one the manual does not say (R15). -/
def Coh.control (c : Coh) (t : Tab CLine) : Tab CLine :=
  if t.length < 524288 then t else t.eraseIdx (Config.controlVictim c.picks t.length % t.length)

/-- Allocate a line at an agent in a state (R229, R230): the line it displaces leaves, by WB when it is in M (R231, R242).
The control cache (agent 4) holds 524,288 lines, its 64 MiB (R15); log entry 13. `used` is the used bit of the fill (R280). While another agent has
the line pinned nothing is allocated (R235). -/
def Coh.alloc (c : Coh) (a n hoop mask st : Nat) (used : Bool := true) : Coh :=
  let t := Tab.get [] c.caches a
  match Tab.find? t n with
  | some l => c.setCache a (Tab.insert t n { l with state := if l.pin then 4 else st, used := true })
  | none =>
    if c.pinnedAt n ≠ none then c
    else if a = 4 then { c.setCache a (Tab.insert (c.control t) n { state := st, hoop := hoop, used := used }) with picks := c.picks + 1 }
    else
      let lines := t.filter (fun l => sameSet l.1 n)
      match chooseWay lines mask with
      | none => c
      | some (w, clear) =>
        let t := if clear then
            t.map (fun l => if sameSet l.1 n && mask.testBit l.2.way then (l.1, { l.2 with used := false }) else l)
          else t
        let t := t.filter (fun l => !(sameSet l.1 n && l.2.way == w))
        c.setCache a (Tab.insert t n { state := st, way := w, hoop := hoop, used := used })

/-- Whether an agent holds a line or an allocation finds a way for it (R229, R230, R235). -/
def Coh.canAlloc (c : Coh) (a n mask : Nat) : Bool :=
  c.state a n != 0 || (c.pinnedAt n).isNone && (a == 4 || (chooseWay ((Tab.get [] c.caches a).filter (fun l => sameSet l.1 n)) mask).isSome)

/-- A snooped agent's new state and response (Table 9-3): responses 0 RSP_I, 1 RSP_S, 2 RSP_FWD, 3 RSP_DIRTY. An agent in M answers an INV_OWN,
whose requester has then lost its copy, as an RD_OWN (Table 9-4); DEDUCED, log entry 43. -/
def snoop (kind st : Nat) : Nat × Nat :=
  match kind with
  | 0 => match st with
    | 4 => (2, 3)
    | 3 => (2, 2)
    | 2 => (2, 2)
    | 1 => (1, 1)
    | _ => (0, 0)
  | 5 => match st with
    | 4 => (3, 3)
    | 3 => (3, 1)
    | 2 => (2, 3)
    | 1 => (1, 1)
    | _ => (0, 0)
  | _ => match st with
    | 4 => (0, if kind = 1 ∨ kind = 2 then 2 else if kind = 3 then 0 else 3)
    | 3 => (0, if kind = 1 then 2 else 0)
    | 2 => (0, if kind = 1 then 2 else 0)
    | _ => (0, 0)

/-- The snoop's answer where an agent may have the line pinned: it stays in M and its good words go by the home (R235). -/
def Coh.snoopAt (c : Coh) (kind a n : Nat) : Nat × Nat := if c.pinned a n then (4, 3) else snoop kind (c.state a n)

/-- The requester's new state (Table 9-4), from the responses of the other agents; 0 when it holds none. -/
def outcome (kind : Nat) (rsps : List Nat) : Nat :=
  match kind with
  | 0 => if rsps.any (fun r => r == 2 || r == 3) then 1 else if rsps.all (· == 0) then 3 else 2
  | 1 => 4
  | 2 => 4
  | 3 => 4
  | _ => 0

/-- Whether the home serves a request from its own copy without a broadcast (R246). -/
def shortcut (kind homeState : Nat) : Bool :=
  if kind = 0 ∨ kind = 5 then homeState ≥ 2 else homeState ≥ 3

/-- The home die's copy after the shortcut of R246, and the requester's state. -/
def shortcutResult (kind homeState : Nat) : Nat × Nat :=
  match kind with
  | 0 => (2, 1)
  | 5 => (homeState, 0)
  | 6 => (4, 0)
  | 7 => (4, 0)
  | _ => (0, 4)

/-- Whether a request of an agent is served by the shortcut: the home die's own agent sends only RD_CUR, WR_CUR and ATOMIC for a line it holds so. -/
def Coh.short (c : Coh) (kind a n : Nat) : Bool :=
  shortcut kind (c.state (homeDie (n * 128)) n) && (homeDie (n * 128) != a || kind ≥ 5)

/-- The domain after the shortcut (R246). -/
def Coh.shortened (c : Coh) (kind a n hoop mask : Nat) (used : Bool := true) : Coh :=
  let home := homeDie (n * 128)
  let r := shortcutResult kind (c.state home n)
  let c := (c.touch home n).setState home n r.1
  if r.2 ≠ 0 then c.alloc a n hoop mask r.2 used
  else if kind = 5 ∨ home = a then c
  else c.setState a n 0

/-- The other agents that a request concerns. -/
def others (a : Nat) : List Nat := (List.range 5).filter (· != a)

/-- The requester's lines when a broadcast ends (Table 9-4). -/
def Coh.granted (c : Coh) (kind a n hoop mask : Nat) (rsps : List Nat) (used : Bool := true) : Coh :=
  let o := outcome kind rsps
  if o ≠ 0 then c.alloc a n hoop mask o used else if kind = 5 then c else c.setState a n 0

/-- A whole transaction at once (R240, R241, R246), for a line with no request open: what an access of a core, a stream or
a port does to the domain. `kind` as in `Track`. -/
def Coh.tx (c : Coh) (kind a n hoop mask : Nat) (used : Bool := true) : Coh :=
  if c.short kind a n then c.shortened kind a n hoop mask used
  else
    let rs := (others a).map (fun x => c.snoopAt kind x n)
    ((others a).foldl (fun c' x => c'.setState x n (c.snoopAt kind x n).1) (c.touch (homeDie (n * 128)) n)).granted
      kind a n hoop mask (rs.map (·.2)) used

/-- The request that an agent's read of a line sends (Table 9-2), none for a hit: a port access, agent 4, and one of a hoop without a way on the die
are always uncached (R229, R238, R256), and what may not or cannot allocate reads in place. -/
def Coh.readKind (c : Coh) (a n mask : Nat) (allocate : Bool) : Option Nat :=
  if a = 4 ∨ mask = 0 then some 5
  else if c.state a n ≠ 0 then none
  else if allocate && c.canAlloc a n mask then some 0
  else some 5

/-- The request that an agent's write of a line, whole or in part, sends; none for a hit in M or E (R231, R238, R242, R280). -/
def Coh.writeKind (c : Coh) (a n mask : Nat) (whole allocate : Bool) : Option Nat :=
  if a = 4 ∨ mask = 0 then some 6
  else if c.state a n ≥ 3 then none
  else if !allocate then some 6
  else if c.state a n ≥ 1 then some (if whole then 3 else 2)
  else if c.canAlloc a n mask then some (if whole then 3 else 1)
  else some 6

/-- A read by an agent of a line (R229, R230, R242). -/
def Coh.read (c : Coh) (a n hoop mask : Nat) (allocate : Bool) (used : Bool := true) : Coh :=
  match c.readKind a n mask allocate with
  | none => c.touch a n
  | some k => c.tx k a n hoop mask used

/-- A write by an agent of a line, whole or in part (R230, R231, R235, R242). -/
def Coh.writeLine (c : Coh) (a n hoop mask : Nat) (whole allocate : Bool) (used : Bool := true) : Coh :=
  let c := if whole then c.renew n else c
  match c.writeKind a n mask whole allocate with
  | none => (c.setState a n 4).touch a n
  | some k => c.tx k a n hoop mask used

/-- The way mask of a hoop on a die (R229); none for the control cache. -/
def Device.wayMask (d : Device) (h die : Nat) : Nat := if die < 4 ∧ h < 8 then d.rd (Reg.HOOP_WAYS_WAYS die) h else 0

/-- Whether a line has a request open or waiting at its home: an access to it waits (R239, R243). -/
def Coh.busy (c : Coh) (n : Nat) : Bool :=
  (Tab.find? c.opened n).isSome || c.waiting.any (fun w => w.1 == n)

/-- Whether an agent supplies a line in place of memory. -/
def Coh.supplied (c : Coh) (n : Nat) : Bool := (List.range 5).any (fun x => c.state x n ≥ 2)

/-- Whether an agent holds a line dirty, so that memory lies beneath it (Table 9-1). -/
def Coh.dirty (c : Coh) (n : Nat) : Bool := (List.range 5).any (fun a => c.state a n == 4)

/-- Invalidate every line for which `p` (agent, line) holds (R38). -/
def Coh.invalidate (c : Coh) (p : Nat → Nat × CLine → Bool) : Coh :=
  { c with caches := (c.caches.map (fun t => (t.1, t.2.filter (fun l => !p t.1 l)))).filter (fun t => !t.2.isEmpty) }

/-- Whether an agent in a state supplies data to a request that snoops it (Table 9-3). -/
def supplies (kind st : Nat) : Bool :=
  match kind with
  | 0 => 2 ≤ st
  | 1 => 2 ≤ st
  | 5 => st == 2 || st == 4
  | _ => false

/-- Open requests of the slice that holds a line, on its home die. -/
def Coh.openAt (c : Coh) (n : Nat) : Nat :=
  (c.opened.filter (fun o => homeDie (o.1 * 128) == homeDie (n * 128) && sliceOf o.1 == sliceOf n)).length

def Device.setCoh (d : Device) (c : Coh) : Device := { d with coh := c }

/-- Invalidate lines without write-back (R38, R231): memory keeps what it held beneath those that were dirty. -/
def Device.invalidate (d : Device) (p : Nat → Nat × CLine → Bool) : Device :=
  let c := d.coh.invalidate p
  let lost := d.coh.under.filter (fun (x : Nat × Bytes) => !c.dirty x.1)
  { d with mem := lost.foldl (fun m (x : Nat × Bytes) => m.write (x.1 * 128) x.2) d.mem
           coh := { c with under := c.under.filter (fun (x : Nat × Bytes) => c.dirty x.1) } }

end Sys2Proof.Machine
end

