-- ==== Sys2Proof/Machine/Numeric.lean ====
section
/-! DEFINITION. Number formats (chapter 7): values, exact arithmetic, rounding with flags, conversions, block scaling and
split masters. Flags are a nibble: OV 1, UF 2, NX 4, NV 8 (Table 7-7). -/

namespace Sys2Proof.Machine

/-- A floating-point value: NaN, a signed infinity, or (−1)^neg × m × 2^e; m = 0 is a signed zero. -/
inductive FVal where
  | nan
  | inf (neg : Bool)
  | fin (neg : Bool) (m : Nat) (e : Int)
  deriving DecidableEq, Repr

/-- A floating-point format (Table 7-1): exponent and mantissa bits, bias, and its special encodings: 0 none (FP6, FP4),
1 infinities and NaNs (IEEE), 2 the NaN of E4M3 alone. -/
structure Fmt where
  eb : Nat
  mb : Nat
  bias : Nat
  special : Nat
  deriving DecidableEq, Repr

/-- The format of a float type code (Tables 5-2, 7-1). -/
def fmtOf (code : Nat) : Option Fmt :=
  match code with
  | 0 => some ⟨8, 23, 127, 1⟩
  | 1 => some ⟨8, 7, 127, 1⟩
  | 2 => some ⟨5, 10, 15, 1⟩
  | 3 => some ⟨4, 3, 7, 2⟩
  | 4 => some ⟨5, 2, 15, 1⟩
  | 5 => some ⟨3, 2, 3, 0⟩
  | 6 => some ⟨2, 3, 1, 0⟩
  | 7 => some ⟨2, 1, 1, 0⟩
  | 12 => some ⟨11, 52, 1023, 1⟩
  | _ => none

def fp32 : Fmt := ⟨8, 23, 127, 1⟩
def fp64 : Fmt := ⟨11, 52, 1023, 1⟩
def bf16 : Fmt := ⟨8, 7, 127, 1⟩

/-- Width in bits of an integer type code. -/
def intBits (code : Nat) : Option Nat :=
  match code with
  | 8 => some 8
  | 9 => some 16
  | 10 => some 32
  | 11 => some 64
  | _ => none

/-- Element width in bits: S, E and M of Table 7-1, or the integer width (R152, R177). -/
def elemBits (code : Nat) : Nat :=
  match fmtOf code with
  | some f => 1 + f.eb + f.mb
  | none => if code = 13 then 8 else (intBits code).getD 0

/-- Slot width in a register (Table 5-2). -/
def slotBits (code : Nat) : Nat :=
  match code with
  | 5 => 8
  | 6 => 8
  | c => elemBits c

/-- The value of an encoding (R194, R195). -/
def Fmt.decode (f : Fmt) (v : Nat) : FVal :=
  let neg := v.testBit (f.eb + f.mb)
  let ex := bits v (f.eb + f.mb - 1) f.mb
  let m := v % 2 ^ f.mb
  if f.special = 1 ∧ ex = 2 ^ f.eb - 1 then (if m = 0 then .inf neg else .nan)
  else if f.special = 2 ∧ ex = 2 ^ f.eb - 1 ∧ m = 2 ^ f.mb - 1 then .nan
  else if ex = 0 then .fin neg m (1 - (f.bias : Int) - f.mb)
  else .fin neg (2 ^ f.mb + m) ((ex : Int) - f.bias - f.mb)

/-- A sign bit in place. -/
def Fmt.sign (f : Fmt) (neg : Bool) : Nat := if neg then 2 ^ (f.eb + f.mb) else 0

/-- The canonical NaN (Table 7-2), or +0 where the format has none (Table 7-6). -/
def Fmt.canonNan (f : Fmt) : Nat :=
  match f.special with
  | 1 => (2 ^ f.eb - 1) * 2 ^ f.mb + 2 ^ (f.mb - 1)
  | 2 => 2 ^ (f.eb + f.mb) - 1
  | _ => 0

/-- The encoding of the largest finite magnitude. -/
def Fmt.maxCode (f : Fmt) : Nat :=
  match f.special with
  | 1 => (2 ^ f.eb - 2) * 2 ^ f.mb + (2 ^ f.mb - 1)
  | 2 => 2 ^ (f.eb + f.mb) - 2
  | _ => 2 ^ (f.eb + f.mb) - 1

/-- The infinity of a format that has one. -/
def Fmt.infCode (f : Fmt) : Nat := (2 ^ f.eb - 1) * 2 ^ f.mb

/-- What an overflow delivers by nature: infinity, the NaN of E4M3, or the largest finite (R203). -/
def Fmt.overCode (f : Fmt) (neg : Bool) : Nat :=
  match f.special with
  | 1 => f.sign neg + f.infCode
  | 2 => f.canonNan
  | _ => f.sign neg + f.maxCode

/-- The multiple of 2^q that a rounding mode takes for m × 2^e plus, if `sticky`, something less than one unit of it
(R203, R204), with whether it differs from the exact value. -/
def roundMag (rnd draw : Nat) (neg : Bool) (m : Nat) (e q : Int) (sticky : Bool) : Nat × Bool :=
  if q ≤ e then (m * 2 ^ (e - q).toNat, sticky)
  else
    let sh := (q - e).toNat
    let n := m / 2 ^ sh
    let rem := m % 2 ^ sh
    let half := 2 ^ (sh - 1)
    let inexact := rem != 0 || sticky
    let up :=
      match rnd with
      | 0 => rem > half || (rem == half && (sticky || n % 2 == 1))
      | 1 => false
      | 2 => inexact && !neg
      | 3 => inexact && neg
      | _ => draw < rem * 2 ^ 32 / 2 ^ sh
    (n + b2n up, inexact)

/-- Whether a × 2^e < b × 2^g. -/
def dyLt (a : Nat) (e : Int) (b : Nat) (g : Int) : Bool :=
  let l := min e g
  a * 2 ^ (e - l).toNat < b * 2 ^ (g - l).toNat

/-- Round a magnitude into a format (R203, Table 7-3), with its flags (Table 7-7). To nearest, a magnitude from halfway to the step above the
largest finite value upward overflows: 464 to E4M3 too. -/
def Fmt.round (f : Fmt) (rnd : Nat) (sat : Bool) (draw : Nat) (neg : Bool) (m : Nat) (e : Int) (sticky : Bool := false) :
    Nat × Nat :=
  if m = 0 then (f.sign neg, if sticky then 6 else 0)
  else
    let top : Int := e + Nat.log2 m
    let emin : Int := 1 - f.bias
    let q := max top emin - f.mb
    let (n, inexact) := roundMag rnd draw neg m e q sticky
    let free := roundMag rnd draw neg m e (top - f.mb) sticky
    let maxN := 2 ^ f.mb + f.maxCode % 2 ^ f.mb
    let maxQ : Int := (f.maxCode / 2 ^ f.mb : Nat) - (f.bias : Int) - f.mb
    if dyLt maxN maxQ n q || (rnd == 0 && !dyLt m e (2 * maxN + 1) (maxQ - 1)) then
      let keep := rnd == 1 || (rnd == 2 && neg) || (rnd == 3 && !neg)
      (if sat || keep then f.sign neg + f.maxCode else f.overCode neg, 5)
    else
      let uf := inexact && dyLt free.1 (top - f.mb) 1 emin
      let code :=
        if n = 0 then 0
        else if q = emin - f.mb ∧ n < 2 ^ f.mb then n
        else
          let l := Nat.log2 n
          (q + l + f.bias).toNat * 2 ^ f.mb + (n * 2 ^ f.mb / 2 ^ l - 2 ^ f.mb)
      (f.sign neg + code, (if inexact then 4 else 0) + (if uf then 2 else 0))

/-- Deliver an arithmetic result: NaN and infinities as they are, a finite value rounded (R197). -/
def Fmt.deliver (f : Fmt) (rnd : Nat) (sat : Bool) (draw : Nat) (v : FVal) : Nat × Nat :=
  match v with
  | .nan => (f.canonNan, 0)
  | .inf neg => (f.overCode neg, 0)
  | .fin neg m e => f.round rnd sat draw neg m e

/-- Negation and magnitude (NEGA, ABSA and so on of R152). -/
def FVal.neg : FVal → FVal
  | .nan => .nan
  | .inf s => .inf (!s)
  | .fin s m e => .fin (!s) m e

def FVal.abs : FVal → FVal
  | .nan => .nan
  | .inf _ => .inf false
  | .fin _ m e => .fin false m e

/-- An integer times a power of two, as a value; a zero takes the sign given. -/
def ofDy (zneg : Bool) (i : Int) (e : Int) : FVal :=
  if i = 0 then .fin zneg 0 e else .fin (i < 0) i.natAbs e

/-- The signed mantissa at a common exponent. -/
def alignTo (neg : Bool) (m : Nat) (e l : Int) : Int :=
  let v : Int := (m * 2 ^ (e - l).toNat : Nat)
  if neg then -v else v

/-- The exact sum (R197); the sign of an exact zero follows the rounding mode. The flag is NV for ∞ − ∞. -/
def FVal.add (rnd : Nat) (a b : FVal) : FVal × Nat :=
  match a, b with
  | .nan, _ => (.nan, 0)
  | _, .nan => (.nan, 0)
  | .inf s, .inf t => if s = t then (.inf s, 0) else (.nan, 8)
  | .inf s, .fin _ _ _ => (.inf s, 0)
  | .fin _ _ _, .inf t => (.inf t, 0)
  | .fin s m e, .fin t n g =>
    let l := min e g
    let zneg := if m = 0 ∧ n = 0 then (if s = t then s else rnd == 3) else rnd == 3
    (ofDy zneg (alignTo s m e l + alignTo t n g l) l, 0)

/-- The exact product; the flag is NV for 0 × ∞. -/
def FVal.mul (a b : FVal) : FVal × Nat :=
  match a, b with
  | .nan, _ => (.nan, 0)
  | _, .nan => (.nan, 0)
  | .inf s, .inf t => (.inf (s != t), 0)
  | .inf s, .fin t n _ => if n = 0 then (.nan, 8) else (.inf (s != t), 0)
  | .fin s m _, .inf t => if m = 0 then (.nan, 8) else (.inf (s != t), 0)
  | .fin s m e, .fin t n g => (.fin (s != t) (m * n) (e + g), 0)

/-- a × b + c, exact; 0 × ∞ sets NV even when c is NaN (R208). -/
def FVal.fma (rnd : Nat) (a b c : FVal) : FVal × Nat :=
  let p := a.mul b
  let s := p.1.add rnd c
  (s.1, p.2 ||| s.2)

/-- Whether a < b, for values that are not NaN; −0 equals +0. -/
def FVal.lt (a b : FVal) : Bool :=
  match a, b with
  | .nan, _ => false
  | _, .nan => false
  | .inf s, .inf t => s && !t
  | .inf s, .fin _ _ _ => s
  | .fin _ _ _, .inf t => !t
  | .fin s m e, .fin t n g =>
    let l := min e g
    alignTo s m e l < alignTo t n g l

/-- Equality of values; false for NaN. -/
def FVal.eqv (a b : FVal) : Bool :=
  match a, b with
  | .nan, _ => false
  | _, .nan => false
  | a, b => !a.lt b && !b.lt a

/-- Whether a value is NaN. -/
def FVal.isNan : FVal → Bool
  | .nan => true
  | _ => false

/-- The sign bit of a value; a NaN has none. -/
def FVal.isNeg : FVal → Bool
  | .nan => false
  | .inf s => s
  | .fin s _ _ => s

/-- The float comparison of a code (Table 5-7). -/
def fcmp (code : Nat) (a b : FVal) : Bool :=
  match code with
  | 0 => a.eqv b
  | 1 => !a.eqv b
  | 2 => a.lt b
  | 3 => a.lt b || a.eqv b
  | 4 => b.lt a
  | 5 => b.lt a || a.eqv b
  | 6 => !a.isNan && !b.isNan
  | _ => a.isNan || b.isNan

/-- FMIN and FMAX (Table 5-5): −0 is less than +0, one NaN yields the other operand; none for two NaNs. -/
def fminmax (wantMax : Bool) (f : Fmt) (x y : Nat) : Nat :=
  let a := f.decode x
  let b := f.decode y
  if a.isNan && b.isNan then f.canonNan
  else if a.isNan then y
  else if b.isNan then x
  else
    let less := a.lt b || (a.eqv b && a.isNeg && !b.isNeg)
    if less != wantMax then x else y

/-- Division and square root for the update path, exact to the sticky bit (R326): the quotient to 64 bits below. -/
def FVal.divParts (m n : Nat) : Nat × Int × Bool :=
  let k := 66 + Nat.log2 n
  ((m * 2 ^ k) / n, -(k : Int), (m * 2 ^ k) % n != 0)

/-- The integer square root, bit by bit from bit `k` down. -/
def isqrt (v : Nat) : Nat → Nat → Nat
  | 0, r => if (r + 1) * (r + 1) ≤ v then r + 1 else r
  | k + 1, r =>
    let c := r + 2 ^ (k + 1)
    isqrt v k (if c * c ≤ v then c else r)

/-- a / b in a format, rounded to nearest even (R326). -/
def Fmt.div (f : Fmt) (a b : FVal) : Nat × Nat :=
  match a, b with
  | .nan, _ => (f.canonNan, 0)
  | _, .nan => (f.canonNan, 0)
  | .inf _, .inf _ => (f.canonNan, 8)
  | .inf s, .fin t _ _ => (f.overCode (s != t), 0)
  | .fin s _ _, .inf t => (f.sign (s != t), 0)
  | .fin s m e, .fin t n g =>
    if n = 0 then (if m = 0 then (f.canonNan, 8) else (f.overCode (s != t), 0))
    else if m = 0 then (f.sign (s != t), 0)
    else
      let p := FVal.divParts m n
      f.round 0 false 0 (s != t) p.1 (p.2.1 + e - g) p.2.2

/-- √a in a format, rounded to nearest even (R326). -/
def Fmt.sqrt (f : Fmt) (a : FVal) : Nat × Nat :=
  match a with
  | .nan => (f.canonNan, 0)
  | .inf s => if s then (f.canonNan, 8) else (f.overCode false, 0)
  | .fin s m e =>
    if m = 0 then (f.sign s, 0)
    else if s then (f.canonNan, 8)
    else
      let odd := e % 2 != 0
      let m := if odd then m * 2 else m
      let e := if odd then e - 1 else e
      let w := m * 2 ^ 128
      let r := isqrt w (Nat.log2 w / 2 + 1) 0
      f.round 0 false 0 false r (e / 2 - 64) (r * r != w)

/-- The nearest integer in the sense of a mode, of m × 2^e with a sign; with whether it is inexact. -/
def roundInt (rnd draw : Nat) (neg : Bool) (m : Nat) (e : Int) : Int × Bool :=
  let r := roundMag rnd draw neg m e 0 false
  (if neg then -(r.1 : Int) else r.1, r.2)

/-- A float delivered to an integer type of `w` bits (Tables 7-5, 7-6, R508). DESIGN CHOICE (log entry 41): whether a value lies outside the range
is judged after rounding, which the manual does not say. -/
def toIntCode (w rnd draw : Nat) (v : FVal) : Nat × Nat :=
  let lo : Int := -((2 ^ (w - 1) : Nat) : Int)
  let hi : Int := ((2 ^ (w - 1) : Nat) : Int) - 1
  match v with
  | .nan => (0, 8)
  | .inf neg => (unsigned w (if neg then lo else hi), 13)
  | .fin neg m e =>
    let r := roundInt rnd draw neg m e
    if r.1 < lo then (unsigned w lo, 12)
    else if hi < r.1 then (unsigned w hi, 12)
    else (unsigned w r.1, if r.2 then 4 else 0)

/-- A float delivered to E8M0 (Tables 7-5, 7-6): the power of two nearest in magnitude. -/
def toE8m0 (rnd draw : Nat) (v : FVal) : Nat × Nat :=
  match v with
  | .nan => (0xFF, 0)
  | .inf _ => (0xFF, 13)
  | .fin _ m e =>
    if m = 0 then (0, 6)
    else
      let l := Nat.log2 m
      let k : Int := e + l
      let rem := m - 2 ^ l
      let up :=
        match rnd with
        | 0 => 2 * rem > 2 ^ l || (2 * rem == 2 ^ l && k % 2 != 0)
        | 2 => rem != 0
        | 4 => draw < rem * 2 ^ 32 / 2 ^ l
        | _ => false
      let k := if up then k + 1 else k
      let nx := if rem != 0 then 4 else 0
      if k < -127 then (0, 6)
      else if 127 < k then (0xFE, 5)
      else ((k + 127).toNat, nx)

/-- The value of an element of a float type or E8M0. -/
def valueOf (code v : Nat) : FVal :=
  match fmtOf code with
  | some f => f.decode v
  | none =>
    if code = 13 then (if v % 256 = 255 then .nan else .fin false 1 ((v % 256 : Nat) - 127))
    else ofDy false (signed ((intBits code).getD 32) v) 0

/-- A float value delivered to a type (Tables 7-5, 7-6, R508). DESIGN CHOICE (log entry 41): an integer converted to E8M0 takes the float to E8M0
row, since Table 7-5 has none for it. -/
def deliverTo (code rnd : Nat) (sat : Bool) (draw : Nat) (v : FVal) : Nat × Nat :=
  match fmtOf code with
  | some f =>
    match v with
    | .nan => (f.canonNan, if f.special = 0 then 8 else 0)
    | .inf neg =>
      if f.special = 1 then (if sat then (f.sign neg + f.maxCode, 5) else (f.overCode neg, 0))
      else if sat then (f.sign neg + f.maxCode, 13)
      else (f.overCode neg, 13)
    | .fin neg m e => f.round rnd sat draw neg m e
  | none =>
    if code = 13 then toE8m0 rnd draw v else toIntCode ((intBits code).getD 32) rnd draw v

/-- CVT (R207): an element of one type converted to another. -/
def convert (src dst rnd : Nat) (sat : Bool) (draw v : Nat) : Nat × Nat :=
  match intBits src, intBits dst with
  | some ws, some wd =>
    let i := signed ws v
    let lo : Int := -((2 ^ (wd - 1) : Nat) : Int)
    let hi : Int := ((2 ^ (wd - 1) : Nat) : Int) - 1
    if i < lo ∨ hi < i then (unsigned wd (if sat then (if i < lo then lo else hi) else i), 5) else (unsigned wd i, 0)
  | _, _ => deliverTo dst rnd sat draw (valueOf src v)

/-- x × 2^k. -/
def FVal.scale (k : Int) : FVal → FVal
  | .nan => .nan
  | .inf s => .inf s
  | .fin s m e => .fin s m (e + k)

/-- CVTS (Table 5-6): a × 2^(127 − e), e = 0xFF making NaN or the largest finite. -/
def convertScaled (dst rnd : Nat) (sat : Bool) (draw v e : Nat) : Nat × Nat :=
  match fmtOf dst with
  | some f =>
    if e % 256 = 255 then (if f.special = 0 then f.maxCode else f.canonNan, 8)
    else deliverTo dst rnd sat draw ((fp32.decode v).scale (127 - (e % 256 : Nat)))
  | none => (0, 0)

/-- emax of R201. -/
def blockEmax (code : Nat) : Int :=
  match code with
  | 3 => 8
  | 4 => 15
  | 5 => 4
  | _ => 2

/-- The scale of a block of FP32 values for an element type (R201), with its flag. -/
def blockScale (code : Nat) (vs : List FVal) : Nat × Nat :=
  if vs.any (fun v => match v with | .fin _ _ _ => false | _ => true) then (0xFF, 8)
  else
    let mag := vs.foldl (fun (b : FVal) v => if b.lt v.abs then v.abs else b) (.fin false 0 0)
    match mag with
    | .fin _ m e =>
      let x : Int := if m = 0 then -127 else e + Nat.log2 m - blockEmax code
      ((min (max x (-127)) 127 + 127).toNat, 0)
    | _ => (0xFF, 8)

/-- The FP32 reconstruction of a split-master pair (R214). -/
def unsplit (hi lo : Nat) : Nat :=
  match bf16.decode hi with
  | .nan => 0x7FC00000
  | .inf _ => hi * 65536
  | .fin s m _ =>
    let l := signed 16 lo
    if m = 0 ∧ l = 0 then hi * 65536
    else
      let ex := bits hi 14 7
      let u : Int := (max ex 1 : Nat) - 150
      let hm := alignTo s m ((max ex 1 : Nat) - 134) u
      (fp32.deliver 0 false 0 (ofDy s (hm + l) u)).1

/-- The pair of an FP32 master (R215): hi, lo and flags. -/
def resplit (m : Nat) : Nat × Nat × Nat :=
  match fp32.decode m with
  | .nan => (0x7FC0, 0, 0)
  | .inf s => (if s then 0xFF80 else 0x7F80, 0, 0)
  | .fin s n e =>
    let h := (bf16.round 0 false 0 s n e).1
    match bf16.decode h with
    | .fin hs hm he =>
      let ex := bits h 14 7
      let u : Int := (max ex 1 : Nat) - 150
      let l := min e (min he (u - 1))
      let diff := alignTo s n e l - alignTo hs hm he l
      let r := roundInt 0 0 (diff < 0) diff.natAbs (l - u)
      let c := min (max r.1 (-32768)) 32767
      (h, unsigned 16 c, if r.2 || c != r.1 then 4 else 0)
    | _ => (if s then 0xFF7F else 0x7F7F, unsigned 16 (if s then -32767 else 32767), 5)

/-- The exact special values of the special functions (Table 5-10): function code less 0x50, operand; none where the
manual gives a bound only (R154, R155). -/
def sfuExact (fn : Nat) (a : FVal) : Option Nat :=
  let nan := fp32.canonNan
  let one := 0x3F800000
  let inf := fun (s : Bool) => fp32.overCode s
  match a with
  | .nan => some nan
  | .inf s =>
    match fn with
    | 0 => some (fp32.sign s)
    | 1 => some (if s then nan else 0)
    | 2 => some (if s then nan else inf false)
    | 3 => some (if s then 0 else inf false)
    | 4 => some (if s then nan else inf false)
    | 5 => some nan
    | 6 => some nan
    | _ => some (fp32.sign s + one)
  | .fin s m e =>
    if m = 0 then
      match fn with
      | 0 => some (inf s)
      | 1 => some (inf s)
      | 2 => some (fp32.sign s)
      | 3 => some one
      | 4 => some (inf true)
      | 5 => some (fp32.sign s)
      | 6 => some one
      | _ => some (fp32.sign s)
    else if (fn = 1 ∨ fn = 2 ∨ fn = 4) ∧ s then some nan
    else
      let whole := e ≥ 0 || m % 2 ^ (-e).toNat == 0
      let n : Nat := if e ≥ 0 then m * 2 ^ (min e 300).toNat else m / 2 ^ (-e).toNat
      if !whole then none
      else
        match fn with
        | 3 =>
          let k : Int := if s then -(n : Int) else n
          if -149 ≤ k ∧ k ≤ 127 then some (fp32.round 0 false 0 false 1 k).1 else none
        | 5 => some (fp32.sign (s != (n % 2 == 1)))
        | 6 => some (if n % 2 = 1 then 0x80000000 + one else one)
        | _ => none

/-! The bounds of Table 5-9: true values as multiples of 2^-256, computed by series whose error is far below the last place that a bound
resolves. -/

/-- 1 in units of 2^-256. -/
def fx1 : Nat := 2 ^ 256

/-- The terms of e^y from the k-th on, the (k-1)-th being `t`. -/
def expTail (y : Nat) : Nat → Nat → Nat → Nat
  | 0, _, _ => 0
  | fuel + 1, t, k => let u := t * y / fx1 / k; u + expTail y fuel u (k + 1)
/-- e^y for y below 1. -/
def fxExp (y : Nat) : Nat := fx1 + expTail y 60 fx1 1

/-- The terms of artanh z (or, with `alt`, of arctan z) from the k-th on: `t` is z^(2k+1), `q` is z². Alternating terms fall. -/
def oddTail (alt : Bool) (q : Nat) : Nat → Nat → Nat → Nat
  | 0, _, _ => 0
  | fuel + 1, t, k => let r := oddTail alt q fuel (t * q / fx1) (k + 1); if alt then t / (2 * k + 1) - r else t / (2 * k + 1) + r
/-- artanh z for z up to 1/3, and arctan z. -/
def fxArtanh (z : Nat) : Nat := oddTail false (z * z / fx1) 90 z 0
def fxArctan (z : Nat) : Nat := oddTail true (z * z / fx1) 90 z 0

/-- ln 2 and π. -/
def fxLn2 : Nat := 2 * fxArtanh (fx1 / 3)
def fxPi : Nat := 16 * fxArctan (fx1 / 5) - 4 * fxArctan (fx1 / 239)

/-- The terms of sin y from the k-th on, `t` being the k-th, `q` y². -/
def sinTail (q : Nat) : Nat → Nat → Nat → Nat
  | 0, _, _ => 0
  | fuel + 1, t, k => t - sinTail q fuel (t * q / fx1 / ((2 * k + 2) * (2 * k + 3))) (k + 1)
/-- sin(π r) for r from 0 to 1/2. -/
def fxSinpi (r : Nat) : Nat := let y := fxPi * r / fx1; sinTail (y * y / fx1) 40 y 0

/-- 2^x and 2^-x, x not negative; a value below 2^-256 counts as that. -/
def fxExp2 (x : Nat) (down : Bool) : Nat :=
  let p := fxExp (x % fx1 * fxLn2 / fx1)
  let n := Nat.min (x / fx1) 300
  if down then Nat.max 1 (fx1 * fx1 / (p * 2 ^ n)) else p * 2 ^ n

/-- A dyadic magnitude in units of 2^-256. -/
def fxOf (m : Nat) (e : Int) : Nat := if -256 ≤ e then m * 2 ^ (e + 256).toNat else m / 2 ^ (-256 - e).toNat

/-- The true value of a special function for a finite nonzero input that has one (Table 5-9). -/
def sfuTrue (fn : Nat) (neg : Bool) (m : Nat) (e : Int) : Int :=
  let sg := fun (b : Bool) (x : Nat) => if b then -(x : Int) else (x : Int)
  let root := fun (w : Nat) => isqrt w (Nat.log2 w / 2 + 1) 0
  match fn with
  | 0 => sg neg (2 ^ (256 - e).toNat / m)
  | 1 => root (2 ^ (512 - e).toNat / m)
  | 2 => root (m * 2 ^ (e + 512).toNat)
  | 3 => fxExp2 (fxOf m (min e 40)) neg
  | 4 =>
    let l := Nat.log2 m
    let f := m * 2 ^ (256 - l)
    (e + l) * (fx1 : Int) + (2 * fxArtanh ((f - fx1) * fx1 / (f + fx1)) * fx1 / fxLn2 : Nat)
  | 5 =>
    let r := fxOf m e % (2 * fx1)
    let h := r % fx1
    sg (neg != decide (fx1 ≤ r)) (fxSinpi (if fx1 / 2 < h then fx1 - h else h))
  | 6 =>
    let r := fxOf m e % (2 * fx1)
    let h := if fx1 < r then 2 * fx1 - r else r
    if h ≤ fx1 / 2 then (fxSinpi (fx1 / 2 - h) : Nat) else -(fxSinpi (h - fx1 / 2) : Int)
  | _ =>
    let y := fxOf m (min e 40 + 1)
    let v := fxExp2 (y * fx1 / fxLn2) true
    sg neg ((fx1 - v) * fx1 / (fx1 + v))

/-- One unit in the last place of a value (FP32), and its largest finite and smallest normal magnitudes, in units of 2^-256. -/
def fxUlp (x : Int) : Nat := 2 ^ Nat.max (Nat.log2 x.natAbs - 23) 107
def fxMax : Nat := fxOf (2 ^ 24 - 1) 104
def fxMin : Nat := fxOf 1 (-126)

/-- The bound of Table 5-9 on a result whose true value is `x`. -/
def sfuBound (fn m : Nat) (e : Int) (x : Int) : Nat :=
  let abs := 2 ^ 234
  let a := fxOf m e
  match fn with
  | 0 => fxUlp x
  | 1 => 2 * fxUlp x
  | 2 => fxUlp x
  | 3 => 2 * fxUlp x
  | 4 => if fx1 / 2 ≤ a ∧ a ≤ 2 * fx1 then Nat.max abs (2 * fxUlp x) else 2 * fxUlp x
  | 5 => abs
  | 6 => abs
  | _ => if a < 2 ^ 250 then Nat.max abs (2 * fxUlp x) else 2 * fxUlp x

/-- Whether an encoding lies within a bound of a true value; an infinity stands for the step above the largest finite value. -/
def sfuWithin (r : Nat) (x : Int) (bound : Nat) : Bool :=
  match fp32.decode r with
  | .nan => false
  | .inf s => decide (((if s then -(2 ^ 384 : Int) else 2 ^ 384) - x).natAbs ≤ bound) || (decide ((2 ^ 384 : Int) ≤ x.natAbs) && s == decide (x < 0))
  | .fin s m e => decide (((if s then -(fxOf m e : Int) else fxOf m e) - x).natAbs ≤ bound)

/-- A special-function result that the manual bounds only (R154): a free encoding where it lies within the bound, else the value rounded to
nearest, so that every result within the bound, and no other, can come. Log entry 10. -/
def sfuPick (fn a m : Nat) (e : Int) (x : Int) : Nat :=
  let r := (Config.sfuResult (0x50 + fn) (BitVec.ofNat 32 a)).toNat
  if sfuWithin r x (sfuBound fn m e x) then r else (fp32.round 0 false 0 (x < 0) x.natAbs (-256)).1

/-- A special function with its flags (R154, R155, R208): NV for a NaN of an input that is none, OV and UF where the true value lies beyond the
largest finite value or below the smallest normal one. SINPI is odd and COSPI even. -/
def sfu (fn a : Nat) : Nat × Nat :=
  let v := fp32.decode a
  match sfuExact fn v, v with
  | some r, _ => (r, if !v.isNan && (fp32.decode r).isNan then 8 else 0)
  | none, .fin s m e =>
    let fold := fn = 5 ∨ fn = 6
    let x := sfuTrue fn (s && !fold) m e
    let r := sfuPick fn (if fold then a % 2 ^ 31 else a) m e x
    (if fn = 5 ∧ s then (r + 2 ^ 31) % 2 ^ 32 else r,
      if fxMax < x.natAbs then 1 else if x ≠ 0 ∧ x.natAbs < fxMin then 2 else 0)
  | none, _ => (fp32.canonNan, 0)

end Sys2Proof.Machine
end

