-- ==== Sys2Proof/Machine/Domain.lean ====
section
/-! DEFINITION. The coherent domain at work (R233 to R248, R400): errors in its SRAMs, messages and their bytes on the ring, what a home takes and
completes, write-backs, whole accesses. -/

namespace Sys2Proof.Machine

/-! Device memory as the domain shows it -/

/-- Whether a read of n bytes meets an uncorrectable error: a bad 32-byte unit of memory whose line no agent supplies, a bad word of a dirty line, a
CXL address that nothing maps and no agent supplies (R234, R235, R266). -/
def Device.badAt (d : Device) (a n : Nat) : Bool :=
  d.bad.any (fun u => u * 32 < a + n && a < (u + 1) * 32 && !d.coh.caches.any (fun c => c.2.any (fun l => l.1 == u / 4 && l.2.state ≥ 2)))
  || d.coh.caches.any (fun c => c.2.any (fun l => l.2.state == 4 && l.2.bad.any (fun w => l.1 * 128 + w * 8 < a + n && a < l.1 * 128 + w * 8 + 8)))
  || (isCxl a && (d.cxlRoute a).isNone && !d.coh.supplied (a / 128))

/-- Read device memory, none where it consumes an uncorrectable error. -/
def Device.readDev (d : Device) (a n : Nat) : Option Bytes := if d.badAt a n then none else some (d.mem.read a n)

/-- What memory holds beneath the lines of a range that are dirty from now on (R231). -/
def Device.beneath (d : Device) (a n : Nat) : Tab Bytes :=
  ((linesOf a n).filter (fun l => d.coh.dirty l && (Tab.find? d.coh.under l).isNone)).foldl
    (fun t l => Tab.insert t l (d.mem.read (l * 128) 128)) d.coh.under

/-- Write bytes of device memory as every reader sees them: into the dirty copy where there is one, else into memory. A unit of memory and a word of a
cache line that the write covers whole are good again (R234). A write to a CXL address that nothing maps is lost (R266). -/
def Device.writeDev (d : Device) (a : Nat) (data : Bytes) : Device :=
  if isCxl a && (d.cxlRoute a).isNone && !d.coh.dirty (a / 128) then d
  else
    let n := data.length
    let c : Coh := { d.coh with under := d.beneath a n }
    { d with
      mem := d.mem.write a data
      bad := d.bad.filter (fun u => !(a ≤ u * 32 && (u + 1) * 32 ≤ a + n) || d.coh.dirty (u / 4))
      coh := if c.caches.any (fun t => t.2.any (fun l => !l.2.bad.isEmpty)) then
          { c with caches := c.caches.map (fun t => (t.1, t.2.map (fun l =>
            (l.1, { l.2 with bad := l.2.bad.filter (fun w => !(a ≤ l.1 * 128 + w * 8 && l.1 * 128 + w * 8 + 8 ≤ a + n)) })))) }
        else c }

/-! Errors in the SRAMs of the domain -/

/-- Whether memory, which would supply a line, holds an uncorrectable unit of it (Table 8-3). -/
def Device.lineBad (d : Device) (n : Nat) : Bool := !d.coh.supplied n && d.badAt (n * 128) 128

/-- The pinned lines of an agent's slice. -/
def Coh.pinCount (c : Coh) (a n : Nat) : Nat :=
  ((Tab.get [] c.caches a).filter (fun l => l.2.pin && sliceOf l.1 == sliceOf n)).length

/-- L2_ECC.PINNED counts the pinned lines of a die (R236). -/
def Device.pinsNow (d : Device) : Device :=
  (List.range 4).foldl (fun d a => d.wr Reg.L2_ECC_PINNED a ((Tab.get [] d.coh.caches a).filter (fun l => l.2.pin)).length) d

/-- A dirty line with an uncorrectable word is pinned where it lies, and counted; a fifth in its slice is fatal (R235, Table 9-6 CAUSE 6). -/
def Device.pinLine (d : Device) (n : Nat) : Device :=
  (List.range 4).foldl (fun d a =>
    match Tab.find? (Tab.get [] d.coh.caches a) n with
    | none => d
    | some l =>
      if l.state ≠ 4 ∨ l.bad = [] ∨ l.pin then d
      else if 4 ≤ d.coh.pinCount a n then d.moduleFatal 6 a 7 (sliceOf n) n
      else ((d.setCoh (d.coh.modLine a n (fun l => { l with pin := true }))).countSat Reg.L2_ECC_UNCORR a).pinsNow) d

/-- The dirty uncorrectable lines of a range are pinned, as an access that consumes them does first (R235). -/
def Device.pinRange (d : Device) (a n : Nat) : Device := (linesOf a n).foldl (fun d l => d.pinLine l) d

/-- A write of all 128 bytes of a line renews it wherever it lies, and unpins it (R235, R236). -/
def Device.renewed (d : Device) (n : Nat) : Device :=
  let e := d.setCoh (d.coh.renew n)
  if d.coh.pinnedAt n = none then e else e.pinsNow

/-- Before an agent replaces a line of a set, the lines that it would take and that are dirty and uncorrectable are pinned (R230, R234, R235). The fuel is the
number of ways. -/
def Device.pinVictims (d : Device) (a n mask : Nat) : Nat → Device
  | 0 => d
  | fuel + 1 =>
    if a ≥ 4 || d.coh.state a n != 0 || d.life.fatal then d
    else
      let lines := (Tab.get [] d.coh.caches a).filter (fun l => sameSet l.1 n)
      match (chooseWay lines mask).bind (fun w => lines.find? (fun l => l.2.way == w.1)) with
      | some l => if l.2.state = 4 ∧ l.2.bad ≠ [] then Device.pinVictims (d.pinLine l.1) a n mask fuel else d
      | none => d

/-- Something that stands in error in the domain is met: the CAUSE of Table 9-6, or none. -/
def Device.met (d : Device) (a n : Nat) (causes : List Nat) : Option Nat :=
  (d.coh.faults.find? (fun f => causes.contains f.1 && f.2.1 == a
    && (f.2.2 == n || (f.1 == 5 && sameSet f.2.2 n)))).map (·.1)

/-- An agent looks up a line (R233, R234): an uncorrectable tag is fatal, a single-bit error is corrected and counted, and a clean line that a
consumer finds uncorrectable is invalidated and counted, so that the access goes on as a miss. -/
def Device.lookedUp (d : Device) (a n : Nat) (consumes : Bool) : Device :=
  match d.met a n [5, 7] with
  | some c => d.moduleFatal c a 7 (if a = 4 then 0x1F else sliceOf n) n
  | none =>
    let d := if d.coh.soft.contains (a, n) then
        let d := d.setCoh { d.coh with soft := d.coh.soft.erase (a, n) }
        if a < 4 then d.countSat Reg.L2_ECC_CORR a else d
      else d
    match Tab.find? (Tab.get [] d.coh.caches a) n with
    | none => d
    | some l =>
      if !consumes || l.bad.isEmpty || l.state == 4 then d
      else
        let d := d.setCoh (d.coh.setState a n 0)
        if a < 4 then d.countSat Reg.L2_ECC_UNCORR a else d

/-! The ring and the memories -/

/-- The four hops of a broadcast snoop from a home (R247). -/
def snoopHops (home : Nat) : List Nat := [home % 5, (home + 1) % 5, 5 + (home + 4) % 5, 5 + (home + 3) % 5]

/-- Bytes of a request with `n` bytes of data (Table 9-5): the operand of an ATOMIC counts as its 8 bytes; log entry 30. -/
def requestBytes (kind n : Nat) : Nat :=
  match kind with
  | 3 => 144
  | 4 => 144
  | 6 => 16 + n
  | 7 => 24
  | _ => 16

/-- The mask of n bytes of a line from an offset on. -/
def lineMask (off n : Nat) : Nat := (2 ^ n - 1) * 2 ^ off

/-- The CXL.mem requests of a line, or of some of its bytes: for each half of 64 bytes one to the line's link, a MemWrPtl with its byte mask for a partial
write (R400); none where nothing maps it. -/
def Device.cxlSend (d : Device) (line w mask : Nat) : Device :=
  match d.cxlRoute (line * 128) with
  | none => d
  | some (link, dpa) =>
    [(dpa, mask % 2 ^ 64), (dpa + 64, mask / 2 ^ 64)].foldl (fun d (x : Nat × Nat) =>
      if x.2 = 0 then d else d.emit (.cxl link x.1 (if w = 0 then 0 else if x.2 = 2 ^ 64 - 1 then 1 else 2) x.2)) d

/-- Bytes moved between a memory controller and its memory, for a hoop (R428): 0 read, 1 written. What the CXL tier holds crosses the ring between
its home die and the rind die (R20). A whole line that is written is good again (R234), and memory then holds its data (R231). -/
def Device.memBytes (d : Device) (h line w n : Nat) (mask : Nat := 2 ^ 128 - 1) : Device :=
  let cxl := isCxl (line * 128)
  let d := d.cnt h ((if cxl then 5 else 3) + w) n
  let d := if !cxl then d
    else if w = 0 then ((d.ringCtl (homeDie (line * 128)) 4).ringData 4 (homeDie (line * 128)) n).cxlSend line 0 mask
    else (d.ringData (homeDie (line * 128)) 4 n).cxlSend line 1 mask
  let d := if w = 1 then d.setCoh { d.coh with under := Tab.erase d.coh.under line } else d
  if w = 1 ∧ n = 128 then { d with bad := d.bad.filter (fun u => u / 4 != line) } else d

/-- Whether a request brings data to its requester. -/
def bringsData (kind : Nat) : Bool := kind == 0 || kind == 1 || kind == 5

/-- The agent that sends its data to the requester, from the others' responses. -/
def supplier (kind : Nat) (rs : List (Nat × Nat)) : Option Nat :=
  (rs.find? (fun r => r.2 == 2 || (kind == 0 && r.2 == 3))).map (·.1)

/-- What a broadcast ends with (Table 9-5, R241): the data message of memory or of the home's own copy is the completion; an agent's data comes beside
one. An RD_CUR is answered by the home. -/
def Device.answerTraffic (d : Device) (kind a n : Nat) (brings : Bool) (rs : List (Nat × Nat)) : Device :=
  let home := homeDie (n * 128)
  if !brings then d.ringAdd (ringPath home a) 16
  else match supplier kind rs with
    | none => d.ringAdd (ringPath home a) 144
    | some s => if s = home ∨ kind = 5 then d.ringAdd (ringPath home a) 144 else (d.ringAdd (ringPath s a) 144).ringAdd (ringPath home a) 16

/-- What the home moves to and from memory when a broadcast ends (R241): a read where nobody supplied, the dirty data of M, and what a WR_CUR or an
ATOMIC of n bytes writes. -/
def Device.answerMemory (d : Device) (kind n bytes hoop : Nat) (brings : Bool) (rs : List (Nat × Nat)) (m : Nat := 2 ^ 128 - 1) : Device :=
  let dirty := rs.any (fun r => r.2 == 3)
  let d := if (brings ∧ (supplier kind rs).isNone ∧ !dirty) ∨ (kind = 7 ∧ !dirty) then d.memBytes hoop n 0 128 else d
  if kind = 6 ∨ kind = 7 then (if dirty then d.memBytes hoop n 1 128 else d.memBytes hoop n 1 bytes m) else d

/-- The dirty data that an M agent hands over while its line stays valid is written to memory (Table 9-3, R246), for the hoop of the line's tag (R428). -/
def Device.cleaned (d : Device) (kind a n : Nat) : Device :=
  match Tab.find? (Tab.get [] d.coh.caches a) n with
  | some l => if (kind = 0 ∨ kind = 5) ∧ l.state = 4 ∧ !l.pin then d.memBytes l.hoop n 1 128 else d
  | none => d

/-- The cost of a whole transaction on the ring and at the memories, from the states before it (Table 9-5). -/
def Device.txCost (d : Device) (kind a n bytes hoop : Nat) (m : Nat := 2 ^ 128 - 1) : Device :=
  let c := d.coh
  let home := homeDie (n * 128)
  let d := d.ringAdd (ringPath a home) (requestBytes kind bytes)
  if c.short kind a n then
    (if kind = 0 then d.cleaned 0 home n else d).ringAdd (ringPath home a) (if bringsData kind || kind == 2 then 144 else 16)
  else
    let rs := (others a).map (fun x => (x, (c.snoopAt kind x n).2))
    let d := (others a).foldl (fun d x => d.cleaned kind x n) d
    let d := d.ringAdd (snoopHops home) 16
    let d := (others home).foldl (fun d x =>
      d.ringAdd (ringPath x home) (if x ≠ a ∧ rs.any (fun r => r.1 == x && r.2 == 3) then 144 else 16)) d
    (d.answerTraffic kind a n (bringsData kind) rs).answerMemory kind n bytes hoop (bringsData kind) rs m

/-- Count the lookup of a line at the requester and, where it misses, at its home (R428). -/
def Device.lookup (d : Device) (agent h n : Nat) : Device :=
  let hit := fun (d : Device) x => d.cnt h (if d.coh.state x n ≠ 0 then 9 else 10)
  let home := homeDie (n * 128)
  let d' := if agent = 4 then d else hit d agent
  if (d.coh.state agent n ≠ 0 ∧ agent ≠ 4) ∨ home = agent then d' else hit d' home

/-! Messages -/

/-- Whether a line number names a line of device memory. -/
def Device.isLine (d : Device) (n : Nat) : Bool := n * 128 < 0x100000000000 && !absent d.ms (n * 128)

/-- Send a message of the domain and count its bytes on the ring; kinds 0 to 7 requests with `n` bytes of data, 8 to 10 snoops, 11 to 14 responses, 15 and
16 completions without and with data. A snoop's hops count once for the broadcast; completions are counted with the answer. -/
def Device.ringMsg (d : Device) (src dst kind line : Nat) (n : Nat := 128) : Device :=
  let d := d.emit (.ringMsg src dst (Nat.min kind 15) line)
  if kind < 8 then d.ringAdd (ringPath src dst) (requestBytes kind n)
  else if kind < 11 ∨ kind > 14 then d
  else d.ringAdd (ringPath src dst) (if kind = 14 then 144 else 16)

/-- What an atomic makes of a word (Table 5-13). -/
def atomicNew (aop w : Nat) (uns : Bool) (old b cmp : Nat) : Nat :=
  let less := if uns then old < b else signed w old < signed w b
  match aop with
  | 0 => (old + b) % 2 ^ w
  | 1 => if less then old else b
  | 2 => if less then b else old
  | 3 => old &&& b
  | 4 => old ||| b
  | 5 => old ^^^ b
  | 6 => b
  | 7 => if old = cmp then b else old
  | 8 => (fp32.deliver 0 false 0 ((fp32.decode old).add 0 (fp32.decode b)).1).1
  | 9 => fminmax false fp32 old b
  | _ => fminmax true fp32 old b

/-- What a request that carries data does to the bytes when the home performs it (Table 9-2, R160, R239): a WR_LINE and a WR_CUR write theirs, an ATOMIC
writes its result and sends the old value; one that meets an uncorrectable word fails, and its error record is due (R234). -/
def Device.perform (d : Device) (n : Nat) (t : Track) : Device :=
  let a := n * 128 + t.off
  match t.op with
  | none => if t.kind = 3 ∨ t.kind = 6 then d.writeDev a t.data else d
  | some o =>
    let w := if o.w64 then 8 else 4
    match d.readDev a w with
    | none => d.setCoh { d.coh with failed := d.coh.failed ++ [(t.hoop, a)] }
    | some old =>
      (d.writeDev a (le w (atomicNew o.aop (8 * w) o.uns (ofLe old) o.b.toNat o.c.toNat))).emit (.oldValue t.agent n t.off old)

/-- The bytes that a request writes at its home. -/
def Track.bytes (t : Track) : Nat := match t.op with
  | some o => if o.w64 then 8 else 4
  | none => t.data.length

/-- The home takes the WB of an agent: it writes memory, and the agent drops the line (Table 9-4, R245); one that a snoop has voided it ignores. -/
def Device.takeWb (d : Device) (n : Nat) (t : Track) : Device :=
  let c := d.coh
  if c.wbs.contains (t.agent, n) then
    ((d.setCoh ({ c with wbs := c.wbs.erase (t.agent, n) }.setState t.agent n 0)).emit (.ringMsg (homeDie (n * 128)) t.agent 15 n)).memBytes t.hoop n 1 128
  else d

/-- The write-backs of lines that left an agent in M when its lines became those of `c` (R231, R242): each is taken, or it waits at its home. -/
def Device.settleCoh (d : Device) (agent n : Nat) (c : Coh) : Device :=
  let gone := (Tab.get [] d.coh.caches agent).filter (fun l => l.1 != n && l.2.state == 4 && c.state agent l.1 != 4)
  gone.foldl (fun d l =>
    let t : Track := { kind := 4, agent := agent, hoop := l.2.hoop }
    let d := (d.setCoh { d.coh with wbs := d.coh.wbs ++ [(agent, l.1)] }).ringMsg agent (homeDie (l.1 * 128)) 4 l.1 0
    if d.coh.busy l.1 || 48 ≤ d.coh.openAt l.1 then d.setCoh { d.coh with waiting := d.coh.waiting ++ [(l.1, t)] } else d.takeWb l.1 t) (d.setCoh c)

/-- Serve a request that the home takes (R240, R243, R245, R246): at once where the shortcut or a WB allows, else by a broadcast. A dirty line that is
uncorrectable is pinned before anything moves it (R235). -/
def Device.take_ (d : Device) (n : Nat) (t : Track) : Device :=
  let home := homeDie (n * 128)
  match d.met home n [3, 4, 5] with
  | some cause => d.moduleFatal cause home 7 (sliceOf n) n
  | none =>
    if t.kind = 4 then d.takeWb n t
    else
      let whole := t.kind = 3 ∨ (t.kind = 6 ∧ t.data.length = 128)
      let d := if whole then d.renewed n else d.pinLine n
      let d := d.lookedUp home n (supplies t.kind (d.coh.state home n))
      let d := d.pinVictims t.agent n (d.wayMask t.hoop t.agent) 16
      if d.life.fatal then d
      else
        let c := d.coh
        if c.short t.kind t.agent n then
          let brings := bringsData t.kind || t.kind == 2
          let d := if t.kind = 0 then d.cleaned 0 home n else d
          let c := d.coh
          (((d.settleCoh t.agent n (c.shortened t.kind t.agent n t.hoop (d.wayMask t.hoop t.agent))).perform n t).ringMsg home t.agent
            (if brings then 16 else 15) n).ringAdd (ringPath home t.agent) (if brings then 144 else 16)
        else
          let hs := c.state home n
          let own := if home = t.agent then ((if hs = 0 then 0 else 1) : Nat) else (c.snoopAt t.kind home n).2
          let d := if home = t.agent then d else d.cleaned t.kind home n
          let c := d.coh.touch home n
          let c := if home = t.agent then c else c.setState home n (c.snoopAt t.kind home n).1
          let t := { t with due := others home, rsps := [(home, own)] }
          (others home).foldl (fun d x => d.ringMsg home x (8 + (if t.kind = 0 then 0 else if t.kind = 5 then 2 else 1)) n)
            ((d.setCoh { c with opened := Tab.insert c.opened n t }).ringAdd (snoopHops home) 16)

/-- Take the requests that wait at a slice, in order, while trackers are free (R243): the first whose line has none open. The fuel is the
number that wait. -/
def Device.takeNext (d : Device) (n : Nat) : Nat → Device
  | 0 => d
  | fuel + 1 =>
    let here := fun (m : Nat) => homeDie (m * 128) == homeDie (n * 128) && sliceOf m == sliceOf n
    if 48 ≤ d.coh.openAt n then d
    else match d.coh.waiting.find? (fun w => here w.1 && (Tab.find? d.coh.opened w.1).isNone) with
      | none => d
      | some w => Device.takeNext ((d.setCoh { d.coh with waiting := d.coh.waiting.erase w }).take_ w.1 w.2) n fuel

/-- A request is on its way to the home: it is taken, or it waits behind others for the line and while the slice has 48 open (R243). -/
def Device.arrives (d : Device) (n : Nat) (t : Track) : Device :=
  let c := d.coh
  let d := d.ringMsg t.agent (homeDie (n * 128)) t.kind n t.bytes
  if c.busy n || 48 ≤ c.openAt n then d.setCoh { c with waiting := c.waiting ++ [(n, t)] }
  else d.take_ n t

/-- Whether an agent has a request for a line open or waiting (R239). -/
def Coh.asked (c : Coh) (agent n : Nat) : Bool :=
  (match Tab.find? c.opened n with
   | some t => t.agent == agent
   | none => false) || c.waiting.any (fun w => w.1 == n && w.2.agent == agent)

/-- Whether an agent's state of a line is one in which Table 9-2 lets it send a request; a pinned line is never written back (R235). -/
def Coh.maySend (c : Coh) (kind agent n mask : Nat) : Bool :=
  match kind with
  | 0 => c.state agent n == 0 && c.canAlloc agent n mask
  | 1 => c.state agent n == 0 && c.canAlloc agent n mask
  | 2 => c.state agent n == 1 || c.state agent n == 2
  | 3 => c.state agent n < 3 && c.canAlloc agent n mask
  | 4 => c.state agent n == 4 && (match Tab.find? (Tab.get [] c.caches agent) n with
      | some l => l.bad.isEmpty && !l.pin
      | none => false)
  | _ => true

/-- The data that a request must carry: a whole line, bytes within the line, or an atomic's aligned word. -/
def Track.wf (t : Track) : Bool :=
  match t.kind with
  | 3 => t.off == 0 && t.data.length == 128
  | 6 => t.data != [] && t.off + t.data.length ≤ 128
  | 7 => (match t.op with
      | some o => o.aop ≤ 10 && !(o.w64 && 8 ≤ o.aop) && t.off % (if o.w64 then 8 else 4) == 0 && t.off < 128
      | none => false)
  | _ => true

/-- An agent sends a request to the home of a line (R239, R243): one per agent and line, in a state that sends it (Table 9-2); any other waits
in the agent, which sends nothing. -/
def Device.request (d : Device) (n : Nat) (t : Track) : Device :=
  let c := d.coh
  let hoop := if t.kind = 4 then (((Tab.find? (Tab.get [] c.caches t.agent) n).map (fun (l : CLine) => l.hoop)).getD 0) else t.hoop
  if !d.live || t.agent > 4 || hoop > 7 || !d.isLine n || c.asked t.agent n || !c.maySend t.kind t.agent n (d.wayMask hoop t.agent) || !t.wf then d
  else (d.setCoh (if t.kind = 4 then { c with wbs := c.wbs ++ [(t.agent, n)] } else c)).arrives n { t with hoop := hoop }

/-- The snoop that a request causes: 0 SNP_SHARED, 1 SNP_INV, 2 SNP_CUR (Table 9-3). -/
def snoopGroup (kind : Nat) : Nat := if kind = 0 then 0 else if kind = 5 then 2 else 1

/-- Whether a snoop is on its way to an agent. -/
def Coh.snoopOk (c : Coh) (group agent n : Nat) : Bool :=
  match Tab.find? c.opened n with
  | none => false
  | some t => snoopGroup t.kind == group && t.due.contains agent

/-- A snoop reaches an agent: it looks the line up, changes its state and answers (Table 9-3, R233, R244, R245). -/
def Device.snooped (d : Device) (agent n : Nat) : Device :=
  match Tab.find? d.coh.opened n, d.met agent n [3, 5, 7] with
  | none, _ => d
  | some _, some cause => d.moduleFatal cause agent 7 0x1F n
  | some t, none =>
    let d := (d.pinLine n).lookedUp agent n (agent != t.agent && supplies t.kind (d.coh.state agent n))
    if d.life.fatal then d
    else
      let c := d.coh
      let st := c.state agent n
      let inWb := c.wbs.contains (agent, n)
      let r : Nat × Nat :=
        if inWb then (0, (Sys2Proof.Machine.snoop t.kind 4).2)
        else if agent = t.agent then (st, if st = 0 then 0 else 1)
        else c.snoopAt t.kind agent n
      let tag := ((Tab.find? (Tab.get [] c.caches agent) n).map (fun (l : CLine) => l.hoop)).getD
        (((c.waiting.find? (fun w => w.1 == n && w.2.agent == agent && w.2.kind == 4)).map (fun w => w.2.hoop)).getD t.hoop)
      let d := if agent = t.agent ∧ !inWb then d else if inWb ∧ (t.kind = 0 ∨ t.kind = 5) then d.memBytes tag n 1 128 else d.cleaned t.kind agent n
      let c := d.coh.setState agent n r.1
      let c := if inWb then { c with wbs := c.wbs.erase (agent, n),
                                     waiting := c.waiting.filter (fun w => !(w.1 == n && w.2.agent == agent && w.2.kind == 4)) } else c
      let c := { c with opened := Tab.insert c.opened n { t with due := t.due.erase agent }, ring := c.ring ++ [(agent, n, r.2)] }
      (d.setCoh c).ringMsg agent (homeDie (n * 128)) (11 + r.2) n

/-- A response reaches the home (R240). -/
def Device.responded (d : Device) (rsp agent n : Nat) : Device :=
  let c := d.coh
  match Tab.find? c.opened n, d.met (homeDie (n * 128)) n [3, 4] with
  | none, _ => d
  | some _, some cause => d.moduleFatal cause (homeDie (n * 128)) 7 (sliceOf n) n
  | some t, none => d.setCoh { c with ring := c.ring.erase (agent, n, rsp), opened := Tab.insert c.opened n { t with rsps := t.rsps ++ [(agent, rsp)] } }

/-- The home has every response of the request open for a line, and the completion reaches the requester (Table 9-4, R241, R244): it takes its new state,
but for a line that memory supplies with an uncorrectable unit, which is not allocated (Table 8-3), and the home takes the next requests. -/
def Device.completed (d : Device) (n : Nat) : Device :=
  let c := d.coh
  match Tab.find? c.opened n with
  | none => d
  | some t =>
    if !t.due.isEmpty || c.ring.any (fun r => r.2.1 == n) then d
    else match d.met t.agent n [3] with
    | some cause => d.moduleFatal cause t.agent 7 0x1F n
    | none =>
      let rs := t.rsps.filter (fun r => r.1 != t.agent)
      let brings := bringsData t.kind || (t.kind == 2 && t.rsps.contains (t.agent, 0))
      let memory := brings && (supplier t.kind rs).isNone && !rs.any (fun r => r.2 == 3)
      let c := { c with opened := Tab.erase c.opened n }
      let d := ((d.setCoh c).answerTraffic t.kind t.agent n brings rs).answerMemory t.kind n t.bytes t.hoop brings rs (lineMask t.off t.bytes)
      let d := if memory && d.badAt (n * 128) 128 then d
        else
          let d := d.pinVictims t.agent n (d.wayMask t.hoop t.agent) 16
          d.settleCoh t.agent n (d.coh.granted t.kind t.agent n t.hoop (d.wayMask t.hoop t.agent) (rs.map (·.2)))
      if d.life.fatal then d else (d.perform n t).takeNext n d.coh.waiting.length

/-- Let the requests open for a line run to their end, and those that wait for it after them: an access to the line waits for that (R239, R243). The
fuel is the number of requests. -/
def Device.runLine (d : Device) (n : Nat) : Nat → Device
  | 0 => d
  | fuel + 1 =>
    if !d.coh.busy n then d
    else
      let here := fun (m : Nat) => homeDie (m * 128) == homeDie (n * 128) && sliceOf m == sliceOf n
      let m := if (Tab.find? d.coh.opened n).isSome then n else ((List.find? (fun (o : Nat × Track) => here o.1) d.coh.opened).map (·.1)).getD n
      let due := match Tab.find? d.coh.opened m with
        | some t => t.due
        | none => []
      let d := due.foldl (fun d x => d.snooped x m) d
      let d := (d.coh.ring.filter (fun r => r.2.1 == m)).foldl (fun d r => d.responded r.2.2 r.1 m) d
      Device.runLine (d.completed m) n fuel

def Device.settled (d : Device) (n : Nat) : Device := d.runLine n (d.coh.opened.length + d.coh.waiting.length)

/-! Accesses -/

/-- A request of an access to a CXL line that its device fails is due a CXL_EVENT record, which names the link and the device physical address (R401):
a read of poisoned data, or an access by a link that is lost. -/
def Device.cxlFailed (d : Device) (n : Nat) (write : Bool) : Device :=
  match (if isCxl (n * 128) then d.cxlPlace (n * 128) else none) with
  | none => d
  | some (_, link, dpa) =>
    if d.coh.supplied n || (write && (d.cxlRoute (n * 128)).isSome) then d
    else d.setCoh { d.coh with lost := d.coh.lost ++
      ((List.range 2).filter (fun j => d.badAt (n * 128 + 64 * j) 64)).map (fun j => (link, dpa + 64 * j)) }

/-- The lookups of an access, at the agent and at the home; a dirty line that is uncorrectable is pinned first (R235), unless the access writes it whole. -/
def Device.looked (d : Device) (agent n : Nat) (consumes whole : Bool) : Device :=
  let d := d.settled n
  let d := if whole then d else d.pinLine n
  let d := if agent = 4 then d else d.lookedUp agent n consumes
  if homeDie (n * 128) = agent then d else d.lookedUp (homeDie (n * 128)) n consumes

/-- What the messages of an access's transaction meet (R233, R248): an error of the ring at any agent that they reach, of the home's tracker, of a tag; and
what the agents that a broadcast snoops find in the line. -/
def Device.transact (d : Device) (kind agent n : Nat) : Device :=
  let home := homeDie (n * 128)
  let short := d.coh.short kind agent n
  let snooped := if short then [] else (others home).filter (· != agent)
  match ((home, [3, 4]) :: (agent, [3]) :: snooped.map (fun x => (x, [3, 5, 7]))).findSome? (fun x => (d.met x.1 n x.2).map (fun c => (c, x.1))) with
  | some (c, x) => d.moduleFatal c x 7 (if c = 4 then sliceOf n else 0x1F) n
  | none => snooped.foldl (fun d x => d.lookedUp x n (supplies kind (d.coh.state x n))) d

/-- One line's read: the lookups, the transaction, the counts. A line that memory would supply with an uncorrectable unit is not allocated (Table 8-3). -/
def Device.lineRead (d : Device) (agent hoop : Nat) (allocate used : Bool) (n : Nat) : Device :=
  let d := (d.cxlFailed n false).looked agent n true false
  let mask := d.wayMask hoop agent
  let d := match d.coh.readKind agent n mask allocate with
    | some k => d.transact k agent n
    | none => d
  let d := if allocate then d.pinVictims agent n mask 16 else d
  if d.life.fatal then d
  else
    let allocate := allocate && !d.lineBad n
    let d1 := d.lookup agent hoop n
    let d1 := match d.coh.readKind agent n mask allocate with
      | some k => d1.txCost k agent n 0 hoop
      | none => d1
    d1.settleCoh agent n (d1.coh.read agent n hoop mask allocate used)

/-- One line's write of `len` bytes, those of a mask. A partial write whose line read would meet an uncorrectable unit is performed at the home
(R234). -/
def Device.lineWrite (d : Device) (agent hoop : Nat) (allocate used : Bool) (n len : Nat) (m : Nat := 2 ^ 128 - 1) : Device :=
  let whole := len == 128
  let d := (d.cxlFailed n true).looked agent n false whole
  let d := if whole then d.renewed n else d
  let mask := d.wayMask hoop agent
  let d := match d.coh.writeKind agent n mask whole allocate with
    | some k => d.transact k agent n
    | none => d
  let d := if allocate then d.pinVictims agent n mask 16 else d
  if d.life.fatal then d
  else
    let allocate := allocate && (whole || !d.lineBad n || d.coh.state agent n != 0)
    let d1 := d.lookup agent hoop n
    let d1 := match d.coh.writeKind agent n mask whole allocate with
      | some k => d1.txCost k agent n len hoop m
      | none => d1
    d1.settleCoh agent n (d1.coh.writeLine agent n hoop mask whole allocate used)

/-- An atomic of `len` bytes at the home (R160, R239). -/
def Device.lineAtomic (d : Device) (agent hoop n len off : Nat) : Device :=
  let d := ((d.cxlFailed n false).looked agent n true false).transact 7 agent n
  if d.life.fatal then d
  else
    let d := (d.lookup agent hoop n).txCost 7 agent n len hoop (lineMask off len)
    d.settleCoh agent n (d.coh.tx 7 agent n hoop 0)

/-! What the dies do for themselves -/

/-- A write that a die makes for the device itself, at the home of each line (R19, R20, R239); agent 4 is the rind die. -/
def Device.ownWrite (d : Device) (agent hoop a : Nat) (data : Bytes) : Device :=
  let n := data.length
  ((linesOf a n).foldl (fun d l => d.lineWrite agent hoop false false l (inLine a n l) (lineMask (Nat.max a (l * 128) - l * 128) (inLine a n l))) d).writeDev a data

/-- A read that a die makes for the device itself, at the home of each line. -/
def Device.ownRead (d : Device) (agent hoop a n : Nat) : Device := (linesOf a n).foldl (fun d l => d.lineRead agent hoop false false l) d

end Sys2Proof.Machine
end

