-- ==== Sys2Proof/Machine/Addr.lean ====
section
/-! DEFINITION. Device addresses, segments, translation and access to device memory (chapters 8, 10, 15). -/

namespace Sys2Proof.Machine

/-- A segment descriptor (Table 10-2). -/
structure Seg where
  valid : Bool
  tier : Nat
  perm : Nat
  sro : Bool
  share : Bool
  ilv : Nat
  owner : Nat
  oseg : Nat
  base : Nat
  limit : Nat
  groups : Nat
  deriving DecidableEq, Repr

/-- Where an access goes: a device address or a bus address. -/
inductive Loc where
  | dev (a : Nat)
  | host (a : Nat)
  deriving DecidableEq, Repr

/-- A failed translation: its fault code (Table 5-19) and ARG2. -/
structure XErr where
  code : Nat
  arg2 : Nat := 0
  deriving DecidableEq, Repr

/-! Segments -/

/-- Parse a segment descriptor (Table 10-2). Permission bits keep their bit numbers: R 3, W 4, A 5, X 6, PW 7. -/
def parseSeg (b : Bytes) : Seg :=
  let f := fieldLe b 0 2
  { valid := f.testBit 0, tier := bits f 2 1, perm := f % 256 / 8 * 8, sro := f.testBit 8, share := f.testBit 9,
    ilv := fieldLe b 2 1, owner := bits (fieldLe b 3 1) 2 0, oseg := bits (fieldLe b 3 1) 7 4,
    base := fieldLe b 8 8, limit := fieldLe b 16 8, groups := fieldLe b 24 8 }

/-- Device address of a hoop's segment table (R269). -/
def Device.tableAddr (d : Device) (h : Nat) : Nat := devAddr (d.rd Reg.HOOP_CHGROUPS_RESERVE_GROUP h) 0

/-- Device address of a byte of a hoop's recipe store (R259). -/
def Device.storeAddr (d : Device) (h o : Nat) : Nat := devAddr (d.rd Reg.HOOP_CHGROUPS_RESERVE_GROUP h) (2 ^ 20 + o)

/-- The device addresses and lengths of parts of a hoop's recipe store: one that meets the end of a run of positions is cut there (R258). -/
def Device.recipeRuns (d : Device) (h : Nat) (parts : List (Nat × Nat)) : List (Nat × Nat) :=
  parts.flatMap (fun p =>
    let n := Nat.min p.2 (2 ^ 33 - (2 ^ 20 + p.1) % 2 ^ 33)
    (d.storeAddr h p.1, n) :: (if n < p.2 then [(d.storeAddr h (p.1 + n), p.2 - n)] else []))

/-- The bytes of a hoop's segment descriptor `slot` (Table 10-5). -/
def Device.segBytes (d : Device) (h slot : Nat) : Bytes := d.mem.read (d.tableAddr h + 32 * slot) 32

/-- The bytes of a hoop's window descriptor. -/
def Device.winBytes (d : Device) (h i : Nat) : Bytes := d.mem.read (d.tableAddr h + 512 + 32 * i) 32

def Device.segOwn (d : Device) (h slot : Nat) : Seg := parseSeg (d.segBytes h slot)

/-- A descriptor as translation uses it: an SRO segment takes tier, place and size from its owner's, and the
permissions both grant (R265). -/
def Device.seg (d : Device) (h slot : Nat) : Seg :=
  let s := d.segOwn h slot
  if s.valid && s.sro then
    let o := d.segOwn s.owner s.oseg
    { s with valid := o.valid, tier := o.tier, base := o.base, limit := o.limit, ilv := o.ilv, groups := o.groups,
             perm := s.perm &&& o.perm &&& 0xC8 }
  else s

/-- The descriptor slot that segment field `s` of a virtual address selects, under the map of flip count `map` (R333, R337). -/
def Device.slotOf (d : Device) (h map s : Nat) : Nat :=
  if map = d.rd Reg.HOOP_FLIP_APPLIED h ∨ (d.hx h).oldMap = [] then d.rd (Reg.HOOP_SEGMAP_MAP s) h
  else ((d.hx h).oldMap.drop s).headD s

/-- The map in force now, for device accesses of a hoop. -/
def Device.curMap (d : Device) (h : Nat) : Nat := d.rd Reg.HOOP_FLIP_APPLIED h

/-- Where offset `o` of a segment lies (R262). -/
def Seg.place (s : Seg) (o : Nat) : Loc :=
  match s.tier with
  | 0 =>
    let gs := setBits 48 s.groups
    let k := gs.length
    let c := o / 2 ^ s.ilv
    .dev (devAddr ((gs.drop (c % k)).headD 0) (s.base + c / k * 2 ^ s.ilv + o % 2 ^ s.ilv))
  | 1 => .dev (cxlBase + s.base + o)
  | _ => .host (s.base + o)

/-- The offset of a device address in an HBM3E or CXL segment, if it covers it (inverse of R262). -/
def Seg.offsetOf (s : Seg) (a : Nat) : Option Nat :=
  let inside := fun o => if o < s.limit then some o else none
  if !s.valid then none
  else if s.tier = 1 then (if cxlBase + s.base ≤ a then inside (a - cxlBase - s.base) else none)
  else if s.tier = 0 ∧ isHbm a then
    let (g, pos) := groupPos a
    let gs := setBits 48 s.groups
    match gs.idxOf? g with
    | some i =>
      if pos < s.base then none
      else inside (((pos - s.base) / 2 ^ s.ilv * gs.length + i) * 2 ^ s.ilv + (pos - s.base) % 2 ^ s.ilv)
    | none => none
  else none

/-- Whether a hoop's descriptor slot is a session segment (R305). -/
def Device.isSessionSeg (d : Device) (h slot : Nat) : Bool :=
  (d.rd Reg.HOOP_KVPOOL_HBM_VALID h == 1 && d.rd Reg.HOOP_KVPOOL_HBM_SEG h == slot)
  || (d.rd Reg.HOOP_KVPOOL_CXL_VALID h == 1 && d.rd Reg.HOOP_KVPOOL_CXL_SEG h == slot)

/-- Whether a device address lies in a session segment of any hoop (R386). -/
def Device.inSession (d : Device) (a : Nat) : Bool :=
  (List.range 8).any (fun h => (List.range 16).any (fun s =>
    d.isSessionSeg h s && ((d.segOwn h s).offsetOf a).isSome))

/-- Whether a device address lies in a hoop's reserve (R259, R386). -/
def Device.inReserve (d : Device) (a : Nat) : Bool :=
  isHbm a && (List.range 8).any (fun h => d.hoopState h != 0 &&
    (groupPos a).1 == d.rd Reg.HOOP_CHGROUPS_RESERVE_GROUP h &&
    (groupPos a).2 < (d.rd Reg.HOOP_RECIPES_STORE_MIB h + 1) * 2 ^ 20)

/-- Use of a segment buffer: the entry moves to the front, the least recently used leaves (R268). -/
def lruTouch (cap n : Nat) (l : List Nat) : List Nat := (n :: l.filter (· != n)).take cap

/-- The second level that serves an engine (R268). -/
def secondLevel (eng : Nat) : Nat :=
  if eng < 256 then 576 + eng / 64 else if eng < 512 then 576 + (eng - 256) / 64
  else if eng < 576 then 576 + (eng - 512) / 16 else 580

/-- Whether an engine's buffers hold an entry. -/
def Device.buffered (d : Device) (eng n : Nat) : Bool :=
  (Tab.get [] d.flow.segbufs eng).contains n || (Tab.get [] d.flow.segbufs (secondLevel eng)).contains n

/-- Fill an engine's buffers with an entry. -/
def Device.touch (d : Device) (eng n : Nat) : Device :=
  let b := d.flow.segbufs
  let b := Tab.put [] b (secondLevel eng) (lruTouch 64 n (Tab.get [] b (secondLevel eng)))
  let b := if eng < 576 then Tab.put [] b eng (lruTouch 4 n (Tab.get [] b eng)) else b
  { d with flow := { d.flow with segbufs := b } }

/-- Whether a table line that a miss would read is uncorrectable (R268); an SRO entry reads its owner's line too. -/
def Device.tableBad (d : Device) (h slot : Nat) : Bool :=
  let s := d.segOwn h slot
  d.badAt (d.tableAddr h + 32 * slot) 32 || (s.valid && s.sro && d.badAt (d.tableAddr s.owner + 32 * s.oseg) 32)

/-- Whether a SEGMENT_WRITE of a hoop that is not in effect yet satisfies a condition (R270 step 2). -/
def Device.segWaits (d : Device) (h : Nat) (p : MPend → Bool) : Bool := d.boot.waits.any (fun w => w.wait == 1 && w.hdr.hoop == h && p w)

/-- Whether no access may start a translation through a descriptor slot, a window, or any global pointer of a hoop (R270 step 2). -/
def Device.segClosed (d : Device) (h slot : Nat) : Bool :=
  let mine := fun (h s : Nat) => d.segWaits h (fun w => w.a == 0 && w.b == s)
  !d.boot.waits.isEmpty && (mine h slot || (let s := d.segOwn h slot; s.valid && s.sro && mine s.owner s.oseg))
def Device.winClosed (d : Device) (h i : Nat) : Bool := d.segWaits h (fun w => (w.a == 1 && w.b == i) || w.a ≥ 2)
def Device.pointersClosed (d : Device) (h : Nat) : Bool := d.segWaits h (fun w => w.a ≥ 2)

/-- The answer of a translation that must wait for a SEGMENT_WRITE: no fault code, and before all of them (R270 step 2). -/
def segWait : XErr := ⟨0, 0⟩

/-- The check of an access to offset `o`, `width` bytes, of a segment (R263): `need` are the permission bits required,
`any` whether one of them is enough. `session` says that the access comes by a path of chapter 12 (R305). -/
def Device.checkSeg (d : Device) (h slot o width : Nat) (need : List Nat) (any session : Bool) : Except XErr Seg :=
  let s := d.seg h slot
  let have_ := fun b => s.perm.testBit b
  let ok := if any then need.any have_ else need.all have_
  if !s.valid then .error ⟨0x11, 0⟩
  else if s.limit < o + width then .error ⟨0x12, 0⟩
  else if d.isSessionSeg h slot && !session then .error ⟨0x13, need.headD 3⟩
  else if !ok then .error ⟨0x13, if need.length > 1 then 3 else need.headD 3⟩
  else .ok s

/-- Translate a hoop virtual address for an engine (R260 to R265, R268); `segWait` where a SEGMENT_WRITE holds the descriptor (R270). -/
def Device.xlate (d : Device) (eng h map va width : Nat) (need : List Nat) (any session : Bool := false) :
    Device × Except XErr Loc :=
  if va ≥ 2 ^ 48 then (d, .error ⟨0x11, 0⟩)
  else
    let slot := d.slotOf h map (bits va 47 44)
    let o := va % 2 ^ 44
    if d.segClosed h slot then (d, .error segWait)
    else if !d.buffered eng (h * 32 + slot) && d.tableBad h slot then (d, .error ⟨0x60, 0⟩)
    else
      (d.touch eng (h * 32 + slot),
        match d.checkSeg h slot o width need any session with
        | .ok s => .ok (s.place o)
        | .error e => .error e)

/-- The bytes of a checked range of a segment, byte by byte: device bytes, or none on an uncorrectable error. Host-tier
bytes are not read here. -/
def Device.readSeg (d : Device) (s : Seg) (o n : Nat) : Option Bytes :=
  (List.range n).foldr (fun i acc => match acc with
    | none => none
    | some t => match s.place (o + i) with
      | .dev a => if d.badAt a 1 then none else some (d.mem.get a :: t)
      | .host _ => none) (some [])

/-- The parts of a range of a segment, split at 4 KiB, below which placement is contiguous: offset and length. -/
def pageParts (o n : Nat) : List (Nat × Nat) :=
  (List.range (if n = 0 then 0 else (o + n - 1) / 4096 + 1 - o / 4096)).map (fun k =>
    let a := Nat.max o ((o / 4096 + k) * 4096)
    (a, Nat.min (o + n) ((o / 4096 + k + 1) * 4096) - a))

/-- A die writes a range of a segment for the device itself (R239); the bytes count for hoop `who`. -/
def Device.writeSeg (d : Device) (agent who : Nat) (s : Seg) (o : Nat) (data : Bytes) : Device :=
  (pageParts o data.length).foldl (fun d p => match s.place p.1 with
    | .dev a => d.ownWrite agent who a (slice data (p.1 - o) p.2)
    | .host _ => d) d

/-- What such a read of a range of a segment does to the domain (R239). -/
def Device.seenSeg (d : Device) (agent who : Nat) (s : Seg) (o n : Nat) : Device :=
  (pageParts o n).foldl (fun d p => match s.place p.1 with
    | .dev a => d.ownRead agent who a p.2
    | .host _ => d) d

/-- The answer of a device read that lies in the host tier: a PCIe read must bring the bytes first (R267). -/
def hostTier : Nat := 0x1000

/-- Read `n` bytes at a hoop virtual address for the device itself (R264), through a map, the one in force where none is given: SEGMENT_FAULT 0xB or
DATA_ERROR 0xA, or `hostTier`. -/
def Device.readVa (d : Device) (h va n : Nat) (session : Bool := false) (map : Option Nat := none) : Except Nat Bytes :=
  if va ≥ 2 ^ 48 then .error 0xB
  else
    let slot := d.slotOf h (map.getD (d.curMap h)) (bits va 47 44)
    if !d.buffered 580 (h * 32 + slot) && d.tableBad h slot then .error 0xA
    else match d.checkSeg h slot (va % 2 ^ 44) n [3] false session with
      | .error _ => .error 0xB
      | .ok s => if s.tier = 2 then .error hostTier else match d.readSeg s (va % 2 ^ 44) n with
        | some b => .ok b
        | none => .error 0xA

/-- What a read by the device itself does to the domain, where it is one of device memory (R239, R264). -/
def Device.seenVa (d : Device) (h va n : Nat) (map : Option Nat := none) (who : Nat := 9) : Device :=
  let slot := d.slotOf h (map.getD (d.curMap h)) (bits va 47 44)
  if va ≥ 2 ^ 48 ∨ (!d.buffered 580 (h * 32 + slot) && d.tableBad h slot) then d
  else match d.checkSeg h slot (va % 2 ^ 44) n [3] false false with
    | .error _ => d
    | .ok s => if s.tier = 2 then d else d.seenSeg 4 who s (va % 2 ^ 44) n

/-- Write bytes at a hoop virtual address for the device itself (R264), through a map, counted for hoop `who`: SEGMENT_FAULT 0xB where translation or permission fails,
DATA_ERROR 0xA where the table line is uncorrectable (R268). -/
def Device.storeVa (d : Device) (h map va : Nat) (data : Bytes) (session : Bool := false) (who : Nat := 9) : Except Nat Device :=
  if va ≥ 2 ^ 48 then .error 0xB
  else
    let slot := d.slotOf h map (bits va 47 44)
    if !d.buffered 580 (h * 32 + slot) && d.tableBad h slot then .error 0xA
    else match d.checkSeg h slot (va % 2 ^ 44) data.length [4] false session with
      | .error _ => .error 0xB
      | .ok s =>
        if s.tier = 2 then .ok ((d.hostWrite (d.ownerFn h) (s.base + va % 2 ^ 44) data).cnt who 8 data.length)
        else .ok (d.writeSeg 4 who s (va % 2 ^ 44) data)

/-- The same through the map in force; none when it fails. -/
def Device.writeVa (d : Device) (h va : Nat) (data : Bytes) (session : Bool := false) (who : Nat := 9) : Option Device :=
  (d.storeVa h (d.curMap h) va data session who).toOption

end Sys2Proof.Machine
end

