-- ==== Sys2Proof/Machine/StatOps.lean ====
section
/-! DEFINITION. Counting, histograms, trace records, watchpoints and perturbation, as every family uses them (chapter 17). -/

namespace Sys2Proof.Machine

/-- The moment now, by the ticks of a hoop. -/
def Device.stamp (d : Device) (h : Nat) : Stamp := ⟨d.time h, d.clock.now⟩

/-- A record of the trace is dropped (R442). -/
def Device.traceDrop (d : Device) (h : Nat) : Device :=
  ((d.countSat Reg.HOOP_TRACE_LOST h).wr Reg.HOOP_TRACE_DROPPED h 1).modHstat h (fun x => { x with traceLost := true })

/-- What a trace record names of its waiter (Table 17-7). -/
structure Waiter where
  group : Nat := 0xFF
  die : Nat := 4
  core : Nat := 0xFFFF
  queue : Nat := 0xFFFF
  who : Nat := 0
  deriving DecidableEq, Repr

/-- Write a trace record for a wait that ends now (R441, R442); a WATCH record takes no account of KINDS and MIN_NS (R444). -/
def Device.trace (d : Device) (h kind outcome : Nat) (w : Waiter) (object detail : Nat) (start : Stamp) : Device :=
  let x := d.hstat h
  let long := d.clock.now - start.now ≥ x.minNs && x.kinds.testBit kind
  if d.rd Reg.HOOP_TRACE_ENABLE h = 0 ∨ !(long || kind == 8) then d
  else
    let t := d.rd Reg.HOOP_TRACE_PTR_TAIL h
    let n := d.rd Reg.HOOP_TRACE_SIZE_LOG2 h
    if d.rd Reg.HOOP_TRACE_WRAP h = 0 ∧ ringDiff 32 t (d.rd Reg.HOOP_TRACE_PTR_HEAD h) ≥ 2 ^ n then d.traceDrop h
    else
      let s := start.time % 2 ^ 26
      let bytes := le 1 kind ++ le 1 w.group ++ le 1 outcome ++ le 1 w.die ++ le 2 w.core ++ le 2 w.queue ++ le 4 w.who
        ++ le 4 object ++ le 4 (start.time / 2 ^ 26) ++ le 4 s ++ le 4 (satAdd 32 s (d.clock.now - start.now)) ++ le 4 detail
      match d.writeVa h (d.rd Reg.HOOP_TRACE_BASE h * 4096 + 32 * (t % 2 ^ n)) bytes (who := 8) with
      | some d => d.wr Reg.HOOP_TRACE_PTR_TAIL h (t + 1)
      | none => d.wr Reg.HOOP_TRACE_ENABLE h 0

/-- The watchpoints of a hoop that accesses of a source (0 cores, 1 streams, 2 aperture) and kind (0 read, 1 write, 2
atomic) match (R443): each with the lowest matching address. -/
def Device.watchMatch (d : Device) (h src kind : Nat) (ranges : List (Nat × Nat)) : List (Nat × Nat) :=
  (d.hstat h).watches.filterMap (fun (i, w) =>
    if !w.access.testBit kind || !w.sources.testBit src then none
    else (minOf ((ranges.filter (fun r => overlaps r w)).map (·.1))).map (fun a => (i, a)))
where
  overlaps (r : Nat × Nat) (w : Watch) : Bool := r.1 < w.base + w.limit && w.base < r.1 + r.2

/-- Record the hits of watchpoints by their ACTION (R444, R445). -/
def Device.watchNote (d : Device) (h kind : Nat) (w : Waiter) (hits : List (Nat × Nat)) : Device :=
  hits.foldl (fun d (i, a) =>
    match Tab.find? (d.hstat h).watches i with
    | none => d
    | some x =>
      let d := d.modHstat h (fun s => { s with watchHits := Tab.put 0 s.watchHits i (satAdd 32 (Tab.get 0 s.watchHits i) 1) })
      let d := d.setBits Reg.HOOP_WATCH_HIT h (2 ^ i)
      let d := if x.action ≥ 1 then d.trace h 8 0 w (i + 2 ^ (4 + kind)) (Nat.min (a - x.base) (2 ^ 32 - 1)) (d.stamp h) else d
      if x.action = 2 then
        (d.wr Reg.HOOP_WATCH_STOPPED h 1).modHstat h (fun s => { s with stopped := true })
      else d) d

/-- The lowest-numbered STOP watchpoint among hits (R445). -/
def Device.watchStop (d : Device) (h : Nat) (hits : List (Nat × Nat)) : Option Nat :=
  minOf ((hits.filter (fun (i, _) => match Tab.find? (d.hstat h).watches i with
    | some x => x.action == 2
    | none => false)).map (·.1))

/-- The point whose clocks run: in a step the slower of the two (R454). -/
def Device.clockPoint (d : Device) : Nat :=
  match d.power.moving with
  | some m => Nat.max m (d.rd Reg.POWER_STATUS_POINT)
  | none => d.rd Reg.POWER_STATUS_POINT

/-- fc in a µs (Table 18-1). -/
def Device.fcRate (d : Device) : Nat := 1200 - 100 * (d.clockPoint / 2)

/-- The number of the present fc. -/
def Device.fcNow (d : Device) : Nat := d.clock.fc / 1000

/-- Whether an enabled entry has a target and SELECT. -/
def Device.perturbs (d : Device) (target select n : Nat) : Bool :=
  d.rd Reg.PERTURB_CFG_TARGET n == target && d.rd Reg.PERTURB_CFG_SELECT n == select

/-- How long a candidate event that comes now is delayed, in ns: DELAY of the entries that perturb it, the longest where more than one does (R448, Table
17-9; log entry 45). DELAY counts ns for LINK_CREDIT, else fc. -/
def Device.perturbDelay (d : Device) (target select : Nat) : Nat :=
  ((List.range 8).filter (fun n => d.perturbs target select n
      && lfsr16 (Tab.get 1 d.stat.gens n) % 2 ^ d.rd Reg.PERTURB_CFG_RATE_LOG2 n == 0)).foldl (fun t n =>
    let delay := d.rd Reg.PERTURB_CFG_DELAY n
    Nat.max t (if target = 2 then delay else cdiv (1000 * delay) d.fcRate)) 0

/-- Perform an event, or keep it for the time that a perturbation delays it (R448). -/
def Device.lateOr (d : Device) (delay : Nat) (e : Late) (f : Device → Device) : Device :=
  if delay = 0 then f d else { d with stat := { d.stat with late := d.stat.late ++ [(d.clock.now + delay, e)] } }

/-- A candidate event of a perturbation target (R448): every enabled entry for it steps its generator and counts a hit. -/
def Device.perturb (d : Device) (target select : Nat) : Device :=
  (List.range 8).foldl (fun d n =>
    if d.perturbs target select n then
      let g := lfsr16 (Tab.get 1 d.stat.gens n)
      let d := { d with stat := { d.stat with gens := Tab.put 1 d.stat.gens n g } }
      if g % 2 ^ d.rd Reg.PERTURB_CFG_RATE_LOG2 n = 0 then d.count Reg.PERTURB_HITS_HITS n else d
    else d) d

end Sys2Proof.Machine
end

