-- ==== Sys2Proof/Machine/Errors.lean ====
section
/-! DEFINITION. Error records, the global error queue and the views (R418 to R424). -/

namespace Sys2Proof.Machine

/-- The tail, head and size of ring `r`: 8 the global ring, 0 to 7 the view of a hoop. -/
def Device.errTail (d : Device) (r : Nat) : Nat := if r = 8 then d.rd Reg.ERRQ_PTR_TAIL else d.rd Reg.HOOP_ERRQ_PTR_TAIL r
def Device.errHead (d : Device) (r : Nat) : Nat := if r = 8 then d.rd Reg.ERRQ_PTR_HEAD else d.rd Reg.HOOP_ERRQ_PTR_HEAD r
def Device.errLog2 (d : Device) (r : Nat) : Nat := if r = 8 then 14 else d.rd Reg.HOOP_ERRQ_SIZE_LOG2 r
def Device.errFull (d : Device) (r : Nat) : Bool := ringDiff 32 (d.errTail r) (d.errHead r) ≥ 2 ^ d.errLog2 r
def Device.errRing (d : Device) (r : Nat) : ErrRing := Tab.get {} d.errs r
def Device.setErrRing (d : Device) (r : Nat) (x : ErrRing) : Device := { d with errs := Tab.put {} d.errs r x }

/-- Whether 10 µs have passed since the vector of a ring was last sent (R423). -/
def ErrRing.rested (x : ErrRing) (now : Nat) : Bool :=
  match x.lastIrq with
  | none => true
  | some t => t + 10000 ≤ now

/-- Vector 1 after a tail advance, no more often than once per 10 µs (R423, R424): it is sent now, or once they have passed. -/
def Device.errVector (d : Device) (r : Nat) : Device :=
  let x := d.errRing r
  let on := if r = 8 then d.rd Reg.ERRQ_CTRL_IRQ_EN == 1 else d.ownerFn r != 0
  if !on then d.setErrRing r { x with irqDue := false }
  else if x.rested d.clock.now then
    (d.setErrRing r { x with lastIrq := some d.clock.now, irqDue := false }).sendVector (if r = 8 then 0 else d.ownerFn r) 1
  else d.setErrRing r { x with irqDue := true }

/-- The vectors that waited for 10 µs to pass. -/
def Device.errVectors (d : Device) : Device :=
  (d.errs.filter (fun (x : Nat × ErrRing) => x.2.irqDue && x.2.rested d.clock.now)).foldl (fun d (x : Nat × ErrRing) => d.errVector x.1) d

/-- Count a dropped record (R422). -/
def Device.errDrop (d : Device) (r c n : Nat) : Device :=
  let x := d.errRing r
  (d.setErrRing r { x with drops := Tab.put 0 x.drops c (Tab.get 0 x.drops c + n) }).errBit r c true

/-- Put a record at the tail of a ring that has room, and advance the tail (R421). A view write that fails clears the
view's ENABLE and sets DROPPED (R424). -/
def Device.errPut (d : Device) (r : Nat) (o : Occ) (count time : Nat) (isRepeat : Bool) : Device :=
  let t := d.errTail r
  let n := d.errLog2 r
  let bytes := recordBytes o count time isRepeat (t.testBit n)
  if r = 8 then
    ((d.ownWrite 4 9 (reserveAddr d.ms + 64 * (t % 2 ^ 14)) bytes).wr Reg.ERRQ_PTR_TAIL 0 (t + 1)).errVector 8
  else
    match d.writeVa r (d.rd Reg.HOOP_ERRQ_BASE r * 4096 + 64 * (t % 2 ^ n)) bytes with
    | some d => (d.wr Reg.HOOP_ERRQ_PTR_TAIL r (t + 1)).errVector r
    | none => (d.wr Reg.HOOP_ERRQ_ENABLE r 0).errBit r (codeClass o.code) true

/-- An occurrence sets the bit of its class and counts, for the module and for the hoop it names (R423, R429, Table 17-5). -/
def Device.errCount (d : Device) (o : Occ) : Device :=
  let c := codeClass o.code
  let d := d.errBit 8 c false
  let d := { d with stat := { d.stat with errors := Tab.put 0 d.stat.errors c (satAdd 32 (Tab.get 0 d.stat.errors c) 1) } }
  let d := if o.hoop < 8 then
      d.modHstat o.hoop (fun x => { x with errors := Tab.put 0 x.errors c (satAdd 32 (Tab.get 0 x.errors c) 1) })
    else d
  if o.hoop < 8 then d.errBit o.hoop c false else d

/-- Write the OVERFLOW record that is due, if a ring has drops and room (R422). -/
def Device.errOverflow (d : Device) (r : Nat) : Device :=
  let x := d.errRing r
  if x.drops.isEmpty || d.errFull r then d
  else
    let detail := (List.range 16).flatMap (fun c => le 2 (Nat.min (Tab.get 0 x.drops c) 65535))
    let total := Nat.min ((Tab.vals x.drops).foldl (· + ·) 0) (2 ^ 32 - 1)
    let d := d.setErrRing r { x with drops := [] }
    let o : Occ := { code := 0x78, hoop := if r = 8 then 0xFF else r, detail := detail }
    let d := d.errCount o
    d.errPut r o total (d.time r) false

/-- Write a record, or drop it where the ring is full (R422). -/
def Device.errWrite (d : Device) (r : Nat) (o : Occ) (count time : Nat) (isRepeat : Bool) : Device :=
  if r < 8 ∧ d.rd Reg.HOOP_ERRQ_ENABLE r = 0 then d
  else
  let d := d.errOverflow r
  if d.errFull r then d.errDrop r (codeClass o.code) count else d.errPut r o count time isRepeat

/-- Whether two signatures are equal (R419). -/
def Sig.same (s : Sig) (o : Occ) : Bool :=
  s.code == o.code && s.hoop == o.hoop && s.queue == o.queue && s.object == o.object && s.pointer == o.pointer

/-- Report an occurrence to one ring: write the first of a signature, count further ones (R421). -/
def Device.errOne (d : Device) (r : Nat) (o : Occ) : Device :=
  let time := d.time o.hoop
  if neverCoalesced o.code then d.errWrite r o 1 time false
  else
    let x := d.errRing r
    match x.sigs.find? (·.same o) with
    | some _ =>
      d.setErrRing r { x with sigs := x.sigs.map (fun s =>
        if s.same o then { s with count := s.count + 1, detail := slice o.detail 0 32, time := time, held := o.held } else s) }
    | none =>
      let d := if x.sigs.length < 256 then
          d.setErrRing r { x with sigs := x.sigs ++ [{ code := o.code, hoop := o.hoop, queue := o.queue,
                                                       object := o.object, pointer := o.pointer }] }
        else d
      d.errWrite r o 1 time false

/-- Report an occurrence (R421 to R424): its class bits, the global queue, the view of the hoop it names. -/
def Device.post (d : Device) (o : Occ) : Device :=
  let d := (d.errCount o).errOne 8 o
  if o.hoop < 8 && d.rd Reg.HOOP_ERRQ_ENABLE o.hoop == 1 then d.errOne o.hoop o else d

/-- The error record of uncorrectable data that a command consumed (R234, Table 16-8). -/
def Device.dataError (d : Device) (h q object pointer addr : Nat) : Device :=
  let pinned := d.coh.caches.any (fun c => c.2.any (fun l => l.1 == addr / 128 && !l.2.bad.isEmpty))
  d.post { code := 0x20, hoop := h, queue := q, object := object, pointer := pointer,
           detail := le 8 addr ++ le 1 (if pinned then 5 else if isCxl addr then 8 else 7) }

/-- What the domain has met is reported: a DATA_ERROR for each ATOMIC request that met an uncorrectable word (R234), a CXL_EVENT for each failed
request of CXL.mem (R401). -/
def Device.reportFailed (d : Device) : Device :=
  if d.coh.failed = [] ∧ d.coh.lost = [] then d
  else
    let d' := d.setCoh { d.coh with failed := [], lost := [] }
    let d' := d.coh.failed.foldl (fun d x => d.dataError x.1 0xFFFF 0xFFFFFFFF 0xFFFFFFFF x.2) d'
    d.coh.lost.foldl (fun d x => d.post { code := 0x40, object := x.1, detail := le 8 x.2 ++ le 16 0 }) d'

/-- At a tick, write one REPEAT record for each signature counted, and begin a new interval (R421). -/
def Device.errTick (d : Device) (r : Nat) : Device :=
  let sigs := (d.errRing r).sigs
  let d := d.setErrRing r { d.errRing r with sigs := [] }
  sigs.foldl (fun d s => if s.count = 0 then d else
    d.errWrite r { code := s.code, hoop := s.hoop, queue := s.queue, object := s.object, pointer := s.pointer,
                      detail := s.detail, held := s.held } s.count s.time true) d

end Sys2Proof.Machine
end

