-- ==== Sys2Proof/Machine/Objects.lean ====
section
/-! DEFINITION. Shared objects and reference counts (R51 to R55). -/

namespace Sys2Proof.Machine

/-- Hoop virtual address of an object-table entry (R51). -/
def Device.objAddr (d : Device) (h handle : Nat) : Nat := d.rd Reg.HOOP_OBJTAB_BASE h * 4096 + 16 * handle

/-- Whether a handle lies in the hoop's object table (R54). -/
def Device.objIn (d : Device) (h handle : Nat) : Bool :=
  d.rd Reg.HOOP_CFG_TABLES_LOCK h == 1 && handle < 2 ^ d.rd Reg.HOOP_OBJTAB_ENTRIES_LOG2 h

/-- An object-table entry as COUNT, TYPE, REF, or the status its read gives (R54). -/
def Device.objRead (d : Device) (h handle : Nat) : Except Nat (Nat × Nat × Nat) :=
  if !d.objIn h handle then .error 4
  else match d.readVa h (d.objAddr h handle) 16 with
    | .ok b => .ok (fieldLe b 0 4, fieldLe b 4 1, fieldLe b 8 8)
    | .error e => .error e

/-- Write an object-table entry: COUNT, TYPE, REF, reserved bytes 0. -/
def Device.objWrite (d : Device) (h handle count type ref : Nat) : Device :=
  (d.writeVa h (d.objAddr h handle) (le 4 count ++ le 1 type ++ le 3 0 ++ le 8 ref)).getD d

/-- What reading an entry of the object table does to the domain. -/
def Device.objSeen (d : Device) (h handle : Nat) : Device := if d.objIn h handle then d.seenVa h (d.objAddr h handle) 16 else d

/-- The check of R54 for one handle: none when it passes, else the status. -/
def Device.objCheck (d : Device) (h handle : Nat) : Option Nat :=
  match d.objRead h handle with
  | .error e => some e
  | .ok (c, t, _) => if t = 0 ∨ c = 0 then some 4 else none

/-- Whether the release ring is full (R55). -/
def Device.relFull (d : Device) (h : Nat) : Bool :=
  ringDiff 32 (d.rd Reg.HOOP_RELQ_PTR_TAIL h) (d.rd Reg.HOOP_RELQ_PTR_HEAD h) ≥ 2 ^ d.rd Reg.HOOP_RELQ_SIZE_LOG2 h

/-- Write one OBJECT_RELEASED record into the ring (Table 2-8): the write does not fail (R55). -/
def Device.relWrite (d : Device) (h : Nat) (r : Rel) : Device :=
  let t := d.rd Reg.HOOP_RELQ_PTR_TAIL h
  let va := d.rd Reg.HOOP_RELQ_BASE h * 4096 + 16 * (t % 2 ^ d.rd Reg.HOOP_RELQ_SIZE_LOG2 h)
  let d := d.writeSeg 4 9 (d.seg h (d.slotOf h (d.curMap h) (bits va 47 44))) (va % 2 ^ 44) (le 4 r.handle ++ le 1 r.type ++ le 3 0 ++ le 8 r.tick)
  d.wr Reg.HOOP_RELQ_PTR_TAIL h (t + 1)

/-- Move held releases into the ring while it has room (R55). -/
def Device.relDrain (d : Device) (h : Nat) : List Rel → Device
  | [] => (d.setHx h { d.hx h with held := [] }).wr Reg.HOOP_STATUS_RELQ_FULL h 0
  | r :: t =>
    if d.relFull h then (d.setHx h { d.hx h with held := r :: t }).wr Reg.HOOP_STATUS_RELQ_FULL h 1
    else Device.relDrain (d.relWrite h r) h t

/-- Post a release, or hold it on chip while the ring is full (R55). -/
def Device.relPost (d : Device) (h handle type : Nat) : Device :=
  d.relDrain h ((d.hx h).held ++ [⟨handle, type, d.rd Reg.HOOP_TICKS_TICKS h⟩])

/-- A recipe leaves the store (R78). -/
def Device.dropRecipe (d : Device) (h r : Nat) : Device :=
  { d with work := { d.work with recipes := Tab.erase d.work.recipes (h * 1024 + r) } }.wr Reg.HOOP_RECIPES_LOADED h
    (d.rd Reg.HOOP_RECIPES_LOADED h - 1)

/-- Subtract 1 from COUNT of a handle, releasing the object at 0 (R52 steps 3, 4 and 6, R53, R54, R309). The fuel bounds
the recipes that hold one another; `q` is the queue that an underflow names (R48), 0xFFFF for none. -/
def Device.objSub (d : Device) (h q : Nat) : Nat → Nat → Device
  | 0, _ => d
  | fuel + 1, handle =>
    let d := d.objSeen h handle
    match d.objRead h handle with
    | .error _ => d
    | .ok (c, t, ref) =>
      if c = 0 then d.post { code := 0x18, hoop := h, queue := q, object := handle }
      else if c > 1 then d.objWrite h handle (c - 1) t ref
      else if t = 3 then
        let d := d.objWrite h handle 0 t ref
        d.modSess ref (fun s => { s with rel := true, state := if s.state = 1 then 2 else s.state })
      else
        let d := d.objWrite h handle 0 0 ref
        let d := if t = 2 then
            match d.recipe? h (ref % 1024) with
            | none => d
            | some r => r.objects.foldl (fun d o => Device.objSub d h q fuel o) (d.dropRecipe h (ref % 1024))
          else d
        d.relPost h handle t

/-- Subtract 1 for each handle of a list. -/
def Device.objDrop (d : Device) (h q : Nat) (handles : List Nat) : Device :=
  handles.foldl (fun d x => d.objSub h q 1025 x) d

/-- The driver's own subtraction has taken COUNT of a handle from 1 to 0 (R52 steps 3, 5 and 6, R309): no record is posted; a recipe leaves
the store and drops its references, a session goes the way of R309. -/
def Device.driverSub (d : Device) (h handle : Nat) : Device :=
  let d := d.objSeen h handle
  match d.objRead h handle with
  | .error _ => d
  | .ok (_, t, ref) =>
    if t = 3 then d.modSess ref (fun s => { s with rel := true, state := if s.state = 1 then 2 else s.state })
    else if t = 2 then
      match d.recipe? h (ref % 1024) with
      | none => d
      | some r => (d.dropRecipe h (ref % 1024)).objDrop h 0xFFFF r.objects
    else d

/-- Add 1 to COUNT of a handle (R52 step 3). -/
def Device.objAdd (d : Device) (h handle : Nat) : Device :=
  let d := d.objSeen h handle
  match d.objRead h handle with
  | .error _ => d
  | .ok (c, t, ref) => d.objWrite h handle (c + 1) t ref

/-! Entries and completion records -/

def entOp (b : Bytes) : Nat := fieldLe b 0 1
def entNobj (b : Bytes) : Nat := fieldLe b 2 1 % 16
/-- The handles that an entry names: HANDLE[0] to HANDLE[NOBJ − 1], at most 8 (R63). -/
def entHandles (b : Bytes) : List Nat := (List.range (Nat.min (entNobj b) 8)).map (fun i => fieldLe b (32 + 4 * i) 4)

/-- The 32 bytes of a completion record (Table 3-14). -/
def Device.recBytes (d : Device) (q : Nat) (e : Entry) (status : Nat) : Bytes :=
  let x := d.queue q
  le 4 (fieldLe e.bytes 4 4) ++ le 2 status ++ le 1 (entOp e.bytes)
    ++ le 1 (x.hoop + 64 * b2n e.err + 128 * b2n (e.ptr.testBit x.sizeLog2))
    ++ le 2 q ++ le 2 e.node ++ le 4 e.ptr ++ le 8 e.result ++ le 8 (d.time x.hoop)

/-- Whether the global ring, and the hoop's view when enabled, can take a COMPLETION_LOST record (R422). -/
def Device.canTakeLost (d : Device) (h : Nat) : Bool :=
  let room := fun r => ringDiff 32 (d.errTail r) (d.errHead r) + (if (d.errRing r).drops.isEmpty then 0 else 1) < 2 ^ d.errLog2 r
  room 8 && (d.rd Reg.HOOP_ERRQ_ENABLE h == 0 || room h)

/-- The hoop that a completion record names (Table 3-14). -/
def recHoop (b : Bytes) : Nat := fieldLe b 7 1 % 8

/-- Post the lost records of a queue, in order, while the rings can take them (R95, R422). -/
def Device.flushLost (d : Device) (q : Nat) : List Bytes → Device
  | [] => d.modQueue q (fun x => { x with lost := [] })
  | b :: t =>
    if d.canTakeLost (recHoop b) then
      Device.flushLost (d.post { code := 0x10, hoop := recHoop b, queue := q, pointer := fieldLe b 12 4, detail := b }) q t
    else d.modQueue q (fun x => { x with lost := b :: t })

/-- A queue enters COMPLETION_FAULT at one of its records: it stops fetching, and that record and every later one are lost; earlier ones
still await their confirming reads (R95). A queue that has been destroyed stays in NONE. -/
def Device.completionFault (d : Device) (q : Nat) (r : CRec) : Device :=
  let x := d.queue q
  let kept := x.recs.takeWhile (fun y => decide (y ≠ r))
  let d := d.setQueue q { x with state := if x.state = 0 then 0 else 3, recs := kept }
  d.flushLost q (x.lost ++ (x.recs.drop kept.length).map (·.data))

/-- Write the records of a queue that are due, at most 64 unconfirmed at a time (R94). -/
def Device.writeRecs (d : Device) (q : Nat) : Nat → Device
  | 0 => d
  | fuel + 1 =>
    let x := d.queue q
    match x.recs.find? (fun r => r.tag.isNone) with
    | none => d
    | some r =>
      if (x.recs.filter (fun r => r.tag.isSome)).length ≥ 64 then d
      else
        let fn := d.ownerFn x.hoop
        let slot := d.slotOf x.hoop (d.curMap x.hoop) (bits r.addr 47 44)
        let s := d.seg x.hoop slot
        let toHost := s.valid && s.tier == 2
        if toHost && !d.mayMaster fn then d.completionFault q r
        else match d.writeVa x.hoop r.addr r.data with
          | none => d.completionFault q r
          | some d =>
            if r.conf && toHost then
              let tag := d.fresh
              let d := d.openRead { kind := 1, a := q, b := r.ptr, c := 0, fn := fn, addr := s.base + r.addr % 2 ^ 44 } 0
              let d := d.modQueue q (fun x => { x with recs := x.recs.takeWhile (fun y => y.tag.isSome)
                ++ { r with tag := some tag } :: (x.recs.dropWhile (fun y => y.tag.isSome)).drop 1 })
              Device.writeRecs d q fuel
            else
              let d := d.modQueue q (fun x => { x with recs := x.recs.erase r })
              let d := if r.irq then d.sendVector r.fn r.vec else d
              Device.writeRecs d q fuel

/-- The completion record of an entry that retires (R90 to R95). -/
def Device.complete (d : Device) (q : Nat) (e : Entry) (status : Nat) : Device :=
  let flags := fieldLe e.bytes 1 1
  if !flags.testBit 0 then d
  else
    let x := d.queue q
    let b := d.recBytes q e status
    if x.state = 3 then d.flushLost q (x.lost ++ [b])
    else
      let r : CRec := ⟨e.ptr, x.completion + 32 * (e.ptr % 2 ^ x.sizeLog2), b, flags.testBit 1, x.confirmed, x.vecFn, x.vector, none⟩
      (d.setQueue q { x with recs := x.recs ++ [r] }).writeRecs q 66

/-- Statuses that post no record (R71). -/
def quietStatus (s : Nat) : Bool := s == 0 || s == 1 || s == 5 || s == 6 || s == 7

/-! Slots -/

/-- The slot that a queue holds. -/
def Device.slotOfQueue (d : Device) (q : Nat) : Option Nat :=
  (List.range 128).find? (fun s => (d.slot s).state != 0 && (d.slot s).queue == q)

/-- A slot enters a state (R74). -/
def Device.setSlotState (d : Device) (s st : Nat) : Device :=
  if (d.slot s).state = st then d else d.setSlot s { d.slot s with state := st, since := d.clock.now }

/-- A wait has ended: a slot in WAIT returns to FETCH, so that it is no victim (R35, Table 3-7). -/
def Device.slotResumes (d : Device) (q : Nat) : Device :=
  match d.slotOfQueue q with
  | some s => if (d.slot s).state = 4 then d.setSlotState s 1 else d
  | none => d

/-- End an entry with a status; it retires by ENTRY_RETIRE (R71, R90). -/
def Device.finish (d : Device) (q id status : Nat) (result : Nat := 0) (node : Nat := 0xFFFF) : Device :=
  (d.modQueue q (fun x => { x with entries := x.entries.map (fun e =>
    if e.id = id ∧ e.done = none then { e with started := true, done := some status, result := result, node := node, at_ := d.clock.now }
    else e) })).slotResumes q

/-- HOOP_WHEY shows the descriptors queued, and those executed (R300). -/
def Device.wheyCount (d : Device) (h : Nat) (executed : Bool) : Device :=
  let d := d.wr Reg.HOOP_WHEY_QUEUED h (d.hx h).whey.length
  if executed then d.wr Reg.HOOP_WHEY_DONE h ((d.rd Reg.HOOP_WHEY_DONE h + 1) % 2 ^ 32) else d

/-- Hoop virtual addresses of a fence word and an event word (R50, R70). -/
def Device.fenceVa (d : Device) (h i : Nat) : Nat := d.rd Reg.HOOP_FENCES_BASE h * 4096 + 8 * i
def Device.eventBase (d : Device) (h : Nat) : Nat :=
  d.rd Reg.HOOP_FENCES_BASE h * 4096 + roundUp (10 * d.rd Reg.HOOP_FENCES_FENCES h) 64
def Device.eventVa (d : Device) (h i : Nat) : Nat := d.eventBase h + 8 * i

/-- Read and write a 64-bit word of a hoop (fences, events). -/
def Device.word (d : Device) (h va : Nat) : Except Nat Nat :=
  match d.readVa h va 8 with
  | .ok b => .ok (ofLe b)
  | .error e => .error e
def Device.setWord (d : Device) (h va v : Nat) : Device := (d.writeVa h va (le 8 v)).getD d

/-- Remove a retired entry, move the read pointer past a chain that has ended, and let the slot go idle (R66, R74). -/
def Device.dropEntry (d : Device) (q id : Nat) : Device :=
  d.modQueue q (fun x => { x with entries := x.entries.filter (·.id != id) })

/-- Pointer and first handle of an entry, as the record of an error that it met names them; 0xFFFFFFFF where it names no object (Table 16-8). -/
def Entry.who (e : Entry) : Nat × Nat := (e.ptr, if entNobj e.bytes = 0 then 0xFFFFFFFF else fieldLe e.bytes 32 4)

/-- The same by queue and entry number. -/
def Device.entWho (d : Device) (q id : Nat) : Nat × Nat :=
  (((d.queue q).entries.find? (fun e => e.id == id)).map Entry.who).getD (0xFFFFFFFF, 0xFFFFFFFF)

/-- Pointer and first handle of the LAUNCH_RECIPE of an instance. -/
def Device.nodeWho (d : Device) (i : Nat) : Nat × Nat :=
  match d.inst? i with
  | some s => (s.ptr, (d.entWho s.queue s.entry).2)
  | none => (0xFFFFFFFF, 0xFFFFFFFF)

/-- An entry whose status is settled retires (R52, R54, R71, R90): record, references, completion record, vector. -/
def Device.retireAs (d : Device) (q : Nat) (e : Entry) (status : Nat) : Device :=
  let h := (d.queue q).hoop
  let d := d.reportFailed
  let loud := !quietStatus status && !e.fault
  let e1 := if loud then { e with err := true } else e
  let d := if loud then
      d.post { code := 0x01, hoop := h, queue := q, pointer := e.ptr,
               object := e.who.2,
               detail := d.recBytes q e1 status }
    else d
  let d := d.objDrop h q ((entHandles e.bytes).filter (fun x => !e.skip.contains x))
  (d.complete q e1 status).dropEntry q e.id

end Sys2Proof.Machine
end

