-- ==== Sys2Proof/Machine/PowerOps.lean ====
section
/-! DEFINITION. The power and thermal controller (chapter 18): estimates, operating points, duty cycling, shutdown. -/

namespace Sys2Proof.Machine

def Device.setPower (d : Device) (p : Power) : Device := { d with power := p }
def Device.point (d : Device) : Nat := d.rd Reg.POWER_STATUS_POINT
def Device.cap (d : Device) : Nat := d.rd Reg.POWER_MEAS_CAP_W
def Device.deterministic (d : Device) : Bool := d.rd Reg.POWER_STATUS_MODE == 1
def Device.distrust (d : Device) : Bool := d.rd Reg.POWER_STATUS_DISTRUST == 1
def Device.warmup (d : Device) : Bool := d.rd Reg.POWER_STATUS_WARMUP == 1

/-- F(q), the power column of Table 18-1, in W. -/
def fullPower (q : Nat) : Nat := ([2400, 2230, 2040, 1880, 1720, 1570, 1430, 1300, 1180].drop q).headD 1180

/-- The reading of a sensor point, 1/16 °C (R465). -/
def Device.temp (d : Device) (n : Nat) : Int := signed 16 (d.rd Reg.THERM_POINT_TEMP n)

/-- The hottest valid reading among some points, if any is valid. -/
def Device.hottest (d : Device) (points : List Nat) : Option Int :=
  (points.filter (fun n => d.rd Reg.THERM_POINT_VALID n == 1)).foldl (fun m n => some (match m with
    | none => d.temp n
    | some t => max t (d.temp n))) none

def allPoints : List Nat := List.range 168

/-- The activity that E takes: at its maximum during warm-up (R458). -/
def Device.activity (d : Device) : List Nat := if d.warmup then Config.maxActivity d.point else d.power.activity

/-- The activity terms of E at a point, each multiplied by its coefficient, in 2^-40 W (R457). -/
def activityPower (deterministic : Bool) (q : Nat) (acts : List Nat) : Nat :=
  (acts.mapIdx (fun i a => a * Config.powerCoef deterministic q i)).foldl (· + ·) 0

/-- E at a point: the static term for the point and the hottest sensor point, plus the activity terms, in W rounded down (R457; log entry 12). -/
def Device.estimateOf (d : Device) (q : Nat) (acts : List Nat) : Nat :=
  Config.powerStatic d.deterministic q ((d.hottest allPoints).getD 0) + activityPower d.deterministic q acts / 2 ^ 40

/-- E at a point, under the present activity (R457). -/
def Device.estimate (d : Device) (q : Nat) : Nat := d.estimateOf q d.activity

/-- An activity with every core idle: no core-busy ic and no press-busy ac (R462). -/
def idleActivity (acts : List Nat) : List Nat := acts.mapIdx (fun i a => if i = 0 ∨ 5 ≤ i then 0 else a)

/-- How many measurements the mean of R459 takes, at least 1. -/
def Device.scale (d : Device) : Nat := Nat.max 1 d.power.deltas.length

/-- P(q) times 10 × scale: the estimate, with the mean of M − Ē in PERFORMANCE mode (R459). -/
def Device.predict (d : Device) (e : Nat) : Int :=
  ((10 * d.scale * e : Nat) : Int) + (if d.deterministic then 0 else d.power.deltas.foldl (· + ·) 0)

/-- Whether P(q) ≤ num/den × T (R459); in distrust T is 0.9 × cap and P(q) is M × F(q) / F(present point) (R460). -/
def Device.fits (d : Device) (num den q : Nat) : Bool :=
  if d.distrust then
    d.rd Reg.POWER_MEAS_MEASURED_W * fullPower q * 10 * den ≤ 9 * d.cap * fullPower d.point * num
  else d.predict (d.estimate q) * (den : Nat) ≤ ((10 * d.scale * d.cap * num : Nat) : Int)

/-- The floor in W, rounded down (R462). -/
def Device.floorW (d : Device) : Nat :=
  if d.distrust then d.rd Reg.POWER_MEAS_MEASURED_W * fullPower 8 / fullPower d.point
  else (d.predict (d.estimate 8) / ((10 * d.scale : Nat) : Int)).toNat

/-- P_hold in W, rounded down (R462). -/
def Device.holdW (d : Device) : Nat :=
  (d.predict (d.estimateOf 8 (idleActivity d.activity)) / ((10 * d.scale : Nat) : Int)).toNat

/-- T in W (R459, R460). -/
def Device.target (d : Device) : Nat := if d.distrust then 9 * d.cap / 10 else d.cap

/-- A in 1/16ths (R462). -/
def Device.dutyA (d : Device) : Nat :=
  let t := d.target
  let f := d.floorW
  let p := d.holdW
  if f ≤ p ∨ t ≤ p then 1 else Nat.min 15 (Nat.max 1 (16 * (t - p) / (f - p)))

/-- A as it governs sub-slots: lowered by the thermal rule (R466); 16 leaves every sub-slot open. -/
def Device.effectiveA (d : Device) : Nat :=
  Nat.max 1 ((if d.rd Reg.POWER_STATUS_BELOW_FLOOR = 1 then d.rd Reg.POWER_STATUS_DUTY else 16) - d.power.thermalDuty)

/-- The credit rule at the start of a sub-slot of length `len`: credit in 1/16ths, and whether the sub-slot is open (R462). -/
def dutyStep (a credit len : Nat) : Nat × Bool :=
  let c := credit + a * len
  if 16 * len ≤ c then (c - 16 * len, true) else (c, false)

/-- Select a point: a step down begins at once and ends a step up in progress (R454, R459). -/
def Device.goTo (d : Device) (q : Nat) : Device :=
  let pt := d.point
  d.setPower { d.power with goal := q, moving := if pt < q then some (pt + 1) else if q < pt then some (pt - 1) else none }

/-- The limit that OP_MAX and the thermal ceiling set (R459). -/
def Device.setCeiling (d : Device) : Device :=
  d.wr Reg.POWER_STATUS_CEILING 0 (Nat.max (d.rd Reg.POWER_STATUS_OP_MAX) d.power.ceil)

/-- The decision of R459 (R460 in distrust): down at once, up by one point per 100 µs with the margin of step 3. A selection no faster than the present point ends a step
up; one that comes while steps down go on moves their goal, but a step down that has begun ends (R454), and no faster goal is taken while R461 or R464 forbid one. -/
def Device.decide (d : Device) : Device :=
  let pt := d.point
  let ceil := d.rd Reg.POWER_STATUS_CEILING
  let q := (((List.range 9).filter (fun q => ceil ≤ q)).find? (fun q => d.fits 1 1 q)).getD 8
  let now := d.clock.now
  let due : Bool := match d.power.upAt with
    | none => true
    | some t => t + 100000 ≤ now
  match d.power.moving with
  | some m =>
    if pt < m then d.setPower { d.power with goal := if now < d.power.holdUntil then Nat.max q d.power.goal else Nat.max q m }
    else if pt ≤ q then d.goTo q
    else d
  | none =>
  if pt < q then d.goTo q
  else if q < pt && d.power.holdUntil ≤ now && due && d.fits 97 100 (pt - 1) then
    let d := d.goTo (pt - 1)
    d.setPower { d.power with upAt := some now }
  else d

/-- A CAP_BELOW_FLOOR record (Table 18-2). -/
def Device.postFloor (d : Device) (entering : Bool) : Device :=
  d.post { code := 0x49, detail := le 4 d.cap ++ le 4 d.floorW ++ le 4 d.holdW ++ le 1 (d.rd Reg.POWER_STATUS_DUTY) ++ le 1 (b2n entering) }

/-- Enter the state of R462 when T is below the floor, and note it for the tick. -/
def Device.checkFloor (d : Device) : Device :=
  let d := d.wr Reg.POWER_MEAS_FLOOR_W 0 (Nat.min d.floorW 65535)
  if d.fits 1 1 8 then d
  else
    let d := d.setPower { d.power with above := false }
    if d.rd Reg.POWER_STATUS_BELOW_FLOOR = 1 then d
    else
      let d := d.wr Reg.POWER_STATUS_BELOW_FLOOR 0 1
      let d := d.wr Reg.POWER_STATUS_DUTY 0 d.dutyA
      (d.setPower { d.power with credit := 0 }).postFloor true

/-- What a tick does to the controller: warm-up counts, POWER_MODE takes effect, A is formed anew or the state of R462 ends
(R456, R458, R462). -/
def Device.powerTick (d : Device) : Device :=
  let d := d.setPower { d.power with warm := d.power.warm + 1 }
  let d := match d.power.mode with
    | none => d
    | some (m, op) =>
      let d := (d.wr Reg.POWER_STATUS_MODE 0 m).wr Reg.POWER_STATUS_OP_MAX 0 op
      (d.setPower { d.power with mode := none }).setCeiling
  if d.rd Reg.POWER_STATUS_BELOW_FLOOR = 1 then
    if d.power.above then
      let d := d.wr Reg.POWER_STATUS_BELOW_FLOOR 0 0
      let d := d.wr Reg.POWER_STATUS_DUTY 0 0
      d.postFloor false
    else
      let d := d.setPower { d.power with above := true }
      d.wr Reg.POWER_STATUS_DUTY 0 d.dutyA
  else d

/-! Temperature -/

/-- The zone of a sensor point as THERM_LIMITS numbers it (R465). -/
def zoneOf (n : Nat) : Nat := if n < 128 then 0 else if n < 144 then 1 else 2

/-- The DETAIL of a THERMAL record (R466). -/
def thermalDetail (ev : Nat) (reading threshold : Int) : Bytes :=
  le 1 ev ++ le 1 0 ++ le 2 (unsigned 16 reading) ++ le 2 (unsigned 16 threshold)

/-- Post a THERMAL record; ALERT_N asserts (R466, R498). After a fatal event the error queue is not written (R249). -/
def Device.thermal (d : Device) (ev point : Nat) (reading threshold : Int) : Device :=
  let o : Occ := { code := 0x50, object := point, detail := thermalDetail ev reading threshold }
  (if d.live then d.post o else d.errCount o).alert

/-- Everything that the switched rails hold is lost: no work, no cache, device memory undefined (R249, R467, R491). -/
def Device.railsOff (d : Device) : Device :=
  { d with
    life := { d.life with rails := false, stopped := true }
    mem := Memory.undefinedSince d.fresh, fresh := d.fresh + 1
    bad := [], work := {}, cores := [], coh := {}, flow := {} }

/-- The message of a thermal shutdown (R417, Table 18-6). -/
def Device.tripMsg (d : Device) (ev point : Nat) (reading threshold : Int) : Out :=
  let o : Occ := { code := 0x50, object := point, detail := thermalDetail ev reading threshold }
  vendorMsg (le 1 0x79 ++ le 3 0 ++ le 4 0xFFFFFFFF ++ recordBytes o 1 (d.time 0) false false)

/-- Coolant loss that is detected in the fc of a trip: the record reports coolant loss (R467). -/
def Device.tripRenamed (d : Device) : Device :=
  match d.life.trip with
  | some (t, i) => if t = d.clock.now then { d with out := d.out.set i (d.tripMsg 4 0xFFFFFFFF 0 0), life := { d.life with trip := none } } else d
  | none => d

/-- The thermal shutdown of Table 18-6. -/
def Device.shutdown (d : Device) (ev point : Nat) (reading threshold : Int) : Device :=
  let o : Occ := { code := 0x50, object := point, detail := thermalDetail ev reading threshold }
  let at_ := d.out.length
  let d := ((d.errCount o).emit (d.tripMsg ev point reading threshold)).emit .aer
  let d := d.alert
  { d with pins := { d.pins with thermtrip := true }, life := { d.life with trip := if ev = 3 then some (d.clock.now, at_) else none } }.railsOff

/-- One point takes a sample: TEMP, the flags, warn and sensor-fault records, and its count toward a trip (R466). -/
def Device.sensor (d : Device) (n : Nat) (r : Option Int) : Device :=
  let z := zoneOf n
  let warn : Int := d.rd Reg.THERM_LIMITS_WARN z
  let thr : Int := d.rd Reg.THERM_LIMITS_THROTTLE z
  let trip : Int := d.rd Reg.THERM_LIMITS_TRIP z
  match r with
  | none =>
    let k := Tab.get 0 d.power.invalid n + 1
    let d := d.setPower { d.power with invalid := Tab.put 0 d.power.invalid n k, trips := Tab.erase d.power.trips n }
    let d := d.wr Reg.THERM_POINT_VALID n 0
    if k < 3 then d
    else
      let first := d.rd Reg.THERM_POINT_FAULT n = 0
      let d := (d.wr Reg.THERM_POINT_FAULT n 1).wr Reg.THERM_POINT_THROTTLE n 1
      let d := d.setPower { d.power with hot := if d.power.hot.contains n then d.power.hot else d.power.hot ++ [n] }
      if first then d.thermal 5 n (d.temp n) thr else d
  | some t =>
    let d := d.wr Reg.THERM_POINT_TEMP n (unsigned 16 t)
    let d := (d.wr Reg.THERM_POINT_VALID n 1).wr Reg.THERM_POINT_FAULT n 0
    let d := (d.wr Reg.THERM_POINT_WARN n (b2n (warn ≤ t))).wr Reg.THERM_POINT_THROTTLE n (b2n (thr ≤ t))
    let p := d.power
    let fresh := warn ≤ t && !p.warned.contains n
    let d := d.setPower { p with
      invalid := Tab.erase p.invalid n
      trips := if trip ≤ t then Tab.insert p.trips n (Tab.get 0 p.trips n + 1) else Tab.erase p.trips n
      warned := if t < warn - 48 then p.warned.filter (· != n) else if fresh then p.warned ++ [n] else p.warned
      hot := if thr ≤ t ∧ !p.hot.contains n then p.hot ++ [n] else p.hot }
    if fresh then d.thermal 0 n t warn else d

/-- The zones of Table 17-5 as lists of points. -/
def zonePoints (k : Nat) : List Nat :=
  if k < 4 then (List.range 32).map (· + 32 * k) else if k = 4 then (List.range 16).map (· + 128) else (List.range 24).map (· + 144)

/-- Whether every point is below THROTTLE − 3 °C (R466). -/
def Device.allCool (d : Device) : Bool :=
  allPoints.all (fun n => d.rd Reg.THERM_POINT_THROTTLE n == 0 && d.temp n < (d.rd Reg.THERM_LIMITS_THROTTLE (zoneOf n) : Int) - 48)

/-- A sample of every point (R465, R466, R439). -/
def Device.thermalSample (d : Device) (rs : List (Option Int)) : Device :=
  let before := d.power.hot
  let d := allPoints.foldl (fun d n => d.sensor n ((rs.drop n).headD none)) d
  let d := if d.allCool then d.setPower { d.power with hot := [] } else d
  let after := d.power.hot
  let thr := fun n => (d.rd Reg.THERM_LIMITS_THROTTLE (zoneOf n) : Int)
  let d := match before, after with
    | [], n :: _ =>
      (d.wr Reg.POWER_STATUS_THROTTLE 0 1).thermal 1 n (if d.rd Reg.THERM_POINT_FAULT n = 1 then thr n else d.temp n) (thr n)
    | n :: _, [] => (d.wr Reg.POWER_STATUS_THROTTLE 0 0).thermal 2 n (d.temp n) (thr n)
    | _, _ => d
  let d := (List.range 6).foldl (fun d k => match d.hottest (zonePoints k) with
    | some t => d.moduleSample (8 + k) t.toNat
    | none => d) d
  match List.find? (fun x => x.2 ≥ 2) d.power.trips with
  | some (n, _) => d.shutdown 3 n (d.temp n) (d.rd Reg.THERM_LIMITS_TRIP (zoneOf n))
  | none => d

/-- One 1 ms step of the thermal ceiling or of the thermal duty cycle (R466). -/
def Device.throttleStep (d : Device) : Device :=
  let p := d.power
  if allPoints.any (fun n => d.rd Reg.THERM_POINT_THROTTLE n == 1) then
    if p.ceil < 8 then (d.setPower { p with ceil := p.ceil + 1 }).setCeiling
    else d.setPower { p with thermalDuty := Nat.min 15 (p.thermalDuty + 1), credit := if d.effectiveA = 16 then 0 else p.credit }
  else if !d.allCool then d
  else if p.thermalDuty > 0 then d.setPower { p with thermalDuty := p.thermalDuty - 1 }
  else if p.ceil > 0 then (d.setPower { p with ceil := p.ceil - 1 }).setCeiling
  else d

/-! Measurement -/

/-- A POWER_MODEL_MISMATCH record (Table 18-2), with Ē rounded down. -/
def Device.postMismatch (d : Device) (m e : Nat) (entering : Bool) : Device :=
  d.post { code := 0x48, detail := le 4 m ++ le 4 e ++ le 4 d.cap ++ le 1 d.point ++ le 1 (b2n entering) }

/-- The comparison of a measurement with the mean of the estimates (R460). -/
def Device.compare (d : Device) (m k sum : Nat) : Device :=
  if d.warmup ∨ k = 0 then d
  else
    let diff := ((k * m : Nat) : Int) - (sum : Nat)
    let far := (100 * diff.natAbs : Nat) > 15 * d.cap * k
    let p := d.power
    if !d.distrust then
      let n := if far then p.outside + 1 else 0
      let d := d.setPower { p with outside := n, inside := 0 }
      if n < 8 then d
      else
        let d := (d.wr Reg.POWER_STATUS_DISTRUST 0 1).countSat Reg.POWER_EVENTS_MISMATCHES 0
        (d.setPower { d.power with outside := 0 }).postMismatch m (sum / k) true
    else
      let n := if far then 0 else p.inside + 1
      let d := d.setPower { p with inside := n }
      if n < 10000 then d
      else
        let d := d.wr Reg.POWER_STATUS_DISTRUST 0 0
        (d.setPower { d.power with inside := 0, outside := 0 }).postMismatch m (sum / k) false

/-- Attribution of a measurement to the hoops (R463). Where no activity is counted at all the quotient of R463 is not
stated: a free value (log entry 5). -/
def Device.attribute (d : Device) (m : Nat) (acts : List (List Nat)) : Device :=
  let hot := (d.hottest allPoints).getD 0
  let s := Config.powerStatic d.deterministic d.point hot
  let term := fun (a : List Nat) => activityPower d.deterministic d.point a
  let tot := (acts.map term).foldl (· + ·) 0
  (List.range 8).foldl (fun d h =>
    if d.hoopState h = 0 then d
    else if tot = 0 then (d.sample h 4 (Config.freeValue d.fresh).toNat).step1
    else
      let num : Int := 64 * (term ((acts.drop h).headD []) : Nat) * ((m : Int) - s) + ((d.rd Reg.HOOP_CFG_POWER_SHARE h * s * tot : Nat) : Int)
      d.sample h 4 (num / ((64 * tot : Nat) : Int)).toNat) d

/-- A measurement of the input power (R457, R460, R461, R463, R439). -/
def Device.measure (d : Device) (m : Nat) (acts : List (List Nat)) : Device :=
  let k := d.power.estimates.length
  let sum := d.power.estimates.foldl (· + ·) 0
  let d := d.wr Reg.POWER_MEAS_MEASURED_W 0 (Nat.min m 65535)
  let d := if k = 0 then d else d.wr Reg.POWER_MEAS_ESTIMATE_W 0 (Nat.min (sum / k) 65535)
  let p := d.power
  let d := d.setPower { p with
    estimates := []
    meas := (m :: p.meas).take 10
    deltas := if k = 0 then p.deltas else ((((10 * m : Nat) : Int) - ((10 * sum / k : Nat) : Int)) :: p.deltas).take 8 }
  let d := d.compare m k sum
  let d := if d.distrust then d.decide.checkFloor else d
  let d := if !d.warmup && d.power.meas.length == 10 && d.power.meas.foldl (· + ·) 0 > 10 * d.cap then
      let d := d.countSat Reg.POWER_EVENTS_CAP_EXCURSIONS 0
      let d := if d.point < 8 then d.goTo (Nat.max d.power.goal (d.point + 1)) else d
      d.setPower { d.power with holdUntil := Nat.max d.power.holdUntil (d.clock.now + 1000000) }
    else d
  (d.attribute m acts).moduleSample 14 m

/-- The core-rail voltage of point `q` on a rail, in mV: Table 18-1, the fused baseline offset and the ageing trim (R453, R470). -/
def Device.railMv (d : Device) (rail q : Nat) : Nat :=
  800 - 20 * q + d.rd Reg.AGEING_BASELINE_MV rail + d.rd Reg.AGEING_TRIM_MV rail

/-- The ic of a die in one ns, in 1/3000 ic (Table 18-1); while the die's clocks are stretched, by a droop or for want of margin, the period is 1.5 times as long
(R464, R468). -/
def Device.icRate (d : Device) (die : Nat) : Nat :=
  let r := 1600 - 100 * d.clockPoint
  if (d.power.stretched ||| d.life.short).testBit die then 2 * r else 3 * r

end Sys2Proof.Machine
end

