-- ==== Sys2Proof/Machine/StatPage.lean ====
section
/-! DEFINITION. Statistics pages (R430 to R440). -/

namespace Sys2Proof.Machine

/-- The 80 bytes of a histogram (R436). -/
def Hist.bytes (x : Hist) : Bytes :=
  (List.range 16).flatMap (fun j => le 4 (Tab.get 0 x.bins j)) ++ le 4 x.min ++ le 4 x.max ++ le 4 x.samples ++ le 4 0

/-- A histogram restarts empty, with the settings that waited (R430, R435). -/
def Hist.restart (x : Hist) : Hist :=
  match x.next with
  | some (s, r) => { shift := s, rate := r }
  | none => { shift := x.shift, rate := x.rate }

/-- The value of a counter of Table 17-1; CORE_BUSY_IC is kept in 1/3000 ic. -/
def counterOf (t : Tab Nat) (i : Nat) : Nat := if i = 0 then Tab.get 0 t i / 3000 else Tab.get 0 t i

/-- The statistics page of the interval that a tick ends (Table 17-2). `row` is its row, `ns` its length. -/
def Device.hoopPage (d : Device) (h row ns : Nat) (substitute : Bool) : Bytes :=
  let x := d.hstat h
  let tick := d.rd Reg.HOOP_TICKS_TICKS h
  let flags := b2n x.partialNext + 2 * b2n substitute + 4 * b2n x.perturbed + 8 * b2n x.held + 16 * b2n x.stopped + 32 * b2n x.traceLost
  le 8 tick ++ le 4 flags ++ le 4 (Nat.min ns (2 ^ 32 - 1)) ++ le 2 x.numflags ++ le 2 (d.rd Reg.HOOP_FLIP_APPLIED h)
    ++ le 1 (d.hoopState h) ++ le 1 row ++ le 2 0 ++ le 8 x.overrunSat ++ le 32 0
    ++ (List.range 24).flatMap (fun i => le 8 (counterOf x.counters i))
    ++ (List.range 16).flatMap (fun c => le 4 (Tab.get 0 x.errors c))
    ++ (List.range 16).flatMap (fun i => le 4 (Tab.get 0 x.watchHits i))
    ++ (List.range 16).flatMap (fun c => le 8 (Tab.get 0 x.byClass c))
    ++ (List.range 5).flatMap (fun k => (x.hist k).bytes)
    ++ List.replicate (4088 - 912) 0 ++ le 8 tick

/-- The module page (Table 17-5). -/
def Device.modulePage (d : Device) (ns : Nat) (substitute : Bool) : Bytes :=
  let st := d.stat
  let sum := fun i => (List.range 8).foldl (fun a h => a + counterOf (d.hstat h).counters i) (counterOf st.other i)
  le 8 d.clock.ticks ++ le 4 (b2n st.partialNext + 2 * b2n substitute + 4 * b2n st.perturbed) ++ le 4 (Nat.min ns (2 ^ 32 - 1)) ++ le 48 0
    ++ (List.range 24).flatMap (fun i => le 8 (sum i))
    ++ (List.range 10).flatMap (fun i => le 8 (Tab.get 0 st.ring i))
    ++ (List.range 8).flatMap (fun p => le 8 (Tab.get 0 st.other (100 + 2 * p)) ++ le 8 (Tab.get 0 st.other (101 + 2 * p)))
    ++ (List.range 16).flatMap (fun c => le 4 (Tab.get 0 st.errors c))
    ++ (List.range 7).flatMap (fun k => (Tab.get (histNew (8 + k)) st.hists (8 + k)).bytes)
    ++ List.replicate (4096 - 1088) 0

/-- Latch a hoop's page at a tick: keep it, write it where pages are enabled, restart the counts, and let STATS_CONFIG take
effect (R430 to R434). -/
def Device.latchHoop (d : Device) (row ns : Nat) (substitute : Bool) (h : Nat) : Device :=
  if d.hoopState h = 0 then d
  else
    let page := d.hoopPage h row ns substitute
    let tick := d.rd Reg.HOOP_TICKS_TICKS h
    let on := d.rd Reg.HOOP_STATS_ENABLE h = 1
    let d :=
      if on then
        match d.writeVa h (d.rd Reg.HOOP_STATS_BASE h * 2 ^ 18 + 4096 * (tick % 64)) page (who := 8) with
        | some d => d.wr Reg.HOOP_STATS_LAST h (tick % 64)
        | none => (d.wr Reg.HOOP_STATS_ENABLE h 0).wr Reg.HOOP_STATS_FAULT h 1
      else d
    let x := d.hstat h
    let d := d.setHstat h { x with
      counters := [], errors := [], watchHits := [], byClass := [], overrunSat := 0
      hists := x.hists.map (fun k => (k.1, k.2.restart))
      numflags := 0, partialNext := false
      held := d.hoopState h == 2, stopped := d.rd Reg.HOOP_WATCH_STOPPED h == 1, traceLost := false
      perturbed := d.perturbing
      next := none, page := page }
    match x.next with
    | none => d
    | some (en, base) =>
      let d := (d.wr Reg.HOOP_STATS_BASE h base).wr Reg.HOOP_STATS_ENABLE h (b2n en)
      if en then d.modHstat h (fun x => { x with partialNext := true }) else d

/-- Latch every page at a tick (R430, R438). -/
def Device.latch (d : Device) (row ns : Nat) (substitute : Bool) : Device :=
  let mp := d.modulePage ns substitute
  let d := { d with stat := { d.stat with page := mp, partialNext := false, perturbed := d.perturbing, errors := [], other := [], ring := [],
                                          hists := d.stat.hists.map (fun k => (k.1, k.2.restart)) } }
  (List.range 8).foldl (fun d h => d.latchHoop row ns substitute h) d

end Sys2Proof.Machine
end

