-- ==== Sys2Proof/Machine/WheelOps.lean ====
section
/-! DEFINITION. The wheel (R41 to R47), ticks, and segment-map flips (R333 to R340). -/

namespace Sys2Proof.Machine

/-- The current row and sub-slot of the wheel table. -/
def Device.wheelRow (d : Device) : WRow := (d.wheel.rows.drop (d.rd Reg.WHEEL_STATUS_ROW)).headD ⟨[(255, List.replicate 8 0xFFFF)]⟩
def Device.subMasks (d : Device) : List Nat := ((d.wheelRow.subs.drop (d.rd Reg.WHEEL_STATUS_SUBSLOT)).headD (255, [])).2

/-- Whether the current sub-slot's mask admits a class of a hoop (R42). -/
def Device.maskAdmits (d : Device) (h c : Nat) : Bool := ((d.subMasks.drop h).headD 0).testBit c

/-- The overrun debt of a class, in ns. -/
def Device.debt (d : Device) (h c : Nat) : Nat := (Tab.get (0, 0) (d.hx h).debt c).1
/-- Set the debt of a class from the present local time on. -/
def Device.setDebt (d : Device) (h c v : Nat) : Device :=
  d.setHx h { d.hx h with debt := if v = 0 then Tab.erase (d.hx h).debt c else Tab.insert (d.hx h).debt c (v, d.clock.now) }

/-- What is left of a debt: an open window of its class repays the time since the debt was set or the window began, whichever came
later (R46). -/
def Device.debtLeft (d : Device) (h c : Nat) (x : Nat × Nat) : Nat :=
  if d.maskAdmits h c && !d.wheel.held then x.1 - (d.clock.now - Nat.max d.wheel.subAt x.2) else x.1

/-- The gate of R43, with the holds of R46, R462 and R445. -/
def Device.admits (d : Device) (h c : Nat) : Bool :=
  d.maskAdmits h c && d.debt h c == 0 && !d.wheel.held && d.rd Reg.HOOP_WATCH_STOPPED h == 0

/-! Blocks of a kernel that have not been handed out -/

/-- The blocks of a grid (R101). -/
def Kernel.blocks (k : Kernel) : Nat := k.gx * k.gy * k.gz

/-- Whether every block of a kernel has been handed out. -/
def Kernel.allHanded (k : Kernel) : Bool := k.nextBlock ≥ k.blocks && k.runs.all (fun (x : Nat × List (Nat × Nat)) => x.2.isEmpty)

/-- Whether every block of a kernel has been handed out and has ended. -/
def Kernel.spent (k : Kernel) : Bool := k.allHanded && k.outstanding == 0

/-- The die of a kernel's home dispatcher (R83, R107). -/
def Kernel.home (k : Kernel) : Nat := match k.inst with
  | some (_, n) => n % 4
  | none => k.queue % 4

/-- The STAGGER_FC and RUN_BLOCKS that govern a kernel on a die: those in force at its first block there (R111). -/
def Device.dispCfg (d : Device) (k : Kernel) (die : Nat) : Nat × Nat :=
  match Tab.find? k.cfg die with
  | some c => c
  | none => (d.rd Reg.DISP_CFG_STAGGER_FC die, d.rd Reg.DISP_CFG_RUN_BLOCKS die)

/-- Claim runs for a die that is not the home, while it holds fewer than two and blocks are unclaimed (R107). -/
def Kernel.claim (k : Kernel) (die run : Nat) : Nat → Kernel
  | 0 => k
  | fuel + 1 =>
    let mine := Tab.get [] k.runs die
    if mine.length ≥ 2 ∨ k.nextBlock ≥ k.blocks then k
    else
      let e := Nat.min (k.nextBlock + run) k.blocks
      Kernel.claim { k with runs := Tab.put [] k.runs die (mine ++ [(k.nextBlock, e)]), nextBlock := e } die run fuel

/-- Every other dispatcher of the hoop's dies claims what it may hold (R107). Claims that fall together are taken in the order of the dies, and a
run has the RUN_BLOCKS in force when it is claimed, if the kernel has had no block on the die yet (DESIGN CHOICE, log entry 41). -/
def Device.claimRuns (d : Device) (k : Kernel) : Kernel :=
  (List.range 4).foldl (fun k die =>
    if die ≠ k.home ∧ bits (d.rd Reg.HOOP_CLUSTERS_CLUSTERS k.hoop) (8 * die + 7) (8 * die) ≠ 0 then k.claim die (d.dispCfg k die).2 2 else k) k

/-- The runs that the other dies have claimed cross the ring to the home dispatcher and back (R20). -/
def Device.claimTraffic (d : Device) (k k' : Kernel) : Device :=
  (List.range 4).foldl (fun d die =>
    (List.range ((Tab.get [] k'.runs die).length - (Tab.get [] k.runs die).length)).foldl (fun d _ => (d.ringCtl die k.home).ringCtl k.home die) d) d

/-- A kernel after the claims of the other dispatchers, with their messages (R20, R107). -/
def Device.claimFor (d : Device) (ki : Nat) (k : Kernel) : Device :=
  (d.claimTraffic k (d.claimRuns k)).setKernel ki (d.claimRuns k)

/-- The kernels of a hoop that are eligible claim runs for the dies on which it has clusters now (R107). -/
def Device.claimHoop (d : Device) (h : Nat) : Device :=
  (d.work.kernels.filter (fun (x : Nat × Kernel) => x.2.hoop == h && x.2.since.isSome && x.2.fault.isNone)).foldl
    (fun d (x : Nat × Kernel) => d.claimFor x.1 x.2) d

/-- The class of a kernel. -/
def Device.kernelClass (d : Device) (k : Kernel) : Nat := (d.queue k.queue).cls

/-- Units of P / 256 of a sub-slot (R45). -/
def WRow.length (r : WRow) (i : Nat) : Nat :=
  let e := fun j => ((r.subs.drop j).headD (255, [])).1
  if i = 0 then e 0 + 1 else e i - e (i - 1)

/-- The overrun that a kernel has run up to a local time is entered in it. -/
def Kernel.freeze (k : Kernel) (now : Nat) : Kernel :=
  { k with overrun := k.overrun + (match k.overSince with | some t => now - t | none => 0), overSince := none }

/-- The present sub-slot ends: debts of the classes it admitted are repaid by its length; a kernel's overrun up to now is
counted (R46). -/
def Device.subEnd (d : Device) : Device :=
  let now := d.clock.now
  let d := (List.range 8).foldl (fun d h =>
      if (d.hx h).debt.isEmpty then d
      else d.setHx h { d.hx h with debt := ((d.hx h).debt.map (fun x => (x.1, (d.debtLeft h x.1 x.2, now)))).filter (fun x => x.2.1 != 0) }) d
  { d with work := { d.work with kernels := d.work.kernels.map (fun (x : Nat × Kernel) => (x.1, x.2.freeze now)) } }

/-- Kernels whose first block the gate now admits become eligible, together (R43, R108), and the other dispatchers claim their runs (R107). The
moment is kept for the trace (Table 17-6). -/
def Device.admitKernels (d : Device) : Device :=
  let new := fun (k : Kernel) => k.since.isNone && d.admits k.hoop (d.kernelClass k)
  (d.work.kernels.filter (fun x => new x.2)).foldl (fun (d' : Device) x =>
    d'.claimFor x.1 { x.2 with since := some (d.stamp x.2.hoop), order := d.fresh })
    (if (Tab.vals d.work.kernels).any new then d.step1 else d)

/-- A sub-slot begins: its duty-cycle state, and the kernels that overrun in it (R45, R46, R462). A kernel that has not started is no longer
eligible where the gate does not admit it (R43, R108); one that loses and regains the gate within a sub-slot keeps its place (DESIGN CHOICE, log
entry 41). -/
def Device.subBegin (d : Device) : Device :=
  let now := d.clock.now
  let p := dutyStep d.effectiveA d.power.credit
    (d.wheelRow.length (d.rd Reg.WHEEL_STATUS_SUBSLOT) * d.rd Reg.WHEEL_STATUS_PERIOD_US)
  let full := d.effectiveA = 16
  let d := if full then d else d.setPower { d.power with credit := p.1 }
  let d := { d with wheel := { d.wheel with held := !full && !p.2, subAt := now } }
  let late := fun (k : Kernel) => k.started && !k.spent && !d.maskAdmits k.hoop (d.kernelClass k) && !d.wheel.held
  let hoops := ((Tab.vals d.work.kernels).filter late).map (·.hoop)
  let d := { d with work := { d.work with kernels := d.work.kernels.map (fun (i, k) =>
      (i, { k with overSince := if late k then some now else none
                   since := if k.started || d.admits k.hoop (d.kernelClass k) then k.since else none })) } }
  Device.admitKernels (hoops.foldl (fun (d : Device) h => d.wr Reg.HOOP_STATUS_OVERRUN h 1) d)

/-- A kernel has ended: its overrun is entered in the histogram and added to the debt of its class (R46). -/
def Device.settleOverrun (d : Device) (k : Kernel) : Device :=
  let o := (k.freeze d.clock.now).overrun
  if o = 0 then d
  else
    let c := d.kernelClass k
    let sum := d.debtLeft k.hoop c (Tab.get (0, 0) (d.hx k.hoop).debt c) + o
    let d := (d.sample k.hoop 3 o).setDebt k.hoop c (Nat.min sum 64000000)
    d.modHstat k.hoop (fun x => { x with overrunSat := x.overrunSat + (sum - 64000000) })

/-! Segment-map flips -/

/-- Whether a live entry of a hoop is bound to the map before the last application (R336, R337). -/
def Device.oldBound (d : Device) (h : Nat) : Bool :=
  d.work.queues.any (fun (_, q) => q.state != 0 && q.hoop == h &&
    q.entries.any (fun e => e.started && e.map != d.rd Reg.HOOP_FLIP_APPLIED h))

/-- The pending flips of a hoop take effect at a tick in the order in which they retired, unless an entry is bound to the older map; one that
retired in the fc of the tick waits (R28, R336). -/
def Device.applyFlips (d : Device) (h : Nat) : Device :=
  let x := d.hx h
  let ripe : Nat × Nat × Nat → Bool := fun f => f.2.2 < d.fcNow
  if !x.flips.any ripe || d.oldBound h then d
  else
    let old := (List.range 16).map (fun s => d.rd (Reg.HOOP_SEGMAP_MAP s) h)
    let rest := x.flips.filter (fun f => !ripe f)
    let d := (x.flips.filter ripe).foldl (fun d (a, b, _) =>
      let ma := d.rd (Reg.HOOP_SEGMAP_MAP a) h
      let mb := d.rd (Reg.HOOP_SEGMAP_MAP b) h
      (d.wr (Reg.HOOP_SEGMAP_MAP a) h mb).wr (Reg.HOOP_SEGMAP_MAP b) h ma) d
    let d := d.count Reg.HOOP_FLIP_APPLIED h
    let d := (d.wr Reg.HOOP_FLIP_PENDING h (b2n (!rest.isEmpty))).wr Reg.HOOP_FLIP_DRAINING h 1
    d.setHx h { d.hx h with flips := rest, oldMap := old }

/-- DRAINED takes the value of APPLIED (R337); the slots of flips that have taken effect are free again (R339). -/
def Device.flipDrained (d : Device) (h : Nat) : Device :=
  if d.hoopState h = 0 || d.oldBound h || d.rd Reg.HOOP_FLIP_DRAINED h == d.rd Reg.HOOP_FLIP_APPLIED h then d
  else
    let d := d.wr Reg.HOOP_FLIP_DRAINED h (d.rd Reg.HOOP_FLIP_APPLIED h)
    let d := d.wr Reg.HOOP_FLIP_DRAINING h 0
    let x := d.hx h
    d.setHx h { x with oldMap := [], flipSlots := x.flips.flatMap (fun (a, b, _) =>
      [d.rd (Reg.HOOP_SEGMAP_MAP a) h, d.rd (Reg.HOOP_SEGMAP_MAP b) h]) }

/-! The tick -/

/-- The part of a tick that concerns one hoop (R28, R36, R40, R47, R59, R336): pending shares, HOLD to ACTIVE where the
board's manager works, HOOP_TICKS, flips, and the age of its kernels. -/
def Device.tickHoop (d : Device) (managed : Bool) (h : Nat) : Device :=
  let x := d.hx h
  let d := match x.linkPend with
    | some v => d.wr Reg.HOOP_CFG_LINK_SHARE h v
    | none => d
  let d := match x.powerPend with
    | some v => d.wr Reg.HOOP_CFG_POWER_SHARE h v
    | none => d
  let d := d.setHx h { x with linkPend := none, powerPend := none }
  let enter := managed && d.hoopState h == 2
  let d := if enter then d.wr Reg.HOOP_CFG_STATE h 1 else d
  let d := if enter && x.fresh then (d.wr Reg.HOOP_TICKS_TICKS h 0).setHx h { d.hx h with fresh := false }
    else if x.fresh then d else d.count Reg.HOOP_TICKS_TICKS h
  d.applyFlips h

/-- The row after a tick: row 0 at tick E of a period change or after the last row (R41, R42, R44, R368). -/
def Device.tickRow (d : Device) (number : Nat) : Device :=
  let w := d.wheel
  let atE : Bool := match w.period with
    | some (_, e) => e ≤ number
    | none => false
  let d := match w.period with
    | some (p, e) => if e ≤ number then { d.wr Reg.WHEEL_STATUS_PERIOD_US 0 p with wheel := { w with period := none } } else d
    | none => d
  let row := d.rd Reg.WHEEL_STATUS_ROW
  if atE ∨ row + 1 ≥ w.rows.length then
    let d := match w.pending with
      | some rows => ({ d with wheel := { d.wheel with rows := rows, pending := none } }).wr Reg.WHEEL_STATUS_ROWS 0 (rows.length - 1)
      | none => d
    ((d.wr Reg.WHEEL_STATUS_ROW 0 0).wr Reg.WHEEL_STATUS_SUBSLOT 0 0).count Reg.WHEEL_STATUS_REVOLUTIONS 0
  else (d.wr Reg.WHEEL_STATUS_ROW 0 (row + 1)).wr Reg.WHEEL_STATUS_SUBSLOT 0 0

/-- A wheel tick of this module (R28): kernels age, hoops move on, statistics latch, the wheel advances a row, coalesced
errors are written, a sub-slot begins. `managed` says that the tick comes from a source with a working board manager. -/
def Device.tick (d : Device) (number : Nat) (managed substitute : Bool) : Device :=
  let row := d.rd Reg.WHEEL_STATUS_ROW
  let ns := d.clock.now - d.clock.tickAt
  let d := d.subEnd
  let d := { d with clock := { d.clock with tickAt := d.clock.now, ticks := d.clock.ticks + 1 },
                    klz := { d.klz with number := number, fresh := [] } }
  let older := fun (k : Kernel) => if k.started then { k with age := k.age + 1 } else k
  let d := { d with work := { d.work with
    kernels := d.work.kernels.map (fun (x : Nat × Kernel) => (x.1, older x.2))
    faulted := d.work.faulted.map (fun (x : Nat × Nat × Kernel) => (x.1, x.2.1, older x.2.2)) } }
  let d := (List.range 8).foldl (fun d h => if d.hoopState h = 0 || d.hoopState h = 5 then d else d.tickHoop managed h) d
  let d := d.latch row ns substitute
  let d := d.powerTick
  let d := d.wr Reg.DEBUG_STATUS_REMAINING 0 (d.rd Reg.DEBUG_STATUS_REMAINING - 1)
  let d := (List.range 9).foldl (fun d r => d.errTick r) d
  (d.tickRow number).subBegin

end Sys2Proof.Machine
end

