-- ==== Sys2Proof/Machine/LaneOps.lean ====
section
/-! DEFINITION. Blocks, threads and registers: register files, local store, scheduling entries (chapters 4 and 5). -/

namespace Sys2Proof.Machine

/-- The threads of a kernel's block, and its groups (R98). -/
def Kernel.threads (k : Kernel) : Nat := k.bx * k.byy * k.bz
def Kernel.groups (k : Kernel) : Nat := cdiv k.threads 32
/-- The local store of a block, rounded (R104). -/
def Kernel.local1k (k : Kernel) : Nat := roundUp k.local_ 1024
/-- The allocation per thread (R103). -/
def Kernel.alloc (k : Kernel) : Nat := if k.regs = 255 then 256 else k.regs
/-- Group places that a quarter offers (R103). -/
def Kernel.placesPerQuarter (k : Kernel) : Nat := Nat.min 16 (1024 / k.alloc)

/-- The number of blocks of a kernel resident on one core (R105). -/
def Kernel.resident (k : Kernel) : Nat :=
  let a := k.alloc
  let usable := 4 * Nat.min 16 (1024 / a) * 32 * a
  let g := k.groups
  let loc := k.split * 262144
  let r := if g = 0 then 0 else Nat.min (usable / (g * 32 * a)) (64 / g)
  let r := if k.local1k = 0 then r else Nat.min r (loc / k.local1k)
  Nat.min r 32

/-- The lanes of group `g` of a block of `threads` threads that hold a thread (R98). -/
def groupLanes (threads g : Nat) : Nat := 2 ^ (Nat.min 32 (threads - 32 * g)) - 1

/-- The lanes of a group that have not exited. -/
def Block.alive (b : Block) (g : Nat) : Nat :=
  groupLanes b.threads g - (groupLanes b.threads g &&& Tab.get 0 b.exited g)

/-- Whether every thread of a block has exited. -/
def Block.allExited (b : Block) : Bool := (List.range (cdiv b.threads 32)).all (fun g => b.alive g == 0)

def Block.groups (b : Block) : Nat := cdiv b.threads 32

/-! Registers -/

/-- A vector register of a thread; one that its block has not written holds a free value (R100), or 0 on a core that was scrubbed and has
seen no block end since (R38). -/
def Block.vreg (b : Block) (t n : Nat) : Nat :=
  Tab.get (if b.clean then 0 else (Config.freeCell b.epoch (t * 256 + n)).toNat % 2 ^ 32) b.v (t * 256 + n)

def Block.setV (b : Block) (t n v : Nat) : Block := { b with v := Tab.insert b.v (t * 256 + n) (v % 2 ^ 32) }

/-- A uniform register of a group; 0 until written (R100). -/
def Block.ureg (b : Block) (g n : Nat) : Nat := Tab.get 0 b.u (g * 64 + n)
def Block.setU (b : Block) (g n v : Nat) : Block := { b with u := Tab.put 0 b.u (g * 64 + n) (v % 2 ^ 32) }

/-- `w` consecutive registers as one number, the lowest-numbered least significant (R146). -/
def Block.vregs (b : Block) (t n : Nat) : Nat → Nat
  | 0 => 0
  | w + 1 => b.vreg t n + 2 ^ 32 * Block.vregs b t (n + 1) w
def Block.uregs (b : Block) (g n : Nat) : Nat → Nat
  | 0 => 0
  | w + 1 => b.ureg g n + 2 ^ 32 * Block.uregs b g (n + 1) w
def Block.setVs (b : Block) (t n v : Nat) : Nat → Block
  | 0 => b
  | w + 1 => Block.setVs (b.setV t n v) t (n + 1) (v / 2 ^ 32) w
def Block.setUs (b : Block) (g n v : Nat) : Nat → Block
  | 0 => b
  | w + 1 => Block.setUs (b.setU g n v) g (n + 1) (v / 2 ^ 32) w

/-- The lanes of a group whose predicate n is true: 0 names pt (R142). -/
def Block.pred (b : Block) (g n : Nat) : Nat := if n = 0 then 2 ^ 32 - 1 else Tab.get 0 b.p (g * 8 + n)
/-- Write a predicate in some lanes; a write of pt is discarded (R144). -/
def Block.setPred (b : Block) (g n mask val : Nat) : Block :=
  if n = 0 then b
  else { b with p := Tab.put 0 b.p (g * 8 + n) ((b.pred g n - (b.pred g n &&& mask)) ||| (val &&& mask)) }

/-- Draw from a thread's generator (R205, Table 7-4). -/
def Block.drawFor (b : Block) (t : Nat) : Block × Nat :=
  let g := draw (Tab.get 1 b.gens t)
  ({ b with gens := Tab.put 1 b.gens t g }, g)

/-! Local store -/

/-- The kernel that a core runs, and a resident block. -/
def Device.coreKernel (d : Device) (k : Nat) : Option Kernel := match (d.core k).kernel with
  | some i => d.kernel? i
  | none => none
def Device.block? (d : Device) (k p : Nat) : Option Block := (d.core k).block? p

/-- Size and core-local base of a block's allocation (R104, R218). -/
def Device.localSize (d : Device) (k : Nat) : Nat := ((d.coreKernel k).map Kernel.local1k).getD 0
def Device.localBase (d : Device) (k p : Nat) : Nat := p * d.localSize k

/-- What a byte of a block's local store that nothing has written since the block's start holds: a free value (R100), or 0 after a scrub (R38). -/
def Block.unwritten (b : Block) (x : Nat) : Byte := if b.clean then 0 else BitVec.ofNat 8 (Config.freeCell b.epoch (2 ^ 20 + x)).toNat

/-- A byte of a block's local store. -/
def Device.localByte (d : Device) (k p x : Nat) : Byte :=
  Tab.get (((d.block? k p).map (fun (b : Block) => b.unwritten x)).getD 0) (d.core k).loc (d.localBase k p + x)
def Device.localRead (d : Device) (k p x n : Nat) : Bytes := (List.range n).map (fun i => d.localByte k p (x + i))

/-- Put bytes in a local store. -/
def putLoc (t : Tab Byte) (a : Nat) : Bytes → Tab Byte
  | [] => t
  | b :: r => putLoc (Tab.insert t a b) (a + 1) r

/-- Write a block's local store; a 64-bit word that a write covers whole is good again (Table 8-3). -/
def Device.localWrite (d : Device) (k p x : Nat) (data : Bytes) : Device :=
  let a := d.localBase k p + x
  let n := data.length
  d.modCore k (fun c => { c with loc := putLoc c.loc a data,
                                 badLocal := c.badLocal.filter (fun w => !(a ≤ 8 * w && 8 * w + 8 ≤ a + n))
                                 softLoc := c.softLoc.filter (fun w => !(a ≤ 8 * w && 8 * w + 8 ≤ a + n)) })

/-- Whether a local read meets an uncorrectable word. -/
def Device.localBad (d : Device) (k p x n : Nat) : Bool :=
  let a := d.localBase k p + x
  (d.core k).badLocal.any (fun w => 8 * w < a + n && a < 8 * w + 8)

/-- A consumer reads local store: single-bit errors are corrected in place and counted, an uncorrectable word is counted (R233, R236). -/
def Device.localMet (d : Device) (k p x n : Nat) : Device :=
  let a := d.localBase k p + x
  let hit := fun (w : Nat) => 8 * w < a + n && a < 8 * w + 8
  let soft := (d.core k).softLoc.filter hit
  let d := if soft = [] then d
    else (d.modCore k (fun c => { c with softLoc := c.softLoc.filter (fun w => !hit w) })).countSat Reg.CORE_ECC_CORR k soft.length
  if (d.core k).badLocal.any hit then d.countSat Reg.CORE_ECC_UNCORR k else d

/-- Whether a local range lies in the block's allocation. -/
def Device.localIn (d : Device) (k x n : Nat) : Bool := x + n ≤ d.localSize k

/-! Scheduling entries -/

def Device.ent? (d : Device) (k e : Nat) : Option SEnt := Tab.find? (d.core k).ents e
def Device.setEnt (d : Device) (k e : Nat) (x : SEnt) : Device :=
  d.modCore k (fun c => { c with ents := Tab.insert c.ents e x })
def Device.dropEnt (d : Device) (k e : Nat) : Device := d.modCore k (fun c => { c with ents := Tab.erase c.ents e })

/-- The lowest free entry of a quarter (R112, R118). -/
def Core.freeEnt (c : Core) (q : Nat) : Option Nat := Tab.lowestFree c.ents (48 * q) 48

/-- The die and hoop of a core. -/
def coreDie (k : Nat) : Nat := k / 64
def Device.coreHoop (d : Device) (k : Nat) : Nat := ((d.coreKernel k).map (fun (x : Kernel) => x.hoop)).getD 0

/-- The module cluster of a core (R16). -/
def coreCluster (k : Nat) : Nat := k / 8

/-- What a trace record names for a waiting group (Table 17-7). -/
def Device.groupWaiter (d : Device) (k : Nat) (x : SEnt) : Waiter :=
  let q := ((d.coreKernel k).map (fun (y : Kernel) => y.queue)).getD 0xFFFF
  let b := ((d.block? k x.place).map (fun (y : Block) => y.lin)).getD 0
  { group := x.group, die := coreDie k, core := k, queue := q, who := b }

end Sys2Proof.Machine
end

