-- ==== Sys2Proof/Machine/CohMsg.lean ====
section
/-! DEFINITION. The accesses of cores, engines and ports to the coherent domain, with the records that errors leave (R234, R401). -/

namespace Sys2Proof.Machine

/-- What one line's read does to the domain and its counts, with the records it leaves. -/
def Device.cohRead1 (d : Device) (agent hoop : Nat) (allocate used : Bool) (n : Nat) : Device :=
  (d.lineRead agent hoop allocate used n).reportFailed

/-- What one line's write of `len` bytes does to the domain and its counts. -/
def Device.cohWrite1 (d : Device) (agent hoop : Nat) (allocate used : Bool) (n len : Nat) (m : Nat := 2 ^ 128 - 1) : Device :=
  (d.lineWrite agent hoop allocate used n len m).reportFailed

/-- What reading n bytes does to the domain. -/
def Device.cohRead (d : Device) (agent hoop a n : Nat) (allocate : Bool) (used : Bool := true) : Device :=
  (linesOf a n).foldl (fun d l => d.cohRead1 agent hoop allocate used l) d

/-- What writing n bytes does to the domain. -/
def Device.cohWrite (d : Device) (agent hoop a n : Nat) (allocate : Bool) (used : Bool := true) : Device :=
  (linesOf a n).foldl (fun d l => d.cohWrite1 agent hoop allocate used l (inLine a n l) (lineMask (Nat.max a (l * 128) - l * 128) (inLine a n l))) d

/-- What an atomic of `len` bytes at the home does to the domain (R160, R239). -/
def Device.cohAtomic (d : Device) (agent hoop a : Nat) (len : Nat := 8) : Device :=
  (d.lineAtomic agent hoop (a / 128) len (a % 128)).reportFailed

/-- Write device bytes as an agent: the domain first, then the bytes. -/
def Device.agentWrite (d : Device) (agent hoop a : Nat) (data : Bytes) (allocate : Bool) (used : Bool := true) : Device :=
  (d.cohWrite agent hoop a data.length allocate used).writeDev a data

end Sys2Proof.Machine
end

