-- ==== Sys2Proof/Machine/Update.lean ====
section
/-! DEFINITION. The update path (R323 to R328): the update descriptor and the step for one element. -/

namespace Sys2Proof.Machine

/-- An update descriptor (Table 13-1). -/
structure Upd where
  form : Nat
  gtype : Nat
  stype : Nat
  nesterov : Bool
  s1 : Bool
  s2 : Bool
  count : Nat
  hi : Nat
  hiOut : Nat
  lo : Nat
  grad : Nat
  a1 : Nat
  a2 : Nat
  step : Nat
  c : List Nat
  deriving DecidableEq, Repr

/-- Parse an update descriptor. -/
def parseUpd (b : Bytes) : Upd :=
  let f := fieldLe b 2 1
  { form := fieldLe b 0 1 % 4, gtype := fieldLe b 1 1 % 16, stype := fieldLe b 1 1 / 16, nesterov := f.testBit 0,
    s1 := f.testBit 1, s2 := f.testBit 2, count := fieldLe b 4 4, hi := fieldLe b 8 8, hiOut := fieldLe b 16 8,
    lo := fieldLe b 24 8, grad := fieldLe b 32 8, a1 := fieldLe b 40 8, a2 := fieldLe b 48 8, step := fieldLe b 56 4,
    c := (List.range 16).map (fun j => fieldLe b (64 + 4 * j) 4) }

/-- Element size of an FP32 (0) or BF16 (1) array. -/
def esize (t : Nat) : Nat := if t = 0 then 4 else 2

/-- The arrays in use, with whether each is HI_OUT: address and element size. -/
def Upd.arrays (u : Upd) : List (Nat × Nat) :=
  [(u.lo, 2), (u.grad, esize u.gtype)] ++ (if u.s1 then [(u.a1, esize u.stype)] else [])
    ++ (if u.s2 then [(u.a2, esize u.stype)] else [])

/-- Whether two byte ranges overlap. -/
def overlap (a n b m : Nat) : Bool := a < b + m && b < a + n

/-- Coefficients a form leaves unused (Table 13-2). -/
def unusedFrom (form : Nat) : Nat := if form = 0 then 5 else if form = 1 then 8 else 11

/-- Validation of an update descriptor (R325). -/
def updValid (b : Bytes) : Bool :=
  let u := parseUpd b
  let ranges := (u.hi, 2) :: u.arrays
  let outs := (u.hiOut, 2) :: u.arrays
  let pairsOk := fun (l : List (Nat × Nat)) =>
    (List.range l.length).all (fun i => (List.range i).all (fun j =>
      let x := (l.drop i).headD (0, 0)
      let y := (l.drop j).headD (0, 0)
      !overlap x.1 (x.2 * u.count) y.1 (y.2 * u.count)))
  fieldLe b 0 1 < 3 && u.gtype ≤ 1 && u.stype ≤ 1 && fieldLe b 2 1 < 8 && fieldLe b 3 1 == 0 && zeroAt b 60 4
  && u.count ≥ 1
  && (match u.form with
      | 0 => u.s1 && !u.s2
      | 1 => u.s1 && u.s2 && !u.nesterov
      | _ => !u.nesterov)
  && ((u.hi, 2) :: (u.hiOut, 2) :: u.arrays).all (fun x => x.1 % x.2 == 0)
  && (u.c.drop (unusedFrom u.form)).all (· == 0)
  && pairsOk ranges && pairsOk outs
  && (u.hi == u.hiOut || !overlap u.hi (2 * u.count) u.hiOut (2 * u.count))

/-- An FP32 operation with its flags, rounded to nearest even (R326). -/
def uMul (a b : Nat) : Nat × Nat :=
  let p := (fp32.decode a).mul (fp32.decode b)
  let r := fp32.deliver 0 false 0 p.1
  (r.1, r.2 ||| p.2)
def uFma (a b c : Nat) : Nat × Nat :=
  let p := (fp32.decode a).fma 0 (fp32.decode b) (fp32.decode c)
  let r := fp32.deliver 0 false 0 p.1
  (r.1, r.2 ||| p.2)
def uDiv (a b : Nat) : Nat × Nat := fp32.div (fp32.decode a) (fp32.decode b)
def uSqrt (a : Nat) : Nat × Nat := fp32.sqrt (fp32.decode a)
/-- The negative of an FP32 code. -/
def uNeg (a : Nat) : Nat := a ^^^ 0x80000000
/-- 1 − b. -/
def uOneMinus (b : Nat) : Nat × Nat := uFma (uNeg b) 0x3F800000 0x3F800000

/-- β^t by binary powering (R327); 32 turns at most. -/
def uPow : Nat → Nat → Nat → Nat → Nat → Nat × Nat
  | 0, p, _, _, fl => (p, fl)
  | fuel + 1, p, b, k, fl =>
    if k = 0 then (p, fl)
    else
      let m := uMul p b
      let q := uMul b b
      uPow fuel (if k % 2 = 1 then m.1 else p) q.1 (k / 2) (fl ||| q.2 ||| (if k % 2 = 1 then m.2 else 0))

/-- A bias correction factor 1 / (1 − β^t), 1 when t is 0 (R327, R328). -/
def uBias (beta step : Nat) : Nat × Nat :=
  if step = 0 then (0x3F800000, 0)
  else
    let p := uPow 33 0x3F800000 beta step 0
    let m := uOneMinus p.1
    let r := uDiv 0x3F800000 m.1
    (r.1, p.2 ||| m.2 ||| r.2)

/-- The new master and states of an element, with flags (R328): from m, g, s1, s2 in FP32. -/
def updForm (u : Upd) (m g s1 s2 : Nat) : Nat × Nat × Nat × Nat :=
  let c := fun j => (u.c.drop j).headD 0
  let g0 := uMul g (c 0)
  match u.form with
  | 0 =>
    let g1 := uFma (c 4) m g0.1
    let t := uMul (c 2) s1
    let n1 := uFma (c 3) g1.1 t.1
    let e := if u.nesterov then uFma (c 2) n1.1 g1.1 else (n1.1, 0)
    let r := uFma (uNeg (c 1)) e.1 m
    (r.1, n1.1, s2, g0.2 ||| g1.2 ||| t.2 ||| n1.2 ||| e.2 ||| r.2)
  | 1 =>
    let b1 := uBias (c 2) u.step
    let b2 := uBias (c 3) u.step
    let t1 := uMul (c 2) s1
    let n1 := uFma (c 6) g0.1 t1.1
    let t2 := uMul (c 7) g0.1
    let t3 := uMul (c 3) s2
    let n2 := uFma t2.1 g0.1 t3.1
    let h := uMul n1.1 b1.1
    let v := uMul n2.1 b2.1
    let r := uSqrt v.1
    let den := uFma r.1 0x3F800000 (c 4)
    let q := uDiv h.1 den.1
    let w := uFma (c 5) m q.1
    let o := uFma (uNeg (c 1)) w.1 m
    (o.1, n1.1, n2.1, g0.2 ||| b1.2 ||| b2.2 ||| t1.2 ||| n1.2 ||| t2.2 ||| t3.2 ||| n2.2 ||| h.2 ||| v.2 ||| r.2 ||| den.2
      ||| q.2 ||| w.2 ||| o.2)
  | _ =>
    let t1 := uMul (c 1) s1
    let n1 := uFma (c 2) g0.1 t1.1
    let t2 := uMul (c 4) g0.1
    let t3 := uMul (c 3) s2
    let n2 := uFma t2.1 g0.1 t3.1
    let t4 := uMul (c 5) g0.1
    let n := uFma (c 6) n1.1 t4.1
    let r := uSqrt n2.1
    let den := uFma (c 7) r.1 (c 8)
    let q := uDiv n.1 den.1
    let t5 := uMul (c 9) m
    let o := uFma (uNeg (c 10)) q.1 t5.1
    (o.1, n1.1, n2.1, g0.2 ||| t1.2 ||| n1.2 ||| t2.2 ||| t3.2 ||| n2.2 ||| t4.2 ||| n.2 ||| r.2 ||| den.2 ||| q.2 ||| t5.2 ||| o.2)

/-- An array element read as FP32: FP32 as it is, BF16 exactly (R326 step 2). -/
def asFp32 (t v : Nat) : Nat := if t = 0 then v else (convert 1 0 0 false 0 v).1

/-- The element step on raw values: HI, LO, GRAD, S1, S2 codes to HI_OUT, LO, S1, S2 codes and flags (R326). -/
def updStep (u : Upd) (hi lo g s1 s2 : Nat) : Nat × Nat × Nat × Nat × Nat :=
  let r := updForm u (unsplit hi lo) (asFp32 u.gtype g) (if u.s1 then asFp32 u.stype s1 else 0)
    (if u.s2 then asFp32 u.stype s2 else 0)
  let p := resplit r.1
  let o1 := if u.stype = 0 then (r.2.1, 0) else convert 0 1 0 false 0 r.2.1
  let o2 := if u.stype = 0 then (r.2.2.1, 0) else convert 0 1 0 false 0 r.2.2.1
  (p.1, p.2.1, o1.1, o2.1,
    r.2.2.2 ||| p.2.2)

/-- The accesses of one element: hoop virtual address, width, permission bit (R324, R325). -/
def Upd.accesses (u : Upd) (i : Nat) : List (Nat × Nat × Nat) :=
  let st : Bool → Nat → List (Nat × Nat × Nat) := fun on a =>
    if on then [(a + i * esize u.stype, esize u.stype, 3), (a + i * esize u.stype, esize u.stype, 4)] else []
  [(u.hi + 2 * i, 2, 3), (u.lo + 2 * i, 2, 3), (u.grad + i * esize u.gtype, esize u.gtype, 3), (u.hiOut + 2 * i, 2, 4),
   (u.lo + 2 * i, 2, 4)] ++ st u.s1 u.a1 ++ st u.s2 u.a2

/-- The accesses of the elements that lanes name: lane, address, width, permission. -/
def updAccesses (u : Upd) (idx : List (Nat × Nat)) : List (Nat × Nat × Nat × Nat) :=
  idx.flatMap (fun x => (u.accesses x.2).map (fun y => (x.1, y.1, y.2.1, y.2.2)))

end Sys2Proof.Machine
end

