-- ==== Sys2Proof/Machine/StreamDesc.lean ====
section
/-! DEFINITION. The stream descriptor: its fields, its runs, and its validation (R280 to R289, R330). -/

namespace Sys2Proof.Machine

/-- A stream descriptor (Table 11-1). -/
structure SD where
  mode : Nat
  srcRemote : Bool
  dstRemote : Bool
  srcLocal : Bool
  dstLocal : Bool
  derive_ : Bool
  toSession : Bool
  stype : Nat
  dtype : Nat
  rnd : Nat
  sat : Bool
  scale : Nat
  cache : Nat
  tindex : Nat
  tkind : Nat
  src : Nat
  dst : Nat
  dseed : Nat
  mspec : Nat
  dims : List (Nat × Int × Int)
  deriving DecidableEq, Repr

/-- Parse a stream descriptor. -/
def parseSd (b : Bytes) : SD :=
  let f := fieldLe b 1 1
  let g := fieldLe b 3 1
  let t := fieldLe b 4 4
  { mode := fieldLe b 0 1 % 16, srcRemote := f.testBit 0, dstRemote := f.testBit 1, srcLocal := f.testBit 2,
    dstLocal := f.testBit 3, derive_ := f.testBit 4, toSession := f.testBit 5, stype := fieldLe b 2 1 % 16,
    dtype := fieldLe b 2 1 / 16, rnd := g % 8, sat := g.testBit 3, scale := bits g 5 4, cache := bits g 7 6,
    tindex := t % 65536, tkind := bits t 31 30, src := fieldLe b 8 8, dst := fieldLe b 16 8, dseed := fieldLe b 24 4,
    mspec := fieldLe b 28 4,
    dims := (List.range 6).map (fun i => (fieldLe b (32 + 16 * i) 4, signed 48 (fieldLe b (36 + 16 * i) 6),
                                          signed 48 (fieldLe b (42 + 16 * i) 6))) }

def SD.dim (s : SD) (i : Nat) : Nat × Int × Int := (s.dims.drop i).headD (1, 0, 0)
def SD.count (s : SD) (i : Nat) : Nat := (s.dim i).1

/-- Offsets of runs of nested dimensions, outermost first. -/
def runsFrom : List (Nat × Int × Int) → List (Int × Int)
  | [] => [(0, 0)]
  | (c, a, b) :: t => (List.range c).flatMap (fun (i : Nat) => (runsFrom t).map (fun x => (x.1 + i * a, x.2 + i * b)))

/-- The number of runs, and the source and destination offset of run r (R281). -/
def SD.runCount (s : SD) : Nat := (List.range 5).foldl (fun n i => n * s.count (i + 1)) 1
def SD.runAt (s : SD) (r : Nat) : Int × Int :=
  ((List.range 5).foldl (fun (a : (Int × Int) × Nat) i =>
    let x := s.dim (i + 1)
    let k : Int := (a.2 % x.1 : Nat)
    ((a.1.1 + k * x.2.1, a.1.2 + k * x.2.2), a.2 / x.1)) ((0, 0), r)).1

/-- The source and destination offset of every run, in order (R281). -/
def SD.runs (s : SD) : List (Int × Int) := runsFrom ((List.range 5).map (fun i => s.dim (5 - i)))

/-- Elements of a scale block (R281). -/
def SD.block (s : SD) : Nat := if s.scale = 1 then 16 else 32
/-- Scale bytes of a run. -/
def SD.scales (s : SD) : Nat := if s.scale = 0 then 0 else s.count 0 / s.block
/-- Bytes of packed elements of a run on each side. -/
def SD.srcPack (s : SD) : Nat := s.count 0 * elemBits s.stype / 8
def SD.dstPack (s : SD) : Nat := s.count 0 * elemBits s.dtype / 8
/-- Bytes of a run on each side, scales with it (R281). -/
def SD.srcLen (s : SD) : Nat := s.srcPack + (if s.derive_ then 0 else s.scales)
def SD.dstLen (s : SD) : Nat := s.dstPack + (if s.mode = 1 ∧ s.derive_ = false then 0 else s.scales)

/-- The extent of a side's runs about its base: the lowest offset and the end. -/
def SD.extent (s : SD) (dst : Bool) : Int × Int :=
  let ds := (List.range 5).map (fun i => s.dim (i + 1))
  let stride := fun (x : Nat × Int × Int) => if dst then x.2.2 else x.2.1
  let reach := fun (x : Nat × Int × Int) => ((x.1 : Int) - 1) * stride x
  (ds.foldl (fun a x => a + min 0 (reach x)) 0,
   ds.foldl (fun a x => a + max 0 (reach x)) 0 + (if dst then s.dstLen else s.srcLen : Nat))

/-- Where a descriptor is started: hoop, die, whether by SSTART, the size of the block's allocation, its index in its entry or
node, the nodes of the instance for a copy node, and its address. -/
structure SCtx where
  hoop : Nat
  die : Nat
  sstart : Bool
  localSize : Nat := 0
  index : Nat := 0
  nodes : Option Nat := none
  addr : Nat := 0
  deriving DecidableEq, Repr

/-- Whether a local address range of a side lies in the allocation. -/
def SD.localOk (s : SD) (dst : Bool) (size : Nat) : Bool :=
  let a := if dst then s.dst else s.src
  let e := s.extent dst
  a < 2 ^ 32 && 0 ≤ (a : Int) + e.1 && (a : Int) + e.2 ≤ size

/-- K of Table 6-1, and the bytes of a tile row. -/
def pressK (code : Nat) : Nat := if code ≤ 2 then 128 else if code = 7 then 512 else 256
def pressRb (code : Nat) : Nat := pressK code * elemBits code / 8

/-- Whether every flag of byte 1 is 0. -/
def SD.noFlags (s : SD) : Bool :=
  !s.srcRemote && !s.dstRemote && !s.srcLocal && !s.dstLocal && !s.derive_ && !s.toSession

/-- Whether dimensions from `i` up have count 1. -/
def SD.ones (s : SD) (i : Nat) : Bool := (s.dims.drop i).all (fun x => x.1 == 1)

/-- Whether every stride is 0. -/
def SD.noStrides (s : SD) : Bool := s.dims.all (fun x => x.2.1 == 0 && x.2.2 == 0)

/-- The rules of R283 that every mode shares. -/
def SD.common (s : SD) (b : Bytes) (c : SCtx) : Bool :=
  fieldLe b 0 1 < 7 && fieldLe b 1 1 < 64 && s.stype ≤ 13 && s.dtype ≤ 13 && s.rnd ≤ 4 && s.scale ≤ 2 && s.cache ≤ 2
  && bits (fieldLe b 4 4) 29 16 == 0 && s.tkind ≤ 2
  && s.dims.all (fun x => 1 ≤ x.1) && (s.dim 0).2.1 == 0 && (s.dim 0).2.2 == 0
  && s.count 0 * elemBits s.stype % 8 == 0 && s.count 0 * elemBits s.dtype % 8 == 0
  && (s.scale == 0 || ((let t := if s.derive_ then s.dtype else s.stype; 3 ≤ t && t ≤ 7) && s.count 0 % s.block == 0))
  && (!(s.srcLocal || s.dstLocal) || c.sstart)
  && (!s.derive_ || s.mode == 1) && (!s.toSession || s.mode == 3)
  && (!(s.srcRemote || s.dstRemote) || s.mode ≤ 1) && !(s.srcRemote && s.dstRemote)
  && !(s.srcRemote && s.srcLocal) && !(s.dstRemote && s.dstLocal)
  && (s.tkind != 1 || (!c.sstart && s.tindex < c.index))
  && (s.tkind != 2 || (match c.nodes with | some n => s.tindex < n | none => false))
  && (s.extent false).2 - (s.extent false).1 ≤ 2 ^ 44 && (s.extent true).2 - (s.extent true).1 ≤ 2 ^ 44
  && c.addr % 128 == 0

/-- The rules of each mode (R283 to R289, R318, R330) but those of an update descriptor. -/
def Device.sdMode (d : Device) (s : SD) (c : SCtx) : Bool :=
  let locals := (!s.srcLocal || s.localOk false c.localSize) && (!s.dstLocal || s.localOk true c.localSize)
  match s.mode with
  | 0 => s.stype == s.dtype && s.mspec == 0 && locals
  | 1 => s.stype != s.dtype && s.stype != 12 && s.dtype != 12 && (!s.derive_ || (s.stype == 0 && s.scale != 0)) && s.mspec == 0 && locals
  | 2 =>
    let cl := bits s.mspec 4 0
    (d.rd Reg.HOOP_CLUSTERS_CLUSTERS c.hoop).testBit cl && cl / 8 == c.die && bits s.mspec 15 8 != 0 && !s.mspec.testBit 7
    && s.mspec < 65536 && 1 ≤ s.stype && s.stype ≤ 8 && s.count 0 == pressK s.stype && s.dst == 0 && s.dtype == s.stype && s.noFlags
  | 3 =>
    let a := if s.toSession then s.dst else s.src
    let side := fun (x : Nat × Int × Int) => if s.toSession then x.2.2 else x.2.1
    s.scale == 0 && (s.stype == s.dtype || (s.stype != 12 && s.dtype != 12)) && a < 2 ^ 56 && s.ones 2 && s.dims.all (fun x => side x == 0)
    && !(if s.toSession then s.dstLocal else s.srcLocal) && locals
  | 4 =>
    !c.sstart && s.src < 2 ^ 56 && s.ones 1 && s.noStrides && s.dst == 0 && s.stype == 0 && s.dtype == 0 && s.noFlags && s.mspec ≤ 1
  | 5 => s.dst == 0 && s.dtype == 0 && s.noFlags && s.scale == 0 && s.cache == 0 && s.mspec == 0
  | _ =>
    s.dst == 0 && s.stype == 0 && s.dtype == 0 && s.rnd == 0 && !s.sat && s.scale == 0 && s.noFlags && s.noStrides && s.ones 1
    && s.tkind != 2 && s.src % 128 == 0 && bits (d.rd Reg.HOOP_CLUSTERS_CLUSTERS c.hoop) (8 * c.die + 7) (8 * c.die) != 0

/-- Validation of a descriptor, but for an update descriptor's own rules (R283). -/
def Device.sdValid (d : Device) (b : Bytes) (c : SCtx) : Bool := (parseSd b).common b c && d.sdMode (parseSd b) c

/-- The segment of a side's range, checked whole at issue (R263, R285, R289): permissions, one of which is enough. -/
def Device.rangeSeg (d : Device) (eng h map base : Nat) (e : Int × Int) (need : List Nat) (hostOk session : Bool) :
    Device × Except XErr (Seg × Nat) :=
  if base ≥ 2 ^ 48 then (d, .error ⟨0x11, 0⟩)
  else
    let slot := d.slotOf h map (bits base 47 44)
    let o : Int := (base % 2 ^ 44 : Nat) + e.1
    if d.segClosed h slot then (d, .error segWait)
    else if !d.buffered eng (h * 32 + slot) && d.tableBad h slot then (d, .error ⟨0x60, 0⟩)
    else
      (d.touch eng (h * 32 + slot),
        if o < 0 then (if (d.seg h slot).valid then .error ⟨0x12, 0⟩ else .error ⟨0x11, 0⟩)
        else match d.checkSeg h slot o.toNat (e.2 - e.1).toNat need true session with
          | .error x => .error x
          | .ok s => if s.tier = 2 && !hostOk then .error ⟨0x11, 0⟩ else .ok (s, base % 2 ^ 44))

end Sys2Proof.Machine
end

