-- ==== Sys2Proof/Machine/Freeze.lean ====
section
/-! DEFINITION. The operations in progress of a press, its multicast groups, and the conditions that freeze its array (R182, R186 to R190). -/

namespace Sys2Proof.Machine

/-! Operations in progress -/

def Device.press (d : Device) (k : Nat) : Press := (d.core k).press
def Device.modPress (d : Device) (k : Nat) (f : Press → Press) : Device := d.modCore k (fun c => { c with press := f c.press })
def Device.modOp (d : Device) (k seq : Nat) (f : MxOp → MxOp) : Device :=
  d.modPress k (fun p => { p with ops := p.ops.map (fun o => if o.seq = seq then f o else o) })

/-- The MXSTREAM whose next column is due, the MXLDIN and the MXDRAIN in progress. -/
def Press.entering (p : Press) : Option MxOp := p.ops.find? (fun o => o.started && o.kind == 1 && o.taken < o.n)
def Press.loading (p : Press) : Option MxOp := p.ops.find? (fun o => o.started && o.kind == 0 && o.taken < 128)
def Press.draining (p : Press) : Option MxOp := p.ops.find? (fun o => o.started && o.kind == 3 && o.rows < 128)
/-- Whether an MXSTREAM is in progress: from its start until its last column has landed (R186). -/
def Press.streaming (p : Press) : Bool := p.ops.any (fun o => o.started && o.kind == 1 && o.landed < o.n)

/-- Half columns of a region that a drain reads in one ac (Table 6-4). -/
def MxOp.rate2 (o : MxOp) : Nat :=
  let b := elemBits o.type
  if b = 32 then (if o.global then 1 else 4) else if b = 16 then (if o.global then 2 else 8)
  else if b = 4 then (if o.global then 8 else 16) else (if o.global then 4 else 16)

/-! Freeze -/

/-- Whether the feeder of a core is dry: the column due comes from a channel of which the buffer holds none (R186, 1). -/
def Device.dry (d : Device) (k : Nat) : Bool :=
  match (d.press k).entering with
  | some o => o.src && (match (d.core k).cols with
    | [] => true
    | x :: _ => x.chan != o.a)
  | none => false

/-- Whether the landing of a core is blocked: the column due to land meets the bank that a drain reads in this ac, or a column that it has not
read (R186, 2). -/
def Device.blocked (d : Device) (k : Nat) : Bool :=
  let p := d.press k
  match p.pipe.find? (fun f => f.age == 22), p.draining with
  | some f, some o =>
    let read := o.taken / 2
    let last := (Nat.min (o.taken + o.rate2) (2 * o.cols) - 1) / 2
    ((List.range (last + 1 - read)).any (fun j => (o.first + read + j) / 128 == f.col / 128) && o.taken < 2 * o.cols)
    || (o.first + read ≤ f.col && f.col < o.first + o.cols)
  | _, _ => false

/-- Whether an MXSTREAM in progress of a core is dry or blocked at the start of an ac. -/
def Device.stuck (d : Device) (k : Nat) : Bool := (d.press k).streaming && (d.dry k || d.blocked k)

/-! Multicast groups -/

/-- Whether a multicast descriptor still has columns to deliver. -/
def Desc.delivers (x : Desc) : Bool := x.state == 1 && (x.next < x.pos || !x.recs.isEmpty)

/-- The channel of the active group that a core belongs to: that of the columns in its buffer, or of the descriptor that will deliver it some (R188). -/
def Device.channel (d : Device) (k : Nat) : Option Nat :=
  match (d.core k).cols with
  | c :: _ => some c.chan
  | [] => (List.find? (fun (x : Nat × Desc) => x.2.delivers && x.2.members.contains k) d.flow.descs).map (fun x => bits (parseSd x.2.bytes).mspec 6 5)

/-- Whether a core belongs to the active group of a channel of its cluster in an ac: membership ends in the ac after its last column was taken or its
region closed (R188, R190). -/
def Device.memberOf (d : Device) (k chan : Nat) : Bool := d.channel k == some chan || (d.core k).left.any (fun l => l.1 == chan)

/-- Whether a core belongs to an active multicast group (R188, R190). -/
def Device.inGroup (d : Device) (k : Nat) : Bool := (d.channel k).isSome || (d.core k).left.isSome

/-- The channel on which a core streams and whose last column has not entered, if it is a member of its group. -/
def Device.chanOf (d : Device) (k : Nat) : Option Nat :=
  (d.press k).entering.bind (fun o => if o.src ∧ d.memberOf k o.a then some o.a else none)

/-- Whether a member of a channel's group freezes it in an ac (R189): it streams there and is stuck, or was when its region closed (R190). -/
def Device.freezes (d : Device) (k chan : Nat) : Bool := (d.chanOf k == some chan && d.stuck k) || (d.core k).left == some (chan, true)

/-- Whether the array of a core is frozen in an ac (R186, R189): it is stuck itself, or a member of the group on whose channel it streams freezes it. -/
def Device.frozen (d : Device) (k : Nat) : Bool :=
  (d.press k).streaming && (d.stuck k || (match d.chanOf k with
    | none => false
    | some c => (List.range 8).any (fun j => d.freezes (8 * (k / 8) + j) c)))

/-- A core's membership ends with its matrix region (R190): its columns are discarded, no channel waits for it, and a freeze condition that holds counts
for one more ac. -/
def Device.leaveGroup (d : Device) (k : Nat) : Device :=
  match d.channel k with
  | none => d
  | some c =>
    let held := d.stuck k
    let mine := (d.flow.descs.filter (fun (x : Nat × Desc) => x.2.state == 1 && x.2.members.contains k)).map (·.1)
    let d := d.modCore k (fun y => { y with cols := [], left := some (c, held) })
    mine.foldl (fun d i => d.modDesc i (fun x => { x with members := x.members.erase k })) d

/-- After an ac, a membership that had ended before it is over, and one that has ended in it counts for the next (R190); `was` is the channel before. -/
def Device.leaves (d : Device) (k : Nat) (was : Option Nat) : Device :=
  let left := match was, d.channel k with
    | some c, none => some (c, false)
    | _, _ => none
  if (d.core k).left = left then d else d.modCore k (fun y => { y with left := left })

/-- The channel of a multicast descriptor delivers the next column at the end of an ac to the buffers of all members at once, while each has a free place
(R188, R285). -/
def Device.deliver (d : Device) (i : Nat) : Device :=
  match d.desc? i with
  | none => d
  | some x =>
    match x.recs with
    | [] => d
    | c :: t =>
      if x.state ≠ 1 ∨ x.members.any (fun k => (d.core k).cols.length ≥ 256) then d
      else x.members.foldl (fun d k => d.modCore k (fun y => { y with cols := y.cols ++ [c] })) (d.setDesc i { x with recs := t })

/-- The multicast descriptors of a die deliver. -/
def Device.deliverAll (d : Device) (die : Nat) : Device :=
  (d.flow.descs.filter (fun (x : Nat × Desc) => !x.2.recs.isEmpty && x.2.engine / 16 == die)).foldl (fun d x => d.deliver x.1) d

end Sys2Proof.Machine
end

