-- ==== Sys2Proof/Machine/KlozarBlock.lean ====
section
/-! DEFINITION. The bits of a Klozar link: flits as bytes, their CRC, the block and its FEC, and the lanes (R345, R346). -/

namespace Sys2Proof.Machine

/-! Flits -/

/-- One bit into the CRC-32 register, most significant bit first. -/
def crcBit (c : Nat) (b : Bool) : Nat :=
  if c.testBit 31 != b then (c * 2 % 2 ^ 32) ^^^ 0x04C11DB7 else c * 2 % 2 ^ 32

/-- The CRC-32 of bytes, bit 7 of each first (R346). It starts from all ones and ends complemented, which the manual leaves open (PRESUMED;
log entry 14). -/
def crc32 (b : Bytes) : Nat :=
  (b.foldl (fun c x => (List.range 8).foldl (fun c i => crcBit c (x.getLsbD (7 - i))) c) 0xFFFFFFFF) ^^^ 0xFFFFFFFF

/-- Bytes 0 to 251 of a flit (Table 14-1). -/
def Flit.head (f : Flit) : Bytes :=
  be 1 (f.ftype % 4 + f.vc % 4 * 4 + f.cls % 4 * 16) ++ be 1 f.pstart ++ be 2 (f.seq % 4096) ++ be 2 (f.ack % 4096 + b2n f.nak * 4096)
    ++ slice f.payload 0 242 ++ be 4 (f.cvc % 4 + f.ccls % 4 * 4 + f.ccount % 64 * 16)

/-- The 256 bytes of a flit. -/
def Flit.bytes (f : Flit) : Bytes := f.head ++ be 4 (crc32 f.head)

/-- The fields that the bytes of a flit spell; reserved bits are not looked at (DESIGN CHOICE; log entry 14). -/
def flitOf (b : Bytes) : Flit :=
  { ftype := fieldBe b 0 1 % 4, vc := bits (fieldBe b 0 1) 3 2, cls := bits (fieldBe b 0 1) 5 4, pstart := fieldBe b 1 1,
    seq := fieldBe b 2 2 % 4096, ack := fieldBe b 4 2 % 4096, nak := (fieldBe b 4 2).testBit 12, payload := slice b 6 242,
    cvc := bits (fieldBe b 248 4) 1 0, ccls := bits (fieldBe b 248 4) 3 2, ccount := bits (fieldBe b 248 4) 9 4 }

/-- Whether the CRC of a flit covers its bytes. -/
def flitGood (b : Bytes) : Bool := fieldBe b 252 4 == crc32 (slice b 0 252)

/-! Forward error correction -/

/-- Multiplication in GF(2^10) of IEEE 802.3 Clause 91, whose primitive polynomial is x^10 + x^3 + 1 (PRESUMED; log entry 14). -/
def gfMul (a b : Nat) : Nat :=
  let p := (List.range 10).foldl (fun p i => if b.testBit i then p ^^^ (a * 2 ^ i) else p) 0
  (List.range 9).foldl (fun p i => if p.testBit (18 - i) then p ^^^ (0x409 * 2 ^ (8 - i)) else p) p

/-- A polynomial, lowest power first, times x plus a constant. -/
def gfTimes (p : List Nat) (c : Nat) : List Nat :=
  (0 :: p).zipIdx.map (fun x => x.1 ^^^ gfMul c ((p.drop x.2).headD 0))

/-- The generator of RS(544,514): the product of x - α^j for j = 0 to 29, α being 2; lowest power first. -/
def rsGen : List Nat :=
  ((List.range 30).foldl (fun (g : List Nat × Nat) _ => (gfTimes g.1 g.2, gfMul g.2 2)) ([1], 1)).1

/-- The parity of 514 message symbols: the remainder by the generator, highest power first. -/
def rsParity (m : List Nat) : List Nat :=
  let g := (rsGen.take 30).reverse
  m.foldl (fun r s =>
    let q := s ^^^ r.headD 0
    (r.drop 1 ++ [0]).zipWith (fun a c => a ^^^ gfMul q c) g) (List.replicate 30 0)

/-- A codeword of RS(544,514): message, then parity. -/
def rsCode (m : List Nat) : List Nat := m ++ rsParity m

/-! Blocks -/

/-- Cut a number into `n` symbols of 10 bits, the first bits first. -/
def symbols (v : Nat) : Nat → List Nat
  | 0 => []
  | n + 1 => v / 2 ^ (10 * n) % 1024 :: symbols v n

/-- The 1,088 symbols of a block: header 0xA5_5A3C and the counter, five flits, as two codewords one after the other (R345; that the first 514 message
symbols are those of the first codeword is this model's choice, log entry 14). -/
def blockSymbols (ctr : Nat) (fs : List Flit) : List Nat :=
  let m := symbols (ofBe (be 3 0xA55A3C ++ be 2 ctr ++ fs.flatMap Flit.bytes)) 1028
  rsCode (m.take 514) ++ rsCode (m.drop 514)

/-- The five PAM4 levels of a symbol: two bits each, first bits first, Gray-coded (R346). -/
def levels (s : Nat) : List Nat :=
  (List.range 5).map (fun i => match s / 4 ^ (4 - i) % 4 with | 0 => 0 | 1 => 1 | 3 => 2 | _ => 3)

/-- What lane 0 or 1 carries of a block: its even- or odd-numbered symbols (R345). -/
def lane (syms : List Nat) (n : Nat) : List Nat :=
  (syms.zipIdx.filter (fun x => x.2 % 2 == n)).flatMap (fun x => levels x.1)

end Sys2Proof.Machine
end

