-- ==== Sys2Proof/Machine/KlozarSend.lean ====
section
/-! DEFINITION. The transmitter of a Klozar port: which packet goes next, flits, replay, returned credits, blocks (R345 to R349, R356, R364, R365). -/

namespace Sys2Proof.Machine

def Device.setKlz (d : Device) (k : Klz) : Device := { d with klz := k }
def Device.port (d : Device) (p : Nat) : Port := Tab.get {} d.klz.ports p
def Device.setPort (d : Device) (p : Nat) (x : Port) : Device := d.setKlz { d.klz with ports := Tab.put {} d.klz.ports p x }
def Device.portState (d : Device) (p : Nat) : Nat := d.rd Reg.KLZ_PORT_STATUS_STATE p
def Device.portUp (d : Device) (p : Nat) : Bool := p < 8 && d.portState p == 4

/-! Credits -/

/-- Receive credits of a VC's class (Table 14-2). -/
def creditLimit (vc : Nat) : Nat := match vc with | 0 => 128 | 1 => 64 | _ => 16

/-- Whether a port holds a credit of a VC and class, which stand as VC × 4 + class. -/
def Port.canSend (x : Port) (key : Nat) : Bool := Tab.get 0 x.used key < creditLimit (key / 4)

/-- One more piece of a flit of a receive buffer waits in it. -/
def Device.holdFlit (d : Device) (p n key : Nat) : Device :=
  let x := d.port p
  d.setPort p { x with held := Tab.insert x.held n (key, (Tab.get (key, 0) x.held n).2 + 1) }

/-- A piece of a flit of a receive buffer leaves it; with the last one its credit goes back (R348). -/
def Device.leaveFlit (d : Device) (p n : Nat) : Device :=
  let x := d.port p
  match Tab.find? x.held n with
  | none => d
  | some (key, c) =>
    if c ≤ 1 then d.setPort p { x with held := Tab.erase x.held n, owed := Tab.put 0 x.owed key (Tab.get 0 x.owed key + 1) }
    else d.setPort p { x with held := Tab.insert x.held n (key, c - 1) }

/-- Pieces of flits of a receive buffer leave it. -/
def Device.leaveFlits (d : Device) (p : Nat) (ns : List Nat) : Device := ns.foldl (fun d n => d.leaveFlit p n) d

/-- The flits that `k` bytes more empty, and what stays. -/
def segsGone : List (Nat × Nat) → Nat → List Nat × List (Nat × Nat)
  | [], _ => ([], [])
  | (n, c) :: t, k => if c ≤ k then let r := segsGone t (k - c); (n :: r.1, r.2) else ([], (n, c - k) :: t)

/-- Credits come back to a port for a VC × 4 + class (R348). -/
def Device.creditBack (d : Device) (p key n : Nat) : Device :=
  let x := d.port p
  d.setPort p { x with used := Tab.put 0 x.used key (Tab.get 0 x.used key - n) }

/-! The order of packets -/

def TxPkt.key (y : TxPkt) : Nat := y.vc * 4 + y.cls

/-- Zeros before a packet of which bytes are still to come, so that its bytes fill flits as they come (R356). -/
def TxPkt.pad (y : TxPkt) : Nat := if y.begun || y.more = 0 then 0 else (242 - y.bytes.length % 242) % 242

/-- Whether a packet can go on at an offset of a flit: what it gives ends it, or fills the flit. -/
def TxPkt.fits (y : TxPkt) (o : Nat) : Bool :=
  y.cut || (y.bytes != [] && (y.more == 0 || 242 ≤ o + y.bytes.length || (o == 0 && 0 < y.pad)))

/-- Deficit round robin over the hoops from `h` on (R349): the hoop served, whether its quantum is spent, and the deficits. `size` is the first packet
of a hoop that is ready. A quantum is LINK_SHARE × 144 bytes, the longest packet of VC 0 (DESIGN CHOICE; log entry 14). -/
def drr (share : Nat → Nat) (size : Nat → Option Nat) : Nat → Nat → Bool → Tab Nat → Option (Nat × Tab Nat)
  | 0, _, _, _ => none
  | fuel + 1, h, fresh, t =>
    match size h with
    | none => drr share size fuel ((h + 1) % 8) true (Tab.erase t h)
    | some n =>
      let c := Tab.get 0 t h + (if fresh then share h * 144 else 0)
      if n ≤ c then some (h, Tab.put 0 t h (c - n)) else drr share size fuel ((h + 1) % 8) true (Tab.put 0 t h c)

/-- The first packet of a hoop among some. -/
def firstOf (l : List TxPkt) (h : Nat) : Option TxPkt := l.find? (fun y => y.src == h)

/-- The local packet of VC 0 that goes next, and the port after the choice (R349): by LINK_SHARE, and a hoop of share 0 only where no other has one ready. -/
def Port.nextLocal (x : Port) (share : Nat → Nat) (l : List TxPkt) : Option (TxPkt × Port) :=
  match drr share (fun h => if share h = 0 then none else (firstOf l h).map (fun y => y.bytes.length)) 10 x.turn x.fresh x.deficit with
  | some (h, t) => (firstOf l h).map (fun y => (y, { x with turn := h, fresh := false, deficit := t, wasLocal := true }))
  | none => l.head?.map (fun y => (y, { x with turn := (y.src + 1) % 8, fresh := true, wasLocal := true }))

/-- The packet of VC 1 that goes next: hoops in turn, transit after them. -/
def Port.nextMsg (x : Port) (l : List TxPkt) : Option (TxPkt × Port) :=
  ((List.range 9).findSome? (fun i => firstOf l ((x.served + 1 + i) % 9))).map (fun y => (y, { x with served := y.src }))

/-- The packet of a VC that goes next at an offset of a flit (R348 to R350): one that has begun, else a new one of a stream in which none has; in VC 0
transit and local packets alternate. `key` is the stream of the flit, which holds its credit. -/
def Port.pick (x : Port) (share : Nat → Nat) (vc o : Nat) (key : Option Nat) : Option (TxPkt × Port) :=
  let open_ := fun (y : TxPkt) => y.vc == vc && (key == some y.key || x.canSend y.key) && y.fits o
  match x.waiting.find? (fun y => y.begun && open_ y) with
  | some y => some (y, x)
  | none =>
    let l := x.waiting.filter (fun y => !y.begun && open_ y && !x.waiting.any (fun z => z.begun && z.key == y.key))
    if vc = 0 then
      let transit := (l.find? (fun y => y.src == 8)).map (fun y => (y, { x with wasLocal := false }))
      let local_ := x.nextLocal share (l.filter (fun y => y.src != 8))
      if x.wasLocal then transit.or local_ else local_.or transit
    else if vc = 1 then x.nextMsg l
    else l.head?.map (fun y => (y, x))

/-! Flits -/

/-- The time of departure enters a packet whose header departs: T1, T3 or LEAD (R364, R365, Table 14-11). -/
def TxPkt.stamped (y : TxPkt) (t : Nat) : TxPkt :=
  match y.stamp with
  | 1 => { y with bytes := splice y.bytes 16 (be 8 t) }
  | 2 => { y with bytes := splice y.bytes 32 (be 8 t) }
  | 3 => { y with bytes := splice y.bytes 24 (be 4 (y.due - t).toNat) }
  | _ => y

/-- What a packet leaves of itself at its port. -/
def Port.putPkt (x : Port) (y : TxPkt) : Port :=
  { x with waiting := if y.bytes = [] ∧ y.more = 0 ∧ !y.cut then x.waiting.filter (fun z => z.id != y.id)
                      else x.waiting.map (fun z => if z.id = y.id then y else z) }

/-- Fill a flit of a VC that departs at local time `t`: its stream, its bytes so far and its PSTART. The fuel bounds the packets of a flit. -/
def Device.fillFlit (d : Device) (p vc t : Nat) : Nat → Option Nat → Bytes → Nat → Device × Option (Nat × Bytes × Nat)
  | 0, key, b, ps => (d, key.map (fun k => (k, b, ps)))
  | fuel + 1, key, b, ps =>
    let rest := (d, key.map (fun k => (k, b, ps)))
    match if 242 ≤ b.length then none else (d.port p).pick (fun h => d.rd Reg.HOOP_CFG_LINK_SHARE h) vc b.length key with
    | none => rest
    | some (y, x) =>
      if y.cut || (key.isSome && key != some y.key) then rest
      else
        let pad := if b = [] then y.pad else 0
        let x := if !y.begun && y.stamp = 1 then { x with t1 := some t } else x
        let z := if y.begun then y else y.stamped t
        let c := z.bytes.take (242 - b.length - pad)
        let gone := segsGone z.segs c.length
        let ps := if !y.begun && ps = 255 then b.length + pad else ps
        let d := (d.setPort p (x.putPkt { z with bytes := z.bytes.drop c.length, begun := true, segs := gone.2 })).leaveFlits y.from_ gone.1
        d.fillFlit p vc t fuel (some y.key) (b ++ List.replicate pad 0 ++ c) ps

/-- The next new flit of a VC: an abort flit ends a packet whose input failed (R356). -/
def Device.vcFlit (d : Device) (p vc t : Nat) : Device × Option Flit :=
  match (d.port p).pick (fun h => d.rd Reg.HOOP_CFG_LINK_SHARE h) vc 0 none with
  | none => (d, none)
  | some (y, x) =>
    if y.cut then (d.setPort p (x.putPkt { y with bytes := [], more := 0, cut := false }), some { ftype := 2, vc := y.vc, cls := y.cls })
    else
      let r := d.fillFlit p vc t 18 none [] 255
      (r.1, r.2.map (fun z => { ftype := 1, vc := z.1 / 4, cls := z.1 % 4, pstart := z.2.2, payload := z.2.1 }))

/-- ACK, NAK and a credit to return, which every flit carries (R346 to R348). A flit sent again keeps its credit. -/
def Device.flitFields (d : Device) (p : Nat) (new : Bool) (f : Flit) : Device × Flit :=
  let x := d.port p
  let f := { f with ack := (x.rxSeq + 4095) % 4096, nak := x.nakDue }
  let x := { x with nakDue := false }
  match if new then x.owed.head? else none with
  | none => (d.setPort p x, f)
  | some (key, n) =>
    let c := Nat.min n 63
    (d.setPort p { x with owed := Tab.put 0 x.owed key (n - c) }, { f with cvc := key / 4, ccls := key % 4, ccount := c })

/-- A new payload or abort flit takes the next SEQ, a credit, and a place of the retry buffer (R346 to R348). -/
def Device.sendFlit (d : Device) (p : Nat) (f : Flit) : Device × Flit :=
  let r := d.flitFields p true { f with seq := (d.port p).txSeq }
  let x := r.1.port p
  let key := f.vc * 4 + f.cls
  let d := r.1.setPort p { x with txSeq := (x.txSeq + 1) % 4096, retry := x.retry ++ [r.2], used := Tab.put 0 x.used key (Tab.get 0 x.used key + 1) }
  (if f.ftype = 1 then d.count Reg.KLZ_PORT_TRAFFIC_TX_FLITS p else d, r.2)

/-- The flit that departs next: one that a NAK asks for again, else a new one of the highest VC that has one while the retry buffer has room, else an
idle flit (R346, R347, R349; the VCs stand in the order of Table 14-2). -/
def Device.nextFlit (d : Device) (p t : Nat) : Device × Flit :=
  let x := d.port p
  match x.again with
  | f :: rest => ((d.setPort p { x with again := rest }).countSat Reg.KLZ_PORT_ERR_REPLAYS p).flitFields p false f
  | [] =>
    let r := if 256 ≤ x.retry.length then (d, none)
      else [2, 3, 1, 0].foldl (fun (r : Device × Option Flit) vc => if r.2.isSome then r else r.1.vcFlit p vc t) (d, none)
    match r.2 with
    | some f => r.1.sendFlit p f
    | none => r.1.flitFields p true { ftype := 0 }

/-- Flits that depart one after the other, 34/7 ns apart. -/
def Device.nextFlits (d : Device) (p : Nat) : Nat → Device × List Flit
  | 0 => (d, [])
  | n + 1 =>
    let r := d.nextFlits p n
    let s := r.1.nextFlit p (r.1.clock.now + n * 34 / 7)
    (s.1, r.2 ++ [s.2])

/-- Flits of a port that is not UP: all idle (R345, R346). -/
def Device.idleFlits (d : Device) (p : Nat) : Nat → Device × List Flit
  | 0 => (d, [])
  | n + 1 =>
    let r := d.idleFlits p n
    let s := r.1.flitFields p false { ftype := 0 }
    (s.1, r.2 ++ [s.2])

/-- A port transmits a block of five flits (R345). DESIGN CHOICE (log entry 14): what a port that is not UP sends in its flits is idle, since the manual
gives the exchanges of TRAIN and IDENTIFY no layout. -/
def Device.sendBlock (d : Device) (p : Nat) : Device :=
  let r := if d.portUp p then d.nextFlits p 5 else d.idleFlits p 5
  let x := r.1.port p
  let syms := blockSymbols x.blk r.2
  (r.1.setPort p { x with blk := (x.blk + 1) % 65536 }).emit (.block p (lane syms 0) (lane syms 1))

/-- Whether a block begins in this ns: one lasts 170/7 ns (R345). -/
def Device.blockDue (d : Device) : Bool := d.clock.now * 7 / 170 != (d.clock.now + 1) * 7 / 170

/-- Whether a port transmits (R345): from TRAIN to UP, and in DOWN while it waits to train again. DESIGN CHOICE (log entry 14): a port that is cut
(FAILED), miswired or has never trained is silent. -/
def Device.transmits (d : Device) (p : Nat) : Bool :=
  let s := d.portState p
  (1 ≤ s && s ≤ 4) || (s == 0 && (d.port p).trainFailed)

/-- The blocks that begin in this ns: every port that transmits begins one. -/
def Device.sendBlocks (d : Device) : Device :=
  if d.blockDue then (List.range 8).foldl (fun d p => if d.transmits p then d.sendBlock p else d) d else d

/-- FAILS counts the failures of the last 10 s (R375). -/
def Device.ageFails (d : Device) : Device :=
  (List.range 8).foldl (fun d p =>
    let x := d.port p
    let l := x.fails.filter (fun t => d.clock.now < t + 10000000000)
    if l.length = x.fails.length then d
    else (d.setPort p { x with fails := l }).wr Reg.KLZ_PORT_STATUS_FAILS p (Nat.min 15 l.length)) d

/-- TM_PRESENT of a module that is no manager falls when no TIME has come for 2 × P + 50 µs (R370, R375); a manager's falls with TIME_MASTER_LOST. -/
def Device.ageTime (d : Device) : Device :=
  if d.rd Reg.KLZ_TICK_TM_PRESENT = 1 ∧ d.rd Reg.KLZ_ID_ROLE ≠ 2 ∧ d.klz.timeAt + 2000 * d.rd Reg.WHEEL_STATUS_PERIOD_US + 50000 ≤ d.clock.now
  then d.wr Reg.KLZ_TICK_TM_PRESENT 0 0 else d

/-! Cut-through -/

/-- The input of a packet at an output port has failed, or an abort flit has ended it: where its header has departed an abort flit ends it, else it is
gone (R356). -/
def Device.cutPkt (d : Device) (q id : Nat) : Device :=
  match (d.port q).waiting.find? (fun y => y.id == id) with
  | none => d
  | some y =>
    let x := d.port q
    let x := if y.begun then x.putPkt { y with bytes := [], more := 0, cut := true, segs := [] }
      else { x with waiting := x.waiting.filter (fun z => z.id != id) }
    (d.setPort q x).leaveFlits y.from_ (y.segs.map (·.1))

end Sys2Proof.Machine
end

