-- ==== Sys2Proof/Machine/KlozarOps.lean ====
section
/-! DEFINITION. Packets, packets out, routes and the link-state database (R342 to R359, R371 to R373, R377). -/

namespace Sys2Proof.Machine

def Device.ownChip (d : Device) : Nat := d.rd Reg.KLZ_ID_CHIP
def Device.role (d : Device) : Nat := d.rd Reg.KLZ_ID_ROLE

/-- The VC of a packet type (Table 14-4). -/
def vcOf (ptype : Nat) : Nat := if ptype < 0x10 then 0 else if ptype < 0x20 then 1 else if ptype < 0x30 then 2 else 3

/-- The 16-byte header of a packet (Table 14-3), most significant byte first. -/
def pktHeader (k : Pkt) : Bytes :=
  be 16 ((k.dst % 4096) * 2 ^ 116 + (k.src % 4096) * 2 ^ 104 + (k.ptype % 64) * 2 ^ 98 + (k.data.length % 8192) * 2 ^ 85
    + b2n k.rsvd * 2 ^ 84 + (k.tag % 65536) * 2 ^ 68 + (k.job % 65536) * 2 ^ 52 + (k.win % 16) * 2 ^ 48 + k.offset % 2 ^ 48)

/-- The packet that a header and its data spell. -/
def pktOf (h data : Bytes) : Pkt :=
  let v := ofBe h
  { dst := bits v 127 116, src := bits v 115 104, ptype := bits v 103 98, rsvd := v.testBit 84, tag := bits v 83 68,
    job := bits v 67 52, win := bits v 51 48, offset := bits v 47 0, data := data }

/-- The LEN of a header. -/
def pktLen (h : Bytes) : Nat := bits (ofBe h) 97 85

/-- Whether the reserved bytes and bits of a payload are 0, and its codes are codes of their table (Tables 5-13, 14-11, 14-12, R377). -/
def payloadOk (k : Pkt) : Bool :=
  match k.ptype with
  | 0x01 => zeroAt k.data 0 7 && 1 ≤ fieldLe k.data 7 1 && k.offset % 128 + fieldLe k.data 7 1 ≤ 128
  | 0x05 => zeroAt k.data 1 7 && fieldLe k.data 0 1 < 64 && fieldLe k.data 0 1 % 16 ≤ 10 && (fieldLe k.data 0 1 % 16 < 8 || !(fieldLe k.data 0 1).testBit 4)
  | 0x20 => zeroAt k.data 29 3
  | 0x23 => zeroAt k.data 29 3
  | 0x28 => zeroAt k.data 2 2 && zeroAt k.data 8 8 && fieldBe k.data 0 2 ≤ 3 && fieldBe k.data 0 2 ≥ 1
      && (fieldBe k.data 0 2 != 1 || zeroAt k.data 28 4) && (fieldBe k.data 0 2 != 2 || zeroAt k.data 26 6)
  | 0x30 => fieldBe k.data 0 2 < 4096 && zeroAt k.data 2 2 && zeroAt k.data 40 8
      && (List.range 8).all (fun p => fieldBe k.data (8 + 4 * p) 4 < 65536)
  | _ => true

/-- Whether a packet type is listed and a LEN is in its range (Table 14-4). -/
def lenOk (ptype n : Nat) : Bool :=
  match ptype with
  | 0x01 => n == 8
  | 0x02 => 1 ≤ n && n ≤ 128
  | 0x03 => 1 ≤ n && n ≤ 128
  | 0x04 => n == 0
  | 0x05 => n == 24
  | 0x06 => n == 8
  | 0x07 => n == 0
  | 0x10 => 64 ≤ n && n ≤ 4096
  | 0x11 => n == 0
  | 0x20 => n == 32
  | 0x21 => n == 8
  | 0x22 => n == 24
  | 0x23 => n == 32
  | 0x28 => 16 ≤ n && n ≤ 4096
  | 0x30 => n == 48
  | _ => false

/-- Whether the header of a packet with LEN `n` passes R351; a WR lies within one 128-byte line. -/
def pktHeadOk (k : Pkt) (n : Nat) : Bool := !k.rsvd && lenOk k.ptype n && (k.ptype != 0x03 || k.offset % 128 + n ≤ 128)

/-- Whether a packet passes R351: type listed, reserved bits 0, LEN in its range, a read or write within one line. -/
def pktOk (k : Pkt) : Bool := pktHeadOk k k.data.length && payloadOk k

/-! Transmission -/

/-- The hoop of this chip that holds a JOB (check 4 of Table 10-8). -/
def Device.jobHoop (d : Device) (job : Nat) : Option Nat :=
  if job = 0 then none else (List.range 8).find? (fun h => d.hoopState h != 0 && d.rd Reg.HOOP_REMOTE_JOB h == job)

/-- The hoop that originates a packet which enters its first link: local traffic of R349; 8 for transit, which responses and refusals are. -/
def Device.srcOf (d : Device) (cls : Nat) (k : Pkt) : Nat :=
  if cls ≠ 0 then 8
  else if [0x01, 0x03, 0x05].contains k.ptype then (d.jobHoop k.job).getD 8
  else if k.ptype = 0x10 then k.job % 8
  else 8

/-- What the departure of a packet's header stamps (R364, R365): a packet of this module's own link, so in class 0. -/
def stampOf (cls ptype : Nat) : Nat :=
  if cls ≠ 0 then 0 else match ptype with | 0x21 => 1 | 0x22 => 2 | 0x20 => 3 | 0x23 => 3 | _ => 0

/-- Put a packet among those that wait at a port. -/
def Device.queuePkt (d : Device) (p : Nat) (y : TxPkt) : Device :=
  let d := d.setPort p { d.port p with waiting := (d.port p).waiting ++ [{ y with id := d.klz.pkts }] }
  d.setKlz { d.klz with pkts := d.klz.pkts + 1 }

/-- Hand a packet to a port in a hop class (R346, R348); its flits depart as the port's turn, credits and retry buffer let them. A LEAD counts from here to the
tick it names, and its departure shortens it (R365). Its bytes count for the port (Table 17-5). -/
def Device.sendOn (d : Device) (p cls : Nat) (k : Pkt) : Device :=
  let b := pktHeader k ++ k.data
  let d := (d.emit (.packet p k)).cnt 8 (100 + 2 * p) b.length
  d.queuePkt p { id := 0, vc := vcOf k.ptype, cls := cls, src := d.srcOf cls k, bytes := b, stamp := stampOf cls k.ptype,
                 due := d.clock.now + (fieldBe k.data 8 4 : Nat) }

/-! Routes -/

/-- The port that a packet for a chip leaves on in a class, by R357: PRIMARY, else ALT. -/
def Device.routePort (d : Device) (chip cls : Nat) : Option Nat :=
  let p := d.rd Reg.KLZ_RT_PRIMARY chip
  let a := d.rd Reg.KLZ_RT_ALT chip
  if cls > 3 then none
  else if d.portUp p then some p
  else if d.portUp a then some a
  else none

/-- Whether a chip is reachable (R357, check 3 of Table 10-8). -/
def Device.reachable (d : Device) (chip : Nat) : Bool := chip == d.ownChip || (d.routePort chip 0).isSome

/-- A link of the database that both ends report UP, from a chip's port (R358): the partner. -/
def linkTo (db : Tab LinkRec) (chip p : Nat) : Option Nat :=
  match Tab.find? db chip with
  | none => none
  | some r =>
    match (r.ports.drop p).head? with
    | none => none
    | some (q, j, up) =>
      if !up then none
      else match Tab.find? db q with
        | none => none
        | some s => match (s.ports.drop j).head? with
          | some (c, i, u) => if u && c == chip && i == p then some q else none
          | none => none

/-- Chips within `n` links of the frontier, avoiding some, with their distances (breadth first). -/
def bfs (db : Tab LinkRec) : Nat → Nat → List Nat → List (Nat × Nat) → List (Nat × Nat)
  | 0, _, _, seen => seen
  | n + 1, dist, frontier, seen =>
    let next := (frontier.flatMap (fun c => (List.range 8).filterMap (linkTo db c))).eraseDups.filter
      (fun c => !seen.any (fun s => s.1 == c))
    bfs db n (dist + 1) next (seen ++ next.map (fun c => (c, dist + 1)))

/-- Distances from the partner of an own port to every chip, paths avoiding this module, at most 3 links more. -/
def portDists (db : Tab LinkRec) (own p : Nat) : List (Nat × Nat) :=
  match linkTo db own p with
  | none => []
  | some q => (bfs db 3 0 [q] [(own, 99), (q, 0)]).filter (fun x => x.1 != own)

/-- The best port to a chip among some, with the hops (R358): shortest, ties to the lower number. -/
def bestPort (dists : List (Nat × List (Nat × Nat))) (chip : Nat) : Option (Nat × Nat) :=
  dists.foldl (fun (b : Option (Nat × Nat)) x =>
    match x.2.find? (fun y => y.1 == chip) with
    | none => b
    | some (_, n) => match b with
      | none => some (x.1, n + 1)
      | some (p, m) => if n + 1 < m then some (x.1, n + 1) else some (p, m)) none

/-- The chips of a hoop's slice (R269): the bits of its slice bitmap. -/
def Device.sliceByte (d : Device) (h c : Nat) : Nat := (d.mem.get (d.tableAddr h + 1088 + c / 8)).toNat
def Device.sliceBad (d : Device) (h c : Nat) : Bool := d.badAt (d.tableAddr h + 1088 + c % 4096 / 8) 1
def Device.inSlice (d : Device) (h c : Nat) : Bool := c < 4096 && (d.sliceByte h c).testBit (c % 8)

/-- Clear the route table: every entry none, but this module's own (R358, R375, Table 19-7). -/
def Device.clearRoutes (d : Device) : Device :=
  let lo := 0x48000 * 1024
  let hi := 0x4A000 * 1024
  { d with regs := d.regs.filter (fun r => !(lo ≤ r.1 && r.1 < hi)) }.wr Reg.KLZ_RT_PRIMARY d.ownChip 8

/-- Compute a table from the database, install it, advance GEN, and mark the hoops whose slice it concerns (R358, R373). -/
def Device.installRoutes (d : Device) : Device :=
  let own := d.ownChip
  let db := d.klz.db
  let dists := (List.range 8).map (fun p => (p, portDists db own p))
  let chips := (Tab.keys db).filter (· != own)
  let old := chips.map (fun c => (c, d.rd Reg.KLZ_RT_PRIMARY c, d.rd Reg.KLZ_RT_HOPS c))
  let gone := ((List.range 4096).filter (fun c => d.rd Reg.KLZ_RT_PRIMARY c < 8 && !chips.contains c)).map
    (fun c => (c, d.rd Reg.KLZ_RT_PRIMARY c, d.rd Reg.KLZ_RT_HOPS c))
  let d := d.clearRoutes
  let d := chips.foldl (fun d c =>
    match bestPort dists c with
    | none => d
    | some (p, n) =>
      let d := (d.wr Reg.KLZ_RT_PRIMARY c p).wr Reg.KLZ_RT_HOPS c n
      match bestPort (dists.filter (fun x => x.1 != p)) c with
      | none => d
      | some (a, m) => (d.wr Reg.KLZ_RT_ALT c a).wr Reg.KLZ_RT_ALT_HOPS c m) d
  let d := d.count Reg.KLZ_ROUTE_GEN 0
  let d := d.wr Reg.KLZ_ROUTE_REACHABLE 0 (1 + (chips.filter (fun c => d.rd Reg.KLZ_RT_PRIMARY c != 15)).length)
  let changed := (old ++ gone).filter (fun x => d.rd Reg.KLZ_RT_PRIMARY x.1 != x.2.1 || d.rd Reg.KLZ_RT_HOPS x.1 != x.2.2)
  let d := d.setKlz { d.klz with stale := false }
  (List.range 8).foldl (fun d h =>
    if d.rd Reg.HOOP_REMOTE_JOB h = 0 then d
    else
      let mine := (changed.filter (fun x => d.inSlice h x.1)).map (fun x => (x.1, x.2.2))
      if mine.isEmpty then d
      else d.setHx h { d.hx h with reshape := (d.hx h).reshape ++ mine.filter (fun m => !(d.hx h).reshape.any (fun r => r.1 == m.1)) }) d

/-! Announcing -/

/-- The payload of a LINK_STATE (Table 14-11). -/
def linkPayload (chip seq : Nat) (ports : List (Nat × Nat × Bool)) : Bytes :=
  be 2 chip ++ be 2 0 ++ be 4 seq
    ++ (List.range 8).flatMap (fun p => match (ports.drop p).head? with
      | some (c, j, up) => be 4 (c % 4096 + j % 8 * 2 ^ 12 + b2n up * 2 ^ 15)
      | none => be 4 0) ++ be 8 0

/-- Send a packet of this module to its neighbours on some ports, in class 0. -/
def Device.flood (d : Device) (ports : List Nat) (k : Pkt) : Device :=
  ports.foldl (fun d p => d.sendOn p 0 { k with src := d.ownChip, dst := d.rd Reg.KLZ_PORT_STATUS_PARTNER_CHIP p }) d

/-- The ports that are UP, but one. -/
def Device.upPorts (d : Device) (except_ : Nat := 8) : List Nat := (List.range 8).filter (fun p => d.portUp p && p != except_)
def Device.upBoardPorts (d : Device) (except_ : Nat := 8) : List Nat := (d.upPorts except_).filter (· < 7)

/-- A packet of the module itself to a neighbour on a port. -/
def Device.ownPkt (d : Device) (p ptype : Nat) (data : Bytes) : Pkt :=
  { dst := d.rd Reg.KLZ_PORT_STATUS_PARTNER_CHIP p, src := d.ownChip, ptype := ptype, data := data }

/-- The module's own link-state record, as its ports stand. -/
def Device.ownPorts (d : Device) : List (Nat × Nat × Bool) :=
  (List.range 8).map (fun p => (d.rd Reg.KLZ_PORT_STATUS_PARTNER_CHIP p, d.rd Reg.KLZ_PORT_STATUS_PARTNER_PORT p, d.portUp p))

/-- Announce the module's ports: the sequence number advances, the record enters the database, and it is flooded (R358,
R372). -/
def Device.announce (d : Device) : Device :=
  let seq := (d.klz.ownSeq + 1) % 2 ^ 32
  let ports := d.ownPorts
  let d := d.setKlz { d.klz with ownSeq := seq, db := Tab.insert d.klz.db d.ownChip ⟨seq, ports⟩, stale := true }
  d.upPorts.foldl (fun d p => d.sendOn p 0 (d.ownPkt p 0x30 (linkPayload d.ownChip seq ports))) d

/-- A MGMT payload (Tables 14-11 and 14-12). -/
def mgmtPayload (mtype : Nat) (body : Bytes) : Bytes := be 2 mtype ++ be 2 0 ++ be 4 body.length ++ be 8 0 ++ body

/-- Send a MGMT packet to the board's manager by the route table (R361, R440). -/
def Device.toManager (d : Device) (mtype : Nat) (body : Bytes) : Device :=
  match d.klz.boardUp with
  | none => d
  | some m => match d.routePort m 0 with
    | none => d
    | some p => d.sendOn p 0 { dst := m, src := d.ownChip, ptype := 0x28, data := mgmtPayload mtype body }

/-- The states of the eight ports. -/
def Device.portStates (d : Device) : List Nat := (List.range 8).map d.portState

/-- Tell a change of port state: a worker reports to its manager, a manager notes it (R361). -/
def Device.reportPorts (d : Device) : Device :=
  if d.role = 2 then d.setKlz { d.klz with faultMap := Tab.insert d.klz.faultMap (d.rd Reg.KLZ_ID_SLOT) d.portStates }
  else if d.role = 1 then d.toManager 2 (be 2 d.ownChip ++ d.portStates.map (BitVec.ofNat 8) ++ be 6 0)
  else d

/-- The body of BOARD_UP. -/
def Device.boardUpBody (d : Device) (manager : Nat) : Bytes :=
  be 2 manager ++ be 2 (d.rd Reg.KLZ_ID_BOARD) ++ be 8 d.klz.number ++ be 4 0

def Device.setPortState (d : Device) (p st : Nat) : Device := (d.wr Reg.KLZ_PORT_STATUS_STATE p st).reportPorts

/-- The equalisers of a port start from the preset of this module's slot (R359, R485). -/
def Device.presetEq (d : Device) (p : Nat) : Device := d.setPort p { d.port p with eq := Tab.get [] d.klz.presets p }

/-- A port enters TRAIN (R359). -/
def Device.train (d : Device) (p : Nat) : Device := (d.presetEq p).setPortState p 1

/-- A port enters UP (R360, R364, R372): it starts with no delay measured; it is announced; BOARD_UP goes out over it. -/
def Device.portToUp (d : Device) (p : Nat) : Device :=
  let d := d.setPort p { fails := (d.port p).fails, blk := (d.port p).blk }
  let d := (d.wr Reg.KLZ_PORT_STATUS_DELAY_NS p 0).wr Reg.KLZ_PORT_STATUS_STATE p 4
  let d := d.announce.reportPorts
  match d.klz.boardUp with
  | none => d
  | some m =>
    if d.role = 2 ∨ (d.role = 1 ∧ p < 7) then d.sendOn p 0 (d.ownPkt p 0x28 (mgmtPayload 1 (d.boardUpBody m))) else d

/-- Whether a HELD port may go UP (R360). The other end's BOARD_UP is not seen here; log entry 15. -/
def Device.mayRise (d : Device) (p : Nat) : Bool :=
  !d.klz.conflict && d.role != 3 &&
  (if p = 7 then d.klz.boardUp.isSome
   else d.role == 2 || d.rd Reg.KLZ_PORT_STATUS_PARTNER_MGR p == 1 || d.klz.boardUp.isSome)

/-- Every HELD port that may go UP does. -/
def Device.raisePorts (d : Device) : Device :=
  (List.range 8).foldl (fun d p => if d.portState p = 3 && d.mayRise p then d.portToUp p else d) d

/-- A port fails (R371, R372): FAILED, LINK_FAILED posted, its buffers discarded, packets under way on other ports
ended, the failure announced; the fourth failure within 10 s holds it. -/
def Device.failPort (d : Device) (p condition : Nat) : Device :=
  let x := d.port p
  let now := d.clock.now
  let fails := now :: x.fails.filter (fun t => now < t + 10000000000)
  let d := d.setPort p { fails := fails, blk := x.blk }
  let d := { d with stat := { d.stat with late := d.stat.late.filter (fun e => match e.2 with | .linkCredit q _ _ => q != p | _ => true) } }
  let d := d.wr Reg.KLZ_PORT_STATUS_FAILS p (Nat.min 15 fails.length)
  let d := if fails.length ≥ 4 then d.wr Reg.KLZ_PORT_STATUS_DISABLED p 1 else d
  let d := (d.wr Reg.KLZ_PORT_STATUS_STATE p 5).wr Reg.KLZ_PORT_STATUS_DELAY_NS p 0
  let d := d.post { code := 0x30, object := p, detail := le 1 condition }
  let d := x.waiting.foldl (fun d y => d.leaveFlits y.from_ (y.segs.map (·.1))) d
  let d := x.rx.foldl (fun d (y : Nat × RxPkt) => match y.2.fwd with | some (q, id) => d.cutPkt q id | none => d) d
  d.reportPorts.announce

/-- The manager is lost (R362, R363): recorded, every ACTIVE hoop goes to HOLD. -/
def Device.loseManager (d : Device) : Device :=
  let d := d.setKlz { d.klz with lost := true }
  let d := (d.wr Reg.KLZ_TICK_MGR_PRESENT 0 0).wr Reg.KLZ_TICK_SOURCE 0 1
  let d := d.post { code := 0x38 }
  (List.range 8).foldl (fun d h =>
    if d.hoopState h = 1 then
      ((d.wr Reg.HOOP_CFG_STATE h 2).wr Reg.HOOP_LINK_MGR_LOST h 1).modHstat h (fun x => { x with held := true })
    else d) d

/-- P of the wheel in ns, with the correction of R369. -/
def Device.periodNs (d : Device) : Int := (1000 * d.rd Reg.WHEEL_STATUS_PERIOD_US : Nat) + d.klz.trim

/-- The local time of the next tick of the own timer: T(N) + P, with a correction of R369 (R365). -/
def Device.nextTickAt (d : Device) : Int := (d.clock.tickAt : Int) + d.periodNs + d.klz.adjust

/-- The fields of a TICK or TIME for the next tick (Table 14-11). -/
def Device.tickPayload (d : Device) (number : Nat) (lead : Nat) (hops : Nat) : Bytes :=
  let pend := d.wheel.period.getD (0, 0)
  be 8 number ++ be 4 lead ++ be 4 (d.rd Reg.WHEEL_STATUS_PERIOD_US) ++ be 4 pend.1 ++ be 8 pend.2 ++ be 1 hops ++ be 3 0

/-- The TIME numbers of a master that have been flooded, the newest 8 (R369). -/
def Device.timesOf (d : Device) (master : Nat) : List Nat := Tab.get [] d.klz.times master

/-- Follow the master that a TIME comes from (R369). One that replaces another ends its role; TIME that the replaced one sent before is not followed
for 2 × P + 50 µs (DEDUCED; log entry 15). -/
def Device.follow (d : Device) (master : Nat) : Device :=
  if d.klz.master = some master then d
  else d.setKlz { d.klz with master := some master, oldMaster := d.klz.master.map (fun m => (m, d.clock.now + 2000 * d.rd Reg.WHEEL_STATUS_PERIOD_US + 50000)) }

/-- Whether TIME of a master is not followed, as a newer one has replaced it. -/
def Device.outdated (d : Device) (master : Nat) : Bool :=
  match d.klz.oldMaster with
  | some (m, t) => m == master && d.clock.now < t
  | none => false

/-- Signed 16-bit saturation. -/
def sat16 (i : Int) : Nat := unsigned 16 (min (max i (-32768)) 32767)

end Sys2Proof.Machine
end

