-- ==== Sys2Proof/Machine/RemoteOps.lean ====
section
/-! DEFINITION. Remote requests at their source (R273, R276, R350 to R352), and what an entry's structures in the host tier
bring with them (R267). -/

namespace Sys2Proof.Machine

/-- The fields of a global pointer (Table 10-6): chip, window, offset. -/
def gpChip (p : Nat) : Nat := bits p 63 52
def gpWin (p : Nat) : Nat := bits p 51 48
def gpOff (p : Nat) : Nat := bits p 47 0

/-- Send a packet of this module in class 0: to itself by the internal path, else on its route; none where no port serves. -/
def Device.sendPkt (d : Device) (k : Pkt) : Option Device :=
  if k.dst = d.ownChip then some ((d.setKlz { d.klz with loop := d.klz.loop ++ [k] }).emit (.packet 8 k))
  else (d.routePort k.dst 0).map (fun p => d.sendOn p 0 k)

/-- Checks 1 to 3 of Table 10-8 at the source: the fault code of the first that fails, DATA_UNCORRECTABLE where the slice bitmap is (R268), 0 where a
SEGMENT_WRITE holds the hoop's global pointers (R270). -/
def Device.remoteCheck (d : Device) (h chip : Nat) (links : Bool) : Option Nat :=
  if d.pointersClosed h then some 0
  else if d.rd Reg.HOOP_REMOTE_JOB h = 0 then some 0x14
  else if d.sliceBad h chip then some 0x60
  else if !d.inSlice h chip then some 0x15
  else if links && !d.reachable chip then some 0x15
  else none

/-- The mark of R373 of a hoop: its first remote access after it posts RESHAPED with the first changed chip of its slice. -/
def Device.reshaped (d : Device) (h q : Nat) : Device :=
  match minOf ((d.hx h).reshape.map (·.1)) with
  | none => d
  | some c =>
    let old := (((d.hx h).reshape.find? (fun r => r.1 == c)).map (·.2)).getD 0
    let d := d.setHx h { d.hx h with reshape := [] }
    let d := d.post { code := 0x32, hoop := h, queue := q, object := c, detail := le 1 old ++ le 1 (d.rd Reg.KLZ_RT_HOPS c) }
    let d := (d.wr Reg.HOOP_LINK_RESHAPED h 1).count Reg.HOOP_LINK_RESHAPES h
    d.wr Reg.HOOP_LINK_ROUTE_GEN h (d.rd Reg.KLZ_ROUTE_GEN)

/-- The fault code of an RSTATUS (Table 14-5). -/
def rstatusFault (s : Nat) : Nat := if s = 1 then 0x14 else if s = 3 then 0x60 else 0x15

/-- The vat die that makes a remote request. -/
def Device.remoteDie (d : Device) (r : Remote) : Nat :=
  if r.kind = 2 then ((d.desc? r.a).map (fun (x : Desc) => x.engine / 16)).getD 4 else r.a / 64

/-- Open a remote request (R352): it takes the next number, whose low 16 bits are its TAG; none where no port serves. -/
def Device.openRemote (d : Device) (r : Remote) : Option Device :=
  let n := d.klz.nextTag
  let k := { r.pkt with tag := n % 65536 }
  match d.sendPkt k with
  | none => none
  | some d =>
    let d := if k.data = [] then d.ringCtl (d.remoteDie r) 4 else d.ringData (d.remoteDie r) 4 k.data.length
    some ((d.setKlz { d.klz with nextTag := n + 1, remotes := Tab.insert d.klz.remotes n { r with sent := d.clock.now, pkt := k } }).cnt
      r.hoop 11 (16 + k.data.length))

/-- Keep a message whose packet no port serves: it is lost, and its timeout ends it (R354, R357, R374). -/
def Device.keepRemote (d : Device) (r : Remote) : Device :=
  let n := d.klz.nextTag
  d.setKlz { d.klz with nextTag := n + 1, remotes := Tab.insert d.klz.remotes n { r with sent := d.clock.now, pkt := { r.pkt with tag := n % 65536 } } }

/-- A data packet of a hoop (Table 14-3). -/
def Device.dataPkt (d : Device) (h ptype chip win off : Nat) (data : Bytes) : Pkt :=
  { dst := chip, src := d.ownChip, ptype := ptype, job := d.rd Reg.HOOP_REMOTE_JOB h, win := win, offset := off, data := data }

/-- The open request that an answer of a chip with a TAG belongs to. -/
def Device.remoteOf (d : Device) (chip tag : Nat) : Option (Nat × Remote) :=
  List.find? (fun (x : Nat × Remote) => x.1 % 65536 == tag && x.2.chip == chip) d.klz.remotes

/-- The open request with a TAG. -/
def Device.remoteTag (d : Device) (tag : Nat) : Option (Nat × Remote) := List.find? (fun (x : Nat × Remote) => x.1 % 65536 == tag) d.klz.remotes

/-- Whether an access of a core to bytes of a chip meets the 128-byte line of an unanswered write or atomic of it (R352). -/
def Device.remoteBusy (d : Device) (core chip win off n : Nat) : Bool :=
  d.klz.remotes.any (fun (x : Nat × Remote) => x.2.writes && x.2.kind < 2 && x.2.a == core && x.2.chip == chip && x.2.win == win
    && x.2.off / 128 * 128 < off + n && off < x.2.off / 128 * 128 + 128)

/-- Pieces of a range that lie within one line of 128 bytes each: start and length. -/
def linePieces (a n : Nat) : List (Nat × Nat) :=
  (linesOf a n).map (fun l => (Nat.max a (l * 128), inLine a n l))

/-! Structures that an entry names -/

/-- The first device address of a range of a segment that is uncorrectable. -/
def Device.badIn (d : Device) (s : Seg) (o n : Nat) : Option Nat :=
  (List.range n).findSome? (fun i => match s.place (o + i) with
    | .dev a => if d.badAt a 1 then some a else none
    | .host _ => none)

/-- Read a structure that an entry of a queue names, through the map that the entry is bound to (R337): its bytes, a status, or nothing yet, where a
read of the host must bring them first, or a SEGMENT_WRITE holds its segment (R65, R264, R267, R270). -/
def Device.entRead (d : Device) (q id va n : Nat) : Device × Except Nat (Option Bytes) :=
  let x := d.queue q
  let h := x.hoop
  let map := ((x.entries.find? (fun y => y.id == id)).map (fun (y : Entry) => y.map)).getD (d.curMap h)
  let slot := d.slotOf h map (bits va 47 44)
  if d.segClosed h slot then (d, .ok none)
  else
  let d := d.seenVa h va n (some map)
  match d.readVa h va n false (some map) with
  | .ok b => (d, .ok (some b))
  | .error e =>
    if e ≠ hostTier then
      let s := d.seg h slot
      let w := d.entWho q id
      (if e = 0xA then d.dataError h q w.2 w.1 ((d.badIn s (va % 2 ^ 44) n).getD 0) else d, .error e)
    else
      match (x.entries.find? (fun y => y.id == id)).bind (fun (y : Entry) => y.buf.find? (fun z => z.1 == va)) with
      | some b => (d, if b.2.length < n then .error 0xA else .ok (some (b.2.take n)))
      | none =>
        let open_ := d.flow.reads.any (fun (r : Nat × HRead) => r.2.kind == 5 && r.2.a == q && r.2.b == id && r.2.c == va)
        if open_ then (d, .ok none)
        else if !d.mayMaster (d.ownerFn h) then (d, .error 0xA)
        else
          let s := d.seg h slot
          (d.openRead { kind := 5, a := q, b := id, c := va, fn := d.ownerFn h, addr := s.base + va % 2 ^ 44 } n, .ok none)

end Sys2Proof.Machine
end

