-- ==== Sys2Proof/Machine/SessionOps.lean ====
section
/-! DEFINITION. Session operations shared by kernels, streams and entries (chapter 12): pools, block lists, growth. -/

namespace Sys2Proof.Machine

/-- FIRST: where HBM3E block 0 lies in the pool segment (R303). -/
def Device.poolFirst (d : Device) (h : Nat) : Nat :=
  roundUp (cdiv (d.rd Reg.HOOP_KVPOOL_HBM_BLOCKS h) 8 + cdiv (d.rd Reg.HOOP_KVPOOL_CXL_BLOCKS h) 8)
    (2 ^ d.rd Reg.HOOP_KVPOOL_HBM_BLOCK_LOG2 h)

/-- The list area: first offset of the HBM3E pool segment beyond its blocks (R303). -/
def Device.listArea (d : Device) (h : Nat) : Nat :=
  d.poolFirst h + d.rd Reg.HOOP_KVPOOL_HBM_BLOCKS h * 2 ^ d.rd Reg.HOOP_KVPOOL_HBM_BLOCK_LOG2 h

def Device.hbmPool (d : Device) (h : Nat) : Seg := d.seg h (d.rd Reg.HOOP_KVPOOL_HBM_SEG h)
def Device.cxlPool (d : Device) (h : Nat) : Seg := d.seg h (d.rd Reg.HOOP_KVPOOL_CXL_SEG h)

/-- The offset in the HBM3E pool segment of the bitmap byte of a block (R303). -/
def Device.bitmapOff (d : Device) (h : Nat) (cxl : Bool) (b : Nat) : Nat :=
  (if cxl then cdiv (d.rd Reg.HOOP_KVPOOL_HBM_BLOCKS h) 8 else 0) + b / 8

/-- The number of blocks of a pool. -/
def Device.poolBlocks (d : Device) (h : Nat) (cxl : Bool) : Nat :=
  d.rd (if cxl then Reg.HOOP_KVPOOL_CXL_BLOCKS else Reg.HOOP_KVPOOL_HBM_BLOCKS) h

/-- One byte of the free bitmap, none where it is uncorrectable (R234, R264). -/
def Device.poolByte (d : Device) (h o : Nat) : Option Nat := (d.readSeg (d.hbmPool h) o 1).map ofLe

/-- Whether a block is allocated, none where its byte of the bitmap is uncorrectable. -/
def Device.isAllocated (d : Device) (h : Nat) (cxl : Bool) (b : Nat) : Option Bool :=
  (d.poolByte h (d.bitmapOff h cxl b)).map (fun v => v.testBit (b % 8))

/-- The error record of an uncorrectable byte of the pool segment that the session unit meets (R234, R264). -/
def Device.poolError (d : Device) (h o n : Nat) : Device :=
  match (List.range n).findSome? (fun i => match (d.hbmPool h).place (o + i) with
    | .dev a => if d.badAt a 1 then some a else none
    | .host _ => none) with
  | some a => d.dataError h 0xFFFF 0xFFFFFFFF 0xFFFFFFFF a
  | none => d

/-- Mark a block of a pool allocated or free, and keep the count of free blocks (R303, R322). A number that the pool does not have names no block
(R306). DESIGN CHOICE (log entry 41): where the byte of the bitmap is uncorrectable, the block stays as it is marked and an error record is posted. -/
def Device.markBlock (d : Device) (h : Nat) (cxl : Bool) (b : Nat) (on : Bool) : Device :=
  let o := d.bitmapOff h cxl b
  if d.poolBlocks h cxl ≤ b then d
  else match d.poolByte h o with
    | none => d.poolError h o 1
    | some v =>
      let d' := d.writeSeg 4 9 (d.hbmPool h) o (le 1 (setBit v (b % 8) on))
      let f := if cxl then Reg.HOOP_KVFREE_CXL_FREE else Reg.HOOP_KVFREE_HBM_FREE
      if v.testBit (b % 8) = on then d' else d'.wr f h (if on then d.rd f h - 1 else d.rd f h + 1)

/-- The lowest-numbered free block of a pool at or above `n` (R303), or the offset of an uncorrectable byte of the bitmap that the search meets; the
fuel is the number of blocks left. -/
def Device.freeBlock (d : Device) (h : Nat) (cxl : Bool) : Nat → Nat → Except Nat (Option Nat)
  | 0, _ => .ok none
  | fuel + 1, n => match d.isAllocated h cxl n with
    | none => .error (d.bitmapOff h cxl n)
    | some true => Device.freeBlock d h cxl fuel (n + 1)
    | some false => .ok (some n)

/-- The lowest-numbered free block of a pool. -/
def Device.firstFree (d : Device) (h : Nat) (cxl : Bool) : Except Nat (Option Nat) := d.freeBlock h cxl (d.poolBlocks h cxl) 0

/-- A block-list entry (Table 12-3): block, tier, MOVING, PRESENT. -/
def listWord (block : Nat) (cxl moving present : Bool) : Nat :=
  block + 2 ^ 60 * b2n cxl + 2 ^ 61 * b2n moving + 2 ^ 63 * b2n present

/-- The list entry of block i of a session, none on an uncorrectable error (R306, R320). -/
def Device.listEntry (d : Device) (s : Sess) (i : Nat) : Option Nat :=
  (d.readSeg (d.hbmPool s.hoop) (s.blist + 8 * i) 8).map ofLe

def Device.setListEntry (d : Device) (s : Sess) (i w : Nat) : Device :=
  d.writeSeg 4 9 (d.hbmPool s.hoop) (s.blist + 8 * i) (le 8 w)

/-- Take n blocks from the HBM3E pool for a session, appending them to its list (R307, R308); or the offset of an uncorrectable byte of the bitmap. -/
def Device.growSess (d : Device) (si : Nat) : Nat → Except Nat Device
  | 0 => .ok d
  | n + 1 =>
    let s := d.sess si
    match d.firstFree s.hoop false with
    | .error o => .error o
    | .ok none => .ok d
    | .ok (some b) =>
      let d := (d.markBlock s.hoop false b true).setListEntry s s.blocks (listWord b false false true)
      Device.growSess (d.modSess si (fun s => { s with blocks := s.blocks + 1 })) si n

/-- The offset of byte b of token t in its pool, with whether it lies in the CXL pool (R310); none where the list entry
is uncorrectable. -/
def Device.tokenAt (d : Device) (s : Sess) (t b : Nat) : Option (Bool × Nat × Bool) :=
  (d.listEntry s (t / s.tpb)).map (fun w =>
    let cxl := w.testBit 60
    (cxl, (if cxl then 0 else d.poolFirst s.hoop) + (w % 2 ^ 27) * 2 ^ s.bsize + (t % s.tpb) * s.record + b, w.testBit 61))

/-- Give the bytes of a token that a reject discarded free values (R316), where its block lies in the pool segment (R306). -/
def Device.freshToken (d : Device) (s : Sess) (t : Nat) : Device :=
  match d.tokenAt s t 0 with
  | none => d
  | some (cxl, o, _) =>
    let data : Bytes := (List.range s.record).map (fun j => BitVec.ofNat 8 (Config.freeCell d.fresh j).toNat)
    let g := if cxl then d.cxlPool s.hoop else d.hbmPool s.hoop
    if g.limit < o + s.record then d else (d.step1).writeSeg 4 9 g o data

/-- A write raises PROVISIONAL to at least `n` (R311, R313); tokens it passes that a reject had discarded hold unspecified values
until they are written (R316). -/
def Device.raiseProv (d : Device) (si n : Nat) : Device :=
  let s := d.sess si
  if n ≤ s.prov then d
  else
    let d := (List.range (Nat.min n s.rej - s.prov)).foldl (fun d j => d.freshToken s (s.prov + j)) d
    d.modSess si (fun s => { s with prov := n, rej := if s.rej ≤ n then 0 else s.rej })

/-- SESSION_REJECT's change of the lengths (R316). -/
def Device.rejectSess (d : Device) (si : Nat) : Device :=
  d.modSess si (fun s => { s with rej := Nat.max s.rej s.prov, prov := s.committed })

/-- Whether a session index lies in a hoop's range (R311). -/
def Device.sessIn (d : Device) (h si : Nat) : Bool :=
  d.rd Reg.HOOP_SESSIONS_BASE h ≤ si && si < d.rd Reg.HOOP_SESSIONS_BASE h + d.rd Reg.HOOP_SESSIONS_COUNT h && si < 65536

/-- The count of live and releasing sessions, and of damaged ones, of a hoop (R322), with OVER_QUOTA (R40). -/
def Device.overQuota (d : Device) (h : Nat) : Device :=
  let above := d.rd Reg.HOOP_KVUSE_LIVE h > d.rd Reg.HOOP_SESSIONS_QUOTA h
    || d.rd Reg.HOOP_MEMQ_HBM_USE h > d.rd Reg.HOOP_MEMQ_HBM_QUOTA h
    || d.rd Reg.HOOP_MEMQ_CXL_USE h > d.rd Reg.HOOP_MEMQ_CXL_QUOTA h
  d.wr Reg.HOOP_STATUS_OVER_QUOTA h (b2n above)

/-- An uncorrectable error of a session descriptor is met: it is DAMAGED, and a record names it (R320). -/
def Device.sessMet (d : Device) (h si : Nat) : Device :=
  let s := d.sess si
  if !s.err || s.state = 0 || !d.sessIn h si then d
  else
    let d := d.setSess si { s with state := 3, err := false }
    let d := if s.state = 3 then d
      else (d.wr Reg.HOOP_KVUSE_LIVE h (d.rd Reg.HOOP_KVUSE_LIVE h - 1)).count Reg.HOOP_KVUSE_DAMAGED h
    (d.overQuota h).post { code := 0x19, hoop := h, object := si }

/-- Whether a SESSION_COMMIT or SESSION_REJECT of a session waits for the writes that were in flight when it was taken: a later write waits for it,
and is then checked against the new lengths (R317). -/
def Device.settling (d : Device) (si : Nat) : Bool :=
  d.work.queues.any (fun (x : Nat × Queue) => x.2.entries.any (fun e => e.started && e.done.isNone
    && (entOp e.bytes == 0x09 || entOp e.bytes == 0x0A) && fieldLe e.bytes 8 4 == si))

/-- Whether a spill moves the block of a token (R318). -/
def Device.tokenMoves (d : Device) (si t : Nat) : Bool :=
  match d.tokenAt (d.sess si) t 0 with
  | some x => x.2.2
  | none => false

/-- SPAN of R319. -/
def Sess.span (s : Sess) : Nat := cdiv (cdiv s.maxlen s.tpb) 128

/-- The 64 bytes of a session descriptor (Table 12-1); of a DAMAGED one STATE and HOOP alone (R320). -/
def Sess.bytes (s : Sess) : Bytes :=
  if s.state = 3 then le 1 (3 + 4 * s.hoop) ++ List.replicate 63 0
  else
    le 1 (s.state + 4 * s.hoop) ++ le 1 s.bsize ++ le 2 s.tpb ++ le 4 s.record ++ le 8 s.blist ++ le 4 s.committed
      ++ le 4 s.prov ++ le 4 s.blocks ++ le 4 s.maxlen ++ le 4 s.cxl ++ le 4 s.handle ++ le 16 s.tiermap ++ le 8 0

end Sys2Proof.Machine
end

