-- ==== Sys2Proof/Machine/StreamOps.lean ====
section
/-! DEFINITION. The stream engines (R278 to R297): write combining, moving and converting runs, multicast delivery, outcomes. -/

namespace Sys2Proof.Machine

/-! Free values and virtual addresses -/

/-- A fresh free value of `w` bits. -/
def Device.free (d : Device) (w : Nat) : Device × Nat := (d.step1, (Config.freeValue d.fresh).toNat % 2 ^ w)

/-- The hoop virtual address of an offset of a descriptor slot, under the map in force. -/
def Device.vaOf (d : Device) (h slot o : Nat) : Nat :=
  (((List.range 16).find? (fun s => d.rd (Reg.HOOP_SEGMAP_MAP s) h == slot)).getD slot) * 2 ^ 44 + o

/-- A fault code's entry status (Tables 4-8, 5-19). -/
def faultStatus (code : Nat) : Nat := if 0x11 ≤ code && code ≤ 0x15 then 0xB else if code = 0x60 then 0xA else 9

/-! What a descriptor is part of -/

/-- The queue and the ring pointer of the entry whose work a descriptor is part of. -/
def Device.descEntry (d : Device) (x : Desc) : Nat × Nat :=
  match x.owner with
  | .copy q id _ => (q, (((d.queue q).entries.find? (fun (y : Entry) => y.id == id)).map (fun (y : Entry) => y.ptr)).getD 0)
  | .node a _ _ => ((d.inst? a).map (fun (y : Inst) => (y.queue, y.ptr))).getD (0xFFFF, 0)
  | .block k _ _ => (((d.core k).kernel.bind d.kernel?).map (fun (y : Kernel) => (y.queue, y.ptr))).getD (0xFFFF, 0)
def Device.descQueue (d : Device) (x : Desc) : Nat := (d.descEntry x).1

/-- What a WATCH record names for a stream (Tables 17-6, 17-7). DESIGN CHOICE (log entry 41): the engine's die, the queue and the ring pointer of the entry
that the descriptor works for; the manual says that the waiter is the queue. -/
def Device.streamWaiter (d : Device) (x : Desc) : Waiter :=
  let y := d.descEntry x
  { die := x.engine / 16, queue := y.1, who := y.2 }

/-! Write-combining data -/

/-- The maximal runs of consecutive offsets of a table of bytes, rising. -/
def byteRuns (t : Tab Byte) : List (Nat × Bytes) :=
  t.foldr (fun (x : Nat × Byte) acc => match acc with
    | [] => [(x.1, [x.2])]
    | (o, b) :: r => if o = x.1 + 1 then (x.1, x.2 :: b) :: r else (x.1, [x.2]) :: (o, b) :: r) []

/-! Credits -/

/-- The credit pools of a die (R296). -/
def Device.pools (d : Device) (die : Nat) : Pools := Tab.get {} d.flow.pools die
def Device.setPools (d : Device) (die : Nat) (x : Pools) : Device :=
  { d with flow := { d.flow with pools := Tab.put {} d.flow.pools die x } }

/-- Take a credit for a line read, written, or moved to or from another chip (R296). -/
def Device.takeRead (d : Device) (die : Nat) : Device := let p := d.pools die; d.setPools die { p with read := p.read - 1 }
def Device.takeWrite (d : Device) (die : Nat) : Device := let p := d.pools die; d.setPools die { p with write := p.write - 1 }
def Device.takeRemote (d : Device) (die : Nat) : Device := let p := d.pools die; d.setPools die { p with remote := p.remote - 1 }

/-- What `n` fc add to a die's pools, by the shares of STREAM_SPLIT (R296). -/
def Device.addCredits (d : Device) (die n : Nat) : Device :=
  let p := d.pools die
  let up := fun (x share : Nat) => Nat.min 1024 (x + 4 * share * n)
  d.setPools die { p with read := up p.read (d.rd Reg.STREAM_SPLIT_READ die), write := up p.write (d.rd Reg.STREAM_SPLIT_WRITE die),
                          remote := up p.remote (d.rd Reg.STREAM_SPLIT_REMOTE die) }

/-! Write combining -/

/-- One write of some bytes of a line of device memory (R294): a whole line, or a partial write with its byte mask. -/
def Device.maskWrite (d : Device) (die hoop line cache : Nat) (t : Tab Byte) : Device :=
  let d := d.cohWrite1 die hoop (cache != 1) (cache != 2) line t.length (t.foldl (fun m (x : Nat × Byte) => m + 2 ^ x.1) 0)
  ((byteRuns t).foldl (fun d (r : Nat × Bytes) => d.writeDev (line * 128 + r.1) r.2) d)

/-- Send the host write that an engine is combining issued lines into. -/
def Device.postOut (d : Device) (e : Nat) : Device :=
  match (d.engine e).post with
  | none => d
  | some (h, a, b) => ((d.setEngine e { d.engine e with post := none }).hostWriteBy (e / 16) (d.ownerFn h) a b).cnt h 8 b.length

/-- An engine issues bytes to the host: they join the write being combined where they follow it and the two stay within the maximum payload size and
within one 4 KiB page (R294, R378); otherwise that write is sent first. -/
def Device.hostOut (d : Device) (e hoop a : Nat) (b : Bytes) : Device :=
  let joined := (d.engine e).post.bind (fun x =>
    if x.1 = hoop ∧ x.2.1 + x.2.2.length = a ∧ x.2.2.length + b.length ≤ d.pcie.mps ∧ a % 4096 ≠ 0 then some (hoop, x.2.1, x.2.2 ++ b) else none)
  match joined with
  | some x => d.setEngine e { d.engine e with post := some x }
  | none => let d := d.postOut e; d.setEngine e { d.engine e with post := some (hoop, a, b) }

/-- Issue a write-combining buffer: a whole or masked line to the L2, PCIe writes to the host (R294); it takes a write credit (R296). -/
def Device.wcIssue (d : Device) (e : Nat) (w : WcBuf) : Device :=
  let x := d.engine e
  let d := (d.setEngine e { x with wc := x.wc.erase w }).takeWrite (e / 16)
  if w.host then (byteRuns w.data).foldl (fun d (r : Nat × Bytes) => d.hostOut e w.hoop (w.line * 128 + r.1) r.2) d
  else d.maskWrite (e / 16) w.hoop w.line w.cache w.data

/-- Whether a write at `a` of `n` bytes is more than 64 bytes from a buffer's line (R294). -/
def WcBuf.far (w : WcBuf) (a n : Nat) : Bool := a + 64 < w.line * 128 || w.line * 128 + 128 + 64 < a + n

/-- Whether a buffer is that of the line of a write. -/
def WcBuf.holds (w : WcBuf) (hoop : Nat) (p : OutPiece) : Bool := w.host == p.host && w.line == p.a / 128 && (!p.host || w.hoop == hoop)

/-- The buffer that an engine issues before a write of a descriptor goes into the window (R294): one that the write leaves far behind, or the oldest
where a new one is needed and all 32 are in use. -/
def Engine.wcNeeds (g : Engine) (i hoop : Nat) (p : OutPiece) : Option WcBuf :=
  (g.wc.find? (fun w => w.descs.contains i && w.host == p.host && w.far p.a p.data.length)).or
    (if g.wc.length ≥ 32 && !g.wc.any (fun w => w.holds hoop p) then g.wc.head? else none)

/-- A write goes into the buffer of its line, or into a new one (R294). The watchpoints whose bytes it writes are hit once for each line and descriptor
(R444). -/
def Device.wcPut (d : Device) (e i : Nat) (x : Desc) (cache : Nat) (p : OutPiece) : Device :=
  let put := fun (t : Tab Byte) => (p.data.mapIdx (fun j b => (p.a % 128 + j, b))).foldl (fun t (y : Nat × Byte) => Tab.insert t y.1 y.2) t
  let g := d.engine e
  let old := g.wc.find? (fun w => w.holds x.hoop p)
  let hits := (d.watchMatch x.hoop 1 1 [(p.va, p.data.length)]).filter (fun y => !((old.map (·.hits)).getD []).contains (i, y.1))
  let upd := fun (w : WcBuf) => { w with descs := w.descs.filter (· != i) ++ [i], data := put w.data, hits := w.hits ++ hits.map (fun y => (i, y.1)) }
  let wc := match old with
    | some _ => g.wc.map (fun w => if w.holds x.hoop p then upd w else w)
    | none => g.wc ++ [upd { host := p.host, line := p.a / 128, descs := [], hoop := x.hoop, cache := cache }]
  let d := (d.setEngine e { g with wc := wc }).modDesc i (fun y => { y with host := y.host || p.host })
  if hits = [] then d else d.watchNote x.hoop 1 (d.streamWaiter x) hits

/-- A write goes into the window whatever it takes: the buffers that stand in its way are issued first (R293). -/
def Device.wcForce (d : Device) (e i : Nat) (x : Desc) (cache : Nat) (p : OutPiece) : Device :=
  let far := (d.engine e).wc.filter (fun w => w.descs.contains i && w.host == p.host && w.far p.a p.data.length)
  let d := far.foldl (fun d w => d.wcIssue e w) d
  let d := match (d.engine e).wcNeeds i x.hoop p with
    | some w => d.wcIssue e w
    | none => d
  d.wcPut e i x cache p

/-- Issue every buffer that holds bytes of a descriptor. -/
def Device.wcFlush (d : Device) (e i : Nat) : Device :=
  (((d.engine e).wc.filter (fun w => w.descs.contains i)).foldl (fun d w => d.wcIssue e w) d).postOut e

/-! Sides -/

/-- One side of a descriptor: a local allocation, a range of a segment (with its virtual base), tokens of a session, or a global
pointer. -/
inductive Side where
  | local_ (core place base : Nat)
  | mem (s : Seg) (o va : Nat)
  | session (si token off : Nat)
  | remote (ptr : Nat)
  deriving DecidableEq, Repr

/-- One side of a descriptor, as its segments stand now. -/
def Device.side (d : Device) (x : Desc) (s : SD) (dst : Bool) : Side :=
  let a := if dst then s.dst else s.src
  if s.mode = 3 ∧ dst = s.toSession then .session (a % 2 ^ 32) (bits a 55 32) s.mspec
  else if (if dst then s.dstLocal else s.srcLocal) then
    (match x.owner with
     | .block k p _ => .local_ k p a
     | _ => .local_ 0 0 a)
  else if (if dst then s.dstRemote else s.srcRemote) then .remote a
  else .mem (d.seg x.hoop (d.slotOf x.hoop x.map (bits a 47 44))) (a % 2 ^ 44) a

/-- The permissions that a descriptor's source needs, one of which is enough, and whether the host tier may hold it (R263, R285, R289). -/
def SD.srcNeed (s : SD) : List Nat := if s.mode = 2 then [3, 7] else [3]
def SD.hostOk (s : SD) : Bool := s.mode != 2 && s.mode != 5

/-- A piece of a run within one line: its position in the run, its length, its hoop virtual address, and where it lies, or the fault code and ARG2 of the
check that fails (R263, R292). -/
structure Piece where
  pos : Nat
  n : Nat
  va : Nat
  loc : Except (Nat × Nat) Loc

/-- Whether a SEGMENT_WRITE holds a piece (R270). -/
def heldBack (l : List Piece) : Bool := l.any (fun p => match p.loc with | .error e => e.1 == 0 | .ok _ => false)

/-- The pieces of n bytes at a hoop virtual address, each checked now (R292). -/
def Device.piecesAt (d : Device) (x : Desc) (va n : Nat) (need : List Nat) (hostOk : Bool) : Device × List Piece :=
  (linePieces va n).foldl (fun (m : Device × List Piece) p =>
    let r := m.1.rangeSeg (512 + x.engine) x.hoop x.map p.1 (0, (p.2 : Int)) need hostOk false
    (r.1, m.2 ++ [⟨p.1 - va, p.2, p.1, match r.2 with
      | .ok (g, o) => .ok (g.place o)
      | .error e => .error (e.code, e.arg2)⟩])) (d, [])

/-- An engine meets a descriptor slot of a hoop without a translation of its own (R268, R270): it must wait (code 0), its table line is uncorrectable, or the
entry is at hand. -/
def Device.meetSlot (d : Device) (eng h slot : Nat) : Device × Option (Nat × Nat) :=
  if d.segClosed h slot then (d, some (0, 0))
  else if !d.buffered eng (h * 32 + slot) && d.tableBad h slot then (d, some (0x60, 0))
  else (d.touch eng (h * 32 + slot), none)

/-- The slot of a hoop's pool (R303). -/
def Device.poolSlot (d : Device) (h : Nat) (cxl : Bool) : Nat := d.rd (if cxl then Reg.HOOP_KVPOOL_CXL_SEG else Reg.HOOP_KVPOOL_HBM_SEG) h

/-- The pieces of n bytes of a token's record, from byte b on (R306, R310): the block that its list entry names must lie in the pool's segment. -/
def Device.piecesOf (d : Device) (x : Desc) (si t b n : Nat) (need : List Nat) : Device × List Piece :=
  let s := d.sess si
  let eng := 512 + x.engine
  let list := d.poolSlot x.hoop false
  let fails := fun (d : Device) e => (d, [(⟨0, n, d.vaOf x.hoop list (s.blist + 8 * (t / s.tpb)), .error e⟩ : Piece)])
  let m := d.meetSlot eng x.hoop list
  match m.2, m.1.tokenAt s t b with
  | some e, _ => fails m.1 e
  | none, none => fails m.1 (0x60, 0)
  | none, some (cxl, o, _) =>
    let slot := d.poolSlot x.hoop cxl
    let m := m.1.meetSlot eng x.hoop slot
    (m.1, (linePieces o n).map (fun p => ⟨p.1 - o, p.2, d.vaOf x.hoop slot p.1, match m.2, d.checkSeg x.hoop slot p.1 p.2 need false true with
      | some e, _ => .error e
      | none, .ok g => .ok (g.place p.1)
      | none, .error e => .error (e.code, e.arg2)⟩))

/-- The pieces of run r of a side in memory or a session. -/
def Device.runPieces (d : Device) (x : Desc) (side : Side) (r : Nat) (off : Int) (n : Nat) (need : List Nat) (hostOk : Bool) : Device × List Piece :=
  match side with
  | .mem _ _ va => d.piecesAt x (va + off).toNat n need hostOk
  | .session si t b => d.piecesOf x si (t + r) b n need
  | _ => (d, [])

/-! What an engine reads -/

/-- The kind and number of the line of a piece, for the buffers of a hoop's descriptor; the number alone for another chip. -/
def Piece.key (h : Nat) (p : Piece) : Option (Nat × Nat) :=
  match p.loc with
  | .ok (.dev a) => some (0, a / 128)
  | .ok (.host a) => some (1 + h, a / 128)
  | .error _ => none

/-- A byte of a line as it was read: a fault code with its ARG2 where the line failed or the byte is uncorrectable. -/
def ELine.byte (l : ELine) (j : Nat) : Except (Nat × Nat) Byte :=
  if l.code ≠ 0 then .error (l.code, 0)
  else match (l.data.drop j).headD none with
    | some b => .ok b
    | none => .error (0x60, 0)

/-- The byte at an address of a kind that a descriptor has read. -/
def Desc.byteAt (x : Desc) (kind a : Nat) : Except (Nat × Nat) Byte :=
  match x.buf.find? (fun l => l.kind == kind && l.line == a / 128) with
  | some l => l.byte (a % 128)
  | none => .error (0x60, 0)

/-- The bytes of pieces in order, from the lines read; nothing is read after the first piece that fails. -/
def Desc.readPieces (x : Desc) (l : List Piece) : List (Except (Nat × Nat) Byte) :=
  l.foldl (fun m p =>
    if m.any (fun b => !b.isOk) then m ++ List.replicate p.n (.error (0x60, 0))
    else match p.loc with
      | .error e => m ++ List.replicate p.n (.error e)
      | .ok (.host a) => m ++ (List.range p.n).map (fun j => x.byteAt (1 + x.hoop) (a + j))
      | .ok (.dev a) => m ++ (List.range p.n).map (fun j => x.byteAt 0 (a + j))) []

/-- The bytes of run r of a source, each a byte or a fault code with its ARG2, and its pieces. -/
def Device.runRead (d : Device) (x : Desc) (s : SD) (side : Side) (r : Nat) (off : Int) : Device × List (Except (Nat × Nat) Byte) × List Piece :=
  let n := s.srcLen
  match side with
  | .local_ k p b =>
    let a := (b + off).toNat
    (d.localMet k p a n, (List.range n).map (fun j => if d.localBad k p (a + j) 1 then .error (0x60, 0) else .ok (d.localByte k p (a + j))), [])
  | .remote p => (d, (List.range n).map (fun j => x.byteAt (9 + x.hoop) ((p + off).toNat + j)), [])
  | _ =>
    let q := d.runPieces x side r off n s.srcNeed s.hostOk
    (q.1, x.readPieces q.2, q.2)

/-- The hoop virtual address, local address or global pointer of byte j of a run, for ARG1 (R292). -/
def sideAddr (side : Side) (off : Int) (l : List Piece) (j : Nat) : Nat :=
  match side with
  | .local_ _ _ b => (b + off).toNat + j
  | .remote p => (p + off).toNat + j
  | _ => ((l.find? (fun p => p.pos ≤ j && j < p.pos + p.n)).map (fun p => p.va + j - p.pos)).getD 0

/-- The device address of byte j of a run, where it has one. -/
def devAt (l : List Piece) (j : Nat) : Option Nat :=
  match l.find? (fun p => p.pos ≤ j && j < p.pos + p.n) with
  | some ⟨pos, _, _, .ok (.dev a)⟩ => some (a + j - pos)
  | _ => none

/-- The device address of the uncorrectable list entry of run r's token, on the side that is a session. -/
def Device.entryBad (d : Device) (src dst : Side) (r : Nat) : Option Nat :=
  let of_ := fun (x : Side) => match x with
    | .session si t _ => let s := d.sess si; d.badIn (d.hbmPool s.hoop) (s.blist + 8 * ((t + r) / s.tpb)) 8
    | _ => none
  (of_ src).or (of_ dst)

/-- Whether byte `y` of a place also lies in a source's runs (R290). -/
def srcHolds (src : Side) (runs : List (Int × Int)) (n : Nat) (y : Loc ⊕ Nat) : Bool :=
  let within := fun (base : Nat) (o : Nat) => runs.any (fun r => base + r.1 ≤ o && (o : Int) < base + r.1 + n)
  match src, y with
  | .mem s o _, .inl (.dev a) => (match s.offsetOf a with | some x => within o x | none => false)
  | .mem s o _, .inl (.host a) => s.tier == 2 && s.base ≤ a && within o (a - s.base)
  | .local_ _ _ b, .inr z => within b z
  | _, _ => false

/-- Replace bytes that also lie in the source by free values (R290). -/
def Device.mixFree (d : Device) (src : Side) (runs : List (Int × Int)) (n : Nat) (place : Nat → Loc ⊕ Nat) (data : Bytes) :
    Device × Bytes :=
  if (List.range data.length).all (fun j => !srcHolds src runs n (place j)) then (d, data)
  else
    (data.mapIdx (fun j b => (j, b))).foldl (fun (a : Device × Bytes) x =>
      if srcHolds src runs n (place x.1) then
        let f := a.1.free 8
        (f.1, a.2 ++ [BitVec.ofNat 8 f.2])
      else (a.1, a.2 ++ [x.2])) (d, [])

/-- The write of some bytes at the start of a piece. -/
def Piece.out (p : Piece) (data : Bytes) : Option OutPiece :=
  if data = [] then none
  else match p.loc with
    | .ok (.dev a) => some ⟨false, a, p.va, data⟩
    | .ok (.host a) => some ⟨true, a, p.va, data⟩
    | .error _ => none

/-- Write bytes at the start of run r of a destination whose pieces are given: those to memory wait for the write-combining window, and a remote put
gathers whole lines to send (R294, R352). -/
def Device.runWrite (d : Device) (i : Nat) (x : Desc) (s : SD) (src dst : Side) (off : Int) (l : List Piece) (data : Bytes) : Device :=
  match dst with
  | .local_ k p b =>
    let at_ := (b + off).toNat
    let m := d.mixFree src s.runs s.srcLen (fun j => .inr (at_ + j)) data
    m.1.localWrite k p at_ m.2
  | .remote p =>
    let g := (p + off).toNat
    d.modDesc i (fun y =>
      let one := fun (m : List (Nat × Bytes) × Option (Nat × Bytes)) (z : Nat × Nat) =>
        let part := slice data (z.1 - g) z.2
        let next : Nat × Bytes := match m.2 with
          | some a => if a.1 + a.2.length = z.1 ∧ z.1 % 128 ≠ 0 then (a.1, a.2 ++ part) else (z.1, part)
          | none => (z.1, part)
        let done := match m.2 with
          | some a => if next.1 = a.1 then m.1 else m.1 ++ [a]
          | none => m.1
        if (next.1 + next.2.length) % 128 = 0 then (done ++ [next], none) else (done, some next)
      let m := (linePieces g data.length).foldl one (y.puts, y.acc)
      { y with puts := m.1, acc := m.2 })
  | _ =>
    let place := fun j => match l.find? (fun p => p.pos ≤ j && j < p.pos + p.n) with
      | some ⟨pos, _, _, .ok (.dev a)⟩ => .inl (Loc.dev (a + j - pos))
      | some ⟨pos, _, _, .ok (.host a)⟩ => .inl (Loc.host (a + j - pos))
      | _ => .inr (2 ^ 64)
    let m := d.mixFree src s.runs s.srcLen place data
    m.1.modDesc i (fun y => { y with out := y.out ++ l.filterMap (fun p => p.out (slice m.2 p.pos (Nat.min p.n (m.2.length - p.pos)))) })

/-! Elements -/

/-- Element `i` of packed elements of `w` bits. -/
def elemAt (b : Bytes) (w i : Nat) : Nat := fieldLe b (w * i / 8) 9 / 2 ^ (w * i % 8) % 2 ^ w

/-- Pack elements of `w` bits into whole bytes, rounded down. -/
def packElems (w : Nat) (vs : List Nat) : Bytes :=
  le (vs.length * w / 8) (vs.foldr (fun v acc => v % 2 ^ w + 2 ^ w * acc) 0)

/-- A generator state, flags, and the elements so far. -/
structure Conv where
  gen : Nat
  flags : Nat := 0
  out : List Nat := []

/-- A draw for one element where RND is 4 (Table 7-4). -/
def Conv.next (c : Conv) (rnd : Nat) : Conv × Nat := if rnd = 4 then let g := draw c.gen; ({ c with gen := g }, g) else (c, 0)

/-- The first `m` elements of a run converted, with the scale bytes derived for their blocks (R284). A derived block is converted with saturation, and
one whose maximum is no number has the scale 0xFF and +0 for every element (R201). DESIGN CHOICE (log entry 41): with RND = 4 such an element takes its draw
like any other (Table 7-4 counts one for each output element). -/
def SD.convertRun (s : SD) (gen m : Nat) (b : Bytes) : Conv × List Nat :=
  let w := elemBits s.stype
  if s.derive_ then
    (List.range (m / s.block)).foldl (fun (a : Conv × List Nat) k =>
      let vs := (List.range s.block).map (fun j => elemAt b w (k * s.block + j))
      let sc := blockScale s.dtype (vs.map fp32.decode)
      let c := vs.foldl (fun (c : Conv) v =>
        let (c, g) := c.next s.rnd
        let r := if sc.1 = 0xFF then (0, 0) else convertScaled s.dtype s.rnd true g v sc.1
        { c with out := c.out ++ [r.1], flags := c.flags ||| r.2 }) { a.1 with flags := a.1.flags ||| sc.2 }
      (c, a.2 ++ [sc.1])) ({ gen := gen }, [])
  else
    ((List.range m).foldl (fun (c : Conv) i =>
      let (c, g) := c.next s.rnd
      let v := elemAt b w i
      let r :=
        if s.scale = 0 then convert s.stype s.dtype s.rnd s.sat g v
        else
          let e := fieldLe b (s.srcPack + i / s.block) 1
          let x := deliverTo s.dtype s.rnd s.sat g (if e = 255 then .nan else (valueOf s.stype v).scale ((e : Int) - 127))
          (x.1, if e = 255 then x.2 ||| 8 else x.2)
      { c with out := c.out ++ [r.1], flags := c.flags ||| r.2 }) { gen := gen }, [])

/-- The element that byte `p` of a run belongs to, or the first element of the block whose scale it is; with DERIVE the first element of its block. -/
def SD.elemOf (s : SD) (dst : Bool) (p : Nat) : Nat :=
  let pack := if dst then s.dstPack else s.srcPack
  let e := if p < pack then p * 8 / elemBits (if dst then s.dtype else s.stype) else (p - pack) * s.block
  if s.derive_ then e / s.block * s.block else e

/-- The first byte of the element that byte `p` of a copied record belongs to. -/
def SD.elemByte (s : SD) (p : Nat) : Nat :=
  if p < s.srcPack then p * 8 / elemBits s.stype * elemBits s.stype / 8 else p

/-- Move run `next` of a COPY, CONVERT or SESSION descriptor (R281 to R286, R292): a failing element stops the descriptor, and the elements before
it are written. -/
def Device.moveRun (d : Device) (i : Nat) (x : Desc) (s : SD) : Device :=
  let r := x.next
  let o := s.runAt r
  let src := d.side x s false
  let dst := d.side x s true
  let plain := s.stype = s.dtype
  let got := d.runRead x s src r o.1
  let bs := got.2.1
  let to_ := got.1.runPieces x dst r o.2 s.dstLen [4] true
  let d := to_.1
  let srcFail := bs.findIdx? (fun b => !b.isOk)
  let dstFail := (to_.2.find? (fun p => !p.loc.isOk)).map (·.pos)
  let whole := srcFail.isNone && dstFail.isNone
  let at_ := fun (dst : Bool) (p : Option Nat) => p.map (fun p => if plain then s.elemByte p else s.elemOf dst p)
  let end_ := if plain then s.srcLen else s.count 0
  let upto := Nat.min ((at_ false srcFail).getD end_) ((at_ true dstFail).getD end_)
  let data : Bytes := bs.map (fun b => match b with | .ok v => v | .error _ => 0)
  let gen := x.gen.getD (mix s.dseed 0xFFFFFFFF 0)
  let c := if plain then (({ gen := gen } : Conv), []) else s.convertRun gen upto data
  let out := if plain then data.take upto
    else packElems (elemBits s.dtype) c.1.out ++ (if whole then c.2.map (BitVec.ofNat 8) else [])
  let d := if out.isEmpty then d else d.runWrite i x s src dst o.2 to_.2 out
  let n := match dst with
    | .remote _ => 0
    | _ => out.length
  let d := ((d.numFlags x.hoop 2 c.1.flags).cnt x.hoop 16 n).modDesc i (fun y => { y with next := r + 1, gen := some c.1.gen, written := y.written + n })
  if whole then d
  else
    let bySrc : Bool := (at_ false srcFail).getD end_ ≤ (at_ true dstFail).getD end_ && srcFail.isSome
    let p := (if bySrc then srcFail else dstFail).getD 0
    let code : Nat × Nat := if bySrc then (match (bs.drop p).headD (.ok 0) with | .error e => e | .ok _ => (0x60, 0))
      else match to_.2.find? (fun p => !p.loc.isOk) with | some ⟨_, _, _, .error e⟩ => e | _ => (0x60, 0)
    let j := fun (w : Nat) => if plain then upto else upto * w / 8
    let arg1 := if bySrc then sideAddr src o.1 got.2.2 (j (elemBits s.stype)) else sideAddr dst o.2 to_.2 (j (elemBits s.dtype))
    d.modDesc i (fun y => { y with pos := y.next, status := faultStatus code.1, fault := some (code.1, arg1, code.2),
                                   stopDev := if code.1 = 0x60 then (devAt got.2.2 p).or (d.entryBad src dst r) else none })

/-! The update path -/

/-- One element of an update (R326): the writes and flags, or the fault code and address of the first read that fails. -/
def updElem (rd : Nat → Nat → Except Nat Nat) (u : Upd) (i : Nat) : Except (Nat × Nat) (List (Nat × Bytes) × Nat) :=
  let get := fun (on : Bool) a n => if on then (match rd a n with | .ok v => .ok v | .error e => .error (e, a)) else (.ok 0 : Except (Nat × Nat) Nat)
  match get true (u.hi + 2 * i) 2, get true (u.lo + 2 * i) 2, get true (u.grad + i * esize u.gtype) (esize u.gtype),
    get u.s1 (u.a1 + i * esize u.stype) (esize u.stype), get u.s2 (u.a2 + i * esize u.stype) (esize u.stype) with
  | .ok hi, .ok lo, .ok g, .ok s1, .ok s2 =>
    let r := updStep u hi lo g s1 s2
    .ok ([(u.hiOut + 2 * i, le 2 r.1), (u.lo + 2 * i, le 2 r.2.1)]
      ++ (if u.s1 then [(u.a1 + i * esize u.stype, le (esize u.stype) r.2.2.1)] else [])
      ++ (if u.s2 then [(u.a2 + i * esize u.stype, le (esize u.stype) r.2.2.2.1)] else []), r.2.2.2.2)
  | .error e, _, _, _, _ => .error e
  | _, .error e, _, _, _ => .error e
  | _, _, .error e, _, _ => .error e
  | _, _, _, .error e, _ => .error e
  | _, _, _, _, .error e => .error e

end Sys2Proof.Machine
end

