-- ==== Sys2Proof/Machine/StreamRun.lean ====
section
/-! DEFINITION. A descriptor's life: issue, placing, start, delivery, spill, completion and stop (R278 to R295, R313, R318). -/

namespace Sys2Proof.Machine

/-! Issue -/

/-- The array ranges of an update of `n` elements from `first`: address, bytes, permission (R324, R325). -/
def Upd.ranges (u : Upd) (first n : Nat) : List (Nat × Nat × Nat) :=
  let st := fun (on : Bool) a => if on then [(a + first * esize u.stype, n * esize u.stype, 3), (a + first * esize u.stype, n * esize u.stype, 4)]
    else ([] : List (Nat × Nat × Nat))
  [(u.hi + 2 * first, 2 * n, 3), (u.lo + 2 * first, 2 * n, 3), (u.grad + first * esize u.gtype, n * esize u.gtype, 3),
   (u.hiOut + 2 * first, 2 * n, 4), (u.lo + 2 * first, 2 * n, 4)] ++ st u.s1 u.a1 ++ st u.s2 u.a2

/-- Whether the update descriptor of an UPDATE descriptor holds (R325, R330). -/
def SD.updOk (s : SD) (ub : Bytes) : Bool := s.mode != 6 || (updValid ub && s.mspec + s.count 0 ≤ (parseUpd ub).count)

/-- The segment checks of a descriptor at issue: none, or the fault code and ARG1 of the first that fails (R263, R276). -/
def Device.issueCheck (d : Device) (eng h map : Nat) (s : SD) (ub : Bytes) : Device × Option (Nat × Nat × Nat) :=
  let seg := fun (a : Device × Option (Nat × Nat × Nat)) base e need hostOk => match a.2 with
    | some _ => a
    | none =>
      let r := a.1.rangeSeg eng h map base e need hostOk false
      (r.1, match r.2 with | .error x => some (x.code, base, x.arg2) | .ok _ => none)
  let rem := fun (a : Device × Option (Nat × Nat × Nat)) p => match a.2 with
    | some _ => a
    | none => (a.1, (a.1.remoteCheck h (gpChip p) false).map (fun c => (c, p, 0)))
  let side := fun a (dst : Bool) =>
    if (if dst then s.dstLocal else s.srcLocal) then a
    else if (if dst then s.dstRemote else s.srcRemote) then rem a (if dst then s.dst else s.src)
    else seg a (if dst then s.dst else s.src) (s.extent dst) (if dst then [4] else if s.mode = 2 then [3, 7] else [3]) (s.mode != 2 && s.mode != 5)
  match s.mode with
  | 0 => side (side (d, none) false) true
  | 1 => side (side (d, none) false) true
  | 2 => side (d, none) false
  | 3 => side (d, none) (!s.toSession)
  | 5 => side (d, none) false
  | 6 => ((parseUpd ub).ranges s.mspec (s.count 0)).foldl (fun a r => seg a r.1 (0, (r.2.1 : Int)) [r.2.2] true) (d, none)
  | _ => (d, none)

/-- The engine of a die with the fewest queued descriptors, the lowest on a tie (R278). -/
def Device.lightest (d : Device) (die : Nat) : Nat :=
  (List.range 15).foldl (fun b e =>
    let n := 16 * die + e + 1
    if (d.engine n).queue.length < (d.engine b).queue.length then n else b) (16 * die)

/-- Put a descriptor in an engine's queue. -/
def Device.enqueue (d : Device) (i e : Nat) : Device :=
  let d := d.modDesc i (fun x => { x with engine := e })
  let x := d.engine e
  d.setEngine e { x with queue := x.queue ++ [i] }

/-- Whether an engine's queue has a place (R279). -/
def Device.engineRoom (d : Device) (e : Nat) : Bool := (d.engine e).queue.length < 64

/-- The die of a descriptor of a COPY entry or copy node (R278). -/
def DOwner.die : DOwner → Nat
  | .block k _ _ => k / 64
  | .copy q _ _ => q % 4
  | .node _ n _ => n % 4

/-- Place the descriptors of a die that are held back, in order, while places are free (R279); 64 names no engine. -/
def Device.placeHeld (d : Device) (die : Nat) : Device :=
  (d.flow.descs.filter (fun (x : Nat × Desc) => x.2.engine == 64 && x.2.state == 0 && x.2.owner.die == die)).foldl
    (fun d x => if d.engineRoom (d.lightest die) then d.enqueue x.1 (d.lightest die) else d) d

/-- Leave an engine's queue. -/
def Device.dequeue (d : Device) (i : Nat) : Device :=
  match d.desc? i with
  | none => d
  | some x =>
    let e := d.engine x.engine
    (if x.engine < 64 then d.setEngine x.engine { e with queue := e.queue.erase i } else d).placeHeld x.owner.die

/-! Completion -/

/-- The descriptors of one COPY entry or copy node, with their indices. -/
def Device.siblings (d : Device) (o : DOwner) : List (Nat × Nat × Desc) :=
  d.flow.descs.filterMap (fun (x : Nat × Desc) => match o, x.2.owner with
    | .copy q e _, .copy q' e' k => if q = q' ∧ e = e' then some (x.1, k, x.2) else none
    | .node a n _, .node a' n' k => if a = a' ∧ n = n' then some (x.1, k, x.2) else none
    | _, _ => none)

def DOwner.idx : DOwner → Nat
  | .block _ _ k => k
  | .copy _ _ k => k
  | .node _ _ k => k

/-- Tell a COPY entry or copy node that all its descriptors have ended (R292). -/
def Device.tellOwner (d : Device) (o : DOwner) : Device :=
  let sib := d.siblings o
  if sib.any (fun x => x.2.2.state != 3) then d
  else
    let failed := (sib.filter (fun x => x.2.2.status != 0)).foldl (fun (b : Option (Nat × Nat)) x => match b with
      | none => some (x.2.1, x.2.2.status)
      | some y => if x.2.1 < y.1 then some (x.2.1, x.2.2.status) else b) none
    let status := (failed.map (·.2)).getD 0
    let bytes := sib.foldl (fun n x => n + x.2.2.written) 0
    let d := { d with flow := { d.flow with descs := d.flow.descs.filter (fun (x : Nat × Desc) => !sib.any (fun y => y.1 == x.1)) } }
    match o with
    | .copy q e _ => d.finish q e status bytes
    | .node a n _ =>
      (match d.inst? a with
       | some s => d.setInst a { s with nodes := s.nodes.map (fun (y : Nat × INode) =>
           if y.1 = n ∧ y.2.done = none then (y.1, { y.2 with done := some status, result := bytes }) else y) }
       | none => d)
    | _ => d

/-- The outcome of a descriptor reaches its owner: a block's handle completes, an entry or node may end, and the descriptors that
a failed one would have triggered are cancelled (R291, R292). The fuel bounds the chain. -/
def Device.outcome (d : Device) : Nat → Nat → Nat → Device
  | 0, _, _ => d
  | fuel + 1, i, status =>
    match d.desc? i with
    | none => d
    | some x =>
      let d := d.dequeue i
      match x.owner with
      | .block k p h =>
        let d := d.modBlock k p (fun b => { b with handles := b.handles.map (fun (y : Nat × Handle) =>
          if y.1 = h then (y.1, { y.2 with done := true, fault := x.fault }) else y) })
        { d with flow := { d.flow with descs := Tab.erase d.flow.descs i } }
      | _ =>
        let d := d.setDesc i { x with state := 3, status := status }
        let next := (d.siblings x.owner).filter (fun y =>
          status != 0 && y.2.2.state == 0 && (parseSd y.2.2.bytes).tkind == 1 && (parseSd y.2.2.bytes).tindex == x.owner.idx)
        (next.foldl (fun d y => Device.outcome d fuel y.1 0xC) d).tellOwner x.owner

/-- A descriptor's writes to its session are no longer in flight (R311, R313). -/
def Device.settleSess (d : Device) (i : Nat) (x : Desc) : Device :=
  match x.sess with
  | some si => if (parseSd x.bytes).toSession && x.state != 0 then d.modSess si (fun s => { s with writes := s.writes.erase i }) else d
  | none => d

/-- A descriptor ends: its buffers are issued, its flags were raised, its outcome reaches its owner. -/
def Device.endDesc (d : Device) (i : Nat) : Device :=
  match d.desc? i with
  | none => d
  | some x =>
    let d := if x.engine < 64 then d.wcFlush x.engine i else d
    let d := d.settleSess i x
    let status := if x.status = 0 then ((x.fault.map (fun (f : Nat × Nat × Nat) => faultStatus f.1)).getD 0) else x.status
    d.outcome (d.flow.descs.length + 1) i status

/-- A descriptor that fails at its start or while it moves: the status of an entry, and the deferred fault of a kernel. -/
def Device.failDesc (d : Device) (i status code arg1 arg2 : Nat) : Device :=
  d.modDesc i (fun x => { x with state := 2, status := status, fault := some (code, arg1, arg2), due := [] })

/-- Post the error record of uncorrectable data that a COPY entry or copy node consumed (R234). -/
def Device.descDataError (d : Device) (x : Desc) (addr : Nat) : Device :=
  match x.owner with
  | .copy q e _ =>
    let w := d.entWho q e
    d.dataError x.hoop q w.2 w.1 addr
  | .node a _ _ =>
    (match d.inst? a with
     | some s => d.dataError x.hoop s.queue (d.nodeWho a).2 s.ptr addr
     | none => d)
  | _ => d

/-! Start -/

/-- The session checks at a descriptor's start (R313): the runs it may move and whether any is clipped, or status and fault. -/
def Device.sessCheck (d : Device) (x : Desc) (s : SD) (dstTier : Option Nat) : Except (Nat × Nat × Nat × Nat) (Nat × Bool) :=
  let a := if s.toSession then s.dst else s.src
  let si := a % 2 ^ 32
  let t := bits a 55 32
  let y := d.sess si
  let len := if s.toSession then s.dstLen else s.srcLen
  let n := s.count 1
  if !d.sessIn x.hoop si then .error (3, 0x18, si, 0)
  else if y.state = 3 then .error (0xA, 0x60, si, 2)
  else if y.state ≠ 1 then .error (3, 0x18, si, 0)
  else if y.record < s.mspec + len then .error (3, 0x19, t, 0)
  else if s.toSession then
    let lim := Nat.min (y.blocks * y.tpb) (Nat.min (y.committed + 4096) y.maxlen)
    if t + n ≤ lim then .ok (n, false) else .error (3, 0x19, Nat.max t lim, 0)
  else
    let lim := if dstTier.isNone ∨ dstTier = some 0 then y.prov else y.committed
    let m := Nat.min n (lim - t)
    .ok (m, m != n)

/-! Spill -/

/-- The pool of a tier and the offset of its block `n` (R303, R310). -/
def Device.poolOf (d : Device) (h : Nat) (cxl : Bool) : Seg := if cxl then d.cxlPool h else d.hbmPool h
def Device.blockOff (d : Device) (h : Nat) (cxl : Bool) (y : Sess) (n : Nat) : Nat := (if cxl then 0 else d.poolFirst h) + n * 2 ^ y.bsize

/-- A spill that ends between its steps clears MOVING and gives its new block back, or frees the old one (R293, R318); the list of a DAMAGED session is
not touched (R320). -/
def Device.spillUndo (d : Device) (x : Desc) : Device :=
  let s := parseSd x.bytes
  let si := s.src % 2 ^ 32
  let y := d.sess si
  let toCxl := s.mspec == 0
  let d := match x.spillNew with
    | some n =>
      let d := d.markBlock x.hoop toCxl n false
      (match (if y.state = 3 then none else d.listEntry y x.spillNext) with
       | some w => d.setListEntry y x.spillNext (listWord (w % 2 ^ 27) (w.testBit 60) false true)
       | none => d)
    | none => d
  match x.spillOld with
  | some (pool, n) => d.markBlock x.hoop (pool == 1) n false
  | none => d

/-! Lines -/

/-- The line that an open read of a descriptor asks for. -/
def Device.dueLine (d : Device) (far : Bool) (tag : Nat) : Option Nat :=
  if far then (Tab.find? d.klz.remotes tag).map (fun (r : Remote) => r.b / 128)
  else (Tab.find? d.flow.reads tag).map (fun (r : HRead) => r.b / 128)

/-- A line comes for the next unit of a descriptor. -/
def Device.lineIn (d : Device) (i : Nat) (l : ELine) : Device := d.modDesc i (fun y => { y with buf := y.buf ++ [l] })

/-- An engine keeps a line that it has read whole, the 32 last of them (R295). -/
def Device.keep (d : Device) (e : Nat) (l : ELine) : Device :=
  if l.code ≠ 0 ∨ l.data.any (fun b => b.isNone) then d
  else
    let g := d.engine e
    let k := g.kept.filter (fun k => !(k.kind == l.kind && k.line == l.line)) ++ [l]
    d.setEngine e { g with kept := k.drop (k.length - 32) }

/-- A line at a hoop virtual address that a descriptor reads is matched against the watchpoints of its hoop (R443, R444). -/
def Device.readWatch (d : Device) (x : Desc) (va : Nat) : Device :=
  let hits := d.watchMatch x.hoop 1 0 [(va, 128)]
  if hits = [] then d else d.watchNote x.hoop 0 (d.streamWaiter x) hits

/-- An engine reads a line of device memory for a descriptor (R295): a read credit, the L2, and each byte comes or is uncorrectable. -/
def Device.readLine (d : Device) (i : Nat) (x : Desc) (cache line va : Nat) : Device :=
  let d := (((d.takeRead (x.engine / 16)).cohRead1 (x.engine / 16) x.hoop (cache != 1) (cache != 2) line).readWatch x va)
  let l : ELine := { kind := 0, line := line, data := (List.range 128).map (fun j =>
    if d.badAt (line * 128 + j) 1 then none else some (d.mem.get (line * 128 + j))) }
  (d.keep x.engine l).lineIn i l

/-- Ask another chip for a line of a descriptor's source (R288, R352); it takes a remote credit (R296). -/
def Device.askFar (d : Device) (i : Nat) (x : Desc) (line : Nat) : Device :=
  let p := line * 128
  let rq : Remote := { kind := 2, a := i, b := p, c := 128, hoop := x.hoop, chip := gpChip p, win := gpWin p, off := gpOff p,
                       pkt := d.dataPkt x.hoop 0x01 (gpChip p) (gpWin p) (gpOff p) (be 8 128) }
  match d.openRemote rq with
  | some e => (e.takeRemote (x.engine / 16)).modDesc i (fun y => { y with due := y.due ++ [d.klz.nextTag] })
  | none => d.lineIn i { kind := 9 + x.hoop, line := line, code := 0x15 }

/-- Ask the host for a line of a descriptor's source (R267); it takes a read credit (R296). -/
def Device.askHost (d : Device) (i : Nat) (x : Desc) (line va : Nat) : Device :=
  let p := line * 128
  (((d.openRead { kind := 2, a := i, b := p, c := 128, fn := d.ownerFn x.hoop, addr := p } 128).takeRead (x.engine / 16)).modDesc i
    (fun y => { y with due := y.due ++ [d.fresh] })).readWatch x va

/-- The reads of element `i` of an update: address and bytes (R326). -/
def Upd.reads (u : Upd) (i : Nat) : List (Nat × Nat) := ((u.ranges i 1).filter (fun r => r.2.2 == 3)).map (fun r => (r.1, r.2.1))

/-- The lines that the next unit of a descriptor reads, up to the first check that fails: kind, number, and hoop virtual address or global pointer. -/
def Device.unitKeys (d : Device) (x : Desc) (s : SD) : List (Nat × Nat × Nat) :=
  let of_ := fun (l : List Piece) => (l.takeWhile (fun p => p.loc.isOk)).filterMap (fun p => (p.key x.hoop).map (fun k => (k.1, k.2, p.va / 128 * 128)))
  if s.mode = 6 then ((parseUpd (x.bytes.drop 128)).reads (s.mspec + x.next)).flatMap (fun y => of_ (d.piecesAt x y.1 y.2 [3] true).2)
  else
    let o := (s.runAt x.next).1
    match d.side x s false with
    | .local_ _ _ _ => []
    | .remote p => (linesOf (p + o).toNat s.srcLen).map (fun n => (9 + x.hoop, n, n * 128))
    | side => of_ (d.runPieces x side x.next o s.srcLen s.srcNeed s.hostOk).2

/-- The first line that the next unit still lacks and that is not asked for, once the lines that the engine has kept are taken (R295); and whether any line
is lacking. -/
def Device.lacks (d : Device) (x : Desc) (s : SD) : Option (Nat × Nat × Nat) × Bool :=
  let l := (d.unitKeys x s).filter (fun k => !x.buf.any (fun b => b.kind == k.1 && b.line == k.2.1))
  let due := x.due.filterMap (fun t => d.dueLine s.srcRemote t)
  (l.find? (fun k => k.1 == 0 || !due.contains k.2.1), !l.isEmpty)

/-- The kept lines of its engine that the next unit of a descriptor reads (R295). -/
def Device.takeKept (d : Device) (i : Nat) (x : Desc) (s : SD) : Device :=
  if (d.engine x.engine).kept.isEmpty then d
  else
    let keys := d.unitKeys x s
    let mine := (d.engine x.engine).kept.filter (fun l => keys.any (fun k => k.1 == l.kind && k.2.1 == l.line)
      && !x.buf.any (fun b => b.kind == l.kind && b.line == l.line))
    if mine = [] then d else d.modDesc i (fun y => { y with buf := y.buf ++ mine })

/-! Units: runs, or elements of an update -/

/-- A unit of a descriptor fails: the later ones are not done (R292). -/
def Device.stopUnit (d : Device) (i : Nat) (f : Nat × Nat × Nat) (dev : Option Nat) : Device :=
  d.modDesc i (fun y => { y with pos := y.next, status := faultStatus f.1, fault := some f, stopDev := dev })

/-- Element `next` of an UPDATE descriptor (R326, R330): its reads, its step, its writes; a check that fails stops the descriptor before any of them. -/
def Device.updUnit (d : Device) (i : Nat) (x : Desc) (s : SD) : Device :=
  let u := parseUpd (x.bytes.drop 128)
  let j := s.mspec + x.next
  let m := (u.reads j).foldl (fun (m : Device × List ((Nat × Nat) × List (Except (Nat × Nat) Byte) × List Piece)) r =>
    let q := m.1.piecesAt x r.1 r.2 [3] true
    (q.1, m.2 ++ [(r, x.readPieces q.2, q.2)])) (d, [])
  let rd := fun va n => match m.2.find? (fun y => y.1 == (va, n)) with
    | some y => (match y.2.1.find? (fun b => !b.isOk) with
      | some (.error e) => .error e.1
      | _ => .ok (ofLe (y.2.1.map (fun b => match b with | .ok v => v | .error _ => 0))))
    | none => .error 0x60
  let d := m.1.modDesc i (fun y => { y with next := y.next + 1 })
  match updElem rd u j with
  | .error (code, va) =>
    let y := m.2.find? (fun y => y.1.1 == va && y.2.1.any (fun b => !b.isOk))
    let k := (y.bind (fun y => y.2.1.findIdx? (fun b => !b.isOk))).getD 0
    let arg2 := match y.map (fun y => (y.2.1.drop k).headD (.ok 0)) with
      | some (.error e) => e.2
      | _ => 0
    d.stopUnit i (code, va, arg2) (if code = 0x60 then y.bind (fun y => devAt y.2.2 k) else none)
  | .ok (ws, fl) =>
    let ps := ws.foldl (fun (m : Device × List (Bytes × List Piece)) w =>
      let q := m.1.piecesAt x w.1 w.2.length [4] true
      (q.1, m.2 ++ [(w.2, q.2)])) (d, [])
    match (ps.2.flatMap (fun (w : Bytes × List Piece) => w.2)).find? (fun (p : Piece) => !p.loc.isOk) with
    | some ⟨_, _, va, .error e⟩ => ps.1.stopUnit i (e.1, va, e.2) none
    | _ =>
      let n := ws.foldl (fun n w => n + w.2.length) 0
      let out := ps.2.flatMap (fun w => w.2.filterMap (fun p => p.out (slice w.1 p.pos p.n)))
      ((ps.1.numFlags x.hoop 3 fl).cnt x.hoop 16 n).modDesc i (fun y => { y with written := y.written + n, out := y.out ++ out })

/-- An uncorrectable error met by an L2_FILL is counted (Table 8-3, R289). -/
def Device.countUncorr (d : Device) (die : Nat) : Device := d.countSat Reg.L2_ECC_UNCORR die

/-- The next line of an L2_FILL (R289): it is brought into the die's L2; a bad one, or one that finds no way, is dropped and counted. A line that the
engine has kept is not read again (R295). Whether it has read a line. -/
def Device.fillLine (d : Device) (i : Nat) (x : Desc) (s : SD) : Device × Bool :=
  let die := x.engine / 16
  let q := d.piecesAt x (s.src + (s.runAt x.next).1).toNat s.srcLen s.srcNeed false
  let last : Bool := q.2.length ≤ x.sub + 1
  let d := q.1.modDesc i (fun y => { y with next := if last then y.next + 1 else y.next, sub := if last then 0 else y.sub + 1 })
  match (q.2.drop x.sub).head? with
  | some ⟨_, _, va, .error e⟩ => (d.stopUnit i (e.1, va, e.2) none, false)
  | some ⟨_, _, va, .ok (.dev a)⟩ =>
    if (d.engine x.engine).kept.any (fun k => k.kind == 0 && k.line == a / 128) then (d, false)
    else
      let d := (d.takeRead die).readWatch x (va / 128 * 128)
      let l : ELine := { kind := 0, line := a / 128, data := (d.mem.read (a / 128 * 128) 128).map some }
      (if d.lineBad (a / 128) then d.countUncorr die
       else if d.coh.canAlloc die (a / 128) (d.wayMask x.hoop die) then (d.cohRead1 die x.hoop true true (a / 128)).keep x.engine l
       else d.countUncorr die, true)
  | _ => (d, false)

/-- A record of a MULTICAST descriptor, whose lines are at hand, is read for its channel (R285); one that fails stops the descriptor after the records
before it (R292). -/
def Device.readRecord (d : Device) (i : Nat) (x : Desc) (s : SD) : Device :=
  let off := (s.runAt x.next).1
  let side := d.side x s false
  let got := d.runRead x s side x.next off
  let d := got.1.modDesc i (fun y => { y with next := y.next + 1 })
  match got.2.1.findIdx? (fun b => !b.isOk) with
  | some j =>
    let code : Nat × Nat := match (got.2.1.drop j).headD (.ok 0) with | .error e => e | .ok _ => (0x60, 0)
    d.stopUnit i (code.1, sideAddr side off got.2.2 j, code.2) (if code.1 = 0x60 then devAt got.2.2 j else none)
  | none =>
    let data : Bytes := got.2.1.map (fun b => match b with | .ok v => v | .error _ => 0)
    let col : Col := ⟨data.take s.srcPack, data.drop s.srcPack, s.stype, s.scale, bits s.mspec 6 5, false⟩
    d.modDesc i (fun y => { y with recs := y.recs ++ [col] })

/-- Whether no spill moves the block that the next unit writes, and no SEGMENT_WRITE holds its segments (R270, R318). -/
def Device.mayMove (d : Device) (x : Desc) (s : SD) : Bool :=
  let held := if s.mode = 6 then
      ((parseUpd (x.bytes.drop 128)).ranges (s.mspec + x.next) 1).any (fun r => heldBack (d.piecesAt x r.1 r.2.1 [r.2.2] true).2)
    else if s.mode = 5 then heldBack (d.piecesAt x (s.src + (s.runAt x.next).1).toNat s.srcLen s.srcNeed false).2
    else
      let o := s.runAt x.next
      heldBack (d.runPieces x (d.side x s false) x.next o.1 s.srcLen s.srcNeed s.hostOk).2
      || (s.mode != 2 && heldBack (d.runPieces x (d.side x s true) x.next o.2 s.dstLen [4] true).2)
  let moves := match d.side x s true with
    | .session si t _ => s.mode == 3 && d.tokenMoves si (t + x.next)
    | _ => false
  !moves && !held

/-- What ends a session-mode descriptor before its next token: its session is DAMAGED (R320), or the token is provisional and the destination has come to
lie outside HBM3E, where provisional data may not go (R314); it then ends with PARTIAL like a clipped one. -/
def Device.sessEnds (d : Device) (i : Nat) (x : Desc) (s : SD) : Option Device :=
  if s.mode ≠ 3 then none
  else
    let a := if s.toSession then s.dst else s.src
    let si := a % 2 ^ 32
    let d := d.sessMet x.hoop si
    let out := match d.side x s true with
      | .mem g _ _ => g.tier != 0
      | _ => false
    if (d.sess si).state = 3 then some (d.stopUnit i (0x60, si, 2) none)
    else if !s.toSession && out && (d.sess si).committed ≤ bits a 55 32 + x.next then some (d.modDesc i (fun y => { y with pos := y.next, status := 7 }))
    else none

/-- Nothing is left to move: what a remote put has gathered is sent, and then the descriptor has moved (R292). -/
def Device.moved (d : Device) (i : Nat) (x : Desc) : Device :=
  let puts := x.puts ++ (match x.acc with | some a => [a] | none => [])
  let d := d.modDesc i (fun y => { y with puts := puts, acc := none })
  if puts.isEmpty ∧ x.putTag = none then
    (match x.stopDev with
     | some z => d.descDataError x z
     | none => d).modDesc i (fun y => { y with state := 2 })
  else d

/-- Do the next unit of a descriptor, whose lines are at hand. -/
def Device.unit (d : Device) (i : Nat) (x : Desc) (s : SD) : Device :=
  (match s.mode with
   | 2 => d.readRecord i x s
   | 6 => d.updUnit i x s
   | _ => d.moveRun i x s).modDesc i (fun y => { y with buf := [] })

/-! Remote puts -/

/-- A line of a put is refused or finds no port: the descriptor stops at it (R292). -/
def Device.putFails (d : Device) (i ptr code : Nat) : Device :=
  d.modDesc i (fun y => { y with puts := [], acc := none, putTag := none, pos := y.next, status := faultStatus code, fault := some (code, ptr, 0),
                                 stopDev := none })

/-- Send the next line of a remote put, one at a time, with its credit (R292, R296, R352). -/
def Device.sendPut (d : Device) (i : Nat) (x : Desc) (p : Nat) (b : Bytes) : Device :=
  let rq : Remote := { kind := 2, a := i, b := p, c := b.length, hoop := x.hoop, chip := gpChip p, win := gpWin p, off := gpOff p, writes := true,
                       pkt := d.dataPkt x.hoop 0x03 (gpChip p) (gpWin p) (gpOff p) b }
  match d.openRemote rq with
  | some e => (e.takeRemote (x.engine / 16)).modDesc i (fun y => { y with putTag := some d.klz.nextTag })
  | none => d.putFails i p 0x15

/-! Stop -/

/-- A descriptor stops under an abort (R293): accepted lines are performed, no later unit starts. -/
def Device.stopDesc (d : Device) (i : Nat) : Device :=
  match d.desc? i with
  | none => d
  | some x =>
    if x.state = 3 then d
    else
      let rest := (if x.putTag.isSome then x.puts.drop 1 else x.puts) ++ (match x.acc with | some a => [a] | none => [])
      let d := rest.foldl (fun d (y : Nat × Bytes) =>
        (d.openRemote { kind := 2, a := i, b := y.1, c := y.2.length, hoop := x.hoop, chip := gpChip y.1, win := gpWin y.1, off := gpOff y.1, writes := true,
                        pkt := d.dataPkt x.hoop 0x03 (gpChip y.1) (gpWin y.1) (gpOff y.1) y.2 }).getD d) d
      let d := x.out.foldl (fun d p => d.wcForce x.engine i x (parseSd x.bytes).cache p) d
      let d := d.spillUndo x
      (d.setDesc i { x with
        status := 1
        fault := none
        members := []
        out := []
        recs := []
        puts := []
        acc := none
        putTag := none
        spillNew := none
        spillOld := none }).endDesc i

/-! Start -/

/-- Start a COPY, CONVERT or SESSION descriptor: the session's checks, then its runs. -/
def Device.startMove (d : Device) (i : Nat) (x : Desc) (s : SD) : Device :=
  let d := if s.srcRemote || s.dstRemote then d.reshaped x.hoop (d.descQueue x) else d
  let si := (if s.toSession then s.dst else s.src) % 2 ^ 32
  let d := if s.mode = 3 then d.sessMet x.hoop si else d
  let tier := match d.side x s true with
    | .mem g _ _ => some g.tier
    | _ => none
  match (if s.mode = 3 then d.sessCheck x s tier else .ok (s.runCount, false)) with
  | .error e => d.failDesc i e.1 e.2.1 e.2.2.1 e.2.2.2
  | .ok (n, clipped) =>
    let d := d.modDesc i (fun y => { y with state := 1, pos := n, status := if clipped then 7 else 0,
                                            sess := if s.mode = 3 then some si else none })
    if s.toSession then
      (d.raiseProv si (bits s.dst 55 32 + s.count 1)).modSess si (fun z => { z with writes := z.writes ++ [i] })
    else d

/-! Multicast -/

/-- The cores that a MULTICAST descriptor names (R285). -/
def SD.memberCores (s : SD) : List Nat := (setBits 8 (bits s.mspec 15 8)).map (fun j => 8 * bits s.mspec 4 0 + j)

/-- Whether a MULTICAST descriptor must wait for membership or its channel (R188, R285). -/
def Device.multicastWaits (d : Device) (s : SD) : Bool :=
  s.mode == 2 && (s.memberCores.any d.inGroup || d.flow.descs.any (fun (x : Nat × Desc) =>
    let y := parseSd x.2.bytes
    x.2.state == 1 && y.mode == 2 && bits y.mspec 6 0 == bits s.mspec 6 0))

/-! The moves of a spill -/

/-- TIERMAP after block `b` of a session took a tier (R319). -/
def Device.tiermapAfter (d : Device) (y : Sess) (b : Nat) (cxl : Bool) : Nat :=
  let j := b / y.span
  let others := (List.range y.span).any (fun k =>
    let n := j * y.span + k
    n != b && n < y.blocks && (match d.listEntry y n with | some w => w.testBit 60 | none => false))
  setBit y.tiermap j (cxl || others)

/-- Lines of the old block that engines still hold in write-combining buffers. -/
def Device.heldOf (d : Device) (g : Seg) (o n : Nat) : List (Nat × WcBuf) :=
  d.flow.engines.flatMap (fun (e : Nat × Engine) => (e.2.wc.filter (fun w => !w.host && (match g.offsetOf (w.line * 128) with
    | some z => o ≤ z && z < o + n
    | none => false))).map (fun w => (e.1, w)))

/-- Whether a descriptor holds bytes of a range of a segment that have still to go into the window. -/
def Device.outOf (d : Device) (g : Seg) (o n : Nat) : Bool :=
  d.flow.descs.any (fun (x : Nat × Desc) => x.2.out.any (fun p => !p.host && (match g.offsetOf p.a with
    | some z => o ≤ z && z < o + n
    | none => false)))

/-- A SPILL descriptor ends with a status at a fault. -/
def Device.spillFails (d : Device) (i : Nat) (x : Desc) (code arg1 arg2 : Nat) (dev : Option Nat) : Device :=
  let d := match dev with
    | some z => d.descDataError x z
    | none => d
  ((d.spillUndo x).modDesc i (fun y => { y with spillNew := none })).failDesc i (faultStatus code) code arg1 arg2

/-- The list entry of the next block of a spill, as the engine meets it (R268, R320), or what it meets: it must wait (code 0), or the error. -/
def Device.spillEntry (d : Device) (x : Desc) : Device × Except Nat Nat :=
  let m := d.meetSlot (512 + x.engine) x.hoop (d.poolSlot x.hoop false)
  match m.2, m.1.listEntry (d.sess ((parseSd x.bytes).src % 2 ^ 32)) x.spillNext with
  | some e, _ => (m.1, .error e.1)
  | none, none => (m.1, .error 0x60)
  | none, some w => (m.1, .ok w)

/-- An uncorrectable list entry ends a spill (R320). -/
def Device.spillListBad (d : Device) (i : Nat) (x : Desc) : Device :=
  let y := d.sess ((parseSd x.bytes).src % 2 ^ 32)
  d.spillFails i x 0x60 (d.vaOf x.hoop (d.poolSlot x.hoop false) (y.blist + 8 * x.spillNext)) 0 (d.badIn (d.hbmPool x.hoop) (y.blist + 8 * x.spillNext) 8)

/-- Steps 1 and 2 of R318 for the next block that a SPILL descriptor can move: a block of the target pool is taken and MOVING is set; a block that another
spill moves is waited for. Blocks of the target tier are passed over; the fuel is the number of blocks left. -/
def Device.spillBegin (d : Device) (i : Nat) : Nat → Device
  | 0 => d.modDesc i (fun x => { x with state := 2 })
  | fuel + 1 =>
    match d.desc? i with
    | none => d
    | some x =>
      let s := parseSd x.bytes
      let y := d.sess (s.src % 2 ^ 32)
      let b := x.spillNext
      let toCxl := s.mspec == 0
      if b ≥ y.blocks ∨ (toCxl ∧ y.committed < (b + 1) * y.tpb) then d.setDesc i { x with state := 2, status := 7 }
      else
        let e := d.spillEntry x
        match e.2 with
        | .error c => if c = 0 then e.1 else e.1.spillListBad i x
        | .ok w =>
          let d := e.1
          let cxl := w.testBit 60
          let o := d.blockOff x.hoop cxl y (w % 2 ^ 27)
          let slot := d.poolSlot x.hoop cxl
          if w.testBit 61 then d
          else if cxl = toCxl then Device.spillBegin (d.setDesc i { x with spillNext := b + 1 }) i fuel
          else
            let m := d.meetSlot (512 + x.engine) x.hoop slot
            match m.2, d.checkSeg x.hoop slot o (2 ^ y.bsize) [3] false true, d.firstFree x.hoop toCxl with
            | some c, _, _ => if c.1 = 0 then m.1 else m.1.spillFails i x c.1 (d.vaOf x.hoop slot o) c.2 none
            | none, .error e, _ => m.1.spillFails i x e.code (d.vaOf x.hoop slot o) e.arg2 none
            | none, .ok _, .error z => m.1.spillFails i x 0x60 (d.vaOf x.hoop (d.poolSlot x.hoop false) z) 0 (d.badIn (d.hbmPool x.hoop) z 1)
            | none, .ok _, .ok none => m.1.setDesc i { x with state := 2, status := 8 }
            | none, .ok _, .ok (some n) =>
              let d := (m.1.markBlock x.hoop toCxl n true).setListEntry y b (listWord (w % 2 ^ 27) cxl true true)
              d.modDesc i (fun x => { x with spillNew := some n, spillLine := 0 })

/-- Step 4 of R318: the list entry, CXL_BLOCKS and TIERMAP show the new place `n` of a block; SPILL_OLD_BLOCK_FREE frees the old one. -/
def Device.spillPlaced (d : Device) (i : Nat) (x : Desc) (w n : Nat) : Device :=
  let s := parseSd x.bytes
  let si := s.src % 2 ^ 32
  let y := d.sess si
  let toCxl := s.mspec == 0
  let d := d.setListEntry y x.spillNext (listWord n toCxl false true)
  let d := d.modSess si (fun z => { z with cxl := if toCxl then z.cxl + 1 else z.cxl - 1, tiermap := d.tiermapAfter y x.spillNext toCxl })
  (d.cnt x.hoop 16 (2 ^ y.bsize)).modDesc i (fun x => { x with
    spillNext := x.spillNext + 1
    spillNew := none
    spillLine := 0
    spillOld := some (if w.testBit 60 then 1 else 0, w % 2 ^ 27)
    written := x.written + 2 ^ y.bsize })

/-- Step 3 of R318: the next line of the block is copied to block `n` of the target pool, with a read and a write credit (R296), once nothing of the old
block waits in an engine; a buffer that holds some of it is issued first. Whether a line was read, and one written. -/
def Device.spillCopy (d : Device) (i : Nat) (x : Desc) (n : Nat) : Device × Bool × Bool :=
  let s := parseSd x.bytes
  let y := d.sess (s.src % 2 ^ 32)
  let die := x.engine / 16
  let toCxl := s.mspec == 0
  let e := d.spillEntry x
  match e.2 with
  | .error c => (if c = 0 then e.1 else e.1.spillListBad i x, false, false)
  | .ok w =>
    let d := e.1
    let cxl := w.testBit 60
    let slot := d.poolSlot x.hoop cxl
    let so := d.blockOff x.hoop cxl y (w % 2 ^ 27)
    let o := so + 128 * x.spillLine
    let to_ := d.blockOff x.hoop toCxl y n + 128 * x.spillLine
    let va := d.vaOf x.hoop slot o
    let g := d.poolOf x.hoop cxl
    let p := d.pools die
    match d.checkSeg x.hoop slot o 128 [3] false true, d.heldOf g so (2 ^ y.bsize) with
    | .error f, _ => (d.spillFails i x f.code va f.arg2 none, false, false)
    | .ok _, b :: _ => if (d.pools (b.1 / 16)).write = 0 then (d, false, false) else (d.wcIssue b.1 b.2, false, true)
    | .ok _, [] =>
      if d.outOf g so (2 ^ y.bsize) ∨ p.read = 0 ∨ p.write = 0 then (d, false, false)
      else match g.place o, (d.poolOf x.hoop toCxl).place to_ with
        | .dev a, .dev b =>
          let d := (((d.takeRead die).takeWrite die).cohRead1 die x.hoop (s.cache != 1) (s.cache != 2) (a / 128)).readWatch x va
          (match d.readDev (a / 128 * 128) 128 with
           | none => (d.spillFails i x 0x60 va 0 (some a), true, false)
           | some l =>
             let hits := d.watchMatch x.hoop 1 1 [(d.vaOf x.hoop (d.poolSlot x.hoop toCxl) to_, 128)]
             let d := if hits = [] then d else d.watchNote x.hoop 1 (d.streamWaiter x) hits
             let d := (d.maskWrite die x.hoop (b / 128) s.cache (l.mapIdx (fun k v => (k, v)))).modDesc i (fun x => { x with spillLine := x.spillLine + 1 })
             (if (x.spillLine + 1) * 128 < 2 ^ y.bsize then d else d.spillPlaced i { x with spillLine := x.spillLine + 1 } w n, true, true))
        | _, _ => (d, false, false)

/-- Blocks that a SPILL descriptor has still to look at. -/
def Desc.spillLeft (x : Desc) : Nat :=
  let s := parseSd x.bytes
  bits s.src 55 32 + s.count 0 - x.spillNext

/-- Go on with a spill, at most one line: the next block, once the last one's old place is free, or the next line of this one. A DAMAGED session fails it
(R320). -/
def Device.spillStep (d : Device) (i : Nat) (x : Desc) : Device × Bool × Bool :=
  let si := (parseSd x.bytes).src % 2 ^ 32
  let d := d.sessMet x.hoop si
  if x.spillOld.isSome then (d, false, false)
  else if (d.sess si).state = 3 then (d.spillFails i x 0x60 si 2 none, false, false)
  else match x.spillNew with
    | none => (d.spillBegin i x.spillLeft, false, false)
    | some n => d.spillCopy i x n

/-- Start a SPILL descriptor: the session's checks (R313, R318, R320). -/
def Device.startSpill (d : Device) (i : Nat) (x : Desc) (s : SD) : Device :=
  let si := s.src % 2 ^ 32
  let d := d.sessMet x.hoop si
  if !d.sessIn x.hoop si then d.failDesc i 3 0x18 si 0
  else if (d.sess si).state = 3 then d.failDesc i 0xA 0x60 si 2
  else if (d.sess si).state ≠ 1 then d.failDesc i 3 0x18 si 0
  else d.modDesc i (fun x => { x with state := 1, sess := some si, spillNext := bits s.src 55 32 })

/-! The start -/

/-- Whether a descriptor's trigger has not completed (R291). -/
def Device.trigWaits (d : Device) (x : Desc) (s : SD) : Bool :=
  match s.tkind, x.owner with
  | 1, o => (d.siblings o).any (fun y => y.2.1 == s.tindex && (y.2.2.state != 3 || y.2.2.status != 0))
  | 2, .node a _ _ => (match d.inst? a with
      | some t => (match Tab.find? t.nodes s.tindex with | some n => n.done != some 0 || !n.seen | none => true)
      | none => true)
  | _, _ => false

/-- Whether a descriptor keeps its queue place without a running place (R279); a write to a session that a settlement holds waits for it (R317). -/
def Device.descWaits (d : Device) (x : Desc) : Bool := 
  let s := parseSd x.bytes
  d.trigWaits x s || d.multicastWaits s || (s.toSession && d.settling (s.dst % 2 ^ 32))

/-- Whether a descriptor can start: in its engine's queue, fewer than 4 running, no earlier one that could start (R279). -/
def Device.descReady (d : Device) (i : Nat) (x : Desc) : Bool :=
  let q := (d.engine x.engine).queue
  let st := fun n => (d.desc? n).map (fun (y : Desc) => y.state)
  x.engine < 64 && x.state == 0 && q.contains i && !d.descWaits x
  && (q.filter (fun n => st n == some 1 || st n == some 2)).length < 4
  && (q.takeWhile (· != i)).all (fun n => st n != some 0 || (match d.desc? n with | some y => d.descWaits y | none => true))

/-- What an engine does next for a running descriptor in a round, and whether it may still read, and write, a line for the others of the round (R279): a
write goes into the window, a line of a put is sent, a line is read or asked for, or a unit is done. What it may not do now waits, and so does what finds
its pool of credits empty (R296, R297). DESIGN CHOICE (log entry 44): the fuel bounds the runs that a descriptor does in a round from lines at hand. -/
def Device.serveDesc (d : Device) (i : Nat) : Nat → Bool → Bool → Device × Bool × Bool
  | 0, r, w => (d, r, w)
  | fuel + 1, r, w =>
    match d.desc? i with
    | none => (d, r, w)
    | some x =>
      let s := parseSd x.bytes
      let p := d.pools (x.engine / 16)
      if x.state ≠ 1 then (d, r, w)
      else match x.out, x.puts with
      | q :: t, _ =>
        (match (d.engine x.engine).wcNeeds i x.hoop q with
         | some b => if w && p.write > 0 then Device.serveDesc (d.wcIssue x.engine b) i fuel r false else (d, r, w)
         | none => Device.serveDesc ((d.wcPut x.engine i x s.cache q).modDesc i (fun y => { y with out := t })) i fuel r w)
      | [], (g, b) :: _ =>
        if x.putTag.isSome || !w || p.remote = 0 || d.pointersClosed x.hoop then (d, r, w) else (d.sendPut i x g b, r, false)
      | [], [] =>
        if s.mode = 4 then
          if r && w then let m := d.spillStep i x; (m.1, !m.2.1, !m.2.2) else (d, r, w)
        else if s.mode = 2 && x.members.isEmpty && x.delivers then Device.serveDesc (d.modDesc i (fun y => { y with pos := y.next, recs := [] })) i fuel r w
        else if x.next ≥ x.pos then
          if x.recs.isEmpty then
            if x.acc.isSome then Device.serveDesc (d.moved i x) i fuel r w else (d.moved i x, r, w)
          else (d, r, w)
        else if s.mode = 2 && x.recs.length ≥ 512 then (d, r, w)
        else if !d.mayMove x s then (d, r, w)
        else match d.sessEnds i x s with
        | some d => Device.serveDesc d i fuel r w
        | none =>
          if s.mode = 5 then
            if r && p.read > 0 then let m := d.fillLine i x s; Device.serveDesc m.1 i fuel (!m.2) w else (d, r, w)
          else
            let d := d.takeKept i x s
            let x := (d.desc? i).getD x
            match d.lacks x s with
            | (none, true) => (d, r, w)
            | (none, false) => Device.serveDesc (d.unit i x s) i fuel r w
            | (some (0, n, va), _) => if r && p.read > 0 then Device.serveDesc (d.readLine i x s.cache n va) i fuel false w else (d, r, w)
            | (some (k, n, va), _) =>
              if k ≥ 9 then
                if r && p.remote > 0 && !d.pointersClosed x.hoop then Device.serveDesc (d.askFar i x n) i fuel false w else (d, r, w)
              else if !d.mayMaster (d.ownerFn x.hoop) then Device.serveDesc (d.lineIn i { kind := k, line := n, code := 0x60 }) i fuel r w
              else if r && p.read > 0 then Device.serveDesc (d.askHost i x n va) i fuel false w
              else (d, r, w)

/-- The running descriptors of an engine, the one whose turn it is first. -/
def Device.running (d : Device) (e : Nat) : List Nat :=
  let l := (d.engine e).queue.filter (fun i => (d.desc? i).any (fun (x : Desc) => x.state == 1))
  let t := (d.engine e).turn % Nat.max 1 l.length
  l.drop t ++ l.take t

/-- A round of an engine (R279): it reads at most one line and writes at most one, and serves its running descriptors in turn. A buffer that is whole is
issued first (R294). -/
def Device.engineRound (d : Device) (e : Nat) : Device :=
  let m := match (d.engine e).wc.find? (fun w => w.data.length == 128) with
    | some b => if (d.pools (e / 16)).write > 0 then (d.wcIssue e b, false) else (d, true)
    | none => (d, true)
  let z := (m.1.running e).foldl (fun (a : Device × Bool × Bool) i => a.1.serveDesc i 256 a.2.1 a.2.2) (m.1, true, m.2)
  z.1.setEngine e { z.1.engine e with turn := (z.1.engine e).turn + 1 }

/-- The engines of a die with a descriptor or a buffer, the one whose turn it is first. -/
def Device.busyEngines (d : Device) (die : Nat) : List Nat :=
  ((List.range 16).map (fun i => 16 * die + ((d.pools die).turn + i) % 16)).filter (fun e => !(d.engine e).queue.isEmpty || !(d.engine e).wc.isEmpty)

/-- One fc of a die's engines (R279, R296): credits are added; then 4 rounds, in each of which each engine takes at most one credit of each pool, so that
they take them round-robin; the host writes of the fc are sent. -/
def Device.engineFc (d : Device) (die : Nat) : Device :=
  let es := d.busyEngines die
  let d := (List.range 4).foldl (fun d _ => es.foldl (fun d e => d.engineRound e) d) (d.addCredits die 1)
  let d := es.foldl (fun d e => d.postOut e) d
  d.setPools die { d.pools die with turn := ((d.pools die).turn + 1) % 16 }

/-- The acquire of a descriptor's start: the lines that its engine has kept are dropped, and those on their way are not kept
(R290, R295). -/
def Device.acquireLines (d : Device) (e : Nat) : Device :=
  let d := d.setEngine e { d.engine e with kept := [] }
  (d.engine e).queue.foldl (fun d i => d.modDesc i (fun x => { x with stale := x.due })) d

/-- Start a descriptor on its engine. -/
def Device.startDesc (d : Device) (i : Nat) : Device :=
  match d.desc? i with
  | none => d
  | some x =>
    let s := parseSd x.bytes
    if !d.descReady i x then d
    else
      let d := d.acquireLines x.engine
      (match s.mode with
       | 2 => d.modDesc i (fun x => { x with state := 1, pos := s.runCount, members := s.memberCores })
       | 4 => d.startSpill i x s
       | 5 => d.modDesc i (fun x => { x with state := 1, pos := s.runCount })
       | 6 => d.modDesc i (fun x => { x with state := 1, pos := s.count 0 })
       | _ => d.startMove i x s)

/-- What a read brought for a descriptor, or the fault code of its failure: a line of its source at an address, or the end of its release (R290). -/
def Device.descArrived (d : Device) (i tag pos : Nat) (come : Except Nat Bytes) : Device :=
  match d.desc? i with
  | none => d
  | some x =>
    if x.rel = some tag then
      d.setDesc i { x with due := x.due.erase tag, status := if come.isOk then x.status else 0xA, fault := if come.isOk then x.fault else some (0x60, 0, 0) }
    else
      let kind := (if (parseSd x.bytes).srcRemote then 9 else 1) + x.hoop
      let l : ELine := match come with
        | .ok b => if b.length = 128 then { kind := kind, line := pos / 128, data := b.map some } else { kind := kind, line := pos / 128, code := 0x60 }
        | .error c => { kind := kind, line := pos / 128, code := c }
      let d := d.setDesc i { x with due := x.due.erase tag, stale := x.stale.erase tag }
      if x.state ≠ 1 then d else (if x.stale.contains tag then d else d.keep x.engine l).lineIn i l

/-- A line of a remote put is acknowledged, or refused. -/
def Device.putDone (d : Device) (i ptr : Nat) (come : Except Nat Bytes) : Device :=
  match d.desc? i with
  | none => d
  | some x =>
    if x.state ≠ 1 then d
    else match come with
      | .error c => d.putFails i ptr c
      | .ok _ => d.modDesc i (fun y => { y with putTag := none, puts := y.puts.drop 1, written := y.written + ((y.puts.head?.map (·.2.length)).getD 0) })

/-- Open the read of host scope that releases a descriptor which wrote to the host tier (R255, R290). -/
def Device.descRelease (d : Device) (i : Nat) (x : Desc) : Device :=
  if !d.mayMaster (d.ownerFn x.hoop) then d.modDesc i (fun y => { y with rel := some d.fresh, status := 0xA, fault := some (0x60, 0, 0) })
  else (d.openRead { kind := 2, a := i, b := 0, c := 0, fn := d.ownerFn x.hoop, addr := 0 } 0).modDesc i
    (fun y => { y with rel := some d.fresh, due := y.due ++ [d.fresh] })

/-- What a descriptor's completion does (R290, R294): one that wrote to the host tier opens the read of its release, and any other ends. -/
def Device.descDone (d : Device) (i : Nat) : Device :=
  match d.desc? i with
  | none => d
  | some x => if x.host ∧ x.rel = none then d.descRelease i x else d.endDesc i

/-- `n` fc pass for a die's engines. -/
def Device.engineTime (d : Device) (die n : Nat) : Device :=
  if (d.busyEngines die).isEmpty then d.addCredits die n else (List.range n).foldl (fun d _ => d.engineFc die) d

end Sys2Proof.Machine
end

