-- ==== Sys2Proof/Machine/KernelOps.lean ====
section
/-! DEFINITION. Kernels: descriptors, blocks that end, faults, aborts and completion (R65, R89, R134 to R139). -/

namespace Sys2Proof.Machine

/-! Fault detail -/

/-- What a fault carries beside where it arose (Table 4-9). -/
structure FaultArgs where
  code : Nat
  arg0 : Nat := 0
  arg1 : Nat := 0
  arg2 : Nat := 0
  arg3 : Nat := 0
  deriving DecidableEq, Repr

/-- The 32 bytes of a fault detail (Table 4-9). -/
def faultDetail (f : FaultArgs) (group core lin lanes pc : Nat) : Bytes :=
  le 1 f.code ++ le 1 group ++ le 2 core ++ le 4 lin ++ le 4 lanes ++ le 4 f.arg0 ++ le 6 pc ++ le 1 f.arg2 ++ le 1 f.arg3
    ++ le 8 f.arg1

/-! Blocks and cores that end -/

/-- The wait of a scheduling entry ends and is recorded (R441). -/
def Device.waitEnds (d : Device) (k : Nat) (x : SEnt) (outcome : Nat) : Device :=
  match x.since with
  | none => d
  | some w => d.trace (d.coreHoop k) w.kind outcome (d.groupWaiter k x) w.object w.detail w.stamp

/-- The descriptors that a block started. -/
def Device.blockDescs (d : Device) (k p : Nat) : List Nat :=
  (d.flow.descs.filter (fun (x : Nat × Desc) => match x.2.owner with
    | .block k' p' _ => k' == k && p' == p
    | _ => false)).map (·.1)

/-- The wait that a trace records for a handle (Table 17-6). -/
def Handle.wait (h : Handle) (n : Nat) : Nat × Nat × Nat := (if h.kind = 1 then 5 else 7, n, h.detail)

/-- The waits of a block that SPOLL began and no SPOLL has ended are recorded as it ends (R441). -/
def Device.pollsEnd (d : Device) (k p outcome : Nat) : Device :=
  match d.block? k p with
  | none => d
  | some b => b.handles.foldl (fun d (x : Nat × Handle) => match x.2.polled with
    | some st =>
      if x.2.awaited then d
      else d.trace (d.coreHoop k) (x.2.wait x.1).1 outcome
        { group := x.2.poller, die := coreDie k, core := k, queue := ((d.coreKernel k).map (fun (y : Kernel) => y.queue)).getD 0xFFFF, who := b.lin }
        x.1 x.2.detail st
    | none => d) d

/-- A block ends: its waits, its streams, a press it holds, its entries, loads and its place; an SMUPD already issued completes without it
(R136, R137). -/
def Device.dropBlock (d : Device) (k p outcome : Nat) : Device :=
  let h := d.coreHoop k
  let d := ((d.core k).ents.filter (fun (x : Nat × SEnt) => x.2.place == p)).foldl (fun d x => d.waitEnds k x.2 outcome) d
  let d := d.pollsEnd k p (if outcome = 0 then 1 else outcome)
  let d := (d.blockDescs k p).foldl (fun d i => d.stopDesc i) d
  let d := if (d.core k).press.owner = some p then (d.leaveGroup k).modCore k (fun c => { c with press := {} }) else d
  let orphan := fun (x : Nat × UpdOp) => (x.1, if x.2.place = some p then { x.2 with place := none } else x.2)
  (d.modCore k (fun c => { c with
    blocks := Tab.erase c.blocks p
    ents := c.ents.filter (fun (x : Nat × SEnt) => x.2.place != p)
    upds := c.upds.map orphan
    clean := false })).cnt h 15

/-- The cores that run a kernel. -/
def Device.kernelCores (d : Device) (ki : Nat) : List Nat :=
  (d.cores.filter (fun (x : Nat × Core) => x.2.kernel == some ki)).map (·.1)

/-- A core has no block of its kernel left and becomes free (R106); its split stays until the next kernel's first block. -/
def Device.freeCore (d : Device) (k : Nat) : Device :=
  (d.modCore k (fun c => { c with kernel := none, credit := none })).wr Reg.CORE_CURD_BUSY k 0

/-- Every block of a kernel ends; `bad` is the block that faulted (R135, R136). No core waits for its stagger any more (R109). -/
def Device.clearKernel (d : Device) (ki : Nat) (bad : Option (Nat × Nat)) : Device :=
  let d := { d with cores := d.cores.map (fun (x : Nat × Core) => (x.1, if x.2.credit = some ki then { x.2 with credit := none } else x.2)) }
  (d.kernelCores ki).foldl (fun d k =>
    ((Tab.keys (d.core k).blocks).foldl (fun d p => d.dropBlock k p (if bad = some (k, p) then 3 else 2)) d).freeCore k) d

/-! Ends of kernels, entries and nodes -/

/-- End an entry whose status a fault caused: the fault's record stands for it (R420). -/
def Device.finishFaulted (d : Device) (q id status : Nat) (result : Nat := 0) (node : Nat := 0xFFFF) : Device :=
  (d.modQueue q (fun x => { x with entries := x.entries.map (fun e =>
    if e.id = id ∧ e.done = none then { e with err := true, fault := true } else e) })).finish q id status result node

/-- A node ends with a status. -/
def Device.nodeDone (d : Device) (i n status result : Nat) (fault : Bool := false) : Device :=
  match d.inst? i with
  | none => d
  | some s => d.setInst i { s with nodes := s.nodes.map (fun (y : Nat × INode) =>
      if y.1 = n ∧ y.2.done = none then
        (y.1, { y.2 with started := true, done := some status, result := result, fault := fault, at_ := d.clock.now })
      else y) }

/-- An abort reaches the home dispatcher at the local time at which a fault of the kernel did: the entry or node has ABORTED, its record
stays posted (R138). -/
def Device.abortFaulted (d : Device) (k : Kernel) : Device :=
  match k.inst with
  | none => d.modQueue k.queue (fun x => { x with entries := x.entries.map (fun e =>
      if e.id = k.entry ∧ e.fault ∧ e.at_ = d.clock.now then { e with done := some 1 } else e) })
  | some (i, n) => (match d.inst? i with
    | none => d
    | some s => d.setInst i { s with nodes := s.nodes.map (fun (y : Nat × INode) =>
        if y.1 = n ∧ y.2.fault ∧ y.2.at_ = d.clock.now then (y.1, { y.2 with done := some 1 }) else y) })

/-- Count a kernel that retired (R428, R429). -/
def Device.countKernel (d : Device) (h c : Nat) : Device :=
  (d.cnt h 13).modHstat h (fun x => { x with byClass := Tab.put 0 x.byClass c (Tab.get 0 x.byClass c + 1) })

/-- The CREDIT wait of a kernel that ends before its first block is recorded (R441). DESIGN CHOICE (log entry 41): its DETAIL is 0xFFFFFFFF, since there is
no die of the first block. -/
def Device.creditEnds (d : Device) (k : Kernel) (outcome : Nat) : Device :=
  match k.since, k.started with
  | some s, false => d.trace k.hoop 4 outcome { die := k.home, queue := k.queue, who := k.ptr }
      (match k.inst with | some (_, n) => n | none => 0xFFFFFFFF) 0xFFFFFFFF s
  | _, _ => d

/-- A kernel ends with a status: no block of it is left, its overrun is settled, its entry or node ends (R46, R135). -/
def Device.endKernel (d : Device) (ki status : Nat) (fault : Bool := false) (bad : Option (Nat × Nat) := none) : Device :=
  match d.kernel? ki with
  | none => d
  | some k =>
    let d := ((((d.creditEnds k (if fault then 3 else if status = 1 then 2 else 1)).clearKernel ki bad).settleOverrun k).countKernel k.hoop (d.kernelClass k)).dropKernel ki
    match k.inst with
    | some (i, n) => d.nodeDone i n status k.retired fault
    | none => if fault then d.finishFaulted k.queue k.entry status k.retired else d.finish k.queue k.entry status k.retired

/-- The error record of a kernel fault (R135, R420). -/
def Device.postFault (d : Device) (k : Kernel) (detail : Bytes) (held : Bool) : Device :=
  d.post { code := 0x02, hoop := k.hoop, queue := k.queue, pointer := k.ptr, detail := detail, held := held }

/-- A block of a kernel faults (R134, R135): the kernel ends with the fault's status, unless it is early, when the fault is
held with it (R89). -/
def Device.kernelFault (d : Device) (ki code : Nat) (detail : Bytes) (bad : Option (Nat × Nat)) : Device :=
  match d.kernel? ki with
  | none => d
  | some k =>
    if k.early then
      (d.clearKernel ki bad).setKernel ki { k.freeze d.clock.now with
        fault := some (faultStatus code, detail), nextBlock := k.blocks, runs := [], outstanding := 0 }
    else
      let d := (d.postFault k detail false).endKernel ki (faultStatus code) true bad
      { d with work := { d.work with
        faulted := d.work.faulted.filter (fun (x : Nat × Nat × Kernel) => x.2.1 == d.clock.now) ++ [(ki, d.clock.now, k)] } }

/-- A fault of a block at an instruction: group, lanes, pc and arguments. -/
def Device.blockFault (d : Device) (core place group lanes pc : Nat) (f : FaultArgs) : Device :=
  match (d.core core).kernel with
  | none => d
  | some ki =>
    let lin := ((d.block? core place).map (fun (b : Block) => b.lin)).getD 0
    d.kernelFault ki f.code (faultDetail f group core lin lanes pc) (some (core, place))

/-! The kernel descriptor -/

/-- The reserved bytes of a kernel descriptor (Table 3-4). -/
def kdescGaps : List (Nat × Nat) := [(10, 2), (22, 2), (28, 36)]

/-- A kernel from its descriptor and the 24 payload bytes of its entry or node (Tables 3-3, 3-4). -/
def kernelOf (b p : Bytes) (h q id ptr map : Nat) (inst : Option (Nat × Nat)) (early : Bool) : Kernel :=
  { hoop := h, queue := q, entry := id, ptr := ptr, inst := inst, code := fieldLe b 0 8, regs := fieldLe b 8 1,
    split := fieldLe b 9 1, local_ := fieldLe b 12 4, bx := fieldLe b 16 2, byy := fieldLe b 18 2, bz := fieldLe b 20 2,
    seed := fieldLe b 24 4, params := fieldLe p 8 8, gx := fieldLe p 16 4, gy := fieldLe p 20 2, gz := fieldLe p 22 2,
    map := map, early := early }

/-- The rules of R65, R101 to R105 that a kernel must keep. -/
def Kernel.ok (k : Kernel) : Bool :=
  k.code % 128 == 0 && ((16 ≤ k.regs && k.regs ≤ 248 && k.regs % 8 == 0) || k.regs == 255) && k.split ≤ 23
  && 1 ≤ k.threads && k.threads ≤ 1024 && 1 ≤ k.gx && 1 ≤ k.gy && 1 ≤ k.gz && k.blocks ≤ 2 ^ 32 && 1 ≤ k.resident

/-- Start a kernel of an entry or a node: its descriptor is read and checked, handed to its home dispatcher, and its blocks wait for credits (R20,
R65, R83, R108).
False while a read of the host is open. -/
def Device.kernelStart (d : Device) (q id ptr map : Nat) (inst : Option (Nat × Nat)) (early : Bool) (p : Bytes) :
    Device × Except Nat Bool :=
  let r := d.entRead q id (fieldLe p 0 8) 64
  let d := r.1
  match r.2 with
  | .error e => (d, .error e)
  | .ok none => (d, .ok false)
  | .ok (some b) =>
    let h := (d.queue q).hoop
    let k := kernelOf b p h q id ptr map inst early
    if !(kdescGaps.all (fun g => zeroAt b g.1 g.2)) || !k.ok then (d, .error 3)
    else (((d.setKernel d.fresh k).step1.ringCtl 4 k.home).admitKernels, .ok true)

end Sys2Proof.Machine
end

