-- ==== Sys2Proof/Machine/CopyOps.lean ====
section
/-! DEFINITION. COPY entries and copy nodes: their descriptors are read, validated, checked and handed to stream engines
(R278, R279, R283, R291). -/

namespace Sys2Proof.Machine

/-- Whether the node of the same instance that triggers a copy node's descriptor has already ended with a status other than OK (R291). -/
def Device.nodeFailed (d : Device) (o : DOwner) (t : Nat) : Bool :=
  match o with
  | .node a _ _ => (match (d.inst? a).bind (fun (s : Inst) => Tab.find? s.nodes t) with
    | some n => n.seen && n.done.isSome && n.done != some 0
    | none => false)
  | _ => false

/-- One descriptor of a COPY entry or copy node: it is handed to the die and joins an engine's queue, or has
ended with the status given (R20, R279). -/
def Device.copyOne (d : Device) (h map die : Nat) (o : DOwner) (b ub : Bytes) (bad : Option Nat) (valid : Bool) : Device :=
  let s := parseSd b
  let c := d.issueCheck (512 + d.lightest die) h map s ub
  let d' := if bad.isNone && valid then c.1 else d
  let trigger := (s.tkind == 2 && d.nodeFailed o s.tindex) || s.tkind == 1 && (d.siblings o).any (fun y => y.2.1 == s.tindex && y.2.2.state == 3 && y.2.2.status != 0)
  let status := match bad with
    | some e => some e
    | none => if !valid then some 3
      else match c.2 with
        | some f => some (faultStatus f.1)
        | none => if trigger then some 0xC else none
  let x : Desc := { hoop := h, map := map, bytes := if s.mode = 6 then b ++ ub else b, owner := o, engine := 64 }
  let i := d'.fresh
  match status with
  | some e => (d'.setDesc i { x with state := 3, status := e }).step1
  | none =>
    let d := (d'.setDesc i x).step1
    let d := d.ringCtl 4 die
    if d.engineRoom (d.lightest die) then d.enqueue i (d.lightest die) else d

/-- The update descriptor of an UPDATE descriptor of an entry: 128 bytes at SRC (R330). -/
def Device.copyUpd (d : Device) (q id : Nat) (s : SD) : Device × Except Nat (Option Bytes) :=
  if s.mode = 6 ∧ s.src % 128 = 0 then d.entRead q id s.src 128 else (d, .ok (some []))

/-- Read the update descriptors that the descriptors of an entry name; false while a read of the host is open. -/
def Device.copyUpds (d : Device) (q id : Nat) (l : List Bytes) : Device × Bool :=
  l.foldl (fun a b =>
    let r := a.1.copyUpd q id (parseSd b)
    (r.1, a.2 && (match r.2 with | .ok none => false | _ => true))) (d, true)

/-- Start the descriptors of a COPY entry or copy node (24 payload bytes): done, a status, or false while reads are open
or a SEGMENT_WRITE holds a segment that a descriptor names (R270). -/
def Device.copyStart (d : Device) (q id map die : Nat) (owner : Nat → DOwner) (nodes : Option Nat) (p : Bytes) :
    Device × Except Nat Bool :=
  let h := (d.queue q).hoop
  let base := fieldLe p 0 8
  let n := fieldLe p 8 2
  if n < 1 ∨ 256 < n then (d, .error 3)
  else
    let r := d.entRead q id base (128 * n)
    match r.2 with
    | .error e => (r.1, .error e)
    | .ok none => (r.1, .ok false)
    | .ok (some b) =>
      let l := (List.range n).map (fun i => slice b (128 * i) 128)
      let u := r.1.copyUpds q id l
      let held := (l.mapIdx (fun i b => (i, b))).any (fun (x : Nat × Bytes) =>
        u.1.sdValid x.2 { hoop := h, die := die, sstart := false, index := x.1, nodes := nodes, addr := base + 128 * x.1 }
        && ((u.1.issueCheck (512 + u.1.lightest die) h map (parseSd x.2)
          (((u.1.copyUpd q id (parseSd x.2)).2.toOption.getD none).getD [])).2.map (·.1)) == some 0)
      if !u.2 || held then (u.1, .ok false)
      else
        let d := (l.mapIdx (fun i b => (i, b))).foldl (fun d (x : Nat × Bytes) =>
          let s := parseSd x.2
          let c : SCtx := { hoop := h, die := die, sstart := false, index := x.1, nodes := nodes, addr := base + 128 * x.1 }
          let v := d.sdValid x.2 c
          let r := if v then d.copyUpd q id s else (d, .ok (some []))
          match r.2 with
          | .error e => r.1.copyOne h map die (owner x.1) x.2 [] (some e) v
          | .ok ub => r.1.copyOne h map die (owner x.1) x.2 (ub.getD []) none (v && s.updOk (ub.getD []))) u.1
        (d.tellOwner (owner 0), .ok true)

end Sys2Proof.Machine
end

