-- ==== Sys2Proof/Machine/SyncOps.lean ====
section
/-! DEFINITION. Fence and event words as entries, nodes and kernels use them (R50, R57, R69, R70). -/

namespace Sys2Proof.Machine

/-- The reserved payload bytes of each ring opcode, as offsets of the entry (Table 3-3). -/
def payloadGaps (op : Nat) : List (Nat × Nat) :=
  match op with
  | 0x00 => [(8, 24)]
  | 0x02 => [(18, 14)]
  | 0x03 => [(18, 14)]
  | 0x04 => [(18, 14)]
  | 0x05 => [(12, 4), (24, 8)]
  | 0x06 => [(12, 4), (24, 8)]
  | 0x07 => [(12, 20)]
  | 0x08 => [(12, 20)]
  | 0x09 => [(16, 16)]
  | 0x0A => [(12, 20)]
  | 0x0B => [(10, 22)]
  | 0x0C => [(20, 12)]
  | _ => []

/-- Whether the reserved payload bytes of an opcode are 0 in the 24 bytes of a payload. -/
def ringPayloadOk (op : Nat) (p : Bytes) : Bool := (payloadGaps op).all (fun g => zeroAt p (g.1 - 8) g.2)

/-- What a trace record names of a waiting entry (Table 17-7). -/
def entryWaiter (q ptr : Nat) : Waiter := { queue := q, who := ptr }

/-- The error record of a sync word that cannot be read for an uncorrectable error (R69, R70). -/
def Device.wordError (d : Device) (h q : Nat) (who : Nat × Nat) (va status : Nat) : Device :=
  if status = 0xA then
    let s := d.seg h (d.slotOf h (d.curMap h) (bits va 47 44))
    d.dataError h q who.2 who.1 ((d.badIn s (va % 2 ^ 44) 8).getD 0)
  else d

/-- What a FENCE_WAIT meets: its status and the word seen, or none while it waits (R69). -/
def Device.fenceTry (d : Device) (h i v : Nat) : Option (Nat × Nat) :=
  match d.word h (d.fenceVa h i) with
  | .error e => some (e, 0)
  | .ok w => if w.testBit 63 then some (5, w) else if v ≤ w then some (0, w) else none

/-- What an EVENT_WAIT with a target meets (R70). -/
def Device.eventTry (d : Device) (h i target : Nat) : Option Nat :=
  match d.word h (d.eventVa h i) with
  | .error e => some e
  | .ok w => if w.testBit 63 then some 6 else if ringDiff 31 w target < 2 ^ 30 then some 0 else none

/-- How a wait's trace record names its end: 0 satisfied, 1 abandoned, 2 aborted, 3 faulted. -/
def waitOutcome (status : Nat) : Nat := if status = 0 then 0 else if status = 5 ∨ status = 6 then 1 else if status = 1 then 2 else 3

/-- A waiting entry ends: trace and status. -/
def Device.endWaiter (d : Device) (q : Nat) (e : Entry) (status word : Nat) : Device :=
  let p := e.bytes
  let d := if entOp p = 0x05 then d.trace (d.queue q).hoop 2 (waitOutcome status) (entryWaiter q e.ptr) (fieldLe p 8 4) (fieldLe p 16 4) e.since
    else d.trace (d.queue q).hoop 3 (waitOutcome status) (entryWaiter q e.ptr) (fieldLe p 8 4) (e.target % 2 ^ 31) e.since
  d.finish q e.id status word

/-- The node type of a waiting ring opcode. -/
def waitType (op : Nat) : Nat := if op = 0x05 then 3 else 6

/-- A waiting node ends: trace and status. -/
def Device.endWaitNode (d : Device) (i n : Nat) (status word : Nat) : Device :=
  match d.inst? i with
  | none => d
  | some s =>
    match Tab.find? s.nodes n, (d.recipe? s.hoop s.recipe).bind (fun (r : Recipe) => r.nodes[n]?) with
    | some y, some r =>
      let d := if r.type = 3 then d.trace s.hoop 2 (waitOutcome status) (entryWaiter s.queue s.ptr) (fieldLe y.params 0 4) (fieldLe y.params 8 4) y.since
        else d.trace s.hoop 3 (waitOutcome status) (entryWaiter s.queue s.ptr) (fieldLe y.params 0 4) (y.target % 2 ^ 31) y.since
      d.nodeDone i n status word
    | _, _ => d

/-- The queue entries that wait on a word with an opcode: (queue, entry). -/
def Device.waiters (d : Device) (p : Nat → Queue → Bool) (op : Nat) : List (Nat × Entry) :=
  (d.work.queues.filter (fun (x : Nat × Queue) => x.2.state != 0 && p x.1 x.2)).flatMap (fun (x : Nat × Queue) =>
    (x.2.entries.filter (fun e => e.started && e.done.isNone && entOp e.bytes == op)).map (fun e => (x.1, e)))

/-- The nodes that wait with a type: (instance, node, its state). -/
def Device.waitNodes (d : Device) (p : Inst → Bool) (type : Nat) : List (Nat × Nat × INode) :=
  (d.work.insts.filter (fun (x : Nat × Inst) => p x.2)).flatMap (fun (x : Nat × Inst) =>
    (x.2.nodes.filter (fun (y : Nat × INode) => y.2.started && y.2.done.isNone &&
      (match (d.recipe? x.2.hoop x.2.recipe).bind (fun (r : Recipe) => r.nodes[y.1]?) with
       | some r => r.type == type
       | none => false))).map (fun (y : Nat × INode) => (x.1, y.1, y.2)))

/-- Every waiter on a word of a hoop ends with a status: its read failed (R69, R70). -/
def Device.failWaiters (d : Device) (h op i status : Nat) : Device :=
  let d' := (d.waiters (fun _ x => x.hoop == h) op).foldl (fun d (y : Nat × Entry) =>
    if fieldLe y.2.bytes 8 4 = i then d.endWaiter y.1 y.2 status 0 else d) d
  (d.waitNodes (fun s => s.hoop == h) (waitType op)).foldl (fun d (y : Nat × Nat × INode) =>
    if fieldLe y.2.2.params 0 4 = i then d.endWaitNode y.1 y.2.1 status 0 else d) d'

/-- The atomic maximum of a FENCE_SIGNAL, with its status (R50, R57, R69). -/
def Device.fenceSignal (d : Device) (h q : Nat) (who : Nat × Nat) (i v : Nat) : Device × Nat :=
  if v.testBit 63 then (d, 3)
  else
    let d := d.seenVa h (d.fenceVa h i) 8
    match d.word h (d.fenceVa h i) with
    | .error e => (((d.wordError h q who (d.fenceVa h i) e).failWaiters h 0x05 i e), e)
    | .ok w => if w.testBit 63 then (d, 5) else (d.setWord h (d.fenceVa h i) (Nat.max w v), 0)

/-- The fetch of an EVENT_RECORD: ISSUED takes the next number, which is the record's (R70). -/
def Device.eventIssue (d : Device) (h i : Nat) : Device × Except Nat Nat :=
  let d := d.seenVa h (d.eventVa h i) 8
  match d.word h (d.eventVa h i) with
  | .error e => (d, .error e)
  | .ok w =>
    if w.testBit 63 then (d, .error 6)
    else
      let g := (bits w 62 32 + 1) % 2 ^ 31
      (d.setWord h (d.eventVa h i) (w % 2 ^ 32 + g * 2 ^ 32), .ok g)

/-- A read of an event word by an entry of a queue has failed with a status: its record, and every waiter on the word (R70). -/
def Device.eventBad (d : Device) (h q : Nat) (who : Nat × Nat) (i status : Nat) : Device :=
  (d.wordError h q who (d.eventVa h i) status).failWaiters h 0x08 i status

/-- The retirement of an EVENT_RECORD of number g: DONE takes it if it is newer (R70). The status is that of the word's read. -/
def Device.eventDone (d : Device) (h q : Nat) (who : Nat × Nat) (i g : Nat) : Device × Nat :=
  let d := d.seenVa h (d.eventVa h i) 8
  match d.word h (d.eventVa h i) with
  | .error e => (d.eventBad h q who i e, e)
  | .ok w => (if ringDiff 31 g w < 2 ^ 30 then d.setWord h (d.eventVa h i) (w - w % 2 ^ 31 + g) else d, 0)

/-- A WEIGHT_FLIP that was not refused retires: it is pending, and its slots are protected (R335, R339). -/
def Device.flipRetires (d : Device) (q : Nat) (e : Entry) : Device :=
  let h := (d.queue q).hoop
  let a := fieldLe e.bytes 8 1
  let b := fieldLe e.bytes 9 1
  let x := d.hx h
  (d.setHx h { x with
    flips := x.flips ++ [(a, b, d.fcNow)]
    flipSlots := x.flipSlots ++ [d.rd (Reg.HOOP_SEGMAP_MAP a) h, d.rd (Reg.HOOP_SEGMAP_MAP b) h] }).wr Reg.HOOP_FLIP_PENDING h 1

/-- An entry retires (R70, R71, R335): an EVENT_RECORD that took a number at its fetch gives it to DONE first, unless it retires with ABORTED; where
its word cannot be read that read's status is its own. -/
def Device.retire (d : Device) (q : Nat) (e : Entry) (status : Nat) : Device :=
  if entOp e.bytes = 0x0B ∧ status = 0 then (d.flipRetires q e).retireAs q e 0
  else if entOp e.bytes = 0x07 ∧ status ≠ 1 ∧ 2 ^ 31 ≤ e.target then
    let r := d.eventDone (d.queue q).hoop q e.who (fieldLe e.bytes 8 4) (e.target % 2 ^ 31)
    r.1.retireAs q e (if r.2 = 0 then status else r.2)
  else d.retireAs q e status

/-- Whether an entry that waited when it was listed still does: the failed read of another waiter's word ends it too (R69, R70). -/
def Device.entryWaits (d : Device) (q id : Nat) : Bool := (d.queue q).entries.any (fun e => e.id == id && e.done.isNone)

/-- The same of a node. -/
def Device.nodeWaits (d : Device) (i n : Nat) : Bool :=
  match (d.inst? i).bind (fun (s : Inst) => Tab.find? s.nodes n) with
  | some y => y.done.isNone
  | none => false

/-- Every waiting FENCE_WAIT entry and node of a queue that its word now satisfies ends (R69). -/
def Device.fencesSatisfied (d : Device) (q : Nat) : Device :=
  let go := fun (d : Device) h (who : Nat × Nat) i v (f : Device → Nat → Nat → Device) =>
    let d := d.seenVa h (d.fenceVa h i) 8
    match d.fenceTry h i v with
    | none => d
    | some (st, w) =>
      if st = 0 ∨ st = 5 then f d st w
      else (d.wordError h q who (d.fenceVa h i) st).failWaiters h 0x05 i st
  let h := (d.queue q).hoop
  let d' := (d.waiters (fun n _ => n == q) 0x05).foldl (fun d (y : Nat × Entry) =>
    if d.entryWaits y.1 y.2.id then
      go d h y.2.who (fieldLe y.2.bytes 8 4) (fieldLe y.2.bytes 16 8) (fun d st w => d.endWaiter y.1 y.2 st w)
    else d) d
  (d.waitNodes (fun s => s.queue == q) 3).foldl (fun d (y : Nat × Nat × INode) =>
    if d.nodeWaits y.1 y.2.1 then
      go d h (d.nodeWho y.1) (fieldLe y.2.2.params 0 4) (fieldLe y.2.2.params 8 8) (fun d st w => d.endWaitNode y.1 y.2.1 st w)
    else d) d'

/-- Every waiting EVENT_WAIT entry and node of a queue that its word now satisfies ends (R70). -/
def Device.eventsSatisfied (d : Device) (q : Nat) : Device :=
  let go := fun (d : Device) h (who : Nat × Nat) i target (f : Device → Nat → Device) =>
    let d := d.seenVa h (d.eventVa h i) 8
    match d.eventTry h i target with
    | none => d
    | some st =>
      if st = 0 ∨ st = 6 then f d st
      else d.eventBad h q who i st
  let h := (d.queue q).hoop
  let d' := (d.waiters (fun n _ => n == q) 0x08).foldl (fun d (y : Nat × Entry) =>
    if d.entryWaits y.1 y.2.id then go d h y.2.who (fieldLe y.2.bytes 8 4) y.2.target (fun d st => d.endWaiter y.1 y.2 st 0) else d) d
  (d.waitNodes (fun s => s.queue == q) 6).foldl (fun d (y : Nat × Nat × INode) =>
    if d.nodeWaits y.1 y.2.1 then go d h (d.nodeWho y.1) (fieldLe y.2.2.params 0 4) y.2.2.target (fun d st => d.endWaitNode y.1 y.2.1 st 0)
    else d) d'

end Sys2Proof.Machine
end

