-- ==== Sys2Proof/Machine/NodeOps.lean ====
section
/-! DEFINITION. Recipe instances: creation, nodes that start, complete, are released or cancelled, and the instance's end
(R82 to R89). -/

namespace Sys2Proof.Machine

def Device.entry? (d : Device) (q id : Nat) : Option Entry := (d.queue q).entries.find? (fun e => e.id == id)

def Device.modInst (d : Device) (i : Nat) (f : Inst → Inst) : Device :=
  match d.inst? i with
  | some s => d.setInst i (f s)
  | none => d

/-- Change one node of an instance. -/
def Device.modNode (d : Device) (i n : Nat) (f : INode → INode) : Device :=
  d.modInst i (fun s => match Tab.find? s.nodes n with
    | some y => { s with nodes := Tab.insert s.nodes n (f y) }
    | none => s)

/-- A stored node of an instance's recipe. -/
def Device.rnode? (d : Device) (s : Inst) (n : Nat) : Option RNode := (d.recipe? s.hoop s.recipe).bind (fun (r : Recipe) => r.nodes[n]?)

/-- Whether a node is a kernel node. -/
def RNode.isKernel (r : RNode) : Bool := r.type == 1

/-- The predecessors of a node of a recipe. -/
def Recipe.preds (r : Recipe) (n : Nat) : List Nat :=
  ((r.nodes.mapIdx (fun m x => (m, x))).filter (fun (x : Nat × RNode) => x.2.succ.contains n)).map (·.1)

/-- Whether every predecessor of a node that is not a kernel has completed with OK (R86). -/
def Device.othersDone (d : Device) (s : Inst) (n : Nat) : Bool :=
  match d.recipe? s.hoop s.recipe with
  | none => false
  | some r => (r.preds n).all (fun m => match r.nodes[m]?, Tab.find? s.nodes m with
      | some x, some y => x.isKernel || (y.done == some 0 && y.seen)
      | _, _ => false)

/-- Whether a node can start: its completion counter is 0, or it is early-eligible (R82, R86). -/
def Device.nodeReady (d : Device) (s : Inst) (n : Nat) : Bool :=
  match d.rnode? s n, Tab.find? s.nodes n with
  | some r, some y =>
    !s.abort && !y.started && y.done.isNone
    && (y.counter == 0 || (r.early && r.isKernel && y.dispatch == 0 && d.othersDone s n))
  | _, _ => false

/-- The ring opcode that a node type stands for (Table 3-10). -/
def nodeOp (type : Nat) : Nat :=
  match type with
  | 1 => 0x01
  | 2 => 0x03
  | 3 => 0x05
  | 4 => 0x06
  | 5 => 0x07
  | _ => 0x08

/-- A fence or event node, as the ring entry of the same name (R49, R69, R70, R81): its status, or none while it waits. DESIGN CHOICE
(log entry 41): reserved payload bytes in a node's parameters do not refuse RECIPE_LOAD, and a nonzero one fails the node with
INVALID_PARAMETER at its start; the manual does not say which. -/
def Device.syncNode (d : Device) (s : Inst) (i n type : Nat) (p : Bytes) : Device × Option Nat :=
  let h := s.hoop
  let x := fieldLe p 0 4
  let v := fieldLe p 8 8
  let pool := if type ≤ 4 then d.rd Reg.HOOP_FENCES_FENCES h else d.rd Reg.HOOP_EVENTS_EVENTS h
  if !ringPayloadOk (nodeOp type) p || pool ≤ x then (d, some 3)
  else match type with
    | 3 =>
      let d := d.seenVa h (d.fenceVa h x) 8
      (match d.fenceTry h x v with
        | none => (d, none)
        | some (st, _) => if st = 0 ∨ st = 5 then (d, some st)
            else (((d.wordError h s.queue (d.nodeWho i) (d.fenceVa h x) st).failWaiters h 0x05 x st), some st))
    | 4 => let r := d.fenceSignal h s.queue (d.nodeWho i) x v
           (r.1, some r.2)
    | 5 => (match d.eventIssue h x with
        | (d, .error e) => (if e = 6 then d else d.eventBad h s.queue (d.nodeWho i) x e, some e)
        | (d, .ok g) => let r := d.eventDone h s.queue (d.nodeWho i) x g
                        (r.1, some r.2))
    | _ =>
      let d := d.seenVa h (d.eventVa h x) 8
      (match d.word h (d.eventVa h x) with
        | .error e => (d.eventBad h s.queue (d.nodeWho i) x e, some e)
        | .ok w =>
          let d := d.modNode i n (fun y => { y with target := bits w 62 32 })
          (d, d.eventTry h x (bits w 62 32)))

/-- Start a node of an instance (R82, R83). A kernel or copy node whose structures a host read must bring stays unstarted. -/
def Device.startNode (d : Device) (i n : Nat) : Device :=
  match d.inst? i with
  | none => d
  | some s =>
    match d.rnode? s n, Tab.find? s.nodes n with
    | some r, some y =>
      let map := ((d.entry? s.queue s.entry).map (fun (e : Entry) => e.map)).getD 0
      let begun := fun (d : Device) => d.modNode i n (fun y => { y with started := true, since := d.stamp s.hoop })
      (match r.type with
       | 1 =>
         let k := d.kernelStart s.queue s.entry s.ptr map (some (i, n)) (y.counter != 0) y.params
         (match k.2 with
          | .ok true => begun k.1
          | .ok false => k.1
          | .error e => if y.counter = 0 then ((begun k.1).countKernel s.hoop (d.queue s.queue).cls).nodeDone i n e 0 else d)
       | 2 =>
         if !ringPayloadOk 0x03 y.params then (begun d).nodeDone i n 3 0
         else
           let count := ((d.recipe? s.hoop s.recipe).map (fun (r : Recipe) => r.nodes.length)).getD 0
           let c := (begun d).copyStart s.queue s.entry map (n % 4) (fun j => .node i n j) (some count) y.params
           (match c.2 with
            | .ok true => c.1
            | .ok false => c.1.modNode i n (fun y => { y with started := false })
            | .error e => c.1.nodeDone i n e 0)
       | t =>
         let c := (begun d).syncNode s i n t y.params
         (match c.2 with
          | none => c.1
          | some st => if t = 3 ∨ t = 6 then c.1.endWaitNode i n st 0 else c.1.nodeDone i n st 0))
    | _, _ => d

/-- Start every node of an instance that can start. -/
def Device.startNodes (d : Device) (i : Nat) : Device :=
  match d.inst? i with
  | none => d
  | some s => (Tab.keys s.nodes).foldl (fun d n => match d.inst? i with
      | some s => if d.nodeReady s n then d.startNode i n else d
      | none => d) d

/-! Creation -/

/-- The instance copy of a node's parameters (R82). -/
def patched (r : Recipe) (n : Nat) (p block : Bytes) : Bytes :=
  (r.patches.filter (fun x => x.node == n)).foldl (fun p x => splice p x.offset (slice block (8 * x.slot) x.width)) p

/-- Where a stored recipe holds an uncorrectable error (R234, R259). -/
def Device.storeBad (d : Device) (h : Nat) (r : Recipe) : Option Nat := ((d.recipeRuns h r.parts).find? (fun p => d.badAt p.1 p.2)).map (·.1)

/-- What reading a stored recipe does to the domain. -/
def Device.storeSeen (d : Device) (h : Nat) (parts : List (Nat × Nat)) : Device :=
  (d.recipeRuns h parts).foldl (fun d p => d.ownRead 4 9 p.1 p.2) d

/-- Create the instance of a LAUNCH_RECIPE entry (R82): true, a status, or false while it waits for a place or a read. DESIGN CHOICE (log
entry 41): an entry whose NOBJ is 0, or whose HANDLE[0] passes R54 and is no recipe, ends with INVALID_PARAMETER; R64 only says that it
must be the recipe. An uncorrectable error in the recipe store ends it with DATA_ERROR (R234, R259). -/
def Device.newInst (d : Device) (q : Nat) (e : Entry) : Device × Except Nat Bool :=
  let h := (d.queue q).hoop
  let len := fieldLe e.bytes 16 2
  let d := if entNobj e.bytes = 0 then d else d.objSeen h (fieldLe e.bytes 32 4)
  match (if entNobj e.bytes = 0 then Except.error 3 else d.objRead h (fieldLe e.bytes 32 4)) with
  | .error st => (d, .error st)
  | .ok (_, t, ref) =>
    match (if t = 2 then d.recipe? h (ref % 1024) else none) with
    | none => (d, .error 3)
    | some r =>
      if r.paramLen ≠ len then (d, .error 3)
      else if (d.storeBad h r).isSome then (d.dataError h q (fieldLe e.bytes 32 4) e.ptr ((d.storeBad h r).getD 0), .error 0xA)
      else if 32 ≤ d.rd Reg.HOOP_RECIPES_LIVE h
          ∨ 8 ≤ (d.work.insts.filter (fun (x : Nat × Inst) => x.2.hoop == h && x.2.recipe == ref % 1024)).length then (d, .ok false)
      else
        let b := if len = 0 then (d, .ok (some [])) else d.entRead q e.id (fieldLe e.bytes 8 8) len
        match b.2 with
        | .error st => (b.1, .error st)
        | .ok none => (b.1, .ok false)
        | .ok (some block) =>
          let d := b.1
          let node := fun (n : Nat) (x : RNode) =>
            ({ params := patched r n x.params block, counter := x.inDeg,
               dispatch := ((r.preds n).filter (fun m => match r.nodes[m]? with | some y => y.isKernel | none => false)).length } : INode)
          let s : Inst := { hoop := h, recipe := ref % 1024, queue := q, entry := e.id, ptr := e.ptr,
                            nodes := r.nodes.mapIdx (fun n x => (n, node n x)) }
          let i := d.fresh
          (((((d.storeSeen h r.parts).setInst i s).step1).wr Reg.HOOP_RECIPES_LIVE h (d.rd Reg.HOOP_RECIPES_LIVE h + 1)).startNodes i, .ok true)

/-! Kernel nodes -/

/-- The kernel of a node, by the model's number. -/
def Device.nodeKernel (d : Device) (i n : Nat) : Option Nat :=
  (List.find? (fun (x : Nat × Kernel) => x.2.inst == some (i, n)) d.work.kernels).map (·.1)

/-- A kernel node has handed out its last block: the dispatch counters of its successors fall (R86). -/
def Device.nodeHanded (d : Device) (i n : Nat) : Device :=
  match d.inst? i with
  | none => d
  | some s =>
    match d.rnode? s n, Tab.find? s.nodes n with
    | some r, some y =>
      if y.handed then d
      else
        let d := d.modNode i n (fun y => { y with handed := true })
        (r.succ.foldl (fun d m => d.modNode i m (fun y => { y with dispatch := y.dispatch - 1 })) d).startNodes i
    | _, _ => d

/-- The release of an early kernel (R87, R88, R89): a held fault is reported; otherwise its held instructions may issue, its
cores acquire, and it completes if every block has retired. -/
def Device.release (d : Device) (ki : Nat) : Device :=
  match d.kernel? ki with
  | none => d
  | some k =>
    if !k.early then d
    else
      let d := d.setKernel ki { k with early := false }
      match k.fault with
      | some (st, detail) => (d.postFault k detail true).endKernel ki st true
      | none =>
        let d := (d.kernelCores ki).foldl (fun d c =>
          ((d.core c).ents).foldl (fun d (x : Nat × SEnt) =>
            if (x.2.since.map (fun (w : Wait) => w.kind)) = some 6 then (d.waitEnds c x.2 0).modEnt c x.1 (fun y => { y with since := none })
            else d) (d.dropL1 c)) d
        if k.started && k.spent then d.endKernel ki 0 else d

/-- The descriptors of a node that wait for another node: they are cancelled with it (R291). -/
def Device.cancelDescs (d : Device) (i n : Nat) : Device :=
  (d.flow.descs.filter (fun (x : Nat × Desc) => x.2.state == 0 && (parseSd x.2.bytes).tkind == 2 && (parseSd x.2.bytes).tindex == n
    && (match x.2.owner with | .node a _ _ => a == i | _ => false))).foldl (fun d x => d.outcome (d.flow.descs.length + 1) x.1 0xC) d

/-- A successor of a failed node is cancelled, and its successors with it (R85, R89); the fuel is the number of nodes. -/
def Device.cancelNode (d : Device) (i : Nat) : Nat → Nat → Device
  | 0, _ => d
  | fuel + 1, n =>
    match d.inst? i with
    | none => d
    | some s =>
      match d.rnode? s n, Tab.find? s.nodes n with
      | some r, some y =>
        if y.done.isSome then d
        else
          let d := match d.nodeKernel i n with
            | some ki => (match d.kernel? ki with
                | some k => (((d.creditEnds k 1).clearKernel ki none).settleOverrun k).dropKernel ki
                | none => d)
            | none => d
          let d := if r.isKernel then d.countKernel s.hoop (d.queue s.queue).cls else d
          let d := (d.nodeDone i n 0xC 0).modNode i n (fun y => { y with seen := true, cancelled := true })
          r.succ.foldl (fun d m => Device.cancelNode d i fuel m) (d.cancelDescs i n)
      | _, _ => d

/-! The end of an instance -/

/-- Whether no node of an instance runs and none can start (R85). -/
def Inst.over_ (s : Inst) : Bool :=
  s.nodes.all (fun (y : Nat × INode) => (y.2.done.isSome && y.2.seen) || (s.abort && !y.2.started && y.2.done.isNone))

/-- The lowest-numbered node that failed (R85). -/
def Inst.failed (s : Inst) : Option (Nat × INode) :=
  List.find? (fun (y : Nat × INode) => match y.2.done with
    | some st => st != 0 && !y.2.cancelled
    | none => false) s.nodes

/-- End an instance: its LAUNCH_RECIPE entry has its status (R85). -/
def Device.endInst (d : Device) (i : Nat) : Device :=
  match d.inst? i with
  | none => d
  | some s =>
    if !s.over_ then d
    else
      let d := (d.dropInst i).wr Reg.HOOP_RECIPES_LIVE s.hoop (d.rd Reg.HOOP_RECIPES_LIVE s.hoop - 1)
      match s.failed with
      | none => d.finish s.queue s.entry (if s.abort then 1 else 0)
      | some (n, y) =>
        if y.fault then d.finishFaulted s.queue s.entry (y.done.getD 0) 0 n else d.finish s.queue s.entry (y.done.getD 0) 0 n

/-- The completion of a node is observed (R84, R85, R87). -/
def Device.nodeSeen (d : Device) (i n : Nat) : Device :=
  match d.inst? i with
  | none => d
  | some s =>
    match d.rnode? s n, Tab.find? s.nodes n with
    | some r, some y =>
      match y.done with
      | none => d
      | some st =>
        if y.seen then d
        else
          let d := d.modNode i n (fun y => { y with seen := true })
          let d := if st = 0 then
              r.succ.foldl (fun d m =>
                let d := d.modNode i m (fun z => { z with counter := z.counter - 1 })
                match (d.inst? i).bind (fun (s : Inst) => Tab.find? s.nodes m), d.nodeKernel i m with
                | some z, some ki => if z.counter = 0 then d.release ki else d
                | _, _ => d) d
            else r.succ.foldl (fun d m => d.cancelNode i s.nodes.length m) (d.cancelDescs i n)
          (d.startNodes i).endInst i
    | _, _ => d

/-- An instance is aborted (R56, R293): its kernels and copies end with ABORTED, no further node starts. A node that a fault ended at the same
local time has ABORTED (R138). -/
def Device.abortInst (d : Device) (i : Nat) : Device :=
  match d.inst? i with
  | none => d
  | some s =>
    let d := d.setInst i { s with abort := true }
    let d := (Tab.keys s.nodes).foldl (fun d n => match d.nodeKernel i n with
      | some ki => d.endKernel ki 1
      | none => d) d
    let mine := (d.flow.descs.filter (fun (x : Nat × Desc) => match x.2.owner with | .node a _ _ => a == i | _ => false)).map (·.1)
    let d := mine.foldl (fun d x => d.stopDesc x) d
    let d := (d.waitNodes (fun t => t.queue == s.queue && t.entry == s.entry) 3).foldl (fun d (y : Nat × Nat × INode) => d.endWaitNode y.1 y.2.1 1 0) d
    let d := (d.waitNodes (fun t => t.queue == s.queue && t.entry == s.entry) 6).foldl (fun d (y : Nat × Nat × INode) => d.endWaitNode y.1 y.2.1 1 0) d
    (d.modInst i (fun s => { s with nodes := s.nodes.map (fun (y : Nat × INode) =>
      if y.2.done.isSome then (y.1, { y.2 with seen := true, done := if y.2.fault ∧ y.2.at_ = d.clock.now then some 1 else y.2.done })
      else y) })).endInst i

end Sys2Proof.Machine
end

