-- ==== Sys2Proof/Machine/HandOut.lean ====
section
/-! DEFINITION. The dispatchers: block credits, hand-out, blocks that retire, stranded blocks and the watchdog (R98 to R111,
R126, R127, R166, R47, R84). -/

namespace Sys2Proof.Machine

/-! Runs of blocks -/

/-- The next block that a die hands out, with the kernel after it (R107); none when no block is left for the die. -/
def Kernel.take (k : Kernel) (die : Nat) : Option (Nat × Kernel) :=
  if die = k.home then (if k.nextBlock < k.blocks then some (k.nextBlock, { k with nextBlock := k.nextBlock + 1 }) else none)
  else
    match Tab.get [] k.runs die with
    | [] => none
    | (b, e) :: t => some (b, { k with runs := Tab.put [] k.runs die (if b + 1 < e then (b + 1, e) :: t else t) })

/-! Placing a block -/

/-- Group places free in a quarter of a core for a kernel (R99, R103). -/
def Core.placesFree (c : Core) (k : Kernel) (q : Nat) : Nat :=
  k.placesPerQuarter - (c.blocks.foldl (fun n (x : Nat × Block) => n + (x.2.quarters.filter (· == q)).length) 0)

/-- The quarters of `n` groups, placed in order, each in the quarter with the most free places (R99). -/
def placeGroups : Nat → List Nat → List Nat
  | 0, _ => []
  | n + 1, free =>
    let q := (List.range 4).foldl (fun b q => if (free.drop b).headD 0 < (free.drop q).headD 0 then q else b) 0
    q :: placeGroups n (free.set q ((free.drop q).headD 0 - 1))

/-- Take an entry in its quarter for each group; none where a quarter has no free scheduling entry. -/
def Core.takeEnts (c : Core) (place code threads : Nat) : List (Nat × Nat) → Option Core
  | [] => some c
  | (g, q) :: t =>
    match c.freeEnt q with
    | none => none
    | some e =>
      Core.takeEnts { c with ents := Tab.insert c.ents e { place := place, group := g, mask := groupLanes threads g, pc := code } }
        place code threads t

/-- The uniform registers of a block at its start (R100). -/
def startU (k : Kernel) (b core g : Nat) : List (Nat × Nat) :=
  let v := [k.params % 2 ^ 32, k.params / 2 ^ 32, b % k.gx, b / k.gx % k.gy, b / (k.gx * k.gy), core]
  (v.mapIdx (fun i x => (g * 64 + i, x))).filter (fun x => x.2 != 0)

/-- A block at its start (R98 to R101, R206). -/
def Kernel.block (k : Kernel) (ki b core epoch : Nat) (quarters : List Nat) : Block :=
  { kernel := ki, lin := b, x := b % k.gx, y := b / k.gx % k.gy, z := b / (k.gx * k.gy), threads := k.threads, epoch := epoch,
    u := (List.range k.groups).flatMap (startU k b core),
    gens := (List.range k.threads).map (fun t => (t, mix k.seed b t)), quarters := quarters }

/-- The lowest free block place of a core. -/
def Core.freePlace (c : Core) (resident : Nat) : Option Nat := Tab.lowestFree c.blocks 0 resident

/-- A core's first block of a kernel sets its curd split and empties its L1 (R102, R110). -/
def Device.setSplit (d : Device) (core ki : Nat) (k : Kernel) : Device :=
  let d := d.wr Reg.CORE_CURD_SPLIT core k.split
  let d := d.wr Reg.CORE_CURD_BUSY core 1
  let d := d.wr Reg.CORE_CURD_L1_KIB core (6144 - 256 * k.split)
  (d.dropL1 core).modCore core (fun c => { c with kernel := some ki, loc := [] })

/-- The cores of a kernel that hold no block of it and can get none any more are free (R106). -/
def Device.freeIdle (d : Device) (ki : Nat) : Device :=
  match d.kernel? ki with
  | none => d
  | some k => (d.kernelCores ki).foldl (fun d c => if (d.core c).blocks.isEmpty && (k.take (coreDie c)).isNone then d.freeCore c else d) d

/-- Give a core a block of a kernel, if a place and entries are free (R99 to R101, R106 to R111). -/
def Device.giveBlock (d : Device) (core ki : Nat) (k : Kernel) : Device :=
  let die := coreDie core
  let cfg := d.dispCfg k die
  match k.take die with
  | none => d
  | some (b, k') =>
    let d := d.claimTraffic k' (d.claimRuns k')
    let k' := d.claimRuns k'
    let c := d.core core
    match c.freePlace k.resident with
    | none => d
    | some p =>
      let quarters := placeGroups k.groups ((List.range 4).map (c.placesFree k))
      match c.takeEnts p k.code k.threads (quarters.mapIdx (fun g q => (g, q))) with
      | none => d
      | some c' =>
        let first := !k'.given.contains core
        let d := if c.kernel = none then d.setSplit core ki k else d
        let d := d.modCore core (fun x => { x with ents := c'.ents, credit := none,
                                                   blocks := Tab.insert x.blocks p { k'.block ki b core d.fresh quarters with clean := x.clean },
                                                   loc := x.loc.filter (fun (y : Nat × Byte) => !(p * k.local1k ≤ y.1 && y.1 < (p + 1) * k.local1k)) })
        let d := if k.started then d
          else match k.since with
            | some s => d.trace k.hoop 4 0 { die := k.home, queue := k.queue, who := k.ptr }
                (match k.inst with | some (_, n) => n | none => 0xFFFFFFFF) die s
            | none => d
        let d := (d.step1).setKernel ki { k' with started := true, age := if k.started then k.age else 0, outstanding := k'.outstanding + 1,
                                                  given := if first then k'.given ++ [core] else k'.given,
                                                  cfg := Tab.insert k'.cfg die cfg }
        let d := { d with work := { d.work with credits := d.work.credits.erase core } }.freeIdle ki
        match k.inst, d.kernel? ki with
        | some (i, n), some z => if z.allHanded then d.nodeHanded i n else d
        | _, _ => d

/-! Which kernel -/

/-- The hoop that owns a core's cluster (R29). -/
def Device.clusterHoop (d : Device) (core : Nat) : Option Nat :=
  (List.range 8).find? (fun h => d.hoopState h != 0 && (d.rd Reg.HOOP_CLUSTERS_CLUSTERS h).testBit (coreCluster core))

/-- Whether a kernel may be given to a free core of a die (R43, R108, R445, R462): it has a block for the die, its first block
passes the gate, and the sub-slot is not held. -/
def Device.eligible (d : Device) (h die : Nat) (k : Kernel) : Bool :=
  k.hoop == h && k.fault.isNone && !d.wheel.held && (k.started || d.admits h (d.kernelClass k)) && (k.take die).isSome

/-- Whether a kernel precedes another: eligible earlier, lower queue, lower node (R108). Kernels that one event admitted are eligible together. -/
def Kernel.before (a b : Kernel) : Bool :=
  let n := fun (k : Kernel) => match k.inst with | some (_, n) => n | none => 0
  a.order < b.order || (a.order == b.order && (a.queue < b.queue || (a.queue == b.queue && n a < n b)))

/-- The kernel that a free core is given (R108). DESIGN CHOICE (log entry 41): where queue and node do not decide either, the kernel with the lower
number of the model, which started first. -/
def Device.pickKernel (d : Device) (core : Nat) : Option (Nat × Kernel) :=
  match d.clusterHoop core with
  | none => none
  | some h =>
    let st := d.hoopState h
    if st ≠ 1 ∧ st ≠ 2 then none
    else (d.work.kernels.filter (fun (x : Nat × Kernel) => d.eligible h (coreDie core) x.2)).foldl
      (fun (b : Option (Nat × Kernel)) x => match b with
        | none => some x
        | some y => if x.2.before y.2 then some x else b) none

/-- Whether a cluster's other core had its first block of a kernel, so that this core's first waits for the stagger (R109). -/
def Device.staggers (d : Device) (core : Nat) (k : Kernel) : Bool :=
  (d.dispCfg k (coreDie core)).1 != 0 && !k.given.contains core && k.given.any (fun c => coreCluster c == coreCluster core)

/-- The kernel whose stagger a free core waits for, while it still has a block for it (R109). -/
def Device.staggered (d : Device) (core : Nat) : Option (Nat × Kernel) :=
  match (d.core core).credit with
  | none => none
  | some ki => match d.kernel? ki, d.clusterHoop core with
    | some k, some h => if d.eligible h (coreDie core) k then some (ki, k) else none
    | _, _ => none

/-- Serve a credit that waits at its dispatcher (R107 to R109): a free core's gets a block of the earliest eligible kernel, at once or
after the stagger, one that waited through a held sub-slot a block of the core's kernel. -/
def Device.serveCore (d : Device) (core : Nat) : Device :=
  if (d.staggered core).isSome then d
  else match (d.core core).kernel with
  | some ki => (match d.kernel? ki with
    | some k => if k.fault.isNone && !d.wheel.held then d.giveBlock core ki k else d
    | none => d)
  | none =>
    match d.pickKernel core with
    | none => d
    | some (ki, k) =>
      if d.staggers core k then d.modCore core (fun c => { c with credit := some ki })
      else d.giveBlock core ki k

/-- Serve the waiting credits of free cores in the order of their arrival (R107), until no more can be served; the fuel bounds the rounds. -/
def Device.serveAll (d : Device) : Nat → Device
  | 0 => d
  | fuel + 1 =>
    let d' := d.work.credits.foldl (fun d c => d.serveCore c) d
    if d'.work.credits.length < d.work.credits.length then Device.serveAll d' fuel else d'

/-- What any event that may make a kernel eligible does at last: the waiting credits are served. -/
def Device.serveCredits (d : Device) : Device := d.serveAll (d.work.credits.length + 1)

/-- A block credit of a core reaches its die's dispatcher (R106 to R109): a core that runs a kernel is given a block of it, or keeps the credit;
the credit of a free core waits its turn, and any credit waits through a held sub-slot (R462). -/
def Device.credit (d : Device) (core : Nat) : Device :=
  match (d.core core).kernel with
  | some ki => (match d.kernel? ki with
      | some k =>
        if !k.fault.isNone then d
        else if d.wheel.held then { d with work := { d.work with credits := d.work.credits ++ [core] } }
        else (d.giveBlock core ki k).serveCredits
      | none => d)
  | none =>
    Device.serveCredits (if d.work.credits.contains core then d else { d with work := { d.work with credits := d.work.credits ++ [core] } })

/-- BLOCK_CREDIT (R106 to R108), a candidate event of DISPATCH_CREDIT (Table 17-9). -/
def execBlockCredit (core : Nat) (s : State) : Host.Outcome State Fault Refusal :=
  s.done (if s.dev.live && core < 256 then
    (s.dev.perturb 3 (coreDie core)).lateOr (s.dev.perturbDelay 3 (coreDie core)) (.blockCredit core) (fun d => d.credit core) else s.dev)

/-- The stagger of a core's first block has passed (R109). -/
def Device.staggerOver (d : Device) (core : Nat) : Device :=
  match d.staggered core with
  | some (ki, k) => (d.giveBlock core ki k).serveCredits
  | none => d

/-- STAGGERED_HAND_OUT (R109). -/
def execStaggeredHandOut (core : Nat) (s : State) : Host.Outcome State Fault Refusal :=
  s.done (if s.dev.live && core < 256 && (s.dev.core core).kernel.isNone then s.dev.staggerOver core else s.dev)

/-! Blocks that end -/

/-- The deferred fault of a block at the instruction that ended it: a handle never awaited, or a remote store (R292, R166). DESIGN CHOICE (log
entry 41): ARG0 names the lanes that exited last. -/
def Block.lateFault (b : Block) : Option FaultArgs :=
  match (Tab.vals b.handles).findSome? (fun h => if h.awaited then none else h.fault) with
  | some (c, a1, a2) => some { code := c, arg0 := b.last.2.2, arg1 := a1, arg2 := a2 }
  | none => b.gstFail.map (fun (x : Nat × Nat × Nat) => { code := x.1, arg0 := b.last.2.2, arg1 := x.2.1 })

/-- A block whose threads have exited and whose operations have completed ends (R106, R166). -/
def Device.blockRetire (d : Device) (core p : Nat) : Device :=
  match (d.core core).kernel, d.block? core p with
  | some ki, some b =>
    if !b.allExited || (Tab.vals b.handles).any (fun h => !h.done) || !b.gstOut.isEmpty || !b.loads.isEmpty
        || (d.core core).upds.any (fun (x : Nat × UpdOp) => x.2.place == some p) then d
    else match b.lateFault with
      | some f => d.blockFault core p b.last.2.1 b.last.2.2 b.last.1 f
      | none =>
        let d := match d.kernel? ki with
          | some k => d.ringCtl (coreDie core) k.home
          | none => d
        let d := (d.dropBlock core p 0).modKernel ki (fun k => { k with outstanding := k.outstanding - 1, retired := k.retired + 1 })
        let d := d.freeIdle ki
        match d.kernel? ki with
        | none => d
        | some k =>
          if !k.spent then d
          else if k.early then d.setKernel ki (k.freeze d.clock.now)
          else d.endKernel ki 0
  | _, _ => d

/-- BLOCK_RETIRE. -/
def execBlockRetire (core place : Nat) (s : State) : Host.Outcome State Fault Refusal :=
  s.done (if s.dev.live then (s.dev.blockRetire core place).serveCredits else s.dev)

/-! Stranded blocks -/

/-- The entries of a block parked at wait points: (wait point, entry). -/
def Device.parkedAt (d : Device) (core p : Nat) : List (Nat × SEnt) :=
  (d.core core).ents.filterMap (fun (x : Nat × SEnt) => match x.2.park with
    | .wait w => if x.2.place = p then some (w, x.2) else none
    | _ => none)

/-- Whether a block is stranded: every lane that has not exited is parked at a wait point that is not complete (R126). -/
def Device.stranded (d : Device) (core p : Nat) (b : Block) : Bool :=
  let at_ := d.parkedAt core p
  !at_.isEmpty && b.ready.isNone && !b.ending
  && (List.range b.groups).all (fun g =>
    b.alive g == at_.foldl (fun m x => if x.2.group = g then m ||| x.2.mask else m) 0)

/-- The fault of a stranded block (R127, Table 4-6). DESIGN CHOICE (log entry 41): where lanes of the lowest-numbered group are parked at W1 by
BAR instructions at different addresses, the PC is that of the lowest-numbered scheduling entry; the manual names one instruction. -/
def Device.strandedFault (d : Device) (core p : Nat) : Device :=
  let at_ := d.parkedAt core p
  let points := (List.range 18).filter (fun w => at_.any (fun x => x.1 == w))
  let w1 := points.headD 0
  let w2 := (points.drop 1).headD 0
  let groups := fun w => (List.range 32).filter (fun g => at_.any (fun x => x.1 == w && x.2.group == g))
  let lanes := fun w g => at_.foldl (fun m x => if x.1 = w ∧ x.2.group = g then m ||| x.2.mask else m) 0
  let g1 := (groups w1).headD 0
  let g2 := (groups w2).headD 0
  let pc := ((at_.find? (fun x => x.1 == w1 && x.2.group == g1)).map (fun x => x.2.pc)).getD 0
  d.blockFault core p g1 (lanes w1 g1) pc
    { code := 0x40, arg0 := lanes w2 g2, arg1 := maskOf (groups w1) + 2 ^ 32 * maskOf (groups w2), arg2 := w1, arg3 := w2 }

/-- BARRIER_STRANDED. -/
def execBarrierStranded (core place : Nat) (s : State) : Host.Outcome State Fault Refusal :=
  let d := s.dev
  s.done (match d.block? core place with
    | some b => if d.live && d.stranded core place b then d.strandedFault core place else d
    | none => d)

/-! Watchdog and nodes -/

/-- Whether the watchdog of a kernel's hoop is due for it (R47). -/
def Device.watchdogDue (d : Device) (k : Kernel) : Bool := k.started && d.rd Reg.HOOP_CFG_WATCHDOG k.hoop ≤ k.age

/-- The record and the status bit of a watchdog (R47). -/
def Device.watchdogFires (d : Device) (k : Kernel) : Device :=
  (d.post { code := 0x03, hoop := k.hoop, queue := k.queue, pointer := k.ptr, detail := le 8 k.age }).wr Reg.HOOP_STATUS_WATCHDOG_FIRED k.hoop 1

/-- The watchdog finds a kernel running at the W-th tick after its first block and aborts it (R47); a fault of the kernel at the same
local time has been posted, and the abort takes precedence over it (R138). -/
def Device.watchdog (d : Device) (ki : Nat) : Device :=
  match d.kernel? ki, d.work.faulted.find? (fun (x : Nat × Nat × Kernel) => x.1 == ki && x.2.1 == d.clock.now) with
  | some k, _ => if d.watchdogDue k then (d.watchdogFires k).endKernel ki 1 else d
  | none, some (_, _, k) => if d.watchdogDue k then (d.watchdogFires k).abortFaulted k else d
  | none, none => d

/-- KERNEL_WATCHDOG (R47, R138). -/
def execKernelWatchdog (kernel : Nat) (s : State) : Host.Outcome State Fault Refusal :=
  s.done (if s.dev.live then (s.dev.watchdog kernel).serveCredits else s.dev)

/-- NODE_COMPLETE (R84, R85, R87). -/
def execNodeComplete (inst node : Nat) (s : State) : Host.Outcome State Fault Refusal :=
  s.done (if s.dev.live then (s.dev.nodeSeen inst node).serveCredits else s.dev)

end Sys2Proof.Machine
end

