-- ==== Sys2Proof/Machine/L1.lean ====
section
/-! DEFINITION. The L1 and the victim cache of a core (R221 to R226). -/

namespace Sys2Proof.Machine

/-- The sets of a core's L1 (R221). -/
def Device.l1Sets (d : Device) (k : Nat) : Nat := d.rd Reg.CORE_CURD_L1_KIB k

/-- The ways of the set of a line, by number. -/
def Core.l1Ways (c : Core) (sets line : Nat) : List (Nat × Option L1Line) :=
  (List.range 8).map (fun w => (w, Tab.find? c.l1 (line % sets * 8 + w)))

/-- A line in the L1. -/
def Core.l1Hit (c : Core) (sets line : Nat) : Option L1Line :=
  (c.l1Ways sets line).findSome? (fun x => x.2.bind (fun (y : L1Line) => if y.line = line then some y else none))

/-- The way that a fill takes, and the generator after it (R222). -/
def Core.l1Choose (c : Core) (sets line : Nat) : Nat × Nat :=
  let ways := c.l1Ways sets line
  match ways.find? (fun x => x.2.isNone) with
  | some x => (x.1, c.gen)
  | none =>
    match ways.find? (fun x => (x.2.map (fun (y : L1Line) => y.evict)).getD false) with
    | some x => (x.1, c.gen)
    | none => (lfsr16 c.gen % 8, lfsr16 c.gen)

/-- Fill a line; the line displaced enters the victim cache, whose oldest leaves (R222, R224). -/
def Core.l1Fill (c : Core) (sets : Nat) (x : L1Line) : Core :=
  let w := c.l1Choose sets x.line
  let key := x.line % sets * 8 + w.1
  let v := match Tab.find? c.l1 key with
    | some y => c.victim ++ [y]
    | none => c.victim
  { c with l1 := Tab.insert c.l1 key x, gen := w.2, victim := v.drop (v.length - 32) }

/-- Drop one line from the L1 and the victim cache. -/
def Core.l1Drop (c : Core) (line : Nat) : Core :=
  { c with l1 := c.l1.filter (fun (x : Nat × L1Line) => x.2.line != line), victim := c.victim.filter (fun x => x.line != line),
           softL1 := c.softL1.filter (· != line), badL1 := c.badL1.filter (· != line) }

/-- A next-line prefetch (R225): dropped where the line holds an uncorrectable error, which is counted (Table 8-3). DESIGN CHOICE (log entry 41): it is
never marked evict-first, whatever load it follows. -/
def Device.l1Prefetch (d : Device) (k h line : Nat) : Device :=
  let sets := d.l1Sets k
  let c := d.core k
  if (c.l1Hit sets line).isSome || c.victim.any (fun x => x.line == line) then d
  else
    let d := d.cohRead1 (coreDie k) h true true line
    match d.readDev (line * 128) 128 with
    | some b => d.modCore k (fun c => c.l1Fill sets { line := line, data := b })
    | none => d.countSat Reg.L2_ECC_UNCORR (coreDie k)

/-- An L1 or victim-cache line with an error is looked up (R233, Table 8-3): a single-bit error is corrected and counted; an uncorrectable one empties
both and counts as corrected, and the access goes on as a miss. -/
def Device.l1Met (d : Device) (k line : Nat) : Device :=
  let c := d.core k
  if c.badL1.contains line then (d.dropL1 k).countSat Reg.CORE_ECC_CORR k
  else if c.softL1.contains line then (d.setCore k { c with softL1 := c.softL1.erase line }).countSat Reg.CORE_ECC_CORR k
  else d

/-- A load that misses the L1 and the victim cache may give histogram 1 a sample: one load in 2^RATE_LOG2, chosen by the core's generator. The latency is a
free value (R435, Table 17-4; log entry 9). -/
def Device.loadSample (d : Device) (k h : Nat) : Device :=
  if (d.core k).gen % 2 ^ ((d.hstat h).hist 1).rate = 0 then d.step1.sample h 1 (Config.freeValue d.fresh).toNat else d

/-- A lookup of a line by a load or, where `load` is false, an instruction fetch (R221 to R225, R252): the bytes that the L1 serves, none where the access
reads below it. `next` is the line that a demand miss prefetches. -/
def Device.l1Read (d : Device) (k h line cache : Nat) (load : Bool) (next : Option Nat) : Device × Option Bytes :=
  let d := d.l1Met k line
  let sets := d.l1Sets k
  let c := d.core k
  let sampled := fun (d : Device) => if load then d.loadSample k h else d
  if cache = 2 then ((sampled (d.cohRead1 (coreDie k) h true true line)).modCore k (fun c => c.l1Drop line), none)
  else match c.l1Hit sets line with
    | some x => (d, some x.data)
    | none =>
      match c.victim.find? (fun x => x.line == line) with
      | some x => (d.setCore k ({ c with victim := c.victim.erase x }.l1Fill sets x), some x.data)
      | none =>
        let d := sampled (d.cohRead1 (coreDie k) h true true line)
        let r := match d.readDev (line * 128) 128 with
          | some b => (d.modCore k (fun c => c.l1Fill sets { line := line, data := b, evict := cache == 1 }), some b)
          | none => (d, none)
        (match next with
          | some n => r.1.l1Prefetch k h n
          | none => r.1, r.2)

/-- A store's effect on the L1 (R221, R224): a hit updates the line, a victim-cache hit invalidates it. -/
def Device.l1Store (d : Device) (k a : Nat) (data : Bytes) : Device :=
  d.modCore k (fun c =>
    { c with l1 := c.l1.map (fun (x : Nat × L1Line) =>
               if x.2.line = a / 128 then (x.1, { x.2 with data := splice x.2.data (a % 128) data }) else x),
             victim := c.victim.filter (fun x => x.line != a / 128) })

end Sys2Proof.Machine
end

