-- ==== Sys2Proof/Machine/Operands.lean ====
section
/-! DEFINITION. The operand forms of Ixfen instructions and the encoding rules of R141 to R146. -/

namespace Sys2Proof.Machine

/-- What a source field may name (R145), with the registers it takes: nothing, a vector or uniform register, a vector register, a
uniform register, a predicate, a handle, a number. -/
inductive SK where
  | none
  | vu (n : Nat)
  | v (n : Nat)
  | u (n : Nat)
  | p
  | h
  | num
  deriving DecidableEq, Repr

/-- What a destination names. -/
inductive DK where
  | none
  | v (n : Nat)
  | u (n : Nat)
  | p
  | h
  deriving DecidableEq, Repr

/-- The use of the immediate word: none, in place of B where present, required, part of an address where present, in place of A
where present. -/
inductive IK where
  | no
  | b
  | req
  | addr
  | a
  deriving DecidableEq, Repr

/-- The operands of an instruction, its own rules on MOD and the immediate, whether it requires the pt guard (R142), and
whether it also reads D. -/
structure OpSpec where
  d : DK := .none
  a : SK := .none
  b : SK := .none
  c : SK := .none
  imm : IK := .no
  ok : Bool := true
  pt : Bool := false
  rd : Bool := false
  deriving DecidableEq, Repr

/-! The instruction word -/

/-- An instruction from its 64-bit word and its immediate word: opcode and fields (Table 5-1); without IMM there is no immediate word. -/
def readWord (x imm : Nat) : Nat × IWord :=
  (bits x 7 0,
   { pg := BitVec.ofNat 3 (x / 2 ^ 8), pn := x.testBit 11, d := BitVec.ofNat 8 (x / 2 ^ 12), a := BitVec.ofNat 8 (x / 2 ^ 20),
     b := BitVec.ofNat 8 (x / 2 ^ 28), c := BitVec.ofNat 8 (x / 2 ^ 36), mod := BitVec.ofNat 12 (x / 2 ^ 44),
     ak := BitVec.ofNat 2 (x / 2 ^ 56), bk := BitVec.ofNat 2 (x / 2 ^ 58), ck := BitVec.ofNat 2 (x / 2 ^ 60),
     dz := x.testBit 62, imm := x.testBit 63, immw := if x.testBit 63 then BitVec.ofNat 64 imm else 0 })

/-- The 64-bit word of an instruction (Table 5-1). -/
def wordBits (op : Nat) (w : IWord) : Nat :=
  op + 2 ^ 8 * w.pg.toNat + 2 ^ 11 * b2n w.pn + 2 ^ 12 * w.d.toNat + 2 ^ 20 * w.a.toNat + 2 ^ 28 * w.b.toNat + 2 ^ 36 * w.c.toNat
    + 2 ^ 44 * w.mod.toNat + 2 ^ 56 * w.ak.toNat + 2 ^ 58 * w.bk.toNat + 2 ^ 60 * w.ck.toNat + 2 ^ 62 * b2n w.dz + 2 ^ 63 * b2n w.imm

/-- The bytes of an instruction in memory: its word and, with IMM, its immediate word, little-endian (R140). -/
def wordBytes (op : Nat) (w : IWord) : Bytes := le 8 (wordBits op w) ++ (if w.imm then le 8 w.immw.toNat else [])

/-- Whether a register of `n` fits below `top` with its alignment (R146). -/
def regFits (field n top : Nat) : Bool := field % n == 0 && field + n ≤ top

/-- Whether a source field holds by its kind (R145, R146). -/
def SK.ok (k : SK) (kind field : Nat) : Bool :=
  match k with
  | .none => kind == 0 && field == 0
  | .vu n => if kind = 0 then regFits field n 255 else if kind = 1 then regFits field n 63 else kind == 2 && field == 0
  | .v n => if kind = 0 then regFits field n 255 else kind == 2 && field == 0
  | .u n => if kind = 1 then regFits field n 63 else kind == 2 && field == 0
  | .p => kind == 0 && field < 8
  | .h => kind == 0 && field < 4
  | .num => kind == 0

/-- Whether the destination field holds (R141, R145, R146). -/
def DK.ok (k : DK) (field : Nat) (dz : Bool) : Bool :=
  match k with
  | .none => field == 0 && !dz
  | .v n => if dz then field == 0 else regFits field n 255
  | .u n => if dz then field == 0 else regFits field n 63
  | .p => field < 8 && !dz
  | .h => field < 4 && !dz

/-- Whether the immediate word is present as the opcode allows. -/
def IK.ok (k : IK) (imm : Bool) : Bool :=
  match k with
  | .no => !imm
  | .req => imm
  | _ => true

/-- The kinds of A and B where the immediate takes the place of one. -/
def OpSpec.srcA (s : OpSpec) (w : IWord) : SK := if s.imm = .a ∧ w.imm then .none else s.a
def OpSpec.srcB (s : OpSpec) (w : IWord) : SK := if s.imm = .b ∧ w.imm then .none else s.b

/-- The encoding rules of an instruction (R141, R142, R145, R146). -/
def OpSpec.encoded (s : OpSpec) (w : IWord) : Bool :=
  s.d.ok w.d.toNat w.dz && (s.srcA w).ok w.ak.toNat w.a.toNat && (s.srcB w).ok w.bk.toNat w.b.toNat && s.c.ok w.ck.toNat w.c.toNat
  && s.imm.ok w.imm && s.ok && (!s.pt || (w.pg == 0 && !w.pn))

/-- The vector registers that a source names. -/
def SK.regs (k : SK) (kind field : Nat) : List Nat :=
  if kind ≠ 0 then []
  else match k with
    | .vu n => (List.range n).map (· + field)
    | .v n => (List.range n).map (· + field)
    | _ => []

/-- The vector registers that the destination names. -/
def DK.regs (k : DK) (field : Nat) (dz : Bool) : List Nat :=
  match k with
  | .v n => if dz then [] else (List.range n).map (· + field)
  | _ => []

/-- The vector registers that an instruction reads as sources. -/
def OpSpec.reads (s : OpSpec) (w : IWord) : List Nat :=
  (s.srcA w).regs w.ak.toNat w.a.toNat ++ (s.srcB w).regs w.bk.toNat w.b.toNat ++ s.c.regs w.ck.toNat w.c.toNat

/-- The uniform registers that a source names. -/
def SK.uregs (k : SK) (kind field : Nat) : List Nat :=
  if kind ≠ 1 then []
  else match k with
    | .vu n => (List.range n).map (· + field)
    | .u n => (List.range n).map (· + field)
    | _ => []

/-- The uniform registers that the destination names. -/
def DK.uregs (k : DK) (field : Nat) (dz : Bool) : List Nat :=
  match k with
  | .u n => if dz then [] else (List.range n).map (· + field)
  | _ => []

/-- The vector and uniform registers that an instruction reads or writes. -/
def OpSpec.vtouch (s : OpSpec) (w : IWord) : List Nat := s.d.regs w.d.toNat w.dz ++ s.reads w
def OpSpec.utouch (s : OpSpec) (w : IWord) : List Nat :=
  s.d.uregs w.d.toNat w.dz ++ (s.srcA w).uregs w.ak.toNat w.a.toNat ++ (s.srcB w).uregs w.bk.toNat w.b.toNat
    ++ s.c.uregs w.ck.toNat w.c.toNat

/-- The first vector register that lies at or above REGS, in the order D, A, B, C (Table 4-8). -/
def OpSpec.outOfRange (s : OpSpec) (w : IWord) (regs : Nat) : Option Nat :=
  (s.d.regs w.d.toNat w.dz ++ s.reads w).find? (fun r => regs ≤ r)

end Sys2Proof.Machine
end

