-- ==== Sys2Proof/Machine/CoreOps.lean ====
section
/-! DEFINITION. The issue of an instruction: fetch, checks, operands, faults and what an entry does next (R112, R113, R134, R140 to
R147, R174, R175); splits, barriers and wait points (R118 to R133, R506). -/

namespace Sys2Proof.Machine

/-- What an instruction is issued with: core, entry, the entry's and its block's state, kernel, word, opcode, the active lanes whose
guard is true, and whether data that it awaited has come. -/
structure IC where
  core : Nat
  entry : Nat
  x : SEnt
  b : Block
  ki : Nat
  k : Kernel
  w : IWord
  op : Nat
  guard : Nat
  deriving DecidableEq, Repr

/-- What an instruction does once its encoding holds: it completes and the entry goes on; it has moved the entry itself; it parks and
is tried again, with the wait that the trace records; it faults. -/
inductive Eff where
  | go (d : Device)
  | jump (d : Device)
  | retry (d : Device) (wait : Option (Nat × Nat × Nat))
  | fault (d : Device) (f : FaultArgs)

/-- The bytes of an instruction (R140). -/
def iwSize (w : IWord) : Nat := if w.imm then 16 else 8

def IC.mod (i : IC) (msb lsb : Nat) : Nat := bits i.w.mod.toNat msb lsb
def IC.flag (i : IC) (n : Nat) : Bool := i.w.mod.toNat.testBit n
def IC.lanes (i : IC) : List Nat := setBits 32 i.guard
def IC.thread (i : IC) (lane : Nat) : Nat := 32 * i.x.group + lane
def IC.hoop (i : IC) : Nat := i.k.hoop
def IC.die (i : IC) : Nat := coreDie i.core
def IC.place (i : IC) : Nat := i.x.place

/-- The value of a source field of `n` registers in a lane (R145, R146). -/
def IC.src (i : IC) (kind field n lane : Nat) : Nat :=
  if kind = 0 then i.b.vregs (i.thread lane) field n else if kind = 1 then i.b.uregs i.x.group field n else 0
def IC.a (i : IC) (n lane : Nat) : Nat := i.src i.w.ak.toNat i.w.a.toNat n lane
def IC.c (i : IC) (n lane : Nat) : Nat := i.src i.w.ck.toNat i.w.c.toNat n lane
/-- Source B, or the immediate in its place (R143). -/
def IC.b_ (i : IC) (n lane : Nat) : Nat :=
  if i.w.imm then i.w.immw.toNat % 2 ^ (32 * n) else i.src i.w.bk.toNat i.w.b.toNat n lane
/-- Source B of an instruction whose immediate serves another purpose. -/
def IC.bReg (i : IC) (n lane : Nat) : Nat := i.src i.w.bk.toNat i.w.b.toNat n lane

/-- Write the vector destination of a lane in a block's copy (R144, R145). -/
def IC.setD (i : IC) (b : Block) (n lane v : Nat) : Block := if i.w.dz then b else b.setVs (i.thread lane) i.w.d.toNat v n
/-- Write the uniform destination. -/
def IC.setU (i : IC) (b : Block) (n v : Nat) : Block := if i.w.dz then b else b.setUs i.x.group i.w.d.toNat v n

/-- The block as an instruction leaves it; a written register is readable again (R234). -/
def IC.put (i : IC) (d : Device) (b : Block) : Device := d.modBlock i.core i.place (fun _ => b)

/-- The guard of an entry's lanes (R142). -/
def guardMask (b : Block) (x : SEnt) (w : IWord) : Nat :=
  let p := b.pred x.group w.pg.toNat
  x.mask &&& (if w.pn then 2 ^ 32 - 1 - p % 2 ^ 32 else p)

/-! Fetch -/

/-- What a fetch yields: what was read, a fault, or nothing yet, while a read of the host is open. -/
inductive Fetch (α : Type) where
  | got (a : α)
  | fault (f : FaultArgs)
  | wait

/-- A fetch of 8 bytes of an instruction for an entry, by the L1, from the host tier by PCIe (R140, R158, R263, R267, Table 8-1): the device
after it, and the word. DESIGN CHOICE (log entry 41): a segment fault met at the immediate word, at pc + 8, names the pc in ARG1 too. -/
def Device.fetchWord (d : Device) (core e : Nat) (x : SEnt) (k : Kernel) (a : Nat) : Device × Fetch Nat :=
  let r := d.xlate core k.hoop k.map a 8 [6] false
  let bad : FaultArgs := { code := 0x60, arg1 := x.pc, arg2 := 1 }
  match r.2 with
  | .error g => (r.1, .fault (if g.code = 0x60 then bad else { code := g.code, arg1 := x.pc, arg2 := g.arg2 }))
  | .ok (.host b) =>
    (match x.code.find? (fun y => y.1 == a) with
     | some (_, some w) => (r.1, .got (ofLe w))
     | some (_, none) => (r.1, .fault bad)
     | none =>
       let fn := r.1.ownerFn k.hoop
       if !r.1.mayMaster fn then (r.1, .fault bad)
       else ((r.1.openRead { kind := 11, a := core, b := e, c := a, fn := fn, addr := b } 8).modEnt core e (fun y =>
         { y with park := .data, fetch := some (r.1.fresh, a) }), .wait))
  | .ok (.dev b) =>
    let y := r.1.l1Read core k.hoop (b / 128) 0 false none
    match (y.2.map (fun w => slice w (b % 128) 8)).or (y.1.readDev b 8) with
    | some w => (y.1, .got (ofLe w))
    | none => (y.1, .fault bad)

/-- The instruction at an entry's pc, read from memory: its opcode and fields, with its immediate word where IMM says so (R140). -/
def Device.fetchCode (d : Device) (core e : Nat) (x : SEnt) (k : Kernel) : Device × Fetch (Nat × IWord) :=
  match d.fetchWord core e x k x.pc with
  | (d, .wait) => (d, .wait)
  | (d, .fault f) => (d, .fault f)
  | (d, .got v) =>
    if !v.testBit 63 then (d, .got (readWord v 0))
    else match d.fetchWord core e x k (x.pc + 8) with
      | (d, .wait) => (d, .wait)
      | (d, .fault f) => (d, .fault f)
      | (d, .got m) => (d, .got (readWord v m))

/-- A host read of a fetch has ended (R267): its entry tries again. -/
def Device.codeArrived (d : Device) (core e tag a : Nat) (come : Except Nat Bytes) : Device :=
  match d.ent? core e with
  | none => d
  | some x =>
    if x.fetch ≠ some (tag, a) ∨ x.park ≠ .data then d
    else d.modEnt core e (fun x => { x with park := .retry, fetch := none, code := x.code ++ [(a, match come with
      | .ok b => if b.length = 8 then some b else none
      | .error _ => none)] })

/-! Entry movement -/

/-- A free entry for lanes of a group: of the quarter of its block's group (R112, R118). -/
def Device.freeEntry (d : Device) (core : Nat) (b : Block) (g : Nat) : Option Nat :=
  (d.core core).freeEnt ((b.quarters.drop g).headD 0)

/-- Where lanes that share a scheduling entry with other lanes are kept: a number from 192 up that is no scheduling entry (R506, R119;
log entry 17). -/
def Device.sharedEntry (d : Device) (core : Nat) : Nat := (Tab.lowestFree (d.core core).ents 192 2048).getD 192

/-- Wait ends for an entry that goes on: its record, and no wait. -/
def Device.unwait (d : Device) (core e : Nat) : Device :=
  match d.ent? core e with
  | none => d
  | some x => if x.since.isNone then d else (d.waitEnds core x 0).modEnt core e (fun y => { y with since := none })

/-- The entry goes on at an address. -/
def Device.goTo_ (d : Device) (core e pc : Nat) : Device :=
  (d.unwait core e).modEnt core e (fun y => { y with pc := pc, park := .ready, await := none })

/-- The entries of a block's group. -/
def Device.groupEnts (d : Device) (core p g : Nat) : List (Nat × SEnt) :=
  (d.core core).ents.filter (fun (x : Nat × SEnt) => x.2.place == p && x.2.group == g)

/-- Lanes of a split that have arrived. -/
def Split.all (s : Split) : Nat := s.arrived.foldl (fun m (x : Nat × Nat) => m ||| x.2) 0

/-- Lanes of a mask that are not in another. -/
def without (a b : Nat) : Nat := a - (a &&& b)

/-- Whether an entry's innermost context is of a split. -/
def SEnt.inSplit (x : SEnt) (n : Nat) : Bool := match x.ctx with
  | c :: _ => c.split == n
  | [] => false

/-- Where lanes that a split held at its point go on: behind the RCV, or at it where the enclosing split has the same point, which they then
reach too (R119, R164). -/
def Split.behind (s : Split) : Nat := match s.ctx with
  | c :: _ => if c.point = s.point then s.point else s.point + 8
  | [] => s.point + 8

/-- Every lane of a split has arrived or exited: the lanes merge into the entry that issued the branch, and every other entry is freed
(R119). -/
def Device.mergeSplit (d : Device) (core p n : Nat) (s : Split) (b : Block) : Device :=
  let lanes := s.all &&& b.alive s.group
  let here := (d.groupEnts core p s.group).filter (fun x => x.2.inSplit n)
  let home := if here.any (fun x => x.1 == s.home) then s.home else ((here.head?).map (·.1)).getD s.home
  let stack := ((d.ent? core home).map (fun (x : SEnt) => x.stack)).getD []
  let d := here.foldl (fun d x => if x.1 = home then d else d.dropEnt core x.1) d
  let d := d.modBlock core p (fun b => { b with splits := (Tab.erase b.splits n).map (fun (y : Nat × Split) =>
    (y.1, if here.any (fun x => x.1 == y.2.home) then { y.2 with home := home } else y.2)) })
  d.modEnt core home (fun x => { x with mask := lanes, pc := s.behind, park := if lanes = 0 then .reconv else .ready, ctx := s.ctx, stack := stack })

/-- Lanes that wait only for lanes parked at wait points or exited go on without merging (R119): the split keeps the others. -/
def Device.continueSplit (d : Device) (core p n : Nat) (s : Split) : Device :=
  let d := s.arrived.foldl (fun (d : Device) (y : Nat × Nat) =>
    let go : SEnt → SEnt := fun x => { x with mask := y.2, pc := s.behind, park := .ready, ctx := s.ctx }
    match d.ent? core y.1 with
    | some x =>
      if x.park = .reconv ∧ x.inSplit n then d.modEnt core y.1 go
      else d.setEnt core (d.sharedEntry core) (go { x with stack := [], await := none, since := none })
    | none => d.setEnt core (d.sharedEntry core) (go { place := p, group := s.group, mask := y.2, pc := 0 })) d
  let left := without s.lanes s.all
  let rest := (d.groupEnts core p s.group).filter (fun x => x.2.ctx.any (fun c => c.split == n))
  let home := ((rest.head?).map (·.1)).getD s.home
  d.modBlock core p (fun b => { b with splits := Tab.insert b.splits n { s with lanes := left, arrived := [], home := home } })

/-- Whether every lane of a mask in a group is parked at a wait point. -/
def Device.allWait (d : Device) (core p g mask : Nat) : Bool :=
  without mask ((d.groupEnts core p g).foldl (fun m x => match x.2.park with
    | .wait _ => m ||| x.2.mask
    | _ => m) 0) == 0

/-- An entry whose lanes have all exited is freed, unless deferred lanes run in it or a split has it as its home (R118, R119). -/
def Device.emptied (d : Device) (core e : Nat) : Device :=
  match d.ent? core e with
  | none => d
  | some x =>
    if x.mask ≠ 0 then d
    else match x.stack with
      | t :: rest => d.setEnt core e { x with mask := t.mask, pc := t.target, ctx := t.ctx, stack := rest, park := .ready }
      | [] =>
        let home := ((d.block? core x.place).map (fun (b : Block) => b.splits.any (fun (y : Nat × Split) => y.2.home == e))).getD false
        if home then d.setEnt core e { x with park := .reconv } else d.dropEnt core e

/-- Settle the splits of a block after lanes have arrived, parked or exited (R119); the fuel bounds the rounds. -/
def Device.settleSplits (d : Device) (core p : Nat) : Nat → Device
  | 0 => d
  | fuel + 1 =>
    match d.block? core p with
    | none => d
    | some b =>
      let due := List.find? (fun (y : Nat × Split) =>
        let wait := without (y.2.lanes &&& b.alive y.2.group) y.2.all
        wait == 0 || (y.2.all != 0 && d.allWait core p y.2.group wait)) b.splits
      match due with
      | none => d
      | some (n, s) =>
        let wait := without (s.lanes &&& b.alive s.group) s.all
        let d := if wait = 0 then
            let d := d.mergeSplit core p n s b
            d.emptied core s.home
          else d.continueSplit core p n s
        Device.settleSplits d core p fuel

/-- Settle a block's splits, as often as there are splits and entries. -/
def Device.settleBlock (d : Device) (core p : Nat) : Device :=
  d.settleSplits core p (((d.block? core p).map (fun (b : Block) => 2 * b.splits.length + 2)).getD 0)

/-- A divergent branch (R118): the lanes of the lowest target stay, the others take entries or places of the deferred stack. `point` is
the reconvergence point. -/
def IC.diverge (i : IC) (d : Device) (targets : List (Nat × Nat)) (point : Nat) : Device :=
  let n := d.fresh
  let ctx := (⟨point, n⟩ : Ctx) :: i.x.ctx
  let d := (d.step1).modBlock i.core i.place (fun b =>
    { b with splits := Tab.insert b.splits n { group := i.x.group, home := i.entry, point := point, lanes := i.x.mask, ctx := i.x.ctx } })
  match targets with
  | [] => d
  | (t0, m0) :: rest =>
    let d := d.modEnt i.core i.entry (fun x => { x with mask := m0, pc := t0, ctx := ctx, park := .ready, since := none })
    rest.foldl (fun d (y : Nat × Nat) => match d.freeEntry i.core i.b i.x.group with
      | some e => d.setEnt i.core e { place := i.place, group := i.x.group, mask := y.2, pc := y.1, ctx := ctx }
      | none => d.modEnt i.core i.entry (fun x => { x with stack := ⟨y.2, y.1, ctx⟩ :: x.stack })) d

/-- Lanes of a branch by target, rising (R118). -/
def byTarget (l : List (Nat × Nat)) : List (Nat × Nat) :=
  let ts := sortBy (fun a b => decide (a ≤ b)) (l.map (·.2)).eraseDups
  ts.map (fun t => (t, maskOf ((l.filter (fun x => x.2 == t)).map (·.1))))

/-- An entry reaches an RCV (R119, R164). DESIGN CHOICE (log entry 41): all its lanes park there, whatever the guard of the RCV. -/
def IC.reconverge (i : IC) (d : Device) : Eff :=
  match i.x.ctx with
  | [] => .go d
  | c :: _ =>
    if c.point ≠ i.x.pc then .go d
    else
      let n := c.split
      let d := d.modBlock i.core i.place (fun b => match Tab.find? b.splits n with
        | some s => { b with splits := Tab.insert b.splits n { s with arrived := Tab.insert s.arrived i.entry (Tab.get 0 s.arrived i.entry ||| i.x.mask) } }
        | none => b)
      let top := match i.x.stack with
        | t :: rest => if (match t.ctx with | c :: _ => c.split == n | [] => false) then some (t, rest) else none
        | [] => none
      let d := match top with
        | some (t, rest) => d.modEnt i.core i.entry (fun x => { x with mask := t.mask, pc := t.target, ctx := t.ctx, stack := rest, park := .ready, since := none })
        | none => d.modEnt i.core i.entry (fun x => { x with park := .reconv, since := none })
      .jump (d.settleBlock i.core i.place)

/-! Wait points -/

/-- The longest common tail of two context lists. -/
def commonCtx (a b : List Ctx) : List Ctx :=
  let n := Nat.min a.length b.length
  ((a.drop (a.length - n)).zip (b.drop (b.length - n))).foldr (fun (x : Ctx × Ctx) (acc : Bool × List Ctx) =>
    if acc.1 && x.1 == x.2 then (true, x.1 :: acc.2) else (false, acc.2)) (true, []) |>.2

/-- Two entries of one group that stand together become one, the first (R119). -/
def Device.joinEnts (d : Device) (core p e f : Nat) : Device :=
  match d.ent? core e, d.ent? core f with
  | some x, some y =>
    let ctx := commonCtx x.ctx y.ctx
    let gone := ((x.ctx ++ y.ctx).filter (fun c => !ctx.contains c)).map (fun c => c.split)
    let m := x.mask ||| y.mask
    let d := (d.setEnt core e { x with mask := m, ctx := ctx, stack := x.stack ++ y.stack }).dropEnt core f
    d.modBlock core p (fun b => { b with splits := b.splits.filterMap (fun (z : Nat × Split) =>
      let s := if z.2.home = f then { z.2 with home := e } else z.2
      let s := if gone.contains z.1 then { s with lanes := without s.lanes m } else s
      if s.lanes = 0 then none else some (z.1, s)) })
  | _, _ => d

/-- Join the entries of a list that stand together: same group, same address, ready. -/
def Device.joinAll (d : Device) (core p : Nat) : List Nat → Device
  | [] => d
  | e :: t =>
    let d := t.foldl (fun d f => match d.ent? core e, d.ent? core f with
      | some x, some y => if x.group = y.group ∧ x.pc = y.pc then d.joinEnts core p e f else d
      | _, _ => d) d
    Device.joinAll d core p t

/-- The lanes parked at a wait point go on behind it (R119, R124, R129, R133). -/
def Device.resumeAt (d : Device) (core p w : Nat) : Device :=
  let l := ((d.core core).ents.filter (fun (x : Nat × SEnt) => x.2.place == p && x.2.park == .wait w)).map (·.1)
  let d := l.foldl (fun d e => match d.ent? core e with
    | some x => d.goTo_ core e (x.pc + 8)
    | none => d) d
  d.joinAll core p l

/-- Whether every thread that has not exited has arrived at a wait point since its last completion (R124, R129, R133). -/
def Block.complete (b : Block) (w : Nat) : Bool :=
  let arr := fun g => Tab.get 0 b.arrived (w * 32 + g)
  (List.range b.groups).any (fun g => arr g != 0) && (List.range b.groups).all (fun g => without (b.alive g) (arr g) == 0)

/-- The arrivals of a wait point are cleared. -/
def Block.clearPoint (b : Block) (w : Nat) : Block :=
  { b with arrived := b.arrived.filter (fun (x : Nat × Nat) => x.1 / 32 != w) }

/-- Complete every wait point of a block that is complete (R124, R129, R133): barriers resume their lanes; an MXBEGIN rendezvous waits
for the grant in order of completion, an MXEND rendezvous for the release. -/
def Device.settlePoints (d : Device) (core p : Nat) : Device :=
  let d := (List.range 16).foldl (fun d w => match d.block? core p with
    | some b => if b.complete w then (d.modBlock core p (fun b => b.clearPoint w)).resumeAt core p w else d
    | none => d) d
  match d.block? core p with
  | none => d
  | some b =>
    let d := if b.ready.isNone && b.complete 16 then
        (d.step1).modBlock core p (fun b => { b.clearPoint 16 with ready := some d.fresh })
      else d
    if b.complete 17 then d.modBlock core p (fun b => { b.clearPoint 17 with ending := true }) else d

/-- After lanes of a block have arrived, parked or exited: wait points, then splits. -/
def Device.settle (d : Device) (core p : Nat) : Device := (d.settlePoints core p).settleBlock core p

/-- Lanes of an entry arrive at a wait point and park there; the other active lanes go on at the next instruction (R124, R129, R133,
R506). -/
def IC.arriveAndPark (i : IC) (d : Device) (w : Nat) : Eff :=
  let m := i.guard
  let rest := without i.x.mask m
  let key := w * 32 + i.x.group
  let d := d.modBlock i.core i.place (fun b => { b with arrived := Tab.insert b.arrived key (Tab.get 0 b.arrived key ||| m) })
  let wait : Wait := ⟨d.stamp i.hoop, 1, w, m⟩
  let parked : SEnt := { i.x with mask := m, park := .wait w, since := some wait, await := none }
  let d := if rest = 0 then d.setEnt i.core i.entry parked
    else
      let next : SEnt := { i.x with mask := rest, pc := i.x.pc + 8, park := .ready, stack := [], since := none, await := none }
      match d.freeEntry i.core i.b i.x.group with
      | some e => (d.setEnt i.core i.entry parked).setEnt i.core e next
      | none => (d.setEnt i.core i.entry { next with stack := i.x.stack }).setEnt i.core (d.sharedEntry i.core) { parked with stack := [] }
  .jump (d.settle i.core i.place)

/-- Lanes of an entry exit (R124, R163, R166). -/
def IC.exitLanes (i : IC) (d : Device) : Eff :=
  let m := i.guard
  let g := i.x.group
  let d := d.modBlock i.core i.place (fun b => { b with exited := Tab.insert b.exited g (Tab.get 0 b.exited g ||| m),
                                                        last := (i.x.pc, g, i.x.mask) })
  let d := d.modEnt i.core i.entry (fun x => { x with mask := without x.mask m, pc := x.pc + 8, park := .ready, since := none })
  .jump ((d.emptied i.core i.entry).settle i.core i.place)

/-! Issue -/

/-- The fault of an instruction: the block faults at it (R134). -/
def IC.raise (i : IC) (d : Device) (f : FaultArgs) : Device := d.blockFault i.core i.place i.x.group i.x.mask i.x.pc f

/-- What an instruction's effect makes of its entry (R113, R140). A fault with no code is the wait for a SEGMENT_WRITE (R270): the entry parks. -/
def IC.apply (i : IC) (e : Eff) : Device :=
  match e with
  | .go d => d.goTo_ i.core i.entry (i.x.pc + iwSize i.w)
  | .jump d => d
  | .retry d wait => d.modEnt i.core i.entry (fun x =>
      { x with park := .retry, since := (match x.since with
          | some w => some w
          | none => wait.map (fun (y : Nat × Nat × Nat) => (⟨d.stamp i.hoop, y.1, y.2.1, y.2.2⟩ : Wait))) })
  | .fault d f => if f.code = 0 then d.modEnt i.core i.entry (fun x => { x with park := .retry }) else i.raise d f

/-- The source lane of XLANE, the lane's own where it lies outside 0 to 31 or is inactive (Table 5-6). -/
def IC.xlaneFrom (i : IC) (l : Nat) : Nat :=
  let b := i.b_ 1 l
  let s : Int := match i.mod 10 9 with
    | 0 => b
    | 1 => (l : Int) - b
    | 2 => (l : Int) + b
    | _ => (l ^^^ b : Nat)
  if 0 ≤ s ∧ s < 32 ∧ i.x.mask.testBit s.toNat then s.toNat else l

/-- The lane of V2U: lane B, or the lowest active one where that lane is inactive (Table 5-16). DESIGN CHOICE (log entry 41): a lane number of 32 or
more names no lane, and counts as inactive; the manual gives it no meaning. -/
def IC.v2uLane (i : IC) : Nat :=
  let n := i.w.b.toNat
  if n < 32 ∧ i.x.mask.testBit n then n else ((setBits 32 i.x.mask).head?).getD 0

/-- The vector registers that an instruction reads for a lane, with the lane whose register each is: XLANE and V2U read A in another lane, and
some instructions read D (R152, R159). -/
def IC.readsFor (i : IC) (s : OpSpec) (l : Nat) : List (Nat × Nat) :=
  let a := (s.srcA i.w).regs i.w.ak.toNat i.w.a.toNat
  let rest := (s.srcB i.w).regs i.w.bk.toNat i.w.b.toNat ++ s.c.regs i.w.ck.toNat i.w.c.toNat
    ++ (if s.rd then s.d.regs i.w.d.toNat i.w.dz else [])
  a.map (fun r => (if i.op = 0x38 then i.xlaneFrom l else if i.op = 0x8F then i.v2uLane else l, r)) ++ rest.map (fun r => (l, r))

/-- The lanes in which an instruction reads a vector register that holds an uncorrectable error (R158). -/
def IC.badLanes (i : IC) (d : Device) (s : OpSpec) : List Nat :=
  let bad := (d.core i.core).badReg
  if bad.isEmpty then []
  else i.lanes.filter (fun l => (i.readsFor s l).any (fun x => bad.contains (i.place * 1024 + i.thread x.1, x.2)))

/-- The registers that an instruction reads are checked: single-bit errors are corrected and counted, an uncorrectable register is counted (R233, R236). -/
def IC.regsMet (i : IC) (d : Device) (s : OpSpec) : Device :=
  let d := if (d.core i.core).softReg.isEmpty then d
    else
      let read := fun (y : Nat × Nat) => i.lanes.any (fun l => (i.readsFor s l).any (fun x => y == (i.place * 1024 + i.thread x.1, x.2)))
      let soft := (d.core i.core).softReg.filter read
      (d.modCore i.core (fun c => { c with softReg := c.softReg.filter (fun y => !read y) })).countSat Reg.CORE_ECC_CORR i.core soft.length
  if i.badLanes d s = [] then d else d.countSat Reg.CORE_ECC_UNCORR i.core

/-- Whether a register that an instruction reads or writes awaits a load or atomic of its group (R113), or the instruction makes an access
that an acquire load of its lanes must precede (R254). -/
def IC.pending (i : IC) (s : OpSpec) : Bool :=
  let access := (0x60 ≤ i.op && i.op ≤ 0x79) || 0xC0 ≤ i.op
  i.b.loads.any (fun (x : Nat × Load) =>
    x.2.group == i.x.group && (x.2.uni || x.2.lanes &&& i.x.mask != 0)
    && ((x.2.dst.map (fun r => (if x.2.uni then s.utouch i.w else s.vtouch i.w).any (fun y => r ≤ y && y < r + x.2.regs))).getD false
        || (access && x.2.acquire && x.2.lanes &&& i.x.mask != 0)))

/-- Whether a load, atomic or SMUPD of an entry's lanes has not completed. -/
def IC.open_ (i : IC) (d : Device) : Bool :=
  i.b.loads.any (fun (x : Nat × Load) => x.2.group == i.x.group && x.2.lanes &&& i.x.mask != 0)
  || (d.core i.core).upds.any (fun (x : Nat × UpdOp) => x.2.place == some i.place && x.2.group == i.x.group && x.2.mask &&& i.x.mask != 0)

/-- Whether every earlier instruction of the entry has completed, as a precise fault asks (R134); else the entry parks until they have. -/
def IC.precise (i : IC) (d : Device) (f : FaultArgs) : Device := if i.open_ d then i.apply (.retry d none) else i.raise d f

/-- A vector register that an instruction writes is readable again (R234). -/
def IC.mended (i : IC) (s : OpSpec) (d : Device) : Device :=
  let lanes := if i.op = 0x39 then setBits 32 i.x.mask else i.lanes
  let regs := s.d.regs i.w.d.toNat i.w.dz
  d.modCore i.core (fun c => { c with badReg := c.badReg.filter (fun x =>
    !(regs.contains x.2 && lanes.any (fun l => x.1 == i.place * 1024 + i.thread l))) })

/-- What an issued instruction does: it parks on a register that a load has not written (R113), or raises the first fault of R175, or has its
effect. `illegal` says that the hoop does not have the opcode. -/
def IC.run (i : IC) (d : Device) (s : OpSpec) (illegal : Bool) (f : IC → Device → Eff) : Device :=
  if illegal then i.precise d { code := 0x01, arg2 := i.op }
  else if !s.encoded i.w then i.precise d { code := 0x02, arg2 := i.op }
  else match s.outOfRange i.w i.k.regs with
    | some r => i.precise d { code := 0x50, arg2 := r }
    | none =>
      if i.pending s then i.apply (.retry d none)
      else
        let d := i.regsMet d s
        let reg : FaultArgs := { code := 0x60, arg0 := maskOf (i.badLanes d s), arg1 := i.x.pc, arg2 := 1 }
        match f i d with
        | .fault d' g =>
          if i.open_ d then i.apply (.retry d none) else i.apply (.fault d' (if g.code = 0x60 ∧ i.badLanes d s ≠ [] then reg else g))
        | e => if i.badLanes d s ≠ [] then i.precise d reg
          else if (d.core i.core).badReg = [] then i.apply e else i.mended s (i.apply e)

/-- The context of an instruction at an entry that can issue it: the entry is in use and not parked at a wait, and its kernel runs. -/
def Device.context (d : Device) (core entry op : Nat) (w : IWord) : Option IC :=
  match d.ent? core entry, (d.core core).kernel with
  | some x, some ki =>
    (match d.block? core x.place, d.kernel? ki with
     | some b, some k =>
       if x.mask ≠ 0 ∧ (x.park = .ready ∨ x.park = .retry) then
         some { core := core, entry := entry, x := x, b := b, ki := ki, k := k, w := w, op := op, guard := guardMask b x w }
       else none
     | _, _ => none)
  | _, _ => none

/-- Issue an instruction at an entry: fetch, then its checks and effect. A command whose instruction is not the one that memory holds at the
entry's pc names nothing that the entry can issue, and does nothing (log entry 16); an opcode that no table lists is named without its fields
(`whole` false). -/
def Device.issue (d : Device) (e : Ent) (op : Nat) (w : IWord) (s : OpSpec) (f : IC → Device → Eff) (illegal : Nat → Bool := fun _ => false)
    (whole : Bool := true) : Device :=
  if !d.live then d
  else match d.context e.core e.entry op w with
    | none => d
    | some i =>
      match d.fetchCode i.core i.entry i.x i.k with
      | (d', .wait) => d'
      | (d', .fault g) => if i.open_ d then i.apply (.retry d none) else i.apply (.fault d' { g with arg0 := i.x.mask })
      | (d', .got y) =>
        if y.1 = op ∧ (whole = false ∨ y.2 = w) then
          if i.x.code = [] then i.run d' s (illegal i.hoop) f
          else IC.run { i with x := { i.x with code := [] } } (d'.modEnt i.core i.entry (fun x => { x with code := [] })) s (illegal i.hoop) f
        else d

/-- An early block holds an instruction until its release (R87): it parks without issuing. -/
def IC.held (i : IC) (d : Device) : Eff :=
  .retry d (some (6, (match i.k.inst with | some (_, n) => n | none => 0xFFFFFFFF), i.op))

/-! Shapes of effects -/

/-- An instruction that computes, in each lane whose guard is true, a result of `n` registers with its sticky flags. -/
def IC.lanewise (i : IC) (d : Device) (n : Nat) (f : Nat → Nat × Nat) : Eff :=
  let r := i.lanes.foldl (fun (a : Block × Nat) l => let v := f l; (i.setD a.1 n l v.1, a.2 ||| v.2)) (i.b, 0)
  .go ((i.put d r.1).numFlags i.hoop 0 r.2)

/-- The same, with a draw of the lane's generator where the rounding is stochastic (R149, R205). -/
def IC.rounded (i : IC) (d : Device) (n rnd : Nat) (f : Nat → Nat → Nat × Nat) : Eff :=
  let r := i.lanes.foldl (fun (a : Block × Nat) l =>
    let g := if rnd = 4 then a.1.drawFor (i.thread l) else (a.1, 0)
    let v := f l g.2
    (i.setD g.1 n l v.1, a.2 ||| v.2)) (i.b, 0)
  .go ((i.put d r.1).numFlags i.hoop 0 r.2)

/-- An instruction that writes a predicate in the lanes of a mask. -/
def IC.setPred (i : IC) (d : Device) (mask val : Nat) : Eff := .go (i.put d (i.b.setPred i.x.group i.w.d.toNat mask val))

end Sys2Proof.Machine
end

