-- ==== Sys2Proof/Machine/Flags.lean ====
section
/-! DEFINITION. Comparisons and shifts of the integer instructions (Tables 5-6, 5-7, 5-16). The sticky flags of chapter 7 are computed
with each result in Numeric and raised by `Device.numFlags`. -/

namespace Sys2Proof.Machine

/-- The integer comparison of a code (Table 5-7), on `w` bits. -/
def icmp (code w : Nat) (sgn : Bool) (a b : Nat) : Bool :=
  let x : Int := if sgn then signed w a else a
  let y : Int := if sgn then signed w b else b
  match code with
  | 0 => x == y
  | 1 => x != y
  | 2 => x < y
  | 3 => x ≤ y
  | 4 => y < x
  | _ => y ≤ x

/-- a and not b, on 32 bits. -/
def andn (a b : Nat) : Nat := a - (a &&& b)

/-- A left shift; 32 or more gives 0 (Table 5-6). -/
def shiftLeft (a b : Nat) : Nat := if b < 32 then a * 2 ^ b else 0

/-- A right shift that fills zeros or sign bits; 32 or more gives all fill bits (Table 5-6). -/
def shiftRight (sgn : Bool) (a b : Nat) : Nat :=
  if sgn then unsigned 32 (signed 32 a / 2 ^ Nat.min b 32) else if b < 32 then a / 2 ^ b else 0

end Sys2Proof.Machine
end

