-- ==== Sys2Proof/Machine/IxAlu.lean ====
section
/-! DEFINITION. Ixfen arithmetic, logic, convert, lane and special-function instructions (R152 to R155, Tables 5-5 to 5-10). -/

namespace Sys2Proof.Machine

/-- The effect of an Ixfen instruction on the state. -/
def ixfen (e : Ent) (op : Nat) (w : IWord) (sp : OpSpec) (f : IC → Device → Eff) (s : State) : Host.Outcome State Fault Refusal :=
  s.done (s.dev.issue e op w sp f)

/-- The registers of a value of a type. -/
def typeRegs (t : Nat) : Nat := if t = 11 ∨ t = 12 then 2 else 1

/-- Whether the MOD bits that are 1 lie in a mask. -/
def modIn (w : IWord) (mask : Nat) : Bool := w.mod.toNat &&& (4095 - mask) == 0
def rndOf (w : IWord) : Nat := bits w.mod.toNat 6 4
def typeOf (w : IWord) : Nat := bits w.mod.toNat 3 0

/-! Forms -/

/-- a, b (and c) in vector or uniform registers, B or the immediate, D a vector: the shape of Tables 5-5 and 5-6. -/
def aluSpec (w : IWord) (types : List Nat) (mask : Nat) (c : SK := .none) (ok : Bool := true) : OpSpec :=
  let n := typeRegs (typeOf w)
  { d := .v n, a := .vu n, b := .vu n, c := c, imm := .b, ok := types.contains (typeOf w) && modIn w mask && ok }

/-- One source. -/
def unSpec (w : IWord) (types : List Nat) (mask : Nat) : OpSpec :=
  let n := typeRegs (typeOf w)
  { d := .v n, a := .vu n, ok := types.contains (typeOf w) && modIn w mask }

/-- A float operation: TYPE, RND, and the signs of a and b. -/
def fpSpec (w : IWord) (third : Bool) : OpSpec :=
  let n := typeRegs (typeOf w)
  aluSpec w [0, 12] 0xF7F (if third then .vu n else .none) (rndOf w ≤ 4)

/-- An integer operation. -/
def intSpec (w : IWord) (types : List Nat) (third : Bool := false) : OpSpec := aluSpec w types 0x10F (if third then .vu 1 else .none)

/-- The float format of TYPE. -/
def IC.fmt (i : IC) : Fmt := if i.mod 3 0 = 12 then fp64 else fp32
def IC.n (i : IC) : Nat := typeRegs (i.mod 3 0)

/-- A float encoding with its magnitude taken and its sign inverted (R152). -/
def Fmt.adjust (f : Fmt) (abs neg : Bool) (v : Nat) : Nat :=
  let s := 2 ^ (f.eb + f.mb)
  let v := if abs then v % s else v
  if neg then (v + s) % (2 * s) else v
def IC.fa (i : IC) (l : Nat) : Nat := i.fmt.adjust (i.flag 10) (i.flag 8) (i.a i.n l)
def IC.fb (i : IC) (l : Nat) : Nat := i.fmt.adjust (i.flag 11) (i.flag 9) (i.b_ i.n l)

/-- An exact float result rounded and delivered (R197, R203). -/
def IC.float (i : IC) (d : Device) (f : Nat → FVal × Nat) : Eff :=
  i.rounded d i.n (i.mod 6 4) (fun l g =>
    let v := f l
    let r := i.fmt.deliver (i.mod 6 4) false g v.1
    (r.1, r.2 ||| v.2))

/-- An integer result of each lane's a and b. -/
def IC.int2 (i : IC) (d : Device) (f : Nat → Nat → Nat) : Eff := i.lanewise d i.n (fun l => (f (i.a i.n l) (i.b_ i.n l), 0))

/-- A 32-bit value as signed, or as unsigned under UNS. -/
def IC.num (i : IC) (v : Nat) : Int := if i.flag 8 then (v : Int) else signed 32 v

/-- FADD (0x00). -/
def execFadd (e : Ent) (w : IWord) : State → Host.Outcome State Fault Refusal :=
  ixfen e 0x00 w (fpSpec w false) (fun i d => i.float d (fun l => (i.fmt.decode (i.fa l)).add (i.mod 6 4) (i.fmt.decode (i.fb l))))
/-- FSUB (0x01). -/
def execFsub (e : Ent) (w : IWord) : State → Host.Outcome State Fault Refusal :=
  ixfen e 0x01 w (fpSpec w false) (fun i d => i.float d (fun l => (i.fmt.decode (i.fa l)).add (i.mod 6 4) (i.fmt.decode (i.fb l)).neg))
/-- FMUL (0x02). -/
def execFmul (e : Ent) (w : IWord) : State → Host.Outcome State Fault Refusal :=
  ixfen e 0x02 w (fpSpec w false) (fun i d => i.float d (fun l => (i.fmt.decode (i.fa l)).mul (i.fmt.decode (i.fb l))))
/-- FMA (0x03). -/
def execFma (e : Ent) (w : IWord) : State → Host.Outcome State Fault Refusal :=
  ixfen e 0x03 w (fpSpec w true) (fun i d => i.float d (fun l =>
    (i.fmt.decode (i.fa l)).fma (i.mod 6 4) (i.fmt.decode (i.fb l)) (i.fmt.decode (i.c i.n l))))
/-- FMIN (0x04). -/
def execFmin (e : Ent) (w : IWord) : State → Host.Outcome State Fault Refusal :=
  ixfen e 0x04 w (aluSpec w [0, 12] 0xF0F) (fun i d => i.lanewise d i.n (fun l => (fminmax false i.fmt (i.fa l) (i.fb l), 0)))
/-- FMAX (0x05). -/
def execFmax (e : Ent) (w : IWord) : State → Host.Outcome State Fault Refusal :=
  ixfen e 0x05 w (aluSpec w [0, 12] 0xF0F) (fun i d => i.lanewise d i.n (fun l => (fminmax true i.fmt (i.fa l) (i.fb l), 0)))
/-- IADD (0x08). -/
def execIadd (e : Ent) (w : IWord) : State → Host.Outcome State Fault Refusal :=
  ixfen e 0x08 w (intSpec w [10, 11]) (fun i d => i.int2 d (fun a b => a + b))
/-- ISUB (0x09). -/
def execIsub (e : Ent) (w : IWord) : State → Host.Outcome State Fault Refusal :=
  ixfen e 0x09 w (intSpec w [10, 11]) (fun i d => i.int2 d (fun a b => a + 2 ^ (32 * i.n) - b))
/-- IMUL (0x0A). -/
def execImul (e : Ent) (w : IWord) : State → Host.Outcome State Fault Refusal :=
  ixfen e 0x0A w (intSpec w [10]) (fun i d => i.int2 d (fun a b => a * b))
/-- IMULHI (0x0B). -/
def execImulhi (e : Ent) (w : IWord) : State → Host.Outcome State Fault Refusal :=
  ixfen e 0x0B w (intSpec w [10]) (fun i d => i.int2 d (fun a b => unsigned 64 (i.num a * i.num b) / 2 ^ 32))
/-- IMAD (0x0C). -/
def execImad (e : Ent) (w : IWord) : State → Host.Outcome State Fault Refusal :=
  ixfen e 0x0C w (intSpec w [10] true) (fun i d => i.lanewise d 1 (fun l => (i.a 1 l * i.b_ 1 l + i.c 1 l, 0)))
/-- AND (0x20). -/
def execAnd (e : Ent) (w : IWord) : State → Host.Outcome State Fault Refusal :=
  ixfen e 0x20 w (intSpec w [10]) (fun i d => i.int2 d (fun a b => a &&& b))
/-- OR (0x21). -/
def execOr (e : Ent) (w : IWord) : State → Host.Outcome State Fault Refusal :=
  ixfen e 0x21 w (intSpec w [10]) (fun i d => i.int2 d (fun a b => a ||| b))
/-- XOR (0x22). -/
def execXor (e : Ent) (w : IWord) : State → Host.Outcome State Fault Refusal :=
  ixfen e 0x22 w (intSpec w [10]) (fun i d => i.int2 d (fun a b => a ^^^ b))
/-- ANDN (0x23). -/
def execAndn (e : Ent) (w : IWord) : State → Host.Outcome State Fault Refusal :=
  ixfen e 0x23 w (intSpec w [10]) (fun i d => i.int2 d (fun a b => andn a b))
/-- SHL (0x24). -/
def execShl (e : Ent) (w : IWord) : State → Host.Outcome State Fault Refusal :=
  ixfen e 0x24 w (intSpec w [10]) (fun i d => i.int2 d shiftLeft)
/-- SHR (0x25). -/
def execShr (e : Ent) (w : IWord) : State → Host.Outcome State Fault Refusal :=
  ixfen e 0x25 w (intSpec w [10]) (fun i d => i.int2 d (fun a b => shiftRight (!i.flag 8) a b))
/-- POPC (0x26). -/
def execPopc (e : Ent) (w : IWord) : State → Host.Outcome State Fault Refusal :=
  ixfen e 0x26 w (unSpec w [10] 0x10F) (fun i d => i.lanewise d 1 (fun l => (popcount 32 (i.a 1 l), 0)))
/-- CLZ (0x27). -/
def execClz (e : Ent) (w : IWord) : State → Host.Outcome State Fault Refusal :=
  ixfen e 0x27 w (unSpec w [10] 0x10F) (fun i d => i.lanewise d 1 (fun l => (if i.a 1 l = 0 then 32 else 31 - Nat.log2 (i.a 1 l), 0)))
/-- BREV (0x28). -/
def execBrev (e : Ent) (w : IWord) : State → Host.Outcome State Fault Refusal :=
  ixfen e 0x28 w (unSpec w [10] 0x10F) (fun i d => i.lanewise d 1 (fun l => (revBits 32 (i.a 1 l), 0)))
/-- IMIN (0x29). -/
def execImin (e : Ent) (w : IWord) : State → Host.Outcome State Fault Refusal :=
  ixfen e 0x29 w (intSpec w [10]) (fun i d => i.int2 d (fun a b => if i.num b < i.num a then b else a))
/-- IMAX (0x2A). -/
def execImax (e : Ent) (w : IWord) : State → Host.Outcome State Fault Refusal :=
  ixfen e 0x2A w (intSpec w [10]) (fun i d => i.int2 d (fun a b => if i.num a < i.num b then b else a))
/-- SEL (0x2B). -/
def execSel (e : Ent) (w : IWord) : State → Host.Outcome State Fault Refusal :=
  ixfen e 0x2B w (aluSpec w [10, 11] 0x10F .p) (fun i d =>
    i.lanewise d i.n (fun l => (if (i.b.pred i.x.group i.w.c.toNat).testBit l then i.a i.n l else i.b_ i.n l, 0)))
/-- MOV (0x2C). -/
def execMov (e : Ent) (w : IWord) : State → Host.Outcome State Fault Refusal :=
  ixfen e 0x2C w { unSpec w [10, 11] 0x10F with imm := .a } (fun i d =>
    i.lanewise d i.n (fun l => (if i.w.imm then i.w.immw.toNat else i.a i.n l, 0)))

/-- SETP (0x2D). -/
def execSetp (e : Ent) (w : IWord) : State → Host.Outcome State Fault Refusal :=
  let t := typeOf w
  let n := typeRegs t
  let int := t == 10 || t == 11
  ixfen e 0x2D w { d := .p, a := .vu n, b := .vu n, c := .p, imm := .b,
                   ok := [0, 10, 11, 12].contains t && (if int then modIn w 0xF0F && bits w.mod.toNat 11 9 < 6 else modIn w 0x70F) }
    (fun i d =>
      let yes := fun l =>
        if int then icmp (i.mod 11 9) (32 * n) (!i.flag 8) (i.a n l) (i.b_ n l)
        else fcmp (i.mod 10 8) (i.fmt.decode (i.a n l)) (i.fmt.decode (i.b_ n l))
      i.setPred d i.guard (maskOf (i.lanes.filter yes) &&& i.b.pred i.x.group i.w.c.toNat))

/-- Elements of a type that fit a register; a pair type counts as having one (R152). -/
def positions (t : Nat) : Nat := if slotBits t = 0 then 0 else Nat.max 1 (32 / slotBits t)
/-- The class of a type for R152: 0 float, 1 integer, 2 E8M0. -/
def typeClass (t : Nat) : Nat := if (intBits t).isSome then 1 else if t = 13 then 2 else 0
/-- Whether CVT converts one type to another (R152). -/
def convertible (src dst : Nat) : Bool :=
  src < 14 && dst < 14 && !(src == 13 && dst == 13)
  && !(typeClass src == typeClass dst && typeClass src != 2 && elemBits src == elemBits dst)
/-- Element `k` of a register value, and a value with it replaced (R148). -/
def elemIn (t k v : Nat) : Nat := v / 2 ^ (slotBits t * k) % 2 ^ slotBits t
def putElem (t k old v : Nat) : Nat := old - elemIn t k old * 2 ^ (slotBits t * k) + v % 2 ^ slotBits t * 2 ^ (slotBits t * k)

/-- The vector destination of a lane before it is written. -/
def IC.oldD (i : IC) (n l : Nat) : Nat := if i.w.dz then 0 else i.b.vregs (i.thread l) i.w.d.toNat n

/-- CVT (0x30): it reads D where its element is not all of D. -/
def execCvt (e : Ent) (w : IWord) : State → Host.Outcome State Fault Refusal :=
  let t := typeOf w
  let src := bits w.mod.toNat 11 8
  let c := w.c.toNat
  ixfen e 0x30 w { d := .v (typeRegs t), a := .vu (typeRegs src), c := .num, rd := 1 < positions t,
                   ok := convertible src t && rndOf w ≤ 4 && c < 64 && c % 8 < positions src && c / 8 < positions t }
    (fun i d => i.rounded d (typeRegs t) (i.mod 6 4) (fun l g =>
      let r := convert src t (i.mod 6 4) (i.flag 7) g (elemIn src (c % 8) (i.a (typeRegs src) l))
      (putElem t (c / 8) (i.oldD (typeRegs t) l) r.1, r.2)))
/-- CVTS (0x31). -/
def execCvts (e : Ent) (w : IWord) : State → Host.Outcome State Fault Refusal :=
  let t := typeOf w
  let c := w.c.toNat
  ixfen e 0x31 w { d := .v 1, a := .vu 1, b := .vu 1, c := .num, imm := .b, rd := true,
                   ok := 3 ≤ t && t ≤ 7 && modIn w 0x0FF && rndOf w ≤ 4 && c < 64 && c % 8 == 0 && c / 8 < positions t }
    (fun i d => i.rounded d 1 (i.mod 6 4) (fun l g =>
      let r := convertScaled t (i.mod 6 4) (i.flag 7) g (i.a 1 l) (i.b_ 1 l)
      (putElem t (c / 8) (i.oldD 1 l) r.1, r.2)))

/-- XLANE (0x38). -/
def execXlane (e : Ent) (w : IWord) : State → Host.Outcome State Fault Refusal :=
  ixfen e 0x38 w (aluSpec w [10] 0x60F) (fun i d => i.lanewise d 1 (fun l => (i.a 1 (i.xlaneFrom l), 0)))
/-- LVOTE (0x39). -/
def execLvote (e : Ent) (w : IWord) : State → Host.Outcome State Fault Refusal :=
  let m := bits w.mod.toNat 1 0
  ixfen e 0x39 w { d := if m = 2 then .v 1 else .p, a := .p, ok := m < 3 && modIn w 3 } (fun i d =>
    let yes := i.guard &&& i.b.pred i.x.group i.w.a.toNat
    if m = 2 then .go (i.put d ((setBits 32 i.x.mask).foldl (fun b l => i.setD b 1 l yes) i.b))
    else
      let v : Bool := if m = 0 then yes == i.guard else yes != 0
      i.setPred d i.x.mask (if v then 2 ^ 32 - 1 else 0))

/-- The system value of a selector in a lane (Table 5-8). -/
def IC.sysValue (i : IC) (d : Device) (l : Nat) : Nat :=
  let t := i.thread l
  let ic := Tab.get 0 d.clock.ic i.die / 3000
  match i.mod 4 0 with
  | 0 => t % i.k.bx
  | 1 => t / i.k.bx % i.k.byy
  | 2 => t / (i.k.bx * i.k.byy)
  | 3 => t
  | 4 => l
  | 5 => i.x.group
  | 6 => i.x.mask
  | 7 => i.b.x
  | 8 => i.b.y
  | 9 => i.b.z
  | 10 => i.k.gx
  | 11 => i.k.gy
  | 12 => i.k.gz
  | 13 => i.core
  | 14 => d.ownChip
  | 15 => i.hoop
  | 16 => ic % 2 ^ 32
  | 17 => ic / 2 ^ 32
  | 18 => Nat.min (d.clock.now - d.clock.tickAt) (2 ^ 32 - 1)
  | _ => d.rd Reg.HOOP_TICKS_TICKS i.hoop % 2 ^ 32
/-- RDSYS (0x3A). -/
def execRdsys (e : Ent) (w : IWord) : State → Host.Outcome State Fault Refusal :=
  ixfen e 0x3A w { d := .v 1, ok := bits w.mod.toNat 4 0 < 20 && modIn w 0x1F } (fun i d => i.lanewise d 1 (fun l => (i.sysValue d l, 0)))

/-- A special function (Table 5-9): TYPE, RND and SAT are 0, NEGA and ABSA apply. -/
def special (e : Ent) (w : IWord) (fn : Nat) : State → Host.Outcome State Fault Refusal :=
  ixfen e (0x50 + fn) w { d := .v 1, a := .vu 1, ok := modIn w 0x500 } (fun i d => i.lanewise d 1 (fun l => sfu fn (i.fa l)))
/-- RCP (0x50). -/
def execRcp (e : Ent) (w : IWord) : State → Host.Outcome State Fault Refusal := special e w 0
/-- RSQ (0x51). -/
def execRsq (e : Ent) (w : IWord) : State → Host.Outcome State Fault Refusal := special e w 1
/-- SQRT (0x52). -/
def execSqrt (e : Ent) (w : IWord) : State → Host.Outcome State Fault Refusal := special e w 2
/-- EXP2 (0x53). -/
def execExp2 (e : Ent) (w : IWord) : State → Host.Outcome State Fault Refusal := special e w 3
/-- LOG2 (0x54). -/
def execLog2 (e : Ent) (w : IWord) : State → Host.Outcome State Fault Refusal := special e w 4
/-- SINPI (0x55). -/
def execSinpi (e : Ent) (w : IWord) : State → Host.Outcome State Fault Refusal := special e w 5
/-- COSPI (0x56). -/
def execCospi (e : Ent) (w : IWord) : State → Host.Outcome State Fault Refusal := special e w 6
/-- TANH (0x57). -/
def execTanh (e : Ent) (w : IWord) : State → Host.Outcome State Fault Refusal := special e w 7

end Sys2Proof.Machine
end

