-- ==== Sys2Proof/Machine/MemOps.lean ====
section
/-! DEFINITION. The path of a core's memory accesses: addresses, checks, watchpoints, loads, stores, atomics, remote requests, release
and acquire (R150, R151, R156 to R160, R252, R254, R311, R352, R443). -/

namespace Sys2Proof.Machine

/-! What a lane names -/

/-- Access width in bytes (WIDTH), and the registers of it. -/
def widthOf (w : IWord) : Nat := 2 ^ bits w.mod.toNat 2 0
def widthRegs (n : Nat) : Nat := Nat.max 1 (n / 4)
def IC.order (i : IC) : Nat := i.mod 5 4
def IC.scope (i : IC) : Nat := i.mod 8 6

/-- A lane's address of `r` registers: base A, plus index C, plus the immediate (R156). -/
def IC.address (i : IC) (r l n : Nat) (scaled : Bool) : Nat :=
  unsigned (32 * r) ((i.a r l : Int) + signed 32 (i.c 1 l) * (if scaled then n else 1 : Nat) + (if i.w.imm then i.w.immw.toNat else 0 : Nat))

/-- A lane's access to memory: lane, hoop virtual address, descriptor slot, and where it lies. -/
structure LaneAcc where
  lane : Nat
  va : Nat
  slot : Nat
  loc : Loc
  deriving DecidableEq, Repr

/-- The fault of lanes that meet conditions: the first in the order of R175, with its lanes and the lowest one's arguments. -/
def firstFault (l : List (Nat × FaultArgs)) : Option FaultArgs :=
  (minOf (l.map (fun x => x.2.code))).bind (fun c =>
    let hit := l.filter (fun x => x.2.code == c)
    (hit.head?).map (fun x => { x.2 with arg0 := maskOf (hit.map (·.1)) }))

/-- The lanes whose address is not a multiple of the width. -/
def misaligned (l : List (Nat × Nat)) (n : Nat) : List (Nat × FaultArgs) :=
  (l.filter (fun x => x.2 % n != 0)).map (fun x => (x.1, { code := 0x10, arg1 := x.2 }))

/-- Translate lanes' hoop virtual addresses (R260 to R263): the accesses, and the lanes that fault. -/
def IC.translate (i : IC) (d : Device) (n : Nat) (need : List Nat) (l : List (Nat × Nat)) :
    Device × List LaneAcc × List (Nat × FaultArgs) :=
  l.foldl (fun (m : Device × List LaneAcc × List (Nat × FaultArgs)) x =>
    let r := m.1.xlate i.core i.hoop i.k.map x.2 n need false
    match r.2 with
    | .ok p => (r.1, m.2.1 ++ [⟨x.1, x.2, d.slotOf i.hoop i.k.map (bits x.2 47 44), p⟩], m.2.2)
    | .error e => (r.1, m.2.1, m.2.2 ++ [(x.1, { code := e.code, arg1 := x.2, arg2 := e.arg2 })])) (d, [], [])

/-- Resolve lanes' session accesses (R310, R311): lane, session, token, offset. Lanes of one block of a session share one list read (R312). -/
def IC.resolveTokens (i : IC) (d : Device) (n : Nat) (write : Bool) (l : List (Nat × Nat × Int × Nat)) :
    Device × List LaneAcc × List (Nat × FaultArgs) :=
  (l.foldl (fun (m : (Device × List LaneAcc × List (Nat × FaultArgs)) × List (Nat × Nat)) x =>
    let (lane, si, tok, off) := x
    let d := m.1.1.sessMet i.hoop si
    let s := d.sess si
    let bad := fun (f : FaultArgs) => ((d, m.1.2.1, m.1.2.2 ++ [(lane, f)]), m.2)
    let top : Nat := if write then Nat.min (Nat.min (s.blocks * s.tpb) (s.committed + 4096)) s.maxlen else s.prov
    if !d.sessIn i.hoop si then bad { code := 0x18, arg1 := si }
    else if s.state = 3 then bad { code := 0x60, arg1 := si, arg2 := 2 }
    else if s.state ≠ 1 then bad { code := 0x18, arg1 := si }
    else if s.record < off + n ∨ tok < 0 ∨ (top : Int) ≤ tok then bad { code := 0x19, arg1 := unsigned 32 tok }
    else
      let t := tok.toNat
      let pool := d.rd Reg.HOOP_KVPOOL_HBM_SEG i.hoop
      let read := (si, t / s.tpb)
      let list := if m.2.contains read then d else match (d.hbmPool i.hoop).place (s.blist + 8 * (t / s.tpb)) with
        | .dev a => d.cohRead i.die i.hoop a 8 true
        | .host _ => d
      let ends := fun (d : Device) (f : FaultArgs) => ((d, m.1.2.1, m.1.2.2 ++ [(lane, f)]), m.2 ++ [read])
      match d.tokenAt s t off with
      | none => ends list { code := 0x60, arg1 := d.vaOf i.hoop pool (s.blist + 8 * (t / s.tpb)) }
      | some (cxl, o, _) =>
        let slot := if cxl then d.rd Reg.HOOP_KVPOOL_CXL_SEG i.hoop else pool
        let va := d.vaOf i.hoop slot o
        if !list.buffered i.core (i.hoop * 32 + slot) && list.tableBad i.hoop slot then
          ends list { code := 0x60, arg1 := va }
        else
          let d' := list.touch i.core (i.hoop * 32 + slot)
          match d'.checkSeg i.hoop slot o n [if write then 4 else 3] false true with
          | .ok g => ((d', m.1.2.1 ++ [⟨lane, va, slot, g.place o⟩], m.1.2.2), m.2 ++ [read])
          | .error e => ends d' { code := e.code, arg1 := va, arg2 := e.arg2 }) ((d, [], []), [])).1

/-! Waits -/

/-- What has come for the instruction, and what failed. -/
def IC.got (i : IC) : List (Nat × Nat × Bytes) := match i.x.await with
  | some a => a.got
  | none => []
def IC.failed (i : IC) : List (Nat × Nat × Nat) := match i.x.await with
  | some a => a.bad
  | none => []
def IC.isResumed (i : IC) : Bool := i.x.await.isSome

/-- Park an entry until answers come (R113). -/
def IC.await (i : IC) (d : Device) (due : List (Nat × Nat)) : Eff :=
  .jump (d.modEnt i.core i.entry (fun x =>
    { x with park := .data, await := some { op := i.op, w := i.w, due := due, got := i.got, bad := i.failed } }))

/-- The bytes of a structure that came for a lane number. -/
def IC.came (i : IC) (l a n : Nat) : Option Bytes :=
  (i.got.find? (fun x => (x.1 == l || x.1 == 33) && x.2.1 ≤ a && a + n ≤ x.2.1 + x.2.2.length)).map
    (fun x => slice x.2.2 (a - x.2.1) n)

/-- A release waits as Table 9-8 says before its instruction acts: at every scope for the lanes' loads, atomics and SMUPDs (R329); stores of
this model are performed at once, so that host scope waits for a zero-length read besides and remote scope also for the answers of the block's
GSTs, whose first refusal it raises (R254, R276). DESIGN CHOICE (log entry 41): ARG0 of that refusal is the guard of the releasing instruction; R276 fixes ARG1
only. -/
def IC.release (i : IC) (d : Device) (k : Device → Eff) : Eff :=
  if !(i.order = 2 ∨ i.order = 3) then k d
  else if i.open_ d then .retry d none
  else if i.scope < 5 then k d
  else
    let refused := if i.scope = 6 then i.b.gstFail else none
    match refused with
    | some (c, a, a2) => .fault d { code := c, arg0 := i.guard, arg1 := a, arg2 := a2 }
    | none =>
      if i.scope = 6 ∧ i.b.gstOut ≠ [] then .retry d none
      else match i.failed.find? (fun x => x.1 == 32) with
        | some x => .fault d { code := x.2.2, arg0 := i.guard }
        | none =>
          if i.got.any (fun x => x.1 == 32) then k d
          else if !d.mayMaster (d.ownerFn i.hoop) then .fault d { code := 0x60, arg0 := i.guard }
          else i.await (d.openRead { kind := 3, a := i.core, b := i.entry, c := 32, fn := d.ownerFn i.hoop, addr := 0 } 0) [(32, d.fresh)]

/-- An acquire at die scope or wider invalidates the L1 (R226, R254). -/
def IC.acquire (i : IC) (d : Device) : Device :=
  if (i.order = 1 ∨ i.order = 3) ∧ 3 ≤ i.scope then d.dropL1 i.core else d

/-- Match the watchpoints of the hoop against an instruction's lanes, (lane, address), once it does not park (R443 to R445). A STOP hit raises WATCH_STOP in
place of the effect, unless the instruction raises another fault than DATA_UNCORRECTABLE. DESIGN CHOICE (log entry 41): an instruction that raises such
another fault records no hit. -/
def IC.watched (i : IC) (d : Device) (kind n : Nat) (l : List (Nat × Nat)) (k : Device → Eff) : Eff :=
  let hits := d.watchMatch i.hoop 0 kind (l.map (fun x => (x.2, n)))
  if hits = [] ∨ i.isResumed then k d
  else
    let note := fun (d : Device) => d.watchNote i.hoop kind (d.groupWaiter i.core i.x) hits
    let ends := fun (e : Eff) => match d.watchStop i.hoop hits with
      | none => e
      | some j =>
        let mine := l.filter (fun x => (d.watchMatch i.hoop 0 kind [(x.2, n)]).any (fun y => y.1 == j))
        .fault (note d) { code := 0x52, arg0 := maskOf (mine.map (·.1)), arg1 := ((mine.head?).map (·.2)).getD 0, arg2 := j }
    match k d with
    | .go d => ends (.go (note d))
    | .jump d => ends (.jump (note d))
    | .retry d w => .retry d w
    | .fault d f => if f.code = 0x60 then ends (.fault (note d) f) else .fault d f

/-- Whether bytes that a lane accesses (lane, address, bytes, whether it writes) overlap those of an open load, atomic or SMUPD of it, where one of the two
writes: the later access waits, so that they take effect in program order (R151, R329). -/
def IC.collides (i : IC) (d : Device) (l : List (Nat × Nat × Nat × Bool)) : Bool :=
  i.b.loads.any (fun (x : Nat × Load) => x.2.group == i.x.group
    && x.2.due.any (fun y => l.any (fun z => z.1 == y.1 && (z.2.2.2 || x.2.writes) && overlap y.2.1 x.2.n z.2.1 z.2.2.1)))
  || (d.core i.core).upds.any (fun (x : Nat × UpdOp) => x.2.place == some i.place && x.2.group == i.x.group
    && (updAccesses (parseUpd x.2.desc) x.2.idx).any (fun y => l.any (fun z =>
      z.1 == y.1 && (z.2.2.2 || y.2.2.2 == 4) && overlap y.2.1 y.2.2.1 z.2.1 z.2.2.1)))

/-- The checks of a checked access in order, then what it does. A lane whose table line is uncorrectable has an address that the watchpoints match (R445);
one of a session that names no pool address yet has none. -/
def IC.checked (i : IC) (kind n : Nat) (r : Device × List LaneAcc × List (Nat × FaultArgs)) (k : Device → List LaneAcc → Eff)
    (session : Bool := false) : Eff :=
  let l := r.2.1.map (fun x => (x.lane, x.va))
  match firstFault r.2.2 with
  | some f =>
    if f.code ≠ 0x60 then .fault r.1 f
    else i.watched r.1 kind n (if session then l else l ++ r.2.2.map (fun x => (x.1, x.2.arg1))) (fun d => .fault d f)
  | none =>
    if i.collides r.1 (l.map (fun x => (x.1, x.2, n, kind != 0))) then .retry r.1 none else i.watched r.1 kind n l (fun d => k d r.2.1)

/-- The checks of a global access: alignment, then translation (R156, R175). -/
def IC.global (i : IC) (d : Device) (kind n : Nat) (need : List Nat) (scaled : Bool) (k : Device → List LaneAcc → Eff) : Eff :=
  let l := i.lanes.map (fun l => (l, i.address 2 l n scaled))
  match firstFault (misaligned l n) with
  | some f => .fault d f
  | none => i.checked kind n (i.translate d n need l) k

/-! Loads, stores and atomics -/

def LaneAcc.dev (x : LaneAcc) : Option Nat := match x.loc with
  | .dev a => some a
  | .host _ => none
def LaneAcc.host (x : LaneAcc) : Option Nat := match x.loc with
  | .host a => some a
  | .dev _ => none

/-- Open the reads of host-tier lanes that have no answer yet, or perform `k`; without a path to the host they fail (R267, R390). -/
def IC.withHost (i : IC) (d : Device) (l : List LaneAcc) (open_ : Device → LaneAcc → Nat → Device) (k : Device → Eff) : Eff :=
  let due := l.filterMap (fun x => x.host.bind (fun a =>
    let mine := fun (l b : Nat) => l == x.lane && b == a
    if i.got.any (fun y => mine y.1 y.2.1) || i.failed.any (fun y => mine y.1 y.2.1) then none else some (x, a)))
  if due = [] then
    match firstFault (l.filterMap (fun x => (i.failed.find? (fun y => y.1 == x.lane && x.host == some y.2.1)).map (fun y => (x.lane, ({ code := y.2.2, arg1 := x.va } : FaultArgs))))) with
    | some f => .fault d f
    | none => k d
  else if !d.mayMaster (d.ownerFn i.hoop) then
    match firstFault (due.map (fun y => (y.1.lane, ({ code := 0x60, arg1 := y.1.va } : FaultArgs)))) with
    | some f => .fault d f
    | none => k d
  else
    let r := due.foldl (fun (m : Device × List (Nat × Nat)) y => (open_ m.1 y.1 y.2, m.2 ++ [(y.1.lane, m.1.fresh)])) (d, [])
    i.await r.1 r.2

/-- The line after a device line that a demand miss prefetches: of the same segment and within its limit, with R (R225, R263). -/
def Device.nextLine (d : Device) (h slot line : Nat) : Option Nat :=
  let s := d.seg h slot
  if s.perm.testBit 3 && (s.offsetOf (line * 128 + 128)).isSome then some (line + 1) else none

/-- Read the device bytes of lanes by the L1, each line looked up once (R221): lane and bytes, or the lanes that meet an uncorrectable
error. -/
def IC.readLanes (i : IC) (d : Device) (n cache : Nat) (l : List LaneAcc) : Device × List (Nat × Bytes) × List (Nat × FaultArgs) :=
  let dev := l.filterMap (fun x => x.dev.map (fun a => (x, a)))
  let lines := ((dev.map (fun y => (y.2 / 128, y.1.slot))).eraseDups).foldl (fun (m : Device × List (Nat × Option Bytes)) z =>
    if m.2.any (fun y => y.1 == z.1) then m
    else
      let r := m.1.l1Read i.core i.hoop z.1 cache true (d.nextLine i.hoop z.2 z.1)
      (r.1, m.2 ++ [(z.1, r.2)])) (d, [])
  let one := fun (a : Nat) => match (lines.2.find? (fun y => y.1 == a / 128)).bind (·.2) with
    | some b => some (slice b (a % 128) n)
    | none => lines.1.readDev a n
  (lines.1, dev.filterMap (fun y => (one y.2).map (fun b => (y.1.lane, b))),
    dev.filterMap (fun y => if (one y.2).isNone then some (y.1.lane, { code := 0x60, arg1 := y.1.va }) else none))

/-- A value as a load writes it: narrow ones extended to 32 bits (R156). -/
def extend (n : Nat) (sgn : Bool) (b : Bytes) : Nat := if sgn ∧ n < 4 then unsigned 32 (signed (8 * n) (ofLe b)) else ofLe b

/-! Loads and atomics that wait for data -/

/-- The block with the values of a load in its destination. -/
def Block.loaded (b : Block) (x : Load) : Block :=
  match x.dst with
  | none => b
  | some r => x.got.foldl (fun b y =>
      let v := extend x.n x.sgn y.2
      if x.uni then b.setUs x.group r v x.regs else b.setVs (32 * x.group + y.1) r v x.regs) b

/-- The fault of a load: the first of R175 among its failed lanes; that of a load for the whole entry names every lane of it. -/
def Load.failure (x : Load) : Option FaultArgs :=
  (firstFault (sortBy (fun a b => decide (a.1 ≤ b.1)) (x.bad.map (fun y => (y.1, ({ code := y.2.2, arg1 := y.2.1 } : FaultArgs)))))).map (fun f =>
    if x.uni then { f with arg0 := x.lanes } else f)

/-- A load all of whose data have come writes its registers and, if it acquires at die scope or wider, invalidates the L1 (R226, R254). -/
def Device.loadWrites (d : Device) (core p : Nat) (x : Load) : Device :=
  let d := d.modBlock core p (fun b => b.loaded x)
  if x.drop then d.dropL1 core else d

/-- A load that was open has all its data. -/
def Device.loadDone (d : Device) (core p n : Nat) (x : Load) : Device :=
  (d.modBlock core p (fun b => { b with loads := Tab.erase b.loads n })).loadWrites core p x

/-- The first load that has failed whole and before which every load of its lanes has completed (R134). -/
def Block.failed (b : Block) : Option (Load × FaultArgs) :=
  b.loads.findSome? (fun (y : Nat × Load) =>
    if y.2.due ≠ [] then none
    else if b.loads.any (fun (z : Nat × Load) => z.1 < y.1 && z.2.group == y.2.group && z.2.mask &&& y.2.mask != 0) then none
    else y.2.failure.map (fun f => (y.2, f)))

/-- An answer comes for a load or atomic of a block: bytes, or the fault code of a failure; with the last one the load ends (R113, R267, R276).
What comes after the block's end is discarded (R136). -/
def Device.loadAnswer (d : Device) (core p n tag : Nat) (come : Except Nat Bytes) : Device :=
  match (d.block? core p).bind (fun (b : Block) => Tab.find? b.loads n) with
  | none => d
  | some x =>
    let mine := x.due.filter (fun y => y.2.2.1 == tag)
    let x := { x with due := x.due.filter (fun y => y.2.2.1 != tag) }
    let x := match come with
      | .ok b => { x with got := x.got ++ mine.map (fun y => (y.1, slice b y.2.2.2 x.n)) }
      | .error c => { x with bad := x.bad ++ mine.map (fun y => (y.1, y.2.1, c)) }
    let d := if x.due = [] ∧ x.bad = [] then d.loadDone core p n x
      else d.modBlock core p (fun b => { b with loads := Tab.insert b.loads n x })
    match (d.block? core p).bind Block.failed with
    | some (y, f) => d.blockFault core p y.group y.mask y.pc f
    | none => d

/-- A load or atomic of the instruction for its lanes. -/
def IC.loadOf (i : IC) (uni writes : Bool) (regs n : Nat) : Load :=
  { pc := i.x.pc, group := i.x.group, mask := i.x.mask, lanes := i.guard, dst := if i.w.dz then none else some i.w.d.toNat, uni := uni,
    regs := regs, n := n, sgn := !writes && i.flag 3, acquire := i.order = 1 ∨ i.order = 3,
    drop := (i.order = 1 ∨ i.order = 3) ∧ 3 ≤ i.scope, writes := writes }

/-- Open a PCIe request for each host lane, by `open_`, for the load with the next number: the (lane, address, tag, 0) that are due. -/
def IC.askHost (i : IC) (d : Device) (l : List LaneAcc) (open_ : Device → HRead → LaneAcc → Device) : Device × List (Nat × Nat × Nat × Nat) :=
  let n := d.fresh
  let r := l.foldl (fun (m : Device × List (Nat × Nat × Nat × Nat)) x => match x.host with
    | some a =>
      (open_ m.1 { kind := 9, a := i.core, b := i.place, c := n, fn := d.ownerFn i.hoop, addr := a } x, m.2 ++ [(x.lane, x.va, m.1.fresh, 0)])
    | none => m) (d.step1, [])
  r

/-- The host lanes of an access fail without a path to the host (R267, R390). -/
def IC.noHost (i : IC) (d : Device) (l : List LaneAcc) : List (Nat × FaultArgs) :=
  if d.mayMaster (d.ownerFn i.hoop) then []
  else (l.filter (fun x => x.host.isSome)).map (fun x => (x.lane, { code := 0x60, arg1 := x.va }))

/-- Keep a load under the number that its requests name, or end it at once (R113). -/
def IC.keep (i : IC) (d : Device) (n : Nat) (x : Load) : Eff :=
  if x.due = [] then
    match x.failure with
    | some f => .fault d f
    | none => .go (d.loadWrites i.core i.place x)
  else .go (d.modBlock i.core i.place (fun b => { b with loads := Tab.insert b.loads n x }))

/-- A load: device lanes by the L1, host lanes by PCIe reads, for which the entry does not wait (R113, R156, R267). `uni` says that D is uniform. -/
def IC.load (i : IC) (d : Device) (n : Nat) (l : List LaneAcc) (uni : Bool := false) : Eff :=
  match firstFault (i.noHost d l) with
  | some f => .fault d f
  | none =>
    let r := i.readLanes d n (i.mod 11 10) l
    let h := i.askHost r.1 l (fun d q _ => (d.openRead q n).loadSample i.core i.hoop)
    i.keep (if h.2 = [] then r.1 else h.1) r.1.fresh
      { i.loadOf uni false (widthRegs n) n with got := r.2.1, due := h.2, bad := r.2.2.map (fun y => (y.1, y.2.arg1, y.2.code)) }

/-- Store bytes at device addresses, whole runs of a line at a time, the L1 with them (R157, R226). -/
def Device.storeRuns (d : Device) (k h : Nat) (t : Tab Byte) (allocate : Bool) : Device :=
  (byteRuns t).foldl (fun d (r : Nat × Bytes) =>
    (linePieces r.1 r.2.length).foldl (fun d (p : Nat × Nat) =>
      let part := slice r.2 (p.1 - r.1) p.2
      (d.l1Store k p.1 part).agentWrite (coreDie k) h p.1 part allocate) d) d

/-- A store: device lanes in lane order, the highest-numbered standing; host lanes as posted writes (R157, R267). -/
def IC.store (i : IC) (d : Device) (n : Nat) (l : List LaneAcc) : Eff :=
  let data := fun (x : LaneAcc) => le n (i.bReg (widthRegs n) x.lane)
  let t := l.foldl (fun (t : Tab Byte) x => match x.loc with
    | .dev a => ((data x).mapIdx (fun j b => (a + j, b))).foldl (fun t (y : Nat × Byte) => Tab.insert t y.1 y.2) t
    | .host _ => t) []
  let d := d.storeRuns i.core i.hoop t true
  .go (l.foldl (fun d x => match x.loc with
    | .host a => (d.hostWriteBy i.die (d.ownerFn i.hoop) a (data x)).cnt i.hoop 8 n
    | .dev _ => d) d)

def IC.aop (i : IC) : Nat := i.mod 3 0
/-- Registers and bytes of an atomic's word (W64). -/
def IC.aw (i : IC) : Nat := if i.flag 9 then 2 else 1
def IC.newWord (i : IC) (l old : Nat) : Nat :=
  atomicNew i.aop (32 * i.aw) (i.flag 10) old (i.bReg i.aw l) (if i.w.dz then 0 else i.b.vregs (i.thread l) i.w.d.toNat i.aw)

/-- Put the prior values in D. -/
def IC.prior (i : IC) (d : Device) (l : List (Nat × Nat)) : Eff :=
  i.keep d d.fresh { i.loadOf false true i.aw (4 * i.aw) with got := l.map (fun y => (y.1, le (4 * i.aw) y.2)) }

/-- An atomic of global memory (R159, R160): at the home in lane order, as it issues, at the host by PCIe. -/
def IC.atomic (i : IC) (d : Device) (l : List LaneAcc) : Eff :=
  let n := 4 * i.aw
  let odd := l.filter (fun x => x.host.isSome && !(i.aop == 0 || i.aop == 6 || i.aop == 7))
  match firstFault (odd.map (fun x => (x.lane, ({ code := 0x20, arg1 := x.va } : FaultArgs)))) with
  | some f => .fault d f
  | none =>
    let bad := l.filter (fun x => (x.dev.map (fun a => d.badAt a n)).getD false)
    match firstFault (sortBy (fun a b => decide (a.1 ≤ b.1))
        (bad.map (fun x => (x.lane, ({ code := 0x60, arg1 := x.va } : FaultArgs))) ++ i.noHost d l)) with
    | some f => .fault (bad.foldl (fun d x => (x.dev.map (fun a => d.pinRange a n)).getD d) d) f
    | none =>
      let r := l.foldl (fun (m : Device × List (Nat × Bytes)) x => match x.loc with
        | .dev a =>
          let old := m.1.mem.read a n
          let d := ((m.1.modCore i.core (fun c => c.l1Drop (a / 128))).cohAtomic i.die i.hoop a n).writeDev a (le n (i.newWord x.lane (ofLe old)))
          (d, m.2 ++ [(x.lane, old)])
        | .host _ => m) (d, [])
      let h := i.askHost r.1 l (fun d q x =>
        let d := d.ringAdd (ringPath i.die 4) (16 + n)
        d.openAtomic q n i.aop (i.flag 9) (i.bReg i.aw x.lane) (if i.w.dz then 0 else i.b.vregs (i.thread x.lane) i.w.d.toNat i.aw))
      i.keep (if h.2 = [] then r.1 else h.1) r.1.fresh { i.loadOf false true i.aw n with got := r.2, due := h.2 }

/-! Remote accesses -/

/-- The checks at the source of lanes' global pointers (Table 10-8, 1 to 3). -/
def IC.remoteFaults (i : IC) (d : Device) (l : List (Nat × Nat)) : List (Nat × FaultArgs) :=
  l.filterMap (fun x => (d.remoteCheck i.hoop (gpChip x.2) true).map (fun c => (x.1, { code := c, arg1 := x.2 })))

/-- The checks of a remote access, then what it does; a line with an unanswered write or atomic makes it wait (R352). -/
def IC.remote (i : IC) (d : Device) (n : Nat) (scaled writes : Bool) (k : Device → List (Nat × Nat) → Eff) : Eff :=
  let l := i.lanes.map (fun l => (l, i.address 2 l n scaled))
  match firstFault (misaligned l n) with
  | some f => .fault d f
  | none =>
    let d := if l = [] then d else d.reshaped i.hoop i.k.queue
    match firstFault (i.remoteFaults d l) with
    | some f => .fault d f
    | none =>
      if l.any (fun x => d.remoteBusy i.core (gpChip x.2) (gpWin x.2) (gpOff x.2) n) || i.collides d (l.map (fun x => (x.1, x.2, n, writes))) then .retry d none else k d l

/-- Open remote requests of a load or atomic, each for some lanes from a pointer up: (first pointer, its lanes), the packet's type and data; the
(lane, pointer, tag, place) that are due. One that no port serves fails as REMOTE_REFUSED. -/
def IC.ask (i : IC) (d : Device) (x : Load) (l : List (Nat × List (Nat × Nat) × Bytes)) (ptype : Nat) : Eff :=
  let n := d.fresh
  let r := l.foldl (fun (m : Device × Load) (z : Nat × List (Nat × Nat) × Bytes) =>
    let (p, mine, data) := z
    let q : Remote := { kind := 0, a := i.core, b := i.place, c := n, hoop := i.hoop, chip := gpChip p, win := gpWin p, off := gpOff p,
                        writes := x.writes, pkt := m.1.dataPkt i.hoop ptype (gpChip p) (gpWin p) (gpOff p) data }
    match m.1.openRemote q with
    | some d' => (d', { m.2 with due := m.2.due ++ mine.map (fun y => (y.1, y.2, m.1.klz.nextTag, y.2 - p)) })
    | none => (m.1, { m.2 with bad := m.2.bad ++ mine.map (fun y => (y.1, y.2, 0x15)) })) (d.step1, x)
  i.keep r.1 n r.2

/-- The 128-byte lines of lanes' pointers: first pointer, bytes and lanes of each (R352). -/
def lineSpans (l : List (Nat × Nat)) (n : Nat) : List (Nat × Nat × List (Nat × Nat)) :=
  ((l.map (fun x => x.2 / 128)).eraseDups).map (fun line =>
    let mine := l.filter (fun x => x.2 / 128 == line)
    let lo := (minOf (mine.map (·.2))).getD 0
    (lo, (mine.map (·.2)).foldl Nat.max lo + n - lo, mine))

/-- The 24 bytes of an ATOM packet (Table 14-11). -/
def atomData (aop : Nat) (w64 uns : Bool) (b c : Nat) : Bytes :=
  le 1 (aop + 16 * b2n w64 + 32 * b2n uns) ++ le 7 0 ++ be 8 b ++ be 8 c

end Sys2Proof.Machine
end

