-- ==== Sys2Proof/Machine/BootOps.lean ====
section
/-! DEFINITION. Resets, start-up, the image and its checks, identity (chapters 19 and 20, R414). -/

namespace Sys2Proof.Machine

/-- Whether the control cores or the starter answer: the rails are up, PERST_N is deasserted, the clocks run. -/
def Device.awake (d : Device) : Bool := d.life.powered && d.life.rails && !d.life.stopped && d.pins.perstN

def Device.stage (d : Device) : Nat := d.rd Reg.BOOT_STATUS_STAGE
def Device.setBoot (d : Device) (b : Boot) : Device := { d with boot := b }

/-! The PCIe link -/

/-- The widths and rates of Table 15-1, the rates in tenths of GT/s. -/
def pcieWidths : List Nat := [16, 8, 4, 2, 1]
def pcieRates : List Nat := [640, 320, 160, 80, 50, 25]

/-- The PCIe link trains (R378, R394); `crs`: configuration requests complete with Request Retry Status. -/
def Device.linkUp (d : Device) (crs : Bool) : Device :=
  { d with pcie := { d.pcie with up := true, crs := crs, lanes := pcieWidths.getD (Config.pcieWidth d.clock.now).val 0,
                                 rate := pcieRates.getD (Config.pcieRate d.clock.now).val 0 } }

/-- Whether memory requests of the host can reach a function's BARs. -/
def Device.hostOpen (d : Device) (fn : Nat) : Bool :=
  d.awake && d.pcie.up && !d.pcie.crs && d.fnExists fn && !d.life.rindDead

/-- Whether a function is being reset, so that memory requests to it complete with Unsupported Request (R391). -/
def Device.inReset (d : Device) (fn : Nat) : Bool := d.pcie.flr.testBit fn || (fn != 0 && d.pcie.flr.testBit 0)

/-- A configuration request to a function: Request Retry Status during start-up and while the function is being reset (R391, R394), else its
effect. -/
def Device.cfgReq (d : Device) (fn : Nat) (f : Device → Device) : Device :=
  if !(d.awake && d.pcie.up && d.fnExists fn && !d.life.rindDead) then d
  else if d.pcie.crs || d.inReset fn then d.emit (.completion fn .rrs [])
  else f d

/-- The keys of the fields that a warm reset and PERST_N keep (R250, R414, R455, R456, R470). -/
def keptKeys : List Nat :=
  [Reg.COH_FATAL_VALID.key 0] ++ [Reg.COH_FATAL_CAUSE.key 0] ++ [Reg.COH_FATAL_REPORTER.key 0] ++ [Reg.COH_FATAL_SUSPECT.key 0]
    ++ [Reg.COH_FATAL_SLICE.key 0] ++ [Reg.COH_FATAL_TIME_US.key 0] ++ [Reg.COH_FATAL_ADDR_LINE.key 0] ++ [Reg.FATAL_RECORD_RECORD.key 0]
    ++ [Reg.POWER_MEAS_CAP_W.key 0] ++ [Reg.POWER_STATUS_MODE.key 0] ++ [Reg.POWER_STATUS_OP_MAX.key 0]
    ++ [Reg.POWER_STATUS_AGEING_LIMIT.key 0]

/-- The levels at the strap pins change; that alone has no effect (R344). -/
def Device.setLevels (d : Device) (s : Straps) : Device := { d with pins := { d.pins with levels := s } }

/-- The straps take effect: KLZ_ID, and this module's own route entry (R344, R375). -/
def Device.sampleStraps (d : Device) (s : Straps) : Device :=
  let d := { d with pins := { d.pins with straps := s } }
  let d := (d.wr Reg.KLZ_ID_SLOT 0 s.slot.toNat).wr Reg.KLZ_ID_BOARD 0 s.board.toNat
  let d := (d.wr Reg.KLZ_ID_MGR_EN 0 (b2n s.mgrEn)).wr Reg.KLZ_ID_CHIP 0 (s.board.toNat * 8 + s.slot.toNat)
  d.wr Reg.KLZ_RT_PRIMARY (s.board.toNat * 8 + s.slot.toNat) 8

/-- The registers whose value depends on the part (R31, R418). -/
def Device.partRegs (d : Device) : Device :=
  if d.ms then (d.wr Reg.HOOP_MEMQ_HBM_QUOTA 0 864).wr Reg.ERRQ_BASE_ADDR 0 (reserveAddr true) else d

/-- What a warm reset and PERST_N leave (R414, R425, R471): the part, the pins, the kept fields, the local timer; memory is
undefined, everything else starts anew. -/
def Device.reset (d : Device) (s : Straps) : Device :=
  let r : Device :=
    { ms := d.ms
      regs := d.regs.filter (fun x => keptKeys.contains x.1)
      mem := Memory.undefinedSince d.fresh, fresh := d.fresh + 1
      out := d.out
      life := { powered := d.life.powered, rails := d.life.rails, stopped := d.life.stopped, age := d.life.age, short := d.life.short, failed := d.life.failed }
      clock := { now := d.clock.now, tickAt := d.clock.now }
      pins := { d.pins with alert := false, alertAt := none }
      boot := { startAt := d.clock.now, pulse := d.boot.pulse } }
  (r.sampleStraps s).partRegs

/-- Start-up begins (R471). -/
def Device.beginStartup (d : Device) (s : Straps) : Device :=
  let r := (d.reset s).linkUp true
  r.setBoot { r.boot with starting := true }

/-! The image -/

def imgKeyIndex (b : Bytes) : Nat := fieldLe b 6 1
def imgSvn (b : Bytes) : Nat := fieldLe b 8 4
def imgBodyLen (b : Bytes) : Nat := fieldLe b 12 4
def imgSigned (b : Bytes) : Bytes := slice b 0 256

/-- The image checks of Table 19-3 in order: 0 when all pass, else CAUSE (R477). -/
def imageCause (f : Fuses) (b : Bytes) : Nat :=
  let i := imgKeyIndex b
  let key := slice b 72 96
  let lms := slice b 168 56
  if !(fieldLe b 0 4 == 0x54484657 && fieldLe b 4 2 == 1 && fieldLe b 7 1 < 16 && zeroAt b 224 32 && zeroAt b 3020 1076
      && imgSvn b ≤ 128 && 1 ≤ imgBodyLen b && imgBodyLen b ≤ 58716160 && b.length == 4096 + imgBodyLen b) then 1
  else if i > 3 || f.revoked.testBit i || (Config.sha384 key).toNat != (f.ecdsaDigests.drop i).headD 0
      || (Config.sha384 lms).toNat != (f.lmsDigests.drop i).headD 0 then 2
  else if !Config.ecdsaVerify key (slice b 256 96) (Config.sha384 (imgSigned b)) then 3
  else if !Config.lmsVerify lms (slice b 352 2668) (imgSigned b) then 4
  else if imgSvn b < f.rollback then 5
  else if (Config.sha384 (b.drop 4096)).toNat != fieldLe b 24 48 then 6
  else 0

/-- A digest as the 48 bytes a little-endian field holds. -/
def digestBytes (v : BitVec 384) : Bytes := le 48 v.toNat

/-- Measurements 1 to 3 (Table 19-4): starter ROM, signed part, BODY_DIGEST. -/
def Device.measured (d : Device) : Bytes :=
  digestBytes Config.starterDigest ++ digestBytes (Config.sha384 (imgSigned d.boot.header)) ++ slice d.boot.header 24 48

/-- The certificate chain of slot 0 (R481): its length, two reserved bytes, the digest of the root and the certificates. The layout is
PRESUMED; log entry 34. -/
def Device.chain (d : Device) : Bytes :=
  let c := d.boot.certs.flatten
  le 2 (52 + c.length) ++ le 2 0 ++ digestBytes (Config.sha384 (d.boot.certs.headD [])) ++ c

/-- A signature of the key engine (R481): by the alias key, before the firmware runs by the device key. -/
def KeyEngine.sign (e : KeyEngine) (m : Bytes) : Bytes :=
  match e.alias_, e.device with
  | some k, _ => Config.ecdsaSign k m
  | none, some k => Config.ecdsaSign k m
  | none, none => []

/-- The starter reads the secret and derives the device key; the chain ends at the device certificate of the OTP (R481). -/
def Device.deriveDevice (d : Device) (nv : NonVol) : Device :=
  let k := Config.kdf nv.fuses.secret []
  let body := nv.flash.image.drop 4096
  d.setBoot { d.boot with engine := { secret := some nv.fuses.secret, device := some k, devicePub := Config.publicKey k }
                          certs := [Config.carried false body, Config.carried true body, nv.otp] }

/-- The alias key is derived from the secret and the digest of measurements 1 to 3 and certified by the device key; the device private key and the
secret leave the key engine before the firmware runs (R481). -/
def Device.deriveAlias (d : Device) : Device :=
  match d.boot.engine.secret, d.boot.engine.device with
  | some x, some k =>
    let a := Config.kdf x (digestBytes (Config.sha384 d.measured))
    let pub := Config.publicKey a
    d.setBoot { d.boot with engine := { d.boot.engine with secret := none, device := none, alias_ := some a, aliasPub := pub }
                            certs := d.boot.certs ++ [Config.certify k pub] }
  | _, _ => d

/-- CAUSE and DETAIL of start-up or of a check. -/
def Device.setCause (d : Device) (cause detail : Nat) : Device :=
  let d := (d.wr Reg.BOOT_STATUS_CAUSE 0 cause).wr Reg.BOOT_STATUS_DETAIL 0 detail
  d.setBoot { d.boot with lastCause := cause + 256 * detail }

/-- Start-up ends in a stage (R472 to R474, R479). -/
def Device.endStartup (d : Device) (stage : Nat) : Device :=
  let d := (d.wr Reg.BOOT_STATUS_STAGE 0 stage).wr Reg.BOOT_STATUS_BOOT_MS 0 ((d.clock.now - d.boot.startAt) / 1000000)
  let d := d.setBoot { d.boot with starting := false }
  { d with pcie := { d.pcie with crs := false } }

/-- A byte of the 64 MiB flash (R475): the image area, 56 MiB from 0; the presets, 1 MiB from 0x380_0000, in 64 places of 16,384 bytes by slot and port
(DESIGN CHOICE; log entry 11); the rest, and what nothing has programmed, erased. -/
def Flash.byte (x : Flash) (a : Nat) : Byte :=
  if a < 0x3800000 then x.image.getD a 0xFF
  else if a < 0x3900000 then (Tab.get [] x.presets ((a - 0x3800000) / 16384)).getD (a % 16384) 0xFF
  else 0xFF

/-- The fuse maps of cores and presses in the repair-status registers (R17, R193, R236). -/
def Device.loadRepair (d : Device) (f : Fuses) : Device :=
  let d := f.off.foldl (fun d x =>
    let phys := (List.range 66).filter (fun k => k != x.2.1 && k != x.2.2)
    let d := (d.wr Reg.DIE_REPAIR_OFF0 x.1 x.2.1).wr Reg.DIE_REPAIR_OFF1 x.1 x.2.2
    (List.range 64).foldl (fun d c => d.wr Reg.CORE_REPAIR_PHYS (64 * x.1 + c) (phys.getD c 0)) d) d
  let used := fun (a b : Nat) => b2n (a != 0xFF) + b2n (b != 0xFF)
  f.spare.foldl (fun d x =>
    let d := (d.wr Reg.CORE_REPAIR_ROW_OUT0 x.1 x.2.row0).wr Reg.CORE_REPAIR_ROW_OUT1 x.1 x.2.row1
    let d := (d.wr Reg.CORE_REPAIR_COL_OUT0 x.1 x.2.col0).wr Reg.CORE_REPAIR_COL_OUT1 x.1 x.2.col1
    (d.wr Reg.CORE_REPAIR_ROW_SPARES x.1 (used x.2.row0 x.2.row1)).wr Reg.CORE_REPAIR_COL_SPARES x.1 (used x.2.col0 x.2.col1)) d

/-- The firmware takes the equaliser presets of this module's slot from the flash (R23, R485). -/
def Device.loadPresets (d : Device) (x : Flash) : Device :=
  let slot := d.rd Reg.KLZ_ID_SLOT
  d.setKlz { d.klz with presets := (List.range 8).foldl (fun t p => Tab.put [] t p (Tab.get [] x.presets (8 * slot + p))) [] }

/-- READY (R472, R473, Table 19-7): the alias key is certified, memory is 0, the replacement generators are seeded, the module has its role, every
Klozar port trains from its preset, the operating point is OP8. -/
def Device.becomeReady (d : Device) (f : Fuses) (flash : Flash) : Device :=
  let d := { d with mem := Memory.zeroed
                    cores := (List.range 256).map (fun k => (k, { gen := l1Seed (Tab.get 0 f.serials (k / 64)) (k % 64) : Core })) }
  let d := (d.setBoot { d.boot with header := slice flash.image 0 4096 }).deriveAlias.setHstat 0 d.newHstat
  let mgr := d.pins.straps.mgrEn
  let d := d.wr Reg.KLZ_ID_ROLE 0 (if mgr then 2 else 1)
  let d := if mgr then d.setKlz { d.klz with boardUp := some d.ownChip, faultMap := [(d.rd Reg.KLZ_ID_SLOT, List.replicate 8 1)] } else d
  let d := (List.range 8).foldl (fun d p => (d.presetEq p).wr Reg.KLZ_PORT_STATUS_STATE p 1) (d.loadPresets flash)
  let d := d.wr Reg.POWER_STATUS_POINT 0 8
  let d := d.setPower { goal := 8 }
  let d := d.wr Reg.POWER_STATUS_CEILING 0 (d.rd Reg.POWER_STATUS_OP_MAX)
  d.endStartup 4

/-- An hour in ns. -/
def hourNs : Nat := 3600000000000

/-- Powered time passes: the hours since the last counter bit (R468, R470). -/
def Device.ageOne (d : Device) : Device :=
  let d := { d with life := { d.life with age := d.life.age + 1 } }
  if d.life.age % hourNs = 0 then (List.range 5).foldl (fun d r => d.wr Reg.AGEING_HOURS r (d.rd Reg.AGEING_HOURS r + 1)) d else d

/-- The AGEING registers as the fuses give them (R468, R470). -/
def Device.loadAgeing (d : Device) (f : Fuses) : Device :=
  let d := (List.range 5).foldl (fun d r =>
    let t := (f.trim.drop r).headD 0
    let d := d.wr Reg.AGEING_BASELINE_MV r ((f.baseline.drop r).headD 0)
    let d := d.wr Reg.AGEING_HOURS r (200 * f.hours + d.life.age / hourNs)
    (d.wr Reg.AGEING_TRIM_MV r t).wr Reg.AGEING_LIMIT r (b2n (t ≥ 48))) d
  d.wr Reg.POWER_STATUS_AGEING_LIMIT 0 (b2n (f.trim.any (· ≥ 48)))

/-- Whether a fault of start-up is one of Table 19-3, with its DETAIL in range. -/
def bootFault (c detail : Nat) : Bool :=
  (c == 0x10 && detail < 24) || (c == 0x11 && detail == 0) || (c == 0x12 && detail < 4) || (c == 0x13 && detail == 0)
    || (c == 0x14 && detail < 5) || (c == 0x15 && detail == 0)

/-- Start-up ends in FAILED (R474). -/
def Device.failStartup (d : Device) (x : Nat × Nat) : Device :=
  { (d.setCause x.1 x.2).endStartup 6 with life := { d.life with failed := some x } }

/-- Start-up runs in the order of Table 19-1: FAILED on a fault that shows before the image is read (0x13 to 0x15), RECOVERY when a check of the image
fails, FAILED on a fault that shows after it (0x10 to 0x12), else READY. A fault that has ended a start-up in FAILED shows again until the power is
cycled: from FAILED the module never reaches READY (R474; DEDUCED, log entry 11). -/
def Device.startup (d : Device) (nv : NonVol) (fault : Option (Nat × Nat)) : Device :=
  let d := ((d.loadAgeing nv.fuses).loadRepair nv.fuses).deriveDevice nv
  let fault := match d.life.failed with | some x => some x | none => fault
  let c := imageCause nv.fuses nv.flash.image
  match fault with
  | some x => if 0x13 ≤ x.1 ∨ c = 0 then d.failStartup x else (d.setCause c 0).endStartup 5
  | none => if c = 0 then d.becomeReady nv.fuses nv.flash else (d.setCause c 0).endStartup 5

end Sys2Proof.Machine
end

