-- ==== Sys2Proof/Machine/Boot.lean ====
section
/-! DEFINITION. The commands of power-up, reset, start-up and recovery (chapters 19 and 20). -/

namespace Sys2Proof.Machine

/-- POWER_ON: the input reaches 40 V; standby comes up and the straps are sampled; every register takes its power-on value
(R12, R344, R492). In a module that is on the straps change, which has no effect until the next sample. -/
def execPowerOn (straps : Straps) (s : State) : Host.Outcome State Fault Refusal :=
  let d := s.dev.setLevels straps
  s.done (if d.life.powered then d else
    let r : Device := { ms := d.ms, out := d.out, fresh := d.fresh, life := { powered := true, stopped := true },
                        pins := { perstN := d.pins.perstN, flowOk := d.pins.flowOk, levels := straps } }
    (r.sampleStraps straps).partRegs)

/-- FLOW_OK_RISE: after 10 ms the rails are switched on; with PERST_N already deasserted start-up begins (R467, R492). -/
def execFlowOkRise (s : State) : Host.Outcome State Fault Refusal :=
  let d := { s.dev with pins := { s.dev.pins with flowOk := true } }
  s.done (if d.life.powered && !d.life.rails && !d.pins.thermtrip then
    let d := { d with life := { d.life with rails := true, stopped := false } }
    if d.pins.perstN then d.beginStartup d.pins.levels else d
  else d)

/-- PERST_N_DEASSERT: the straps are sampled, and start-up begins, once the rails are up (R344, R471, R492). With PERST_N
deasserted already the straps change, which has no effect until the next sample (R344). -/
def execPerstNDeassert (straps : Straps) (s : State) : Host.Outcome State Fault Refusal :=
  let d := s.dev.setLevels straps
  s.done (if d.pins.perstN then d else
    let d := { d with pins := { d.pins with perstN := true } }
    if d.life.powered && d.life.rails && !d.life.stopped then d.beginStartup straps else d)

/-- PERST_N_ASSERT: the module is reset (R414, R471); with the rails off it ends ALERT_N alone, and with FLOW_OK low it has no effect (R492, R498). -/
def execPerstNAssert (s : State) : Host.Outcome State Fault Refusal :=
  let d := s.dev
  s.done (if !d.pins.perstN then d else
    let d := { d with pins := { d.pins with perstN := false } }
    if d.life.powered && d.life.rails && !d.life.stopped then d.reset d.pins.straps
    else if d.life.powered && d.pins.flowOk then { d with pins := { d.pins with alert := false, alertAt := none } } else d)

/-- STARTUP (R472 to R474, R479). -/
def execStartup (fault : Option (Nat × Nat)) (s : State) : Host.Outcome State Fault Refusal :=
  let d := s.dev
  let known : Bool := match fault with
    | none => true
    | some (c, x) => bootFault c x
  s.done (if d.awake && d.boot.starting && known then d.startup s.nv fault else d)

/-- ROLLBACK_RAISE: after READY the counter, one of 128 fuse bits (R477), and the revocation bits rise to those of the running image
(R478). -/
def execRollbackRaise (s : State) : Host.Outcome State Fault Refusal :=
  let h := s.dev.boot.header
  let f := s.nv.fuses
  if s.dev.live && !h.isEmpty then
    let rev := setBit (fieldLe h 7 1 % 16) (imgKeyIndex h) false
    .next { s with nv := { s.nv with fuses := { f with rollback := Nat.max f.rollback (Nat.min 128 (imgSvn h)), revoked := f.revoked ||| rev } } }
  else s.done s.dev

/-- BROWN_OUT: clocks stop and every switched rail goes off; no record is written, and THERMTRIP_N goes with the 48 V (R467, R491, R498). -/
def execBrownOut (s : State) : Host.Outcome State Fault Refusal :=
  let d := s.dev
  s.done (if d.life.powered then
    let d := d.railsOff
    { d with life := { d.life with powered := false }, pins := { d.pins with alert := false, alertAt := none, thermtrip := false } } else d)

/-- PWR_CYCLE_REQ_RELEASE: 200 ms after its assertion the request is released (R493). -/
def execPwrCycleReqRelease (s : State) : Host.Outcome State Fault Refusal :=
  let d := s.dev
  s.done (if d.boot.pulse then { d.setBoot { d.boot with pulse := false } with pins := { d.pins with cycleReq := false } } else d)

/-! Recovery -/

/-- The staged image of `n` bytes (R479, R480). -/
def Device.stagedImage (d : Device) (n : Nat) : Bytes := slice d.boot.staging 0 n

/-- The flash while the slot is programmed: it holds no whole image (R479). -/
def NonVol.slotOpen (nv : NonVol) : NonVol := { nv with flash := { nv.flash with image := [] } }

/-- The flash with an image programmed. -/
def NonVol.program (nv : NonVol) (image : Bytes) : NonVol := { nv with flash := { nv.flash with image := image } }

/-- The starter takes a staged image of `n` bytes: it is checked, and one that passes is programmed (R480, step 3). -/
def Device.recoveryStart (d : Device) (nv : NonVol) (n : Nat) : Device × NonVol :=
  let c := imageCause nv.fuses (d.stagedImage n)
  let d := d.wr Reg.RECOVERY_CTRL_BUSY 0 1
  (d.setBoot { d.boot with programming := some true, lastCause := c, checking := n }, if c = 0 then nv.slotOpen else nv)

/-- RECOVERY_GO (R480). -/
def execRecoveryGo (s : State) : Host.Outcome State Fault Refusal :=
  let d := s.dev
  if d.awake && d.stage == 5 && d.rd Reg.RECOVERY_CTRL_BUSY == 0 then
    let r := d.recoveryStart s.nv (d.rd Reg.RECOVERY_CTRL_LENGTH)
    .next { s with nv := r.2, dev := r.1 }
  else s.done d

/-- RECOVERY_RESET: 100 ms after RESULT 1 the starter begins a module warm reset, which samples the straps (R344, R480). -/
def execRecoveryReset (s : State) : Host.Outcome State Fault Refusal :=
  let d := s.dev
  s.done (if d.awake && d.boot.recovered then d.beginStartup d.pins.levels else d)

end Sys2Proof.Machine
end

