-- ==== Sys2Proof/Machine/EntryOps.lean ====
section
/-! DEFINITION. Queues and their slots: doorbells, the mapper, fetch, the start of an entry and its retirement (R52 to R55, R61 to R77,
R90 to R96). -/

namespace Sys2Proof.Machine

/-! Slots -/

/-- Whether all that remains of a queue is one unsatisfied FENCE_WAIT or EVENT_WAIT (R35, Table 3-7). -/
def Queue.onlyWaits (x : Queue) : Bool :=
  match x.entries with
  | [e] => e.started && e.done.isNone && (entOp e.bytes == 0x05 || entOp e.bytes == 0x08)
  | _ => false

/-- The state of a mapped slot by its condition, with the re-check of R76 where it has fetched up to its cached write pointer. The
steps of the re-check are one: IDLE_PENDING is left in the same command. -/
def Device.settleSlot (d : Device) (q : Nat) : Device :=
  match d.slotOfQueue q with
  | none => d
  | some s =>
    let x := d.queue q
    let y := d.slot s
    let none_ := x.entries.isEmpty
    if x.state ≠ 2 then d.setSlotState s (if none_ then 3 else if x.onlyWaits then 4 else 1)
    else if x.chain.isSome || y.cached != x.rptr then d.setSlotState s 1
    else
      let d := d.setQueue q { x with rung := false }
      if x.shadow ≠ y.cached then (d.setSlot s { y with cached := x.shadow }).setSlotState s 1
      else d.setSlotState s (if none_ then 3 else if x.onlyWaits then 4 else 1)

/-- Slots that a hoop holds. -/
def Device.slotsOf (d : Device) (h : Nat) : Nat :=
  (d.work.slots.filter (fun (x : Nat × Slot) => x.2.state != 0 && (d.queue x.2.queue).hoop == h)).length

/-- SLOT_MAX of a hoop: the value 128 is encoded 0 (R58). -/
def Device.slotMax (d : Device) (h : Nat) : Nat := if d.rd Reg.HOOP_CFG_SLOT_MAX h = 0 then 128 else d.rd Reg.HOOP_CFG_SLOT_MAX h

/-- The dependency state of a queue (R35): opcode, index and awaited value, or target, of its unsatisfied wait. -/
def Queue.waitOf (x : Queue) : Option (Nat × Nat × Nat) :=
  if x.onlyWaits then
    x.entries.head?.map (fun e => (entOp e.bytes, fieldLe e.bytes 8 4, if entOp e.bytes = 0x05 then fieldLe e.bytes 16 8 else e.target))
  else none

/-- The queue leaves its slot (R35): read pointer, shadow and dependency state are saved in its context. -/
def Device.unmap (d : Device) (s : Nat) : Device :=
  let q := (d.slot s).queue
  let d := d.setSlot s { state := 0, since := d.clock.now }
  d.modQueue q (fun x => { x with state := if x.state = 2 then 1 else x.state, ctx := some ⟨x.rptr, x.shadow, x.waitOf⟩ })

/-- The candidates of R75, in the order in which they are taken. -/
def Device.candidates (d : Device) : List Nat :=
  let c := (d.work.queues.filter (fun (x : Nat × Queue) => x.2.state == 1 && d.hoopState x.2.hoop == 1 && x.2.shadow != x.2.rptr
    && (d.slotOfQueue x.1).isNone && d.slotsOf x.2.hoop < d.slotMax x.2.hoop)).map (·.1)
  let c := c.filter (· > d.work.lastMapped) ++ c.filter (· ≤ d.work.lastMapped)
  let low := fun q => d.slotsOf (d.queue q).hoop < d.rd Reg.HOOP_CFG_SLOT_MIN (d.queue q).hoop
  let adm := fun q => d.maskAdmits (d.queue q).hoop (d.queue q).cls
  let rank := fun q => (if low q then 0 else 2) + (if adm q then 0 else 1)
  (List.range 4).flatMap (fun r => c.filter (fun q => rank q == r))

/-- The slot that a candidate receives (R75): a free one, else a victim. -/
def Device.slotFor (d : Device) (q : Nat) : Option Nat :=
  let h := (d.queue q).hoop
  let all := List.range 128
  match all.find? (fun s => (d.slot s).state == 0) with
  | some s => some s
  | none =>
    let of_ := fun s => (d.queue (d.slot s).queue).hoop
    let may := fun st => all.filter (fun s => (d.slot s).state == st &&
      (of_ s == h || d.slotsOf (of_ s) > d.rd Reg.HOOP_CFG_SLOT_MIN (of_ s)))
    let oldest := fun (l : List Nat) => l.foldl (fun (b : Option Nat) s => match b with
      | none => some s
      | some t => if (d.slot s).since < (d.slot t).since then some s else b) none
    let best := fun (l : List Nat) =>
      match oldest (l.filter (fun s => !d.maskAdmits (of_ s) (d.queue (d.slot s).queue).cls)) with
      | some s => some s
      | none => oldest l
    match best (may 3) with
    | some s => some s
    | none => best (may 4)

/-- Map a queue to a slot: it enters FETCH with what its context restores (R35, R75). A doorbell since then stands in the shadow that
the rind die holds for every queue (R72). -/
def Device.mapTo (d : Device) (q s : Nat) : Device :=
  let d := if (d.slot s).state = 0 then d else d.unmap s
  let d := d.setSlot s { queue := q, state := 1, cached := (d.queue q).shadow, since := d.clock.now }
  let d := d.modQueue q (fun x => { x with state := 2, rptr := match x.ctx with | some c => c.rptr | none => x.rptr, ctx := none })
  { d with work := { d.work with lastMapped := q } }

/-- Map candidates until none can be mapped; the fuel is the number of slots. -/
def Device.mapAll (d : Device) : Nat → Device
  | 0 => d
  | fuel + 1 =>
    match d.candidates.findSome? (fun q => (d.slotFor q).map (fun s => (q, s))) with
    | none => d
    | some (q, s) => Device.mapAll (d.mapTo q s) fuel

/-- A run of the mapper (R75, R76): slots whose queue has been rung return to FETCH, then candidates are mapped. -/
def Device.mapperRun (d : Device) : Device :=
  let woken := (d.work.slots.filter (fun (x : Nat × Slot) => x.2.state ≥ 3 && (d.queue x.2.queue).rung && (d.queue x.2.queue).state == 2
    && d.hoopState (d.queue x.2.queue).hoop == 1)).map (·.1)
  let d := woken.foldl (fun d s =>
    (d.setSlot s { d.slot s with cached := (d.queue (d.slot s).queue).shadow }).setSlotState s 1) d
  d.mapAll 128

/-- A write pointer reaches the shadow of a queue (R72, R172); discarded while its hoop drains or scrubs (R391). -/
def Device.ringNow (d : Device) (q value : Nat) : Device :=
  let x := d.queue q
  if x.state = 0 ∨ d.hoopState x.hoop ≥ 3 then d
  else
    let value := value % 2 ^ 32
    if ringDiff 32 value x.rptr > 2 ^ x.sizeLog2 ∨ ringDiff 32 value x.shadow ≥ 2 ^ 31 then
      d.post { code := 0x11, hoop := x.hoop, queue := q, detail := le 4 value ++ le 4 x.shadow ++ le 4 x.rptr }
    else d.setQueue q { x with shadow := value, rung := true }

/-- How long a doorbell of a queue waits behind earlier ones of the queue that a perturbation delays (Table 17-9). -/
def Device.ringBehind (d : Device) (q : Nat) : Nat :=
  d.stat.late.foldl (fun t x => match x.2 with
    | .doorbell p _ => if p = q then Nat.max t (x.1 - d.clock.now) else t
    | _ => t) 0

/-- The effect of a write pointer rung at a queue, a candidate event of DOORBELL (R72, R172, Table 17-9). -/
def Device.ring (d : Device) (q value : Nat) : Device :=
  let x := d.queue q
  if x.state = 0 ∨ d.hoopState x.hoop ≥ 3 then d
  else (d.perturb 4 x.hoop).lateOr (Nat.max (d.perturbDelay 4 x.hoop) (d.ringBehind q)) (.doorbell q value) (fun d => d.ringNow q value)

/-! Fetch -/

/-- The status that a fetched entry has from its fetch on, for its opcode, its layout and its handles, with the handles that are
not decremented (R49, R54, R63, R64, R66). -/
def Device.checkEntry (d : Device) (h : Nat) (b : Bytes) (chained : Bool) : Option Nat × List Nat :=
  let op := entOp b
  let ev := d.rd Reg.HOOP_CFG_DEP_MODEL h == 1
  let unread := (entHandles b).filter (fun x => match d.objRead h x with
    | .error e => e != 4
    | .ok _ => false)
  let flags := fieldLe b 1 1
  let status :=
    if op > 0x0C ∨ (op = 0x0C ∧ chained) ∨ ((op = 0x05 ∨ op = 0x06) ∧ ev) ∨ ((op = 0x07 ∨ op = 0x08) ∧ !ev) then some 2
    else if entNobj b > 8 || flags > 3 || fieldLe b 2 1 > 15 || !zeroAt b 3 1 || !(payloadGaps op).all (fun g => zeroAt b g.1 g.2) then some 3
    else (entHandles b).findSome? (fun x => d.objCheck h x)
  (status, unread)

/-- What the fetch of a fence or event entry does beside (R69, R70): the status and the captured target. -/
def Device.captureEntry (d : Device) (q : Nat) (e : Entry) : Device × Option Nat × Nat :=
  let h := (d.queue q).hoop
  let op := entOp e.bytes
  let i := fieldLe e.bytes 8 4
  if op = 0x05 then
    if d.rd Reg.HOOP_FENCES_FENCES h ≤ i then (d, some 3, 0)
    else
      let d := d.seenVa h (d.fenceVa h i) 8
      match d.word h (d.fenceVa h i) with
      | .error st => ((d.wordError h q e.who (d.fenceVa h i) st).failWaiters h 0x05 i st, some st, 0)
      | .ok _ => (d, none, 0)
  else if op = 0x07 then
    if d.rd Reg.HOOP_EVENTS_EVENTS h ≤ i then (d, some 3, 0)
    else match d.eventIssue h i with
      | (d, .error st) => (if st = 6 then d else d.eventBad h q e.who i st, some st, 0)
      | (d, .ok g) => (d, none, 2 ^ 31 + g)
  else if op = 0x08 then
    if d.rd Reg.HOOP_EVENTS_EVENTS h ≤ i then (d, some 3, 0)
    else
      let d := d.seenVa h (d.eventVa h i) 8
      match d.word h (d.eventVa h i) with
      | .error st => (d.eventBad h q e.who i st, some st, 0)
      | .ok w => (d, if w.testBit 63 then some 6 else none, bits w 62 32)
  else (d, none, 0)

/-- Entries of a queue beyond the one that runs, which is its first once it has started (R67). -/
def Queue.ahead (x : Queue) : Nat := match x.entries with
  | e :: t => if e.started then t.length else t.length + 1
  | [] => 0

/-- Whether a queue has room to fetch one entry more (R67, R68), and no CHAIN entry is fetched and not started (R66). -/
def Device.fetchRoom (d : Device) (x : Queue) : Bool :=
  let n := if d.rd Reg.HOOP_CFG_DEP_MODEL x.hoop = 1 then x.entries.length < 16 else x.ahead < 8
  n && !x.entries.any (fun e => entOp e.bytes == 0x0C && !e.started && !e.chained)

/-- The error record of the first of an entry's handles whose object-table entry is uncorrectable (R54, R234). -/
def Device.handleError (d : Device) (h q ptr : Nat) (l : List Nat) : Device :=
  match l.find? (fun x => d.objCheck h x == some 0xA) with
  | none => d
  | some x =>
    let va := d.objAddr h x
    let s := d.seg h (d.slotOf h (d.curMap h) (bits va 47 44))
    d.dataError h q x ptr ((d.badIn s (va % 2 ^ 44) 16).getD (d.tableAddr h))

/-- Take an entry whose bytes are at hand into a queue: check, capture, and the pointers past it. The fetch of a fence or event entry reads its
word whatever its handle check says (R69, R70). A CHAIN that can run keeps the read pointer until its run ends (R66). -/
def Device.takeEntry (d : Device) (q : Nat) (b : Bytes) (bad : Option Nat) : Device :=
  let d := (entHandles b).foldl (fun d y => d.objSeen (d.queue q).hoop y) d
  let x := d.queue q
  let ptr := match x.chain with
    | some (_, _, p) => p
    | none => x.rptr
  let e : Entry := { id := d.fresh, bytes := b, ptr := ptr, chained := x.chain.isSome, since := d.stamp x.hoop,
                     map := d.rd Reg.HOOP_FLIP_APPLIED x.hoop }
  let c := d.checkEntry x.hoop b x.chain.isSome
  let k := if bad.isNone && c.1 != some 2 then d.step1.captureEntry q e else (d.step1, none, 0)
  let status := bad.orElse (fun _ => c.1.orElse (fun _ => k.2.1))
  let k := if bad.isNone && c.1 == some 0xA then (k.1.handleError x.hoop q ptr (entHandles b), k.2) else k
  let e := { e with skip := c.2, target := k.2.2, done := status, started := status.isSome }
  let keep := entOp b == 0x0C && status.isNone
  k.1.modQueue q (fun x =>
    let x := { x with entries := x.entries ++ [e], pre := [] }
    match x.chain with
    | some (a, n, p) => if n ≤ 1 then { x with chain := none, rptr := (x.rptr + 1) % 2 ^ 32 } else { x with chain := some (a + 64, n - 1, p) }
    | none => if keep then x else { x with rptr := (x.rptr + 1) % 2 ^ 32 })

/-- Fetch the next entry of a queue (R61, R66): from the chained run, else from the ring. -/
def Device.fetchEntry (d : Device) (q : Nat) : Device :=
  let x := d.queue q
  let va := match x.chain with
    | some (a, _, _) => a
    | none => x.ring + 64 * (x.rptr % 2 ^ x.sizeLog2)
  if d.segClosed x.hoop (d.slotOf x.hoop (d.curMap x.hoop) (bits va 47 44)) then d
  else
  let d := d.seenVa x.hoop va 64
  match d.readVa x.hoop va 64 with
  | .ok b => d.takeEntry q b none
  | .error e =>
    if e ≠ hostTier then
      let s := d.seg x.hoop (d.slotOf x.hoop (d.curMap x.hoop) (bits va 47 44))
      (if e = 0xA then d.dataError x.hoop q 0xFFFFFFFF x.rptr ((d.badIn s (va % 2 ^ 44) 64).getD (d.tableAddr x.hoop))
        else d).takeEntry q (List.replicate 64 0) (some e)
    else match x.pre.find? (fun y => y.1 == va) with
      | some y => d.takeEntry q (slice y.2 0 64) (if y.2.length < 64 then some 0xA else none)
      | none =>
        let fn := d.ownerFn x.hoop
        if d.flow.reads.any (fun (r : Nat × HRead) => r.2.kind == 6 && r.2.a == q) then d
        else if !d.mayMaster fn then d.takeEntry q (List.replicate 64 0) (some 0xA)
        else
          let s := d.seg x.hoop (d.slotOf x.hoop (d.curMap x.hoop) (bits va 47 44))
          d.openRead { kind := 6, a := q, b := va, c := 0, fn := fn, addr := s.base + va % 2 ^ 44 } 64

/-- A slot fetches (R43, R67, R68, R76): its hoop is ACTIVE, the gate admits its class, and it has room. -/
def Device.slotFetch (d : Device) (s : Nat) : Device :=
  let y := d.slot s
  let q := y.queue
  let x := d.queue q
  if y.state ≠ 1 ∨ x.state ≠ 2 ∨ x.stopFetch ∨ d.hoopState x.hoop ≠ 1 ∨ d.admits x.hoop x.cls = false ∨ d.fetchRoom x = false then d
  else if x.chain.isNone ∧ x.rptr = y.cached then d.settleSlot q
  else (d.fetchEntry q).settleSlot q

/-! Start -/

/-- The entry that a queue starts next (R67, R68): the first not started, once those before it allow it. -/
def Device.nextStart (d : Device) (q : Nat) : Option Entry :=
  let x := d.queue q
  let st := d.hoopState x.hoop
  let before := x.entries.takeWhile (fun e => e.started)
  if !d.live || x.state == 0 || x.state == 4 || (st != 1 && st != 2) then none
  else
    let free := if d.rd Reg.HOOP_CFG_DEP_MODEL x.hoop = 1 then before.all (fun e => !(entOp e.bytes == 0x08 && e.done.isNone)) else before.isEmpty
    if free then (x.entries.drop before.length).head? else none

/-- The entry that a command starts: the next of its queue, with the command's opcode. -/
def Device.startable (d : Device) (q op : Nat) : Option Entry :=
  (d.nextStart q).bind (fun e => if entOp e.bytes = op then some e else none)

/-- An entry starts: it is bound to the segment map in force (R337). -/
def Device.begin_ (d : Device) (q id : Nat) : Device :=
  d.modQueue q (fun x => { x with entries := x.entries.map (fun e =>
    if e.id = id then { e with started := true, begun := d.clock.now, map := d.rd Reg.HOOP_FLIP_APPLIED x.hoop } else e) })

/-- An entry that could not start yet stays as fetched. -/
def Device.unbegin (d : Device) (q id : Nat) : Device :=
  d.modQueue q (fun x => { x with entries := x.entries.map (fun e => if e.id = id ∧ e.done = none then { e with started := false } else e) })

/-- Start an entry and end it with a status at once. -/
def Device.beginEnd (d : Device) (q : Nat) (e : Entry) (status : Nat) (result : Nat := 0) : Device := (d.begin_ q e.id).finish q e.id status result

/-- Start an entry by an operation that answers true, a status, or false while the entry must wait unstarted. -/
def Device.beginBy (d : Device) (q : Nat) (e : Entry) (f : Device → Device × Except Nat Bool) (failed : Device → Device) : Device :=
  let r := f (d.begin_ q e.id)
  match r.2 with
  | .ok true => r.1
  | .ok false => r.1.unbegin q e.id
  | .error st => (failed r.1).finish q e.id st

/-! Retirement -/

/-- Whether a retirement may begin in a queue: fewer than 256 releases of its hoop are held, and no COMPLETION_LOST record of it waits (R55,
R422). -/
def Device.mayBegin (d : Device) (x : Queue) : Bool := (d.hx x.hoop).held.length < 256 && x.lost.isEmpty

/-- Whether an entry of a queue, at a place in it, can retire now (R55, R67, R68, R422). -/
def Device.mayRetire (d : Device) (x : Queue) (i : Nat) (e : Entry) : Bool :=
  e.done.isSome && (i == 0 || (d.rd Reg.HOOP_CFG_DEP_MODEL x.hoop == 1 && entOp e.bytes != 0x07)) && d.mayBegin x

/-- An entry retires (R52 to R55, R70, R71, R90), with its latency sample (Table 17-4). -/
def Device.retireEntry (d : Device) (q i : Nat) : Device :=
  let x := d.queue q
  match x.entries[i]? with
  | none => d
  | some e =>
    if !d.mayRetire x i e then d
    else
      let d := d.retire q e (e.done.getD 0)
      ((d.cnt x.hoop 14).sample x.hoop 0 (d.clock.now - e.since.now)).settleSlot q

/-! Protected slots -/

/-- A window descriptor (Table 10-7); permission bits keep their bit numbers. -/
structure Win where
  valid : Bool
  perm : Nat
  seg : Nat
  base : Nat
  limit : Nat
  deriving DecidableEq, Repr

def parseWin (b : Bytes) : Win :=
  let f := fieldLe b 0 2
  { valid := f.testBit 0, perm := f % 64 / 8 * 8, seg := fieldLe b 2 1 % 16, base := fieldLe b 8 8, limit := fieldLe b 16 8 }

def Device.win (d : Device) (h i : Nat) : Win := parseWin (d.winBytes h i)

/-- Whether a valid window exposes a descriptor slot. -/
def Device.exposed (d : Device) (h slot : Nat) : Bool := (List.range 16).any (fun i => (d.win h i).valid && (d.win h i).seg == slot)

/-- The ranges that a hoop's slots hold for the device: (hoop virtual address, bytes) of locked tables, rings and completion targets
(R271, R335). -/
def Device.heldRanges (d : Device) (h : Nat) : List (Nat × Nat) :=
  let f := d.rd Reg.HOOP_FENCES_FENCES h
  let e := d.rd Reg.HOOP_EVENTS_EVENTS h
  let fb := d.rd Reg.HOOP_FENCES_BASE h * 4096
  let tables := if d.rd Reg.HOOP_CFG_TABLES_LOCK h = 0 then ([] : List (Nat × Nat)) else
    [(d.rd Reg.HOOP_OBJTAB_BASE h * 4096, 16 * 2 ^ d.rd Reg.HOOP_OBJTAB_ENTRIES_LOG2 h),
     (d.rd Reg.HOOP_RELQ_BASE h * 4096, 16 * 2 ^ d.rd Reg.HOOP_RELQ_SIZE_LOG2 h)]
    ++ (if f + e = 0 then ([] : List (Nat × Nat)) else [(fb, roundUp (10 * f) 64 + 10 * e)])
  tables ++ (d.work.queues.filter (fun (x : Nat × Queue) => x.2.state != 0 && x.2.hoop == h)).flatMap (fun (x : Nat × Queue) =>
    [(x.2.ring, 64 * 2 ^ x.2.sizeLog2), (x.2.completion, 32 * 2 ^ x.2.sizeLog2)])

/-- The held ranges that lie in a descriptor slot, as offsets. -/
def Device.heldIn (d : Device) (h slot : Nat) : List (Nat × Nat) :=
  ((d.heldRanges h).filter (fun r => d.rd (Reg.HOOP_SEGMAP_MAP (bits r.1 47 44)) h == slot)).map (fun r => (r.1 % 2 ^ 44, r.2))

end Sys2Proof.Machine
end

