-- ==== Sys2Proof/Machine/Entries.lean ====
section
/-! DEFINITION. The ring entries and the commands of queues and slots (chapter 3), the whey path (R298 to R300), settlements and the
release of sessions (R309, R315, R316). -/

namespace Sys2Proof.Machine

/-- What a command does to the device. -/
abbrev DevOut := Host.Outcome State Fault Refusal

/-- Start the next entry of a queue if it has the command's opcode. -/
def Device.onEntry (d : Device) (q op : Nat) (f : Device → Entry → Device) : Device :=
  match d.startable q op with
  | some e => (f d e).settleSlot q
  | none => d

/-- NOP: retires at start. -/
def execNop (q : Nat) (s : State) : DevOut := s.done (s.dev.onEntry q 0x00 (fun d e => d.beginEnd q e 0))

/-- LAUNCH (R65): its kernel descriptor is read and its blocks wait for credits. -/
def execLaunch (q : Nat) (s : State) : DevOut :=
  s.done ((s.dev.onEntry q 0x01 (fun d e => d.beginBy q e
    (fun d => d.kernelStart q e.id e.ptr (d.rd Reg.HOOP_FLIP_APPLIED (d.queue q).hoop) none false (slice e.bytes 8 24))
    (fun d => d.countKernel (d.queue q).hoop (d.queue q).cls))).serveCredits)

/-- LAUNCH_RECIPE (R82): an instance is created, or the entry waits for a place. -/
def execLaunchRecipe (q : Nat) (s : State) : DevOut :=
  s.done ((s.dev.onEntry q 0x02 (fun d e => d.beginBy q e (fun d => d.newInst q e) id)).serveCredits)

/-- COPY (R278): its descriptors are handed to the stream engines of die (queue mod 4). -/
def execCopy (q : Nat) (s : State) : DevOut :=
  s.done (s.dev.onEntry q 0x03 (fun d e => d.beginBy q e
    (fun d => d.copyStart q e.id (d.rd Reg.HOOP_FLIP_APPLIED (d.queue q).hoop) (q % 4) (fun j => .copy q e.id j) none (slice e.bytes 8 24)) id))

/-! The whey path -/

/-- Copy a WHEY entry's descriptors into its hoop's whey queue, all together, when it has room (R299). -/
def Device.wheyStart (d : Device) (q : Nat) (e : Entry) : Device × Except Nat Bool :=
  let h := (d.queue q).hoop
  let n := fieldLe e.bytes 16 2
  if n < 1 ∨ 64 < n then (d, .error 3)
  else if 256 < (d.hx h).whey.length + n then (d, .ok false)
  else
    let r := d.entRead q e.id (fieldLe e.bytes 8 8) (64 * n)
    match r.2 with
    | .error st => (r.1, .error st)
    | .ok none => (r.1, .ok false)
    | .ok (some b) =>
      let l := (List.range n).map (fun i => (⟨q, e.id, i + 1 == n, slice b (64 * i) 64⟩ : Whey))
      (((r.1.setHx h { r.1.hx h with whey := (r.1.hx h).whey ++ l }).wheyCount h false).modQueue q (fun x =>
        { x with entries := x.entries.map (fun y => if y.id = e.id then { y with buf := [] } else y) }), .ok true)

/-- WHEY. -/
def execWhey (q : Nat) (s : State) : DevOut := s.done (s.dev.onEntry q 0x04 (fun d e => d.beginBy q e (fun d => d.wheyStart q e) id))

/-- Whether a host read for a hoop's first whey descriptor is open. -/
def Device.wheyBusy (d : Device) (h : Nat) : Bool :=
  match (d.hx h).whey with
  | [] => false
  | w :: _ => d.flow.reads.any (fun (r : Nat × HRead) => r.2.kind == 5 && r.2.a == w.queue && r.2.b == w.entry)

/-- The pattern of a FILL, repeated over `n` bytes. -/
def wheyFill (b : Bytes) (n : Nat) : Bytes := (List.range n).map (fun i => (b.drop (8 + i % 8)).headD 0)

/-- A whey descriptor's source bytes: a status, bytes, or none while the host is read (R298, R300). -/
def Device.wheySource (d : Device) (w : Whey) : Device × Except Nat (Option Bytes) :=
  let b := w.bytes
  let op := fieldLe b 0 1
  let n := fieldLe b 2 2
  if op < 1 ∨ 3 < op ∨ fieldLe b 1 1 > 1 ∨ n < 1 ∨ (if op = 3 then 32 else 256) < n then (d, .error 3)
  else if op = 1 then d.entRead w.queue w.entry (fieldLe b 8 8) n
  else (d, .ok (some (if op = 2 then wheyFill b n else slice b 32 n)))

/-- A whey descriptor has executed: what the host sent for it is dropped, so that the next one reads anew (R298). -/
def Device.wheyDrop (d : Device) (w : Whey) : Device :=
  d.modQueue w.queue (fun x => { x with entries := x.entries.map (fun e => if e.id = w.entry then { e with buf := [] } else e) })

/-- Execute the first whey descriptor of a hoop (R299, R300). -/
def Device.wheyRun (d : Device) (h : Nat) : Device :=
  match (d.hx h).whey with
  | [] => d
  | w :: rest =>
    let r := d.wheySource w
    let d := r.1
    let sum := ((d.entry? w.queue w.entry).map (fun (e : Entry) => e.result)).getD 0
    let fail := fun (d : Device) st =>
      ((d.setHx h { d.hx h with whey := rest.filter (fun y => !(y.queue == w.queue && y.entry == w.entry)) }).wheyCount h false).finish w.queue w.entry st sum
    match r.2 with
    | .error st => fail d st
    | .ok none => d
    | .ok (some b) =>
      let map := ((d.entry? w.queue w.entry).map (fun (e : Entry) => e.map)).getD (d.curMap h)
      let va := fieldLe w.bytes 16 8
      let slot := d.slotOf h map (bits va 47 44)
      if d.segClosed h slot then d
      else match d.storeVa h map va b with
      | .error st =>
        let d := if st = 0xA then d.dataError h w.queue (d.entWho w.queue w.entry).2 (d.entWho w.queue w.entry).1 (d.tableAddr h + 32 * slot) else d
        fail d st
      | .ok d =>
        let d := ((d.setHx h { d.hx h with whey := rest }).wheyDrop w).wheyCount h true
        if w.last then d.finish w.queue w.entry 0 (sum + b.length)
        else d.modQueue w.queue (fun x => { x with entries := x.entries.map (fun e =>
          if e.id = w.entry then { e with result := e.result + b.length } else e) })

/-- The hoop whose whey descriptor starts next, round-robin (R299). -/
def Device.wheyNext (d : Device) : Option Nat :=
  ((List.range 8).map (fun i => (d.work.lastWhey + 1 + i) % 8)).find? (fun h => !(d.hx h).whey.isEmpty && !d.wheyBusy h)

/-- WHEY_DESCRIPTOR_START. -/
def execWheyDescriptorStart (s : State) : DevOut :=
  let d := s.dev
  s.done (if !d.live then d else match d.wheyNext with
    | none => d
    | some h => ({ d with work := { d.work with lastWhey := h } }).wheyRun h)

/-! Fences and events -/

/-- FENCE_WAIT (R69). -/
def execFenceWait (q : Nat) (s : State) : DevOut :=
  s.done (s.dev.onEntry q 0x05 (fun d e =>
    let h := (d.queue q).hoop
    let i := fieldLe e.bytes 8 4
    let d := d.begin_ q e.id
    match d.fenceTry h i (fieldLe e.bytes 16 8) with
    | none => d
    | some (st, w) =>
      if st = 0 ∨ st = 5 then d.endWaiter q e st w
      else (d.wordError h q e.who (d.fenceVa h i) st).failWaiters h 0x05 i st))

/-- FENCE_SIGNAL (R50, R57, R69). -/
def execFenceSignal (q : Nat) (s : State) : DevOut :=
  s.done (s.dev.onEntry q 0x06 (fun d e =>
    let h := (d.queue q).hoop
    let i := fieldLe e.bytes 8 4
    if d.rd Reg.HOOP_FENCES_FENCES h ≤ i then d.beginEnd q e 3
    else
      let r := d.fenceSignal h q e.who i (fieldLe e.bytes 16 8)
      r.1.beginEnd q e r.2))

/-- EVENT_RECORD: it retires once every earlier entry has, and then DONE takes its number (R68, R70). -/
def execEventRecord (q : Nat) (s : State) : DevOut := s.done (s.dev.onEntry q 0x07 (fun d e => d.beginEnd q e 0))

/-- EVENT_WAIT (R70). -/
def execEventWait (q : Nat) (s : State) : DevOut :=
  s.done (s.dev.onEntry q 0x08 (fun d e =>
    let h := (d.queue q).hoop
    let i := fieldLe e.bytes 8 4
    let d := d.begin_ q e.id
    match d.eventTry h i e.target with
    | none => d
    | some st =>
      if st = 0 ∨ st = 6 then d.endWaiter q e st 0
      else d.eventBad h q e.who i st))

/-- FENCE_WAIT_SATISFIED: the waiting entries and nodes of a queue that their fence word satisfies (R69). -/
def execFenceWaitSatisfied (q : Nat) (s : State) : DevOut :=
  s.done (if s.dev.live then (s.dev.fencesSatisfied q).settleSlot q else s.dev)

/-- EVENT_WAIT_SATISFIED (R70). -/
def execEventWaitSatisfied (q : Nat) (s : State) : DevOut :=
  s.done (if s.dev.live then (s.dev.eventsSatisfied q).settleSlot q else s.dev)

/-! Sessions -/

/-- The blocks that R308 needs for a committed length, beyond those present. -/
def Sess.needs (s : Sess) (committed : Nat) : Nat := cdiv (Nat.min s.maxlen (committed + 4096)) s.tpb - s.blocks

/-- The checks of steps 1 and 2 of R315 and R320: the status of the first that fails; `n` is the COUNT of a commit. -/
def Device.settleCheck (d : Device) (h si n : Nat) : Option Nat :=
  let s := d.sess si
  if !d.sessIn h si then some 3
  else if s.state = 3 then some 0xA
  else if s.state ≠ 1 ∨ s.prov < s.committed + n then some 3
  else none

/-- The settlement of an entry once no write is in flight (R315 steps 4 and 5, R316). -/
def Device.settleNow (d : Device) (q : Nat) (e : Entry) : Device :=
  let h := (d.queue q).hoop
  let si := fieldLe e.bytes 8 4
  if entOp e.bytes = 0x0A then (d.rejectSess si).finish q e.id 0
  else
    let n := fieldLe e.bytes 12 4
    let s := d.sess si
    let need := s.needs (s.committed + n)
    if need > 0 ∧ (d.rd Reg.HOOP_STATUS_OVER_QUOTA h = 1 ∨ d.rd Reg.HOOP_KVFREE_HBM_FREE h < need) then d.finish q e.id 8
    else match d.growSess si need with
      | .error o => (d.poolError h o 1).finish q e.id 0xA
      | .ok d => (d.modSess si (fun s => { s with committed := s.committed + n })).finish q e.id 0 (s.committed + n)

/-- The start of SESSION_COMMIT and SESSION_REJECT: it waits for an earlier settlement, and for the writes in flight (R315 to R317). -/
def Device.settleStart (d : Device) (q : Nat) (e : Entry) : Device :=
  let si := fieldLe e.bytes 8 4
  let commit := entOp e.bytes == 0x09
  let n := if commit then fieldLe e.bytes 12 4 else 0
  let busy := d.settling si
  let d := (d.begin_ q e.id).sessMet (d.queue q).hoop si
  if busy then d
  else match (if commit && n > 4096 then some 3 else d.settleCheck (d.queue q).hoop si n) with
    | some st => d.finish q e.id st
    | none => if (d.sess si).writes = [] then d.settleNow q e else d

/-- SESSION_COMMIT (R315). -/
def execSessionCommit (q : Nat) (s : State) : DevOut := s.done (s.dev.onEntry q 0x09 (fun d e => d.settleStart q e))

/-- SESSION_REJECT (R316). -/
def execSessionReject (q : Nat) (s : State) : DevOut := s.done (s.dev.onEntry q 0x0A (fun d e => d.settleStart q e))

/-- SETTLEMENT_WAIT_DONE: the settlements that wait on a session, one after the other in the order in which they reached the session unit, the lower queue
number first among those that came together (R301), each checked against the lengths the other left (R315, R317). -/
def execSettlementWaitDone (session : Nat) (s : State) : DevOut :=
  let d := s.dev
  let waiting := fun op => (d.waiters (fun _ _ => true) op).filter (fun y => fieldLe y.2.bytes 8 4 == session)
  let before := fun (a b : Nat × Entry) => a.2.begun < b.2.begun || (a.2.begun == b.2.begun && (a.1 < b.1 || (a.1 == b.1 && a.2.id ≤ b.2.id)))
  let l := sortBy before (waiting 0x09 ++ waiting 0x0A)
  s.done (if d.live && (d.sess session).writes.isEmpty then
    l.foldl (fun d y =>
      let n := if entOp y.2.bytes = 0x09 then fieldLe y.2.bytes 12 4 else 0
      match (if n > 4096 then some 3 else d.settleCheck (d.queue y.1).hoop session n) with
      | some st => (d.finish y.1 y.2.id st).settleSlot y.1
      | none => (d.settleNow y.1 y.2).settleSlot y.1) d
  else d)

/-- Whether descriptors that move a session's tokens are running. -/
def Device.sessBusy (d : Device) (si : Nat) : Bool :=
  !(d.sess si).writes.isEmpty || d.flow.descs.any (fun (x : Nat × Desc) => x.2.sess == some si && x.2.state != 0 && x.2.state != 3)

/-- Return every present block of a session to its pool (R309). DESIGN CHOICE (log entry 41): a block whose list entry is uncorrectable stays allocated, and an
error record is posted. -/
def Device.freeBlocks (d : Device) (si : Nat) : Device :=
  let s := d.sess si
  (List.range s.blocks).foldl (fun d b => match d.listEntry s b with
    | some w => d.markBlock s.hoop (w.testBit 60) (w % 2 ^ 27) false
    | none => d.poolError s.hoop (s.blist + 8 * b) 8) d

/-- SESSION_RELEASE: a session whose count has reached 0 is freed once its accesses have ended; a damaged one keeps its blocks (R309,
R320). -/
def execSessionRelease (session : Nat) (s : State) : DevOut :=
  let d := if s.dev.live && (s.dev.sess session).rel then s.dev.sessMet (s.dev.sess session).hoop session else s.dev
  let y := d.sess session
  s.done (if d.live && y.rel && !d.sessBusy session then
    let h := y.hoop
    let d := if y.state = 3 then d.wr Reg.HOOP_KVUSE_DAMAGED h (d.rd Reg.HOOP_KVUSE_DAMAGED h - 1)
      else (d.freeBlocks session).wr Reg.HOOP_KVUSE_LIVE h (d.rd Reg.HOOP_KVUSE_LIVE h - 1)
    (((d.setSess session {}).objWrite h y.handle 0 0 session).relPost h y.handle 3).overQuota h
  else d)

/-! Flip and chain -/

/-- The refusals of R335. -/
def Device.flipRefused (d : Device) (h a b : Nat) : Bool :=
  let sa := d.rd (Reg.HOOP_SEGMAP_MAP a) h
  let sb := d.rd (Reg.HOOP_SEGMAP_MAP b) h
  let bad := fun s => !(d.segOwn h s).valid || !(d.heldIn h s).isEmpty || d.isSessionSeg h s || d.exposed h s
  a == b || a > 15 || b > 15 || bad sa || bad sb

/-- WEIGHT_FLIP: what R335 refuses ends with INVALID_PARAMETER; else it is pending from its retirement until a tick (R335, R339). -/
def execWeightFlip (q : Nat) (s : State) : DevOut :=
  s.done (s.dev.onEntry q 0x0B (fun d e =>
    let h := (d.queue q).hoop
    let a := fieldLe e.bytes 8 1
    let b := fieldLe e.bytes 9 1
    d.beginEnd q e (if d.flipRefused h a b then 3 else 0)))

/-- CHAIN: the slot fetches COUNT entries from TARGET (R66). -/
def execChain (q : Nat) (s : State) : DevOut :=
  s.done (s.dev.onEntry q 0x0C (fun d e =>
    let target := fieldLe e.bytes 8 8
    let n := fieldLe e.bytes 16 4
    if target % 64 ≠ 0 ∨ n < 1 ∨ 65536 < n then (d.beginEnd q e 3).modQueue q (fun x => { x with rptr := (x.rptr + 1) % 2 ^ 32 })
    else (d.beginEnd q e 0).modQueue q (fun x => { x with chain := some (target, n, e.ptr) })))

/-! Slots, doorbells, records -/

/-- SLOT_FETCH (R43, R54, R61). -/
def execSlotFetch (slot : Nat) (s : State) : DevOut :=
  s.done (if s.dev.live && slot < 128 then s.dev.slotFetch slot else s.dev)

/-- ENTRY_RETIRE (R71, R90). -/
def execEntryRetire (q i : Nat) (s : State) : DevOut :=
  s.done (if s.dev.live then s.dev.retireEntry q i else s.dev)

/-- A confirming read of a queue ends: its record is confirmed and its vector sent; a failed read puts the queue in COMPLETION_FAULT (R92,
R94, R95). -/
def Device.confirmDone (d : Device) (q tag : Nat) (ok : Bool) : Device :=
  let x := d.queue q
  let d := d.closeRead tag
  match x.recs.find? (fun r => r.tag == some tag) with
  | none => d
  | some r =>
    if !ok then d.completionFault q r
    else
      let d := d.setQueue q { x with recs := x.recs.erase r }
      (if r.irq && x.state != 3 then d.sendVector r.fn r.vec else d).writeRecs q 66

/-- The confirming read of a queue's oldest unconfirmed record ends. -/
def Device.confirmOldest (d : Device) (q : Nat) (ok : Bool) : Device :=
  match (d.queue q).recs.findSome? (fun r => r.tag) with
  | none => d
  | some tag => d.confirmDone q tag ok

/-- CONFIRMING_READ_DONE. -/
def execConfirmingReadDone (q : Nat) (status : Cpl) (s : State) : DevOut :=
  s.done (if s.dev.live then s.dev.confirmOldest q (status == .sc) else s.dev)

/-- Whether the rind die holds a posted write that came earlier (R270, R385). -/
def Device.writesHeld (d : Device) : Bool :=
  d.boot.held.any (fun a => match a with
    | .write _ _ _ => true
    | .doorbell _ _ => true
    | _ => false)

/-- A doorbell write of the host takes effect after every earlier posted write has been performed (R385). -/
def Device.hostRing (d : Device) (q value : Nat) : Device :=
  if d.writesHeld then { d with boot := { d.boot with held := d.boot.held ++ [.doorbell q value] } } else d.ring q value

/-- QDB_WPTR: a doorbell write by the PF or by the VF that owns the queue's hoop (R72, R385). -/
def execQdbWptr (fn q : Nat) (value : W32) (s : State) : DevOut :=
  let d := s.dev
  s.done (if d.live && q < 4096 && (fn == 0 || d.ownerFn (d.queue q).hoop == fn) then d.hostRing q value.toNat else d)

/-- MAPPER_RUN (R75). -/
def execMapperRun (s : State) : DevOut := s.done (if s.dev.live then s.dev.mapperRun else s.dev)

end Sys2Proof.Machine
end

