-- ==== Sys2Proof/Machine/IxMem.lean ====
section
/-! DEFINITION. Ixfen memory, session, remote, atomic and fence instructions (R156 to R162, Tables 5-11 to 5-14). -/

namespace Sys2Proof.Machine

/-- An instruction's form with its effect. -/
abbrev Ix := OpSpec × (IC → Device → Eff)

/-- The effect of an instruction on the state. -/
def runIx (e : Ent) (op : Nat) (w : IWord) (x : Ix) : State → Host.Outcome State Fault Refusal := ixfen e op w x.1 x.2

/-- Whether WIDTH, ORDER, SCOPE and CACHE hold values that a memory opcode admits (R141, R150, R156). DESIGN CHOICE (log entry 41): SIGNED is
accepted without effect on stores, PRF and loads of 4 bytes and more, for which the manual gives it no meaning. -/
def memOk (w : IWord) (store : Bool) : Bool :=
  let m := w.mod.toNat
  bits m 2 0 ≤ 4 && (bits m 5 4 == 0 || bits m 5 4 == (if store then 2 else 1)) && bits m 8 6 < 7 && bits m 11 10 < 3

def loadSpec (w : IWord) (a : SK) : OpSpec := { d := .v (widthRegs (widthOf w)), a := a, c := .vu 1, imm := .addr, ok := memOk w false }
/-- DESIGN CHOICE (log entry 41): base, index and data may be uniform in every memory instruction, as R145 admits kind 1 where a table allows it;
Tables 5-11 and 5-12 say so for some rows only. -/
def storeSpec (w : IWord) (a : SK) : OpSpec := { a := a, b := .vu (widthRegs (widthOf w)), c := .vu 1, imm := .addr, ok := memOk w true }

/-- A local access: its lanes' addresses, after the checks of alignment and range (R104, R156). -/
def IC.localAcc (i : IC) (d : Device) (n : Nat) (scaled : Bool) (k : List (Nat × Nat) → Eff) : Eff :=
  let l := i.lanes.map (fun l => (l, i.address 1 l n scaled))
  match firstFault (misaligned l n ++ (l.filter (fun x => !d.localIn i.core x.2 n)).map (fun x => (x.1, { code := 0x51, arg1 := x.2 }))) with
  | some f => .fault d f
  | none => k l

/-- Lanes whose local read meets an uncorrectable word (Table 8-3). -/
def IC.localFaults (i : IC) (d : Device) (n : Nat) (l : List (Nat × Nat)) : List (Nat × FaultArgs) :=
  (l.filter (fun x => d.localBad i.core i.place x.2 n)).map (fun x => (x.1, { code := 0x60, arg1 := x.2 }))

/-- The lanes' reads of local store meet what errors it holds (R233, R236). -/
def IC.localRead_ (i : IC) (d : Device) (n : Nat) (l : List (Nat × Nat)) : Device := l.foldl (fun d x => d.localMet i.core i.place x.2 n) d

/-- LDL. -/
def ixLdl (w : IWord) : Ix :=
  (loadSpec w (.vu 1), fun i d =>
    let n := widthOf i.w
    i.localAcc d n (i.flag 9) (fun l => match firstFault (i.localFaults d n l) with
      | some f => .fault (i.localRead_ d n l) f
      | none => .go (i.acquire (i.put (i.localRead_ d n l) (l.foldl (fun b x =>
          i.setD b (widthRegs n) x.1 (extend n (i.flag 3) (d.localRead i.core i.place x.2 n))) i.b)))))
/-- STL. -/
def ixStl (w : IWord) : Ix :=
  (storeSpec w (.vu 1), fun i d =>
    let n := widthOf i.w
    i.localAcc d n (i.flag 9) (fun l => i.release d (fun d =>
      .go (l.foldl (fun d x => d.localWrite i.core i.place x.2 (le n (i.bReg (widthRegs n) x.1))) d))))
/-- LD. -/
def ixLd (w : IWord) : Ix :=
  (loadSpec w (.vu 2), fun i d =>
    let n := widthOf i.w
    i.global d 0 n [3] (i.flag 9) (fun d l => i.load d n l))
/-- ST. -/
def ixSt (w : IWord) : Ix :=
  (storeSpec w (.vu 2), fun i d =>
    let n := widthOf i.w
    if i.k.early then i.held d else i.global d 1 n [4] (i.flag 9) (fun d l => i.release d (fun d => i.store d n l)))
/-- LDU: read once for the entry. -/
def ixLdu (w : IWord) : Ix :=
  ({ loadSpec w (.u 2) with d := .u (widthRegs (widthOf w)), c := .u 1 }, fun i d =>
    let n := widthOf i.w
    let lane := i.lanes.head?
    match lane with
    | none => .go d
    | some l0 =>
      let a := i.address 2 l0 n (i.flag 9)
      let whole := fun (e : Eff) => match e with
        | .fault d f => .fault d { f with arg0 := i.guard }
        | e => e
      match firstFault (misaligned [(l0, a)] n) with
      | some f => .fault d { f with arg0 := i.guard }
      | none => whole (i.checked 0 n (i.translate d n [3] [(l0, a)]) (fun d l =>
          i.load d n l true)))
/-- PRF: a failed translation, a missing permission or an uncorrectable line drops the lane's prefetch (R156, Table 8-3). -/
def ixPrf (w : IWord) : Ix :=
  ({ loadSpec w (.vu 2) with d := .none }, fun i d =>
    let n := widthOf i.w
    let l := i.lanes.map (fun l => (l, i.address 2 l n (i.flag 9)))
    match firstFault (misaligned l n) with
    | some f => .fault d f
    | none =>
      let r := i.translate d n [3] l
      if r.2.2.any (fun x => x.2.code == 0) then .retry r.1 none
      else i.watched r.1 0 n (r.2.1.map (fun x => (x.lane, x.va))) (fun d =>
        let lines := (r.2.1.filterMap (fun x => x.dev.map (· / 128))).eraseDups
        .go (i.acquire (lines.foldl (fun d line =>
          if i.mod 11 10 = 0 then d.l1Prefetch i.core i.hoop line
          else
            let d := d.cohRead1 i.die i.hoop true true line
            if d.badAt (line * 128) 128 then d.countSat Reg.L2_ECC_UNCORR i.die else d) d))))
/-- GLD: one RD_REQ for each line (R352). -/
def ixGld (w : IWord) : Ix :=
  (loadSpec w (.vu 2), fun i d =>
    let n := widthOf i.w
    i.remote d n (i.flag 9) false (fun d l =>
      i.ask d (i.loadOf false false (widthRegs n) n) ((lineSpans l n).map (fun z => (z.1, z.2.2, be 8 z.2.1))) 0x01))
/-- GST: posted WR packets; the block awaits their answers (R276, R352). -/
def ixGst (w : IWord) : Ix :=
  (storeSpec w (.vu 2), fun i d =>
    let n := widthOf i.w
    if i.k.early then i.held d
    else i.release d (fun d =>
      let go := fun (d : Device) (l : List (Nat × Nat)) =>
        let t := l.foldl (fun (t : Tab Byte) x =>
          ((le n (i.bReg (widthRegs n) x.1)).mapIdx (fun j b => (x.2 + j, b))).foldl (fun t (y : Nat × Byte) => Tab.insert t y.1 y.2) t) []
        Eff.go ((byteRuns t).foldl (fun d (r : Nat × Bytes) =>
          (linePieces r.1 r.2.length).foldl (fun d (p : Nat × Nat) =>
            let part := slice r.2 (p.1 - r.1) p.2
            let q : Remote := { kind := 1, a := i.core, b := i.place, c := i.entry, hoop := i.hoop, chip := gpChip p.1, win := gpWin p.1,
                                off := gpOff p.1, writes := true,
                                pkt := d.dataPkt i.hoop 0x03 (gpChip p.1) (gpWin p.1) (gpOff p.1) part }
            match d.openRemote q with
            | some d' => d'.modBlock i.core i.place (fun b => { b with gstOut := b.gstOut ++ [d.klz.nextTag] })
            | none => d) d) d)
      i.remote d n (i.flag 9) true go))

/-- The lanes of a session access: lane, session, token, offset. -/
def IC.tokens (i : IC) : List (Nat × Nat × Int × Nat) :=
  i.lanes.map (fun l => (l, i.a 1 l, signed 32 (i.c 1 l), i.w.immw.toNat % 2 ^ 32))
/-- Alignment of session accesses: blocks and records are multiples of 16, so that the byte offset decides (R302, R310). -/
def IC.tokenAlign (i : IC) (n : Nat) : List (Nat × FaultArgs) := misaligned (i.lanes.map (fun l => (l, i.w.immw.toNat % 2 ^ 32))) n
def sessSpec (w : IWord) (s : OpSpec) : OpSpec := { s with imm := .req, ok := s.ok && !w.mod.toNat.testBit 9 }
/-- SLD. -/
def ixSld (w : IWord) : Ix :=
  (sessSpec w (loadSpec w (.vu 1)), fun i d =>
    let n := widthOf i.w
    match firstFault (i.tokenAlign n) with
    | some f => .fault d f
    | none => i.checked 0 n (i.resolveTokens d n false i.tokens) (fun d l => i.load d n l) true)
/-- SST: an accepted write raises PROVISIONAL (R311). It waits while a settlement of its session waits (R317), or a spill moves its block (R318). -/
def ixSst (w : IWord) : Ix :=
  (sessSpec w (storeSpec w (.vu 1)), fun i d =>
    let n := widthOf i.w
    let waits := i.tokens.any (fun x => d.sessIn i.hoop x.2.1 && (d.settling x.2.1 || ((d.sess x.2.1).state == 1 && d.tokenMoves x.2.1 x.2.2.1.toNat)))
    if i.k.early then i.held d
    else match firstFault (i.tokenAlign n) with
      | some f => .fault d f
      | none => if waits then .retry d none else i.checked 1 n (i.resolveTokens d n true i.tokens) (fun d l => i.release d (fun d =>
          i.store (i.tokens.foldl (fun d x => d.raiseProv x.2.1 (x.2.2.1.toNat + 1)) d) n l)) true)

/-- The form of an atomic: AOP up to 10, no 64-bit form of the FP32 operations (R150, R159). DESIGN CHOICE (log entry 41): UNS is accepted without
effect on every AOP other than MIN and MAX. CAS also reads D. -/
def atomSpec (w : IWord) (a : SK) : OpSpec :=
  let m := w.mod.toNat
  let n := if m.testBit 9 then 2 else 1
  { d := .v n, a := a, b := .vu n, c := .vu 1, rd := bits m 3 0 == 7,
    ok := bits m 3 0 ≤ 10 && (bits m 3 0 < 8 || !m.testBit 9) && bits m 8 6 < 7 && !m.testBit 11 }
/-- ATOM. -/
def ixAtom (w : IWord) : Ix :=
  (atomSpec w (.vu 2), fun i d =>
    if i.k.early then i.held d
    else i.global d 2 (4 * i.aw) [5] false (fun d l => i.release d (fun d => i.atomic d l)))
/-- ATOML. -/
def ixAtoml (w : IWord) : Ix :=
  (atomSpec w (.vu 1), fun i d =>
    let n := 4 * i.aw
    if i.k.early then i.held d
    else i.localAcc d n false (fun l => match firstFault (i.localFaults d n l) with
      | some f => .fault (i.localRead_ d n l) f
      | none => i.release (i.localRead_ d n l) (fun d =>
          let r := l.foldl (fun (m : Device × List (Nat × Nat)) x =>
            let old := ofLe (m.1.localRead i.core i.place x.2 n)
            (m.1.localWrite i.core i.place x.2 (le n (i.newWord x.1 old)), m.2 ++ [(x.1, old)])) (d, [])
          i.prior r.1 r.2)))
/-- GATOM: one ATOM packet for each lane, in lane order (R160, R352). -/
def ixGatom (w : IWord) : Ix :=
  (atomSpec w (.vu 2), fun i d =>
    let n := 4 * i.aw
    if i.k.early then i.held d
    else i.release d (fun d => i.remote d n false true (fun d l =>
      i.ask d (i.loadOf false true i.aw n) (l.map (fun x => (x.2, [x], atomData i.aop (i.flag 9) (i.flag 10) (i.bReg i.aw x.1)
        (if i.aop = 7 ∧ !i.w.dz then i.b.vregs (i.thread x.1) i.w.d.toNat i.aw else 0)))) 0x05)))

/-- FENCE (R150, R254, R255): in each of its orders it waits for the lanes' loads, which an acquiring fence orders before later accesses. -/
def ixFence (w : IWord) : Ix :=
  ({ ok := bits w.mod.toNat 5 4 ≠ 0 && bits w.mod.toNat 8 6 < 7 && modIn w 0x1F0 }, fun i d =>
    if i.guard = 0 then .go d
    else if i.k.early ∧ 4 ≤ i.scope then i.held d
    else if i.open_ d then .retry d none
    else i.release d (fun d => .go (i.acquire d)))

/-- FSIGNAL (R162): an abandoned fence stays as it is, without a fault. -/
def ixFsignal (w : IWord) : Ix :=
  ({ a := .u 1, b := .u 2, ok := modIn w 0 }, fun i d =>
    let n := i.a 1 0
    let v := i.bReg 2 0
    let va := d.fenceVa i.hoop n
    if i.guard = 0 then .go d
    else if i.k.early then i.held d
    else if i.open_ d then .retry d none
    else if v.testBit 63 then .fault d { code := 0x22, arg1 := v }
    else if d.rd Reg.HOOP_FENCES_FENCES i.hoop ≤ n then .fault d { code := 0x23, arg1 := n }
    else
      let r := d.xlate i.core i.hoop i.k.map va 8 [3, 4] false
      match r.2 with
      | .error e => .fault r.1 { code := e.code, arg0 := i.guard, arg1 := va, arg2 := e.arg2 }
      | .ok p =>
        let bad : Bool := match p with
          | .dev a => r.1.badAt a 8
          | .host _ => false
        if bad then .fault r.1 { code := 0x60, arg0 := i.guard, arg1 := va }
        else .go (r.1.fenceSignal i.hoop i.k.queue (i.k.ptr, 0xFFFFFFFF) n v).1)

/-- LDL (0x60). -/
def execLdl (e : Ent) (w : IWord) : State → Host.Outcome State Fault Refusal := runIx e 0x60 w (ixLdl w)
/-- STL (0x61). -/
def execStl (e : Ent) (w : IWord) : State → Host.Outcome State Fault Refusal := runIx e 0x61 w (ixStl w)
/-- LD (0x62). -/
def execLd (e : Ent) (w : IWord) : State → Host.Outcome State Fault Refusal := runIx e 0x62 w (ixLd w)
/-- ST (0x63). -/
def execSt (e : Ent) (w : IWord) : State → Host.Outcome State Fault Refusal := runIx e 0x63 w (ixSt w)
/-- LDU (0x64). -/
def execLdu (e : Ent) (w : IWord) : State → Host.Outcome State Fault Refusal := runIx e 0x64 w (ixLdu w)
/-- PRF (0x65). -/
def execPrf (e : Ent) (w : IWord) : State → Host.Outcome State Fault Refusal := runIx e 0x65 w (ixPrf w)
/-- GLD (0x66). -/
def execGld (e : Ent) (w : IWord) : State → Host.Outcome State Fault Refusal := runIx e 0x66 w (ixGld w)
/-- GST (0x67). -/
def execGst (e : Ent) (w : IWord) : State → Host.Outcome State Fault Refusal := runIx e 0x67 w (ixGst w)
/-- SLD (0x68). -/
def execSld (e : Ent) (w : IWord) : State → Host.Outcome State Fault Refusal := runIx e 0x68 w (ixSld w)
/-- SST (0x69). -/
def execSst (e : Ent) (w : IWord) : State → Host.Outcome State Fault Refusal := runIx e 0x69 w (ixSst w)
/-- ATOM (0x70). -/
def execAtom (e : Ent) (w : IWord) : State → Host.Outcome State Fault Refusal := runIx e 0x70 w (ixAtom w)
/-- ATOML (0x71). -/
def execAtoml (e : Ent) (w : IWord) : State → Host.Outcome State Fault Refusal := runIx e 0x71 w (ixAtoml w)
/-- GATOM (0x72). -/
def execGatom (e : Ent) (w : IWord) : State → Host.Outcome State Fault Refusal := runIx e 0x72 w (ixGatom w)
/-- FENCE (0x78). -/
def execFence (e : Ent) (w : IWord) : State → Host.Outcome State Fault Refusal := runIx e 0x78 w (ixFence w)
/-- FSIGNAL (0x79): no opcode of an event-model hoop. -/
def execFsignal (e : Ent) (w : IWord) (s : State) : Host.Outcome State Fault Refusal :=
  s.done (s.dev.issue e 0x79 w (ixFsignal w).1 (ixFsignal w).2 (fun h => s.dev.rd Reg.HOOP_CFG_DEP_MODEL h == 1))

end Sys2Proof.Machine
end

