-- ==== Sys2Proof/Machine/IxStream.lean ====
section
/-! DEFINITION. Stream, message, doorbell and update instructions (R170 to R173, R278, R290, R292, R329, R353, R354), and the answers that
let a waiting instruction go on. -/

namespace Sys2Proof.Machine

/-! Structures that an instruction reads -/

/-- The bytes of a structure of up to 4 KiB that an instruction reads at a hoop virtual address, with R: by PCIe where it lies in the
host tier (R263, R267). `lane` keeps answers of several structures apart; the fault names the guard's lanes. -/
def IC.struct (i : IC) (d : Device) (lane va n : Nat) (k : Device → Bytes → Eff) : Eff :=
  let all := fun (f : FaultArgs) => { f with arg0 := i.guard }
  let r := i.translate d n [3] [(lane, va)]
  match firstFault r.2.2, r.2.1 with
  | some f, _ => .fault r.1 (all f)
  | none, x :: _ =>
    (match i.withHost r.1 [x] (fun d x a =>
        d.openRead { kind := 0, a := i.core, b := i.entry, c := x.lane, fn := d.ownerFn i.hoop, addr := a } n)
      (fun d =>
        match x.loc with
        | .host a => (match i.came x.lane a n with
          | some b => k d b
          | none => .fault d { code := 0x60, arg1 := va })
        | .dev _ =>
          let s := d.seg i.hoop x.slot
          let d := (linePieces (va % 2 ^ 44) n).foldl (fun d (p : Nat × Nat) => match s.place p.1 with
            | .dev a => d.cohRead i.die i.hoop a p.2 true
            | .host _ => d) d
          (match d.readSeg s (va % 2 ^ 44) n with
           | some b => k d b
           | none => .fault d { code := 0x60, arg1 := va })) with
     | .fault d f => .fault d (all f)
     | e => e)
  | none, [] => .go d

/-- A 128-byte descriptor that an instruction names: aligned, read and given to `k`; a segment fault comes before the fault of its alignment, `bad`
(R175). -/
def IC.descAt (i : IC) (d : Device) (lane va : Nat) (bad : Device → Eff) (k : Device → Bytes → Eff) : Eff :=
  if va % 128 ≠ 0 then
    let r := i.translate d 128 [3] [(lane, va)]
    match firstFault r.2.2 with
    | some f => .fault r.1 { f with arg0 := i.guard }
    | none => bad r.1
  else i.struct d lane va 128 k

/-- The operations of a block that have not completed: those with handles, and SMUPDs (R170, R329). -/
def Core.held (c : Core) (p : Nat) : Nat :=
  (((Tab.find? c.blocks p).map (fun (b : Block) => (b.handles.filter (fun (x : Nat × Handle) => !x.2.done)).length)).getD 0)
    + (c.upds.filter (fun (x : Nat × UpdOp) => x.2.place == some p)).length

/-- Give a block a handle, in D. -/
def IC.giveHandle (i : IC) (d : Device) (n : Nat) (h : Handle) : Device :=
  d.modBlock i.core i.place (fun b => i.setU { b with handles := Tab.insert b.handles n h } 1 n)

/-- SSTART: the descriptor is read, validated, checked and handed to an engine (R173, R278, R279, R283). -/
def ixSstart (w : IWord) : Ix :=
  ({ d := .u 1, a := .u 2, pt := true, ok := bits w.mod.toNat 4 0 ≤ 16 && modIn w 0x01F }, fun i d =>
    let va := i.a 2 0
    let bad := fun (d : Device) => Eff.fault d { code := 0x31, arg1 := va }
    i.descAt d 0 va bad (fun d b =>
      let s := parseSd b
      if i.k.early ∧ !s.dstLocal then i.held d
      else
        let eng := if i.mod 4 0 = 16 then d.lightest i.die else 16 * i.die + i.mod 4 0
        let c : SCtx := { hoop := i.hoop, die := i.die, sstart := true, localSize := d.localSize i.core, addr := va }
        if !d.sdValid b c then bad d
        else
          let go := fun (d : Device) (ub : Bytes) =>
            if !s.updOk ub then bad d
            else
              let r := d.issueCheck (512 + eng) i.hoop i.k.map s ub
              match r.2 with
              | some f => Eff.fault r.1 { code := f.1, arg0 := i.guard, arg1 := f.2.1, arg2 := f.2.2 }
              | none =>
                if (r.1.core i.core).held i.place ≥ 16 ∨ !r.1.engineRoom eng then .retry r.1 none
                else
                  let n := r.1.fresh
                  let x : Desc := { hoop := i.hoop, map := i.k.map, bytes := b ++ ub, owner := .block i.core i.place (n % 2 ^ 32), engine := eng }
                  let d := ((r.1.setDesc n x).step1).enqueue n eng
                  .go (i.giveHandle d (n % 2 ^ 32) { kind := 0, op := n, wide := !s.dstLocal, detail := eng })
          if s.mode = 6 then i.struct d 1 s.src 128 go else go d []))


/-- A handle that the block may await, or STREAM_HANDLE (R170). -/
def IC.withHandle (i : IC) (d : Device) (k : Nat → Handle → Eff) : Eff :=
  let n := i.a 1 0
  match Tab.find? i.b.handles n with
  | some h => if h.awaited then .fault d { code := 0x30, arg1 := n } else k n h
  | none => .fault d { code := 0x30, arg1 := n }

/-- The operation of a handle is awaited: its deferred failure is raised, else the acquire is made (R292, R354). DESIGN CHOICE (log entry 41): ARG0 of
the failure is the guard of the instruction that reports it; R276 and R292 fix ARG1 only. -/
def IC.await_ (i : IC) (d : Device) (n : Nat) (h : Handle) (k : Device → Eff) : Eff :=
  match h.fault with
  | some (c, a1, a2) => .fault d { code := c, arg0 := i.guard, arg1 := a1, arg2 := a2 }
  | none =>
    let d := d.modBlock i.core i.place (fun b => { b with handles := Tab.insert b.handles n { h with awaited := true } })
    k (if h.wide then d.dropL1 i.core else d)

/-- SWAIT. -/
def ixSwait (w : IWord) : Ix :=
  ({ a := .u 1, pt := true, ok := modIn w 0 }, fun i d =>
    i.withHandle d (fun n h => if !h.done then .retry d (some (h.wait n)) else i.await_ d n h .go))

/-- SPOLL: the trace's wait lasts from the first SPOLL until one is true. -/
def ixSpoll (w : IWord) : Ix :=
  ({ d := .p, a := .u 1, pt := true, ok := modIn w 0 }, fun i d =>
    i.withHandle d (fun n h =>
      if !h.done then
        let st := h.polled.getD (d.stamp i.hoop)
        .go (d.modBlock i.core i.place (fun b =>
          ({ b with handles := Tab.insert b.handles n { h with polled := some st, poller := i.x.group } }).setPred i.x.group i.w.d.toNat i.x.mask 0))
      else i.await_ d n h (fun d =>
        let d := match h.polled with
          | some st => d.trace i.hoop (h.wait n).1 0 (d.groupWaiter i.core i.x) n h.detail st
          | none => d
        .go (d.modBlock i.core i.place (fun b => b.setPred i.x.group i.w.d.toNat i.x.mask (2 ^ 32 - 1))))))

/-! Messages -/

/-- A message ends (R353, R354): its handle completes; a message that was not accepted fails it, or posts a record where it has none.
`status` is its RSTATUS. -/
def Device.msgEnds (d : Device) (r : Remote) (accepted : Bool) (status : Nat) : Device :=
  let uz := r.b ≥ 192
  let p := r.b % 192
  let word := r.chip + (r.pkt.offset % 8) * 2 ^ 12 + bits r.pkt.offset 6 3 * 2 ^ 15
  let d := if uz && !accepted then
      d.post { code := 0x33, hoop := r.hoop, detail := le 4 word ++ le 1 status }
    else d
  let upd := fun (y : Nat × Handle) => if y.1 = r.c then
    (y.1, { y.2 with done := true, fault := if accepted then none else some (0x15, word, 0) }) else y
  d.modBlock r.a p (fun b => { b with handles := if uz then Tab.erase b.handles r.c else b.handles.map upd })

/-- MSEND (R171, R353). -/
def ixMsend (w : IWord) : Ix :=
  ({ d := .u 1, a := .u 2, b := .u 1, c := .u 1, pt := true, ok := modIn w 1 }, fun i d =>
    let n := i.bReg 1 0
    let word := i.c 1 0
    let size : Option Nat := if n < 64 ∨ 4096 < n then some n else if 2 ^ 19 ≤ word then some word else none
    let send := fun (d : Device) (data : Bytes) =>
      if (d.core i.core).held i.place ≥ 16 then Eff.retry d none
      else
        let h := d.fresh % 2 ^ 32
        let r : Remote := { kind := 3, a := i.core, b := i.place + (if i.w.dz then 192 else 0), c := h, hoop := i.hoop, chip := word % 4096,
                            pkt := { dst := word % 4096, src := d.ownChip, ptype := 0x10, job := i.hoop,
                                     offset := bits word 14 12 + bits word 18 15 * 8, data := data } }
        let d := (d.step1).modBlock i.core i.place (fun b =>
          i.setU { b with handles := Tab.insert b.handles h { kind := 1, op := d.klz.nextTag, detail := word, awaited := i.w.dz } } 1 h)
        .go ((d.openRemote r).getD (d.keepRemote r))
    if i.k.early then i.held d
    else if i.flag 0 then
      let a := i.a 2 0 % 2 ^ 32
      if !d.localIn i.core a n then .fault d { code := 0x51, arg0 := i.guard, arg1 := a }
      else match size with
        | some x => .fault d { code := 0x28, arg1 := x }
        | none => if d.localBad i.core i.place a n then .fault (d.localMet i.core i.place a n) { code := 0x60, arg0 := i.guard, arg1 := a }
          else send (d.localMet i.core i.place a n) (d.localRead i.core i.place a n)
    else
      let r := i.translate d n [3] [(0, i.a 2 0)]
      match firstFault r.2.2, size with
      | some f, _ => .fault r.1 { f with arg0 := i.guard }
      | none, some x => .fault r.1 { code := 0x28, arg1 := x }
      | none, none => i.struct d 0 (i.a 2 0) n send)

/-- DOORBELL (R72, R172): a release at module scope, which waits for the lanes' loads (R255). -/
def ixDoorbell (w : IWord) : Ix :=
  ({ a := .u 1, b := .u 1, pt := true, ok := modIn w 0 }, fun i d =>
    let q := i.a 1 0
    if i.k.early then i.held d
    else if i.open_ d then .retry d none
    else if q ≥ 4096 ∨ (d.queue q).state = 0 ∨ (d.queue q).hoop ≠ i.hoop then .fault d { code := 0x29, arg1 := q }
    else .go (d.ring q (i.bReg 1 0)))

/-! Updates -/

/-- A value at an array address for a lane: what an earlier lane wrote to the host tier, what came from it, or device memory. -/
def UpdOp.value (o : UpdOp) (d : Device) (own : Tab Byte) (lane va n : Nat) : Except Nat Nat :=
  let s := d.seg o.hoop (d.slotOf o.hoop o.map (bits va 47 44))
  match s.place (va % 2 ^ 44) with
  | .dev a => (match d.readDev a n with
    | some b => .ok (ofLe b)
    | none => .error 0x60)
  | .host _ =>
    (match o.got.find? (fun x => x.1 == lane && x.2.1 == va) with
     | some x => .ok (ofLe ((List.range n).map (fun j => (Tab.find? own (va + j)).getD ((x.2.2.drop j).headD 0))))
     | none => .error 0x60)

/-- The writes of one element: to device memory by the L1 and the L2, to the host posted (R326, R329). -/
def UpdOp.write (o : UpdOp) (core : Nat) (m : Device × Tab Byte) (ws : List (Nat × Bytes)) : Device × Tab Byte :=
  ws.foldl (fun (m : Device × Tab Byte) (x : Nat × Bytes) =>
    let s := m.1.seg o.hoop (m.1.slotOf o.hoop o.map (bits x.1 47 44))
    match s.place (x.1 % 2 ^ 44) with
    | .dev a => ((m.1.l1Store core a x.2).agentWrite (coreDie core) o.hoop a x.2 true, m.2)
    | .host a => ((m.1.hostWriteBy (coreDie core) (m.1.ownerFn o.hoop) a x.2).cnt o.hoop 8 x.2.length,
        (x.2.mapIdx (fun j b => (x.1 + j, b))).foldl (fun t (y : Nat × Byte) => Tab.insert t y.1 y.2) m.2)) m

/-- The lanes whose element meets an uncorrectable error, each with its address (R158). -/
def UpdOp.failures (o : UpdOp) (d : Device) (u : Upd) : List (Nat × FaultArgs) :=
  o.idx.filterMap (fun x => match updElem (o.value d [] x.1) u x.2 with
    | .error e => some (x.1, { code := 0x60, arg1 := e.2 })
    | .ok _ => none)

/-- Perform the elements of an SMUPD in the order of its lanes, each reading what the lane before wrote (R326, R329). -/
def Device.updRun (d : Device) (core : Nat) (o : UpdOp) : Device :=
  let u := parseUpd o.desc
  let r := o.idx.foldl (fun (m : Device × Tab Byte × Nat) x => match updElem (o.value m.1 m.2.1 x.1) u x.2 with
    | .error _ => m
    | .ok (ws, f) => let y := o.write core (m.1, m.2.1) ws; (y.1, y.2, m.2.2 ||| f)) (d, [], 0)
  r.1.numFlags o.hoop 3 r.2.2

/-- An SMUPD whose reads have ended: it performs its elements, or its block faults (R158, R329). Without its block it completes what it can
(R136). -/
def Device.updEnds (d : Device) (core n : Nat) (o : UpdOp) : Device :=
  let d := d.modCore core (fun c => { c with upds := Tab.erase c.upds n })
  match o.place, firstFault (o.failures d (parseUpd o.desc)) with
  | some p, some f => d.blockFault core p o.group o.mask o.pc f
  | _, _ => d.updRun core o

/-- Bytes of an element of an SMUPD come from the host, or their read fails (R267, R329). -/
def Device.updAnswer (d : Device) (core n tag : Nat) (come : Except Nat Bytes) : Device :=
  match Tab.find? (d.core core).upds n with
  | none => d
  | some o =>
    let mine := o.due.filter (fun y => y.1 == tag)
    let come := match come with
      | .ok b => mine.map (fun y => (y.2.1, y.2.2, b))
      | .error _ => []
    let o : UpdOp := { o with due := o.due.filter (fun y => y.1 != tag), got := o.got ++ come }
    if o.due = [] then d.updEnds core n o
    else d.modCore core (fun c => { c with upds := Tab.insert c.upds n o })

/-- The watchpoints that an SMUPD's accesses match: each once for the instruction, as a read where one of its reads matches (R443, R444). -/
def Device.updWatch (d : Device) (h : Nat) (w : Waiter) (acc : List (Nat × Nat × Nat × Nat)) : Device :=
  let at_ := fun kind => d.watchMatch h 1 kind ((acc.filter (fun x => x.2.2.2 = 3 + kind)).map (fun x => (x.2.1, x.2.2.1)))
  (d.watchNote h 0 w (at_ 0)).watchNote h 1 w ((at_ 1).filter (fun x => !(at_ 0).any (fun y => y.1 == x.1)))

/-- SMUPD: it takes one of the block's 16 places until its writes are performed, and the entry goes on (R170, R329). The segment faults of its elements come
before STREAM_DESC (R175), and it waits for open accesses of its lanes to the same bytes (R151). -/
def ixSmupd (w : IWord) : Ix :=
  ({ a := .u 2, b := .v 1, ok := bits w.mod.toNat 1 0 < 3 && modIn w 3 }, fun i d =>
    let va := i.a 2 0
    let bad := fun (d : Device) (m : Nat) => Eff.fault d { code := 0x31, arg0 := m, arg1 := va }
    if i.k.early then i.held d
    else if i.guard = 0 then .go d
    else i.descAt d 64 va (fun d => bad d 0) (fun d b =>
      let u := parseUpd b
      let idx := i.lanes.map (fun l => (l, i.bReg 1 l))
      let out := idx.filter (fun x => u.count ≤ x.2)
      let acc := (updAccesses u idx).filter (fun x => !out.any (fun y => y.1 == x.1))
      let r := acc.foldl (fun (m : Device × List LaneAcc × List (Nat × FaultArgs)) x =>
        let y := i.translate m.1 x.2.2.1 [x.2.2.2] [(x.1, x.2.1)]
        (y.1, m.2.1 ++ (if x.2.2.2 = 3 then y.2.1 else []), m.2.2 ++ y.2.2)) (d, [], [])
      match firstFault (r.2.2.filter (fun x => x.2.code != 0x60)) with
      | some f => .fault r.1 f
      | none =>
        if !updValid b ∨ u.form ≠ i.mod 1 0 then bad r.1 0
        else if out ≠ [] then bad r.1 (maskOf (out.map (·.1)))
        else match firstFault r.2.2 with
        | some f => .fault r.1 f
        | none =>
          if (r.1.core i.core).held i.place ≥ 16 ∨ i.collides r.1 (acc.map (fun x => (x.1, x.2.1, x.2.2.1, x.2.2.2 == 4))) then .retry r.1 none
          else match firstFault (i.noHost r.1 r.2.1) with
            | some f => .fault r.1 f
            | none =>
              let d := r.1.updWatch i.hoop (r.1.groupWaiter i.core i.x) acc
              let d := r.2.1.foldl (fun d x => match x.loc with
                | .dev a => d.cohRead i.die i.hoop a 2 true
                | .host _ => d) d
              let n := d.fresh
              let asks := r.2.1.foldl (fun (m : Device × List (Nat × Nat × Nat)) x => match x.loc with
                | .dev _ => m
                | .host a =>
                  let size := ((acc.find? (fun y => y.1 == x.lane && y.2.1 == x.va)).map (fun y => y.2.2.1)).getD 2
                  (m.1.openRead { kind := 10, a := i.core, b := n, c := 0, fn := d.ownerFn i.hoop, addr := a } size,
                    m.2 ++ [(m.1.fresh, x.lane, x.va)])) (d.step1, [])
              let o : UpdOp := { place := some i.place, hoop := i.hoop, map := i.k.map, group := i.x.group, mask := i.x.mask, pc := i.x.pc,
                                 desc := b, idx := idx, due := asks.2 }
              if asks.2 ≠ [] then .go (asks.1.modCore i.core (fun c => { c with upds := Tab.insert c.upds n o }))
              else match firstFault (o.failures d u) with
                | some f => .fault d f
                | none => .go (d.updRun i.core o)))

/-! Answers -/

/-- The instructions that wait for answers, by opcode. -/
def awaiting (op : Nat) (w : IWord) : Option Ix :=
  match op with
  | 0x61 => some (ixStl w)
  | 0x63 => some (ixSt w)
  | 0x67 => some (ixGst w)
  | 0x69 => some (ixSst w)
  | 0x70 => some (ixAtom w)
  | 0x71 => some (ixAtoml w)
  | 0x72 => some (ixGatom w)
  | 0x78 => some (ixFence w)
  | 0xD0 => some (ixSstart w)
  | 0xD3 => some (ixMsend w)
  | 0xE0 => some (ixSmupd w)
  | _ => none

/-- An answer comes for an instruction that waits for a structure or a release: bytes from an address up, or the fault code of a failure; with the last one it goes
on (R113, R136, R267). -/
def Device.answer (d : Device) (core entry lane tag a : Nat) (come : Except Nat Bytes) : Device :=
  match d.ent? core entry with
  | none => d
  | some x =>
    match x.await with
    | none => d
    | some y =>
      if x.park ≠ .data ∨ !y.due.contains (lane, tag) then d
      else
        let y := { y with due := y.due.erase (lane, tag) }
        let y := match come with
          | .ok b => { y with got := y.got ++ [(lane, a, b)] }
          | .error c => { y with bad := y.bad ++ [(lane, a, c)] }
        let d := d.modEnt core entry (fun x => { x with await := some y })
        if y.due ≠ [] then d
        else
          let d := d.modEnt core entry (fun x => { x with park := .retry })
          match d.context core entry y.op y.w, awaiting y.op y.w with
          | some i, some z => i.run d z.1 false z.2
          | _, _ => d

/-- SSTART (0xD0). -/
def execSstart (e : Ent) (w : IWord) : State → Host.Outcome State Fault Refusal := runIx e 0xD0 w (ixSstart w)
/-- SWAIT (0xD1). -/
def execSwait (e : Ent) (w : IWord) : State → Host.Outcome State Fault Refusal := runIx e 0xD1 w (ixSwait w)
/-- SPOLL (0xD2). -/
def execSpoll (e : Ent) (w : IWord) : State → Host.Outcome State Fault Refusal := runIx e 0xD2 w (ixSpoll w)
/-- MSEND (0xD3). -/
def execMsend (e : Ent) (w : IWord) : State → Host.Outcome State Fault Refusal := runIx e 0xD3 w (ixMsend w)
/-- DOORBELL (0xD4). -/
def execDoorbell (e : Ent) (w : IWord) : State → Host.Outcome State Fault Refusal := runIx e 0xD4 w (ixDoorbell w)
/-- SMUPD (0xE0). -/
def execSmupd (e : Ent) (w : IWord) : State → Host.Outcome State Fault Refusal := runIx e 0xE0 w (ixSmupd w)

end Sys2Proof.Machine
end

