-- ==== Sys2Proof/Machine/MgmtOps.lean ====
section
/-! DEFINITION. Management commands: acceptance, the checks of R408, replies (R404 to R410, R415, R416). -/

namespace Sys2Proof.Machine

/-- An opcode of Table 16-4: its value, whether a VF may send it (HOOP scope), whether the sideband may, whether it names a
hoop, which LENGTHs it takes, its reply data in bytes, and the states of the hoop that admit it beyond ACTIVE: status reads
also DRAINING and SCRUBBING (Table 2-2). `hold` admits HOLD, `afterFatal` R415, `starter` the starter of R416. -/
structure MSpec where
  op : Nat
  hoopScope : Bool := false
  sb : Bool := false
  names : Bool := false
  len : Nat → Bool := fun n => n == 0
  reply : Nat := 0
  read : Bool := false
  hold : Bool := true
  create : Bool := false
  afterFatal : Bool := false
  starter : Bool := false

/-- The opcodes of Table 16-4 (R410, R415, R416); of STATS_CONFIG, COUNTER_READ, ROUTE_QUERY and DEBUG_UNLOCK the reply data, of HISTOGRAM_CONFIG whether it
names a hoop, and of DEBUG_UNLOCK the length hang on more than the opcode and are set where the command executes. -/
def mspec (op : Nat) : MSpec :=
  match op with
  | 0x00 => { op := op, hoopScope := true, sb := true, names := true, read := true, afterFatal := true }
  | 0x01 => { op := op, names := true, len := (· == 64), create := true }
  | 0x02 => { op := op, names := true, len := (· == 64) }
  | 0x03 => { op := op, names := true }
  | 0x04 => { op := op, hoopScope := true, names := true, reply := 256, read := true }
  | 0x10 => { op := op, hoopScope := true, names := true, len := (· == 24) }
  | 0x11 => { op := op, hoopScope := true, names := true, len := (· == 24) }
  | 0x12 => { op := op, hoopScope := true, names := true, len := fun n => 6 ≤ n && n ≤ 4092, hold := false }
  | 0x13 => { op := op, hoopScope := true, names := true, len := (· == 2) }
  | 0x18 => { op := op, hoopScope := true, names := true, len := fun n => n == 40 || n == 72 || n == 520 }
  | 0x19 => { op := op, hoopScope := true, names := true, reply := 48, read := true }
  | 0x1A => { op := op, hoopScope := true, names := true, len := (· == 12) }
  | 0x20 => { op := op, hoopScope := true, names := true, len := (· == 24) }
  | 0x21 => { op := op, hoopScope := true, names := true, len := (· == 4) }
  | 0x22 => { op := op, hoopScope := true, names := true, len := (· == 4), reply := 64, read := true }
  | 0x28 => { op := op, hoopScope := true, names := true, len := (· == 16) }
  | 0x30 => { op := op, len := fun n => 328 ≤ n && n ≤ 81928 }
  | 0x31 => { op := op, len := (· == 4) }
  | 0x32 => { op := op, len := (· == 1) }
  | 0x38 => { op := op, hoopScope := true, names := true, len := (· == 24) }
  | 0x39 => { op := op, hoopScope := true, names := true, read := true }
  | 0x3A => { op := op, sb := true, reply := 64 }
  | 0x3B => { op := op, len := (· == 1) }
  | 0x40 => { op := op, sb := true, len := (· == 4) }
  | 0x41 => { op := op, sb := true, reply := 64 }
  | 0x42 => { op := op, len := (· == 2) }
  | 0x48 => { op := op, hoopScope := true, names := true, len := (· == 16) }
  | 0x49 => { op := op, hoopScope := true, len := (· == 3) }
  | 0x4A => { op := op, hoopScope := true, names := true, len := (· == 24) }
  | 0x4B => { op := op, sb := true, len := (· == 1) }
  | 0x50 => { op := op, hoopScope := true, names := true, len := (· == 24) }
  | 0x51 => { op := op, hoopScope := true, names := true, len := (· == 2) }
  | 0x58 => { op := op }
  | 0x59 => { op := op, len := (· == 8) }
  | 0x60 => { op := op, sb := true, afterFatal := true, starter := true, reply := 80 }
  | 0x61 => { op := op, sb := true, starter := true, len := fun n => 8 ≤ n && n ≤ 4096 }
  | 0x68 => { op := op, sb := true, afterFatal := true, starter := true, reply := 288 }
  | 0x70 => { op := op, sb := true, afterFatal := true }
  | 0x71 => { op := op, sb := true, afterFatal := true }
  | 0x79 => { op := op, sb := true, afterFatal := true, starter := true, reply := 72 }
  | _ => { op := op }

/-- Whether an opcode is one of Table 16-4 (R408, R410). -/
def opListed (op : Nat) : Bool :=
  op ≤ 4 || (0x10 ≤ op && op ≤ 0x13) || (0x18 ≤ op && op ≤ 0x1A) || (0x20 ≤ op && op ≤ 0x22) || op == 0x28 || (0x30 ≤ op && op ≤ 0x32)
    || (0x38 ≤ op && op ≤ 0x3B) || (0x40 ≤ op && op ≤ 0x42) || (0x48 ≤ op && op ≤ 0x4B) || op == 0x50 || op == 0x51 || op == 0x58 || op == 0x59
    || op == 0x60 || op == 0x61 || op == 0x68 || op == 0x70 || op == 0x71 || op == 0x79

/-- What an opcode's own rules decide: a refusal with DETAIL, a failure that leaves a mark, an end with RESULT and reply data, or a
wait whose reply comes later (`MPend`). -/
inductive MRes where
  | refuse (status : Nat) (detail : Nat)
  | fail (d : Device) (status : Nat)
  | done (d : Device) (result : Nat) (data : Bytes)
  | wait (d : Device) (kind a b : Nat) (data : Bytes)

/-- Whether an opcode names a hoop. -/
def opNames (op : Nat) : Bool := op ≤ 0x28 || op == 0x38 || op == 0x39 || (0x48 ≤ op && op ≤ 0x4A) || op == 0x50 || op == 0x51

/-- The first offset of a list of checks that fails. -/
def firstBad (l : List (Nat × Bool)) : Option Nat := (l.find? (fun x => !x.2)).map (·.1)

def Device.ringOn (d : Device) (r : Nat) : Bool := d.rd Reg.MGMT_RING_ENABLE r == 1
def Device.ringHead (d : Device) (r : Nat) : Nat := d.rd Reg.MGMT_HEAD_HEAD r
def Device.ringLog2 (d : Device) (r : Nat) : Nat := d.rd Reg.MGMT_RING_SIZE_LOG2 r

/-- Bus address of the slot of a ring's next command (R405). -/
def Device.slotAddr (d : Device) (r : Nat) : Nat :=
  d.rd Reg.MGMT_RING_BASE r * 4096 + 128 * (d.ringHead r % 2 ^ d.ringLog2 r)

/-- Whether a ring holds a command to fetch (R404, R409). -/
def Device.ringDue (d : Device) (r : Nat) : Bool :=
  r < 9 && d.stage == 4 && d.awake && !d.life.rindDead && d.ringOn r && d.rd Reg.MGMT_TAIL_TAIL r != d.ringHead r && d.mayMaster r

/-- Read the slot of a ring's next command, unless it is being read or a command executes. -/
def Device.ringFetch (d : Device) (r : Nat) : Device :=
  let reading := d.flow.reads.any (fun (x : Nat × HRead) => x.2.kind == 4 && x.2.a == r)
  let busy := d.boot.waits.any (fun w => w.hdr.ring == r) || d.boot.cmds.any (fun c => c.hdr.ring == r)
  if d.ringDue r && !reading && !busy then
    d.openRead { kind := 4, a := r, b := 0, c := 0, fn := r, addr := d.slotAddr r } 64
  else d

/-- The reply header (Table 16-2). -/
def Device.replyHeader (d : Device) (h : MHdr) (op status detail result len : Nat) : Bytes :=
  let phase := if h.ring < 9 then b2n ((d.ringHead h.ring).testBit (d.ringLog2 h.ring)) else 0
  le 1 op ++ le 2 0 ++ le 1 (128 * phase) ++ le 4 h.tag.toNat ++ le 2 status ++ le 2 len ++ le 4 detail ++ le 8 result
    ++ le 8 (d.time (if opNames op then h.hoop % 8 else 0)) ++ le 32 0

/-- The reply of a command (R406): data, header, HEAD, then vector 0; on the sideband one message (R416). -/
def Device.reply (d : Device) (h : MHdr) (op status detail result : Nat) (data : Bytes) : Device :=
  let hd := d.replyHeader h op status detail result data.length
  if h.ring < 9 then
    let d := if data.isEmpty then d else d.hostWrite h.ring h.replyAddr data
    let d := d.hostWrite h.ring (d.slotAddr h.ring + 64) hd
    let d := d.count Reg.MGMT_HEAD_HEAD h.ring
    let d := (d.wr Reg.MGMT_STATUS_BUSY h.ring 0).wr Reg.MGMT_STATUS_OPCODE h.ring 0
    let d := if h.irq then d.sendVector h.ring 0 else d
    d.ringFetch h.ring
  else if h.ring = 9 then d.emit (vendorMsg (hd ++ data))
  else d

/-- The reply of a command that waited. -/
def Device.endWait (d : Device) (w : MPend) (status result : Nat) (data : Bytes := []) : Device :=
  (d.setBoot { d.boot with waits := d.boot.waits.erase w }).reply w.hdr w.opcode status 0 result data

/-- Checks 2 and 3 of R408 of a command with `n` bytes of parameters. -/
def headCheck (sp : MSpec) (h : MHdr) (n : Nat) : Option Nat :=
  let addrs := if h.ring = 9 then h.paramAddr == 0 && h.replyAddr == 0
    else h.paramAddr % 8 == 0 && h.replyAddr % 8 == 0 && (n != 0 || h.paramAddr == 0) && (h.replyCap != 0 || h.replyAddr == 0)
  if (1 ≤ h.ring && h.ring ≤ 8 && !(sp.hoopScope && h.hoop + 1 == h.ring)) || (h.ring == 9 && !sp.sb) then some 0x0101
  else if h.rsvd || h.hoop > 7 || h.replyCap > 4096 || !addrs || !sp.len n || (!sp.names && h.hoop != 0) then some 3
  else none

/-- Checks 4 and 5 of R408, the states of Table 2-2, R415 and R416. -/
def Device.stateCheck (d : Device) (sp : MSpec) (h : MHdr) : Option Nat :=
  let vf := 1 ≤ h.ring && h.ring ≤ 8
  let st := d.hoopState h.hoop
  if h.replyCap < sp.reply then some 0x0103
  else if d.stage ≠ 4 then (if sp.starter then none else some 0x0100)
  else if d.life.fatal then
    (if vf then some 0x0100
     else if sp.names && st == 0 && !sp.create then some 3
     else if sp.afterFatal then none else some 0x0100)
  else if !sp.names then none
  else if st = 0 then (if sp.create then none else some 3)
  else if sp.create then some 0x0100
  else if st = 1 ∨ (st = 2 ∧ sp.hold) ∨ ((st = 3 ∨ st = 4) ∧ sp.read) then none
  else some 0x0100

/-- Checks 2 to 5 of R408 in order: the status of the first that fails. -/
def Device.mgmtCheck (d : Device) (sp : MSpec) (h : MHdr) (p : Bytes) : Option Nat := (headCheck sp h p.length).or (d.stateCheck sp h)

/-! Acceptance -/

/-- The order of rings that accept in one fc: sideband, PF, VF 1 to 8 (R407). -/
def ringRank (r : Nat) : Nat := if r = 9 then 0 else r + 1

/-- Whether a command is there to be accepted (R404, R407, R409, R416): the sideband's, or one of an enabled ring beyond those that it has had accepted. -/
def Device.mgmtComes (d : Device) (h : MHdr) : Bool :=
  if h.ring = 9 then d.awake && !d.life.rindDead
  else d.ringDue h.ring && (d.boot.waits.filter (fun w => w.hdr.ring == h.ring)).length + (d.boot.cmds.filter (fun c => c.hdr.ring == h.ring)).length
    < ringDiff 32 (d.rd Reg.MGMT_TAIL_TAIL h.ring) (d.ringHead h.ring)

/-- Whether commands that execute, and accepted ones of a list, hold back a command: one of its ring, one that names its hoop, any for a command of the module
(R407). -/
def Device.mgmtBehind (d : Device) (names : Bool) (h : MHdr) (l : List MCmd) : Bool :=
  d.boot.waits.any (fun w => w.hdr.ring == h.ring || (if names then opNames w.opcode && w.hdr.hoop == h.hoop else true))
    || l.any (fun c => c.hdr.ring == h.ring || (if names then c.names && c.hdr.hoop == h.hoop else true))

/-- Whether a command executes now: it is there and nothing holds it back, or its turn has come. -/
def Device.mgmtReady (d : Device) (sp : MSpec) (h : MHdr) : Bool :=
  d.boot.turn || (d.mgmtComes h && !d.mgmtBehind sp.names h d.boot.cmds)

/-- Put an accepted command behind those accepted before it (R407). -/
def putCmd (l : List MCmd) (c : MCmd) : List MCmd :=
  let before := fun (x : MCmd) => x.at_ < c.at_ || (x.at_ == c.at_ && ringRank x.hdr.ring ≤ ringRank c.hdr.ring)
  l.filter before ++ [c] ++ l.filter (fun x => !before x)

/-- A command that is accepted waits its turn (R407); one that is not there changes nothing. -/
def Device.mgmtHold (d : Device) (sp : MSpec) (h : MHdr) (p : Bytes) : Device :=
  if d.mgmtComes h then
    d.setBoot { d.boot with cmds := putCmd d.boot.cmds { op := sp.op, hdr := h, names := sp.names, len := p.length, params := some p, at_ := d.clock.now } }
  else d

/-- An accepted command reaches the vat dies over the ring, and each answers (R20; log entry 43). -/
def Device.mgmtTraffic (d : Device) : Device := (List.range 4).foldl (fun d die => (d.ringCtl 4 die).ringCtl die 4) d

/-- The firmware reads the header: the slot's read is over. -/
def Device.mgmtAccept (d : Device) (h : MHdr) : Device :=
  let d := d.mgmtTraffic
  if h.ring < 9 then
    { d with flow := { d.flow with reads := d.flow.reads.filter (fun (x : Nat × HRead) => !(x.2.kind == 4 && x.2.a == h.ring)) } }
  else d

/-- A management command: held while earlier ones hold it back, else the reply of the first failing check or what its own rules decide
(R407, R408). -/
def Device.mgmt (d : Device) (sp : MSpec) (h : MHdr) (p : Bytes) (f : Device → MRes) : Device :=
  if !d.mgmtReady sp h then d.mgmtHold sp h p
  else
    let d := d.mgmtAccept h
    match d.mgmtCheck sp h p with
    | some st => d.reply h sp.op st 0 0 []
    | none =>
      if h.unread && h.ring < 9 && p.length > 0 then d.reply h sp.op 0xA 0 0 []
      else match f d with
        | .refuse st detail => d.reply h sp.op st (if st = 3 then detail else 0) 0 []
        | .fail d st => d.reply h sp.op st 0 0 []
        | .done d result data => d.reply h sp.op 0 0 result data
        | .wait d kind a b data =>
          let d := d.setBoot { d.boot with waits := d.boot.waits ++ [⟨h, sp.op, kind, a, b, data⟩] }
          if h.ring < 9 then (d.wr Reg.MGMT_STATUS_BUSY h.ring 1).wr Reg.MGMT_STATUS_OPCODE h.ring sp.op else d

/-- A command that no rule of its own refuses and whose effect follows its reply (R414). -/
def Device.mgmtThen (d : Device) (sp : MSpec) (h : MHdr) (p : Bytes) (f : Device → Device) : Device :=
  if !d.mgmtReady sp h then d.mgmtHold sp h p
  else
    let d := d.mgmtAccept h
    match d.mgmtCheck sp h p with
    | some st => d.reply h sp.op st 0 0 []
    | none => f (d.reply h sp.op 0 0 0 [])

end Sys2Proof.Machine
end

