-- ==== Sys2Proof/Machine/HoopOps.lean ====
section
/-! DEFINITION. Aborts of queues, drains, scrubs and resets of hoops and functions (R36 to R39, R56, R96, R391 to R393). -/

namespace Sys2Proof.Machine

/-! Aborts -/

/-- The entries of a queue that have not been fetched: the rest of its chained run, then the ring up to the shadow, as (address,
pointer) (R56, R66, R96). The read pointer stands at a CHAIN that is fetched and has not started, or whose run has not ended. -/
def Device.unfetched (d : Device) (q : Nat) : List (Nat × Nat) :=
  let x := d.queue q
  let run := match x.chain with
    | some (a, n, p) => (List.range n).map (fun i => (a + 64 * i, p))
    | none => ([] : List (Nat × Nat))
  let held := x.rptr != x.shadow && (x.chain.isSome || x.entries.any (fun e => entOp e.bytes == 0x0C && !e.started && !e.chained))
  let first := if held then x.rptr + 1 else x.rptr
  run ++ (List.range (ringDiff 32 x.shadow first)).map (fun i =>
    (x.ring + 64 * ((first + i) % 2 ^ x.sizeLog2), (first + i) % 2 ^ 32))

/-- The bytes of an entry that was not fetched, read now: none while a read of the host is open. One that cannot be read names nothing and
asks for nothing (DESIGN CHOICE, log entry 41). -/
def Device.goneBytes (d : Device) (q va : Nat) : Device × Option Bytes :=
  let x := d.queue q
  let nothing : Bytes := List.replicate 64 0
  if d.segClosed x.hoop (d.slotOf x.hoop (d.curMap x.hoop) (bits va 47 44)) then (d, none)
  else
  let d := d.seenVa x.hoop va 64
  match d.readVa x.hoop va 64 with
  | .ok b => (d, some b)
  | .error e =>
    let fn := d.ownerFn x.hoop
    if e ≠ hostTier ∨ !d.mayMaster fn then (d, some nothing)
    else match x.pre.find? (fun y => y.1 == va) with
      | some y => (d, some (if y.2.length < 64 then nothing else slice y.2 0 64))
      | none =>
        if d.flow.reads.any (fun (r : Nat × HRead) => r.2.kind == 6 && r.2.a == q) then (d, none)
        else
          let s := d.seg x.hoop (d.slotOf x.hoop (d.curMap x.hoop) (bits va 47 44))
          (d.openRead { kind := 6, a := q, b := va, c := 0, fn := fn, addr := s.base + va % 2 ^ 44 } 64, none)

/-- Everything from the read pointer to the shadow is to go, and the read pointer equals the shadow (R56 step 2, R96 step 2). -/
def Device.giveUp (d : Device) (q : Nat) : Device :=
  let l := d.unfetched q
  d.modQueue q (fun x => { x with gone := x.gone ++ l, rptr := x.shadow, chain := none, stopFetch := true })

/-- Go through the entries that a queue gives up, in order: under an abort each retires with ABORTED once a retirement may begin (R55, R56,
R422), under a discard its references are dropped (R96). It stops at an entry that must wait. -/
def Device.dropGone (d : Device) (q : Nat) (abort : Bool) : List (Nat × Nat) → Device
  | [] => d.modQueue q (fun x => { x with gone := [], pre := [] })
  | (va, ptr) :: t =>
    let stop := fun (d : Device) => d.modQueue q (fun x => { x with gone := (va, ptr) :: t })
    if abort && !d.mayBegin (d.queue q) then stop d
    else
      let h := (d.queue q).hoop
      match d.goneBytes q va with
      | (d, none) => stop d
      | (d, some b) =>
        let e : Entry := { id := 0, bytes := b, ptr := ptr, skip := (d.checkEntry h b false).2 }
        Device.dropGone (if abort then (d.retire q e 1).cnt h 14 else d.objDrop h q ((entHandles b).filter (fun y => !e.skip.contains y))) q abort t

/-- The fetched entries of a list retire with ABORTED, while a retirement may begin. -/
def Device.abortFetched (d : Device) (q : Nat) : List Entry → Device
  | [] => d
  | e :: t =>
    let h := (d.queue q).hoop
    if d.mayBegin (d.queue q) then
      Device.abortFetched (((d.retire q e 1).cnt h 14).sample h 0 (d.clock.now - e.since.now)) q t
    else d

/-- Step 2 of R56 as far as it goes: every entry that has not started retires with ABORTED, and the read pointer equals the shadow. -/
def Device.abortUnstarted (d : Device) (q : Nat) : Device :=
  let d := d.giveUp q
  let d := d.abortFetched q ((d.queue q).entries.filter (fun e => !e.started))
  if (d.queue q).entries.any (fun e => !e.started) then d else d.dropGone q true (d.queue q).gone

/-- Whether step 2 of R56 is done for a queue. -/
def Queue.abortDone (x : Queue) : Bool := x.gone.isEmpty && x.entries.all (fun e => e.started)

/-- Step 3 of R56: what runs for a queue is aborted (R136, R293); its entries end with ABORTED, those too that a fault ended at the same local
time (R138). -/
def Device.abortRunning (d : Device) (q : Nat) : Device :=
  let h := (d.queue q).hoop
  let d := ((d.work.insts.filter (fun (x : Nat × Inst) => x.2.queue == q)).map (·.1)).foldl (fun d i => d.abortInst i) d
  let d := ((d.work.kernels.filter (fun (x : Nat × Kernel) => x.2.queue == q && x.2.inst.isNone)).map (·.1)).foldl (fun d k => d.endKernel k 1) d
  let mine := (d.flow.descs.filter (fun (x : Nat × Desc) => match x.2.owner with | .copy a _ _ => a == q | _ => false)).map (·.1)
  let d := mine.foldl (fun d x => d.stopDesc x) d
  let d := (d.setHx h { d.hx h with whey := (d.hx h).whey.filter (fun w => w.queue != q) }).wheyCount h false
  let d := d.modQueue q (fun x => { x with entries := x.entries.map (fun e =>
    if e.fault ∧ e.at_ = d.clock.now then { e with done := some 1 } else e) })
  let waits := fun op => (d.queue q).entries.filter (fun e => e.started && e.done.isNone && entOp e.bytes == op)
  let d := (waits 0x05 ++ waits 0x08).foldl (fun d e => d.endWaiter q e 1 0) d
  ((d.queue q).entries.filter (fun e => e.started && e.done.isNone)).foldl (fun d e =>
    d.finish q e.id 1 (if entOp e.bytes = 0x04 then e.result else 0)) d

/-- Whether a queue has an entry in flight, from its fetch until it retires (R35, R96). -/
def Queue.busy (x : Queue) : Bool := !x.entries.isEmpty

/-- Discard every entry from the read pointer to the shadow, as far as it goes: references alone are dropped (R96 step 2). -/
def Device.discard (d : Device) (q : Nat) : Device :=
  let d := d.giveUp q
  d.dropGone q false (d.queue q).gone

/-- The slot of a queue becomes FREE. -/
def Device.leaveSlot (d : Device) (q : Nat) : Device :=
  match d.slotOfQueue q with
  | some s => d.setSlot s { state := 0, since := d.clock.now }
  | none => d

/-- Abandon the words of a pool whose owner tag matches: fences (R56 step 4). -/
def Device.abandonFences (d : Device) (h tag : Nat) : Device :=
  let n := d.rd Reg.HOOP_FENCES_FENCES h
  let base := d.rd Reg.HOOP_FENCES_BASE h * 4096
  (List.range n).foldl (fun d i =>
    let d := d.seenVa h (base + 8 * n + 2 * i) 2
    match d.readVa h (base + 8 * n + 2 * i) 2 with
    | .ok b => if ofLe b = tag then (d.setWord h (d.fenceVa h i) (2 ^ 64 - 1)).wr Reg.HOOP_STATUS_ABANDONED h 1 else d
    | .error _ => d) d

/-- Abandon the events of a tag whose DONE differs from ISSUED (R56 step 4). -/
def Device.abandonEvents (d : Device) (h tag : Nat) : Device :=
  let n := d.rd Reg.HOOP_EVENTS_EVENTS h
  (List.range n).foldl (fun d i =>
    let d := (d.seenVa h (d.eventBase h + 8 * n + 2 * i) 2).seenVa h (d.eventVa h i) 8
    match d.readVa h (d.eventBase h + 8 * n + 2 * i) 2, d.word h (d.eventVa h i) with
    | .ok b, .ok w =>
      if ofLe b = tag ∧ w % 2 ^ 31 ≠ bits w 62 32 then (d.setWord h (d.eventVa h i) (setBit w 63 true)).wr Reg.HOOP_STATUS_ABANDONED h 1
      else d
    | _, _ => d) d

/-- Steps 3 and 4 of R56. -/
def Device.abortEnd (d : Device) (h tag : Nat) (qs : List Nat) : Device :=
  let d := qs.foldl (fun d q => d.abortRunning q) d
  let d := if d.rd Reg.HOOP_CFG_TABLES_LOCK h = 1 then (d.abandonFences h tag).abandonEvents h tag else d
  qs.foldl (fun d q => (d.modQueue q (fun x => { x with state := 4, stopFetch := false, ctx := none })).settleSlot q) d

/-- QUEUE_ABORT (R56): the steps in order, for the queues named; false while step 2 waits for a read or for room (R55, R66, R422). -/
def Device.abortQueues (d : Device) (h tag : Nat) (qs : List Nat) : Device × Bool :=
  let d := qs.foldl (fun d q => d.modQueue q (fun x => { x with stopFetch := true })) d
  let d := qs.foldl (fun d q => d.abortUnstarted q) d
  if qs.all (fun q => (d.queue q).abortDone) then (d.abortEnd h tag qs, true) else (d, false)

/-! Scrubs -/

/-- The channel groups and clusters of masks. -/
def Device.zeroGroups (d : Device) (groups : Nat) : Device :=
  let own := fun a => isHbm a && groups.testBit (groupPos a).1
    && !((groupPos a).1 == 47 && groupBytes d.ms - 2 ^ 20 ≤ (groupPos a).2)
  let d := d.invalidate (fun _ l => own (l.1 * 128))
  { d with mem := d.mem.clear own, bad := d.bad.filter (fun u => !own (u * 32)) }.pinsNow

/-- The curd memory, registers and accumulators of clusters are zeroed and their L1 emptied; the replacement generators run on (R38, R226). -/
def Device.zeroClusters (d : Device) (clusters : Nat) : Device :=
  (List.range 256).foldl (fun d k =>
    if clusters.testBit (coreCluster k) then
      { d with work := { d.work with credits := d.work.credits.filter (· != k) } }.setCore k { gen := (d.core k).gen, clean := true }
    else d) d

/-- The L1 and victim cache of every core of clusters are emptied (R226). -/
def Device.emptyL1 (d : Device) (clusters : Nat) : Device :=
  d.cores.foldl (fun d (x : Nat × Core) => if clusters.testBit (coreCluster x.1) then d.dropL1 x.1 else d) d

/-- No buffer keeps an entry of a hoop's table, or an SRO entry that names it (R265, R270). -/
def Device.dropBuffers (d : Device) (h : Nat) (p : Nat → Bool) : Device :=
  let gone := fun n =>
    (n / 32 == h && p (n % 32))
    || (n % 32 < 16 && (d.segOwn (n / 32) (n % 32)).sro && (d.segOwn (n / 32) (n % 32)).owner == h && p (d.segOwn (n / 32) (n % 32)).oseg)
  let kept := d.flow.segbufs.map (fun (x : Nat × List Nat) => (x.1, x.2.filter (fun n => !gone n)))
  { d with flow := { d.flow with segbufs := kept.filter (fun (x : Nat × List Nat) => !x.2.isEmpty) } }

/-- Return the fields of a table of registers to their reset values, in one instance. -/
def Device.clearRegs (d : Device) (t : List RegD) (i : Nat) (keep : List Fld) : Device :=
  let ks := keep.map (fun f => f.key i)
  { d with regs := t.foldl (fun r g => g.fields.foldl (fun r (f : Fld) => if ks.contains (f.key i) then r else Tab.erase r (f.key i)) r) d.regs }

/-- The owners of L2 ways agree with HOOP_WAYS (R229, L2_WAYS). -/
def Device.setWays (d : Device) (h die mask : Nat) : Device :=
  let d := d.wr (Reg.HOOP_WAYS_WAYS die) h mask
  (List.range 16).foldl (fun d w =>
    if mask.testBit w then d.wr (Reg.L2_WAYS_OWNER w) die (8 + h)
    else if d.rd (Reg.L2_WAYS_OWNER w) die = 8 + h then d.wr (Reg.L2_WAYS_OWNER w) die 0 else d) d

/-- Scrubbing of a hoop is done (R38): memory, clusters, caches, session descriptors; its queues, recipes, view, watchpoints and registers
are as after reset (R321, R355, R391, R424, R451), and its segment table, which lies in its reserve, is 0. -/
def Device.scrub (d : Device) (h : Nat) : Device :=
  let d := d.dropBuffers h (fun _ => true)
  let ways := (List.range 4).map (fun die => d.wayMask h die)
  let d := d.invalidate (fun a l => a < 4 && (((ways.drop a).headD 0).testBit l.2.way || l.2.hoop == h))
  let d := (d.zeroGroups (d.rd Reg.HOOP_CHGROUPS_GROUPS h)).zeroClusters (d.rd Reg.HOOP_CLUSTERS_CLUSTERS h)
  let mine := fun n => d.sessIn h n
  let d := { d with flow := { d.flow with sessions := d.flow.sessions.filter (fun (x : Nat × Sess) => !mine x.1) } }
  let d := { d with work := { d.work with
    queues := d.work.queues.filter (fun (x : Nat × Queue) => x.2.hoop != h || (x.2.state == 0 && !x.2.lost.isEmpty))
    recipes := d.work.recipes.filter (fun (x : Nat × Recipe) => x.1 / 1024 != h) } }
  let d := d.setKlz { d.klz with rxqs := d.klz.rxqs.filter (fun (x : Nat × RxQueue) => x.1 / 16 != h) }
  let d := (d.clearRegs Reg.hoopTable h Reg.kept).setErrRing h {}
  let d := (d.wr Reg.HOOP_MEMQ_HBM_USE h 0).wr Reg.HOOP_MEMQ_CXL_USE h 0
  let x := d.hx h
  (d.setHstat h d.newHstat).setHx h { linkPend := x.linkPend, powerPend := x.powerPend }

/-- The function resets in progress that a hoop's leaving SCRUBBING ends (R391, R393). -/
def Device.flrEnds (d : Device) (h : Nat) : Device :=
  let f := setBit d.pcie.flr (h + 1) false
  let f := if (List.range 8).any (fun x => d.hoopState x == 3 || d.hoopState x == 4) then f else setBit f 0 false
  { d with pcie := { d.pcie with flr := f } }

/-- DRAINING ends (Table 2-3): no block of the hoop is left and no slot holds a queue of it. -/
def Device.drainComplete (d : Device) (h : Nat) : Device :=
  let blocks := d.cores.any (fun (x : Nat × Core) => !x.2.blocks.isEmpty && d.coreHoop x.1 == h)
  if d.hoopState h = 3 ∧ !blocks ∧ d.slotsOf h = 0 then d.wr Reg.HOOP_CFG_STATE h 4 else d

/-- DRAIN_COMPLETE (R36). -/
def execDrainComplete (hoop : Nat) (s : State) : DevOut :=
  s.done (if s.dev.live && hoop < 8 then s.dev.drainComplete hoop else s.dev)

/-- The cores of a hoop that is destroyed have no owner (R236). -/
def Device.disown (d : Device) (h : Nat) : Device :=
  (List.range 256).foldl (fun d k => if d.rd Reg.CORE_CURD_HOOP k = h then d.wr Reg.CORE_CURD_HOOP k 0 else d) d

/-- SCRUBBING ends (Table 2-3): FREE after HOOP_DESTROY, whose reply is now written, else HOLD. A command that still waited has had its
effects scrubbed (R409). -/
def Device.scrubDone (d : Device) (h : Nat) : Device :=
  if d.hoopState h ≠ 4 then d
  else
    let destroy := (d.hx h).purpose == 1
    let d := d.scrub h
    let d := if destroy then
        (((List.range 4).foldl (fun d die => d.setWays h die 0) d).disown h).clearRegs Reg.hoopTable h []
          |>.setHx h {}
      else d.wr Reg.HOOP_CFG_STATE h 2
    let d := if destroy then d.wr Reg.HOOP_CFG_STATE h 0 else d
    (d.boot.waits.filter (fun w => (w.wait == 1 || w.wait == 2 || w.wait == 3 || w.wait == 4 || w.wait == 6) && w.hdr.hoop == h)).foldl (fun d w => d.endWait w 0 0) (d.flrEnds h)

/-- SCRUB_DONE (R38). -/
def execScrubDone (hoop : Nat) (s : State) : DevOut :=
  s.done (if s.dev.live && hoop < 8 then s.dev.scrubDone hoop else s.dev)

/-! Function resets -/

/-- Entries that were not fetched retire under Table 15-5, each once its bytes have been read; no request goes to the host for them, and an entry of
the host tier that has not come names nothing (DESIGN CHOICE, log entry 41). -/
def Device.dropQuiet (d : Device) (q : Nat) : List (Nat × Nat) → Device
  | [] => d
  | (va, ptr) :: t =>
    let h := (d.queue q).hoop
    let b := match d.readVa h va 64 with
      | .ok b => b
      | .error _ => (((d.queue q).pre.find? (fun y => y.1 == va)).map (·.2)).getD []
    let b := slice (b ++ List.replicate 64 0) 0 64
    let e : Entry := { id := 0, bytes := splice b 1 [0], ptr := ptr, skip := (d.checkEntry h b false).2, fault := true }
    Device.dropQuiet (((d.seenVa h va 64).retire q e 1).cnt h 14) q t

/-- Table 15-5: every entry of a queue retires with ABORTED and drops its references; no completion record is written and no vector
sent; records held are discarded. -/
def Device.abortQuiet (d : Device) (q : Nat) : Device :=
  let d := d.modQueue q (fun x => { x with recs := [], lost := [], stopFetch := true })
  let d := d.abortRunning q
  let h := (d.queue q).hoop
  let d := (d.queue q).entries.foldl (fun d e =>
    ((d.retire q { e with bytes := splice e.bytes 1 [0], fault := true } 1).cnt h 14).sample h 0 (d.clock.now - e.since.now)) d
  let d := d.dropQuiet q ((d.queue q).gone ++ d.unfetched q)
  (d.leaveSlot q).modQueue q (fun x => { x with state := if x.state = 2 then 1 else x.state, chain := none, pre := [], gone := [], ctx := none })

/-- A function reset reaches a hoop (R12, R37, R391, R392): an ACTIVE or HOLD hoop drains, with one FUNCTION_RESET record; the window of a FREE
or DEAD hoop takes its reset values, and the state stays. -/
def Device.resetHoop (d : Device) (h object why : Nat) : Device :=
  if d.stage ≠ 4 then d
  else if d.hoopState h = 0 ∨ d.hoopState h = 5 then d.clearRegs Reg.hoopTable h Reg.kept
  else if d.hoopState h ≠ 1 ∧ d.hoopState h ≠ 2 then d
  else
    let d := ((d.work.queues.filter (fun (x : Nat × Queue) => (x.2.state != 0 || !x.2.lost.isEmpty) && x.2.hoop == h)).map (·.1)).foldl (fun d q => d.abortQuiet q) d
    let d := (d.wr Reg.HOOP_CFG_STATE h 3).wr Reg.HOOP_CFG_TABLES_LOCK h 0
    let d := d.setHx h { d.hx h with purpose := 2 }
    d.post { code := 0x58, hoop := h, object := object, detail := le 1 why }

/-- Whether a function reset of a hoop stays in progress: it drains or scrubs. -/
def Device.resetting (d : Device) (h : Nat) : Bool := d.hoopState h == 3 || d.hoopState h == 4

/-- A function's management ring stops (R409): a command that executes runs on without a reply, one that waits its
turn is gone; the registers are as after reset. -/
def Device.stopRing (d : Device) (r : Nat) : Device :=
  let d := d.clearRegs Reg.ringTable r []
  d.setBoot { d.boot with cmds := d.boot.cmds.filter (fun c => c.hdr.ring != r),
                          waits := d.boot.waits.map (fun w => if w.hdr.ring = r then { w with hdr := { w.hdr with ring := 10 } } else w) }

/-- A function's MSI-X table, pending bits, outstanding reads and configuration fields (R391, R393). -/
def Device.clearFn (d : Device) (fn : Nat) : Device :=
  let p := d.pcie
  { d.stopRing fn with
    pcie := { p with entries := p.entries.filter (fun (x : Nat × MsixEnt) => x.1 / 256 != fn), pend := p.pend.filter (fun x => x.1 != fn),
                     busMaster := setBit p.busMaster fn false, msixEnable := setBit p.msixEnable fn false, funcMask := setBit p.funcMask fn false }
    flow := { d.flow with reads := d.flow.reads.filter (fun (x : Nat × HRead) => x.2.fn != fn) } }

/-- FLR or disable of VF v (R391). -/
def Device.vfReset (d : Device) (v why : Nat) : Device :=
  let d := (d.clearFn v).resetHoop (v - 1) v why
  if d.resetting (v - 1) then { d with pcie := { d.pcie with flr := setBit d.pcie.flr v true } } else d

/-- VFs that cease to exist are reset (R391). -/
def Device.vfsGone (d : Device) (old : Nat) : Device :=
  ((List.range 8).filter (fun v => d.vfs < v + 1 && v + 1 ≤ old)).foldl (fun d v => d.vfReset (v + 1) 1) d

/-- PF FLR and PCIe link-down (R393): R391 for every hoop, and the PF's function-level state. -/
def Device.pfReset (d : Device) : Device :=
  let d := (List.range 9).foldl (fun d f => d.clearFn f) d
  let d := (List.range 8).foldl (fun d h => d.resetHoop h 0 2) d
  let any_ := (List.range 8).any (fun h => d.resetting h)
  let d := d.wr Reg.PF_APERTURE_BASE 0 0
  { d with pcie := { d.pcie with vfEnable := false, numVfs := 0, ari := false, busMaster := 0, msixEnable := 0, funcMask := 0,
                                 bar2Gib := 64, vfBar4Gib := 64, entries := [], pend := [], mrrs := 512, aspm := 0, l0p := 0, flr := if any_ then 1 else 0 } }

/-- VF_FLR (R391). -/
def execVfFlr (vf : Nat) (s : State) : DevOut :=
  s.done (if 1 ≤ vf then s.dev.cfgReq vf (fun d => d.vfReset vf 0) else s.dev)

/-- VF_DISABLE: NumVFs falls so that the VF and those above it no longer exist (R380, R391). -/
def execVfDisable (vf : Nat) (s : State) : DevOut :=
  let d := s.dev
  s.done (if 1 ≤ vf && vf ≤ d.vfs then
    d.cfgReq 0 (fun d => Device.vfsGone { d with pcie := { d.pcie with vfEnable := vf != 1, numVfs := vf - 1 } } d.vfs)
  else d)

/-- PF_FLR (R393). -/
def execPfFlr (s : State) : DevOut := s.done (s.dev.cfgReq 0 (fun d => d.pfReset))

/-- PCIE_LINK_DOWN (R393, R396). -/
def execPcieLinkDown (s : State) : DevOut :=
  let d := s.dev
  s.done (if d.awake && d.pcie.up then
    let d := d.pfReset
    { d with pcie := { d.pcie with up := false, mps := 128, lanes := 0, rate := 0 }, flow := { d.flow with asks := [] } }
  else d)

/-- PCIE_LINK_UP (R393). -/
def execPcieLinkUp (s : State) : DevOut :=
  let d := s.dev
  s.done (if d.awake && !d.pcie.up then d.linkUp d.boot.starting else d)

/-- BUS_MASTER_ENABLE: vectors and management fetch of the function go on when it is set (R390, R409). -/
def execBusMasterEnable (fn : Nat) (on : Bool) (s : State) : DevOut :=
  let d := s.dev
  s.done (d.cfgReq fn (fun d =>
    let d := { d with pcie := { d.pcie with busMaster := setBit d.pcie.busMaster fn on } }
    (d.flushVectors fn).ringFetch fn))

end Sys2Proof.Machine
end

