-- ==== Sys2Proof/Machine/HoopParams.lean ====
section
/-! DEFINITION. The parameters of hoops (Table 16-5): their checks (R30, R39, R411), and how an assignment takes effect. -/

namespace Sys2Proof.Machine

/-- The hoops that exist, but one. -/
def Device.otherHoops (d : Device) (h : Nat) : List Nat := (List.range 8).filter (fun x => x != h && d.hoopState x != 0)

/-- The sum over other hoops of a quantity. -/
def Device.sumOthers (d : Device) (h : Nat) (f : Nat → Nat) : Nat := (d.otherHoops h).foldl (fun a x => a + f x) 0

/-- Klozar and power shares that a hoop will hold from the next tick (R30, R40). -/
def Device.linkNext (d : Device) (h : Nat) : Nat := ((d.hx h).linkPend).getD (d.rd Reg.HOOP_CFG_LINK_SHARE h)
def Device.powerNext (d : Device) (h : Nat) : Nat := ((d.hx h).powerPend).getD (d.rd Reg.HOOP_CFG_POWER_SHARE h)

/-- The bits of groups and clusters that lie on a die. -/
def onDie (clusters groups die : Nat) : Bool := bits clusters (8 * die + 7) (8 * die) != 0 || bits groups (12 * die + 11) (12 * die) != 0

/-- Whether two ranges meet. -/
def meets (a n b m : Nat) : Bool := n != 0 && m != 0 && a < b + m && b < a + n

/-- The lowest set bit. -/
def lowBit (w v : Nat) : Nat := (setBits w v).headD 0

/-- The checks of Table 16-5 and R30 for a hoop, by the offset of the field each concerns. -/
def Device.hoopChecks (d : Device) (h : Nat) (p : Bytes) : List (Nat × Bool) :=
  let f := fieldLe p
  let o := d.otherHoops h
  let clusters := f 0 4
  let groups := f 8 8
  let ways := fun die => f (16 + 2 * die) 2
  let used := Machine.setBits 4 (maskOf ((List.range 4).filter (fun die => onDie clusters groups die)))
  [(0, clusters != 0 && o.all (fun x => clusters &&& d.rd Reg.HOOP_CLUSTERS_CLUSTERS x == 0)),
   (4, zeroAt p 4 4),
   (8, groups != 0 && groups < 2 ^ 48 && o.all (fun x => groups &&& d.rd Reg.HOOP_CHGROUPS_GROUPS x == 0)),
   (16, used.all (fun die => ways die != 0) && (List.range 4).all (fun die => o.all (fun x => ways die &&& d.rd (Reg.HOOP_WAYS_WAYS die) x == 0))),
   (24, f 24 4 ≤ 65535),
   (28, f 28 4 ≤ 65536 && f 24 4 + f 28 4 ≤ 65536
     && o.all (fun x => !meets (f 24 4) (f 28 4) (d.rd Reg.HOOP_SESSIONS_BASE x) (d.rd Reg.HOOP_SESSIONS_COUNT x))),
   (32, f 32 4 ≤ f 28 4),
   (36, f 36 1 ≤ 128 && f 36 1 + d.sumOthers h (fun x => d.rd Reg.HOOP_CFG_SLOT_MIN x) ≤ 128)]
  ++ [(37, f 37 1 ≤ 127 && (f 37 1 == 0 || f 36 1 ≤ f 37 1)),
   (38, f 38 1 + d.sumOthers h d.linkNext ≤ 64),
   (39, f 39 1 + d.sumOthers h d.powerNext ≤ 64),
   (40, f 40 1 ≥ 1),
   (41, f 41 1 ≤ 1),
   (44, f 44 2 ≤ 16384 && f 44 2 + d.sumOthers h (fun x => d.rd Reg.HOOP_FENCES_FENCES x) ≤ 65536),
   (46, f 46 2 ≤ 16384 && f 46 2 + d.sumOthers h (fun x => d.rd Reg.HOOP_EVENTS_EVENTS x) ≤ 65536),
   (50, f 50 2 ≤ 8192),
   (52, f 52 2 ≤ 8191),
   (54, f 54 2 ≤ 8192 && f 52 2 + f 54 2 ≤ 8192
     && o.all (fun x => !meets (f 52 2) (f 54 2) (d.rd Reg.HOOP_CXL_BASE_GIB x) (d.rd Reg.HOOP_CXL_SIZE_GIB x))),
   (56, zeroAt p 56 8)]

/-- Whether the reserve fits its group (R259). -/
def Device.storeFits (d : Device) (p : Bytes) : Bool :=
  let g := lowBit 48 (fieldLe p 8 8)
  (fieldLe p 42 2 + 1) * 2 ^ 20 ≤ groupBytes d.ms - (if g = 47 then 2 ^ 20 else 0)

/-- An assignment takes effect: Table 2-1's resources now, the shares at the next tick (R39, R40). -/
def Device.assign (d : Device) (h : Nat) (p : Bytes) : Device :=
  let f := fieldLe p
  let w := fun (d : Device) (x : Fld × Nat) => d.wr x.1 h x.2
  let d := [(Reg.HOOP_CLUSTERS_CLUSTERS, f 0 4), (Reg.HOOP_CHGROUPS_GROUPS, f 8 8), (Reg.HOOP_SESSIONS_BASE, f 24 4),
    (Reg.HOOP_SESSIONS_COUNT, f 28 4), (Reg.HOOP_SESSIONS_QUOTA, f 32 4), (Reg.HOOP_CFG_SLOT_MIN, f 36 1),
    (Reg.HOOP_CFG_SLOT_MAX, f 37 1), (Reg.HOOP_CFG_WATCHDOG, f 40 1), (Reg.HOOP_CFG_DEP_MODEL, f 41 1),
    (Reg.HOOP_RECIPES_STORE_MIB, f 42 2)].foldl w d
  let d := [(Reg.HOOP_FENCES_FENCES, f 44 2), (Reg.HOOP_EVENTS_EVENTS, f 46 2), (Reg.HOOP_MEMQ_HBM_QUOTA, f 48 2),
    (Reg.HOOP_MEMQ_CXL_QUOTA, f 50 2), (Reg.HOOP_CXL_BASE_GIB, f 52 2), (Reg.HOOP_CXL_SIZE_GIB, f 54 2)].foldl w d
  let d := (List.range 4).foldl (fun d die => d.setWays h die (f (16 + 2 * die) 2)) d
  d.setHx h { d.hx h with linkPend := some (f 38 1), powerPend := some (f 39 1) }

/-- The owner of the cores of clusters, as CORE_CURD shows it (R236). -/
def Device.ownCores (d : Device) (clusters h : Nat) : Device :=
  (List.range 256).foldl (fun d k => if clusters.testBit (coreCluster k) then d.wr Reg.CORE_CURD_HOOP k h else d) d

/-- HOOP_CREATE (R30, R36, R259, R269). -/
def Device.hoopCreate (d : Device) (h : Nat) (p : Bytes) : MRes :=
  match firstBad (d.hoopChecks h p) with
  | some o => .refuse 3 o
  | none =>
    if !d.storeFits p then .refuse 3 42
    else
      let d := (d.clearRegs Reg.hoopTable h []).setHx h {}
      let d := (((d.setHstat h d.newHstat).assign h p).ownCores (fieldLe p 0 4) h).wr Reg.HOOP_CFG_HOOP h h
      let d := d.wr Reg.HOOP_CHGROUPS_RESERVE_GROUP h (lowBit 48 (fieldLe p 8 8))
      let d := d.ownWrite 4 9 (d.tableAddr h) (List.replicate 1600 0)
      .done (d.wr Reg.HOOP_CFG_STATE h 2) 0 []

/-- Whether bytes of an HBM3E segment of a hoop, its session pool among them, lie on given channel groups (R39). -/
def Device.groupsInUse (d : Device) (h groups : Nat) : Bool :=
  (List.range 16).any (fun s => let x := d.segOwn h s; x.valid && !x.sro && x.tier == 0 && x.groups &&& groups != 0)

/-- Whether what a HOOP_RESIZE removes is in use (R39, R259). -/
def Device.removedInUse (d : Device) (h : Nat) (p : Bytes) : Bool :=
  let rc := without (d.rd Reg.HOOP_CLUSTERS_CLUSTERS h) (fieldLe p 0 4)
  let rg := without (d.rd Reg.HOOP_CHGROUPS_GROUPS h) (fieldLe p 8 8)
  (rc != 0 && (d.slotsOf h != 0 || d.cores.any (fun (x : Nat × Core) => rc.testBit (coreCluster x.1) && !x.2.blocks.isEmpty)))
  || rg.testBit (d.rd Reg.HOOP_CHGROUPS_RESERVE_GROUP h) || d.groupsInUse h rg
  || d.flow.sessions.any (fun (x : Nat × Sess) => x.2.state != 0 && d.sessIn h x.1 && !(fieldLe p 24 4 ≤ x.1 && x.1 < fieldLe p 24 4 + fieldLe p 28 4))

/-- HOOP_RESIZE (R30, R31, R39, R40, R411). -/
def Device.hoopResize (d : Device) (h : Nat) (p : Bytes) : MRes :=
  let same : List (Nat × Bool) := [(41, fieldLe p 41 1 == d.rd Reg.HOOP_CFG_DEP_MODEL h), (42, fieldLe p 42 2 == d.rd Reg.HOOP_RECIPES_STORE_MIB h),
    (44, fieldLe p 44 2 == d.rd Reg.HOOP_FENCES_FENCES h), (46, fieldLe p 46 2 == d.rd Reg.HOOP_EVENTS_EVENTS h)]
  let bad := ((d.hoopChecks h p ++ same).filter (fun x => !x.2)).map (·.1)
  match minOf bad with
  | some o => .refuse 3 o
  | none =>
    if d.removedInUse h p then .refuse 0x100 0
    else
      let rc := without (d.rd Reg.HOOP_CLUSTERS_CLUSTERS h) (fieldLe p 0 4)
      let rg := without (d.rd Reg.HOOP_CHGROUPS_GROUPS h) (fieldLe p 8 8)
      let d := ((((d.assign h p).ownCores rc 0).ownCores (fieldLe p 0 4) h).zeroGroups rg).zeroClusters rc
      .done (((d.emptyL1 (fieldLe p 0 4)).overQuota h).claimHoop h) 0 []

/-- HOOP_DESTROY (R31, R37, R265). -/
def Device.hoopDestroy (d : Device) (h : Nat) : MRes :=
  let named := (d.otherHoops h).any (fun x => (List.range 16).any (fun s => let y := d.segOwn x s; y.valid && y.sro && y.owner == h))
  if h = 0 then .refuse 3 0
  else if d.work.queues.any (fun (x : Nat × Queue) => x.2.state != 0 && x.2.hoop == h) || named then .refuse 0x100 0
  else
    let d := (d.wr Reg.HOOP_CFG_STATE h 4).wr Reg.HOOP_CFG_TABLES_LOCK h 0
    .wait (d.setHx h { d.hx h with purpose := 1 }) 3 0 0 []

/-- The first bytes of a hoop window (HOOP_QUERY). -/
def Device.windowBytes (d : Device) (h n : Nat) : Bytes :=
  Reg.hoopTable.foldl (fun b (g : RegD) =>
    let o := g.base - 0x100000
    if o + g.bits / 8 ≤ n then splice b o (le (g.bits / 8) (g.word d.regs h)) else b) (List.replicate n 0)

/-! Commands -/

/-- MGMT_NOP. -/
def execMgmtNop (h : MHdr) (p : Bytes) (s : State) : DevOut :=
  s.done (s.dev.mgmt (mspec 0x00) h p (fun d => .done d 0 []))

/-- HOOP_CREATE. -/
def execHoopCreate (h : MHdr) (p : Bytes) (s : State) : DevOut :=
  s.done (s.dev.mgmt (mspec 0x01) h p (fun d => d.hoopCreate h.hoop p))

/-- HOOP_RESIZE. -/
def execHoopResize (h : MHdr) (p : Bytes) (s : State) : DevOut :=
  s.done (s.dev.mgmt (mspec 0x02) h p (fun d => d.hoopResize h.hoop p))

/-- HOOP_DESTROY. -/
def execHoopDestroy (h : MHdr) (p : Bytes) (s : State) : DevOut :=
  s.done (s.dev.mgmt (mspec 0x03) h p (fun d => d.hoopDestroy h.hoop))

/-- HOOP_QUERY. -/
def execHoopQuery (h : MHdr) (p : Bytes) (s : State) : DevOut :=
  s.done (s.dev.mgmt (mspec 0x04) h p (fun d => .done d 0 (d.windowBytes h.hoop 256)))

end Sys2Proof.Machine
end

