-- ==== Sys2Proof/Machine/MgmtSeg.lean ====
section
/-! DEFINITION. The management commands of segments and windows (R260 to R275). -/

namespace Sys2Proof.Machine

/-- Whether the reserved fields of a segment descriptor are 0 and its TIER is not 3 (Table 10-2). -/
def segReserved (b : Bytes) : Bool :=
  bits (fieldLe b 0 2) 15 10 == 0 && (parseSeg b).tier != 3 && !(fieldLe b 3 1).testBit 3 && zeroAt b 4 4

/-- Whether LIMIT is in range (Table 10-2). -/
def limitOk (n : Nat) : Bool := n % 4096 == 0 && 4096 ≤ n && n ≤ 2 ^ 44

/-- The rules of R261 for an HBM3E segment. -/
def Device.hbmSegOk (d : Device) (h : Nat) (s : Seg) (b : Bytes) : Bool :=
  let k := popcount 48 s.groups
  let top := s.base + s.limit / k
  let rg := d.rd Reg.HOOP_CHGROUPS_RESERVE_GROUP h
  12 ≤ s.ilv && s.ilv ≤ 21 && fieldLe b 3 1 == 0 && s.groups != 0 && without s.groups (d.rd Reg.HOOP_CHGROUPS_GROUPS h) == 0
  && s.base % 2 ^ 21 == 0 && limitOk s.limit && s.limit % (k * 2 ^ s.ilv) == 0 && top ≤ groupBytes d.ms
  && !(s.groups.testBit rg && s.base < (d.rd Reg.HOOP_RECIPES_STORE_MIB h + 1) * 2 ^ 20)
  && !(s.groups.testBit 47 && groupBytes d.ms - 2 ^ 20 < top)

/-- The rules of R261 for a CXL segment, and for a host segment. -/
def Device.farSegOk (d : Device) (h : Nat) (s : Seg) (b : Bytes) : Bool :=
  let lo := d.rd Reg.HOOP_CXL_BASE_GIB h * 2 ^ 30
  s.ilv == 0 && fieldLe b 3 1 == 0 && s.groups == 0 && limitOk s.limit && !s.perm.testBit 6
  && (if s.tier = 1 then s.base % 2 ^ 21 == 0 && lo ≤ s.base && s.base + s.limit ≤ lo + d.rd Reg.HOOP_CXL_SIZE_GIB h * 2 ^ 30
      else s.base % 4096 == 0 && !s.perm.testBit 7)

/-- The rules of R265 for an SRO descriptor. -/
def Device.sroOk (d : Device) (h : Nat) (s : Seg) : Bool :=
  let o := d.segOwn s.owner s.oseg
  s.tier == 0 && s.ilv == 0 && s.base == 0 && s.limit == 0 && s.groups == 0 && !s.perm.testBit 4 && !s.perm.testBit 5 && !s.share
  && s.owner != h && d.hoopState s.owner != 0 && o.valid && o.share && !o.sro && o.tier ≤ 1

/-- Whether a segment descriptor keeps R261 and R265. -/
def Device.segOk (d : Device) (h : Nat) (b : Bytes) : Bool :=
  let s := parseSeg b
  segReserved b && (!s.valid || (if s.sro then d.sroOk h s else if s.tier = 0 then d.hbmSegOk h s b else d.farSegOk h s b))

/-- The conditions of R271 and R305 under which a descriptor cannot change now. -/
def Device.segBusy (d : Device) (h slot : Nat) (b : Bytes) : Bool :=
  let o := d.segOwn h slot
  let s := parseSeg b
  let held := d.heldIn h slot
  let lose := fun n => o.perm.testBit n && !s.perm.testBit n
  (!held.isEmpty && (!s.valid || s.sro != o.sro || s.tier != o.tier || s.base != o.base || s.ilv != o.ilv || s.groups != o.groups
    || (s.limit < o.limit && held.any (fun r => s.limit < r.1 + r.2)) || lose 3 || lose 4))
  || (d.hx h).flipSlots.contains slot
  || (d.otherHoops h).any (fun x => (List.range 16).any (fun i => let y := d.segOwn x i; y.valid && y.sro && y.owner == h && y.oseg == slot))
  || (d.isSessionSeg h slot && b != d.segBytes h slot)

/-- The total size of a hoop's segments in a tier, with a descriptor taken for one slot (R40, R265). -/
def Device.tierUse (d : Device) (h tier slot : Nat) (b : Bytes) : Nat :=
  (List.range 16).foldl (fun n i =>
    let s := if i = slot then parseSeg b else d.segOwn h i
    if s.valid && !s.sro && s.tier == tier then n + s.limit else n) 0

/-- Whether a descriptor raises the hoop's use of a tier above its quota (R40). -/
def Device.segOver (d : Device) (h slot : Nat) (b : Bytes) : Bool :=
  let above := fun (tier quota : Nat) =>
    let new := d.tierUse h tier slot b
    d.tierUse h tier slot (d.segBytes h slot) < new && quota * 2 ^ 30 < new
  above 0 (d.rd Reg.HOOP_MEMQ_HBM_QUOTA h) || above 1 (d.rd Reg.HOOP_MEMQ_CXL_QUOTA h)

/-- Whether a window descriptor keeps R275 and its reserved fields are 0 (R261). -/
def Device.winOk (d : Device) (h : Nat) (b : Bytes) : Bool :=
  let f := fieldLe b 0 2
  let w := parseWin b
  let s := d.segOwn h w.seg
  bits f 2 1 == 0 && bits f 15 6 == 0 && bits (fieldLe b 2 1) 7 4 == 0 && zeroAt b 3 5 && zeroAt b 24 8
  && (!w.valid || (s.valid && s.tier != 2 && !s.sro && w.base % 4096 == 0 && w.limit % 4096 == 0 && 4096 ≤ w.limit && w.base + w.limit ≤ s.limit))

/-- The length of a KIND's content (R270). -/
def kindLen (k : Nat) : Nat := match k with
  | 2 => 64
  | 3 => 512
  | _ => 32

/-- Checks of SEGMENT_WRITE (R261, R265, R270, R271, R275): status and DETAIL of the first that fails. -/
def Device.segCheck (d : Device) (h : MHdr) (p : Bytes) : Option (Nat × Nat) :=
  let kind := fieldLe p 0 1
  let i := fieldLe p 1 1
  let b := p.drop 8
  match firstBad [(0, kind ≤ 3 && p.length == 8 + kindLen kind), (1, if kind ≤ 1 then i ≤ 15 else i == 0), (2, zeroAt p 2 6)] with
  | some o => some (3, o)
  | none =>
    if h.ring ≠ 0 ∧ (kind ≥ 2 ∨ (kind = 0 ∧ ((parseSeg b).sro || (parseSeg b).share))) then some (0x101, 0)
    else match kind with
      | 0 => if !d.segOk h.hoop b then some (3, 8)
          else if d.segBusy h.hoop i b then some (0x100, 0)
          else if d.segOver h.hoop i b then some (8, 0) else none
      | 1 => if !d.winOk h.hoop b then some (3, 8)
          else if (parseWin b).valid ∧ (d.isSessionSeg h.hoop (parseWin b).seg || (d.hx h.hoop).flipSlots.contains (parseWin b).seg) then some (0x100, 0)
          else none
      | 2 =>
        let job := fieldLe b 0 2
        if !zeroAt b 2 62 then some (3, 10)
        else if job ≠ 0 ∧ (d.otherHoops h.hoop).any (fun x => d.rd Reg.HOOP_REMOTE_JOB x == job) then some (3, 8) else none
      | _ => none

/-- Where a KIND's content lies in the table (Table 10-5). -/
def kindOff (kind i : Nat) : Nat := match kind with
  | 0 => 32 * i
  | 1 => 512 + 32 * i
  | 2 => 1024
  | _ => 1088

/-- Steps 4 and 5 of R270: the device copy, GEN, the registers of R277 that show it, and the buffers. -/
def Device.segInstall (d : Device) (h kind i : Nat) (b : Bytes) : Device :=
  let d := d.dropBuffers h (fun n => if kind = 0 then n == i else if kind = 1 then n == 16 + i else n ≥ 16)
  let d := (d.ownWrite 4 9 (d.tableAddr h + kindOff kind i) b).count Reg.HOOP_SEGS_GEN h
  let v := b2n ((fieldLe b 0 1).testBit 0) == 1
  match kind with
  | 0 =>
    let d := d.wr Reg.HOOP_SEGS_SEG_VALID h (setBit (d.rd Reg.HOOP_SEGS_SEG_VALID h) i v)
    let d := d.wr Reg.HOOP_MEMQ_HBM_USE h (cdiv (d.tierUse h 0 i b) (2 ^ 30))
    (d.wr Reg.HOOP_MEMQ_CXL_USE h (cdiv (d.tierUse h 1 i b) (2 ^ 30))).overQuota h
  | 1 => d.wr Reg.HOOP_SEGS_WIN_VALID h (setBit (d.rd Reg.HOOP_SEGS_WIN_VALID h) i v)
  | 2 => d.wr Reg.HOOP_REMOTE_JOB h (fieldLe b 0 2)
  | _ => d.wr Reg.HOOP_REMOTE_SLICE_CHIPS h ((b.map (fun x => popcount 8 x.toNat)).foldl (· + ·) 0)

/-- The hoop that a host read serves. -/
def Device.readHoop (d : Device) (r : HRead) : Option Nat :=
  match r.kind with
  | 0 => some (d.coreHoop r.a)
  | 3 => some (d.coreHoop r.a)
  | 9 => some (d.coreHoop r.a)
  | 10 => some (((Tab.find? (d.core r.a).upds r.b).map (fun (u : UpdOp) => u.hoop)).getD 0)
  | 11 => some (d.coreHoop r.a)
  | 1 => some (d.queue r.a).hoop
  | 2 => (d.desc? r.a).map (fun x => x.hoop)
  | 4 => none
  | 7 => some r.b
  | 8 => some (r.a / 16)
  | _ => some (d.queue r.a).hoop

/-- Whether accesses that were translated through what a SEGMENT_WRITE replaces are still in flight (step 3 of R270): for a segment, reads of its host
range, bytes that engines hold, drains that go to it, and SMUPDs of its arrays; for the header and the slice bitmap, the hoop's remote requests. -/
def Device.inFlight (d : Device) (w : MPend) : Bool :=
  let h := w.hdr.hoop
  let s := d.seg h w.b
  let inHost := fun (a : Nat) => s.tier == 2 && s.base ≤ a && a < s.base + s.limit
  let inSeg := fun (x : WcBuf) => if x.host then inHost (x.line * 128) else (s.offsetOf (x.line * 128)).isSome
  let inOut := fun (p : OutPiece) => if p.host then inHost p.a else (s.offsetOf p.a).isSome
  let updates := fun (c : Core) => c.upds.any (fun (x : Nat × UpdOp) =>
    let u := parseUpd x.2.desc
    x.2.hoop == h && ([u.hi, u.lo, u.grad, u.hiOut] ++ (if u.s1 then [u.a1] else []) ++ (if u.s2 then [u.a2] else [])).any
      (fun a => d.slotOf h x.2.map (bits a 47 44) == w.b))
  let drains := fun (c : Core) => match c.kernel.bind d.kernel? with
    | some k => k.hoop == h && c.press.ops.any (fun o => o.kind == 3 && o.global && d.slotOf h k.map (bits o.b 47 44) == w.b)
    | none => false
  if w.a = 0 then
    d.flow.reads.any (fun (x : Nat × HRead) => d.readHoop x.2 == some h && inHost x.2.addr)
    || d.flow.engines.any (fun (e : Nat × Engine) => e.2.wc.any (fun y => y.hoop == h && inSeg y))
    || d.flow.descs.any (fun (x : Nat × Desc) => x.2.hoop == h && x.2.out.any inOut)
    || d.cores.any (fun (x : Nat × Core) => drains x.2 || updates x.2)
  else w.a ≥ 2 && d.klz.remotes.any (fun (x : Nat × Remote) => x.2.hoop == h && x.2.kind != 3)

/-- SEGMENT_WRITE. -/
def execSegmentWrite (h : MHdr) (p : Bytes) (s : State) : DevOut :=
  s.done (s.dev.mgmt (mspec 0x18) h p (fun d =>
    match d.segCheck h p with
    | some (st, o) => .refuse st o
    | none => .wait d 1 (fieldLe p 0 1) (fieldLe p 1 1) (p.drop 8)))

/-- SEGMENT_CHECK (R272). -/
def execSegmentCheck (h : MHdr) (p : Bytes) (s : State) : DevOut :=
  s.done (s.dev.mgmt (mspec 0x19) h p (fun d =>
    let d := d.ownRead 4 9 (d.tableAddr h.hoop) 1600
    match d.readDev (d.tableAddr h.hoop) 1600 with
    | some b => .done d (d.rd Reg.HOOP_SEGS_GEN h.hoop) (digestBytes (Config.sha384 b))
    | none => .refuse 0xA 0))

end Sys2Proof.Machine
end

