-- ==== Sys2Proof/Machine/MgmtMem.lean ====
section
/-! DEFINITION. The management commands of pools, sessions, recipes, receive queues and routes (R78 to R81, R303 to R309, R355, R373). -/

namespace Sys2Proof.Machine

/-! Pools -/

/-- Whether a segment may be a pool (R304). -/
def Device.poolSegOk (d : Device) (h slot tier : Nat) : Bool :=
  let s := d.segOwn h slot
  slot < 16 && s.valid && s.tier == tier && s.perm.testBit 3 && s.perm.testBit 4 && !s.sro && !s.share && !d.exposed h slot

/-- The parameters of KV_POOL_SET: segments, block size, blocks. -/
def Device.poolChecks (d : Device) (h : Nat) (p : Bytes) : List (Nat × Bool) :=
  let f := fieldLe p
  let n := f 2 1
  let first := roundUp (cdiv (f 4 4) 8 + cdiv (f 8 4) 8) (2 ^ n)
  [(0, f 4 4 == 0 || d.poolSegOk h (f 0 1) 0), (1, f 8 4 == 0 || d.poolSegOk h (f 1 1) 1), (2, 16 ≤ n && n ≤ 24), (3, f 3 1 == 0),
   (4, f 4 4 == 0 || (f 4 4 < 2 ^ 28 && first + f 4 4 * 2 ^ n ≤ (d.segOwn h (f 0 1)).limit)),
   (8, f 8 4 == 0 || (f 4 4 != 0 && f 8 4 ≤ 2 ^ 27 && f 8 4 * 2 ^ n ≤ (d.segOwn h (f 1 1)).limit))]

/-- KV_POOL_SET (R304): the bitmap is 0, the registers of R322 are loaded; the slots of a flip are protected (R339). -/
def Device.kvPoolSet (d : Device) (h : Nat) (p : Bytes) : MRes :=
  let f := fieldLe p
  let flips := fun (blocks slot : Nat) => blocks != 0 && (d.hx h).flipSlots.contains slot
  if d.flow.sessions.any (fun (x : Nat × Sess) => x.2.state != 0 && d.sessIn h x.1) || flips (f 4 4) (f 0 1) || flips (f 8 4) (f 1 1) then .refuse 0x100 0
  else match firstBad (d.poolChecks h p) with
    | some o => .refuse 3 o
    | none =>
      let s := d.segOwn h (f 0 1)
      let n := cdiv (f 4 4) 8 + cdiv (f 8 4) 8
      let inMap := fun a => match s.offsetOf a with
        | some o => o < n
        | none => false
      let d := if f 4 4 = 0 then d else
        { d with mem := d.mem.clear inMap, bad := d.bad.filter (fun u => !(inMap (u * 32) && inMap (u * 32 + 31))) }
      let d := [(Reg.HOOP_KVPOOL_HBM_VALID, b2n (f 4 4 != 0)), (Reg.HOOP_KVPOOL_HBM_SEG, f 0 1), (Reg.HOOP_KVPOOL_HBM_BLOCK_LOG2, f 2 1),
        (Reg.HOOP_KVPOOL_HBM_BLOCKS, f 4 4), (Reg.HOOP_KVPOOL_CXL_VALID, b2n (f 8 4 != 0)), (Reg.HOOP_KVPOOL_CXL_SEG, f 1 1),
        (Reg.HOOP_KVPOOL_CXL_BLOCK_LOG2, f 2 1), (Reg.HOOP_KVPOOL_CXL_BLOCKS, f 8 4), (Reg.HOOP_KVFREE_HBM_FREE, f 4 4),
        (Reg.HOOP_KVFREE_CXL_FREE, f 8 4)].foldl (fun (d : Device) (x : Fld × Nat) => d.wr x.1 h x.2) d
      .done d 0 []

/-! Sessions -/

/-- A handle that a command gives a new object: it lies in the table and its TYPE is 0 (R78, R307). -/
def Device.handleFree (d : Device) (h handle : Nat) : Option Nat :=
  match d.objRead h handle with
  | .ok (_, t, _) => if t = 0 then none else some 3
  | .error e => if e = 0xA then some 0xA else some 3

/-- The checks of R307 step 1, beyond HANDLE. -/
def Device.allocChecks (d : Device) (h : Nat) (p : Bytes) : List (Nat × Bool) :=
  let f := fieldLe p
  let s := d.hbmPool h
  [(0, d.rd Reg.HOOP_KVPOOL_HBM_VALID h == 1), (4, f 4 1 == d.rd Reg.HOOP_KVPOOL_HBM_BLOCK_LOG2 h), (5, f 5 1 == 0), (6, f 6 2 ≥ 1),
   (8, f 8 4 ≥ 16 && f 8 4 % 16 == 0 && f 6 2 * f 8 4 ≤ 2 ^ f 4 1), (12, 1 ≤ f 12 4 && f 12 4 ≤ 16777216),
   (16, f 16 8 % 8 == 0 && d.listArea h ≤ f 16 8 && f 16 8 + 8 * cdiv (f 12 4) (f 6 2) ≤ s.limit)]

/-- SESSION_ALLOC (R307): its blocks are growth, which R308 refuses while OVER_QUOTA is 1. -/
def Device.sessionAlloc (d : Device) (h : Nat) (p : Bytes) : MRes :=
  let f := fieldLe p
  if d.rd Reg.HOOP_CFG_TABLES_LOCK h = 0 then .refuse 0x100 0
  else
    let d := d.objSeen h (f 0 4)
    match d.handleFree h (f 0 4), firstBad (d.allocChecks h p) with
    | some st, _ => .refuse st 0
    | none, some o => .refuse 3 o
    | none, none =>
      let need := cdiv (Nat.min (f 12 4) 4096) (f 6 2)
      if d.rd Reg.HOOP_STATUS_OVER_QUOTA h = 1 ∨ d.rd Reg.HOOP_SESSIONS_QUOTA h ≤ d.rd Reg.HOOP_KVUSE_LIVE h ∨ d.rd Reg.HOOP_KVFREE_HBM_FREE h < need then .refuse 8 0
      else match Tab.lowestFree d.flow.sessions (d.rd Reg.HOOP_SESSIONS_BASE h) (d.rd Reg.HOOP_SESSIONS_COUNT h) with
        | none => .refuse 0x100 0
        | some i =>
          let d := d.setSess i { state := 1, hoop := h, bsize := f 4 1, tpb := f 6 2, record := f 8 4, blist := f 16 8, maxlen := f 12 4,
                                 handle := f 0 4 }
          match d.growSess i need with
          | .error o => .fail ((d.setSess i {}).poolError h o 1) 0xA
          | .ok d => .done ((((d.objWrite h (f 0 4) 1 3 i).count Reg.HOOP_KVUSE_LIVE h)).overQuota h) i []

/-- SESSION_FREE (R309). -/
def Device.sessionFree (d : Device) (h : Nat) (p : Bytes) : MRes :=
  let x := fieldLe p 0 4
  let d := d.objSeen h x
  match d.objRead h x with
  | .error e => .refuse (if e = 4 then 4 else if e = 0xA then 0xA else 3) 0
  | .ok (_, t, _) => if t ≠ 3 then .refuse 3 0 else .done (d.objSub h 0xFFFF 1025 x) 0 []

/-- SESSION_INFO (R302, R320). -/
def Device.sessionInfo (d : Device) (h : Nat) (p : Bytes) : MRes :=
  let i := fieldLe p 0 4
  let d := d.sessMet h i
  if d.sessIn h i then .done d 0 (d.sess i).bytes else .refuse 3 0

/-! Recipes -/

/-- The header fields of a recipe binary (Table 3-9). -/
structure RHead where
  nodes : Nat
  edges : Nat
  patches : Nat
  objects : Nat
  nodeOff : Nat
  edgeOff : Nat
  patchOff : Nat
  objOff : Nat
  paramLen : Nat
  total : Nat
  deriving DecidableEq, Repr

def parseRHead (b : Bytes) : RHead :=
  let f := fun o => fieldLe b o 4
  ⟨f 8, f 12, f 16, f 20, f 24, f 28, f 32, f 36, f 40, f 44⟩

/-- The tables of a binary as ranges, the header first. -/
def RHead.ranges (r : RHead) : List (Nat × Nat) :=
  [(0, 64), (r.nodeOff, 64 * r.nodes), (r.edgeOff, 4 * r.edges), (r.patchOff, 8 * r.patches), (r.objOff, 4 * r.objects)]

/-- Whether no two ranges of a list meet. -/
def apart : List (Nat × Nat) → Bool
  | [] => true
  | x :: t => t.all (fun y => !meets x.1 x.2 y.1 y.2) && apart t

/-- The rules of R79. -/
def RHead.ok (r : RHead) (b : Bytes) (length : Nat) : Bool :=
  fieldLe b 0 4 == 0x52435048 && fieldLe b 4 2 == 1 && zeroAt b 6 2 && zeroAt b 48 16
  && 1 ≤ r.nodes && r.nodes ≤ 4096 && r.edges ≤ 16384 && r.patches ≤ 4096 && r.objects ≤ 1024
  && r.nodeOff % 64 == 0 && r.edgeOff % 4 == 0 && r.patchOff % 8 == 0 && r.objOff % 4 == 0
  && r.paramLen ≤ 4096 && r.paramLen % 8 == 0 && r.total ≤ 364608 && r.total == length
  && r.ranges.all (fun x => x.1 + x.2 ≤ r.total) && apart r.ranges

/-- The edges of a binary. -/
def RHead.edgeList (r : RHead) (b : Bytes) : List Nat := (List.range r.edges).map (fun i => fieldLe b (r.edgeOff + 4 * i) 4)

/-- A stored node from its 64 bytes (R80), with whether its fields are in range. -/
def RHead.node (r : RHead) (b : Bytes) (edges : List Nat) (n : Nat) : RNode × Bool :=
  let o := r.nodeOff + 64 * n
  let f := fun x k => fieldLe b (o + x) k
  ({ type := f 0 1, early := (f 1 1).testBit 0, inDeg := f 2 2, succ := (edges.drop (f 4 4)).take (f 8 2), params := slice b (o + 16) 24 },
   1 ≤ f 0 1 && f 0 1 ≤ 6 && f 1 1 ≤ 1 && (f 1 1 == 0 || f 0 1 == 1) && zeroAt b (o + 10) 6 && zeroAt b (o + 40) 24 && f 4 4 + f 8 2 ≤ r.edges)

/-- A patch from its 8 bytes (R81), with whether it is in range. -/
def RHead.patch (r : RHead) (b : Bytes) (i : Nat) : RPatch × Bool :=
  let f := fun x k => fieldLe b (r.patchOff + 8 * i + x) k
  (⟨f 0 2, f 2 1, f 3 1, f 4 2⟩,
   f 0 2 < r.nodes && f 2 1 % 4 == 0 && (f 3 1 == 4 || f 3 1 == 8) && f 2 1 + f 3 1 ≤ 24 && 8 * f 4 2 + f 3 1 ≤ r.paramLen && zeroAt b (r.patchOff + 8 * i + 6) 2)

/-- Whether a graph has no cycle: nodes that no other node left names are taken away until none is left; the fuel is their number. -/
def acyclic (succ : Nat → List Nat) : Nat → List Nat → Bool
  | 0, l => l.isEmpty
  | fuel + 1, l =>
    let named := l.flatMap succ
    let rest := l.filter (fun n => named.contains n)
    if rest.length = l.length then l.isEmpty else acyclic succ fuel rest

/-- A valid recipe from its binary (R79 to R81), in a hoop of the event model or not. -/
def parseRecipe (b : Bytes) (length : Nat) (event : Bool) : Option Recipe :=
  let r := parseRHead b
  if !r.ok b length then none
  else
    let edges := r.edgeList b
    let nodes := (List.range r.nodes).map (r.node b edges)
    let patches := (List.range r.patches).map (r.patch b)
    let succ := fun n => ((nodes.drop n).head?.map (fun x => x.1.succ)).getD []
    let all := nodes.flatMap (fun x => x.1.succ)
    let typeOk := fun t => if t = 3 ∨ t = 4 then !event else if t = 5 ∨ t = 6 then event else true
    if edges.all (fun e => e < r.nodes) && nodes.all (fun x => x.2 && x.1.succ.eraseDups.length == x.1.succ.length && typeOk x.1.type)
        && patches.all (fun x => x.2) && (nodes.mapIdx (fun n x => x.1.inDeg == all.count n)).all (fun x => x)
        && acyclic succ r.nodes (List.range r.nodes) then
      some ⟨nodes.map (·.1), patches.map (·.1), (List.range r.objects).map (fun i => fieldLe b (r.objOff + 4 * i) 4), r.paramLen, r.total, []⟩
    else none

/-- The lowest `n` bytes of a store that no part holds: the parts they make, rising. The fuel is the number of parts and one. -/
def freeParts (held : List (Nat × Nat)) : Nat → Nat → Nat → List (Nat × Nat)
  | 0, _, _ => []
  | fuel + 1, at_, n =>
    if n = 0 then []
    else
      let next := (held.filter (fun p => at_ ≤ p.1)).foldl (fun (b : Option (Nat × Nat)) p => match b with
        | none => some p
        | some y => if p.1 < y.1 then some p else b) none
      match next with
      | none => [(at_, n)]
      | some p =>
        let m := Nat.min n (p.1 - at_)
        (if m = 0 then [] else [(at_, m)]) ++ freeParts held fuel (p.1 + p.2) (n - m)

/-- Copy a binary into parts of a hoop's recipe store, which lies at 1 MiB of its reserve (R78, R259). -/
def Device.storeWrite (d : Device) (h : Nat) (b : Bytes) (parts : List (Nat × Nat)) : Device :=
  ((d.recipeRuns h parts).foldl (fun (m : Device × Nat) p => (m.1.ownWrite 4 9 p.1 (slice b m.2 p.2), m.2 + p.2)) (d, 0)).1

/-- RECIPE_LOAD once its binary is at hand (R78). DESIGN CHOICE (log entry 24): the binary takes the lowest free bytes of the store, and the recipe the
lowest free index; the manual names neither. -/
def Device.recipeStore (d : Device) (h handle length : Nat) (b : Bytes) : MRes :=
  match parseRecipe b length (d.rd Reg.HOOP_CFG_DEP_MODEL h == 1) with
  | none => .refuse 3 8
  | some r =>
    let d := (handle :: r.objects).foldl (fun d x => d.objSeen h x) d
    match d.handleFree h handle, r.objects.findSome? (fun x => d.objCheck h x) with
    | some st, _ => .refuse st 0
    | none, some st => .refuse (if st = 0xB then 3 else st) 8
    | none, none =>
      let used := (d.work.recipes.filter (fun (x : Nat × Recipe) => x.1 / 1024 == h)).foldl (fun n (x : Nat × Recipe) => n + x.2.size) 0
      match (List.range 1024).find? (fun i => (d.recipe? h i).isNone) with
      | none => .refuse 8 0
      | some i =>
        if d.rd Reg.HOOP_RECIPES_STORE_MIB h * 2 ^ 20 < used + r.size then .refuse 8 0
        else
          let held := (d.work.recipes.filter (fun (x : Nat × Recipe) => x.1 / 1024 == h)).flatMap (fun (x : Nat × Recipe) => x.2.parts)
          let r := { r with parts := freeParts held (held.length + 1) 0 r.size }
          let d := (r.objects.foldl (fun d x => d.objAdd h x) d).storeWrite h b r.parts
          let d := { d with work := { d.work with recipes := Tab.insert d.work.recipes (h * 1024 + i) r } }
          .done ((d.objWrite h handle 1 2 i).count Reg.HOOP_RECIPES_LOADED h) i []

/-- RECIPE_LOAD (R78): the binary is read, by PCIe where it lies in the host tier. -/
def Device.recipeLoad (d : Device) (h : MHdr) (p : Bytes) : MRes :=
  let f := fieldLe p
  if d.rd Reg.HOOP_CFG_TABLES_LOCK h.hoop = 0 then .refuse 0x100 0
  else if f 4 4 < 64 ∨ 364608 < f 4 4 then .refuse 3 4
  else
    let d := d.seenVa h.hoop (f 8 8) (f 4 4)
    match d.readVa h.hoop (f 8 8) (f 4 4) with
    | .ok b => d.recipeStore h.hoop (f 0 4) (f 4 4) b
    | .error e =>
      if e = 0xA then .refuse 0xA 0
      else if e ≠ hostTier then .refuse 3 8
      else
        let fn := d.ownerFn h.hoop
        let s := d.seg h.hoop (d.slotOf h.hoop (d.curMap h.hoop) (bits (f 8 8) 47 44))
        if !d.mayMaster fn then .refuse 0xA 0
        else .wait (d.openRead { kind := 7, a := h.ring, b := h.hoop, c := 0, fn := fn, addr := s.base + f 8 8 % 2 ^ 44 } (f 4 4)) 6 (f 0 4) (f 4 4) []

/-- The binary of a RECIPE_LOAD comes from the host. -/
def Device.recipeArrived (d : Device) (ring : Nat) (come : Except Nat Bytes) : Device :=
  match d.boot.waits.find? (fun w => w.wait == 6 && w.hdr.ring == ring) with
  | none => d
  | some w =>
    match come with
    | .error _ => d.endWait w 0xA 0
    | .ok b => match d.recipeStore w.hdr.hoop w.a w.b b with
      | .done d r _ => d.endWait w 0 r
      | .refuse st o => (d.setBoot { d.boot with waits := d.boot.waits.erase w }).reply w.hdr w.opcode st (if st = 3 then o else 0) 0 []
      | .fail d st => d.endWait w st 0
      | .wait d _ _ _ _ => d

/-! Receive queues and routes -/

/-- The checks of RXQ_CONFIG (R355). -/
def Device.rxqChecks (d : Device) (h : Nat) (p : Bytes) : List (Nat × Bool) :=
  let f := fieldLe p
  let range := fun (va n : Nat) (hbm : Bool) =>
    let slot := d.slotOf h (d.curMap h) (bits va 47 44)
    let s := d.seg h slot
    va < 2 ^ 48 && s.valid && s.perm.testBit 4 && (!hbm || s.tier == 0) && va % 2 ^ 44 + n ≤ s.limit && !d.isSessionSeg h slot
  [(0, f 0 1 ≤ 15), (1, 7 ≤ f 1 1 && f 1 1 ≤ 13), (2, 4 ≤ f 2 1 && f 2 1 ≤ 16), (3, f 3 1 ≤ 3), (4, zeroAt p 4 4),
   (8, f 8 8 % 4096 == 0 && range (f 8 8) (2 ^ (f 1 1 + f 2 1)) true), (16, f 16 8 % 128 == 0 && range (f 16 8) 128 false)]

/-- RXQ_CONFIG: ACCEPT 0 disables the queue at once; another change needs a disabled queue (R355). -/
def Device.rxqConfig (d : Device) (h : Nat) (p : Bytes) : MRes :=
  let f := fieldLe p
  let key := h * 16 + f 0 1
  let x := Tab.get {} d.klz.rxqs key
  if f 0 1 ≤ 15 ∧ f 3 1 = 0 ∧ zeroAt p 4 4 then
    let d := d.setKlz { d.klz with rxqs := Tab.put {} d.klz.rxqs key { x with accept := 0 } }
    .done (d.wr Reg.HOOP_RXQ_ENABLED h (setBit (d.rd Reg.HOOP_RXQ_ENABLED h) (f 0 1) false)) 0 []
  else match firstBad (d.rxqChecks h p) with
    | some o => .refuse 3 o
    | none =>
      if x.accept ≠ 0 then .refuse 0x100 0
      else
        let d := d.setKlz { d.klz with rxqs := Tab.put {} d.klz.rxqs key { accept := f 3 1, ring := f 8 8, slotLog2 := f 1 1, countLog2 := f 2 1, ctrl := f 16 8 } }
        .done (d.wr Reg.HOOP_RXQ_ENABLED h (setBit (d.rd Reg.HOOP_RXQ_ENABLED h) (f 0 1) true)) 0 []

/-- The reply of ROUTE_QUERY: HOPS of every chip of the slice, 15 where it is unreachable (R373). -/
def Device.routes (d : Device) (h : Nat) : Bytes :=
  ((List.range 4096).filter (fun c => d.inSlice h c)).map (fun c =>
    BitVec.ofNat 8 (if d.rd Reg.KLZ_RT_PRIMARY c = 15 then 15 else d.rd Reg.KLZ_RT_HOPS c))

/-! Commands -/

/-- KV_POOL_SET. -/
def execKvPoolSet (h : MHdr) (p : Bytes) (s : State) : DevOut :=
  s.done (s.dev.mgmt (mspec 0x1A) h p (fun d => d.kvPoolSet h.hoop p))

/-- SESSION_ALLOC. -/
def execSessionAlloc (h : MHdr) (p : Bytes) (s : State) : DevOut :=
  s.done (s.dev.mgmt (mspec 0x20) h p (fun d => d.sessionAlloc h.hoop p))

/-- SESSION_FREE. -/
def execSessionFree (h : MHdr) (p : Bytes) (s : State) : DevOut :=
  s.done (s.dev.mgmt (mspec 0x21) h p (fun d => d.sessionFree h.hoop p))

/-- SESSION_INFO. -/
def execSessionInfo (h : MHdr) (p : Bytes) (s : State) : DevOut :=
  s.done (s.dev.mgmt (mspec 0x22) h p (fun d => d.sessionInfo h.hoop p))

/-- RECIPE_LOAD. -/
def execRecipeLoad (h : MHdr) (p : Bytes) (s : State) : DevOut :=
  s.done (s.dev.mgmt (mspec 0x28) h p (fun d => d.recipeLoad h p))

/-- RXQ_CONFIG. -/
def execRxqConfig (h : MHdr) (p : Bytes) (s : State) : DevOut :=
  s.done (s.dev.mgmt (mspec 0x38) h p (fun d => d.rxqConfig h.hoop p))

/-- ROUTE_QUERY. -/
def execRouteQuery (h : MHdr) (p : Bytes) (s : State) : DevOut :=
  s.done (s.dev.mgmt { mspec 0x39 with reply := s.dev.rd Reg.HOOP_REMOTE_SLICE_CHIPS h.hoop } h p
    (fun d => .done d 0 (d.routes h.hoop)))

end Sys2Proof.Machine
end

