-- ==== Sys2Proof/Machine/MgmtModule.lean ====
section
/-! DEFINITION. Management commands of the module: wheel, time, board, power, resets, errors (R44, R361, R368, R369, R371, R414, R455,
R456, R470, R498). -/

namespace Sys2Proof.Machine

/-! The wheel -/

/-- A wheel table row from its 320 bytes, with whether it keeps R45 and its reserved bytes are 0 (Table 2-5). -/
def parseRow (b : Bytes) : WRow × Bool :=
  let n := fieldLe b 0 1 % 16 + 1
  let e := fun i => fieldLe b (16 + i) 1
  let masks := fun i => (List.range 8).map (fun h => fieldLe b (64 + 16 * i + 2 * h) 2)
  (⟨(List.range n).map (fun i => (e i, masks i))⟩,
   fieldLe b 0 1 < 16 && zeroAt b 1 15 && zeroAt b 32 32 && zeroAt b (16 + n) (16 - n) && zeroAt b (64 + 16 * n) (16 * (16 - n))
     && e (n - 1) == 255 && (List.range (n - 1)).all (fun i => e i < e (i + 1)))

/-- WHEEL_LOAD: the table waits for the next revolution boundary (R44). -/
def Device.wheelLoad (d : Device) (p : Bytes) : MRes :=
  let n := fieldLe p 0 2
  let rows := (List.range n).map (fun i => parseRow (slice p (8 + 320 * i) 320))
  if n = 0 ∨ 256 < n ∨ p.length ≠ 8 + 320 * n then .refuse 3 0
  else if !zeroAt p 2 6 then .refuse 3 2
  else match rows.findIdx? (fun r => !r.2) with
    | some i => .refuse 3 (8 + 320 * i)
    | none => .done { d with wheel := { d.wheel with pending := some (rows.map (·.1)) } } 0 []

/-- WHEEL_PERIOD: the new period takes effect at the current tick plus 4 (R368). -/
def Device.wheelPeriod (d : Device) (p : Bytes) : MRes :=
  let v := fieldLe p 0 4
  let follows := d.rd Reg.KLZ_TICK_TM_PRESENT == 1 && d.rd Reg.KLZ_ID_TIME_MASTER == 0
  if d.role ≠ 2 ∨ follows then .refuse 0x100 0
  else if v < 250 ∨ 64000 < v then .refuse 3 0
  else .done { d with wheel := { d.wheel with period := some (v, d.klz.number + 4) } } 0 []

/-- TIME_MASTER_SET: this manager becomes, or is no longer, the cluster time master (R369). -/
def Device.timeMasterSet (d : Device) (p : Bytes) : MRes :=
  let v := fieldLe p 0 1
  if d.role ≠ 2 then .refuse 0x100 0
  else if v > 1 then .refuse 3 0
  else
    let d := d.wr Reg.KLZ_ID_TIME_MASTER 0 v
    let d := if v = 1 then
        let d := d.follow d.ownChip
        (d.setKlz { d.klz with adjust := 0, trim := 0 }).wr Reg.KLZ_TICK_TM_PRESENT 0 0
      else if d.klz.master = some d.ownChip then d.setKlz { d.klz with master := none } else d
    .done d 0 []

/-- WHEEL_LOAD. -/
def execWheelLoad (h : MHdr) (p : Bytes) (s : State) : DevOut :=
  s.done (s.dev.mgmt (mspec 0x30) h p (fun d => d.wheelLoad p))

/-- WHEEL_PERIOD. -/
def execWheelPeriod (h : MHdr) (p : Bytes) (s : State) : DevOut :=
  s.done (s.dev.mgmt (mspec 0x31) h p (fun d => d.wheelPeriod p))

/-- TIME_MASTER_SET. -/
def execTimeMasterSet (h : MHdr) (p : Bytes) (s : State) : DevOut :=
  s.done (s.dev.mgmt (mspec 0x32) h p (fun d => d.timeMasterSet p))

/-! The board -/

/-- The reply of BOARD_MAP: STATE of port p of slot s in byte 8 × s + p (R361). -/
def Device.boardMap (d : Device) : Bytes :=
  (List.range 8).flatMap (fun s => (List.range 8).map (fun p => BitVec.ofNat 8 (((Tab.get [] d.klz.faultMap s).drop p).headD 0)))

/-- PORT_ENABLE: the port is no longer held; a miswired one trains again (R359, R371). -/
def Device.portEnable (d : Device) (p : Bytes) : MRes :=
  let n := fieldLe p 0 1
  if n > 7 then .refuse 3 0
  else
    let d := d.wr Reg.KLZ_PORT_STATUS_DISABLED n 0
    .done (if d.portState n = 6 then d.train n else d) 0 []

/-- BOARD_MAP. -/
def execBoardMap (h : MHdr) (p : Bytes) (s : State) : DevOut :=
  s.done (s.dev.mgmt (mspec 0x3A) h p (fun d => if d.role = 2 then .done d 0 d.boardMap else .refuse 0x100 0))

/-- PORT_ENABLE. -/
def execPortEnable (h : MHdr) (p : Bytes) (s : State) : DevOut :=
  s.done (s.dev.mgmt (mspec 0x3B) h p (fun d => d.portEnable p))

/-! Power -/

/-- POWER_CAP (R455). -/
def Device.powerCap (d : Device) (p : Bytes) : MRes :=
  let v := fieldLe p 0 4
  if v < 900 ∨ 2400 < v then .refuse 3 0 else .done (d.wr Reg.POWER_MEAS_CAP_W 0 v) 0 []

/-- The word a register of PF BAR0 reads as, by the name of its definition. -/
def Device.pfWord (d : Device) (name : String) : Nat :=
  match Reg.pfTable.find? (fun g => g.name == name) with
  | some g => g.word d.regs 0
  | none => 0

/-- The reply of POWER_QUERY (R470). A zone with no valid reading shows 0. -/
def Device.powerReply (d : Device) : Bytes :=
  le 8 (d.pfWord "POWER_STATUS") ++ le 8 (d.pfWord "POWER_MEAS") ++ le 8 (d.pfWord "POWER_EVENTS")
    ++ (List.range 6).flatMap (fun k => le 2 (unsigned 16 ((d.hottest (zonePoints k)).getD 0)))
    ++ le 1 (b2n d.pins.flowOk) ++ le 27 0

/-- POWER_MODE takes effect at the next tick (R456). -/
def Device.powerMode (d : Device) (p : Bytes) : MRes :=
  if fieldLe p 0 1 > 1 then .refuse 3 0
  else if fieldLe p 1 1 > 8 then .refuse 3 1
  else .done (d.setPower { d.power with mode := some (fieldLe p 0 1, fieldLe p 1 1) }) 0 []

/-- POWER_CAP. -/
def execPowerCap (h : MHdr) (p : Bytes) (s : State) : DevOut :=
  s.done (s.dev.mgmt (mspec 0x40) h p (fun d => d.powerCap p))

/-- POWER_QUERY. -/
def execPowerQuery (h : MHdr) (p : Bytes) (s : State) : DevOut :=
  s.done (s.dev.mgmt (mspec 0x41) h p (fun d => .done d 0 d.powerReply))

/-- POWER_MODE. -/
def execPowerMode (h : MHdr) (p : Bytes) (s : State) : DevOut :=
  s.done (s.dev.mgmt (mspec 0x42) h p (fun d => d.powerMode p))

/-! Reset, power cycle, errors -/

/-- MODULE_RESET: the reply, then a warm reset, which samples the straps (R344, R414). -/
def execModuleReset (h : MHdr) (p : Bytes) (s : State) : DevOut :=
  s.done (s.dev.mgmtThen (mspec 0x70) h p (fun d => d.beginStartup d.pins.levels))

/-- POWER_CYCLE: the reply, then PWR_CYCLE_REQ_N (R414, R493). -/
def execPowerCycle (h : MHdr) (p : Bytes) (s : State) : DevOut :=
  s.done (s.dev.mgmtThen (mspec 0x71) h p (fun d =>
    { d.setBoot { d.boot with pulse := true } with pins := { d.pins with cycleReq := true } }))

/-- The reply of ERR_SUMMARY_READ: ERR_SUMMARY, then FATAL_RECORD. -/
def Device.errReply (d : Device) : Bytes := le 8 (d.pfWord "ERR_SUMMARY") ++ le 64 (d.rd Reg.FATAL_RECORD_RECORD)

/-- ERR_SUMMARY_READ; served to the sideband it ends ALERT_N, unless an event of the same local time asserts it (R410, R498). -/
def execErrSummaryRead (h : MHdr) (p : Bytes) (s : State) : DevOut :=
  s.done (s.dev.mgmt (mspec 0x79) h p (fun d =>
    .done (if h.ring = 9 && d.pins.alertAt != some d.clock.now then { d with pins := { d.pins with alert := false } } else d) 0 d.errReply))

end Sys2Proof.Machine
end

