-- ==== Sys2Proof/Machine/MgmtFw.lean ====
section
/-! DEFINITION. Firmware and identity: FW_QUERY, FW_UPDATE, IDENTITY_GET, and the end of a recovery load (R413, R480, R483). -/

namespace Sys2Proof.Machine

/-- The reply of FW_QUERY (Table 19-5). The header of the running image is empty in RECOVERY and FAILED. -/
def Device.fwReply (d : Device) (f : Fuses) : Bytes :=
  let h := d.boot.header
  let of_ := fun (i v : Nat) => if h.isEmpty then (Config.noImage i).toNat else v
  slice h 16 8 ++ le 4 (of_ 0 (imgSvn h)) ++ le 1 (of_ 1 (imgKeyIndex h)) ++ le 1 f.rollback ++ le 1 (f.revoked % 16) ++ le 1 d.stage
    ++ le 2 d.boot.lastCause ++ le 2 0 ++ le 4 d.boot.staged ++ le 4 (d.rd Reg.BOOT_STATUS_BOOT_MS) ++ le 4 0 ++ le 48 (of_ 2 (fieldLe h 24 48))

/-- The reply of IDENTITY_GET (Table 19-5). -/
def Device.identityReply (d : Device) (f : Fuses) : Bytes :=
  le 1 (b2n d.ms) ++ le 7 0 ++ (List.range 5).flatMap (fun i => le 8 (Tab.get 0 f.serials i))
    ++ slice d.boot.engine.devicePub 0 96 ++ slice d.boot.engine.aliasPub 0 96
    ++ digestBytes (Config.sha384 d.chain)

/-- Put bytes into the staging buffer (R413, R479). -/
def stageAt (b : Bytes) (o : Nat) (v : Bytes) : Bytes := splice (b ++ List.replicate (o - b.length) 0) o v

/-- FW_UPDATE (R413): the bytes are staged; the packet with FINAL has the image checked, and one that passes is programmed. In
RECOVERY the steps of R480 follow. -/
def Device.fwUpdate (d : Device) (nv : NonVol) (p : Bytes) : MRes :=
  let offset := fieldLe p 0 4
  let flags := fieldLe p 4 4
  let data := p.drop 8
  if d.boot.programming.isSome then .refuse 0x100 0
  else if offset ≠ d.boot.staged ∧ offset ≠ 0 then .refuse 3 0
  else if flags > 1 then .refuse 3 4
  else
    let n := offset + data.length
    let d := d.setBoot { d.boot with staging := stageAt d.boot.staging offset data, staged := n }
    if flags = 0 then .done d 0 []
    else if d.stage = 5 then .wait (d.recoveryStart nv n).1 5 0 0 []
    else
      let c := imageCause nv.fuses (d.stagedImage n)
      let d := d.setBoot { d.boot with lastCause := c, checking := n }
      if c = 0 then .wait (d.setBoot { d.boot with programming := some false }) 0 0 0 []
      else .fail d 0x102

/-- FW_QUERY. -/
def execFwQuery (h : MHdr) (p : Bytes) (s : State) : DevOut :=
  s.done (s.dev.mgmt (mspec 0x60) h p (fun d => .done d 0 (d.fwReply s.nv.fuses)))

/-- IDENTITY_GET. -/
def execIdentityGet (h : MHdr) (p : Bytes) (s : State) : DevOut :=
  s.done (s.dev.mgmt (mspec 0x68) h p (fun d => .done d 0 (d.identityReply s.nv.fuses)))

/-- FW_UPDATE: while an image that passed its checks is programmed, the slot holds no whole image. -/
def execFwUpdate (h : MHdr) (p : Bytes) (s : State) : DevOut :=
  let d := s.dev.mgmt (mspec 0x61) h p (fun d => d.fwUpdate s.nv p)
  let begun := s.dev.boot.programming.isNone && d.boot.programming.isSome && d.boot.lastCause == 0
  .next { s with nv := if begun then s.nv.slotOpen else s.nv, dev := d }

/-- Reply to every command of a kind of wait. -/
def Device.endWaits (d : Device) (kind status : Nat) : Device :=
  (d.boot.waits.filter (fun w => w.wait == kind)).foldl (fun d w => d.endWait w status 0) d

/-- FW_PROGRAM_DONE: the slot holds the staged image, and the reply is written (R413). -/
def execFwProgramDone (s : State) : DevOut :=
  let d := s.dev
  if d.awake && d.boot.programming == some false then
    .next { s with nv := s.nv.program (d.stagedImage d.boot.checking), dev := (d.setBoot { d.boot with programming := none }).endWaits 0 0 }
  else s.done d

/-- The end of a recovery load (R480, steps 3 to 5): a check that refused, or the result of programming. -/
def Device.recoveryEnd (d : Device) (readBackOk : Bool) : Device :=
  let c := d.boot.lastCause
  let d := (d.wr Reg.RECOVERY_CTRL_BUSY 0 0).setBoot { d.boot with programming := none, recovered := c == 0 && readBackOk }
  if c ≠ 0 then ((d.setCause c 0).wr Reg.RECOVERY_CTRL_RESULT 0 2).endWaits 5 0x102
  else if readBackOk then (d.wr Reg.RECOVERY_CTRL_RESULT 0 1).endWaits 5 0
  else (d.wr Reg.RECOVERY_CTRL_RESULT 0 3).endWaits 5 0xA

/-- RECOVERY_RESULT (R480). -/
def execRecoveryResult (readBackOk : Bool) (s : State) : DevOut :=
  let d := s.dev
  if d.awake && d.stage == 5 && d.boot.programming == some true then
    .next { s with nv := if d.boot.lastCause = 0 && readBackOk then s.nv.program (d.stagedImage d.boot.checking) else s.nv,
                   dev := d.recoveryEnd readBackOk }
  else s.done d

end Sys2Proof.Machine
end

