-- ==== Sys2Proof/Machine/Aperture.lean ====
section
/-! DEFINITION. The apertures: PF BAR2, VF BAR4, and the staging buffer behind PF BAR2 in RECOVERY (R386 to R388, R474, R479). -/

namespace Sys2Proof.Machine

/-- Size of an aperture in bytes. -/
def Device.apertureSize (d : Device) (fn : Nat) : Nat := (if fn = 0 then d.pcie.bar2Gib else d.pcie.vfBar4Gib) * 2 ^ 30

/-- The address that an offset of an aperture reaches: a device address for the PF, a hoop virtual address for a VF (R386, R387). -/
def Device.apertureAddr (d : Device) (fn x : Nat) : Nat :=
  let size := d.apertureSize fn
  let base := (if fn = 0 then d.rd Reg.PF_APERTURE_BASE else d.rd Reg.HOOP_APERTURE_BASE (fn - 1)) * 2 ^ 30
  base / size * size + x

/-- A memory request that PCI Express allows, within one 4 KiB block, and whether it lies in the aperture. -/
def inPage (x n : Nat) : Bool := 1 ≤ n && x % 4096 + n ≤ 4096
def Device.apertureIn (d : Device) (fn x n : Nat) : Bool := inPage x n && x + n ≤ d.apertureSize fn

/-- Device addresses that PF BAR2 answers with all ones (R386). -/
def Device.pfClosed (d : Device) (a : Nat) : Bool :=
  a ≥ 0x100000000000 || absent d.ms a || d.inReserve a || d.inSession a || (isCxl a && !d.cxlMapped a)

/-- Whether a device address lies in the module reserve (R418). -/
def Device.inModuleReserve (d : Device) (a : Nat) : Bool := reserveAddr d.ms ≤ a && a < reserveAddr d.ms + 2 ^ 20

/-- What an aperture access reaches; `held` while a SEGMENT_WRITE replaces its descriptor (R270). -/
inductive Reach where
  | mem (a : Nat)
  | closed
  | bad (a : Nat)
  | held
  deriving DecidableEq, Repr

/-- The hoop that an aperture access counts for: that of the VF, none for the PF. -/
def apertureHoop (fn : Nat) : Nat := if fn = 0 then 9 else fn - 1

/-- Translate an aperture access; `kind` is 0 read, 1 write, 2 AtomicOp. A refused VF access posts APERTURE_FAULT, one that the
watchpoints match is noted (R386 to R388, R443). -/
def Device.apertureReach (d : Device) (fn x n kind : Nat) : Device × Reach :=
  let a := d.apertureAddr fn x
  if fn = 0 then
    (d, if d.pfClosed a then .closed else if kind ≠ 1 ∧ d.badAt a n then .bad a else .mem a)
  else
    let h := fn - 1
    let fault := fun (d : Device) =>
      d.post { code := 0x28, hoop := h, detail := le 8 a ++ le 1 (if kind = 1 then 1 else if kind = 2 then 2 else 0) }
    let r := d.xlate 580 h (d.curMap h) a n [3 + kind] false
    match r.2 with
    | .error e => if e.code = 0 then (d, .held) else if e.code = 0x60 ∧ kind ≠ 1 then (r.1, .bad (d.tableAddr h + 32 * d.slotOf h (d.curMap h) (bits a 47 44))) else (fault r.1, .closed)
    | .ok (.host _) => (fault r.1, .closed)
    | .ok (.dev p) =>
      if r.1.inSession p then (fault r.1, .closed)
      else
      let hits := r.1.watchMatch h 2 kind [(a, n)]
      let d := r.1.watchNote h kind {} hits
      (d, if kind ≠ 1 ∧ d.badAt p n then .bad p else .mem p)

/-- The record of uncorrectable data that an aperture access consumed (R388). -/
def Device.apertureError (d : Device) (fn a : Nat) : Device :=
  d.dataError (if fn = 0 then 0xFF else fn - 1) 0xFFFF 0xFFFFFFFF 0xFFFFFFFF a

/-- The rind die holds an access (R270 step 2). -/
def Device.hold (d : Device) (a : HeldAcc) : Device := d.setBoot { d.boot with held := d.boot.held ++ [a] }

/-- A read through an aperture (R388). -/
def Device.apertureRead (d : Device) (fn x n : Nat) : Device :=
  let r := d.apertureReach fn x n 0
  match r.2 with
  | .closed => r.1.emit (.completion fn .sc (List.replicate n 0xFF))
  | .bad a => ((r.1.pinRange a n).apertureError fn a).emit (.completion fn .ca [])
  | .held => d.hold (.read fn x n)
  | .mem a => (r.1.cohRead 4 (apertureHoop fn) a n false).emit (.completion fn .sc (r.1.mem.read a n))

/-- A write through an aperture, performed at the home; the module reserve discards it (R386, R388, R418). -/
def Device.apertureWrite (d : Device) (fn x : Nat) (data : Bytes) : Device :=
  let r := d.apertureReach fn x data.length 1
  match r.2 with
  | .mem a => if fn = 0 && d.inModuleReserve a then r.1 else r.1.agentWrite 4 (apertureHoop fn) a data false
  | .held => d.hold (.write fn x data)
  | _ => r.1

/-- The Ixfen atomic that a PCIe AtomicOp is: 0 FetchAdd, 1 Swap, else CAS. -/
def atomicOpOf (op : Nat) : Nat := match op with | 0 => 0 | 1 => 6 | _ => 7

/-- The hoop and handle whose COUNT lies at a device address, while the hoop's tables are locked (R51). -/
def Device.countAt (d : Device) (a : Nat) : Option (Nat × Nat) :=
  (List.range 8).findSome? (fun h =>
    let base := d.rd Reg.HOOP_OBJTAB_BASE h * 4096
    match (d.seg h (d.slotOf h (d.curMap h) (bits base 47 44))).offsetOf a with
    | some o =>
      let r := o - base % 2 ^ 44
      if base % 2 ^ 44 ≤ o && r % 16 == 0 && d.objIn h (r / 16) then some (h, r / 16) else none
    | none => none)

/-- What an AtomicOp on a reference count does beside (R52 steps 3, 5 and 6): a FetchAdd that takes COUNT from 1 to 0 releases the object. -/
def Device.countTaken (d : Device) (a op old new : Nat) : Device :=
  if op = 0 ∧ old % 2 ^ 32 = 1 ∧ new % 2 ^ 32 = 0 then
    match d.countAt a with
    | some (h, x) => d.driverSub h x
    | none => d
  else d

/-- An AtomicOp through an aperture (R52, R53, R388). -/
def Device.apertureAtomic (d : Device) (fn x op : Nat) (w64 : Bool) (operand compare : Nat) : Device :=
  let n := if w64 then 8 else 4
  let r := d.apertureReach fn x n 2
  match r.2 with
  | .closed => r.1.emit (.completion fn .ca [])
  | .bad a => ((r.1.pinRange a n).apertureError fn a).emit (.completion fn .ca [])
  | .held => d.hold (.atomic fn x op w64 operand compare)
  | .mem a =>
    if fn = 0 && d.inModuleReserve a then r.1.emit (.completion fn .ca [])
    else
      let old := ofLe (r.1.mem.read a n)
      let new := atomicNew (atomicOpOf op) (8 * n) false old (operand % 2 ^ (8 * n)) (compare % 2 ^ (8 * n))
      ((((r.1.cohAtomic 4 (apertureHoop fn) a n).writeDev a (le n new)).countTaken a op old new)).emit (.completion fn .sc (le n old))

/-- A read that reaches an aperture: in RECOVERY the staging buffer, in FAILED and after a fatal event all ones (R249, R474, R479). -/
def Device.hostLoad (d : Device) (fn offset n : Nat) : Device :=
  if !d.hostOpen fn || !d.apertureIn fn offset n then d
  else if d.inReset fn then d.emit (.completion fn .ur [])
  else if d.stage = 4 && !d.life.fatal then d.apertureRead fn offset n
  else if d.stage = 5 && offset + n ≤ 2 ^ 26 then d.emit (.completion fn .sc (slice d.boot.staging offset n))
  else d.emit (.completion fn .sc (List.replicate n 0xFF))

/-- APERTURE_READ. -/
def execApertureRead (fn offset n : Nat) (s : State) : DevOut := s.done (s.dev.hostLoad fn offset n)

/-- A write that reaches an aperture, or the staging buffer; after a fatal event it is discarded (R249, R388, R479, R480). -/
def Device.hostStore (d : Device) (fn offset : Nat) (data : Bytes) : Device :=
  if !d.hostOpen fn || !d.apertureIn fn offset data.length || d.inReset fn || (d.stage == 4 && d.life.fatal) then d
  else if d.stage = 4 then d.apertureWrite fn offset data
  else if d.stage = 5 && offset + data.length ≤ 2 ^ 26 && d.rd Reg.RECOVERY_CTRL_BUSY == 0 then
    d.setBoot { d.boot with staging := stageAt d.boot.staging offset data }
  else d

/-- APERTURE_WRITE. -/
def execApertureWrite (fn offset : Nat) (data : Bytes) (s : State) : DevOut := s.done (s.dev.hostStore fn offset data)

/-- An AtomicOp that reaches an aperture: outside READY it completes with Unsupported Request (R474), and so does one to an
offset that the aperture does not have, which is another BAR's or nobody's (R388). DESIGN CHOICE (log entry 41): after a fatal event
it is not performed and completes with Completer Abort; R249 names reads and writes alone. -/
def Device.hostAtomicOp (d : Device) (fn offset op : Nat) (w64 : Bool) (operand compare : Nat) : Device :=
  let n := if w64 then 8 else 4
  if !d.hostOpen fn || !inPage offset n || offset % n ≠ 0 || op > 2 then d
  else if d.inReset fn || d.stage ≠ 4 || !d.apertureIn fn offset n then d.emit (.completion fn .ur [])
  else if d.life.fatal then d.emit (.completion fn .ca [])
  else d.apertureAtomic fn offset op w64 operand compare

/-- APERTURE_ATOMICOP. -/
def execApertureAtomicop (fn offset op : Nat) (w64 : Bool) (operand compare : W64) (s : State) : DevOut :=
  s.done (s.dev.hostAtomicOp fn offset op w64 operand.toNat compare.toNat)

end Sys2Proof.Machine
end

