-- ==== Sys2Proof/Machine/Cohere.lean ====
section
/-! DEFINITION. The commands of the coherent domain (chapter 9): requests, snoops, responses, completions and timeouts. -/

namespace Sys2Proof.Machine

/-- RD_SHARED (R239 to R246). -/
def execRdShared (agent line hoop : Nat) (s : State) : Host.Outcome State Fault Refusal :=
  s.done (s.dev.request line { kind := 0, agent := agent, hoop := hoop }).reportFailed
/-- RD_OWN. -/
def execRdOwn (agent line hoop : Nat) (s : State) : Host.Outcome State Fault Refusal :=
  s.done (s.dev.request line { kind := 1, agent := agent, hoop := hoop }).reportFailed
/-- INV_OWN. -/
def execInvOwn (agent line hoop : Nat) (s : State) : Host.Outcome State Fault Refusal :=
  s.done (s.dev.request line { kind := 2, agent := agent, hoop := hoop }).reportFailed
/-- WR_LINE: the line's 128 bytes, which the requester holds when it has the line. -/
def execWrLine (agent line : Nat) (req : LineWrite) (s : State) : Host.Outcome State Fault Refusal :=
  s.done (s.dev.request line { kind := 3, agent := agent, hoop := req.hoop, data := req.data }).reportFailed
/-- WB: the agent keeps the data until the home takes it (R245). -/
def execWb (agent line : Nat) (s : State) : Host.Outcome State Fault Refusal :=
  s.done (s.dev.request line { kind := 4, agent := agent, hoop := 0 }).reportFailed
/-- RD_CUR. -/
def execRdCur (agent line hoop : Nat) (s : State) : Host.Outcome State Fault Refusal :=
  s.done (s.dev.request line { kind := 5, agent := agent, hoop := hoop }).reportFailed
/-- WR_CUR: bytes from an offset of the line on. -/
def execWrCur (agent line : Nat) (req : LineWrite) (s : State) : Host.Outcome State Fault Refusal :=
  s.done (s.dev.request line { kind := 6, agent := agent, hoop := req.hoop, off := req.off, data := req.data }).reportFailed
/-- ATOMIC of R160 on a word of the line. -/
def execAtomic (agent line : Nat) (req : LineAtomic) (s : State) : Host.Outcome State Fault Refusal :=
  s.done (s.dev.request line { kind := 7, agent := agent, hoop := req.hoop, off := req.off, op := some req.op }).reportFailed
/-- A snoop: one that no home has sent to the agent cannot be accepted and is fatal, PROTOCOL (Table 9-6). -/
def Device.snoop (d : Device) (group agent line : Nat) : Device :=
  if !d.live || agent > 4 || !d.isLine line then d
  else if d.coh.snoopOk group agent line then d.snooped agent line
  else d.moduleFatal 8 agent 7 0x1F line

/-- SNP_SHARED. -/
def execSnpShared (agent line : Nat) (s : State) : Host.Outcome State Fault Refusal := s.done (s.dev.snoop 0 agent line)
/-- SNP_INV. -/
def execSnpInv (agent line : Nat) (s : State) : Host.Outcome State Fault Refusal := s.done (s.dev.snoop 1 agent line)
/-- SNP_CUR. -/
def execSnpCur (agent line : Nat) (s : State) : Host.Outcome State Fault Refusal := s.done (s.dev.snoop 2 agent line)
/-- Whether a response can be taken: the request is open and the agent has sent it (R240). -/
def Device.rspOk (d : Device) (rsp agent line : Nat) : Bool :=
  (Tab.find? d.coh.opened line).isSome && d.coh.ring.contains (agent, line, rsp)

/-- A response: one that the home cannot accept is fatal, PROTOCOL (Table 9-6). -/
def Device.response (d : Device) (rsp agent line : Nat) : Device :=
  if !d.live || agent > 4 || !d.isLine line then d
  else if d.rspOk rsp agent line then d.responded rsp agent line
  else d.moduleFatal 8 (homeDie (line * 128)) 7 (sliceOf line) line

/-- A completion: one for which the agent has no request open is fatal, PROTOCOL (Table 9-6). -/
def Device.completion (d : Device) (agent line : Nat) : Device :=
  let mine : Bool := match Tab.find? d.coh.opened line with
    | some t => t.agent == agent
    | none => false
  if !d.live || agent > 4 || !d.isLine line then d
  else if mine then (d.completed line).reportFailed
  else d.moduleFatal 8 agent 7 0x1F line

/-- RSP_I. -/
def execRspI (agent line : Nat) (s : State) : Host.Outcome State Fault Refusal := s.done (s.dev.response 0 agent line)
/-- RSP_S. -/
def execRspS (agent line : Nat) (s : State) : Host.Outcome State Fault Refusal := s.done (s.dev.response 1 agent line)
/-- RSP_FWD. -/
def execRspFwd (agent line : Nat) (s : State) : Host.Outcome State Fault Refusal := s.done (s.dev.response 2 agent line)
/-- RSP_DIRTY. -/
def execRspDirty (agent line : Nat) (s : State) : Host.Outcome State Fault Refusal := s.done (s.dev.response 3 agent line)
/-- CMP. -/
def execCmp (agent line : Nat) (s : State) : Host.Outcome State Fault Refusal := s.done (s.dev.completion agent line)

/-- SNOOP_TIMEOUT: an agent whose response is due has not answered the home within 20 µs (R248, CAUSE 1). -/
def execSnoopTimeout (reporter suspect line : Nat) (s : State) : Host.Outcome State Fault Refusal :=
  let d := s.dev
  let due := match Tab.find? d.coh.opened line with
    | some t => (t.due.contains suspect || d.coh.ring.any (fun r => r.1 == suspect && r.2.1 == line)) && reporter == homeDie (line * 128)
    | none => false
  s.done (if d.live && due then d.moduleFatal 1 reporter suspect (sliceOf line) line else d)

/-- COMPLETION_TIMEOUT: a requester has had no completion within 20 µs (R248, CAUSE 2). -/
def execCompletionTimeout (reporter suspect line : Nat) (s : State) : Host.Outcome State Fault Refusal :=
  let d := s.dev
  let mine := (match Tab.find? d.coh.opened line with
    | some t => t.agent == reporter
    | none => false) || d.coh.waiting.any (fun w => w.1 == line && w.2.agent == reporter)
  s.done (if d.live && mine && suspect ≤ 4 then d.moduleFatal 2 reporter suspect 0x1F line else d)

end Sys2Proof.Machine
end

