-- ==== Sys2Proof/Machine/MgmtQueue.lean ====
section
/-! DEFINITION. The management commands of queues (R412, R96, R56). -/

namespace Sys2Proof.Machine

/-- Whether a ring lies where Table 3-1 wants it: 4 KiB aligned, within one HBM3E segment of the hoop. -/
def Device.ringOk (d : Device) (h va log2 : Nat) : Bool :=
  let s := d.segOwn h (d.slotOf h (d.curMap h) (bits va 47 44))
  va < 2 ^ 48 && va % 4096 == 0 && s.valid && !s.sro && s.tier == 0 && va % 2 ^ 44 + 64 * 2 ^ log2 ≤ s.limit

/-- Whether a completion target has room for one record per ring entry (Table 3-1). -/
def Device.targetOk (d : Device) (h va log2 : Nat) : Bool :=
  let s := d.seg h (d.slotOf h (d.curMap h) (bits va 47 44))
  va < 2 ^ 48 && va % 32 == 0 && s.valid && va % 2 ^ 44 + 32 * 2 ^ log2 ≤ s.limit

/-- Whether a queue may have a vector of a ring's function (R389). -/
def vectorOk (ring v : Nat) : Bool := 2 ≤ v && v < (if ring = 0 then 256 else 224)

/-- QUEUE_CREATE: the lowest-numbered queue in NONE (R412). -/
def Device.queueCreate (d : Device) (h : MHdr) (p : Bytes) : MRes :=
  let f := fieldLe p
  match (List.range 4096).find? (fun q => (d.queue q).state == 0) with
  | none => .refuse 0x100 0
  | some q =>
    if d.rd Reg.HOOP_CFG_TABLES_LOCK h.hoop = 0 then .refuse 0x100 0
    else match firstBad [(0, 6 ≤ f 0 1 && f 0 1 ≤ 16), (1, f 1 1 ≤ 15), (2, f 2 1 ≤ 1), (3, f 3 1 == 0), (4, vectorOk h.ring (f 4 2)),
        (8, d.ringOk h.hoop (f 8 8) (f 0 1)), (16, d.targetOk h.hoop (f 16 8) (f 0 1))] with
      | some o => .refuse 3 o
      | none =>
        .done (d.setQueue q { state := 1, hoop := h.hoop, lost := (d.queue q).lost, recs := (d.queue q).recs, ring := f 8 8, sizeLog2 := f 0 1, cls := f 1 1, completion := f 16 8,
                              confirmed := f 2 1 == 1, vector := f 4 2, vecFn := h.ring, owner := f 6 2 }) q []

/-- Whether a queue belongs to a hoop. -/
def Device.queueOf (d : Device) (h q : Nat) : Bool := q < 4096 && (d.queue q).state != 0 && (d.queue q).hoop == h

/-- Steps 1, 3 and 4 of QUEUE_RESET, and the pointers of its step 2 (R96). -/
def Device.resetQueue (d : Device) (h : MHdr) (p : Bytes) : Device :=
  let f := fieldLe p
  let q := f 0 2
  let setPtr := (f 2 1).testBit 0
  (d.leaveSlot q).modQueue q (fun x => { x with
    completion := f 16 8, confirmed := (f 2 1).testBit 1, vector := f 4 2, vecFn := h.ring
    rptr := if setPtr then f 8 4 else x.rptr
    shadow := if setPtr then f 8 4 else x.shadow
    rung := false, stopFetch := false, state := 1, pre := [], ctx := none })

/-- A destroyed queue is NONE; its records that are due or unconfirmed and the COMPLETION_LOST records that wait for room stay (R94 to R96,
R422). -/
def Device.endQueue (d : Device) (q : Nat) : Device :=
  let x := d.queue q
  (d.leaveSlot q).setQueue q (if x.lost.isEmpty && x.recs.isEmpty then {} else { hoop := x.hoop, lost := x.lost, recs := x.recs })

/-- QUEUE_RESET (R96): a discard may wait for reads of the host. -/
def Device.queueReset (d : Device) (h : MHdr) (p : Bytes) : MRes :=
  let f := fieldLe p
  let q := f 0 2
  match firstBad [(0, d.queueOf h.hoop q), (2, f 2 1 ≤ 3), (3, f 3 1 == 0), (4, vectorOk h.ring (f 4 2)), (6, f 6 2 == 0),
      (12, f 12 4 == 0), (16, d.targetOk h.hoop (f 16 8) (d.queue q).sizeLog2)] with
  | some o => .refuse 3 o
  | none =>
    if (d.queue q).busy then .refuse 0x100 0
    else
      let d := if (f 2 1).testBit 0 then d.discard q else d
      if (d.queue q).gone.isEmpty then .done (d.resetQueue h p) 0 [] else .wait d 4 0 0 p

/-- QUEUE_DESTROY (R96). -/
def Device.queueDestroy (d : Device) (h : MHdr) (p : Bytes) : MRes :=
  let q := fieldLe p 0 2
  if !d.queueOf h.hoop q then .refuse 3 0
  else if (d.queue q).busy then .refuse 0x100 0
  else
    let d := d.discard q
    if (d.queue q).gone.isEmpty then .done (d.endQueue q) 0 [] else .wait d 4 0 0 p

/-- The queues that a QUEUE_ABORT names. -/
def abortList (p : Bytes) : List Nat := (List.range (fieldLe p 2 2)).map (fun i => fieldLe p (4 + 2 * i) 2)

/-- QUEUE_ABORT (R56, R412). -/
def Device.queueAbort (d : Device) (h : MHdr) (p : Bytes) : MRes :=
  let n := fieldLe p 2 2
  if n < 1 ∨ 2044 < n ∨ p.length ≠ 4 + 2 * n then .refuse 3 2
  else match firstBad ((abortList p).mapIdx (fun i q => (4 + 2 * i, d.queueOf h.hoop q))) with
    | some o => .refuse 3 o
    | none =>
      let r := d.abortQueues h.hoop (fieldLe p 0 2) (abortList p).eraseDups
      if r.2 then .done r.1 0 [] else .wait r.1 2 0 0 p

/-- A QUEUE_ABORT, QUEUE_RESET or QUEUE_DESTROY that waits goes on, and replies when it is done. -/
def Device.waitGo (d : Device) (w : MPend) : Device :=
  if w.wait = 2 then
    let r := d.abortQueues w.hdr.hoop (fieldLe w.data 0 2) (abortList w.data).eraseDups
    if r.2 then r.1.endWait w 0 0 else r.1
  else
    let q := fieldLe w.data 0 2
    let d := d.discard q
    if !(d.queue q).gone.isEmpty then d
    else if w.opcode = 0x11 then (d.resetQueue w.hdr w.data).endWait w 0 0
    else (d.endQueue q).endWait w 0 0

/-- Every command of queues that waits goes on: an entry has come from the host, or room has come. -/
def Device.waitsGo (d : Device) : Device := (d.boot.waits.filter (fun w => w.wait == 2 || w.wait == 4)).foldl (fun d w => d.waitGo w) d

/-- QUEUE_CREATE. -/
def execQueueCreate (h : MHdr) (p : Bytes) (s : State) : DevOut :=
  s.done (s.dev.mgmt (mspec 0x10) h p (fun d => d.queueCreate h p))

/-- QUEUE_RESET. -/
def execQueueReset (h : MHdr) (p : Bytes) (s : State) : DevOut :=
  s.done (s.dev.mgmt (mspec 0x11) h p (fun d => d.queueReset h p))

/-- QUEUE_ABORT: not admitted in HOLD (Table 2-2). -/
def execQueueAbort (h : MHdr) (p : Bytes) (s : State) : DevOut :=
  s.done (s.dev.mgmt (mspec 0x12) h p
    (fun d => d.queueAbort h p))

/-- QUEUE_DESTROY. -/
def execQueueDestroy (h : MHdr) (p : Bytes) (s : State) : DevOut :=
  s.done (s.dev.mgmt (mspec 0x13) h p (fun d => d.queueDestroy h p))

end Sys2Proof.Machine
end

