-- ==== Sys2Proof/Machine/MgmtStat.lean ====
section
/-! DEFINITION. Management commands of statistics, trace, watchpoints, debug and perturbation (R434 to R451). -/

namespace Sys2Proof.Machine

/-- Whether `n` bytes from a hoop virtual address lie in a valid HBM3E segment with W (R434, R442, R424). -/
def Device.hbmWritable (d : Device) (h va n : Nat) : Bool :=
  let s := d.seg h (d.slotOf h (d.curMap h) (bits va 47 44))
  va < 2 ^ 48 && s.valid && s.tier == 0 && s.perm.testBit 4 && va % 2 ^ 44 + n ≤ s.limit
    && !d.isSessionSeg h (d.slotOf h (d.curMap h) (bits va 47 44))

/-- STATS_CONFIG: the setting waits for the next tick; READ returns the latest page (R434). -/
def Device.statsConfig (d : Device) (h : Nat) (p : Bytes) : MRes :=
  let f := fieldLe p
  match firstBad [(0, f 0 1 ≤ 1), (1, f 1 1 ≤ 1), (2, zeroAt p 2 6), (8, f 8 8 % 2 ^ 18 == 0 && d.hbmWritable h (f 8 8) (2 ^ 18))] with
  | some o => .refuse 3 o
  | none =>
    let page := slice (d.hstat h).page 0 4096
    .done (d.modHstat h (fun x => { x with next := some (f 0 1 == 1, f 8 8 / 2 ^ 18) })) 0 (if f 1 1 = 1 then page else [])

/-- HISTOGRAM_CONFIG: SHIFT and RATE_LOG2 wait for the next tick (R435, R439). -/
def Device.histConfig (d : Device) (h : MHdr) (p : Bytes) : MRes :=
  let k := fieldLe p 0 1
  let shift := fieldLe p 1 1
  let rate := fieldLe p 2 1
  if 8 ≤ k ∧ k ≤ 14 ∧ h.ring ≠ 0 then .refuse 0x101 0
  else match firstBad [(0, k ≤ 4 || (8 ≤ k && k ≤ 14)), (1, shift ≤ 31), (2, if k = 1 then rate ≤ 10 else rate == 0)] with
    | some o => .refuse 3 o
    | none =>
      if k ≤ 4 then
        .done (d.modHstat h.hoop (fun x => { x with hists := Tab.put (histNew k) x.hists k { x.hist k with next := some (shift, rate) } })) 0 []
      else
        let x := Tab.get (histNew k) d.stat.hists k
        .done { d with stat := { d.stat with hists := Tab.put (histNew k) d.stat.hists k { x with next := some (shift, x.rate) } } } 0 []

/-- TRACE_CONFIG (R442): a command with ENABLE 0 is always accepted. -/
def Device.traceConfig (d : Device) (h : Nat) (p : Bytes) : MRes :=
  let f := fieldLe p
  let bad := if f 0 1 = 0 then none else
    firstBad [(0, f 0 1 ≤ 1), (1, f 1 1 ≤ 1), (2, 7 ≤ f 2 1 && f 2 1 ≤ 21), (3, zeroAt p 3 1), (4, f 4 2 % 2 == 0 && f 4 2 < 512),
      (6, zeroAt p 6 2), (12, zeroAt p 12 4), (16, f 16 8 % 4096 == 0 && d.hbmWritable h (f 16 8) 1)]
  if f 0 1 ≠ 0 ∧ d.rd Reg.HOOP_TRACE_ENABLE h = 1 then .refuse 0x100 0
  else match bad with
    | some o => .refuse 3 o
    | none =>
      let d := (d.wr Reg.HOOP_TRACE_ENABLE h (f 0 1)).wr Reg.HOOP_TRACE_WRAP h (f 1 1)
      let d := (d.wr Reg.HOOP_TRACE_SIZE_LOG2 h (f 2 1)).wr Reg.HOOP_TRACE_BASE h (f 16 8 / 4096)
      let d := d.modHstat h (fun x => { x with kinds := f 4 2, minNs := f 8 4 })
      .done (if f 0 1 = 1 then (d.wr Reg.HOOP_TRACE_PTR_TAIL h 0).wr Reg.HOOP_TRACE_PTR_HEAD h 0 else d) 0 []

/-- The reply of COUNTER_READ with SELECT 1 (R440): the summary of slot s at 256 × s, the manager's own page among them. -/
def Device.summaries (d : Device) : Bytes :=
  (List.range 8).flatMap (fun s =>
    if s = d.rd Reg.KLZ_ID_SLOT then slice d.stat.page 0 256
    else
      let b := slice (Tab.get [] d.klz.summaries s) 0 256
      let late := !d.klz.fresh.contains s && d.clock.tickAt + 100000 ≤ d.clock.now
      if late then splice b 11 [BitVec.ofNat 8 (setBit (fieldLe b 11 1) 7 true)] else b)

/-- COUNTER_READ (R438, R440). -/
def Device.counterRead (d : Device) (p : Bytes) : MRes :=
  match fieldLe p 0 1 with
  | 0 => .done d 0 (slice d.stat.page 0 4096)
  | 1 => if d.role = 2 then .done d 0 d.summaries else .refuse 0x100 0
  | _ => .refuse 3 0

/-- WATCH_SET (R443, R450). -/
def Device.watchSet (d : Device) (h : Nat) (p : Bytes) : MRes :=
  let f := fieldLe p
  match firstBad [(0, f 0 1 ≤ 15), (1, 1 ≤ f 1 1 && f 1 1 ≤ 7), (2, f 2 1 ≤ 2), (3, 1 ≤ f 3 1 && f 3 1 ≤ 7), (4, zeroAt p 4 4),
      (8, f 8 8 + f 16 8 ≤ 2 ^ 48), (16, f 16 8 != 0)] with
  | some o => .refuse 3 o
  | none =>
    let w : Watch := ⟨f 1 1, f 2 1, f 3 1, f 8 8, f 16 8⟩
    .done ((d.setBits Reg.HOOP_WATCH_ENABLED h (2 ^ f 0 1)).modHstat h (fun x => { x with watches := Tab.insert x.watches (f 0 1) w })) 0 []

/-- WATCH_CLEAR (R443). -/
def Device.watchClear (d : Device) (h : Nat) (p : Bytes) : Device :=
  let m := fieldLe p 0 2
  (d.wr Reg.HOOP_WATCH_ENABLED h (without (d.rd Reg.HOOP_WATCH_ENABLED h) m)).modHstat h (fun x =>
    { x with watches := x.watches.filter (fun (w : Nat × Watch) => !m.testBit w.1) })

/-- STATS_CONFIG. -/
def execStatsConfig (h : MHdr) (p : Bytes) (s : State) : DevOut :=
  s.done (s.dev.mgmt { mspec 0x48 with reply := if fieldLe p 1 1 = 1 then 4096 else 0 } h p
    (fun d => d.statsConfig h.hoop p))

/-- HISTOGRAM_CONFIG: of the module's histograms it names no hoop (R439). -/
def execHistogramConfig (h : MHdr) (p : Bytes) (s : State) : DevOut :=
  let module := h.ring == 0 && 8 ≤ fieldLe p 0 1 && fieldLe p 0 1 ≤ 14
  s.done (s.dev.mgmt { mspec 0x49 with names := !module } h p (fun d => d.histConfig h p))

/-- TRACE_CONFIG. -/
def execTraceConfig (h : MHdr) (p : Bytes) (s : State) : DevOut :=
  s.done (s.dev.mgmt (mspec 0x4A) h p (fun d => d.traceConfig h.hoop p))

/-- COUNTER_READ. -/
def execCounterRead (h : MHdr) (p : Bytes) (s : State) : DevOut :=
  let reply := match fieldLe p 0 1 with
    | 0 => 4096
    | 1 => 2048
    | _ => 0
  s.done (s.dev.mgmt { mspec 0x4B with reply := reply } h p (fun d => d.counterRead p))

/-- WATCH_SET. -/
def execWatchSet (h : MHdr) (p : Bytes) (s : State) : DevOut :=
  s.done (s.dev.mgmt (mspec 0x50) h p (fun d => d.watchSet h.hoop p))

/-- WATCH_CLEAR. -/
def execWatchClear (h : MHdr) (p : Bytes) (s : State) : DevOut :=
  s.done (s.dev.mgmt (mspec 0x51) h p (fun d => .done (d.watchClear h.hoop p) 0 []))

/-! Debug -/

/-- The unlock ends and every perturbation entry is disabled (R447). -/
def Device.relock (d : Device) : Device :=
  let d := (d.wr Reg.DEBUG_STATUS_UNLOCKED 0 0).wr Reg.DEBUG_STATUS_PERTURB_ACTIVE 0 0
  let d := (List.range 8).foldl (fun d n => d.wr Reg.PERTURB_CFG_TARGET n 0) (d.wr Reg.DEBUG_STATUS_REMAINING 0 0)
  { d with stat := { d.stat with rights := 0, expires := false } }

/-- MODE 0: a fresh nonce, a free value of 32 bytes (R446). -/
def Device.debugNonce (d : Device) : MRes :=
  let n := (List.range 4).flatMap (fun i => le 8 (Config.freeValue (d.fresh + i)).toNat)
  .done { d with fresh := d.fresh + 4, stat := { d.stat with nonce := some n } } 0 n

/-- Whether the device accepts a token (R446). -/
def Device.tokenOk (d : Device) (f : Fuses) (t : Bytes) : Bool :=
  d.stat.nonce == some (slice t 0 32)
    && (List.range 4).all (fun i => fieldLe t (32 + 8 * i) 8 == Tab.get 0 f.serials i)
    && (Config.sha384 (slice t 72 96)).toNat == f.debugDigest
    && Config.ecdsaVerify (slice t 72 96) (slice t 168 96) (Config.sha384 (slice t 0 168))

/-- MODE 1: a token that holds unlocks the module; either outcome consumes the nonce (R446). -/
def Device.debugUnlock (d : Device) (f : Fuses) (p : Bytes) : MRes :=
  let t := p.drop 8
  if !zeroAt p 1 7 then .refuse 3 1
  else if fieldLe t 64 4 > 1 then .refuse 3 72
  else
    let ok := d.tokenOk f t
    let d := { d with stat := { d.stat with nonce := none } }
    if !ok then .fail d 0x102
    else
      let life := fieldLe t 68 4
      let d := (d.wr Reg.DEBUG_STATUS_UNLOCKED 0 1).wr Reg.DEBUG_STATUS_REMAINING 0 life
      let d := { d with stat := { d.stat with rights := fieldLe t 64 4, expires := life != 0 } }
      .done (d.post { code := 0x60 }) 0 []

/-- A DEBUG_UNLOCK packet: MODE 0 to 2 act, others are refused (R446). -/
def Device.debugCmd (d : Device) (f : Fuses) (p : Bytes) : MRes :=
  match fieldLe p 0 1 with
  | 0 => d.debugNonce
  | 1 => d.debugUnlock f p
  | 2 => .done d.relock 0 []
  | _ => .refuse 3 0

/-- A DEBUG_UNLOCK packet sent as a row of the table: the row's MODE, or one that no row has. -/
def State.debug (s : State) (mode : Nat) (h : MHdr) (p : Bytes) : DevOut :=
  let m := fieldLe p 0 1
  s.done (if m = mode ∨ m > 2 then
    s.dev.mgmt { mspec 0x58 with len := fun n => if m = 1 then n == 272 else n == 1, reply := if m = 0 then 32 else 0 } h p (fun d => d.debugCmd s.nv.fuses p)
  else s.dev)

/-- DEBUG_UNLOCK with MODE 0. -/
def execDebugNonce (h : MHdr) (p : Bytes) (s : State) : DevOut := s.debug 0 h p

/-- DEBUG_UNLOCK with MODE 1. -/
def execDebugUnlock (h : MHdr) (p : Bytes) (s : State) : DevOut := s.debug 1 h p

/-- DEBUG_UNLOCK with MODE 2. -/
def execDebugRelock (h : MHdr) (p : Bytes) (s : State) : DevOut := s.debug 2 h p

/-- DEBUG_LIFETIME_EXPIRY: an unlock with a LIFETIME has no ticks left (R447). -/
def execDebugLifetimeExpiry (s : State) : DevOut :=
  let d := s.dev
  s.done (if d.live && d.rd Reg.DEBUG_STATUS_UNLOCKED == 1 && d.stat.expires && d.rd Reg.DEBUG_STATUS_REMAINING == 0 then d.relock else d)

/-- The greatest SELECT of a perturbation target (Table 17-9). -/
def selectMax (target : Nat) : Nat := match target with | 1 => 3 | 3 => 3 | 5 => 4 | _ => 7

/-- PERTURB_SET (R448, R450). -/
def Device.perturbSet (d : Device) (p : Bytes) : MRes :=
  let f := fieldLe p
  if d.rd Reg.DEBUG_STATUS_UNLOCKED = 0 ∨ d.stat.rights % 2 = 0 then .refuse 0x100 0
  else match firstBad [(0, f 0 1 ≤ 7), (1, f 1 1 ≤ 5), (2, f 2 1 ≤ selectMax (f 1 1)), (3, f 3 1 ≤ 15), (4, f 1 1 != 5 || f 4 2 == 0)] with
    | some o => .refuse 3 o
    | none =>
      let n := f 0 1
      let d := ((d.wr Reg.PERTURB_CFG_TARGET n (f 1 1)).wr Reg.PERTURB_CFG_SELECT n (f 2 1)).wr Reg.PERTURB_CFG_RATE_LOG2 n (f 3 1)
      let d := ((d.wr Reg.PERTURB_CFG_DELAY n (f 4 2)).wr Reg.PERTURB_CFG_SEED n (f 6 2)).wr Reg.PERTURB_HITS_HITS n 0
      let d := { d with stat := { d.stat with gens := Tab.put 1 d.stat.gens n (if f 6 2 = 0 then 1 else f 6 2) } }
      let on := d.perturbing
      let d := d.wr Reg.DEBUG_STATUS_PERTURB_ACTIVE 0 (b2n on)
      let d := { d with stat := { d.stat with perturbed := d.stat.perturbed || on } }
      .done (if on then (List.range 8).foldl (fun d h => if d.hoopState h = 0 then d else d.modHstat h (fun x => { x with perturbed := true })) d else d) 0 []

/-- PERTURB_SET. -/
def execPerturbSet (h : MHdr) (p : Bytes) (s : State) : DevOut :=
  s.done (s.dev.mgmt (mspec 0x59) h p (fun d => d.perturbSet p))

end Sys2Proof.Machine
end

