-- ==== Sys2Proof/Machine/HostOps.lean ====
section
/-! DEFINITION. What writes to registers with effects of their own do (R55, R59, R111, R297, R399 to R405, R422 to R424, R442, R445, R480). -/

namespace Sys2Proof.Machine

/-! Hoop registers -/

/-- The ranges of a hoop's tables: object table and release ring, then fences and events with their tags (R50, R51, R55, R70). -/
def Device.tableRanges (d : Device) (h : Nat) : List (Nat × Nat) :=
  let f := d.rd Reg.HOOP_FENCES_FENCES h
  let e := d.rd Reg.HOOP_EVENTS_EVENTS h
  [(d.rd Reg.HOOP_OBJTAB_BASE h * 4096, 16 * 2 ^ d.rd Reg.HOOP_OBJTAB_ENTRIES_LOG2 h),
   (d.rd Reg.HOOP_RELQ_BASE h * 4096, 16 * 2 ^ d.rd Reg.HOOP_RELQ_SIZE_LOG2 h)]
    ++ (if f + e = 0 then ([] : List (Nat × Nat)) else [(d.rd Reg.HOOP_FENCES_BASE h * 4096, roundUp (10 * f) 64 + 10 * e)])

/-- Whether a range lies in one valid HBM3E segment of the hoop with R and W that is no session segment (R59). -/
def Device.tableFits (d : Device) (h : Nat) (r : Nat × Nat) : Bool :=
  d.hbmWritable h r.1 r.2 && (d.seg h (d.slotOf h (d.curMap h) (bits r.1 47 44))).perm.testBit 3

/-- A write of 1 to TABLES_LOCK, which sets it and both counts of the release ring once (R55, R59). -/
def Device.tablesLock (d : Device) (h : Nat) : Device :=
  let n := d.rd Reg.HOOP_OBJTAB_ENTRIES_LOG2 h
  let m := d.rd Reg.HOOP_RELQ_SIZE_LOG2 h
  if d.rd Reg.HOOP_CFG_TABLES_LOCK h = 0 ∧ 10 ≤ n ∧ n ≤ 20 ∧ 8 ≤ m ∧ m ≤ 20 ∧ (d.tableRanges h).all (d.tableFits h) then
    ((d.wr Reg.HOOP_CFG_TABLES_LOCK h 1).wr Reg.HOOP_RELQ_PTR_TAIL h 0).wr Reg.HOOP_RELQ_PTR_HEAD h 0
  else d

/-- Whether a free-running HEAD may be written: it does not move beyond TAIL. -/
def headOk (tail value : Nat) : Bool := ringDiff 32 tail value < 2 ^ 31

/-- A write of HEAD of HOOP_RELQ_PTR: held releases go out while there is room (R55, R59). -/
def Device.relqHead (d : Device) (h value : Nat) : Device :=
  if ringDiff 32 (d.rd Reg.HOOP_RELQ_PTR_TAIL h) value ≤ 2 ^ d.rd Reg.HOOP_RELQ_SIZE_LOG2 h then
    ((d.wr Reg.HOOP_RELQ_PTR_HEAD h value).relDrain h (d.hx h).held).waitsGo
  else d

/-- COMPLETION_LOST records that waited for room are written (R422). -/
def Device.flushAll (d : Device) (of_ : Nat → Bool) : Device :=
  (d.work.queues.filter (fun (x : Nat × Queue) => x.2.lost.any (fun b => of_ (recHoop b)))).foldl (fun d (x : Nat × Queue) =>
    d.flushLost x.1 (d.queue x.1).lost) d

/-- A write of HEAD of ERRQ_PTR: the first record written is an OVERFLOW record (R422). -/
def Device.errqHead (d : Device) (value : Nat) : Device :=
  if headOk (d.rd Reg.ERRQ_PTR_TAIL) value then (((d.wr Reg.ERRQ_PTR_HEAD 0 value).errOverflow 8).flushAll (fun _ => true)).waitsGo else d

/-- A write of HEAD of a view (R424). -/
def Device.viewHead (d : Device) (h value : Nat) : Device :=
  if headOk (d.rd Reg.HOOP_ERRQ_PTR_TAIL h) value then
    let d := d.wr Reg.HOOP_ERRQ_PTR_HEAD h value
    ((if d.rd Reg.HOOP_ERRQ_ENABLE h = 1 then d.errOverflow h else d).flushAll (· == h)).waitsGo
  else d

/-- ENABLE of a view is written (R424): enabling needs a size and a place that hold, and starts the view empty. -/
def Device.viewEnable (d : Device) (h v : Nat) : Device :=
  if v = 0 then ((d.wr Reg.HOOP_ERRQ_ENABLE h 0).flushAll (· == h)).waitsGo
  else if d.rd Reg.HOOP_ERRQ_ENABLE h = 1 then d
  else
    let n := d.rd Reg.HOOP_ERRQ_SIZE_LOG2 h
    if 6 ≤ n ∧ n ≤ 14 ∧ d.hbmWritable h (d.rd Reg.HOOP_ERRQ_BASE h * 4096) 1 then
      let d := (d.wr Reg.HOOP_ERRQ_PTR_TAIL h 0).wr Reg.HOOP_ERRQ_PTR_HEAD h 0
      (d.wr Reg.HOOP_ERRQ_ENABLE h 1).setErrRing h { d.errRing h with sigs := [] }
    else d

/-- A write of HEAD of the trace ring (R442). -/
def Device.traceHead (d : Device) (h value : Nat) : Device :=
  if headOk (d.rd Reg.HOOP_TRACE_PTR_TAIL h) value then d.wr Reg.HOOP_TRACE_PTR_HEAD h value else d

/-- A write of 1 to STOPPED: the hoop runs again (R445). -/
def Device.watchResume (d : Device) (h : Nat) : Device := ((d.wr Reg.HOOP_WATCH_STOPPED h 0).admitKernels).serveCredits

/-! Management rings -/

/-- ENABLE of a ring is written (R404). -/
def Device.ringEnable (d : Device) (r v : Nat) : Device :=
  if v = 0 then d.wr Reg.MGMT_RING_ENABLE r 0
  else if d.ringOn r then d
  else if 2 ≤ d.ringLog2 r ∧ d.ringLog2 r ≤ 8 then
    ((d.wr Reg.MGMT_HEAD_HEAD r 0).wr Reg.MGMT_TAIL_TAIL r 0).wr Reg.MGMT_RING_ENABLE r 1
  else d

/-- A TAIL write, the doorbell of a ring (R405). -/
def Device.ringTail (d : Device) (r value : Nat) : Device :=
  if ringDiff 32 value (d.ringHead r) > 2 ^ d.ringLog2 r then d.wr Reg.MGMT_STATUS_TAIL_INVALID r 1
  else (d.wr Reg.MGMT_TAIL_TAIL r value).ringFetch r

/-! CXL -/

/-- The decoders that target a link. -/
def Device.targets (d : Device) (j link : Nat) : Bool :=
  d.rd Reg.CXL_HDM_CTRL_T0 j == link || (d.rd Reg.CXL_HDM_CTRL_WAYS j == 1 && d.rd Reg.CXL_HDM_CTRL_T1 j == link)

def Device.hdmOn (d : Device) (j : Nat) : Bool := d.rd Reg.CXL_HDM_CTRL_COMMITTED j == 1

/-- A link's status registers. -/
def Device.setLink (d : Device) (l st width speed dev cap : Nat) : Device :=
  let d := (d.wr Reg.CXL_LINK_STATUS_STATE l st).wr Reg.CXL_LINK_STATUS_WIDTH l width
  ((d.wr Reg.CXL_LINK_STATUS_SPEED l speed).wr Reg.CXL_LINK_STATUS_DEVICE l dev).wr Reg.CXL_LINK_STATUS_CAP_GIB l cap

/-- RETRAIN: the port's links train anew, unless a committed decoder targets them (R403). -/
def Device.cxlRetrain (d : Device) (p : Nat) : Device :=
  let used := (List.range 8).any (fun j => d.hdmOn j && (d.targets j (2 * p) || d.targets j (2 * p + 1)))
  if used then d
  else (d.setLink (2 * p) 1 0 0 0 0).setLink (2 * p + 1) (if d.rd Reg.CXL_PORT_CFG_BIFURCATE p = 1 then 1 else 3) 0 0 0 0

/-- The window range of a decoder that maps, or of the 2-way decoder that consumed it: base and end in 256 MiB units. -/
def Device.hdmRange (d : Device) (j : Nat) : Option (Nat × Nat) :=
  let r := fun k => (d.rd Reg.CXL_HDM_RANGE_BASE k, d.rd Reg.CXL_HDM_RANGE_BASE k + d.rd Reg.CXL_HDM_RANGE_SIZE k)
  if d.hdmOn j then some (r j) else if d.rd Reg.CXL_HDM_CTRL_PAIRED j = 1 then some (r (j - 4)) else none

/-- Whether a commit of decoder `j` holds (R399). -/
def Device.commitOk (d : Device) (j : Nat) : Bool :=
  let p := j / 4
  let base := d.rd Reg.CXL_HDM_RANGE_BASE j
  let size := d.rd Reg.CXL_HDM_RANGE_SIZE j
  let ways := d.rd Reg.CXL_HDM_CTRL_WAYS j
  let t0 := d.rd Reg.CXL_HDM_CTRL_T0 j
  let t1 := d.rd Reg.CXL_HDM_CTRL_T1 j
  let link := fun l => d.rd Reg.CXL_LINK_STATUS_STATE l == 2 && d.rd Reg.CXL_LINK_STATUS_DEVICE l == 1
    && d.rd Reg.CXL_HDM_RANGE_DPA_BASE j + size / (ways + 1) ≤ 4 * d.rd Reg.CXL_LINK_STATUS_CAP_GIB l
  base % (ways + 1) == 0 && size % (ways + 1) == 0 && size != 0 && base + size ≤ 32768
    && (List.range 8).all (fun k => k == j || !d.hdmOn k || !meets base size (d.rd Reg.CXL_HDM_RANGE_BASE k) (d.rd Reg.CXL_HDM_RANGE_SIZE k))
    && (List.range (j % 4)).all (fun n => match d.hdmRange (4 * p + n) with
      | some (_, e) => e ≤ base
      | none => false)
    && link t0 && (ways == 0 || link t1)
    && (ways == 0 || (p == 0 && t0 / 2 == 0 && t1 / 2 == 1 && !d.hdmOn (j + 4)))
    && d.rd Reg.CXL_HDM_CTRL_PAIRED j == 0

/-- COMMIT is written 1 (R399). -/
def Device.hdmCommit (d : Device) (j : Nat) : Device :=
  if d.hdmOn j then d
  else if d.commitOk j then
    let d := (d.wr Reg.CXL_HDM_CTRL_COMMIT j 1).wr Reg.CXL_HDM_CTRL_COMMITTED j 1
    let d := d.wr Reg.CXL_HDM_CTRL_ERROR j 0
    let d := { d with flow := { d.flow with lostHdm := d.flow.lostHdm.filter (· != j) } }
    if d.rd Reg.CXL_HDM_CTRL_WAYS j = 1 then d.wr Reg.CXL_HDM_CTRL_PAIRED (j + 4) 1 else d
  else (d.wr Reg.CXL_HDM_CTRL_COMMIT j 0).wr Reg.CXL_HDM_CTRL_ERROR j 1

/-- COMMIT is written 0: the decoder maps nothing any more (R399). -/
def Device.hdmUncommit (d : Device) (j : Nat) : Device :=
  let d := if d.hdmOn j && d.rd Reg.CXL_HDM_CTRL_WAYS j == 1 then d.wr Reg.CXL_HDM_CTRL_PAIRED (j + 4) 0 else d
  (d.wr Reg.CXL_HDM_CTRL_COMMIT j 0).wr Reg.CXL_HDM_CTRL_COMMITTED j 0

/-! Vectors and configuration space -/

def Device.setMsix (d : Device) (fn v : Nat) (e : MsixEnt) : Device :=
  { d with pcie := { d.pcie with entries := Tab.put {} d.pcie.entries (fn * 256 + v) e } }

/-- A write to the MSI-X table of a function at a byte offset of it, 4 bytes (R389): address, data, mask. -/
def Device.msixWrite (d : Device) (fn o v : Nat) : Device :=
  let e := d.msixEnt fn (o / 16)
  let e := match o % 16 / 4 with
    | 0 => { e with addr := e.addr / 2 ^ 32 * 2 ^ 32 + v }
    | 1 => { e with addr := e.addr % 2 ^ 32 + v * 2 ^ 32 }
    | 2 => { e with data := v }
    | _ => { e with masked := v % 2 == 1 }
  (d.setMsix fn (o / 16) e).flushVectors fn

/-- Whether a size in GiB is a power of two up to a bound (Table 15-1). -/
def barSizeOk (v most : Nat) : Bool := (List.range 12).any (fun i => v == 2 ^ i && v ≤ most)

/-- A configuration write that concerns the functions, vectors, BAR sizes and the limits of Table 15-1 (R378, R380, R389, R391). Of ASPM Control
bit 1 enables L1. DESIGN CHOICE (log entry 47): the two sizes are those of the PF for every function, and a value beyond the table is ignored. -/
def Device.cfgWrite (d : Device) (fn : Nat) (f : CfgField) (v : Nat) : Device :=
  let p := d.pcie
  let old := d.vfs
  match f with
  | .vfEnable => if fn = 0 && d.stage == 4 then Device.vfsGone { d with pcie := { p with vfEnable := v % 2 == 1 } } old else d
  | .numVfs => if fn = 0 && d.stage == 4 && v ≤ 8 then Device.vfsGone { d with pcie := { p with numVfs := v } } old else d
  | .ariCapable => if fn = 0 then Device.vfsGone { d with pcie := { p with ari := v % 2 == 1 } } old else d
  | .msixEnable => Device.flushVectors { d with pcie := { p with msixEnable := setBit p.msixEnable fn (v % 2 == 1) } } fn
  | .functionMask => Device.flushVectors { d with pcie := { p with funcMask := setBit p.funcMask fn (v % 2 == 1) } } fn
  | .bar2Size => if fn = 0 && barSizeOk v 2048 then { d with pcie := { p with bar2Gib := v } } else d
  | .vfBar4Size => if fn = 0 && barSizeOk v 64 then { d with pcie := { p with vfBar4Gib := v } } else d
  | .maxPayload => if fn = 0 && [128, 256, 512].contains v then { d with pcie := { p with mps := v } } else d
  | .maxReadRequest => if fn = 0 && [128, 256, 512, 1024, 2048, 4096].contains v then { d with pcie := { p with mrrs := v } } else d
  | .aspm => { d with pcie := { p with aspm := setBit p.aspm fn (v.testBit 1) } }
  | .l0pWidth => if fn = 0 && (v = 0 || pcieWidths.contains v) then { d with pcie := { p with l0p := v } } else d
  | .totalVfs | .linkWidth | .linkRate | .vendorId => d

end Sys2Proof.Machine
end

