-- ==== Sys2Proof/Machine/Cxl.lean ====
section
/-! DEFINITION. The events of the CXL links (R398, R400 to R402). -/

namespace Sys2Proof.Machine

/-- A committed decoder whose link goes down is LOST and maps nothing until it is committed again (R402). -/
def Device.loseDecoder (d : Device) (j : Nat) : Device :=
  { d.wr Reg.CXL_HDM_CTRL_LOST j 1 with flow := { d.flow with lostHdm := d.flow.lostHdm.filter (· != j) ++ [j] } }

/-- A CXL link goes down (R402). -/
def Device.cxlDown (d : Device) (l : Nat) : Device :=
  let st := d.rd Reg.CXL_LINK_STATUS_STATE l
  if st = 1 then d.setLink l 0 0 0 0 0
  else if st ≠ 2 then d
  else
    let d := d.setLink l 0 0 0 0 0
    let d := ((List.range 8).filter (fun j => d.hdmOn j && d.targets j l)).foldl Device.loseDecoder d
    d.post { code := 0x41, object := l }

/-- CXL_LINK_DOWN. -/
def execCxlLinkDown (link : Nat) (s : State) : DevOut := s.done (if s.dev.live && link < 4 then s.dev.cxlDown link else s.dev)

/-- BIFURCATE takes effect at a training of the port, while none of its links is UP (R403): its second link is there, or it is not. -/
def Device.bifurcate (d : Device) (p : Nat) : Device :=
  let two := d.rd Reg.CXL_PORT_CFG_BIFURCATE p == 1
  let st := d.rd Reg.CXL_LINK_STATUS_STATE (2 * p + 1)
  if st = 2 ∨ d.rd Reg.CXL_LINK_STATUS_STATE (2 * p) = 2 then d
  else if two && st == 3 then d.setLink (2 * p + 1) 0 0 0 0 0
  else if !two && st != 3 then d.setLink (2 * p + 1) 3 0 0 0 0
  else d

/-- Whether a width is one that the lanes of a link can train (R397). -/
def cxlWidthOk (two : Bool) (w : Nat) : Bool := [1, 2, 4, 8].contains w || (!two && w == 16)

/-- A DOWN or TRAINING link trains: `width` lanes at SPEED code `speed` with a device of `cap` GiB, or nothing answers (R402). -/
def Device.cxlTrain (d : Device) (l width speed cap : Nat) : Device :=
  let d := d.bifurcate (l / 2)
  let st := d.rd Reg.CXL_LINK_STATUS_STATE l
  let two := d.rd Reg.CXL_LINK_STATUS_STATE (l / 2 * 2 + 1) != 3
  if 2 ≤ st then d
  else if cxlWidthOk two width && 1 ≤ speed && speed ≤ 6 && cap < 65536 && 0 < cap then
    (d.setLink l 2 width speed 1 cap).post { code := 0x42, object := l, detail := le 2 cap }
  else d.setLink l 0 0 0 0 0

/-- CXL_LINK_TRAIN: every 100 ms a link that is not UP is trained (R398, R402). -/
def execCxlLinkTrain (link width speed capGib : Nat) (s : State) : DevOut :=
  s.done (if s.dev.live && link < 4 then s.dev.cxlTrain link width speed capGib else s.dev)

/-- CXL_READ_TIMEOUT: a CXL.mem read of an address that has not completed within 1 ms (R401): its unit fails every consumer
until it is overwritten (R234), and the failed request is recorded. -/
def execCxlReadTimeout (address : Nat) (s : State) : DevOut :=
  let d := s.dev
  s.done (match (if d.live && isCxl address then d.cxlRoute address else none) with
    | none => d
    | some (link, dpa) =>
      let u := address / 32
      let d := { d with bad := if d.bad.contains u then d.bad else d.bad ++ [u] }
      d.post { code := 0x40, object := link, detail := le 8 dpa ++ le 16 0 })

/-- CXL_EVENT: a device event record (R401). -/
def execCxlEvent (link : Nat) (dpa : W64) (header : Bytes) (s : State) : DevOut :=
  let d := s.dev
  s.done (if d.live && link < 4 && d.rd Reg.CXL_LINK_STATUS_STATE link == 2 then
    d.post { code := 0x40, object := link, detail := le 8 dpa.toNat ++ slice header 0 16 } else d)

end Sys2Proof.Machine
end

