-- ==== Sys2Proof/Machine/KlozarLink.lean ====
section
/-! DEFINITION. The commands of link training, the board manager, ticks and routes (R359 to R373). -/

namespace Sys2Proof.Machine

/-- A wheel tick, and the credits that its window lets the dispatchers serve (R43, R107). -/
def Device.tickAll (d : Device) (number : Nat) (managed substitute : Bool) : Device := (d.tick number managed substitute).serveCredits

/-- PORT_TRAINED: the equalisers have adapted, lane lock, alignment and deskew; the port enters IDENTIFY (R359). -/
def execPortTrained (port : Nat) (s : State) : Host.Outcome State Fault Refusal :=
  let d := s.dev
  s.done (if d.live && port < 8 && d.portState port == 1 then
    (d.setPort port { d.port port with eq := Config.adapted port d.clock.now }).setPortState port 2 else d)

/-- TRAIN_TIMEOUT: back to DOWN after 50 ms (R359). -/
def execTrainTimeout (port : Nat) (s : State) : Host.Outcome State Fault Refusal :=
  let d := s.dev
  s.done (if d.live && port < 8 && d.portState port == 1 then
    (d.setPort port { d.port port with trainFailed := true }).setPortState port 0 else d)

/-- KLOZAR_TRAIN_RETRY: 100 ms later the port tries TRAIN again (R359). -/
def execKlozarTrainRetry (port : Nat) (s : State) : Host.Outcome State Fault Refusal :=
  let d := s.dev
  s.done (if d.live && port < 8 && d.portState port == 0 && (d.port port).trainFailed then
    (d.setPort port { d.port port with trainFailed := false }).train port else d)

/-- PORT_RETRAIN: a FAILED port that is not held retrains after 100 ms (R359, R371). -/
def execPortRetrain (port : Nat) (s : State) : Host.Outcome State Fault Refusal :=
  let d := s.dev
  s.done (if d.live && port < 8 && d.portState port == 5 && d.rd Reg.KLZ_PORT_STATUS_DISABLED port == 0 then
    d.train port else d)

/-- PORT_FAILED: a condition of Table 14-8 holds (R371, R372), once the port has trained. -/
def execPortFailed (port condition : Nat) (s : State) : Host.Outcome State Fault Refusal :=
  let d := s.dev
  s.done (if d.live && port < 8 && 2 ≤ d.portState port && d.portState port ≤ 4 && 1 ≤ condition && condition ≤ 5 then
    d.failPort port condition else d)

/-- The wiring check of IDENTIFY (R343, R359). -/
def Device.wired (d : Device) (p : Nat) (x : Partner) : Bool :=
  let board := d.rd Reg.KLZ_ID_BOARD
  x.chip != d.ownChip &&
  (if p = 7 then x.port == 7 && x.board != board
   else x.board == board && x.slot == (d.rd Reg.KLZ_ID_SLOT + p + 1) % 8 && x.port == 6 - p)

/-- A module whose MGR_EN is high has found another manager (R362). -/
def Device.managerConflict (d : Device) (chip : Nat) : Device :=
  let d := d.wr Reg.KLZ_ID_ROLE 0 3
  let d := d.setKlz { d.klz with conflict := true, boardUp := none }
  d.post { code := 0x39, object := chip }

/-- IDENTIFY ends: the partner is learned, the wiring checked, a conflict found; a port that may rises to UP (R359 to R362). -/
def Device.identified (d : Device) (p : Nat) (x : Partner) : Device :=
  let d := (d.wr Reg.KLZ_PORT_STATUS_PARTNER_CHIP p x.chip).wr Reg.KLZ_PORT_STATUS_PARTNER_PORT p x.port
  let d := d.wr Reg.KLZ_PORT_STATUS_PARTNER_MGR p (b2n x.mgr)
  let d := if p < 7 && x.mgr && x.board == d.rd Reg.KLZ_ID_BOARD && d.rd Reg.KLZ_ID_MGR_EN == 1 && d.role != 3
    then d.managerConflict x.chip else d
  if d.wired p x then (d.setPortState p 3).raisePorts
  else
    let d := (d.wr Reg.KLZ_PORT_STATUS_DISABLED p 1).setPortState p 6
    d.post { code := 0x31, object := p, detail := le 2 x.chip ++ le 1 x.port }

/-- IDENTIFY_DONE (R359 to R362). -/
def execIdentifyDone (port : Nat) (partner : Partner) (s : State) : Host.Outcome State Fault Refusal :=
  s.done (if s.dev.live && port < 8 && s.dev.portState port == 2 then s.dev.identified port partner else s.dev)

/-- ROUTE_INSTALL (R358, R372). -/
def execRouteInstall (s : State) : Host.Outcome State Fault Refusal :=
  s.done (if s.dev.live && s.dev.klz.stale then s.dev.installRoutes else s.dev)

/-- A LINK_STATE that is newer than the record held is used and flooded; a partner that reports the port not UP fails it
(R371, R372, R377). -/
def Device.linkState (d : Device) (p : Nat) (k : Pkt) : Device :=
  let chip := fieldBe k.data 0 2
  let seq := fieldBe k.data 4 4
  let ports := (List.range 8).map (fun i =>
    let w := fieldBe k.data (8 + 4 * i) 4
    (w % 4096, bits w 14 12, w.testBit 15))
  let newer := match Tab.find? d.klz.db chip with
    | none => true
    | some r => 0 < ringDiff 32 seq r.seq && ringDiff 32 seq r.seq < 2 ^ 31
  if !newer then d
  else
    let d := d.setKlz { d.klz with db := Tab.insert d.klz.db chip ⟨seq, ports⟩, stale := true }
    let d := d.flood (d.upPorts p) k
    (List.range 8).foldl (fun d q =>
      let j := d.rd Reg.KLZ_PORT_STATUS_PARTNER_PORT q
      let down := match (ports.drop j).head? with
        | some (_, _, up) => !up
        | none => false
      if d.portUp q && d.rd Reg.KLZ_PORT_STATUS_PARTNER_CHIP q == chip && down then d.failPort q 5 else d) d

/-- A packet that this module discards under R351 is counted at its port. -/
def Device.discardPkt (d : Device) (p : Nat) : Device := if p < 8 then d.countSat Reg.KLZ_PORT_ERR_FEC_UNCORR p else d

/-- Run a handler on a packet for this chip that arrives on a port that is UP and passes R351 with the type expected; port 8 is the
internal path, where a packet that the module sent to itself arrives once (R276). -/
def Device.onPacket (d : Device) (p ptype : Nat) (k : Pkt) (f : Device → Device) : Device :=
  if !d.live || k.ptype != ptype || k.dst != d.ownChip then d
  else if p = 8 then (if d.klz.loop.contains k then f (d.setKlz { d.klz with loop := d.klz.loop.erase k }) else d)
  else if !d.portUp p then d
  else if !pktOk k then d.discardPkt p
  else f d

/-- LINK_STATE (R372, R377). -/
def execLinkState (port : Nat) (k : Pkt) (s : State) : Host.Outcome State Fault Refusal :=
  s.done (s.dev.onPacket port 0x30 k (fun d => d.linkState port k))

/-- BOARD_UP (R360, R362). -/
def Device.boardUpMsg (d : Device) (p : Nat) (k : Pkt) : Device :=
  let chip := fieldBe k.data 16 2
  let board := fieldBe k.data 18 2
  if p = 7 ∨ board ≠ d.rd Reg.KLZ_ID_BOARD then d
  else if d.rd Reg.KLZ_ID_MGR_EN = 1 then (if chip = d.ownChip ∨ d.role = 3 then d else d.managerConflict chip)
  else if d.klz.conflict then d
  else
    match d.klz.boardUp with
    | none =>
      let d := (d.setKlz { d.klz with boardUp := some chip }).raisePorts
      d.flood (d.upBoardPorts p) k
    | some c =>
      if c = chip then d
      else
        let d := d.setKlz { d.klz with conflict := true, boardUp := none }
        let d := d.post { code := 0x39, object := chip }
        if (List.range 8).any (fun h => d.hoopState h == 1) then d.loseManager else d

/-- BOARD_UP (R360, R362, Table 14-12). -/
def execBoardUp (port : Nat) (k : Pkt) (s : State) : Host.Outcome State Fault Refusal :=
  s.done (s.dev.onPacket port 0x28 k (fun d => if fieldBe k.data 0 2 = 1 then d.boardUpMsg port k else d))

/-- PORT_REPORT reaches the manager (R361). -/
def Device.portReport (d : Device) (k : Pkt) : Device :=
  let chip := fieldBe k.data 16 2
  if d.role = 2 && chip / 8 == d.rd Reg.KLZ_ID_BOARD then
    d.setKlz { d.klz with faultMap := Tab.insert d.klz.faultMap (chip % 8) ((List.range 8).map (fun i => fieldLe k.data (18 + i) 1)) }
  else d

/-- PORT_REPORT (R361, Table 14-12). -/
def execPortReport (port : Nat) (k : Pkt) (s : State) : Host.Outcome State Fault Refusal :=
  s.done (s.dev.onPacket port 0x28 k (fun d => if fieldBe k.data 0 2 = 2 then d.portReport k else d))

/-- STATS_SUMMARY reaches the manager (R440). -/
def Device.statsSummary (d : Device) (k : Pkt) : Device :=
  if d.role = 2 && k.src / 8 == d.rd Reg.KLZ_ID_BOARD then
    d.setKlz { d.klz with summaries := Tab.insert d.klz.summaries (k.src % 8) (slice k.data 16 256),
                          fresh := d.klz.fresh.filter (· != k.src % 8) ++ [k.src % 8] }
  else d

/-- STATS_SUMMARY (R440, Table 14-12). -/
def execStatsSummary (port : Nat) (k : Pkt) (s : State) : Host.Outcome State Fault Refusal :=
  s.done (s.dev.onPacket port 0x28 k (fun d => if fieldBe k.data 0 2 = 3 then d.statsSummary k else d))

/-! Delays -/

/-- DELAY_EXCHANGE: a port that is UP sends DELAY_REQ; T1 is its departure (R364). -/
def execDelayExchange (port : Nat) (s : State) : Host.Outcome State Fault Refusal :=
  let d := s.dev
  s.done (if d.live && d.portUp port then
    d.sendOn port 0 (d.ownPkt port 0x21 (be 8 d.clock.now)) else d)

/-- DELAY_REQ is answered with T1, T2 and T3, its departure (R364). -/
def execDelayReq (port : Nat) (k : Pkt) (s : State) : Host.Outcome State Fault Refusal :=
  s.done (s.dev.onPacket port 0x21 k (fun d =>
    d.sendOn port 0 (d.ownPkt port 0x22 (slice k.data 0 8 ++ be 8 d.clock.now ++ be 8 d.clock.now))))

/-- The median of R364: the mean of the two middle values of an even number, rounded down. -/
def median (ds : List Int) : Int :=
  let l := sortBy (fun a b => decide (a ≤ b)) ds
  let n := l.length
  if n % 2 = 1 then (l.drop (n / 2)).headD 0 else ((l.drop (n / 2 - 1)).headD 0 + (l.drop (n / 2)).headD 0) / 2

/-- DELAY_RSP: the newest delay enters the median of the last 8 (R364). -/
def Device.delayRsp (d : Device) (p : Nat) (k : Pkt) : Device :=
  let t1 := fieldBe k.data 0 8
  if (d.port p).t1 ≠ some t1 then d
  else
    let v : Int := (((d.clock.now : Int) - t1) - ((fieldBe k.data 16 8 : Int) - fieldBe k.data 8 8)).tdiv 2
    let ds := (v :: (d.port p).ds).take 8
    (d.setPort p { d.port p with ds := ds, t1 := none }).wr Reg.KLZ_PORT_STATUS_DELAY_NS p (Nat.min 65535 (median ds).toNat)

/-- DELAY_RSP (R364). -/
def execDelayRsp (port : Nat) (k : Pkt) (s : State) : Host.Outcome State Fault Refusal :=
  s.done (s.dev.onPacket port 0x22 k (fun d => d.delayRsp port k))

/-! Ticks -/

/-- A TICK packet (R365): a worker with a measured delay on the port takes it as a source and copies a HOPS 1 TICK on. -/
def Device.tickPkt (d : Device) (p : Nat) (k : Pkt) : Device :=
  let number := fieldBe k.data 0 8
  let lead := fieldBe k.data 8 4
  let hops := fieldLe k.data 28 1
  let delay := d.rd Reg.KLZ_PORT_STATUS_DELAY_NS p
  if p = 7 ∨ d.role ≠ 1 ∨ d.klz.conflict ∨ (d.port p).ds = [] ∨ hops = 0 ∨ hops > 2 then d
  else
    let lead' := lead - delay
    let src : TickSrc := ⟨if hops = 1 then 3 else 4, number, d.clock.now + lead'⟩
    let fits := !d.klz.ticked || d.klz.lost || number > d.klz.number
    let d := if fits then d.setKlz { d.klz with srcs := d.klz.srcs ++ [src] } else d
    let d := if !d.klz.ticked then d.wr Reg.WHEEL_STATUS_PERIOD_US 0 (fieldBe k.data 12 4) else d
    let np := fieldBe k.data 16 4
    let d := if np ≠ 0 then { d with wheel := { d.wheel with period := some (np, fieldBe k.data 20 8) } } else d
    if hops = 1 then
      (d.upBoardPorts p).foldl (fun d q =>
        d.sendOn q 0 (d.ownPkt q 0x20 (slice k.data 0 8 ++ be 4 lead' ++ slice k.data 12 16 ++ be 1 2 ++ be 3 0))) d
    else d

/-- TICK (R365). -/
def execTick (port : Nat) (k : Pkt) (s : State) : Host.Outcome State Fault Refusal :=
  s.done (s.dev.onPacket port 0x20 k (fun d => d.tickPkt port k))

/-- The source a worker takes its tick from (R365): HOPS 1, else the HOPS 2 that arrived first, else TICK_IN; the sources stand in the
order in which they arrived. -/
def bestSrc (l : List TickSrc) : Option TickSrc :=
  match l.find? (fun x => x.source == 3) with
  | some x => some x
  | none => (l.find? (fun x => x.source == 4)).or (l.find? (fun x => x.source == 5))

/-- After a tick of a worker, its summary goes to its manager (R440). -/
def Device.sendSummary (d : Device) : Device :=
  if d.role = 1 then d.toManager 3 (slice d.stat.page 0 256) else d

/-- A worker's tick from its source (R363, R365, R366). -/
def Device.workerTick (d : Device) : Device :=
  match bestSrc d.klz.srcs with
  | none => d
  | some x =>
    let fromMgr := x.source ≠ 5
    let d := d.setKlz { d.klz with srcs := [], ticked := true, lost := if fromMgr then false else d.klz.lost }
    let d := (d.wr Reg.KLZ_TICK_SOURCE 0 x.source).wr Reg.KLZ_TICK_OFFSET_NS 0 (sat16 ((d.clock.now : Int) - x.at_))
    let d := d.wr Reg.KLZ_TICK_MGR_PRESENT 0 (b2n !d.klz.lost)
    (d.tickAll x.number (!d.klz.lost && d.klz.boardUp.isSome) false).sendSummary

/-- The manager's tick from its own timer (R365, R366, R369): TICK_OUT rises; a time master sends TIME. -/
def Device.managerTick (d : Device) : Device :=
  let n := d.klz.number + 1
  let follows := d.rd Reg.KLZ_TICK_TM_PRESENT == 1 && d.rd Reg.KLZ_ID_TIME_MASTER == 0
  let d := { d with pins := { d.pins with tickOut := d.pins.tickOut + 1 } }
  let d := d.setKlz { d.klz with ticked := true, adjust := 0 }
  let d := (d.wr Reg.KLZ_TICK_SOURCE 0 (if follows then 2 else 1)).wr Reg.KLZ_TICK_MGR_PRESENT 0 1
  let d := d.tickAll n true false
  if d.rd Reg.KLZ_ID_TIME_MASTER = 1 then
    d.upPorts.foldl (fun d p => d.sendOn p 0 (d.ownPkt p 0x23 (d.tickPayload (n + 1) (d.nextTickAt - d.clock.now).toNat 1))) d
  else d

/-- WHEEL_TICK: the module's tick, from the source it has (R28, R365). -/
def execWheelTick (s : State) : Host.Outcome State Fault Refusal :=
  s.done (if !s.dev.live then s.dev else if s.dev.role = 2 then s.dev.managerTick
    else if s.dev.role = 1 ∧ s.dev.klz.conflict = false then s.dev.workerTick else s.dev)

/-- MANAGER_TICK (R365, R366). -/
def execManagerTick (s : State) : Host.Outcome State Fault Refusal :=
  s.done (if s.dev.live && s.dev.role == 2 then s.dev.managerTick else s.dev)

/-- MISSED_TICK: a worker whose source delivers nothing fires from its own timer (R365). -/
def Device.missedTick (d : Device) : Device :=
  let d := (d.count Reg.KLZ_TICK_MISSED 0).wr Reg.KLZ_TICK_SOURCE 0 1
  (d.tickAll (d.klz.number + 1) false false).sendSummary

/-- MISSED_TICK (R363, R365). -/
def execMissedTick (s : State) : Host.Outcome State Fault Refusal :=
  let d := s.dev
  s.done (if d.live && d.role == 1 && d.klz.ticked && !d.klz.lost && d.klz.srcs.isEmpty then d.missedTick else d)

/-- SUBSTITUTE_TICK: a worker that has lost its manager ticks from its own timer (R363), which MISSED counts (DEDUCED, log 26). -/
def execSubstituteTick (s : State) : Host.Outcome State Fault Refusal :=
  let d := s.dev
  s.done (if d.live && d.role == 1 && d.klz.lost then
    (((d.count Reg.KLZ_TICK_MISSED 0).wr Reg.KLZ_TICK_SOURCE 0 1).tickAll (d.klz.number + 1) false true).sendSummary else d)

/-- TICK_SEND: the manager sends the TICK of its next tick over each UP board port (R365). -/
def execTickSend (s : State) : Host.Outcome State Fault Refusal :=
  let d := s.dev
  s.done (if d.live && d.role == 2 then
    d.upBoardPorts.foldl (fun d p =>
      d.sendOn p 0 (d.ownPkt p 0x20 (d.tickPayload (d.klz.number + 1) (d.nextTickAt - d.clock.now).toNat 1))) d
    else d)

/-- TICK_IN: an edge that R497 accepts serves a worker that has no TICK source (R366). -/
def Device.tickInEdge (d : Device) : Device :=
  let now := d.clock.now
  let d := d.setKlz { d.klz with tickIn := some now }
  if d.klz.srcs.any (fun x => x.source != 5) || d.klz.conflict then d
  else d.setKlz { d.klz with srcs := d.klz.srcs ++ [⟨5, d.klz.number + 1, now + d.rd Reg.KLZ_TICK_IN_TICK_IN_DELAY_NS⟩] }

/-- TICK_IN (R366, R497): `lowNs` is how long the line was low. -/
def execTickIn (lowNs : Nat) (s : State) : Host.Outcome State Fault Refusal :=
  let d := s.dev
  let spaced : Bool := match d.klz.tickIn with
    | none => true
    | some t => t + 200000 ≤ d.clock.now
  s.done (if d.live && d.role == 1 && d.rd Reg.KLZ_TICK_IN_TICK_IN_EN == 1 && lowNs ≥ 500 && spaced then d.tickInEdge else d)

/-- MANAGER_LOST (R363). -/
def execManagerLost (s : State) : Host.Outcome State Fault Refusal :=
  let d := s.dev
  s.done (if d.live && d.role == 1 && d.klz.ticked && !d.klz.lost then d.loseManager else d)

/-- A manager adjusts to the period and the tick of its time master (R368, R369): `e` is its own tick time minus the master's. -/
def Device.adjustTo (d : Device) (k : Pkt) (e : Int) : Device :=
  let d := (d.wr Reg.KLZ_ID_TIME_MASTER 0 0).wr Reg.WHEEL_STATUS_PERIOD_US 0 (fieldBe k.data 12 4)
  let lim : Int := (d.rd Reg.WHEEL_STATUS_PERIOD_US / 10 : Nat)
  let d := d.wr Reg.KLZ_TICK_OFFSET_NS 0 (sat16 e)
  let np := fieldBe k.data 16 4
  let d := if np ≠ 0 then { d with wheel := { d.wheel with period := some (np, fieldBe k.data 20 8) } } else d
  if e.natAbs > 1000 then d.setKlz { d.klz with adjust := d.klz.adjust - e }
  else d.setKlz { d.klz with trim := min (max (d.klz.trim - e.tdiv 8) (-lim)) lim }

/-- A TIME packet (R368, R369): the first copy of a number of a master is flooded, compensated; a manager adjusts to the master, which a copy names
as SRC (DEDUCED; log entry 15). The master floods no copy of its own TIME. -/
def Device.timePkt (d : Device) (p : Nat) (k : Pkt) : Device :=
  let number := fieldBe k.data 0 8
  let lead := fieldBe k.data 8 4 - d.rd Reg.KLZ_PORT_STATUS_DELAY_NS p
  let hops := fieldLe k.data 28 1
  if k.src = d.ownChip ∨ (d.timesOf k.src).contains number then d
  else
    let d := d.setKlz { d.klz with times := Tab.insert d.klz.times k.src ((number :: d.timesOf k.src).take 8) }
    let d := (d.upPorts p).foldl (fun d q =>
      d.sendOn q 0 { d.ownPkt q 0x23 (slice k.data 0 8 ++ be 4 lead ++ slice k.data 12 16 ++ be 1 (hops + 1) ++ be 3 0) with src := k.src }) d
    if d.outdated k.src then d
    else
    let d := (d.setKlz { d.klz with timeAt := d.clock.now }).wr Reg.KLZ_TICK_TM_PRESENT 0 1
    if d.role ≠ 2 then d
    else (d.follow k.src).adjustTo k (d.nextTickAt - ((d.clock.now : Int) + lead))

/-- TIME (R369). -/
def execTime (port : Nat) (k : Pkt) (s : State) : Host.Outcome State Fault Refusal :=
  s.done (s.dev.onPacket port 0x23 k (fun d => d.timePkt port k))

/-- TIME_MASTER_LOST: the manager runs from its own timer (R370). -/
def execTimeMasterLost (s : State) : Host.Outcome State Fault Refusal :=
  let d := s.dev
  s.done (if d.live && d.role == 2 && d.klz.master.isSome && d.klz.master != some d.ownChip && d.rd Reg.KLZ_TICK_TM_PRESENT == 1 then
    let d := d.setKlz { d.klz with trim := 0, adjust := 0 }
    (((d.wr Reg.KLZ_TICK_TM_PRESENT 0 0).wr Reg.KLZ_TICK_SOURCE 0 1).post { code := 0x3A }) else d)

/-! The wheel within a tick -/

/-- SUBSLOT_BOUNDARY: the next sub-slot of the row begins (R45, R46, R462). -/
def execSubslotBoundary (s : State) : Host.Outcome State Fault Refusal :=
  let d := s.dev
  let sub := d.rd Reg.WHEEL_STATUS_SUBSLOT
  s.done (if d.live && sub + 1 < d.wheelRow.subs.length then
    ((d.subEnd.wr Reg.WHEEL_STATUS_SUBSLOT 0 (sub + 1)).subBegin).serveCredits else d)

/-- OVERRUN_DEBT_REPAID: in an admitted window that has run for its debt the class is admitted (R46). -/
def execOverrunDebtRepaid (hoop cls : Nat) (s : State) : Host.Outcome State Fault Refusal :=
  let d := s.dev
  s.done (if d.live && hoop < 8 && cls < 16 && d.maskAdmits hoop cls && !d.wheel.held then ((d.setDebt hoop cls 0).admitKernels).serveCredits else d)

/-- FLIP_DRAINED (R337). -/
def execFlipDrained (hoop : Nat) (s : State) : Host.Outcome State Fault Refusal :=
  s.done (if s.dev.live && hoop < 8 then s.dev.flipDrained hoop else s.dev)

end Sys2Proof.Machine
end

