-- ==== Sys2Proof/Machine/KlozarPkt.lean ====
section
/-! DEFINITION. Data and message packets at their target and at their source (R276, R350 to R355, Tables 10-8, 14-5, 14-6). -/

namespace Sys2Proof.Machine

/-! Answers -/

/-- An answer of this module to a packet, with RSTATUS in its OFFSET (Table 14-3). -/
def Device.respond (d : Device) (k : Pkt) (ptype status : Nat) (data : Bytes) : Device :=
  let r : Pkt := { dst := k.src, src := d.ownChip, ptype := ptype, tag := k.tag, job := k.job, win := k.win, offset := status, data := data }
  (d.sendPkt r).getD d

/-- The answer of a hoop that served or refused a packet: its bytes both ways count for the hoop (R428). -/
def Device.respondFor (d : Device) (h : Nat) (k : Pkt) (ptype status : Nat) (data : Bytes) : Device :=
  ((d.cnt h 12 (16 + k.data.length)).cnt h 11 (16 + data.length)).respond k ptype status data

/-! The target of a remote access -/

/-- Checks 4 to 7 of Table 10-8 for `n` bytes that need permission bit `need`, in a hoop that holds the source's JOB: an RSTATUS,
or the device address (R276). The descriptor slot is named directly, and a host-tier segment translates nothing. -/
def Device.remoteAt (d : Device) (h need n : Nat) (k : Pkt) : Device × Except Nat Nat :=
  let w := d.win h k.win
  let entry := h * 32 + 16 + k.win
  let slot := h * 32 + w.seg
  if d.sliceBad h k.src then (d, .error 3)
  else if !d.inSlice h k.src then (d, .error 1)
  else if !d.buffered 580 entry && d.badAt (d.tableAddr h + 512 + 32 * k.win) 32 then (d, .error 3)
  else
    let d := d.touch 580 entry
    if !w.valid then (d, .error 1)
    else if d.hoopState h ≠ 1 ∨ w.limit < k.offset + n ∨ w.perm.testBit need = false then (d, .error 2)
    else if !d.buffered 580 slot && d.tableBad h w.seg then (d, .error 3)
    else
      (d.touch 580 slot, match d.checkSeg h w.seg (w.base + k.offset) n [need] false false with
        | .error _ => .error 2
        | .ok s => match s.place (w.base + k.offset) with
          | .dev a => .ok a
          | .host _ => .error 2)

/-- A refusal at the target: counted among the hoop's errors by class, and answered (R276). Class MEMORY, and DATA for RSTATUS 3; log
entry 33. -/
def Device.refuseFor (d : Device) (h : Nat) (k : Pkt) (status : Nat) : Device :=
  let c := if status = 3 then 2 else 3
  (d.modHstat h (fun x => { x with errors := Tab.put 0 x.errors c (satAdd 32 (Tab.get 0 x.errors c) 1) })).respondFor h k 0x07 status []

/-- A remote request at its target: refused, or served at a device address; held while a SEGMENT_WRITE replaces what translates it (R270). -/
def Device.serve (d : Device) (need n : Nat) (reads : Bool) (k : Pkt) (f : Device → Nat → Nat → Device) : Device :=
  match d.jobHoop k.job with
  | none => d.respond k 0x07 1 []
  | some h =>
    if d.winClosed h k.win || d.segClosed h (d.win h k.win).seg then
      { d with boot := { d.boot with held := d.boot.held ++ [.remote k] } }
    else
    let r := d.remoteAt h need n k
    match r.2 with
    | .error st => r.1.refuseFor h k st
    | .ok a => if reads && r.1.badAt a n then r.1.refuseFor h k 3 else f r.1 h a

/-- A read: at the home slice, without allocating. -/
def Device.serveRead (d : Device) (k : Pkt) : Device :=
  let n := fieldLe k.data 7 1
  d.serve 3 n true k (fun d h a => (d.cohRead 4 h a n false).respondFor h k 0x02 0 (d.mem.read a n))

/-- A write. -/
def Device.serveWrite (d : Device) (k : Pkt) : Device :=
  d.serve 4 k.data.length false k (fun d h a => (d.agentWrite 4 h a k.data false).respondFor h k 0x04 0 [])

/-- An atomic (Table 14-11). -/
def Device.serveAtomic (d : Device) (k : Pkt) : Device :=
  let f := fieldLe k.data 0 1
  let n := if f.testBit 4 then 8 else 4
  d.serve 5 n true k (fun d h a =>
    let old := ofLe (d.mem.read a n)
    let new := atomicNew (f % 16) (8 * n) (f.testBit 5) old (fieldBe k.data (16 - n) n) (fieldBe k.data (24 - n) n)
    ((d.cohAtomic 4 h a n).writeDev a (le n new)).respondFor h k 0x06 0 (be 8 old))

/-- RD_REQ. -/
def execRdReq (port : Nat) (k : Pkt) (s : State) : Host.Outcome State Fault Refusal :=
  s.done (s.dev.onPacket port 0x01 k (fun d => d.serveRead k))

/-- WR. -/
def execWr (port : Nat) (k : Pkt) (s : State) : Host.Outcome State Fault Refusal :=
  s.done (s.dev.onPacket port 0x03 k (fun d => d.serveWrite k))

/-- ATOM_PACKET. -/
def execAtomPacket (port : Nat) (k : Pkt) (s : State) : Host.Outcome State Fault Refusal :=
  s.done (s.dev.onPacket port 0x05 k (fun d => d.serveAtomic k))

/-! The source of a remote access -/

/-- Bytes as they come for the waiter of a request, or its fault code; empty bytes acknowledge a write (R276, R292, R352). -/
def Device.settleRemote (d : Device) (n : Nat) (r : Remote) (come : Except Nat Bytes) : Device :=
  let p := r.chip * 2 ^ 52 + r.win * 2 ^ 48 + r.off
  match r.kind with
  | 0 => d.loadAnswer r.a r.b r.c n come
  | 1 =>
    d.modBlock r.a r.b (fun b => if b.gstOut.contains n then
      { b with gstOut := b.gstOut.erase n,
               gstFail := match come with
                 | .ok _ => b.gstFail
                 | .error _ => b.gstFail.or (some (0x15, p, 0)) } else b)
  | _ =>
    if !r.writes then d.descArrived r.a n r.b come
    else if (d.desc? r.a).any (fun (x : Desc) => x.putTag == some n) then d.putDone r.a p come
    else d

/-- The open request of a chip that an answer with a TAG serves is over. -/
def Device.dropRemote (d : Device) (n : Nat) : Device := d.setKlz { d.klz with remotes := Tab.erase d.klz.remotes n }

/-- An answer to a request of a hoop has come: its bytes and its round trip are counted (R428, Table 17-4). -/
def Device.countAnswer (d : Device) (r : Remote) (k : Pkt) : Device :=
  let d := if k.data = [] then d.ringCtl 4 (d.remoteDie r) else d.ringData 4 (d.remoteDie r) k.data.length
  (d.cnt r.hoop 12 (16 + k.data.length)).sample r.hoop 2 (d.clock.now - r.sent)

/-- An answer to an open request of a packet type. A REFUSE with RSTATUS 4 comes from the module that found no route, and names the request by its TAG alone
(R357). -/
def Device.answered (d : Device) (reqs : List Nat) (k : Pkt) (come : Remote → Except Nat Bytes) : Device :=
  match (if k.ptype = 0x07 ∧ k.offset % 256 = 4 then d.remoteTag k.tag else d.remoteOf k.src k.tag) with
  | none => d
  | some (n, r) =>
    if reqs.contains r.pkt.ptype then ((d.dropRemote n).countAnswer r k).settleRemote n r (come r) else d

/-- RD_RSP: the bytes that were asked for. -/
def execRdRsp (port : Nat) (k : Pkt) (s : State) : Host.Outcome State Fault Refusal :=
  s.done (s.dev.onPacket port 0x02 k (fun d => d.answered [0x01] k (fun r => .ok (slice k.data 0 (fieldLe r.pkt.data 7 1)))))

/-- WR_ACK. -/
def execWrAck (port : Nat) (k : Pkt) (s : State) : Host.Outcome State Fault Refusal :=
  s.done (s.dev.onPacket port 0x04 k (fun d => d.answered [0x03] k (fun _ => .ok [])))

/-- The prior word of an ATOM_RSP as bytes of memory order. -/
def oldWord (req rsp : Pkt) : Bytes := le (if (fieldLe req.data 0 1).testBit 4 then 8 else 4) (fieldBe rsp.data 0 8)

/-- ATOM_RSP. -/
def execAtomRsp (port : Nat) (k : Pkt) (s : State) : Host.Outcome State Fault Refusal :=
  s.done (s.dev.onPacket port 0x06 k (fun d => d.answered [0x05] k (fun r => .ok (oldWord r.pkt k))))

/-- REFUSE: the fault of its RSTATUS (Table 14-5). -/
def execRefuse (port : Nat) (k : Pkt) (s : State) : Host.Outcome State Fault Refusal :=
  s.done (s.dev.onPacket port 0x07 k (fun d => d.answered [0x01, 0x03, 0x05] k (fun _ => .error (rstatusFault (k.offset % 256)))))

/-- A request without an answer ends as REMOTE_REFUSED, a message undelivered; its RSTATUS is free, since none came (R352, R354). -/
def Device.remoteTimeout (d : Device) (n : Nat) : Device :=
  match Tab.find? d.klz.remotes n with
  | none => d
  | some r =>
    let d := d.dropRemote n
    if r.kind = 3 then let f := d.free 8; f.1.msgEnds r false f.2 else d.settleRemote n r (.error 0x15)

/-- REMOTE_TIMEOUT: `tag` is the model's number of the request. -/
def execRemoteTimeout (tag : Nat) (s : State) : Host.Outcome State Fault Refusal :=
  s.done (if s.dev.live then s.dev.remoteTimeout tag else s.dev)

/-! Messages -/

def Device.rxq (d : Device) (key : Nat) : RxQueue := Tab.get {} d.klz.rxqs key
def Device.setRxq (d : Device) (key : Nat) (x : RxQueue) : Device := d.setKlz { d.klz with rxqs := Tab.put {} d.klz.rxqs key x }

/-- Whether a receive queue admits the source of a message (R353). The JOB of another chip's hoop is not seen here; log entry 32. -/
def Device.rxAdmits (d : Device) (h accept : Nat) (k : Pkt) : Bool :=
  let job := d.rd Reg.HOOP_REMOTE_JOB h
  match accept with
  | 0 => false
  | 1 => true
  | 2 => job != 0 && (if k.src = d.ownChip then d.rd Reg.HOOP_REMOTE_JOB (k.job % 8) == job
      else (Config.peerJob d.fresh k.src (k.job % 8)).toNat == job)
  | _ => k.src == d.ownChip

/-- The header of a receive record (Table 14-6). -/
def Device.rxHeader (d : Device) (h seq : Nat) (k : Pkt) : Bytes :=
  le 2 (k.src % 4096) ++ le 1 (k.job % 8) ++ le 1 0 ++ le 4 k.data.length ++ le 8 seq ++ le 8 (d.time h) ++ le 40 0

/-- Answer a message for a hoop. -/
def Device.msgAck (d : Device) (h : Nat) (k : Pkt) (status : Nat) : Device := d.respondFor h k 0x11 status []

/-- A message whose record or TAIL cannot be written is refused; the manual gives no RSTATUS, which is free among those that refuse. -/
def Device.msgLost (d : Device) (h : Nat) (k : Pkt) : Device :=
  let f := d.free 8
  f.1.msgAck h k (1 + f.2 % 6)

/-- The acceptance of a message: record, then TAIL, then the acknowledgement (R353). -/
def Device.msgTake (d : Device) (key : Nat) (k : Pkt) : Device :=
  let h := key / 16
  let x := d.rxq key
  match d.writeVa h (x.ring + x.seq % 2 ^ x.countLog2 * 2 ^ x.slotLog2) (d.rxHeader h x.seq k ++ k.data) (who := h) with
  | none => d.msgLost h k
  | some d =>
    match d.writeVa h x.ctrl (le 4 (x.seq + 1)) (who := h) with
    | none => d.msgLost h k
    | some d => (d.setRxq key { x with seq := x.seq + 1 }).msgAck h k 0

/-- Whether TAIL has reached HEAD as last read (R355). -/
def RxQueue.full (x : RxQueue) : Bool := ringDiff 32 x.seq x.head ≥ 2 ^ x.countLog2

/-- Read HEAD: its value, a failure, or nothing yet while a read of the host is open (R267, R355). -/
def Device.readHead (d : Device) (key : Nat) : Device × Except Nat (Option Nat) :=
  let h := key / 16
  let va := (d.rxq key).ctrl + 64
  let d := d.seenVa h va 4 (who := h)
  match d.readVa h va 4 with
  | .ok b => (d, .ok (some (ofLe b)))
  | .error e =>
    if e ≠ hostTier then (d, .error e)
    else if d.flow.reads.any (fun (r : Nat × HRead) => r.2.kind == 8 && r.2.a == key) then (d, .ok none)
    else if !d.mayMaster (d.ownerFn h) then (d, .error 0xA)
    else
      let s := d.seg h (d.slotOf h (d.curMap h) (bits va 47 44))
      (d.openRead { kind := 8, a := key, b := 0, c := 0, fn := d.ownerFn h, addr := s.base + va % 2 ^ 44 } 4, .ok none)

/-- A message at its queue: a full one reads HEAD, and refuses the message while no slot is known to be free (check 4 of R353). -/
def Device.msgQueue (d : Device) (key : Nat) (k : Pkt) : Device :=
  if !(d.rxq key).full then d.msgTake key k
  else
    let r := d.readHead key
    match r.2 with
    | .error _ => r.1.msgAck (key / 16) k 5
    | .ok none => r.1.setRxq key { r.1.rxq key with held := (r.1.rxq key).held ++ [(k.tag, k)] }
    | .ok (some v) =>
      let d := r.1.setRxq key { r.1.rxq key with head := v }
      if (d.rxq key).full then d.msgAck (key / 16) k 5 else d.msgTake key k

/-- HEAD comes from the host, or its read fails: the messages that waited go on. -/
def Device.headArrived (d : Device) (key : Nat) (come : Except Nat Bytes) : Device :=
  let x := d.rxq key
  let d := d.setRxq key { x with held := [], head := match come with | .ok b => ofLe b | .error _ => x.head }
  x.held.foldl (fun d y =>
    if (d.rxq key).accept = 0 then d.msgAck (key / 16) y.2 6
    else if (d.rxq key).full then d.msgAck (key / 16) y.2 5
    else d.msgTake key y.2) d

/-- A message at its target, checked in the order of R353. -/
def Device.msgArrives (d : Device) (k : Pkt) : Device :=
  let h := k.offset % 8
  let key := h * 16 + bits k.offset 6 3
  let x := d.rxq key
  if d.hoopState h ≠ 1 then (if d.hoopState h = 0 then d.respond k 0x11 2 [] else d.msgAck h k 2)
  else
    let ok := d.rxAdmits h x.accept k
    let d := if x.accept = 2 then d.step1 else d
    if !ok ∨ 2 ^ x.slotLog2 < 64 + k.data.length then d.msgAck h k 6 else d.msgQueue key k

/-- MSG. -/
def execMsg (port : Nat) (k : Pkt) (s : State) : Host.Outcome State Fault Refusal :=
  s.done (s.dev.onPacket port 0x10 k (fun d => d.msgArrives k))

/-- The acknowledgement of a message reaches its sender: it ends, or is due to be sent again (R353). -/
def Device.msgAcked (d : Device) (k : Pkt) : Device :=
  match d.remoteOf k.src k.tag with
  | none => d
  | some (n, r) =>
    if r.kind ≠ 3 then d
    else
      let st := k.offset % 256
      if st = 5 ∧ d.clock.now < r.sent + 1000000 then
        (d.cnt r.hoop 12 16).setKlz { d.klz with remotes := Tab.insert d.klz.remotes n { r with resend := true } }
      else ((d.dropRemote n).countAnswer r k).msgEnds r (st == 0) st

/-- MSG_ACK. -/
def execMsgAck (port : Nat) (k : Pkt) (s : State) : Host.Outcome State Fault Refusal :=
  s.done (s.dev.onPacket port 0x11 k (fun d => d.msgAcked k))

/-- A message that found its queue full is sent again, until 1 ms after its first send (R353). -/
def Device.msgResend (d : Device) (n : Nat) : Device :=
  match Tab.find? d.klz.remotes n with
  | none => d
  | some r =>
    if !r.resend then d
    else if r.sent + 1000000 ≤ d.clock.now then (d.dropRemote n).msgEnds r false 5
    else
      let d := d.setKlz { d.klz with remotes := Tab.insert d.klz.remotes n { r with resend := false } }
      match d.sendPkt r.pkt with
      | none => d
      | some d => d.cnt r.hoop 11 (16 + r.pkt.data.length)

/-- MSG_RESEND: `tag` is the model's number of the message. -/
def execMsgResend (tag : Nat) (s : State) : Host.Outcome State Fault Refusal :=
  s.done (if s.dev.live then s.dev.msgResend tag else s.dev)

end Sys2Proof.Machine
end

