-- ==== Sys2Proof/Machine/Flits.lean ====
section
/-! DEFINITION. Flits as they arrive: acknowledgement, replay, credits, packets taken from a stream, cut-through and aborts (R346 to R348,
R351, R356, R357). -/

namespace Sys2Proof.Machine

/-! Packets -/

/-- A packet for another chip leaves on its route one class higher; where it cannot, it is discarded, and a request refused (R348,
R356, R357). -/
def Device.forward (d : Device) (cls : Nat) (k : Pkt) : Device :=
  match d.routePort k.dst (cls + 1) with
  | some p => d.sendOn p (cls + 1) k
  | none => if [0x01, 0x03, 0x05].contains k.ptype then d.respond k 0x07 4 [] else d

/-- PACKET_FORWARD: a packet that arrived in hop class `cls`. -/
def execPacketForward (port cls : Nat) (k : Pkt) (s : State) : Host.Outcome State Fault Refusal :=
  let d := s.dev
  s.done (if !d.live || !d.portUp port || cls > 3 || k.dst == d.ownChip then d
    else if !pktOk k then d.discardPkt port
    else d.forward cls k)

/-- A MGMT packet (Table 14-12). -/
def Device.mgmtPkt (d : Device) (p : Nat) (k : Pkt) : Device :=
  match fieldBe k.data 0 2 with
  | 1 => d.boardUpMsg p k
  | 2 => d.portReport k
  | _ => d.statsSummary k

/-- A packet for this chip, by its type (Table 14-4). -/
def Device.takePkt (d : Device) (p : Nat) (k : Pkt) : Device :=
  match k.ptype with
  | 0x01 => d.serveRead k
  | 0x02 => d.answered [0x01] k (fun r => .ok (slice k.data 0 (fieldLe r.pkt.data 7 1)))
  | 0x03 => d.serveWrite k
  | 0x04 => d.answered [0x03] k (fun _ => .ok [])
  | 0x05 => d.serveAtomic k
  | 0x06 => d.answered [0x05] k (fun r => .ok (oldWord r.pkt k))
  | 0x07 => d.answered [0x01, 0x03, 0x05] k (fun _ => .error (rstatusFault (k.offset % 256)))
  | 0x10 => d.msgArrives k
  | 0x11 => d.msgAcked k
  | 0x20 => d.tickPkt p k
  | 0x21 => d.sendOn p 0 (d.ownPkt p 0x22 (slice k.data 0 8 ++ be 8 d.clock.now ++ be 8 d.clock.now))
  | 0x22 => d.delayRsp p k
  | 0x23 => d.timePkt p k
  | 0x28 => d.mgmtPkt p k
  | _ => d.linkState p k

/-- A whole packet for this chip has come on a port (R351). -/
def Device.packetIn (d : Device) (p : Nat) (k : Pkt) : Device := if pktOk k then d.takePkt p k else d.discardPkt p

/-! Streams: the packets under way of an input port, one for each VC and class -/

def Device.rxOf (d : Device) (p key : Nat) : RxPkt := Tab.get {} (d.port p).rx key
def Device.setRx (d : Device) (p key : Nat) (r : RxPkt) : Device :=
  let x := d.port p
  d.setPort p { x with rx := Tab.put {} x.rx key r }

/-- The header of a packet is complete (R351, R356, R357): a packet for this chip leaves the receive buffer as it comes; one for another chip goes to its
output port one class higher, and waits there in this port's buffer; one that cannot is discarded, and a request refused. Sixteen zeros that PSTART does
not name are no header, but padding (log entry 14). -/
def Device.headDone (d : Device) (p key : Nat) (r : RxPkt) : Device :=
  let k := pktOf r.bytes []
  let n := pktLen r.bytes
  let freed := d.leaveFlits p (r.segs.map (·.1))
  if r.bytes.all (· == 0) && !r.named then freed.setRx p key {}
  else
    let dropped : RxPkt := if n = 0 then {} else { left := some n, drop := true }
    let counted := freed.cnt 8 (101 + 2 * p) 16
    if !pktHeadOk k n then (counted.discardPkt p).setRx p key dropped
    else if k.dst = d.ownChip then
      if n = 0 then (counted.setRx p key {}).packetIn p k else counted.setRx p key { bytes := r.bytes, left := some n }
    else match d.routePort k.dst (key % 4 + 1) with
      | none =>
        let d := counted.setRx p key dropped
        if [0x01, 0x03, 0x05].contains k.ptype then d.respond k 0x07 4 [] else d
      | some q =>
        let d := (d.cnt 8 (101 + 2 * p) 16).emit (.packet q k)
        let d := d.cnt 8 (100 + 2 * q) (16 + n)
        let d := d.setRx p key (if n = 0 then {} else { left := some n, fwd := some (q, d.klz.pkts) })
        d.queuePkt q { id := 0, vc := key / 4, cls := key % 4 + 1, bytes := r.bytes, more := n, from_ := p, segs := r.segs }

/-- Bytes of a flit of SEQ `n` that belong to a header. -/
def Device.rxHead (d : Device) (p key n : Nat) (r : RxPkt) (c : Bytes) (named : Bool := false) : Device :=
  let r : RxPkt := { r with named := r.named || named, bytes := r.bytes ++ c, segs := r.segs ++ [(n, c.length)] }
  let d := d.holdFlit p n key
  if r.bytes.length < 16 then d.setRx p key r else d.headDone p key r

/-- Bytes of a flit of SEQ `n` that belong to the data of a packet, of which `m` are still to come: they are kept for this chip, handed to the output
port, or discarded; with the last one the packet ends. -/
def Device.rxBody (d : Device) (p key n m : Nat) (r : RxPkt) (c : Bytes) : Device :=
  let d := d.cnt 8 (101 + 2 * p) c.length
  let r' : RxPkt := { r with left := some (m - c.length), bytes := if r.drop || r.fwd.isSome then [] else r.bytes ++ c }
  let d := d.setRx p key (if c.length < m then r' else {})
  match r.fwd with
  | some (q, id) =>
    let x := d.port q
    if x.waiting.any (fun y => y.id == id) then
      (d.setPort q { x with waiting := x.waiting.map (fun y => if y.id = id then
        { y with bytes := y.bytes ++ c, more := m - c.length, segs := y.segs ++ [(n, c.length)] } else y) }).holdFlit p n key
    else d
  | none => if r.drop || c.length < m then d else d.packetIn p (pktOf (r'.bytes.take 16) (r'.bytes.drop 16))

/-- Take the packets of a payload flit from offset `o` on (R346, R350, Table 14-1): the packet under way goes on; where none is, the first header that
begins in the flit lies at PSTART, and a further one follows the packet before it. The fuel bounds the packets of a flit. -/
def Device.takeStream (d : Device) (p key : Nat) (f : Flit) : Nat → Bool → Nat → Device
  | 0, _, _ => d
  | fuel + 1, began, o =>
    let r := d.rxOf p key
    if 242 ≤ o || !d.portUp p then d
    else match r.left with
      | some m =>
        let c := (f.payload.drop o).take m
        (d.rxBody p key f.seq m r c).takeStream p key f fuel began (o + c.length)
      | none =>
        if r.bytes = [] ∧ began = false ∧ (f.pstart ≥ 242 ∨ f.pstart < o) then d
        else
          let o := if r.bytes = [] ∧ began = false then f.pstart else o
          let c := (f.payload.drop o).take (16 - r.bytes.length)
          if r.bytes = [] ∧ began = true ∧ c.length = 16 ∧ c.all (· == 0) then d
          else (d.rxHead p key f.seq r c (r.bytes == [] && !began)).takeStream p key f fuel (began || r.bytes == []) (o + c.length)

/-! Flits -/

/-- ACK frees the retry buffer (R347). -/
def Port.acked (x : Port) (ack : Nat) : Port :=
  let rest := x.retry.dropWhile (fun g => (ack + 4096 - g.seq) % 4096 < 2048)
  { x with retry := rest, again := x.again.filter (fun f => rest.any (fun g => g.seq == f.seq)),
           seqReplays := if rest.length = x.retry.length then x.seqReplays else 0 }

/-- NAK: every flit that ACK does not cover is sent again; a port that replays too much fails (R347, Table 14-8). -/
def Device.replay (d : Device) (p : Nat) : Device :=
  let x := d.port p
  if x.retry.isEmpty then d
  else
    let now := d.clock.now
    let times := now :: x.replays.filter (fun t => now < t + 1000000)
    let d := d.setPort p { x with replays := times, seqReplays := x.seqReplays + 1, again := x.retry }
    if x.seqReplays + 1 ≥ 8 ∨ times.length > 64 then d.failPort p 3 else d

/-- A flit is discarded: the next flit asks for a replay (R347). -/
def Device.nak (d : Device) (p : Nat) : Device := d.setPort p { d.port p with naking := true, nakDue := true }

/-- What FEC found counts; a port with too many uncorrectable codewords fails (R345, R371, Table 14-8). -/
def Device.fecSeen (d : Device) (p : Nat) (e : Fec) : Device :=
  let d := (d.countSat Reg.KLZ_PORT_ERR_FEC_CORR p e.corrected).countSat Reg.KLZ_PORT_ERR_FEC_UNCORR p e.uncorrectable
  let x := d.port p
  let now := d.clock.now
  let times := List.replicate e.uncorrectable now ++ x.uncorr.filter (fun t => now < t + 1000000)
  let d := d.setPort p { x with uncorr := times }
  if times.length > 16 then d.failPort p 4 else d

/-- The ACK, NAK and CREDIT that every flit carries; a credit return on VC 0 or 1 is a candidate event of LINK_CREDIT (Table 17-9). -/
def Device.flitControl (d : Device) (p : Nat) (f : Flit) : Device :=
  let d := d.setPort p ((d.port p).acked f.ack)
  let key := f.cvc * 4 + f.ccls
  let d := if f.ccount = 0 then d
    else if f.cvc ≤ 1 then
      (d.perturb 2 p).lateOr (d.perturbDelay 2 p) (.linkCredit p key f.ccount) (fun d => d.creditBack p key f.ccount)
    else d.creditBack p key f.ccount
  if f.nak then d.replay p else d

/-- A payload flit in order enters the receive buffer; its packets are taken. Zeros that look like the start of a header were padding where
PSTART names one before it could end (log entry 14). -/
def Device.payloadFlit (d : Device) (p : Nat) (f : Flit) : Device :=
  let key := f.vc * 4 + f.cls
  let x := d.port p
  let d := d.setPort p { x with rxSeq := (x.rxSeq + 1) % 4096, naking := false }
  let d := (d.count Reg.KLZ_PORT_TRAFFIC_RX_FLITS p).holdFlit p f.seq key
  let r := d.rxOf p key
  let d := if r.bytes ≠ [] ∧ f.pstart < 16 - r.bytes.length ∧ r.left = none then (d.leaveFlits p (r.segs.map (·.1))).setRx p key {} else d
  (d.takeStream p key f 40 false 0).leaveFlit p f.seq

/-- An abort flit in order: the packet under way is discarded, and the abort goes on where the packet did (R356). -/
def Device.abortFlit (d : Device) (p : Nat) (f : Flit) : Device :=
  let key := f.vc * 4 + f.cls
  let x := d.port p
  let d := (d.setPort p { x with rxSeq := (x.rxSeq + 1) % 4096, naking := false }).holdFlit p f.seq key
  let r := d.rxOf p key
  let d := (d.setRx p key {}).leaveFlits p (r.segs.map (·.1))
  let d := match r.fwd with
    | some (q, id) => d.cutPkt q id
    | none => d
  d.leaveFlit p f.seq

/-- A flit at a port that is UP (R347): idle flits have no SEQ, a reserved FTYPE is discarded. `good` says that FEC and CRC accept it. -/
def Device.flitIn (d : Device) (p : Nat) (good : Bool) (f : Flit) : Device :=
  if !d.portUp p then d
  else if !good then d.nak p
  else if f.ftype = 0 then d.flitControl p f
  else if f.ftype > 2 then d
  else if f.seq ≠ (d.port p).rxSeq then (if (d.port p).naking then d else d.nak p)
  else
    let d := d.flitControl p f
    if !d.portUp p then d else if f.ftype = 1 then d.payloadFlit p f else d.abortFlit p f

/-- FLIT_RECEIVE: the 256 bytes of a flit after FEC. -/
def execFlitReceive (port : Nat) (f : RxFlit) (s : State) : Host.Outcome State Fault Refusal :=
  s.done (if s.dev.live && s.dev.portUp port then
    (s.dev.fecSeen port f.fec).flitIn port (f.fec.good && flitGood f.bytes) (flitOf f.bytes) else s.dev)

/-- ABORT_FLIT: a flit of FTYPE 2. -/
def execAbortFlit (port : Nat) (f : RxFlit) (s : State) : Host.Outcome State Fault Refusal :=
  s.done (if s.dev.live && s.dev.portUp port && (flitOf f.bytes).ftype == 2 then
    (s.dev.fecSeen port f.fec).flitIn port (f.fec.good && flitGood f.bytes) (flitOf f.bytes) else s.dev)

end Sys2Proof.Machine
end

