-- ==== Sys2Proof/Machine/HostRegs.lean ====
section
/-! DEFINITION. Register writes of the host (R8 to R11, R381 to R385), those with rows of their own among them. -/

namespace Sys2Proof.Machine

/-! Where a register lies -/

/-- The place of a BAR0 offset: PF offsets as they are, ring windows from 0x8000000; none where a function has no register (R383, Tables
15-3 and 15-4). -/
def barPlace (fn o : Nat) : Option Nat :=
  if fn = 0 then (if 0x1000 ≤ o ∧ o < 0x2000 then some (0x8000000 + (o - 0x1000)) else if o < 2 ^ 26 then some o else none)
  else if o < 0x1000 then some (0x100000 + 0x10000 * (fn - 1) + o)
  else if o < 0x2000 then some (0x8000000 + 0x1000 * fn + (o - 0x1000))
  else none

/-- The instance of a register that holds a place. -/
def RegD.at_ (g : RegD) (a : Nat) : Option (Nat × Nat) :=
  let i := if g.stride = 0 then 0 else (a - g.base) / g.stride
  let o := a - g.base - i * g.stride
  if g.base ≤ a && i < g.count && o < g.bits / 8 then some (i, o) else none

/-- The register at a place, its instance and the byte of it. -/
def findReg (a : Nat) : Option (RegD × Nat × Nat) :=
  let t := if a ≥ 0x8000000 then Reg.ringTable else if 0x100000 ≤ a then Reg.hoopTable else Reg.pfTable
  t.findSome? (fun g => (g.at_ a).map (fun x => (g, x.1, x.2)))

/-- Whether an access of a width, aligned, can reach a byte of a register (R384). -/
def RegD.reached (g : RegD) (a w : Nat) : Bool :=
  a % w == 0 && (if g.bits = 16 then w == 2 || w == 4 || w == 8 else if g.bits = 32 then w == 4 else if g.bits = 64 then w == 4 || w == 8 else w == 8)

/-! What a write does -/

/-- Whether the lock of a register's RWL fields is 1 (R59, R403, R404, R424). -/
def Device.locked (d : Device) (g : RegD) (i : Nat) : Bool :=
  if g.base = 0x100048 ∨ g.base = 0x100050 ∨ g.base = 0x100068 then d.rd Reg.HOOP_CFG_TABLES_LOCK i == 1
  else if g.base = 0x100100 then d.rd Reg.HOOP_ERRQ_ENABLE i == 1
  else if g.base = 0x8000000 then d.ringOn i
  else if g.base = 0x51000 ∨ g.base = 0x51008 then d.hdmOn i
  else false

/-- A field after a write of the bits that `mask` covers (R9, R384). -/
def Fld.written (f : Fld) (locked : Bool) (old mask v : Nat) : Nat :=
  let m := bits mask (f.lo + f.width - 1) f.lo
  let x := bits v (f.lo + f.width - 1) f.lo &&& m
  let whole := if f.acc = .w1c ∨ f.acc = .w1s then x else (old - (old &&& m)) + x
  f.acc.apply locked old whole

/-- Write some fields of a register by their access codes. -/
def Device.writeFields (d : Device) (l : List Fld) (locked : Bool) (i mask v : Nat) : Device :=
  l.foldl (fun d f => if bits mask (f.lo + f.width - 1) f.lo = 0 then d else d.wr f i (f.written locked (d.rd f i) mask v)) d

/-- A write that must leave a register in range, or leave it as it was (R297, R470, KLZ_TIMEOUT). -/
def Device.writeIf (d : Device) (g : RegD) (i mask v : Nat) (ok : Device → Bool) : Device :=
  let r := d.writeFields g.fields false i mask v
  if ok r then r else d

/-- THERM_LIMITS within the ranges of Table 18-4, WARN not above THROTTLE (R470). -/
def Device.limitsOk (d : Device) (z : Nat) : Bool :=
  let w := d.rd Reg.THERM_LIMITS_WARN z
  let t := d.rd Reg.THERM_LIMITS_THROTTLE z
  let wMost := if z = 2 then 95 else 105
  let tMost := if z = 2 then 100 else 110
  16 * 70 ≤ w && w ≤ 16 * wMost && 16 * 80 ≤ t && t ≤ 16 * tMost && w ≤ t

/-- The effect of a write of the bits of a register that `mask` covers, reserved bits being 0. -/
def Device.regWrite (d : Device) (g : RegD) (i mask v : Nat) : Device :=
  let plain := d.writeFields g.fields (d.locked g i) i mask v
  let only := fun (l : List Fld) => d.writeFields l (d.locked g i) i mask v
  let low := mask % 2 == 1
  let high := mask.testBit 32
  match g.base with
  | 0x100010 => if (mask &&& v).testBit 4 then d.tablesLock i else d
  | 0x100058 => if high then d.relqHead i (v / 2 ^ 32 % 2 ^ 32) else d
  | 0x100100 =>
    let d := only ([Reg.HOOP_ERRQ_SIZE_LOG2] ++ [Reg.HOOP_ERRQ_BASE])
    if low then d.viewEnable i (v % 2) else d
  | 0x100108 => if high then d.viewHead i (v / 2 ^ 32 % 2 ^ 32) else d
  | 0x100130 => if high then d.traceHead i (v / 2 ^ 32 % 2 ^ 32) else d
  | 0x100138 => if (mask &&& v).testBit 32 then plain.watchResume i else plain
  | 0x60008 => if high then d.errqHead (v / 2 ^ 32 % 2 ^ 32) else d
  | 0x8000000 =>
    let d := only ([Reg.MGMT_RING_SIZE_LOG2] ++ [Reg.MGMT_RING_BASE])
    if low then d.ringEnable i (v % 2) else d
  | 0x8000008 => d.ringTail i (v % 2 ^ 32)
  | 0x21000 =>
    let run := bits v 14 8
    if low && (run == 0 || run > 64) then only [Reg.DISP_CFG_STAGGER_FC] else plain
  | 0x22000 => d.writeIf g i mask v (fun r => r.rd Reg.STREAM_SPLIT_READ i + r.rd Reg.STREAM_SPLIT_WRITE i + r.rd Reg.STREAM_SPLIT_REMOTE i ≤ 16)
  | 0x40218 => d.writeIf g i mask v (fun r => 3 ≤ r.rd Reg.KLZ_TIMEOUT_REMOTE_TIMEOUT_MS && r.rd Reg.KLZ_TIMEOUT_REMOTE_TIMEOUT_MS ≤ 64)
  | 0x70100 => d.writeIf g i mask v (fun r => r.limitsOk i)
  | 0x50000 =>
    let d := only [Reg.CXL_PORT_CFG_BIFURCATE]
    if (mask &&& v).testBit 1 then d.cxlRetrain i else d
  | 0x51008 =>
    let d := only ([Reg.CXL_HDM_CTRL_WAYS] ++ [Reg.CXL_HDM_CTRL_T0] ++ [Reg.CXL_HDM_CTRL_T1] ++ [Reg.CXL_HDM_CTRL_LOST])
    if !low then d else if v.testBit 8 then d.hdmCommit i else d.hdmUncommit i
  | 0x80008 => if low then d.writeFields [Reg.RECOVERY_CTRL_LENGTH] false i mask v else d
  | _ => plain

/-- Whether a place is decoded in the module's stage (R474, R479, R484). -/
def Device.decodes (d : Device) (a : Nat) : Bool :=
  if d.stage = 4 then a < 0x80008 || 0x80010 ≤ a
  else (d.stage == 5 && 0x80000 ≤ a && a < 0x80010) || (d.stage == 6 && 0x80000 ≤ a && a < 0x80008)

/-- A register of 16 bits takes a part of a wider access; no other register is reached by more than one piece (R384): the pieces of an
access as byte offset, place, and width. -/
def pieces (a w : Nat) : List (Nat × Nat × Nat) :=
  match findReg a with
  | some (g, _, _) => if g.bits = 16 then (List.range (w / 2)).map (fun k => (2 * k, a + 2 * k, 2)) else [(0, a, w)]
  | none => []

/-- A write of `w` bytes at a place: none where it writes 1 to a reserved bit (R11). -/
def Device.placeWrite (d : Device) (a w v : Nat) : Option Device :=
  let all := pieces a w
  if !all.all (fun x => match findReg x.2.1 with
      | some (g, _, _) => g.reached a w
      | none => false) then some d
  else all.foldl (fun (m : Option Device) x => match m, findReg x.2.1 with
    | some d, some (g, i, o) =>
      let mask := (2 ^ (8 * x.2.2) - 1) * 2 ^ (8 * o)
      let v := v / 2 ^ (8 * x.1) % 2 ^ (8 * x.2.2) * 2 ^ (8 * o)
      if v - (v &&& g.covered) ≠ 0 then none else some (d.regWrite g i mask v)
    | m, _ => m) (some d)

/-- A register write as a step: a write of 1 to a reserved bit leaves the behaviour undefined (R11). -/
def State.ofWrite (s : State) (r : Option Device) : DevOut :=
  match r with
  | some d => s.done d
  | none => .fault .reservedBitWritten

/-- Whether a write to a function's registers goes on: the host reaches it, and it is not being reset (R391). -/
def Device.regOpen (d : Device) (fn : Nat) : Bool := d.hostOpen fn && !d.inReset fn

/-- A write of a register by its place in the PF's layout. -/
def State.writeAt (s : State) (fn a w v : Nat) : DevOut :=
  if s.dev.regOpen fn && s.dev.decodes a then s.ofWrite (s.dev.placeWrite a w v) else s.done s.dev

/-- Whether a function reaches a hoop's window (R381). -/
def reaches (fn h : Nat) : Bool := h < 8 && (fn == 0 || fn == h + 1)

/-- A write within a hoop window. -/
def State.writeHoop (s : State) (fn h o w v : Nat) : DevOut :=
  if reaches fn h then s.writeAt fn (0x100000 + 0x10000 * h + o) w v else s.done s.dev

/-! Commands -/

/-- A write to a register, to a doorbell, to the MSI-X table or to an aperture, by BAR and offset (R382 to R385). -/
def State.barWrite (s : State) (fn bar o w v : Nat) : DevOut :=
  let d := s.dev
  if bar = 0 then
    let msix := if fn = 0 then (0x10000, 256) else (0x8000, 224)
    if msix.1 ≤ o && o < msix.1 + 16 * msix.2 then
      s.done (if d.regOpen fn && d.stage == 4 && o % w == 0 then
        if w = 4 then d.msixWrite fn (o - msix.1) (v % 2 ^ 32)
        else if w = 8 then (d.msixWrite fn (o - msix.1) (v % 2 ^ 32)).msixWrite fn (o - msix.1 + 4) (v / 2 ^ 32 % 2 ^ 32)
        else d
      else d)
    else match barPlace fn o with
      | none => s.done d
      | some a =>
        let go := (a == 0x80008 && w == 8 && v.testBit 32) || (a == 0x8000C && w == 4 && v % 2 == 1)
        match s.writeAt fn a w v with
        | .next t => if go && d.stage == 5 && d.regOpen fn then execRecoveryGo t else .next t
        | r => r
  else if (fn = 0 ∧ bar = 4) ∨ (fn ≠ 0 ∧ bar = 2) then
    if d.regOpen fn && d.stage == 4 && o < 2 ^ 24 && o % 4096 == 0 && w == 4 then execQdbWptr fn (o / 4096) (BitVec.ofNat 32 v) s else s.done d
  else if (fn = 0 ∧ bar = 2) ∨ (fn ≠ 0 ∧ bar = 4) then s.done (d.hostStore fn o (le w v))
  else s.done d

/-- REGISTER_WRITE (R9, R384). -/
def execRegisterWrite (fn : Nat) (tgt : RegTarget) (width : Nat) (value : W64) (s : State) : DevOut :=
  match tgt with
  | .cfg f => s.done (s.dev.cfgReq fn (fun d => d.cfgWrite fn f value.toNat))
  | .bar bar o =>
    if width = 1 ∨ width = 2 ∨ width = 4 ∨ width = 8 then s.barWrite fn bar o width (value.toNat % 2 ^ (8 * width)) else s.done s.dev

/-- HOOP_CFG_TABLES_LOCK: 1 is written to TABLES_LOCK (R59). -/
def execHoopCfgTablesLock (fn hoop : Nat) (s : State) : DevOut := s.writeHoop fn hoop 0x10 4 16

/-- HOOP_RELQ_PTR_HEAD (R55). -/
def execHoopRelqPtrHead (fn hoop : Nat) (value : W32) (s : State) : DevOut := s.writeHoop fn hoop 0x5C 4 value.toNat

/-- MGMT_RING_ENABLE: a write of MGMT_RING (R404). -/
def execMgmtRingEnable (fn : Nat) (value : W64) (s : State) : DevOut := s.writeAt fn (0x8000000 + 0x1000 * fn) 8 value.toNat

/-- MGMT_TAIL (R405). -/
def execMgmtTail (fn : Nat) (value : W32) (s : State) : DevOut := s.writeAt fn (0x8000008 + 0x1000 * fn) 4 value.toNat

/-- ERRQ_PTR_HEAD (R422). -/
def execErrqPtrHead (value : W32) (s : State) : DevOut := s.writeAt 0 0x6000C 4 value.toNat

/-- HOOP_ERRQ_ENABLE: a write of HOOP_ERRQ (R424). -/
def execHoopErrqEnable (fn hoop : Nat) (value : W64) (s : State) : DevOut := s.writeHoop fn hoop 0x100 8 value.toNat

/-- HOOP_ERRQ_PTR_HEAD (R424). -/
def execHoopErrqPtrHead (fn hoop : Nat) (value : W32) (s : State) : DevOut := s.writeHoop fn hoop 0x10C 4 value.toNat

/-- HOOP_WATCH_STOPPED: 1 is written to STOPPED (R445). -/
def execHoopWatchStopped (fn hoop : Nat) (s : State) : DevOut := s.writeHoop fn hoop 0x13C 4 1

/-- HOOP_TRACE_PTR_HEAD (R442). -/
def execHoopTracePtrHead (fn hoop : Nat) (value : W32) (s : State) : DevOut := s.writeHoop fn hoop 0x134 4 value.toNat

/-- Whether the PF reaches a register of its own while the module is READY. -/
def Device.pfOpen (d : Device) : Bool := d.regOpen 0 && d.stage == 4

/-- CXL_RETRAIN (R403). -/
def execCxlRetrain (port : Nat) (s : State) : DevOut := s.done (if s.dev.pfOpen && port < 2 then s.dev.cxlRetrain port else s.dev)

/-- HDM_COMMIT (R399). -/
def execHdmCommit (decoder : Nat) (s : State) : DevOut := s.done (if s.dev.pfOpen && decoder < 8 then s.dev.hdmCommit decoder else s.dev)

/-- HDM_UNCOMMIT (R399). -/
def execHdmUncommit (decoder : Nat) (s : State) : DevOut := s.done (if s.dev.pfOpen && decoder < 8 then s.dev.hdmUncommit decoder else s.dev)

/-- MSIX_UNMASK: a vector whose pending bit is 1 is sent (R389). -/
def execMsixUnmask (fn vector : Nat) (s : State) : DevOut :=
  let d := s.dev
  s.done (if d.regOpen fn && d.stage == 4 && vector < (if fn = 0 then 256 else 224) then
    (d.setMsix fn vector { d.msixEnt fn vector with masked := false }).flushVectors fn
  else d)

end Sys2Proof.Machine
end

