-- ==== Sys2Proof/Machine/IxFlow.lean ====
section
/-! DEFINITION. Barriers, control flow and opcodes that do not exist (R124, R125, R141, R161 to R166, Tables 5-14, 5-15). -/

namespace Sys2Proof.Machine

/-- The checks of an arrival at a barrier (R125): the number, then a second arrival. An arrival is a release at block scope, which waits for the
lanes' loads (R255). -/
def IC.barrier (i : IC) (d : Device) (k : Nat → Eff) : Eff :=
  let n := i.w.a.toNat
  if i.guard = 0 then .go d
  else if i.open_ d then .retry d none
  else if n ≥ 16 ∨ Tab.get 0 i.b.arrived (n * 32 + i.x.group) &&& i.guard ≠ 0 then .fault d { code := 0x41, arg2 := n }
  else k n

/-- BAR: lanes with guard true arrive and park. -/
def ixBar (w : IWord) : Ix := ({ a := .num, ok := modIn w 0 }, fun i d => i.barrier d (fun n => i.arriveAndPark d n))
/-- BAR.ARRIVE: lanes with guard true arrive and go on. -/
def ixArrive (w : IWord) : Ix :=
  ({ a := .num, ok := modIn w 0 }, fun i d => i.barrier d (fun n =>
    let key := n * 32 + i.x.group
    .go ((d.modBlock i.core i.place (fun b => { b with arrived := Tab.insert b.arrived key (Tab.get 0 b.arrived key ||| i.guard) })).settle
      i.core i.place)))

/-- An address a signed 32-bit offset from the instruction word (R163). -/
def IC.offset (i : IC) (o : Nat) : Nat := unsigned 64 ((i.x.pc : Int) + signed 32 o)
/-- The reconvergence point of a branch. -/
def IC.point (i : IC) : Nat := i.offset (i.w.immw.toNat / 2 ^ 32)
/-- The address of the next instruction. -/
def IC.next (i : IC) : Nat := i.x.pc + iwSize i.w

/-- The first of some addresses that is not 8-byte aligned (BRANCH_ALIGN). -/
def unaligned (l : List Nat) : Option Nat := l.find? (fun a => a % 8 != 0)

/-- Lanes go to their targets (R118). -/
def IC.branch (i : IC) (d : Device) (to_ : List (Nat × Nat)) (point : Nat) : Eff :=
  match byTarget to_ with
  | [] => .go d
  | [(t, _)] => .jump (d.goTo_ i.core i.entry t)
  | ts => .jump (i.diverge d ts point)

/-- The lanes that a branch does not take, at the next instruction. -/
def IC.stay (i : IC) : List (Nat × Nat) := (setBits 32 (without i.x.mask i.guard)).map (fun l => (l, i.next))

/-- BRA. -/
def ixBra (w : IWord) : Ix :=
  ({ imm := .req, ok := modIn w 0 }, fun i d =>
    let t := i.offset (i.w.immw.toNat % 2 ^ 32)
    if i.guard = 0 then .go d
    else match unaligned [t, i.point] with
      | some a => .fault d { code := 0x08, arg1 := a }
      | none => i.branch d (i.lanes.map (fun l => (l, t)) ++ i.stay) i.point)
/-- BRX (R165). -/
def ixBrx (w : IWord) : Ix :=
  ({ a := .vu 2, imm := .req, ok := modIn w 0 && w.immw.toNat % 2 ^ 32 == 0 }, fun i d =>
    let l := i.lanes.map (fun l => (l, i.a 2 l))
    let straight := i.w.immw.toNat / 2 ^ 32 == 0
    if i.guard = 0 then .go d
    else match unaligned (l.map (·.2) ++ [i.point]) with
      | some a => .fault d { code := 0x08, arg1 := a }
      | none =>
        if straight ∧ (!i.stay.isEmpty || l.any (fun x => x.2 != ((l.head?).map (·.2)).getD 0)) then
          .fault d { code := 0x09, arg0 := i.guard, arg1 := ((l.head?).map (·.2)).getD 0 }
        else i.branch d (l ++ i.stay) i.point)
/-- CALL. -/
def ixCall (w : IWord) : Ix :=
  ({ d := .v 2, imm := .req, ok := modIn w 0 && w.immw.toNat / 2 ^ 32 == 0, pt := true }, fun i d =>
    let t := i.offset (i.w.immw.toNat % 2 ^ 32)
    match unaligned [t] with
    | some a => .fault d { code := 0x08, arg1 := a }
    | none => .jump ((i.put d (i.lanes.foldl (fun b l => i.setD b 2 l i.next) i.b)).goTo_ i.core i.entry t))
/-- EXIT: in an open matrix region it raises MATRIX_STATE (R132, R166). -/
def ixExit (w : IWord) : Ix :=
  ({ ok := modIn w 0 }, fun i d =>
    if i.guard = 0 then .go d
    else if i.b.region then .fault d { code := 0x49, arg2 := 4 }
    else i.exitLanes d)
/-- TRAP. -/
def ixTrap (w : IWord) : Ix := ({ a := .num, ok := modIn w 0 }, fun i d => if i.guard = 0 then .go d else .fault d { code := 0x03, arg0 := i.guard, arg2 := i.w.a.toNat })

/-- The opcodes that the opcode tables list (Tables 5-5 to 5-18). -/
def listed (op : Nat) : Bool :=
  op ≤ 0x05 || (0x08 ≤ op && op ≤ 0x0C) || (0x20 ≤ op && op ≤ 0x2D) || op == 0x30 || op == 0x31 || (0x38 ≤ op && op ≤ 0x3A)
  || (0x50 ≤ op && op ≤ 0x57) || (0x60 ≤ op && op ≤ 0x69) || (0x70 ≤ op && op ≤ 0x72) || (0x78 ≤ op && op ≤ 0x7B)
  || (0x80 ≤ op && op ≤ 0x86) || (0x88 ≤ op && op ≤ 0x90) || (0xC0 ≤ op && op ≤ 0xC6) || (0xD0 ≤ op && op ≤ 0xD4) || op == 0xE0

/-- BAR (0x7A). -/
def execBar (e : Ent) (w : IWord) : State → Host.Outcome State Fault Refusal := runIx e 0x7A w (ixBar w)
/-- BAR.ARRIVE (0x7B). -/
def execBarArrive (e : Ent) (w : IWord) : State → Host.Outcome State Fault Refusal := runIx e 0x7B w (ixArrive w)
/-- BRA (0x80). -/
def execBra (e : Ent) (w : IWord) : State → Host.Outcome State Fault Refusal := runIx e 0x80 w (ixBra w)
/-- BRX (0x81). -/
def execBrx (e : Ent) (w : IWord) : State → Host.Outcome State Fault Refusal := runIx e 0x81 w (ixBrx w)
/-- CALL (0x82). -/
def execCall (e : Ent) (w : IWord) : State → Host.Outcome State Fault Refusal := runIx e 0x82 w (ixCall w)
/-- RCV (0x83). -/
def execRcv (e : Ent) (w : IWord) : State → Host.Outcome State Fault Refusal := runIx e 0x83 w ({ ok := modIn w 0 }, IC.reconverge)
/-- EXIT (0x84). -/
def execExit (e : Ent) (w : IWord) : State → Host.Outcome State Fault Refusal := runIx e 0x84 w (ixExit w)
/-- TRAP (0x85). -/
def execTrap (e : Ent) (w : IWord) : State → Host.Outcome State Fault Refusal := runIx e 0x85 w (ixTrap w)
/-- NOP (0x86). -/
def execInstructionNop (e : Ent) (w : IWord) : State → Host.Outcome State Fault Refusal := runIx e 0x86 w ({ ok := modIn w 0 }, fun _ d => .go d)
/-- An opcode that no table lists raises ILLEGAL_OPCODE (R141). -/
def execIllegalOpcode (e : Ent) (opcode : Byte) (s : State) : Host.Outcome State Fault Refusal :=
  if listed opcode.toNat then s.done s.dev
  else s.done (s.dev.issue e opcode.toNat {} {} (fun _ d => .go d) (fun _ => true) false)

end Sys2Proof.Machine
end

