-- ==== Sys2Proof/Machine/IxUniform.lean ====
section
/-! DEFINITION. Uniform and predicate instructions (R167, Table 5-16). -/

namespace Sys2Proof.Machine

/-- A uniform operation: D, A, B uniform, B or the immediate. -/
def uniSpec (w : IWord) (types : List Nat) (mask : Nat) (ok : Bool := true) : OpSpec :=
  let n := typeRegs (typeOf w)
  { d := .u n, a := .u n, b := .u n, imm := .b, ok := types.contains (typeOf w) && modIn w mask && ok, pt := true }

/-- The result of a uniform operation is written once for the group (R147). -/
def IC.uniform (i : IC) (d : Device) (f : Nat → Nat → Nat) : Eff := .go (i.put d (i.setU i.b i.n (f (i.a i.n 0) (i.b_ i.n 0))))

/-- A logic operation of a selector. -/
def logic (sel a b : Nat) : Nat := match sel with
  | 0 => a &&& b
  | 1 => a ||| b
  | 2 => a ^^^ b
  | _ => andn a b

/-- UMOV (0x88). -/
def execUmov (e : Ent) (w : IWord) : State → Host.Outcome State Fault Refusal :=
  ixfen e 0x88 w { uniSpec w [10, 11] 0x00F with b := .none, imm := .a } (fun i d =>
    i.uniform d (fun a _ => if i.w.imm then i.w.immw.toNat else a))
/-- UADD (0x89). -/
def execUadd (e : Ent) (w : IWord) : State → Host.Outcome State Fault Refusal :=
  ixfen e 0x89 w (uniSpec w [10, 11] 0x00F) (fun i d => i.uniform d (fun a b => a + b))
/-- USUB (0x8A). -/
def execUsub (e : Ent) (w : IWord) : State → Host.Outcome State Fault Refusal :=
  ixfen e 0x8A w (uniSpec w [10, 11] 0x00F) (fun i d => i.uniform d (fun a b => a + 2 ^ (32 * i.n) - b))
/-- UMUL (0x8B). -/
def execUmul (e : Ent) (w : IWord) : State → Host.Outcome State Fault Refusal :=
  ixfen e 0x8B w (uniSpec w [10] 0x00F) (fun i d => i.uniform d (fun a b => a * b))
/-- ULOP (0x8C). -/
def execUlop (e : Ent) (w : IWord) : State → Host.Outcome State Fault Refusal :=
  ixfen e 0x8C w (uniSpec w [10] 0x30F) (fun i d => i.uniform d (logic (i.mod 9 8)))
/-- USHF (0x8D). -/
def execUshf (e : Ent) (w : IWord) : State → Host.Outcome State Fault Refusal :=
  ixfen e 0x8D w (uniSpec w [10] 0x30F (bits w.mod.toNat 9 8 < 3)) (fun i d =>
    i.uniform d (fun a b => if i.mod 9 8 = 0 then shiftLeft a b else shiftRight (i.mod 9 8 == 2) a b))
/-- USETP (0x8E). -/
def execUsetp (e : Ent) (w : IWord) : State → Host.Outcome State Fault Refusal :=
  ixfen e 0x8E w { uniSpec w [10, 11] 0xE0F (bits w.mod.toNat 11 9 < 6) with d := .p, imm := .no } (fun i d =>
    i.setPred d i.x.mask (if icmp (i.mod 11 9) (32 * i.n) true (i.a i.n 0) (i.b_ i.n 0) then 2 ^ 32 - 1 else 0))
/-- V2U (0x8F). -/
def execV2u (e : Ent) (w : IWord) : State → Host.Outcome State Fault Refusal :=
  ixfen e 0x8F w { d := .u 1, a := .v 1, b := .num, ok := typeOf w == 10 && modIn w 0x00F, pt := true } (fun i d =>
    .go (i.put d (i.setU i.b 1 (i.a 1 i.v2uLane))))
/-- PLOP (0x90). -/
def execPlop (e : Ent) (w : IWord) : State → Host.Outcome State Fault Refusal :=
  ixfen e 0x90 w { d := .p, a := .p, b := .p, ok := modIn w 0x300 } (fun i d =>
    i.setPred d i.guard (logic (i.mod 9 8) (i.b.pred i.x.group i.w.a.toNat) (i.b.pred i.x.group i.w.b.toNat)))

end Sys2Proof.Machine
end

