-- ==== Sys2Proof/Machine/Streams.lean ====
section
/-! DEFINITION. The events of the stream engines (R279, R290 to R294, R318). -/

namespace Sys2Proof.Machine

/-- DESCRIPTOR_START (R279). -/
def execDescriptorStart (desc : Nat) (s : State) : Host.Outcome State Fault Refusal :=
  s.done (if s.dev.live then s.dev.startDesc desc else s.dev)

/-- DESCRIPTOR_COMPLETE: a descriptor with nothing left to move, no answer due and no byte in a write-combining buffer (R294) completes: it ends (R290,
R292), or, where it wrote to the host tier, opens the read of its release and ends with a later command. The completion, with its release, is a
candidate event of STREAM_DONE (Table 17-9); the later end is none. -/
def execDescriptorComplete (desc : Nat) (s : State) : Host.Outcome State Fault Refusal :=
  let d := s.dev
  s.done (match d.desc? desc with
    | none => d
    | some x =>
      if !d.live || d.stat.late.any (fun y => y.2 == .descDone desc) || x.state != 2 || !x.due.isEmpty || x.spillOld.isSome || (d.engine x.engine).wc.any (fun w => w.descs.contains desc) then d
      else if x.rel.isSome then d.endDesc desc
      else (d.perturb 1 (x.engine / 16)).lateOr (d.perturbDelay 1 (x.engine / 16)) (.descDone desc) (fun d => d.descDone desc))

/-- WC_BUFFER_ISSUE: an engine issues its oldest buffer whose descriptors have all moved their last element, 32 fc after (R294), if the write pool
holds a credit (R296). -/
def execWcBufferIssue (engine : Nat) (s : State) : Host.Outcome State Fault Refusal :=
  let d := s.dev
  let over_ := fun (i : Nat) => match d.desc? i with
    | some x => x.state ≥ 2
    | none => true
  s.done (match (d.engine engine).wc.find? (fun w => w.descs.all over_) with
    | some w => if d.live && (d.pools (engine / 16)).write > 0 then (d.wcIssue engine w).postOut engine else d
    | none => d)

/-- Whether bytes of the old block of a spill's move have still to be performed (R318 step 5). -/
def Device.oldBlockBusy (d : Device) (x : Desc) (cxl : Bool) (n : Nat) : Bool :=
  let y := d.sess ((parseSd x.bytes).src % 2 ^ 32)
  let g := d.poolOf x.hoop cxl
  let o := d.blockOff x.hoop cxl y n
  !(d.heldOf g o (2 ^ y.bsize)).isEmpty || d.outOf g o (2 ^ y.bsize)

/-- SPILL_OLD_BLOCK_FREE: the old block of the move that has ended is freed once no access to it is under way, and the next one moves (R318 step 5). -/
def execSpillOldBlockFree (desc : Nat) (s : State) : Host.Outcome State Fault Refusal :=
  let d := s.dev
  s.done (match d.desc? desc with
    | none => d
    | some x =>
      match x.spillOld with
      | some (pool, n) =>
        if !d.live || d.oldBlockBusy x (pool == 1) n then d
        else (d.markBlock x.hoop (pool == 1) n false).setDesc desc { x with spillOld := none }
      | none => d)

end Sys2Proof.Machine
end

