-- ==== Sys2Proof/Machine/HostReads.lean ====
section
/-! DEFINITION. Completions of the reads and atomics that the module issued to the host, and their failures (R94, R254, R267, R390, R409). -/

namespace Sys2Proof.Machine

/-- A structure that an entry names has come; a failed read leaves no bytes of it. Nodes that waited for it start (R65, R82). -/
def Device.entArrived (d : Device) (q id va : Nat) (come : Except Nat Bytes) : Device :=
  let b := match come with
    | .ok b => b
    | .error _ => []
  let d := d.modQueue q (fun x => { x with entries := x.entries.map (fun e => if e.id = id then { e with buf := e.buf ++ [(va, b)] } else e) })
  (d.work.insts.filter (fun (x : Nat × Inst) => x.2.queue == q && x.2.entry == id)).foldl (fun d x => d.startNodes x.1) d |>.serveCredits

/-- A ring or chained entry has come; a failed read leaves no bytes of it (R61, R66). An abort or a discard that waited for it goes on. -/
def Device.preArrived (d : Device) (q va : Nat) (come : Except Nat Bytes) : Device :=
  (d.modQueue q (fun x => { x with pre := x.pre ++ [(va, match come with
    | .ok b => b
    | .error _ => [])] })).waitsGo

/-- The read of a management slot has failed (R409). -/
def Device.fetchFault (d : Device) (r : Nat) (addr : Nat) : Device :=
  ((d.wr Reg.MGMT_RING_ENABLE r 0).wr Reg.MGMT_STATUS_FETCH_FAULT r 1).post { code := 0x12, object := r, detail := le 8 addr }

/-- The command header in the first 64 bytes of a slot, and its LENGTH (Table 16-1). -/
def slotHdr (r : Nat) (b : Bytes) : MHdr × Nat :=
  let f := fieldLe b
  ({ ring := r, irq := (f 1 1).testBit 0, hoop := f 2 1 % 8, tag := BitVec.ofNat 32 (f 4 4), replyCap := f 12 2, paramAddr := f 16 8, replyAddr := f 24 8
     rsvd := f 1 1 > 1 || f 2 1 > 7 || !zeroAt b 3 1 || !zeroAt b 14 2 || !zeroAt b 32 32 }, f 8 4)

/-- The slot of a ring has come: its command is accepted (R405, R407). -/
def Device.slotComes (d : Device) (r : Nat) (b : Bytes) : Device :=
  let h := slotHdr r b
  let op := fieldLe b 0 1
  if d.mgmtComes h.1 then
    let c : MCmd := { op := op, hdr := h.1, names := opNames op, len := h.2, params := if h.2 = 0 then some [] else none, at_ := d.clock.now }
    d.setBoot { d.boot with cmds := putCmd d.boot.cmds c }
  else d

/-- The parameters of a ring's command have come, or their read has failed (R408). -/
def Device.paramsCome (d : Device) (r : Nat) (come : Except Nat Bytes) : Device :=
  d.setBoot { d.boot with cmds := d.boot.cmds.map (fun c =>
    if c.hdr.ring = r ∧ c.asked then
      (match come with
      | .ok b => { c with params := some (slice (b ++ List.replicate c.len 0) 0 c.len) }
      | .error _ => { c with params := some (List.replicate c.len 0), hdr := { c.hdr with unread := true } })
    else c) }

/-- A read or atomic of the host ends, with its bytes or a failure, at what it serves (`HRead`). -/
def Device.readEnds (d : Device) (tag : Nat) (come : Except Nat Bytes) : Device :=
  match Tab.find? d.flow.reads tag with
  | none => d
  | some r =>
    let bytes := match come with
      | .ok b => b.length
      | .error _ => 0
    let d := match d.readHoop r with
      | some h => d.cnt h 7 bytes
      | none => d
    let d := if d.readDie r = 4 then d else d.ringData 4 (d.readDie r) bytes
    let over_ : Device := { d with flow := { d.flow with reads := Tab.erase d.flow.reads tag } }
    match r.kind with
    | 0 => over_.answer r.a r.b r.c tag r.addr come
    | 1 => d.confirmDone r.a tag come.isOk
    | 2 => over_.descArrived r.a tag r.b come
    | 3 => over_.answer r.a r.b r.c tag r.addr come
    | 4 => match come with
      | .ok b => over_.slotComes r.a (slice (b ++ List.replicate 64 0) 0 64)
      | .error _ => over_.fetchFault r.a r.addr
    | 12 => over_.paramsCome r.a come
    | 5 => over_.entArrived r.a r.b r.c come
    | 6 => over_.preArrived r.a r.b come
    | 7 => over_.recipeArrived r.a come
    | 9 => over_.loadAnswer r.a r.b r.c tag come
    | 10 => over_.updAnswer r.a r.b tag come
    | 11 => over_.codeArrived r.a r.b tag r.c come
    | _ => over_.headArrived r.a come

/-- The request that holds a tag ends: its read goes on without it, ends with all its bytes in order, or ends as the failure of a part. Completions
for a read that is no more are discarded (R391), and after a fatal event all but the slots of management rings (R249, R415). -/
def Device.tagEnds (d : Device) (tag : Nat) (come : Except Nat Bytes) : Device :=
  match d.flow.asks.find? (fun a => a.tag == some tag) with
  | none => d
  | some a =>
    let with_ := fun (l : List Ask) => Device.sendAsks { d with flow := { d.flow with asks := l } }
    let rest := d.flow.asks.filter (fun b => b != a)
    match Tab.find? d.flow.reads a.read with
    | none => with_ rest
    | some r =>
      if !(d.live || r.kind == 4) then with_ rest
      else match come with
        | .error e => (with_ (rest.filter (fun b => b.read != a.read || !b.waiting))).readEnds a.read (.error e)
        | .ok b =>
          let l := d.flow.asks.map (fun x => if x = a then { a with tag := none, come := some b } else x)
          let mine := l.filter (fun x => x.read == a.read)
          if mine.all (fun x => x.come.isSome) then
            (with_ (l.filter (fun x => x.read != a.read))).readEnds a.read (.ok (mine.flatMap (fun x => x.come.getD [])))
          else with_ l

end Sys2Proof.Machine
end

