-- ==== Sys2Proof/Machine/MgmtRun.lean ====
section
/-! DEFINITION. The turns of management commands that were accepted and waited (R407, R408), and the completions that bring their slots and parameters. -/

namespace Sys2Proof.Machine

/-- The command of an opcode of Table 16-4 executes. -/
def mgmtExec (op : Nat) (h : MHdr) (p : Bytes) (s : State) : DevOut :=
  match op with
  | 0x00 => execMgmtNop h p s
  | 0x01 => execHoopCreate h p s
  | 0x02 => execHoopResize h p s
  | 0x03 => execHoopDestroy h p s
  | 0x04 => execHoopQuery h p s
  | 0x10 => execQueueCreate h p s
  | 0x11 => execQueueReset h p s
  | 0x12 => execQueueAbort h p s
  | 0x13 => execQueueDestroy h p s
  | 0x18 => execSegmentWrite h p s
  | 0x19 => execSegmentCheck h p s
  | 0x1A => execKvPoolSet h p s
  | 0x20 => execSessionAlloc h p s
  | 0x21 => execSessionFree h p s
  | 0x22 => execSessionInfo h p s
  | 0x28 => execRecipeLoad h p s
  | 0x30 => execWheelLoad h p s
  | 0x31 => execWheelPeriod h p s
  | 0x32 => execTimeMasterSet h p s
  | 0x38 => execRxqConfig h p s
  | 0x39 => execRouteQuery h p s
  | 0x3A => execBoardMap h p s
  | 0x3B => execPortEnable h p s
  | 0x40 => execPowerCap h p s
  | 0x41 => execPowerQuery h p s
  | 0x42 => execPowerMode h p s
  | 0x48 => execStatsConfig h p s
  | 0x49 => execHistogramConfig h p s
  | 0x4A => execTraceConfig h p s
  | 0x4B => execCounterRead h p s
  | 0x50 => execWatchSet h p s
  | 0x51 => execWatchClear h p s
  | 0x58 => if fieldLe p 0 1 = 0 then execDebugNonce h p s else if fieldLe p 0 1 = 1 then execDebugUnlock h p s else execDebugRelock h p s
  | 0x59 => execPerturbSet h p s
  | 0x60 => execFwQuery h p s
  | 0x61 => execFwUpdate h p s
  | 0x68 => execIdentityGet h p s
  | 0x70 => execModuleReset h p s
  | 0x71 => execPowerCycle h p s
  | 0x79 => execErrSummaryRead h p s
  | _ => s.done (s.dev.reply h op 2 0 0 [])

/-- Checks 1 to 5 of R408 on the header of a command whose parameters are not read yet, those that its parameters have a part in left for later. -/
def Device.mgmtPre (d : Device) (c : MCmd) : Option Nat :=
  let sp := mspec c.op
  if !opListed c.op then some 2
  else if c.op = 0x49 then headCheck { sp with names := true } c.hdr c.len
  else if c.op = 0x58 then headCheck { sp with len := fun n => n == 1 || n == 272 } c.hdr c.len
  else (headCheck sp c.hdr c.len).or (d.stateCheck sp c.hdr)

/-- The first accepted command that nothing accepted before it holds back, and that does not wait for its parameters,
which need Bus Master Enable (R409). -/
def Device.nextCmd (d : Device) : List MCmd → List MCmd → Option MCmd
  | _, [] => none
  | before, c :: t =>
    if !d.mgmtBehind c.names c.hdr before && (c.params.isSome || (!c.asked && d.mayMaster c.hdr.ring)) then some c else d.nextCmd (before ++ [c]) t

def Device.setCmds (d : Device) (l : List MCmd) : Device := d.setBoot { d.boot with cmds := l }

/-- The turn of a command: a refusal that its header earns, a read of its parameters, or its execution (R408). DESIGN CHOICE (log entry 41): the checks are
made when its turn comes. -/
def State.mgmtTurn (s : State) (c : MCmd) : State :=
  let d := s.dev
  let gone := d.setCmds (d.boot.cmds.erase c)
  match c.params with
  | none =>
    (match d.mgmtPre c with
    | some st => { s with dev := (gone.mgmtAccept c.hdr).reply c.hdr c.op st 0 0 [] }
    | none =>
      let d := d.setCmds (d.boot.cmds.map (fun x => if x = c then { c with asked := true } else x))
      let d := (d.wr Reg.MGMT_STATUS_BUSY c.hdr.ring 1).wr Reg.MGMT_STATUS_OPCODE c.hdr.ring c.op
      { s with dev := d.openRead { kind := 12, a := c.hdr.ring, b := 0, c := 0, fn := c.hdr.ring, addr := c.hdr.paramAddr } c.len })
  | some p =>
    match mgmtExec c.op c.hdr p { s with dev := gone.setBoot { gone.boot with turn := true } } with
    | .next t => { t with dev := t.dev.setBoot { t.dev.boot with turn := false } }
    | _ => { s with dev := gone }

/-- Turns as they come, at most so many. -/
def State.mgmtTurns : Nat → State → State
  | 0, s => s
  | f + 1, s =>
    match s.dev.nextCmd [] s.dev.boot.cmds with
    | none => s
    | some c => State.mgmtTurns f (s.mgmtTurn c)

/-- The commands that wait take their turns. -/
def State.mgmtGo (s : State) : State := s.mgmtTurns (2 * s.dev.boot.cmds.length)

/-- PCIE_READ_COMPLETION: Unsupported Request and Completer Abort fail what was read (R267). -/
def execPcieReadCompletion (tag : Nat) (status : Cpl) (data : Bytes) (s : State) : Host.Outcome State Fault Refusal :=
  .next (State.mgmtGo { s with dev := s.dev.tagEnds tag (if status = Cpl.sc then .ok data else .error 0x60) })

/-- PCIE_COMPLETION_TIMEOUT (R267, R409). -/
def execPcieCompletionTimeout (tag : Nat) (s : State) : Host.Outcome State Fault Refusal :=
  .next (State.mgmtGo { s with dev := s.dev.tagEnds tag (.error 0x60) })

end Sys2Proof.Machine
end

