-- ==== Sys2Proof/Machine/Power.lean ====
section
/-! DEFINITION. The commands of the power and thermal controller (chapter 18). -/

namespace Sys2Proof.Machine

/-- THERMAL_SAMPLE (R465, R466): the sensors are sampled while the clocks run, after a fatal event too. -/
def execThermalSample (readings : List (Option Int)) (s : State) : Host.Outcome State Fault Refusal :=
  let d := s.dev
  s.done (if d.life.powered && d.life.rails && !d.life.stopped && !d.life.rindDead then d.thermalSample readings else d)

/-- THROTTLE_STEP (R466). -/
def execThrottleStep (s : State) : Host.Outcome State Fault Refusal :=
  s.done (if s.dev.live then s.dev.throttleStep else s.dev)

/-- The estimate and decision of every 10 µs (R457, R459, R462); in distrust the estimate alone (R460). -/
def Device.decision (d : Device) (activity : List Nat) : Device :=
  let d := d.setPower { d.power with activity := activity }
  let d := d.setPower { d.power with estimates := d.power.estimates ++ [d.estimate d.point] }
  if d.distrust then d else d.decide.checkFloor

/-- POWER_DECISION (R457, R459, R462). The activity of the interval by term: 0 core-busy ic, 1 HBM3E bytes, 2 bytes of L2 and die ring, 3 stream bytes, 4 SerDes
lanes in use, from 5 on press ac by type class (log entry 12). -/
def execPowerDecision (activity : List Nat) (s : State) : Host.Outcome State Fault Refusal :=
  s.done (if s.dev.live then s.dev.decision activity else s.dev)

/-- POWER_MEASUREMENT (R457, R460, R461, R463). -/
def execPowerMeasurement (watts : Nat) (activity : List (List Nat)) (s : State) : Host.Outcome State Fault Refusal :=
  s.done (if s.dev.live then s.dev.measure watts activity else s.dev)

/-- WARMUP_END: after 64 ticks WARMUP is 0 (R458). -/
def execWarmupEnd (s : State) : Host.Outcome State Fault Refusal :=
  s.done (if s.dev.live && s.dev.power.warm ≥ 64 then s.dev.wr Reg.POWER_STATUS_WARMUP 0 0 else s.dev)

/-- A step completes; the next downward step begins (R454). -/
def Device.opStep (d : Device) : Device :=
  match d.power.moving with
  | none => d
  | some m =>
    let d := d.wr Reg.POWER_STATUS_POINT 0 m
    d.setPower { d.power with moving := if m < d.power.goal then some (m + 1) else none }

/-- OP_STEP (R454). -/
def execOpStep (s : State) : Host.Outcome State Fault Refusal :=
  s.done (if s.dev.live then s.dev.opStep else s.dev)

/-- A droop: the rail's die is stretched, the detection counted; 64 within 1 ms step down one point (R464). -/
def Device.droop (d : Device) (rail : Nat) : Device :=
  let d := d.countSat Reg.POWER_EVENTS_DROOPS 0
  let now := d.clock.now
  let recent := now :: d.power.droops.filter (fun t => now < t + 1000000)
  let d := d.setPower { d.power with stretched := setBit d.power.stretched rail true, droops := recent }
  if recent.length < 64 then d
  else
    let d := if d.point < 8 then d.goTo (Nat.max d.power.goal (d.point + 1)) else d
    d.setPower { d.power with droops := [], holdUntil := Nat.max d.power.holdUntil (now + 10000000) }

/-- DROOP (R464). -/
def execDroop (rail : Nat) (s : State) : Host.Outcome State Fault Refusal :=
  s.done (if s.dev.live && rail < 5 then s.dev.droop rail else s.dev)

/-- DROOP_END (R464). -/
def execDroopEnd (rail : Nat) (s : State) : Host.Outcome State Fault Refusal :=
  s.done (if s.dev.live && rail < 5 then
    s.dev.setPower { s.dev.power with stretched := setBit s.dev.power.stretched rail false } else s.dev)

/-- The fuses after a new counter bit: a rail whose margin is low blows a trim bit (R468). -/
def Fuses.age (f : Fuses) : Fuses :=
  let h := Nat.min 512 (f.hours + 1)
  { f with hours := h, trim := f.trim.mapIdx (fun r t => if Config.marginLow r h && t < 48 then t + 1 else t) }

/-- AGEING_COUNTER: a counter bit is blown; a rail at 48 mV that is still short of margin stretches its clocks (R468). -/
def execAgeingCounter (s : State) : Host.Outcome State Fault Refusal :=
  if s.dev.live && s.nv.fuses.hours < 512 then
    let f := s.nv.fuses.age
    let short := (List.range 5).filter (fun r => (s.nv.fuses.trim.drop r).headD 0 ≥ 48 && Config.marginLow r f.hours)
    let d := { s.dev with life := { s.dev.life with age := 0, short := s.dev.life.short ||| maskOf short } }
    .next { s with nv := { s.nv with fuses := f }, dev := d.loadAgeing f }
  else s.done s.dev

/-- COOLANT_LOSS: FLOW_OK low for 50 µs shuts the module down; while the rails are off they stay off (R467, R503). -/
def execCoolantLoss (s : State) : Host.Outcome State Fault Refusal :=
  let d := { s.dev with pins := { s.dev.pins with flowOk := false } }
  s.done (if d.life.powered && d.life.rails then d.shutdown 4 0xFFFFFFFF 0 0 else d.tripRenamed)

end Sys2Proof.Machine
end

