-- ==== Sys2Proof/Machine/PressOps.lean ====
section
/-! DEFINITION. The arithmetic and the operations of the press (R176 to R192, R507). -/

namespace Sys2Proof.Machine

/-! Arithmetic -/

/-- Scale bytes of a row or column of a type with a SCALE (Table 6-1). -/
def pressSb (type scale : Nat) : Nat := if scale = 0 then 0 else pressK type / (if scale = 1 then 16 else 32)

/-- The products of a tile row and a K-column, each scaled by its blocks (R178); none where a scale byte in use is 0xFF. -/
def pressProducts (type scale : Nat) (a sa w sw : Bytes) : Option (List (FVal × Nat)) :=
  let bits_ := elemBits type
  let blk := if scale = 1 then 16 else 32
  let ex := fun (s : Bytes) k => if scale = 0 then 127 else fieldLe s (k / blk) 1
  let used := (List.range (pressSb type scale)).any (fun b => fieldLe sa b 1 == 255 || fieldLe sw b 1 == 255)
  if used then none
  else some ((List.range (pressK type)).map (fun k =>
    let p := (valueOf type (elemAt a bits_ k)).mul (valueOf type (elemAt w bits_ k))
    (p.1.scale ((ex sa k + ex sw k : Nat) - 254), p.2)))

/-- The partial sum of a row and a column in FP32, with its flags (R178, R208). DESIGN CHOICE (log entry 41): an exact sum of zero is delivered as
+0, also where every product is -0; the manual gives the exact value only. -/
def partialSum (type scale : Nat) (a sa w sw : Bytes) : Nat × Nat :=
  match pressProducts type scale a sa w sw with
  | none => (fp32.canonNan, 8)
  | some ps =>
    let inf := fun (s : Bool) => ps.any (fun p => p.1 == .inf s)
    let nv := if ps.any (fun p => p.2 == 8) || (inf true && inf false) then 8 else 0
    if nv = 8 ∨ ps.any (fun p => p.1.isNan) then (fp32.canonNan, nv)
    else fp32.deliver 0 false 0 (ps.foldl (fun s p => (s.add 0 p.1).1) (.fin false 0 0))

/-- What an accumulator holds without a landing since the grant: a free value (R181, R191), or 0 after a scrub (R38). -/
def Press.unset (p : Press) (row col : Nat) : Nat :=
  if p.clean then 0 else (Config.freeCell p.epoch (row * 1024 + col)).toNat % 2 ^ 32
/-- An accumulator. -/
def Press.accum (p : Press) (row col : Nat) : Nat := Tab.get (p.unset row col) p.acc (row * 1024 + col)

/-- Land the 128 partial sums of a column: a mark of an earlier MXACC makes it fresh (R179, R181). An accumulator then holds an error where its sum
depends on one, or where a sum is added to one that holds one (R185). -/
def Press.land (p : Press) (f : Flight) : Press × Nat :=
  let marks := Tab.get [] p.fresh f.col
  let isFresh := marks.any (fun m => m < f.seq)
  let r := (f.sums.zipIdx).foldl (fun (m : Tab Nat × Nat) (x : (Nat × Nat) × Nat) =>
    let v := if isFresh then (x.1.1, 0)
      else
        let s := (fp32.decode (p.accum x.2 f.col)).add 0 (fp32.decode x.1.1)
        let y := fp32.deliver 0 false 0 s.1
        (y.1, y.2 ||| s.2)
    (Tab.insert m.1 (x.2 * 1024 + f.col) v.1, m.2 ||| x.1.2 ||| v.2)) (p.acc, 0)
  let old := if isFresh then p.badAcc.filter (fun x => x.1 % 1024 != f.col) else p.badAcc
  ({ p with acc := r.1, fresh := Tab.put [] p.fresh f.col (marks.filter (fun m => f.seq ≤ m)),
            badAcc := old ++ (f.taint.map (fun r => (r * 1024 + f.col, true))).filter (fun x => !old.any (fun y => y.1 == x.1)) }, r.2)

/-! Operations -/

/-- The accumulator columns that an operation sends to from its `j`-th column on, or reads (R181, R182). -/
def MxOp.columns (o : MxOp) (j : Nat) : List Nat :=
  match o.kind with
  | 1 => (List.range (Nat.min (o.n - j) o.cols)).map (fun x => o.first + (o.cursor + j + x) % o.cols)
  | 3 => (List.range o.cols).map (· + o.first)
  | _ => []

/-- Remember an error that an operation met, once (R185). -/
def Press.note (p : Press) (o : MxOp) (arg1 : Nat) : Press :=
  if p.bad.any (fun x => x.seq == o.seq) then p
  else { p with bad := p.bad ++ [⟨o.seq, if o.kind = 0 then none else some (o.columns 0), arg1⟩] }

/-- Take one K-column into the array (R178, R180): its partial sums enter the pipeline. With a column whose binding differs, they are unspecified
and raise no flag (R507). `bad` says that the column holds an uncorrectable error. -/
def Device.enter (d : Device) (k : Nat) (o : MxOp) (w sw : Bytes) (same bad : Bool) : Device :=
  let p := d.press k
  let sums := (List.range 128).map (fun r =>
    if same then
      let t := (p.tile.drop r).headD ([], [])
      partialSum o.type o.scale t.1 t.2 w sw
    else ((Config.freeCell d.fresh r).toNat % 2 ^ 32, 0))
  let taint := if bad then List.range 128 else p.badTile
  let f : Flight := { seq := o.seq, col := o.first + (o.cursor + o.taken) % o.cols, sums := sums, taint := taint }
  let d := (if same then d else d.step1).modPress k (fun p => let p := { p with pipe := p.pipe ++ [f] }; if taint = [] then p else p.note o 0)
  d.modOp k o.seq (fun o => { o with taken := o.taken + 1 })

/-- The next column enters, where it is at hand: from local store as it stands (R177, R184), or from the column buffer (R188). -/
def Device.enterNext (d : Device) (k : Nat) : Device :=
  match (d.press k).entering with
  | none => d
  | some o =>
    if o.src then
      match (d.core k).cols with
      | x :: t =>
        if x.chan ≠ o.a then d
        else (d.modCore k (fun c => { c with cols := t })).enter k o x.bytes x.scales (x.stype == o.type && x.scale == o.scale) x.bad
      | [] => d
    else
      let rb := pressRb o.type
      let sb := pressSb o.type o.scale
      let a := o.a + o.taken * rb
      let c := (o.c.getD 0) + o.taken * sb
      (d.localMet k o.place a rb).enter k o (d.localRead k o.place a rb) (if sb = 0 then [] else d.localRead k o.place c sb) true
        (d.localBad k o.place a rb || (sb != 0 && d.localBad k o.place c sb))

/-- The next row of the input tile is loaded, as local store stands (R176, R177, R184). -/
def Device.loadRow (d : Device) (k : Nat) : Device :=
  match (d.press k).loading with
  | none => d
  | some o =>
    let r := o.taken
    let rb := pressRb o.type
    let sb := pressSb o.type o.scale
    let bad := d.localBad k o.place (o.a + r * rb) rb || (sb != 0 && d.localBad k o.place (o.b + r * sb) sb)
    let row := (d.localRead k o.place (o.a + r * rb) rb, if sb = 0 then [] else d.localRead k o.place (o.b + r * sb) sb)
    let d := (d.localMet k o.place (o.a + r * rb) rb).modPress k (fun p =>
      let p := { p with tile := p.tile.take r ++ [row] ++ p.tile.drop (r + 1), heldType := some (o.type, o.scale),
                        badTile := p.badTile.filter (· != r) ++ (if bad then [r] else []) }
      if bad then p.note o 0 else p)
    d.modOp k o.seq (fun o => { o with taken := r + 1 })

/-- Bytes of a drained row. -/
def MxOp.rowBytes (o : MxOp) : Nat := o.cols * elemBits o.type / 8

/-- One drained row: its elements in column order, with the generator and the flags (R183, R207). DESIGN CHOICE (log entry 41): the scale and bias
pairs are read at each row's write; the manual gives the reading no time. -/
def Device.drainRow (d : Device) (k : Nat) (o : MxOp) (row : Nat) : Bytes × Nat × Nat :=
  let p : Press := { d.press k with acc := o.snap }
  let m := (List.range o.cols).foldl (fun (m : List Nat × Nat × Nat) i =>
    let g := if o.rnd = 4 then draw m.2.1 else m.2.1
    let word := fun j => match o.c with
      | some c => ofLe (d.localRead k o.place (c + 8 * i + 4 * j) 4)
      | none => if j = 0 then 0x3F800000 else 0
    let y := (fp32.decode (p.accum row (o.first + i))).fma o.rnd (fp32.decode (word 0)) (fp32.decode (word 1))
    let v := deliverTo o.type o.rnd o.sat (if o.rnd = 4 then g else 0) y.1
    (m.1 ++ [v.1], g, m.2.2 ||| v.2 ||| y.2)) ([], Tab.get 1 p.gens row, 0)
  (packElems (elemBits o.type) m.1, m.2)

/-- Write a drained row at its destination. -/
def Device.drainWrite (d : Device) (k : Nat) (o : MxOp) (row : Nat) (data : Bytes) : Device :=
  let a := o.b + row * o.rowBytes
  if !o.global then d.localWrite k o.place a data
  else
    match d.coreKernel k with
    | none => d
    | some ke =>
      let s := d.seg ke.hoop (d.slotOf ke.hoop ke.map (bits a 47 44))
      if s.tier = 2 then (d.hostWriteBy (coreDie k) (d.ownerFn ke.hoop) (s.base + a % 2 ^ 44) data).cnt ke.hoop 8 data.length
      else (linePieces (a % 2 ^ 44) data.length).foldl (fun d (p : Nat × Nat) => match s.place p.1 with
        | .dev x =>
          let part := slice data (p.1 - a % 2 ^ 44) p.2
          (d.l1Store k x part).agentWrite (coreDie k) ke.hoop x part true
        | .host _ => d) d

/-- The next row of a drain (R183 to R185): a row that depends on an uncorrectable error is not written, and the first such row is remembered,
by its destination address, or by 0 where the error lies in an operand. -/
def Device.drainNext (d : Device) (k : Nat) (o : MxOp) (row : Nat) : Device :=
  let operand : Bool := match o.c with
    | some c => d.localBad k o.place c (8 * o.cols)
    | none => false
  let cells := o.badSnap.filter (fun x => x.1 / 1024 == row && o.first ≤ x.1 % 1024 && x.1 % 1024 < o.first + o.cols)
  let d := d.modOp k o.seq (fun o => { o with rows := row + 1 })
  if operand ∨ cells ≠ [] then
    d.modPress k (fun p => p.note o (if operand || cells.any (·.2) then 0 else o.b + row * o.rowBytes))
  else
    let r := d.drainRow k o row
    let d := if o.rnd = 4 then d.modPress k (fun p => { p with gens := Tab.put 1 p.gens row r.2.1 }) else d
    (d.drainWrite k o row r.1).numFlags (d.coreHoop k) 1 r.2.2

/-- The drain unit in one ac (R183, R187): it reads columns at its rate and writes rows as far as it has read. DESIGN CHOICE (log entry 42): rows
are written in step with the columns read, the last with the last. -/
def Device.drainAc (d : Device) (k : Nat) : Device :=
  match (d.press k).draining with
  | none => d
  | some o =>
    let t := Nat.min (o.taken + o.rate2) (2 * o.cols)
    let d := d.modOp k o.seq (fun o => { o with taken := t })
    (List.range (128 * t / (2 * o.cols) - o.rows)).foldl (fun d j => d.drainNext k o (o.rows + j)) d

/-- The columns in the pipeline of a core advance by one ac, and those that entered 23 ac ago land (R180). A sum added to an accumulator that holds an
uncorrectable error is an error of its operation (R185). DESIGN CHOICE (log entry 41): its ARG1 is 0. -/
def Device.landDue (d : Device) (k : Nat) : Device :=
  let aged := (d.press k).pipe.map (fun (f : Flight) => { f with age := f.age + 1 })
  let d := d.modPress k (fun p => { p with pipe := aged.filter (fun f => f.age < 23) })
  (aged.filter (fun f => 23 ≤ f.age)).foldl (fun d f =>
    let p := d.press k
    let added := (Tab.get [] p.fresh f.col).all (fun m => f.seq ≤ m) && p.badAcc.any (fun x => x.1 % 1024 == f.col)
    let p := match p.ops.find? (fun o => o.seq == f.seq) with
      | some o => if added then p.note o 0 else p
      | none => p
    let l := p.land f
    ((d.modPress k (fun _ => l.1)).modOp k f.seq (fun o => { o with landed := o.landed + 1 })).numFlags (d.coreHoop k) 1 l.2) d

/-- One ac of a core's array that is not frozen (R180, R187): columns in the pipeline advance and land in the ac 23 after they entered, the next
column enters, a tile row is loaded; an ac in which one of the last two happens is press-busy. -/
def Device.arrayAc (d : Device) (k : Nat) : Device :=
  let busy := (d.press k).loading.isSome || ((d.press k).entering.isSome && !d.dry k)
  let d := ((d.landDue k).enterNext k).loadRow k
  if busy then d.cnt (d.coreHoop k) 1 else d

/-- One ac of a core's press: the array, unless frozen, and the drain unit (R186, R187). -/
def Device.pressAc (d : Device) (k : Nat) (ice : Bool) : Device :=
  if (d.press k).owner.isNone then d
  else
    let e := d.drainAc k
    if ice then e.cnt (d.coreHoop k) 2 else e.arrayAc k

/-- One ac of every press of a die, all of whose freezes are judged at its start; then memberships end and the channels deliver (R188, R190). -/
def Device.dieAc (d : Device) (die : Nat) : Device :=
  let ks := ((Tab.keys d.cores).filter (fun k => k / 64 == die)).map (fun k => (k, d.frozen k, d.channel k))
  let d := ks.foldl (fun d x => d.pressAc x.1 x.2.1) d
  (ks.foldl (fun d x => d.leaves x.1 x.2.2) d).deliverAll die

/-! Operations in order -/

/-- Whether a queued operation's own condition holds (Table 6-3), given the earlier ones not done. -/
def MxOp.canStart (o : MxOp) (before : List MxOp) : Bool :=
  let entered := before.all (fun x => x.kind != 1 || x.n ≤ x.taken)
  match o.kind with
  | 0 => before.all (fun x => x.kind != 0) && entered
  | 1 => before.all (fun x => x.kind != 0) && entered
  | 3 => before.all (fun x => x.kind != 3
      && !(x.kind == 1 && (x.columns x.landed).any (fun c => o.first ≤ c && c < o.first + o.cols)))
  | _ => true

/-- Remove an operation that is done. -/
def Device.opDone (d : Device) (k seq : Nat) : Device := d.modPress k (fun p => { p with ops := p.ops.filter (fun x => x.seq != seq) })

/-- Start the next operation in issue order (R182). A drain takes the accumulators as they stand: no landing reaches a column before it has read
it (R186). -/
def Device.opStart (d : Device) (k : Nat) : Device :=
  let p := d.press k
  match p.ops.find? (fun o => !o.started) with
  | none => d
  | some o =>
    if !o.canStart (p.ops.takeWhile (fun x => x.started)) then d
    else if o.kind = 2 then d.opDone k o.seq
    else d.modOp k o.seq (fun o => { o with started := true, snap := if o.kind = 3 then p.acc else [],
                                            badSnap := if o.kind = 3 then p.badAcc else [] })

/-- Whether an operation in progress has nothing left (Table 6-3): 128 rows loaded, the last column landed, the last byte written. -/
def MxOp.ended (o : MxOp) : Bool :=
  o.started && (match o.kind with
    | 0 => 128 ≤ o.taken
    | 1 => o.n ≤ o.landed
    | _ => 128 ≤ o.rows)

/-- An operation in progress is done: the first one that has nothing left (R182). -/
def Device.opEnd (d : Device) (k : Nat) : Device :=
  match (d.press k).ops.find? MxOp.ended with
  | some o => d.opDone k o.seq
  | none => d

end Sys2Proof.Machine
end

