-- ==== Sys2Proof/Machine/Press.lean ====
section
/-! DEFINITION. Matrix-region instructions and the events of the press (R128 to R133, R168, R169, R176 to R192, Table 5-17). -/

namespace Sys2Proof.Machine

/-- The checks of a matrix instruction on the region and its lanes (R131, R132). -/
def IC.matrix (i : IC) (d : Device) (wantOpen : Bool) (reason : Nat) (k : Unit → Eff) : Eff :=
  if i.b.region ≠ wantOpen then .fault d { code := 0x49, arg2 := reason }
  else if i.x.mask ≠ 2 ^ 32 - 1 then .fault d { code := 0x48 }
  else k ()

/-- Send an operation to the press; while 8 are queued and not started its group parks (R182). -/
def IC.queueOp (i : IC) (d : Device) (f : Device → MxOp → Device) (o : MxOp) : Eff :=
  if ((d.press i.core).ops.filter (fun x => !x.started)).length ≥ 8 then .retry d none
  else
    let o := { o with seq := d.fresh, place := i.place, group := i.x.group }
    .go (f ((d.step1).modPress i.core (fun p => { p with ops := p.ops ++ [o] })) o)

/-- Local ranges of press operands: alignment, then range, each with its address (R177). -/
def IC.pressRanges (i : IC) (d : Device) (l : List (Nat × Nat × Nat)) : Option FaultArgs :=
  firstFault ((l.filter (fun x => x.1 % x.2.2 != 0)).map (fun x => (0, { code := 0x10, arg1 := x.1 }))
    ++ (l.filter (fun x => !d.localIn i.core x.1 x.2.1)).map (fun x => (0, { code := 0x51, arg1 := x.1 }))) |>.map
    (fun f => { f with arg0 := i.guard })

/-- MXBEGIN (0xC0). -/
def execMxbegin (e : Ent) (w : IWord) : State → Host.Outcome State Fault Refusal :=
  runIx e 0xC0 w ({ pt := true, ok := modIn w 0 }, fun i d => i.matrix d false 1 (fun _ => i.arriveAndPark d 16))

/-- Whether TYPE and SCALE hold for a tile or stream (R141, R169, R176). -/
def tileOk (w : IWord) : Bool :=
  let t := typeOf w
  1 ≤ t && t ≤ 8 && bits w.mod.toNat 9 8 < 3 && (bits w.mod.toNat 9 8 == 0 || (3 ≤ t && t ≤ 7))
/-- Whether a scale operand is uz. -/
def isUz (kind : BitVec 2) : Bool := kind == 2

/-- MXLDIN (0xC1). -/
def execMxldin (e : Ent) (w : IWord) : State → Host.Outcome State Fault Refusal :=
  let scale := bits w.mod.toNat 9 8
  runIx e 0xC1 w ({ a := .u 1, b := .u 1, pt := true, ok := tileOk w && modIn w 0x30F && (scale == 0) == isUz w.bk }, fun i d =>
    i.matrix d true 2 (fun _ =>
      let t := i.mod 3 0
      let a := i.a 1 0
      let b := i.bReg 1 0
      match i.pressRanges d ([(a, 128 * pressRb t, 128)] ++ (if scale = 0 then [] else [(b, 128 * pressSb t scale, 8)])) with
      | some f => .fault d f
      | none => i.queueOp d (fun d _ => d.modPress i.core (fun p => { p with tileType := some (t, scale) }))
          { kind := 0, seq := 0, handle := 16, a := a, b := b, type := t, scale := scale }))

/-- MXSTREAM (0xC2). -/
def execMxstream (e : Ent) (w : IWord) : State → Host.Outcome State Fault Refusal :=
  let scale := bits w.mod.toNat 9 8
  let src := w.mod.toNat.testBit 10
  runIx e 0xC2 w ({ a := .u 1, b := .u 1, c := .u 1, pt := true,
                    ok := tileOk w && modIn w 0x70F && (if src then isUz w.ck else (scale == 0) == isUz w.ck) }, fun i d =>
    i.matrix d true 2 (fun _ =>
      let t := i.mod 3 0
      let a := i.a 1 0
      let n := i.bReg 1 0
      let c := i.c 1 0
      let p := d.press i.core
      match (if src then none else i.pressRanges d ([(a, n * pressRb t, 128)] ++ (if scale = 0 then [] else [(c, n * pressSb t scale, 8)]))) with
      | some f => .fault d f
      | none =>
        if src ∧ 3 < a then .fault d { code := 0x30, arg1 := a }
        else match p.cur with
          | none => .fault d { code := 0x38 }
          | some h =>
            let r := Tab.get ⟨0, 1, 0⟩ p.handles h
            if n = 0 ∨ 65536 < n then .fault d { code := 0x38, arg2 := h }
            else if p.tileType ≠ some (t, scale) then .fault d { code := 0x39, arg2 := t }
            else i.queueOp d (fun d _ => d.modPress i.core (fun p =>
                { p with handles := Tab.insert p.handles h { r with cursor := (r.cursor + n) % r.cols } }))
              { kind := 1, seq := 0, handle := h, a := a, c := if scale = 0 ∨ src then none else some c, type := t, scale := scale, src := src,
                n := n, first := r.first, cols := r.cols, cursor := r.cursor }))

/-- MXACC (0xC3): the region's columns are marked fresh in overwrite mode (R181). -/
def execMxacc (e : Ent) (w : IWord) : State → Host.Outcome State Fault Refusal :=
  runIx e 0xC3 w ({ d := .h, a := .u 1, b := .u 1, pt := true, ok := modIn w 0x100 }, fun i d =>
    i.matrix d true 2 (fun _ =>
      let h := i.w.d.toNat
      let first := i.a 1 0
      let n := i.bReg 1 0
      if n = 0 ∨ 1024 < first + n then .fault d { code := 0x38, arg2 := h }
      else i.queueOp d (fun d o => d.modPress i.core (fun p =>
          { p with handles := Tab.insert p.handles h ⟨first, n, 0⟩, cur := some h,
                   fresh := if i.flag 8 then p.fresh
                     else (List.range n).foldl (fun t j => Tab.insert t (first + j) (Tab.get [] t (first + j) ++ [o.seq])) p.fresh }))
        { kind := 2, seq := 0, handle := h, first := first, cols := n, mode := i.flag 8 }))

/-- The destination checks of an MXDRAIN to global memory, over its whole range (R183, R263). -/
def IC.drainSeg (i : IC) (d : Device) (va n : Nat) : Device × Option FaultArgs :=
  let r := d.xlate (256 + i.core) i.hoop i.k.map va n [4] false
  match r.2 with
  | .error e => (r.1, some { code := e.code, arg0 := i.guard, arg1 := va, arg2 := e.arg2 })
  | .ok _ => (r.1, none)

/-- MXDRAIN (0xC4). -/
def execMxdrain (e : Ent) (w : IWord) : State → Host.Outcome State Fault Refusal :=
  let global := w.mod.toNat.testBit 11
  runIx e 0xC4 w ({ a := .h, b := .u (if global then 2 else 1), c := .u 1, pt := true,
                    ok := (typeOf w ≤ 8 || typeOf w == 10) && rndOf w ≤ 4 && modIn w 0x8FF }, fun i d =>
    if global ∧ i.k.early then i.held d
    else i.matrix d true 2 (fun _ =>
      let h := i.w.a.toNat
      let t := i.mod 3 0
      let dst := i.bReg (if global then 2 else 1) 0
      let c := if isUz i.w.ck then none else some (i.c 1 0)
      let r := Tab.find? (d.press i.core).handles h
      let cols := (r.map (fun (x : Acch) => x.cols)).getD 0
      let bytes := 128 * (cols * elemBits t / 8)
      match i.pressRanges d ((if global then [] else [(dst, bytes, 128)]) ++ (match c with | some c => [(c, 8 * cols, 8)] | none => [])) with
      | some f => .fault d f
      | none =>
        if global ∧ dst % 128 ≠ 0 then .fault d { code := 0x10, arg0 := i.guard, arg1 := dst }
        else
          let z := if global ∧ r.isSome then i.drainSeg d dst bytes else (d, none)
          match z.2 with
          | some f => .fault z.1 f
          | none => match r with
            | none => .fault d { code := 0x38, arg2 := h }
            | some r =>
              if cols * elemBits t % 8 ≠ 0 then .fault d { code := 0x38, arg2 := h }
              else
                let put := fun (d : Device) => i.queueOp d (fun d _ => d)
                  { kind := 3, seq := 0, handle := h, b := dst, c := c, type := t, n := 0, first := r.first, cols := cols,
                    rnd := i.mod 6 4, sat := i.flag 7, global := global }
                if global then i.watched z.1 1 bytes [(0, dst)] put else put d))

/-- Whether some of the columns lie in the regions of the handles of a mask. -/
def Press.meets (p : Press) (mask : Nat) (cols : List Nat) : Bool :=
  (setBits 4 mask).any (fun h => match Tab.find? p.handles h with
    | some r => cols.any (fun c => r.first ≤ c && c < r.first + r.cols)
    | none => false)

/-- Whether an operation is named by a handle mask (R182): an MXSTREAM that sends to, or an MXDRAIN that reads, a named region; 0 names all. -/
def MxOp.named (o : MxOp) (p : Press) (mask : Nat) : Bool :=
  mask == 0 || p.meets mask (o.columns 0)

/-- The error that an MXWAIT or MXEND raises for the operations it awaits (R185). DESIGN CHOICE (log entry 41): of several the first met; the
manual names none. -/
def Press.error (p : Press) (mask : Nat) : Option FaultArgs :=
  (p.bad.find? (fun x => mask == 0 || (x.cols.map (p.meets mask)).getD false)).map (fun x => { code := 0x60, arg1 := x.arg1 })

/-- MXWAIT (0xC5). DESIGN CHOICE (log entry 41): the mask is judged anew at each retry, by the operations queued and the handles bound at that time; the
manual does not say whether what other groups issue or bind while it is parked counts. -/
def execMxwait (e : Ent) (w : IWord) : State → Host.Outcome State Fault Refusal :=
  runIx e 0xC5 w ({ pt := true, ok := modIn w 0x00F }, fun i d =>
    i.matrix d true 2 (fun _ =>
      let p := d.press i.core
      let mask := i.mod 3 0
      if p.ops.any (fun o => o.named p mask) then .retry d none
      else match p.error mask with
        | some f => .fault d { f with arg0 := i.guard }
        | none => .go d))

/-- MXEND (0xC6). -/
def execMxend (e : Ent) (w : IWord) : State → Host.Outcome State Fault Refusal :=
  runIx e 0xC6 w ({ pt := true, ok := modIn w 0 }, fun i d => i.matrix d true 3 (fun _ => i.arriveAndPark d 17))

/-- PRESS_GRANT: the press is free and the block's MXBEGIN rendezvous completed first (R129, R191). -/
def execPressGrant (core : Nat) (s : State) : Host.Outcome State Fault Refusal :=
  let d := s.dev
  let c := d.core core
  let waiting := c.blocks.filterMap (fun (x : Nat × Block) => x.2.ready.map (fun r => (r, x.1)))
  let next := (minOf (waiting.map (·.1))).bind (fun r => List.find? (fun (x : Nat × Nat) => x.1 == r) waiting)
  s.done (match next, d.live, c.press.owner with
    | some (_, p), true, none =>
      (match d.block? core p, d.coreKernel core with
       | some b, some k =>
         let clean := c.clean && (Tab.vals c.blocks).all (fun (y : Block) => y.grants == 0)
         let gens : Tab Nat := (List.range 128).map (fun r => (r, mix k.seed b.lin (1024 + 128 * b.grants + r)))
         let d := (d.step1).modCore core (fun c => { c with press := { owner := some p, epoch := d.fresh, clean := clean, gens := gens } })
         (d.modBlock core p (fun b => { b with region := true, ready := none, grants := b.grants + 1 })).resumeAt core p 16
       | _, _ => d)
    | _, _, _ => d)

/-- PRESS_RELEASE: the block's MXEND rendezvous is complete and its operations are done (R133, R190); an error of one faults the
block at its MXEND (R185). DESIGN CHOICE (log entry 41): that is the MXEND of the lowest-numbered group parked at the release; the manual names
no group. -/
def execPressRelease (core : Nat) (s : State) : Host.Outcome State Fault Refusal :=
  let d := s.dev
  let c := d.core core
  s.done (match c.press.owner.bind (fun p => (d.block? core p).map (fun b => (p, b))) with
    | none => d
    | some (p, b) =>
      if !d.live || !b.ending || !c.press.ops.isEmpty then d
      else match c.press.error 0 with
        | some f =>
          let at_ := c.ents.filter (fun (x : Nat × SEnt) => x.2.place == p && x.2.park == .wait 17)
          let low := (minOf (at_.map (fun (x : Nat × SEnt) => x.2.group))).getD 0
          (match List.find? (fun (x : Nat × SEnt) => x.2.group == low) at_ with
           | some x => d.blockFault core p x.2.group x.2.mask x.2.pc { f with arg0 := x.2.mask }
           | none => d.blockFault core p low 0 0 f)
        | none =>
          let d := (d.leaveGroup core).modCore core (fun c => { c with press := {} })
          ((d.modBlock core p (fun b => { b with region := false, ending := false })).resumeAt core p 17).settle core p)

/-- MATRIX_OP_START. -/
def execMatrixOpStart (core : Nat) (s : State) : Host.Outcome State Fault Refusal :=
  s.done (if s.dev.live && core < 256 then s.dev.opStart core else s.dev)
/-- MATRIX_OP_DONE. -/
def execMatrixOpDone (core : Nat) (s : State) : Host.Outcome State Fault Refusal :=
  s.done (if s.dev.live && core < 256 then s.dev.opEnd core else s.dev)

end Sys2Proof.Machine
end

