-- ==== Sys2Proof/Machine/SegDrain.lean ====
section
/-! DEFINITION. The end of a SEGMENT_WRITE: the new content, and the accesses that it held (R270). -/

namespace Sys2Proof.Machine

/-- A held access resumes. -/
def Device.resumeHeld (d : Device) (a : HeldAcc) : Device :=
  match a with
  | .read fn x n => d.hostLoad fn x n
  | .write fn x data => d.hostStore fn x data
  | .atomic fn x op w64 operand compare => d.hostAtomicOp fn x op w64 operand compare
  | .remote k => if k.ptype = 0x01 then d.serveRead k else if k.ptype = 0x03 then d.serveWrite k else d.serveAtomic k
  | .doorbell q value => d.hostRing q value

/-- Held accesses resume, in the order in which they came; those whose descriptor another SEGMENT_WRITE still holds wait again (R270 step 6). -/
def Device.releaseHeld (d : Device) : Device :=
  d.boot.held.foldl (fun d a => d.resumeHeld a) (d.setBoot { d.boot with held := [] })

/-- The nodes that a SEGMENT_WRITE held start (R270 step 6). -/
def Device.startAgain (d : Device) : Device := (d.work.insts.foldl (fun d (x : Nat × Inst) => d.startNodes x.1) d).serveCredits

/-- SEGMENT_WRITE_DRAINED: once no access translated before is in flight, the new content takes effect and the command replies (R270). -/
def execSegmentWriteDrained (hoop : Nat) (s : State) : DevOut :=
  let d := s.dev
  s.done (match d.boot.waits.find? (fun w => w.wait == 1 && w.hdr.hoop == hoop) with
    | some w => if d.live && !d.inFlight w then ((d.segInstall hoop w.a w.b w.data).endWait w 0 0).releaseHeld.startAgain else d
    | none => d)

end Sys2Proof.Machine
end

