-- ==== Sys2Proof/Machine/Sideband.lean ====
section
/-! DEFINITION. MCTP control messages, the alert response, and SPDM (R416, R481, R482, R498). The codes and layouts of the named standards
are PRESUMED; log entry 34. -/

namespace Sys2Proof.Machine

/-! MCTP control -/

/-- Whether the sideband is served. -/
def Device.sbOpen (d : Device) : Bool := d.awake && !d.life.rindDead

/-- The response to a control message: command code, completion code, data. -/
def Device.control (d : Device) (code cc : Nat) (data : Bytes) : Device := d.emit (.mctp 0 (le 1 code ++ le 1 cc ++ data))

/-- SET_ENDPOINT_ID: 0 and 0xFF are no endpoint IDs. -/
def execSetEndpointId (eid : Byte) (s : State) : DevOut :=
  let d := s.dev
  s.done (if !d.sbOpen then d
    else if eid = 0 ∨ eid = 0xFF then d.control 1 2 []
    else (d.setBoot { d.boot with eid := eid.toNat }).control 1 0 (le 1 0 ++ [eid] ++ le 1 0))

/-- GET_ENDPOINT_ID. -/
def execGetEndpointId (s : State) : DevOut :=
  let d := s.dev
  s.done (if d.sbOpen then d.control 2 0 (le 1 d.boot.eid ++ le 2 0) else d)

/-- GET_MCTP_VERSION_SUPPORT: version 1.3 of the base specification and of control messages (R416). -/
def execGetMctpVersionSupport (mtype : Byte) (s : State) : DevOut :=
  let d := s.dev
  s.done (if !d.sbOpen then d
    else if mtype = 0xFF ∨ mtype = 0 then d.control 4 0 (le 1 1 ++ be 4 0xF1F3F100)
    else d.control 4 0x80 [])

/-- GET_MESSAGE_TYPE_SUPPORT: vendor-defined PCI messages (R416). -/
def execGetMessageTypeSupport (s : State) : DevOut :=
  let d := s.dev
  s.done (if d.sbOpen then d.control 5 0 (le 1 1 ++ le 1 0x7E) else d)

/-- ALERT_RESPONSE: while ALERT_N is asserted, the module answers with its own SMBus address; with FLOW_OK low the sideband does
not answer (R492, R496, R498). -/
def execAlertResponse (s : State) : DevOut :=
  let d := s.dev
  s.done (if d.life.powered && d.pins.flowOk && d.pins.alert && d.pins.straps.sbMode then d.emit (.alertAddress d.sbAddress) else d)

/-! SPDM -/

/-- Whether the DOE mailbox answers: its configuration space is reached (R394, R479, R482). -/
def Device.doeOpen (d : Device) : Bool := d.sbOpen && d.pcie.up && !d.pcie.crs

/-- An SPDM request: its response, with the fields that the manual states. -/
def State.spdm (s : State) (f : Device → Device) : DevOut := s.done (if s.dev.doeOpen then f s.dev else s.dev)

/-- ERROR with its error code and data. -/
def Device.spdmError (d : Device) (code data : Nat) : Device := d.emit (.spdm 0x7F (le 1 code ++ le 1 data))

/-- A fresh nonce of the responder: 32 free bytes. -/
def Device.nonce32 (d : Device) : Device × Bytes :=
  (List.range 4).foldl (fun a _ => (a.1.step1, a.2 ++ le 8 (Config.freeValue a.1.fresh).toNat)) (d, [])

/-- A response body with a nonce and a signature over the request's nonce and the body (R481). -/
def Device.signed (d : Device) (code : Nat) (asked body : Bytes) : Device :=
  let n := d.nonce32
  let m := body ++ n.2
  n.1.emit (.spdm code (m ++ slice (d.boot.engine.sign (asked ++ m)) 0 96))

/-- GET_VERSION: SPDM 1.3. -/
def execGetVersion (s : State) : DevOut := s.spdm (fun d => d.emit (.spdm 0x04 (le 1 1 ++ le 2 0x1300)))

/-- GET_CAPABILITIES: CERT_CAP, CHAL_CAP, MEAS_CAP with signature. -/
def execGetCapabilities (s : State) : DevOut := s.spdm (fun d => d.emit (.spdm 0x61 (le 4 0x16)))

/-- NEGOTIATE_ALGORITHMS: measurement hash SHA_384, ECDSA_ECC_NIST_P384, base hash SHA_384. -/
def execNegotiateAlgorithms (s : State) : DevOut := s.spdm (fun d => d.emit (.spdm 0x63 (le 4 4 ++ le 4 0x80 ++ le 4 2)))

/-- GET_DIGESTS: slot 0. -/
def execGetDigests (s : State) : DevOut := s.spdm (fun d => d.emit (.spdm 0x01 (le 1 1 ++ digestBytes (Config.sha384 d.chain))))

/-- GET_CERTIFICATE: a part of the chain of slot 0. -/
def execGetCertificate (slot offset length : Nat) (s : State) : DevOut :=
  s.spdm (fun d =>
    let c := d.chain
    if slot ≠ 0 ∨ c.length ≤ offset then d.spdmError 1 0
    else
      let part := (c.drop offset).take length
      d.emit (.spdm 0x02 (le 1 0 ++ le 2 part.length ++ le 2 (c.length - offset - part.length) ++ part)))

/-- CHALLENGE: the digest of the chain, signed. -/
def execChallenge (slot : Nat) (nonce : Bytes) (s : State) : DevOut :=
  s.spdm (fun d => if slot ≠ 0 then d.spdmError 1 0 else d.signed 0x03 nonce (le 1 0 ++ digestBytes (Config.sha384 d.chain)))

/-- The value of a measurement (Table 19-4); 2 and 3 are free while no image runs. -/
def Device.measurement (d : Device) (f : Fuses) (i : Nat) : Bytes :=
  let none_ := d.boot.header.isEmpty
  match i with
  | 1 => digestBytes Config.starterDigest
  | 2 => digestBytes (if none_ then Config.noImage 3 else Config.sha384 (imgSigned d.boot.header))
  | 3 => if none_ then digestBytes (Config.noImage 2) else slice d.boot.header 24 48
  | _ => le 1 f.rollback ++ le 1 (f.revoked % 16) ++ le 1 (b2n d.ms)
      ++ le 1 (d.rd Reg.DEBUG_STATUS_UNLOCKED + 2 * b2n (d.stage == 5)) ++ le 4 0

/-- The measurement blocks that an index asks for: 0 their number alone, 0xFF all. -/
def Device.blocks (d : Device) (f : Fuses) (i : Nat) : Bytes :=
  let block := fun i => le 1 i ++ le 2 (d.measurement f i).length ++ d.measurement f i
  if i = 0 then le 1 4 else if i = 0xFF then le 1 4 ++ (List.range 4).flatMap (fun j => block (j + 1)) else le 1 1 ++ block i

/-- GET_MEASUREMENTS. -/
def execGetMeasurements (index : Nat) (signed : Bool) (nonce : Bytes) (s : State) : DevOut :=
  s.spdm (fun d =>
    let b := d.blocks s.nv.fuses index
    if 4 < index ∧ index ≠ 0xFF then d.spdmError 1 0
    else if signed then d.signed 0x60 nonce b
    else
      let n := d.nonce32
      n.1.emit (.spdm 0x60 (b ++ n.2)))

/-- SPDM_UNSUPPORTED_REQUEST: any request but the seven of R482. -/
def execSpdmUnsupportedRequest (code : Byte) (s : State) : DevOut :=
  s.spdm (fun d => if [0x84, 0xE1, 0xE3, 0x81, 0x82, 0x83, 0xE0].contains code.toNat then d else d.spdmError 7 code.toNat)

end Sys2Proof.Machine
end

