-- ==== Sys2Proof/Machine/Dispatch.lean ====
section
/-! DEFINITION. One arm for each command of the opcode table: a direct call of its meaning. -/

namespace Sys2Proof.Machine

def exec (i : Instr) (s : State) : Host.Outcome State Fault Refusal :=
  match i with
  | .nop q => Sys2Proof.Machine.execNop q s
  | .launch q => Sys2Proof.Machine.execLaunch q s
  | .launchRecipe q => Sys2Proof.Machine.execLaunchRecipe q s
  | .copy q => Sys2Proof.Machine.execCopy q s
  | .whey q => Sys2Proof.Machine.execWhey q s
  | .fenceWait q => Sys2Proof.Machine.execFenceWait q s
  | .fenceSignal q => Sys2Proof.Machine.execFenceSignal q s
  | .eventRecord q => Sys2Proof.Machine.execEventRecord q s
  | .eventWait q => Sys2Proof.Machine.execEventWait q s
  | .sessionCommit q => Sys2Proof.Machine.execSessionCommit q s
  | .sessionReject q => Sys2Proof.Machine.execSessionReject q s
  | .settlementWaitDone session => Sys2Proof.Machine.execSettlementWaitDone session s
  | .weightFlip q => Sys2Proof.Machine.execWeightFlip q s
  | .chain q => Sys2Proof.Machine.execChain q s
  | .slotFetch slot => Sys2Proof.Machine.execSlotFetch slot s
  | .entryRetire q idx => Sys2Proof.Machine.execEntryRetire q idx s
  | .confirmingReadDone q status => Sys2Proof.Machine.execConfirmingReadDone q status s
  | .qdbWptr fn q value => Sys2Proof.Machine.execQdbWptr fn q value s
  | .fenceWaitSatisfied q => Sys2Proof.Machine.execFenceWaitSatisfied q s
  | .eventWaitSatisfied q => Sys2Proof.Machine.execEventWaitSatisfied q s
  | .nodeComplete inst node => Sys2Proof.Machine.execNodeComplete inst node s
  | .blockCredit core => Sys2Proof.Machine.execBlockCredit core s
  | .staggeredHandOut core => Sys2Proof.Machine.execStaggeredHandOut core s
  | .blockRetire core place => Sys2Proof.Machine.execBlockRetire core place s
  | .barrierStranded core place => Sys2Proof.Machine.execBarrierStranded core place s
  | .kernelWatchdog kernel => Sys2Proof.Machine.execKernelWatchdog kernel s
  | .overrunDebtRepaid hoop cls => Sys2Proof.Machine.execOverrunDebtRepaid hoop cls s
  | .flipDrained hoop => Sys2Proof.Machine.execFlipDrained hoop s
  | .drainComplete hoop => Sys2Proof.Machine.execDrainComplete hoop s
  | .scrubDone hoop => Sys2Proof.Machine.execScrubDone hoop s
  | .hoopCfgTablesLock fn hoop => Sys2Proof.Machine.execHoopCfgTablesLock fn hoop s
  | .hoopRelqPtrHead fn hoop value => Sys2Proof.Machine.execHoopRelqPtrHead fn hoop value s
  | .registerWrite fn tgt width value => Sys2Proof.Machine.execRegisterWrite fn tgt width value s
  | .fadd e w => Sys2Proof.Machine.execFadd e w s
  | .fsub e w => Sys2Proof.Machine.execFsub e w s
  | .fmul e w => Sys2Proof.Machine.execFmul e w s
  | .fma e w => Sys2Proof.Machine.execFma e w s
  | .fmin e w => Sys2Proof.Machine.execFmin e w s
  | .fmax e w => Sys2Proof.Machine.execFmax e w s
  | .iadd e w => Sys2Proof.Machine.execIadd e w s
  | .isub e w => Sys2Proof.Machine.execIsub e w s
  | .imul e w => Sys2Proof.Machine.execImul e w s
  | .imulhi e w => Sys2Proof.Machine.execImulhi e w s
  | .imad e w => Sys2Proof.Machine.execImad e w s
  | .and e w => Sys2Proof.Machine.execAnd e w s
  | .or e w => Sys2Proof.Machine.execOr e w s
  | .xor e w => Sys2Proof.Machine.execXor e w s
  | .andn e w => Sys2Proof.Machine.execAndn e w s
  | .shl e w => Sys2Proof.Machine.execShl e w s
  | .shr e w => Sys2Proof.Machine.execShr e w s
  | .popc e w => Sys2Proof.Machine.execPopc e w s
  | .clz e w => Sys2Proof.Machine.execClz e w s
  | .brev e w => Sys2Proof.Machine.execBrev e w s
  | .imin e w => Sys2Proof.Machine.execImin e w s
  | .imax e w => Sys2Proof.Machine.execImax e w s
  | .sel e w => Sys2Proof.Machine.execSel e w s
  | .mov e w => Sys2Proof.Machine.execMov e w s
  | .setp e w => Sys2Proof.Machine.execSetp e w s
  | .cvt e w => Sys2Proof.Machine.execCvt e w s
  | .cvts e w => Sys2Proof.Machine.execCvts e w s
  | .xlane e w => Sys2Proof.Machine.execXlane e w s
  | .lvote e w => Sys2Proof.Machine.execLvote e w s
  | .rdsys e w => Sys2Proof.Machine.execRdsys e w s
  | .rcp e w => Sys2Proof.Machine.execRcp e w s
  | .rsq e w => Sys2Proof.Machine.execRsq e w s
  | .sqrt e w => Sys2Proof.Machine.execSqrt e w s
  | .exp2 e w => Sys2Proof.Machine.execExp2 e w s
  | .log2 e w => Sys2Proof.Machine.execLog2 e w s
  | .sinpi e w => Sys2Proof.Machine.execSinpi e w s
  | .cospi e w => Sys2Proof.Machine.execCospi e w s
  | .tanh e w => Sys2Proof.Machine.execTanh e w s
  | .ldl e w => Sys2Proof.Machine.execLdl e w s
  | .stl e w => Sys2Proof.Machine.execStl e w s
  | .ld e w => Sys2Proof.Machine.execLd e w s
  | .st e w => Sys2Proof.Machine.execSt e w s
  | .ldu e w => Sys2Proof.Machine.execLdu e w s
  | .prf e w => Sys2Proof.Machine.execPrf e w s
  | .gld e w => Sys2Proof.Machine.execGld e w s
  | .gst e w => Sys2Proof.Machine.execGst e w s
  | .sld e w => Sys2Proof.Machine.execSld e w s
  | .sst e w => Sys2Proof.Machine.execSst e w s
  | .atom e w => Sys2Proof.Machine.execAtom e w s
  | .atoml e w => Sys2Proof.Machine.execAtoml e w s
  | .gatom e w => Sys2Proof.Machine.execGatom e w s
  | .fence e w => Sys2Proof.Machine.execFence e w s
  | .fsignal e w => Sys2Proof.Machine.execFsignal e w s
  | .bar e w => Sys2Proof.Machine.execBar e w s
  | .barArrive e w => Sys2Proof.Machine.execBarArrive e w s
  | .bra e w => Sys2Proof.Machine.execBra e w s
  | .brx e w => Sys2Proof.Machine.execBrx e w s
  | .call e w => Sys2Proof.Machine.execCall e w s
  | .rcv e w => Sys2Proof.Machine.execRcv e w s
  | .exit e w => Sys2Proof.Machine.execExit e w s
  | .trap e w => Sys2Proof.Machine.execTrap e w s
  | .instructionNop e w => Sys2Proof.Machine.execInstructionNop e w s
  | .illegalOpcode e opcode => Sys2Proof.Machine.execIllegalOpcode e opcode s
  | .umov e w => Sys2Proof.Machine.execUmov e w s
  | .uadd e w => Sys2Proof.Machine.execUadd e w s
  | .usub e w => Sys2Proof.Machine.execUsub e w s
  | .umul e w => Sys2Proof.Machine.execUmul e w s
  | .ulop e w => Sys2Proof.Machine.execUlop e w s
  | .ushf e w => Sys2Proof.Machine.execUshf e w s
  | .usetp e w => Sys2Proof.Machine.execUsetp e w s
  | .v2u e w => Sys2Proof.Machine.execV2u e w s
  | .plop e w => Sys2Proof.Machine.execPlop e w s
  | .mxbegin e w => Sys2Proof.Machine.execMxbegin e w s
  | .pressGrant core => Sys2Proof.Machine.execPressGrant core s
  | .mxldin e w => Sys2Proof.Machine.execMxldin e w s
  | .mxstream e w => Sys2Proof.Machine.execMxstream e w s
  | .mxacc e w => Sys2Proof.Machine.execMxacc e w s
  | .mxdrain e w => Sys2Proof.Machine.execMxdrain e w s
  | .mxwait e w => Sys2Proof.Machine.execMxwait e w s
  | .mxend e w => Sys2Proof.Machine.execMxend e w s
  | .pressRelease core => Sys2Proof.Machine.execPressRelease core s
  | .matrixOpStart core => Sys2Proof.Machine.execMatrixOpStart core s
  | .matrixOpDone core => Sys2Proof.Machine.execMatrixOpDone core s
  | .sstart e w => Sys2Proof.Machine.execSstart e w s
  | .swait e w => Sys2Proof.Machine.execSwait e w s
  | .spoll e w => Sys2Proof.Machine.execSpoll e w s
  | .msend e w => Sys2Proof.Machine.execMsend e w s
  | .doorbell e w => Sys2Proof.Machine.execDoorbell e w s
  | .smupd e w => Sys2Proof.Machine.execSmupd e w s
  | .descriptorStart desc => Sys2Proof.Machine.execDescriptorStart desc s
  | .descriptorComplete desc => Sys2Proof.Machine.execDescriptorComplete desc s
  | .wcBufferIssue engine => Sys2Proof.Machine.execWcBufferIssue engine s
  | .spillOldBlockFree desc => Sys2Proof.Machine.execSpillOldBlockFree desc s
  | .sessionRelease session => Sys2Proof.Machine.execSessionRelease session s
  | .segmentWriteDrained hoop => Sys2Proof.Machine.execSegmentWriteDrained hoop s
  | .mgmtNop h p => Sys2Proof.Machine.execMgmtNop h p s
  | .hoopCreate h p => Sys2Proof.Machine.execHoopCreate h p s
  | .hoopResize h p => Sys2Proof.Machine.execHoopResize h p s
  | .hoopDestroy h p => Sys2Proof.Machine.execHoopDestroy h p s
  | .hoopQuery h p => Sys2Proof.Machine.execHoopQuery h p s
  | .queueCreate h p => Sys2Proof.Machine.execQueueCreate h p s
  | .queueReset h p => Sys2Proof.Machine.execQueueReset h p s
  | .queueAbort h p => Sys2Proof.Machine.execQueueAbort h p s
  | .queueDestroy h p => Sys2Proof.Machine.execQueueDestroy h p s
  | .segmentWrite h p => Sys2Proof.Machine.execSegmentWrite h p s
  | .segmentCheck h p => Sys2Proof.Machine.execSegmentCheck h p s
  | .kvPoolSet h p => Sys2Proof.Machine.execKvPoolSet h p s
  | .sessionAlloc h p => Sys2Proof.Machine.execSessionAlloc h p s
  | .sessionFree h p => Sys2Proof.Machine.execSessionFree h p s
  | .sessionInfo h p => Sys2Proof.Machine.execSessionInfo h p s
  | .recipeLoad h p => Sys2Proof.Machine.execRecipeLoad h p s
  | .wheelLoad h p => Sys2Proof.Machine.execWheelLoad h p s
  | .wheelPeriod h p => Sys2Proof.Machine.execWheelPeriod h p s
  | .timeMasterSet h p => Sys2Proof.Machine.execTimeMasterSet h p s
  | .rxqConfig h p => Sys2Proof.Machine.execRxqConfig h p s
  | .routeQuery h p => Sys2Proof.Machine.execRouteQuery h p s
  | .boardMap h p => Sys2Proof.Machine.execBoardMap h p s
  | .portEnable h p => Sys2Proof.Machine.execPortEnable h p s
  | .powerCap h p => Sys2Proof.Machine.execPowerCap h p s
  | .powerQuery h p => Sys2Proof.Machine.execPowerQuery h p s
  | .powerMode h p => Sys2Proof.Machine.execPowerMode h p s
  | .statsConfig h p => Sys2Proof.Machine.execStatsConfig h p s
  | .histogramConfig h p => Sys2Proof.Machine.execHistogramConfig h p s
  | .traceConfig h p => Sys2Proof.Machine.execTraceConfig h p s
  | .counterRead h p => Sys2Proof.Machine.execCounterRead h p s
  | .watchSet h p => Sys2Proof.Machine.execWatchSet h p s
  | .watchClear h p => Sys2Proof.Machine.execWatchClear h p s
  | .debugNonce h p => Sys2Proof.Machine.execDebugNonce h p s
  | .debugUnlock h p => Sys2Proof.Machine.execDebugUnlock h p s
  | .debugRelock h p => Sys2Proof.Machine.execDebugRelock h p s
  | .perturbSet h p => Sys2Proof.Machine.execPerturbSet h p s
  | .fwQuery h p => Sys2Proof.Machine.execFwQuery h p s
  | .fwUpdate h p => Sys2Proof.Machine.execFwUpdate h p s
  | .identityGet h p => Sys2Proof.Machine.execIdentityGet h p s
  | .moduleReset h p => Sys2Proof.Machine.execModuleReset h p s
  | .powerCycle h p => Sys2Proof.Machine.execPowerCycle h p s
  | .errSummaryRead h p => Sys2Proof.Machine.execErrSummaryRead h p s
  | .mgmtRingEnable fn value => Sys2Proof.Machine.execMgmtRingEnable fn value s
  | .mgmtTail fn value => Sys2Proof.Machine.execMgmtTail fn value s
  | .errqPtrHead value => Sys2Proof.Machine.execErrqPtrHead value s
  | .hoopErrqEnable fn hoop value => Sys2Proof.Machine.execHoopErrqEnable fn hoop value s
  | .hoopErrqPtrHead fn hoop value => Sys2Proof.Machine.execHoopErrqPtrHead fn hoop value s
  | .hoopWatchStopped fn hoop => Sys2Proof.Machine.execHoopWatchStopped fn hoop s
  | .hoopTracePtrHead fn hoop value => Sys2Proof.Machine.execHoopTracePtrHead fn hoop value s
  | .cxlRetrain port => Sys2Proof.Machine.execCxlRetrain port s
  | .hdmCommit decoder => Sys2Proof.Machine.execHdmCommit decoder s
  | .hdmUncommit decoder => Sys2Proof.Machine.execHdmUncommit decoder s
  | .recoveryResult readBackOk => Sys2Proof.Machine.execRecoveryResult readBackOk s
  | .apertureRead fn offset n => Sys2Proof.Machine.execApertureRead fn offset n s
  | .apertureWrite fn offset data => Sys2Proof.Machine.execApertureWrite fn offset data s
  | .apertureAtomicop fn offset op w64 operand compare => Sys2Proof.Machine.execApertureAtomicop fn offset op w64 operand compare s
  | .vfFlr vf => Sys2Proof.Machine.execVfFlr vf s
  | .vfDisable vf => Sys2Proof.Machine.execVfDisable vf s
  | .busMasterEnable fn on => Sys2Proof.Machine.execBusMasterEnable fn on s
  | .msixUnmask fn vector => Sys2Proof.Machine.execMsixUnmask fn vector s
  | .rdShared agent line hoop => Sys2Proof.Machine.execRdShared agent line hoop s
  | .rdOwn agent line hoop => Sys2Proof.Machine.execRdOwn agent line hoop s
  | .invOwn agent line hoop => Sys2Proof.Machine.execInvOwn agent line hoop s
  | .wrLine agent line req => Sys2Proof.Machine.execWrLine agent line req s
  | .wb agent line => Sys2Proof.Machine.execWb agent line s
  | .rdCur agent line hoop => Sys2Proof.Machine.execRdCur agent line hoop s
  | .wrCur agent line req => Sys2Proof.Machine.execWrCur agent line req s
  | .atomic agent line req => Sys2Proof.Machine.execAtomic agent line req s
  | .snpShared agent line => Sys2Proof.Machine.execSnpShared agent line s
  | .snpInv agent line => Sys2Proof.Machine.execSnpInv agent line s
  | .snpCur agent line => Sys2Proof.Machine.execSnpCur agent line s
  | .rspI agent line => Sys2Proof.Machine.execRspI agent line s
  | .rspS agent line => Sys2Proof.Machine.execRspS agent line s
  | .rspFwd agent line => Sys2Proof.Machine.execRspFwd agent line s
  | .rspDirty agent line => Sys2Proof.Machine.execRspDirty agent line s
  | .cmp agent line => Sys2Proof.Machine.execCmp agent line s
  | .snoopTimeout reporter suspect line => Sys2Proof.Machine.execSnoopTimeout reporter suspect line s
  | .completionTimeout reporter suspect line => Sys2Proof.Machine.execCompletionTimeout reporter suspect line s
  | .flitReceive port f => Sys2Proof.Machine.execFlitReceive port f s
  | .abortFlit port f => Sys2Proof.Machine.execAbortFlit port f s
  | .packetForward port cls k => Sys2Proof.Machine.execPacketForward port cls k s
  | .rdReq port k => Sys2Proof.Machine.execRdReq port k s
  | .rdRsp port k => Sys2Proof.Machine.execRdRsp port k s
  | .wr port k => Sys2Proof.Machine.execWr port k s
  | .wrAck port k => Sys2Proof.Machine.execWrAck port k s
  | .atomPacket port k => Sys2Proof.Machine.execAtomPacket port k s
  | .atomRsp port k => Sys2Proof.Machine.execAtomRsp port k s
  | .refuse port k => Sys2Proof.Machine.execRefuse port k s
  | .remoteTimeout tag => Sys2Proof.Machine.execRemoteTimeout tag s
  | .msg port k => Sys2Proof.Machine.execMsg port k s
  | .msgAck port k => Sys2Proof.Machine.execMsgAck port k s
  | .msgResend tag => Sys2Proof.Machine.execMsgResend tag s
  | .tick port k => Sys2Proof.Machine.execTick port k s
  | .tickIn lowNs => Sys2Proof.Machine.execTickIn lowNs s
  | .delayExchange port => Sys2Proof.Machine.execDelayExchange port s
  | .delayReq port k => Sys2Proof.Machine.execDelayReq port k s
  | .delayRsp port k => Sys2Proof.Machine.execDelayRsp port k s
  | .time port k => Sys2Proof.Machine.execTime port k s
  | .boardUp port k => Sys2Proof.Machine.execBoardUp port k s
  | .portReport port k => Sys2Proof.Machine.execPortReport port k s
  | .statsSummary port k => Sys2Proof.Machine.execStatsSummary port k s
  | .linkState port k => Sys2Proof.Machine.execLinkState port k s
  | .portTrained port => Sys2Proof.Machine.execPortTrained port s
  | .trainTimeout port => Sys2Proof.Machine.execTrainTimeout port s
  | .identifyDone port partner => Sys2Proof.Machine.execIdentifyDone port partner s
  | .portFailed port condition => Sys2Proof.Machine.execPortFailed port condition s
  | .cxlLinkDown link => Sys2Proof.Machine.execCxlLinkDown link s
  | .cxlLinkTrain link width speed capGib => Sys2Proof.Machine.execCxlLinkTrain link width speed capGib s
  | .powerOn straps => Sys2Proof.Machine.execPowerOn straps s
  | .perstNDeassert straps => Sys2Proof.Machine.execPerstNDeassert straps s
  | .startup fault => Sys2Proof.Machine.execStartup fault s
  | .thermalSample readings => Sys2Proof.Machine.execThermalSample readings s
  | .powerDecision activity => Sys2Proof.Machine.execPowerDecision activity s
  | .powerMeasurement watts activity => Sys2Proof.Machine.execPowerMeasurement watts activity s
  | .droop rail => Sys2Proof.Machine.execDroop rail s
  | .pcieReadCompletion tag status data => Sys2Proof.Machine.execPcieReadCompletion tag status data s
  | .pcieCompletionTimeout tag => Sys2Proof.Machine.execPcieCompletionTimeout tag s
  | .mapperRun => Sys2Proof.Machine.execMapperRun s
  | .wheelTick => Sys2Proof.Machine.execWheelTick s
  | .substituteTick => Sys2Proof.Machine.execSubstituteTick s
  | .missedTick => Sys2Proof.Machine.execMissedTick s
  | .subslotBoundary => Sys2Proof.Machine.execSubslotBoundary s
  | .wheyDescriptorStart => Sys2Proof.Machine.execWheyDescriptorStart s
  | .debugLifetimeExpiry => Sys2Proof.Machine.execDebugLifetimeExpiry s
  | .fwProgramDone => Sys2Proof.Machine.execFwProgramDone s
  | .recoveryGo => Sys2Proof.Machine.execRecoveryGo s
  | .recoveryReset => Sys2Proof.Machine.execRecoveryReset s
  | .pfFlr => Sys2Proof.Machine.execPfFlr s
  | .pcieLinkDown => Sys2Proof.Machine.execPcieLinkDown s
  | .managerTick => Sys2Proof.Machine.execManagerTick s
  | .tickSend => Sys2Proof.Machine.execTickSend s
  | .timeMasterLost => Sys2Proof.Machine.execTimeMasterLost s
  | .managerLost => Sys2Proof.Machine.execManagerLost s
  | .routeInstall => Sys2Proof.Machine.execRouteInstall s
  | .perstNAssert => Sys2Proof.Machine.execPerstNAssert s
  | .rollbackRaise => Sys2Proof.Machine.execRollbackRaise s
  | .brownOut => Sys2Proof.Machine.execBrownOut s
  | .coolantLoss => Sys2Proof.Machine.execCoolantLoss s
  | .throttleStep => Sys2Proof.Machine.execThrottleStep s
  | .warmupEnd => Sys2Proof.Machine.execWarmupEnd s
  | .opStep => Sys2Proof.Machine.execOpStep s
  | .ageingCounter => Sys2Proof.Machine.execAgeingCounter s
  | .alertResponse => Sys2Proof.Machine.execAlertResponse s
  | .getEndpointId => Sys2Proof.Machine.execGetEndpointId s
  | .getMessageTypeSupport => Sys2Proof.Machine.execGetMessageTypeSupport s
  | .getVersion => Sys2Proof.Machine.execGetVersion s
  | .getCapabilities => Sys2Proof.Machine.execGetCapabilities s
  | .negotiateAlgorithms => Sys2Proof.Machine.execNegotiateAlgorithms s
  | .getDigests => Sys2Proof.Machine.execGetDigests s
  | .flowOkRise => Sys2Proof.Machine.execFlowOkRise s
  | .pwrCycleReqRelease => Sys2Proof.Machine.execPwrCycleReqRelease s
  | .pcieLinkUp => Sys2Proof.Machine.execPcieLinkUp s
  | .portRetrain port => Sys2Proof.Machine.execPortRetrain port s
  | .cxlReadTimeout address => Sys2Proof.Machine.execCxlReadTimeout address s
  | .cxlEvent link dpa header => Sys2Proof.Machine.execCxlEvent link dpa header s
  | .setEndpointId eid => Sys2Proof.Machine.execSetEndpointId eid s
  | .getMctpVersionSupport mtype => Sys2Proof.Machine.execGetMctpVersionSupport mtype s
  | .getCertificate slot offset length => Sys2Proof.Machine.execGetCertificate slot offset length s
  | .challenge slot nonce => Sys2Proof.Machine.execChallenge slot nonce s
  | .getMeasurements index signed nonce => Sys2Proof.Machine.execGetMeasurements index signed nonce s
  | .spdmUnsupportedRequest code => Sys2Proof.Machine.execSpdmUnsupportedRequest code s
  | .droopEnd rail => Sys2Proof.Machine.execDroopEnd rail s
  | .klozarTrainRetry port => Sys2Proof.Machine.execKlozarTrainRetry port s

end Sys2Proof.Machine
end

