-- ==== Sys2Proof/Machine/Idle.lean ====
section
/-! DEFINITION. The passage of time while no command waits: one ns of the local timer, and the cycles it brings. Log entry 3. -/

namespace Sys2Proof.Machine

/-- The ic of a core with a block in one ns, in 1/3000 ic (R428). -/
def Device.coreTime (d : Device) (k : Nat) : Device :=
  if (d.core k).blocks.isEmpty then d else d.cnt (d.coreHoop k) 0 (d.icRate (k / 64))

/-- The ac of a die that end in one ns: an ac is two ic (R187; log entry 42). -/
def Device.acs (d : Device) (die : Nat) : Nat :=
  let t := Tab.get 0 d.clock.ic die
  (t + d.icRate die) / 6000 - t / 6000

/-- The fc that end in one ns (Table 18-1). -/
def Device.fcs (d : Device) : Nat := (d.clock.fc + d.fcRate) / 1000 - d.clock.fc / 1000

/-- Each fc is a candidate event of RING_THROTTLE at each die (Table 17-9). -/
def Device.throttle (d : Device) (n : Nat) : Device :=
  if (List.range 8).any (fun i => d.rd Reg.PERTURB_CFG_TARGET i == 5) then
    (List.range n).foldl (fun d _ => (List.range 5).foldl (fun d die => d.perturb 5 die) d) d
  else d

/-- An event that a perturbation has delayed takes effect (R448). -/
def Device.lateEvent (d : Device) : Late → Device
  | .linkCredit p key n => if d.portUp p then d.creditBack p key n else d
  | .blockCredit core => d.credit core
  | .doorbell q value => d.ringNow q value
  | .descDone desc => d.descDone desc

/-- The delayed events that are due. -/
def Device.lateEvents (d : Device) : Device :=
  let due := d.stat.late.filter (fun x => x.1 ≤ d.clock.now)
  due.foldl (fun d x => d.lateEvent x.2) { d with stat := { d.stat with late := d.stat.late.filter (fun x => d.clock.now < x.1) } }

/-- One ns passes: the local timer (R364), and while the module runs, the blocks that its ports begin, the ic count of each die, the cycle counters of its cores, the ac of their
presses and the fc of its stream engines. -/
def Device.idle (d : Device) : Device :=
  if !d.life.powered then d
  else if d.life.stopped then d.ageOne
  else
    let d := d.ageOne
    let d : Device := { d with clock := { d.clock with now := d.clock.now + 1 } }
    if !d.live then d
    else
      let d := d.sendBlocks.ageFails.ageTime.errVectors.reportFailed
      let d := if d.stat.late.isEmpty then d else d.lateEvents
      let fcs := d.fcs
      let d := d.throttle fcs
      let acs := (List.range 4).map d.acs
      let d := if d.boot.held.isEmpty || d.boot.waits.any (fun w => w.wait == 1) then d else d.releaseHeld
      let d := if fcs = 0 then d else (List.range 4).foldl (fun d i => d.engineTime i fcs) d
      let d : Device := { d with clock := { d.clock with fc := d.clock.fc + d.fcRate, ic := (List.range 4).foldl (fun t i => Tab.insert t i (Tab.get 0 t i + d.icRate i)) d.clock.ic } }
      let d := ((Tab.keys d.cores).filter (fun k => !(d.core k).blocks.isEmpty)).foldl (fun d k => d.coreTime k) d
      (acs.zipIdx).foldl (fun d x => (List.range x.1).foldl (fun d _ => d.dieAc x.2) d) d

/-- An idle step of the block (R364); management commands that wait take their turns (R407). -/
def State.idle (s : State) : State :=
  let t : State := { s with dev := s.dev.idle }
  if t.dev.boot.cmds.isEmpty then t else t.mgmtGo

end Sys2Proof.Machine
end

