-- ==== Sys2Proof/WellFormed.lean ====
section
/-! DEFINITION. Which commands are well formed: every operand in the range that the manual gives it. A command outside these ranges
does not occur on the hardware; the machine gives it a meaning all the same (log entry 4). -/

namespace Sys2Proof

/-- A scheduling entry: 256 module core numbers (R16), 192 entries a core (Table 4-1) and the model's numbers 192 to 2,239 for
instructions that share an entry (log entry 17). -/
def Ent.wf (e : Ent) : Bool := e.core < 256 && e.entry < 2240

/-- A management header (Table 16-1): ring 0 to 9, hoop 8 bits, REPLY_CAP 16 bits, addresses 64 bits. -/
def MHdr.wf (h : MHdr) : Bool :=
  h.ring ≤ 9 && h.hoop < 256 && h.replyCap < 65536 && h.paramAddr < 2 ^ 64 && h.replyAddr < 2 ^ 64

/-- A register target: a BAR of Table 15-2 and a 64-bit offset, or a configuration field. -/
def RegTarget.wf : RegTarget → Bool
  | .bar n offset => n ≤ 5 && offset < 2 ^ 64
  | .cfg _ => true

/-- The fields of a packet header (Table 14-3) and the 13-bit length of its payload. -/
def Pkt.wf (k : Pkt) : Bool :=
  k.dst < 4096 && k.src < 4096 && k.ptype < 64 && k.tag < 65536 && k.job < 65536 && k.win < 16 && k.offset < 2 ^ 48
    && k.data.length < 8192

/-- What IDENTIFY carries (Table 14-7). -/
def Partner.wf (p : Partner) : Bool := p.chip < 4096 && p.board < 512 && p.slot < 8 && p.port < 8

/-- A start-up failure: a stop cause and its detail, one byte each (Table 19-3). -/
def bootWf (fault : Option (Nat × Nat)) : Bool := fault.all (fun (x : Nat × Nat) => x.1 < 256 && x.2 < 256)

/-- Whether a command is well formed. -/
def Instr.wf : Instr → Bool
  | .nop q => q < 4096
  | .launch q => q < 4096
  | .launchRecipe q => q < 4096
  | .copy q => q < 4096
  | .whey q => q < 4096
  | .fenceWait q => q < 4096
  | .fenceSignal q => q < 4096
  | .eventRecord q => q < 4096
  | .eventWait q => q < 4096
  | .sessionCommit q => q < 4096
  | .sessionReject q => q < 4096
  | .settlementWaitDone session => session < 65536
  | .weightFlip q => q < 4096
  | .chain q => q < 4096
  | .slotFetch slot => slot < 128
  | .entryRetire q idx => q < 4096 && idx < 1024
  | .confirmingReadDone q _ => q < 4096
  | .qdbWptr fn q _ => fn ≤ 8 && q < 4096
  | .fenceWaitSatisfied q => q < 4096
  | .eventWaitSatisfied q => q < 4096
  | .nodeComplete inst node => inst < 2 ^ 64 && node < 65535
  | .blockCredit core => core < 256
  | .staggeredHandOut core => core < 256
  | .blockRetire core place => core < 256 && place < 32
  | .barrierStranded core place => core < 256 && place < 32
  | .kernelWatchdog kernel => kernel < 2 ^ 64
  | .overrunDebtRepaid hoop cls => hoop < 8 && cls < 16
  | .flipDrained hoop => hoop < 8
  | .drainComplete hoop => hoop < 8
  | .scrubDone hoop => hoop < 8
  | .hoopCfgTablesLock fn hoop => fn ≤ 8 && hoop < 8
  | .hoopRelqPtrHead fn hoop _ => fn ≤ 8 && hoop < 8
  | .registerWrite fn tgt width _ => fn ≤ 8 && tgt.wf && [1, 2, 4, 8].contains width
  | .fadd e _ => e.wf
  | .fsub e _ => e.wf
  | .fmul e _ => e.wf
  | .fma e _ => e.wf
  | .fmin e _ => e.wf
  | .fmax e _ => e.wf
  | .iadd e _ => e.wf
  | .isub e _ => e.wf
  | .imul e _ => e.wf
  | .imulhi e _ => e.wf
  | .imad e _ => e.wf
  | .and e _ => e.wf
  | .or e _ => e.wf
  | .xor e _ => e.wf
  | .andn e _ => e.wf
  | .shl e _ => e.wf
  | .shr e _ => e.wf
  | .popc e _ => e.wf
  | .clz e _ => e.wf
  | .brev e _ => e.wf
  | .imin e _ => e.wf
  | .imax e _ => e.wf
  | .sel e _ => e.wf
  | .mov e _ => e.wf
  | .setp e _ => e.wf
  | .cvt e _ => e.wf
  | .cvts e _ => e.wf
  | .xlane e _ => e.wf
  | .lvote e _ => e.wf
  | .rdsys e _ => e.wf
  | .rcp e _ => e.wf
  | .rsq e _ => e.wf
  | .sqrt e _ => e.wf
  | .exp2 e _ => e.wf
  | .log2 e _ => e.wf
  | .sinpi e _ => e.wf
  | .cospi e _ => e.wf
  | .tanh e _ => e.wf
  | .ldl e _ => e.wf
  | .stl e _ => e.wf
  | .ld e _ => e.wf
  | .st e _ => e.wf
  | .ldu e _ => e.wf
  | .prf e _ => e.wf
  | .gld e _ => e.wf
  | .gst e _ => e.wf
  | .sld e _ => e.wf
  | .sst e _ => e.wf
  | .atom e _ => e.wf
  | .atoml e _ => e.wf
  | .gatom e _ => e.wf
  | .fence e _ => e.wf
  | .fsignal e _ => e.wf
  | .bar e _ => e.wf
  | .barArrive e _ => e.wf
  | .bra e _ => e.wf
  | .brx e _ => e.wf
  | .call e _ => e.wf
  | .rcv e _ => e.wf
  | .exit e _ => e.wf
  | .trap e _ => e.wf
  | .instructionNop e _ => e.wf
  | .illegalOpcode e _ => e.wf
  | .umov e _ => e.wf
  | .uadd e _ => e.wf
  | .usub e _ => e.wf
  | .umul e _ => e.wf
  | .ulop e _ => e.wf
  | .ushf e _ => e.wf
  | .usetp e _ => e.wf
  | .v2u e _ => e.wf
  | .plop e _ => e.wf
  | .mxbegin e _ => e.wf
  | .pressGrant core => core < 256
  | .mxldin e _ => e.wf
  | .mxstream e _ => e.wf
  | .mxacc e _ => e.wf
  | .mxdrain e _ => e.wf
  | .mxwait e _ => e.wf
  | .mxend e _ => e.wf
  | .pressRelease core => core < 256
  | .matrixOpStart core => core < 256
  | .matrixOpDone core => core < 256
  | .sstart e _ => e.wf
  | .swait e _ => e.wf
  | .spoll e _ => e.wf
  | .msend e _ => e.wf
  | .doorbell e _ => e.wf
  | .smupd e _ => e.wf
  | .descriptorStart desc => desc < 2 ^ 64
  | .descriptorComplete desc => desc < 2 ^ 64
  | .wcBufferIssue engine => engine < 64
  | .spillOldBlockFree desc => desc < 2 ^ 64
  | .sessionRelease session => session < 65536
  | .segmentWriteDrained hoop => hoop < 8
  | .mgmtNop h p => h.wf && p.length ≤ 4096
  | .hoopCreate h p => h.wf && p.length ≤ 4096
  | .hoopResize h p => h.wf && p.length ≤ 4096
  | .hoopDestroy h p => h.wf && p.length ≤ 4096
  | .hoopQuery h p => h.wf && p.length ≤ 4096
  | .queueCreate h p => h.wf && p.length ≤ 4096
  | .queueReset h p => h.wf && p.length ≤ 4096
  | .queueAbort h p => h.wf && p.length ≤ 4096
  | .queueDestroy h p => h.wf && p.length ≤ 4096
  | .segmentWrite h p => h.wf && p.length ≤ 4096
  | .segmentCheck h p => h.wf && p.length ≤ 4096
  | .kvPoolSet h p => h.wf && p.length ≤ 4096
  | .sessionAlloc h p => h.wf && p.length ≤ 4096
  | .sessionFree h p => h.wf && p.length ≤ 4096
  | .sessionInfo h p => h.wf && p.length ≤ 4096
  | .recipeLoad h p => h.wf && p.length ≤ 4096
  | .wheelLoad h p => h.wf && p.length ≤ 4096
  | .wheelPeriod h p => h.wf && p.length ≤ 4096
  | .timeMasterSet h p => h.wf && p.length ≤ 4096
  | .rxqConfig h p => h.wf && p.length ≤ 4096
  | .routeQuery h p => h.wf && p.length ≤ 4096
  | .boardMap h p => h.wf && p.length ≤ 4096
  | .portEnable h p => h.wf && p.length ≤ 4096
  | .powerCap h p => h.wf && p.length ≤ 4096
  | .powerQuery h p => h.wf && p.length ≤ 4096
  | .powerMode h p => h.wf && p.length ≤ 4096
  | .statsConfig h p => h.wf && p.length ≤ 4096
  | .histogramConfig h p => h.wf && p.length ≤ 4096
  | .traceConfig h p => h.wf && p.length ≤ 4096
  | .counterRead h p => h.wf && p.length ≤ 4096
  | .watchSet h p => h.wf && p.length ≤ 4096
  | .watchClear h p => h.wf && p.length ≤ 4096
  | .debugNonce h p => h.wf && p.length ≤ 4096
  | .debugUnlock h p => h.wf && p.length ≤ 4096
  | .debugRelock h p => h.wf && p.length ≤ 4096
  | .perturbSet h p => h.wf && p.length ≤ 4096
  | .fwQuery h p => h.wf && p.length ≤ 4096
  | .fwUpdate h p => h.wf && p.length ≤ 4096
  | .identityGet h p => h.wf && p.length ≤ 4096
  | .moduleReset h p => h.wf && p.length ≤ 4096
  | .powerCycle h p => h.wf && p.length ≤ 4096
  | .errSummaryRead h p => h.wf && p.length ≤ 4096
  | .mgmtRingEnable fn _ => fn ≤ 8
  | .mgmtTail fn _ => fn ≤ 8
  | .errqPtrHead _ => true
  | .hoopErrqEnable fn hoop _ => fn ≤ 8 && hoop < 8
  | .hoopErrqPtrHead fn hoop _ => fn ≤ 8 && hoop < 8
  | .hoopWatchStopped fn hoop => fn ≤ 8 && hoop < 8
  | .hoopTracePtrHead fn hoop _ => fn ≤ 8 && hoop < 8
  | .cxlRetrain port => port < 8
  | .hdmCommit decoder => decoder < 8
  | .hdmUncommit decoder => decoder < 8
  | .recoveryResult _ => true
  | .apertureRead fn offset n => fn ≤ 8 && offset < 2 ^ 52 && 1 ≤ n && n ≤ 4096
  | .apertureWrite fn offset data => fn ≤ 8 && offset < 2 ^ 52 && 1 ≤ data.length && data.length ≤ 4096
  | .apertureAtomicop fn offset op _ _ _ => fn ≤ 8 && offset < 2 ^ 52 && op ≤ 2
  | .vfFlr vf => 1 ≤ vf && vf ≤ 8
  | .vfDisable vf => 1 ≤ vf && vf ≤ 8
  | .busMasterEnable fn _ => fn ≤ 8
  | .msixUnmask fn vector => fn ≤ 8 && vector < 256
  | .rdShared agent line hoop => agent < 5 && line < 2 ^ 37 && hoop < 8
  | .rdOwn agent line hoop => agent < 5 && line < 2 ^ 37 && hoop < 8
  | .invOwn agent line hoop => agent < 5 && line < 2 ^ 37 && hoop < 8
  | .wrLine agent line req => agent < 5 && line < 2 ^ 37 && req.hoop < 8 && req.off == 0 && req.data.length == 128
  | .wb agent line => agent < 5 && line < 2 ^ 37
  | .rdCur agent line hoop => agent < 5 && line < 2 ^ 37 && hoop < 8
  | .wrCur agent line req => agent < 5 && line < 2 ^ 37 && req.hoop < 8 && 1 ≤ req.data.length && req.off + req.data.length ≤ 128
  | .atomic agent line req => agent < 5 && line < 2 ^ 37 && req.hoop < 8 && req.off < 128 && req.op.aop ≤ 10
  | .snpShared agent line => agent < 5 && line < 2 ^ 37
  | .snpInv agent line => agent < 5 && line < 2 ^ 37
  | .snpCur agent line => agent < 5 && line < 2 ^ 37
  | .rspI agent line => agent < 5 && line < 2 ^ 37
  | .rspS agent line => agent < 5 && line < 2 ^ 37
  | .rspFwd agent line => agent < 5 && line < 2 ^ 37
  | .rspDirty agent line => agent < 5 && line < 2 ^ 37
  | .cmp agent line => agent < 5 && line < 2 ^ 37
  | .snoopTimeout reporter suspect line => reporter < 5 && suspect < 5 && line < 2 ^ 37
  | .completionTimeout reporter suspect line => reporter < 5 && suspect < 5 && line < 2 ^ 37
  | .flitReceive port f => port < 8 && f.bytes.length == 256
  | .abortFlit port f => port < 8 && f.bytes.length == 256
  | .packetForward port cls k => port ≤ 8 && cls < 4 && k.wf
  | .rdReq port k => port ≤ 8 && k.wf
  | .rdRsp port k => port ≤ 8 && k.wf
  | .wr port k => port ≤ 8 && k.wf
  | .wrAck port k => port ≤ 8 && k.wf
  | .atomPacket port k => port ≤ 8 && k.wf
  | .atomRsp port k => port ≤ 8 && k.wf
  | .refuse port k => port ≤ 8 && k.wf
  | .remoteTimeout tag => tag < 2 ^ 64
  | .msg port k => port ≤ 8 && k.wf
  | .msgAck port k => port ≤ 8 && k.wf
  | .msgResend tag => tag < 2 ^ 64
  | .tick port k => port ≤ 8 && k.wf
  | .tickIn lowNs => lowNs < 2 ^ 64
  | .delayExchange port => port < 8
  | .delayReq port k => port ≤ 8 && k.wf
  | .delayRsp port k => port ≤ 8 && k.wf
  | .time port k => port ≤ 8 && k.wf
  | .boardUp port k => port ≤ 8 && k.wf
  | .portReport port k => port ≤ 8 && k.wf
  | .statsSummary port k => port ≤ 8 && k.wf
  | .linkState port k => port ≤ 8 && k.wf
  | .portTrained port => port < 8
  | .trainTimeout port => port < 8
  | .identifyDone port partner => port < 8 && partner.wf
  | .portFailed port condition => port < 8 && 1 ≤ condition && condition < 256
  | .cxlLinkDown link => link < 4
  | .cxlLinkTrain link width speed capGib => link < 4 && width < 64 && speed < 16 && capGib < 65536
  | .powerOn _ => true
  | .perstNDeassert _ => true
  | .startup fault => bootWf fault
  | .thermalSample readings => readings.length == 168
  | .powerDecision activity => activity.all (· < 2 ^ 64)
  | .powerMeasurement watts activity => watts < 65536 && activity.all (fun a => a.all (· < 2 ^ 64))
  | .droop rail => rail < 5
  | .pcieReadCompletion tag _ data => tag < 2 ^ 64 && data.length ≤ 4096
  | .pcieCompletionTimeout tag => tag < 2 ^ 64
  | .mapperRun => true
  | .wheelTick => true
  | .substituteTick => true
  | .missedTick => true
  | .subslotBoundary => true
  | .wheyDescriptorStart => true
  | .debugLifetimeExpiry => true
  | .fwProgramDone => true
  | .recoveryGo => true
  | .recoveryReset => true
  | .pfFlr => true
  | .pcieLinkDown => true
  | .managerTick => true
  | .tickSend => true
  | .timeMasterLost => true
  | .managerLost => true
  | .routeInstall => true
  | .perstNAssert => true
  | .rollbackRaise => true
  | .brownOut => true
  | .coolantLoss => true
  | .throttleStep => true
  | .warmupEnd => true
  | .opStep => true
  | .ageingCounter => true
  | .alertResponse => true
  | .getEndpointId => true
  | .getMessageTypeSupport => true
  | .getVersion => true
  | .getCapabilities => true
  | .negotiateAlgorithms => true
  | .getDigests => true
  | .flowOkRise => true
  | .pwrCycleReqRelease => true
  | .pcieLinkUp => true
  | .portRetrain port => port < 8
  | .cxlReadTimeout address => address < 2 ^ 64
  | .cxlEvent link _ header => link < 4 && header.length == 16
  | .setEndpointId _ => true
  | .getMctpVersionSupport _ => true
  | .getCertificate slot offset length => slot < 8 && offset < 65536 && length < 65536
  | .challenge slot nonce => slot < 8 && nonce.length == 32
  | .getMeasurements index _ nonce => index < 256 && nonce.length == 32
  | .spdmUnsupportedRequest _ => true
  | .droopEnd rail => rail < 5
  | .klozarTrainRetry port => port < 8

end Sys2Proof
end

