-- ==== Sys2Proof/Safety.lean ====
section
/-! DEFINITION. What counts as a safe run of the module, and the words the statements use: when an instruction, an entry, a management
command or a packet executes, and what it then leaves. -/

namespace Sys2Proof.Machine

/-! Runs -/

/-- What holds of the fuses of every part: the counters lie in their fuse ranges (R468, R477). -/
def NonVol.Ok (n : NonVol) : Prop := n.fuses.rollback ≤ 128 ∧ n.fuses.hours ≤ 512 ∧ n.fuses.revoked < 16

/-- The order of what can never be undone (R468, R478): fuses only ever gain blown bits. -/
def NonVol.Le (a b : NonVol) : Prop :=
  a.fuses.rollback ≤ b.fuses.rollback ∧ a.fuses.hours ≤ b.fuses.hours ∧ a.fuses.revoked &&& b.fuses.revoked = a.fuses.revoked

/-- What holds of device memory: it has its canonical form, and while the module runs no event has left its contents undefined (R249, R472). -/
def State.MemOk (s : State) : Prop := s.dev.mem.wf = true ∧ (s.dev.live = true → s.dev.mem.lost = none)

/-- A state that has met no module fatal event (R248), trip or brown-out: the module still runs. -/
def State.Sound (s : State) : Prop := s.dev.life.fatal = false ∧ s.dev.life.powered = true ∧ s.dev.life.stopped = false

/-- A safe run of `n` steps: no step faults or is refused, and every state on it is sound. -/
def SafeRun : Nat → State → Prop
  | 0, s => s.Sound
  | n + 1, s => s.Sound ∧ ∃ u, step s = .next u ∧ SafeRun n u

/-- The command answers the next state that keeps the queue and what survives everything, with this device. -/
def Gives (c : Instr) (s : State) (d : Device) : Prop := exec c s = .next { s with dev := d }

/-! Ixfen instructions -/

/-- What an instruction finds when nothing keeps it from its effect: its encoding holds, its registers exist, no load that it must follow is open,
and the core's registers are readable (R113, R140 to R146, R158). -/
def IC.unhindered (i : IC) (d : Device) (sp : OpSpec) : Bool :=
  sp.encoded i.w && (sp.outOfRange i.w i.k.regs).isNone && !i.pending sp && (d.core i.core).badReg.isEmpty && (d.core i.core).softReg.isEmpty

/-- The context of an instruction that executes, and the device after its fetch: the module runs, the entry can issue, device memory holds the
instruction at the entry's pc (R140), and nothing keeps it from its effect. None where it faults at one of these, waits or does not issue. -/
def Device.executes (d : Device) (e : Ent) (op : Nat) (w : IWord) (sp : OpSpec) : Option (IC × Device) :=
  if !d.live then none
  else match d.context e.core e.entry op w with
    | none => none
    | some i =>
      match d.fetchCode i.core i.entry i.x i.k with
      | (d', .got y) => if y.1 = op ∧ y.2 = w ∧ i.x.code = [] ∧ i.unhindered d' sp = true then some (i, d') else none
      | _ => none

/-- An instruction that raises a fault raises it at once, since every earlier load, atomic and update of its lanes has completed (R134). -/
def IC.alone (i : IC) (d : Device) : Bool := !i.open_ d

/-- The instruction leaves this device and its entry goes on at the next word (R113, R140). -/
def IC.Completes (i : IC) (c : Instr) (s : State) (d : Device) : Prop := Gives c s (d.goTo_ i.core i.entry (i.x.pc + iwSize i.w))

/-- A block's copy in which each lane whose guard is true has `f` in its destination of `n` registers (none under D = rz), every other vector
register holds what it held, and nothing but registers and generators differs (R142, R144, R146). -/
def IC.LaneWrites (i : IC) (n : Nat) (f : Nat → Nat) (b : Block) : Prop :=
  (i.w.dz = false → ∀ l ∈ i.lanes, b.vregs (i.thread l) i.w.d.toNat n = f l % 2 ^ (32 * n))
  ∧ (∀ t r, r < 256 → (i.w.dz = true ∨ r < i.w.d.toNat ∨ i.w.d.toNat + n ≤ r ∨ ∀ l ∈ i.lanes, t ≠ i.thread l) →
      b.vreg t r = i.b.vreg t r)
  ∧ { b with v := i.b.v, gens := i.b.gens } = i.b

/-- The instruction completes, and all it does beyond its fetch is to write `f` in the destination of each lane whose guard is true. -/
def IC.LaneResult (i : IC) (c : Instr) (s : State) (d : Device) (n : Nat) (f : Nat → Nat) : Prop :=
  ∃ b, i.Completes c s (i.put d b) ∧ i.LaneWrites n f b ∧ b.gens = i.b.gens

/-- The draw that a lane's rounding uses: of its thread's generator under stochastic rounding, else none (R149, R205). -/
def IC.laneDraw (i : IC) (rnd l : Nat) : Nat := if rnd = 4 then draw (Tab.get 1 i.b.gens (i.thread l)) else 0

/-- The same with sticky flags (R207) and, under stochastic rounding, one draw of each such lane's generator (R149, R205). -/
def IC.RoundedResult (i : IC) (c : Instr) (s : State) (d : Device) (n rnd : Nat) (f : Nat → Nat → Nat × Nat) : Prop :=
  ∃ b, i.Completes c s ((i.put d b).numFlags i.hoop 0 (i.lanes.foldl (fun m l => m ||| (f l (i.laneDraw rnd l)).2) 0))
    ∧ i.LaneWrites n (fun l => (f l (i.laneDraw rnd l)).1) b
    ∧ ∀ l, Tab.get 1 b.gens (i.thread l) = if rnd = 4 ∧ l ∈ i.lanes then i.laneDraw 4 l else Tab.get 1 i.b.gens (i.thread l)

/-- The instruction completes, and all it does beyond its fetch is to write `val` in its predicate destination in the lanes of a mask; a write
of pt is discarded (R142, R144). -/
def IC.PredResult (i : IC) (c : Instr) (s : State) (d : Device) (mask val : Nat) : Prop :=
  ∃ b, i.Completes c s (i.put d b) ∧ { b with p := i.b.p } = i.b
    ∧ (i.w.d.toNat ≠ 0 → ∀ l, (b.pred i.x.group i.w.d.toNat).testBit l =
        if mask.testBit l then val.testBit l else (i.b.pred i.x.group i.w.d.toNat).testBit l)
    ∧ (∀ g n, n < 8 → (g ≠ i.x.group ∨ n ≠ i.w.d.toNat ∨ n = 0) → b.pred g n = i.b.pred g n)

/-- The instruction completes, and all it does beyond its fetch is to write `v` in its uniform destination of `n` registers (R145, R147). -/
def IC.UniformResult (i : IC) (c : Instr) (s : State) (d : Device) (n v : Nat) : Prop :=
  ∃ b, i.Completes c s (i.put d b) ∧ { b with u := i.b.u } = i.b
    ∧ (i.w.dz = false → b.uregs i.x.group i.w.d.toNat n = v % 2 ^ (32 * n))
    ∧ (∀ g r, r < 64 → (i.w.dz = true ∨ g ≠ i.x.group ∨ r < i.w.d.toNat ∨ i.w.d.toNat + n ≤ r) → b.ureg g r = i.b.ureg g r)

/-- The lanes whose guard is true, with their addresses (R156). -/
def IC.targets (i : IC) (r n : Nat) (scaled : Bool) : List (Nat × Nat) := i.lanes.map (fun l => (l, i.address r l n scaled))

/-- The device where checks let an instruction go on at once: none where they fault, wait or retry. -/
def Eff.passed : Eff → Option Device
  | .go d => some d
  | _ => none

/-- The device after a release that waits for nothing more (R254, R329). -/
def IC.released (i : IC) (d : Device) : Option Device := (i.release d .go).passed

/-- The watchpoints that lanes' accesses hit, in an instruction that issues for the first time (R443). -/
def IC.hits (i : IC) (kind n : Nat) (d : Device) (l : List LaneAcc) : List (Nat × Nat) :=
  if i.isResumed then [] else d.watchMatch i.hoop 0 kind (l.map (fun x => (x.va, n)))

/-- The accesses of translated lanes that no fault, open access or STOP watchpoint keeps from acting, and the device after these checks (R151, R156, R445). -/
def IC.reached (i : IC) (kind n : Nat) (r : Device × List LaneAcc × List (Nat × FaultArgs)) : Option (Device × List LaneAcc) :=
  if (firstFault r.2.2).isNone && !i.collides r.1 (r.2.1.map (fun x => (x.lane, x.va, n, kind != 0)))
      && (r.1.watchStop i.hoop (i.hits kind n r.1 r.2.1)).isNone then some (r.1, r.2.1) else none

/-- A device with the hits recorded that accesses checked in another device have made (R444); without hits it is the device itself. -/
def IC.noted (i : IC) (kind n : Nat) (d1 : Device) (l : List LaneAcc) (d : Device) : Device :=
  if i.hits kind n d1 l = [] then d else d.watchNote i.hoop kind (d.groupWaiter i.core i.x) (i.hits kind n d1 l)

/-- The same for a global access: aligned, translated with these permissions (R156, R260 to R263). -/
def IC.reach (i : IC) (d : Device) (kind n : Nat) (need : List Nat) (scaled : Bool) : Option (Device × List LaneAcc) :=
  if (misaligned (i.targets 2 n scaled) n).isEmpty then i.reached kind n (i.translate d n need (i.targets 2 n scaled)) else none

/-- The bytes that a list of lane reads holds for a lane. -/
def laneBytes (l : List (Nat × Bytes)) (lane : Nat) : Bytes := ((l.find? (fun y => y.1 == lane)).map (·.2)).getD []

/-- The lanes of accesses in device memory, with their device addresses. -/
def devLanes (l : List LaneAcc) : List (Nat × Nat) := l.filterMap (fun x => x.dev.map (fun a => (x.lane, a)))

/-- The last of (lane, address) whose `n` bytes hold a byte: the highest lane where lanes come in order (R157). -/
def lastCover (l : List (Nat × Nat)) (n a : Nat) : Option (Nat × Nat) := (l.filter (fun x => x.2 ≤ a && a < x.2 + n)).getLast?

/-- Whether device memory holds a byte: it lies in HBM3E, or in the CXL tier with its line mapped (R266). -/
def Device.holds (d : Device) (a : Nat) : Prop := ∀ b, b / 128 = a / 128 → isCxl b = true → (d.cxlRoute b).isSome = true

/-- The coherent domain rests: no request is open or waits at a home, and no failed one awaits its record (R239, R243, R401). -/
def Device.rests (d : Device) : Prop := d.coh.opened = [] ∧ d.coh.waiting = [] ∧ d.coh.failed = [] ∧ d.coh.lost = []

/-- Lanes store `n` bytes each in device memory: where lanes meet the highest stands, and every byte that no lane covers reads as before, unless a
fatal event took memory (R157, R249). The domain has no other request to perform, and the link of a lane in the CXL tier is there. -/
def Stored (d d2 : Device) (l : List (Nat × Nat)) (n : Nat) (v : Nat → Bytes) : Prop :=
  d.rests → (∀ y ∈ l, ∀ j < n, d.holds (y.2 + j)) → d2.life.fatal = false → ∀ a, d2.mem.get a = match lastCover l n a with
    | none => d.mem.get a
    | some y => (v y.1).getD (a - y.2) 0

/-- Every 32-byte unit of the lines that lanes access can be read (R234, R266). -/
def Device.readable (d : Device) (l : List (Nat × Nat)) : Prop := ∀ y ∈ l, d.badAt (y.2 / 128 * 128) 128 = false

/-- What the atomics of (lane, address) of `n` bytes make of bytes, one after the other, and each lane's bytes before its own (R159). -/
def atomicSeq (new : Nat → Nat → Nat) (n : Nat) : List (Nat × Nat) → (Nat → Byte) → (Nat → Byte) × List (Nat × Bytes)
  | [], m => (m, [])
  | (lane, a) :: t, m =>
    let old := (List.range n).map (fun j => m (a + j))
    let r := atomicSeq new n t (fun x => if a ≤ x ∧ x < a + n then (le n (new lane (ofLe old))).getD (x - a) 0 else m x)
    (r.1, (lane, old) :: r.2)

/-- The remote accesses of lanes at their source that no check stops (Table 10-8, R151, R352), and the device after the mark of R373. -/
def IC.far (i : IC) (d : Device) (n : Nat) (scaled writes : Bool) : Option (Device × List (Nat × Nat)) :=
  (i.remote d n scaled writes (fun d _ => .go d)).passed.map (fun d => (d, i.targets 2 n scaled))

/-- A structure of `n` bytes that an instruction reads, and the device after the read (R263, R267): in device memory, or in the host tier where its
bytes have come. -/
def IC.structBytes (i : IC) (d : Device) (lane va n : Nat) : Option (Device × Bytes) :=
  let r := i.translate d n [3] [(lane, va)]
  match firstFault r.2.2, r.2.1 with
  | none, x :: _ =>
    (match (i.withHost r.1 [x] (fun d x a =>
        d.openRead { kind := 0, a := i.core, b := i.entry, c := x.lane, fn := d.ownerFn i.hoop, addr := a } n) .go).passed with
     | none => none
     | some d =>
       match x.loc with
       | .host a => (i.came x.lane a n).map (fun b => (d, b))
       | .dev _ =>
         let s := d.seg i.hoop x.slot
         let d := (linePieces (va % 2 ^ 44) n).foldl (fun d (p : Nat × Nat) => match s.place p.1 with
           | .dev a => d.cohRead i.die i.hoop a p.2 true
           | .host _ => d) d
         (d.readSeg s (va % 2 ^ 44) n).map (fun b => (d, b)))
  | _, _ => none

/-! Management commands -/

/-- A management command is carried out: it can be accepted, it passes the checks of R408 and its parameters were read; the device then. -/
def Device.carries (d : Device) (sp : MSpec) (h : MHdr) (p : Bytes) : Option Device :=
  if d.mgmtReady sp h && ((d.mgmtAccept h).mgmtCheck sp h p).isNone && !(h.unread && h.ring < 9 && p.length > 0) then some (d.mgmtAccept h)
  else none

/-- The command leaves this device and replies OK with RESULT and reply data (R406). -/
def Answers (c : Instr) (s : State) (h : MHdr) (op : Nat) (d : Device) (result : Nat := 0) (data : Bytes := []) : Prop :=
  Gives c s (d.reply h op 0 0 result data)

/-- The command is refused: it leaves this device, and replies with a status and DETAIL (R408). -/
def Refuses (c : Instr) (s : State) (h : MHdr) (op : Nat) (d : Device) (status : Nat) (detail : Nat := 0) : Prop :=
  Gives c s (d.reply h op status detail 0 [])

/-- The management commands whose effect precedes their reply, each with its row of Table 16-4. -/
def mgmtRows (d : Device) (h : MHdr) (p : Bytes) : List (Instr × MSpec) :=
  [(.mgmtNop h p, { op := 0x00, hoopScope := true, sb := true, names := true, read := true, afterFatal := true }),
   (.hoopCreate h p, { op := 0x01, names := true, len := (· == 64), create := true }),
   (.hoopResize h p, { op := 0x02, names := true, len := (· == 64) }),
   (.hoopDestroy h p, { op := 0x03, names := true }),
   (.hoopQuery h p, { op := 0x04, hoopScope := true, names := true, reply := 256, read := true }),
   (.queueCreate h p, { op := 0x10, hoopScope := true, names := true, len := (· == 24) }),
   (.queueReset h p, { op := 0x11, hoopScope := true, names := true, len := (· == 24) }),
   (.queueAbort h p, { op := 0x12, hoopScope := true, names := true, len := fun n => 6 ≤ n && n ≤ 4092, hold := false }),
   (.queueDestroy h p, { op := 0x13, hoopScope := true, names := true, len := (· == 2) }),
   (.segmentWrite h p, { op := 0x18, hoopScope := true, names := true, len := fun n => n == 40 || n == 72 || n == 520 }),
   (.segmentCheck h p, { op := 0x19, hoopScope := true, names := true, reply := 48, read := true })]
  ++ [(.kvPoolSet h p, { op := 0x1A, hoopScope := true, names := true, len := (· == 12) }),
   (.sessionAlloc h p, { op := 0x20, hoopScope := true, names := true, len := (· == 24) }),
   (.sessionFree h p, { op := 0x21, hoopScope := true, names := true, len := (· == 4) }),
   (.sessionInfo h p, { op := 0x22, hoopScope := true, names := true, len := (· == 4), reply := 64, read := true }),
   (.recipeLoad h p, { op := 0x28, hoopScope := true, names := true, len := (· == 16) }),
   (.rxqConfig h p, { op := 0x38, hoopScope := true, names := true, len := (· == 24) }),
   (.routeQuery h p, { op := 0x39, hoopScope := true, names := true, reply := d.rd Reg.HOOP_REMOTE_SLICE_CHIPS h.hoop, read := true }),
   (.wheelLoad h p, { op := 0x30, len := fun n => 328 ≤ n && n ≤ 81928 }),
   (.wheelPeriod h p, { op := 0x31, len := (· == 4) }),
   (.timeMasterSet h p, { op := 0x32, len := (· == 1) }),
   (.boardMap h p, { op := 0x3A, sb := true, reply := 64 }),
   (.portEnable h p, { op := 0x3B, len := (· == 1) })]
  ++ [(.powerCap h p, { op := 0x40, sb := true, len := (· == 4) }),
   (.powerQuery h p, { op := 0x41, sb := true, reply := 64 }),
   (.powerMode h p, { op := 0x42, len := (· == 2) }),
   (.statsConfig h p, { op := 0x48, hoopScope := true, names := true, len := (· == 16), reply := if fieldLe p 1 1 = 1 then 4096 else 0 }),
   (.histogramConfig h p, { op := 0x49, hoopScope := true, names := !(h.ring == 0 && 8 ≤ fieldLe p 0 1 && fieldLe p 0 1 ≤ 14), len := (· == 3) }),
   (.traceConfig h p, { op := 0x4A, hoopScope := true, names := true, len := (· == 24) }),
   (.counterRead h p, { op := 0x4B, sb := true, len := (· == 1), reply := match fieldLe p 0 1 with | 0 => 4096 | 1 => 2048 | _ => 0 }),
   (.watchSet h p, { op := 0x50, hoopScope := true, names := true, len := (· == 24) }),
   (.watchClear h p, { op := 0x51, hoopScope := true, names := true, len := (· == 2) }),
   (.perturbSet h p, { op := 0x59, len := (· == 8) })]
  ++ [(.fwQuery h p, { op := 0x60, sb := true, afterFatal := true, starter := true, reply := 80 }),
   (.identityGet h p, { op := 0x68, sb := true, afterFatal := true, starter := true, reply := 288 }),
   (.errSummaryRead h p, { op := 0x79, sb := true, afterFatal := true, starter := true, reply := 72 })]
  ++ (match fieldLe p 0 1 with
    | 0 => [(.debugNonce h p, { op := 0x58, len := fun n => n == 1, reply := 32 })]
    | 1 => [(.debugUnlock h p, { op := 0x58, len := fun n => n == 272 })]
    | 2 => [(.debugRelock h p, { op := 0x58, len := fun n => n == 1 })]
    | _ => [])

/-- The command leaves this device and its reply waits (R407): the module notes what it waits for, and a ring shows that it is busy. -/
def WaitsFor (c : Instr) (s : State) (h : MHdr) (op : Nat) (d : Device) (kind a b : Nat) (data : Bytes) : Prop :=
  Gives c s
    (let d := d.setBoot { d.boot with waits := d.boot.waits ++ [⟨h, op, kind, a, b, data⟩] }
     if h.ring < 9 then (d.wr Reg.MGMT_STATUS_BUSY h.ring 1).wr Reg.MGMT_STATUS_OPCODE h.ring op else d)

/-- A packet of this type comes to this chip on a port that is UP and passes R351, while the module runs. -/
def Device.receives (d : Device) (p ptype : Nat) (k : Pkt) : Prop :=
  d.live = true ∧ k.ptype = ptype ∧ k.dst = d.ownChip ∧ p < 8 ∧ d.portUp p = true ∧ pktOk k = true

end Sys2Proof.Machine
end

