-- ==== Sys2Proof/Certificates/Slice0/Obligations.lean ====
section
/-! DEFINITION. The statements about the model: whole-machine rules, then, family by family, where each command completes and what it leaves. -/

open Sys2Proof
open Sys2Proof.Machine

/-! The machine -/

/-- A step takes the command at the front of the queue and is the command's effect on the state with the rest of the queue. -/
def Obligations.StepRunsFrontCommand : Prop :=
  ∀ (c : Instr) (rest : List Instr) (s : State), step { s with pending := c :: rest } = exec c { s with pending := rest }

/-- No command is refused, and only a register write of 1 to a reserved bit (R11) faults: every other command, in every state, answers a next state.
-/
def Obligations.OnlyReservedBitsStop : Prop :=
  ∀ (c : Instr) (s : State),
    (∀ r, exec c s ≠ .refused r) ∧
    (∀ f, exec c s = .fault f → f = .reservedBitWritten ∧
      ((∃ fn bar o width value, c = .registerWrite fn (.bar bar o) width value) ∨ (∃ fn w, c = .mgmtRingEnable fn w)
        ∨ (∃ fn v, c = .mgmtTail fn v) ∨ (∃ v, c = .errqPtrHead v) ∨ (∃ fn h w, c = .hoopErrqEnable fn h w)
        ∨ (∃ fn h v, c = .hoopErrqPtrHead fn h v) ∨ (∃ fn h v, c = .hoopTracePtrHead fn h v)
        ∨ (∃ fn h v, c = .hoopRelqPtrHead fn h v)))

/-- No command changes the queue of waiting commands: a step takes its front and nothing else. -/
def Obligations.QueueKept : Prop := ∀ (c : Instr) (s t : State), exec c s = .next t → t.pending = s.pending

/-- The fuses: every step keeps their counters in range, and no step takes a blown bit back: the rollback counter, the revocation bits and the
ageing counter only rise. -/
def Obligations.FusesOnlyRise : Prop := ∀ (s t : State), s.nv.Ok → step s = .next t → t.nv.Ok ∧ s.nv.Le t.nv

/-- Device memory: every step keeps its canonical form, and while the module runs its unlisted bytes read 0 (R249, R472). -/
def Obligations.MemoryKept : Prop := ∀ (s t : State), s.MemOk → step s = .next t → t.MemOk

/-- What survives everything changes under nine commands only: the flash under FW_UPDATE (and the end of a PCIe read, with which an FW_UPDATE that waited
takes its turn), FW_PROGRAM_DONE and the recovery load (a register write
of RECOVERY_CTRL, RECOVERY_GO, RECOVERY_RESULT), the fuses under ROLLBACK_RAISE and AGEING_COUNTER; the identity OTP under none. -/
def Obligations.FlashAndFusesFrame : Prop :=
  ∀ (c : Instr) (s t : State), exec c s = .next t →
    (t.nv.fuses = s.nv.fuses ∨ c = .rollbackRaise ∨ c = .ageingCounter) ∧
    t.nv.otp = s.nv.otp ∧
    (t.nv.flash = s.nv.flash ∨ (∃ h p, c = .fwUpdate h p) ∨ (∃ tag st b, c = .pcieReadCompletion tag st b) ∨ (∃ tag, c = .pcieCompletionTimeout tag) ∨ c = .fwProgramDone ∨ c = .recoveryGo ∨ (∃ b, c = .recoveryResult b)
      ∨ ∃ fn tgt w v, c = .registerWrite fn tgt w v)

/-- Right after reset: the queue is empty, the input is off, memory lists nothing and is in its canonical form, the fuse counters are in range, and
a register field reads as its reset value (R12; the values that the manual does not give are log entry 1's). -/
def Obligations.ResetState : Prop :=
  State.reset.pending = [] ∧ State.reset.dev.life.powered = false ∧ State.reset.dev.mem.cells = [] ∧ State.reset.MemOk ∧
  State.reset.nv.Ok ∧
  ∀ (f : Fld) (i : Nat), State.reset.dev.rd f i = f.rst i

/-! Ixfen arithmetic -/

/-- IADD, ISUB, IMUL, IMULHI and IMAD: each lane whose guard is true receives the sum, difference, product, upper half of the product (signed, or
unsigned under UNS) or product plus c of its operands, modulo the size of the type; nothing else changes. -/
def Obligations.IntegerArithmetic : Prop :=
  ∀ (e : Ent) (w : IWord) (s : State) (i : IC) (d : Device),
    let n := typeRegs (typeOf w)
    let num := fun (v : Nat) => if w.mod.toNat.testBit 8 then (v : Int) else signed 32 v
    (s.dev.executes e 0x08 w (intSpec w [10, 11]) = some (i, d) →
      i.LaneResult (.iadd e w) s d n (fun l => i.a n l + i.b_ n l)) ∧
    (s.dev.executes e 0x09 w (intSpec w [10, 11]) = some (i, d) →
      i.LaneResult (.isub e w) s d n (fun l => i.a n l + 2 ^ (32 * n) - i.b_ n l)) ∧
    (s.dev.executes e 0x0A w (intSpec w [10]) = some (i, d) → i.LaneResult (.imul e w) s d n (fun l => i.a n l * i.b_ n l)) ∧
    (s.dev.executes e 0x0B w (intSpec w [10]) = some (i, d) →
      i.LaneResult (.imulhi e w) s d n (fun l => unsigned 64 (num (i.a n l) * num (i.b_ n l)) / 2 ^ 32)) ∧
    (s.dev.executes e 0x0C w (intSpec w [10] true) = some (i, d) →
      i.LaneResult (.imad e w) s d 1 (fun l => i.a 1 l * i.b_ 1 l + i.c 1 l))

/-- AND, OR, XOR, ANDN, SHL, SHR, POPC, CLZ and BREV: the bitwise results of each lane; a shift of 32 or more gives 0, under a signed SHR copies of
the sign; nothing else changes. -/
def Obligations.BitwiseAndShift : Prop :=
  ∀ (e : Ent) (w : IWord) (s : State) (i : IC) (d : Device),
    let uns := w.mod.toNat.testBit 8
    (s.dev.executes e 0x20 w (intSpec w [10]) = some (i, d) → i.LaneResult (.and e w) s d 1 (fun l => i.a 1 l &&& i.b_ 1 l)) ∧
    (s.dev.executes e 0x21 w (intSpec w [10]) = some (i, d) → i.LaneResult (.or e w) s d 1 (fun l => i.a 1 l ||| i.b_ 1 l)) ∧
    (s.dev.executes e 0x22 w (intSpec w [10]) = some (i, d) → i.LaneResult (.xor e w) s d 1 (fun l => i.a 1 l ^^^ i.b_ 1 l)) ∧
    (s.dev.executes e 0x23 w (intSpec w [10]) = some (i, d) →
      i.LaneResult (.andn e w) s d 1 (fun l => i.a 1 l - (i.a 1 l &&& i.b_ 1 l))) ∧
    (s.dev.executes e 0x24 w (intSpec w [10]) = some (i, d) →
      i.LaneResult (.shl e w) s d 1 (fun l => if i.b_ 1 l < 32 then i.a 1 l * 2 ^ i.b_ 1 l else 0)) ∧
    (s.dev.executes e 0x25 w (intSpec w [10]) = some (i, d) → i.LaneResult (.shr e w) s d 1 (fun l =>
      if uns then (if i.b_ 1 l < 32 then i.a 1 l / 2 ^ i.b_ 1 l else 0)
      else unsigned 32 (signed 32 (i.a 1 l) / 2 ^ Nat.min (i.b_ 1 l) 32))) ∧
    (s.dev.executes e 0x26 w (unSpec w [10] 0x10F) = some (i, d) → i.LaneResult (.popc e w) s d 1 (fun l => popcount 32 (i.a 1 l))) ∧
    (s.dev.executes e 0x27 w (unSpec w [10] 0x10F) = some (i, d) →
      i.LaneResult (.clz e w) s d 1 (fun l => if i.a 1 l = 0 then 32 else 31 - Nat.log2 (i.a 1 l))) ∧
    (s.dev.executes e 0x28 w (unSpec w [10] 0x10F) = some (i, d) → i.LaneResult (.brev e w) s d 1 (fun l => revBits 32 (i.a 1 l)))

/-- IMIN, IMAX, FMIN, FMAX, SEL, MOV, XLANE and RDSYS: the chosen operand of each lane, the lane that XLANE names, or the system value of the
selector; nothing else changes. -/
def Obligations.SelectAndMove : Prop :=
  ∀ (e : Ent) (w : IWord) (s : State) (i : IC) (d : Device),
    let n := typeRegs (typeOf w)
    let num := fun (v : Nat) => if w.mod.toNat.testBit 8 then (v : Int) else signed 32 v
    (s.dev.executes e 0x29 w (intSpec w [10]) = some (i, d) → i.LaneResult (.imin e w) s d n (fun l =>
      if num (i.b_ n l) < num (i.a n l) then i.b_ n l else i.a n l)) ∧
    (s.dev.executes e 0x2A w (intSpec w [10]) = some (i, d) → i.LaneResult (.imax e w) s d n (fun l =>
      if num (i.a n l) < num (i.b_ n l) then i.b_ n l else i.a n l)) ∧
    (s.dev.executes e 0x04 w (aluSpec w [0, 12] 0xF0F) = some (i, d) →
      i.LaneResult (.fmin e w) s d n (fun l => fminmax false i.fmt (i.fa l) (i.fb l))) ∧
    (s.dev.executes e 0x05 w (aluSpec w [0, 12] 0xF0F) = some (i, d) →
      i.LaneResult (.fmax e w) s d n (fun l => fminmax true i.fmt (i.fa l) (i.fb l))) ∧
    (s.dev.executes e 0x2B w (aluSpec w [10, 11] 0x10F .p) = some (i, d) → i.LaneResult (.sel e w) s d n (fun l =>
      if (i.b.pred i.x.group w.c.toNat).testBit l then i.a n l else i.b_ n l)) ∧
    (s.dev.executes e 0x2C w { unSpec w [10, 11] 0x10F with imm := .a } = some (i, d) → i.LaneResult (.mov e w) s d n (fun l =>
      if w.imm then w.immw.toNat else i.a n l)) ∧
    (s.dev.executes e 0x38 w (aluSpec w [10] 0x60F) = some (i, d) → i.LaneResult (.xlane e w) s d 1 (fun l => i.a 1 (i.xlaneFrom l))) ∧
    (s.dev.executes e 0x3A w { d := .v 1, ok := bits w.mod.toNat 4 0 < 20 && modIn w 0x1F } = some (i, d) →
      i.LaneResult (.rdsys e w) s d 1 (fun l => i.sysValue d l))

/-- FADD, FSUB, FMUL and FMA: each lane receives the exact result of its operands, with their magnitudes and signs taken as MOD says, rounded once;
the sticky VECTOR flags gather what the lanes signal. -/
def Obligations.FloatArithmetic : Prop :=
  ∀ (e : Ent) (w : IWord) (s : State) (i : IC) (d : Device),
    let n := typeRegs (typeOf w)
    let rnd := bits w.mod.toNat 6 4
    let put := fun (v : FVal × Nat) g => let r := i.fmt.deliver rnd false g v.1; (r.1, r.2 ||| v.2)
    let x := fun l => i.fmt.decode (i.fa l)
    let y := fun l => i.fmt.decode (i.fb l)
    (s.dev.executes e 0x00 w (fpSpec w false) = some (i, d) →
      i.RoundedResult (.fadd e w) s d n rnd (fun l g => put ((x l).add rnd (y l)) g)) ∧
    (s.dev.executes e 0x01 w (fpSpec w false) = some (i, d) →
      i.RoundedResult (.fsub e w) s d n rnd (fun l g => put ((x l).add rnd (y l).neg) g)) ∧
    (s.dev.executes e 0x02 w (fpSpec w false) = some (i, d) →
      i.RoundedResult (.fmul e w) s d n rnd (fun l g => put ((x l).mul (y l)) g)) ∧
    (s.dev.executes e 0x03 w (fpSpec w true) = some (i, d) →
      i.RoundedResult (.fma e w) s d n rnd (fun l g => put ((x l).fma rnd (y l) (i.fmt.decode (i.c n l))) g))

/-- RCP, RSQ, SQRT, EXP2, LOG2, SINPI, COSPI and TANH: each lane receives the special function of its operand (exact where R154 fixes it, else a
free value: log entry 10), and the VECTOR flags what it signals. -/
def Obligations.SpecialFunctions : Prop :=
  ∀ (e : Ent) (w : IWord) (s : State) (i : IC) (d : Device) (k : Nat),
    k < 8 → s.dev.executes e (0x50 + k) w { d := .v 1, a := .vu 1, ok := modIn w 0x500 } = some (i, d) →
    ∃ c, [Instr.rcp e w, .rsq e w, .sqrt e w, .exp2 e w, .log2 e w, .sinpi e w, .cospi e w, .tanh e w][k]? = some c ∧
      i.RoundedResult c s d 1 0 (fun l _ => sfu k (i.fa l))

/-- The special values of the special functions (R155, Table 5-10): the instructions deliver a function of their operand that has every value of the
table, the canonical NaN for a NaN, and for SINPI and COSPI the symmetries. The functions in order are RCP, RSQ, SQRT, EXP2, LOG2, SINPI, COSPI, TANH. -/
def Obligations.SpecialValues : Prop :=
  ∃ f : Nat → Nat → Nat × Nat,
    (∀ (e : Ent) (w : IWord) (s : State) (i : IC) (d : Device) (k : Nat),
      k < 8 → s.dev.executes e (0x50 + k) w { d := .v 1, a := .vu 1, ok := modIn w 0x500 } = some (i, d) →
      ∃ c, [Instr.rcp e w, .rsq e w, .sqrt e w, .exp2 e w, .log2 e w, .sinpi e w, .cospi e w, .tanh e w][k]? = some c ∧
        i.RoundedResult c s d 1 0 (fun l _ => f k (i.fa l))) ∧
    (let nan := 0x7FC00000
     let one := 0x3F800000
     let inf := 0x7F800000
     let neg := 0x80000000
     let row := fun (v : Nat) => (List.range 8).map (fun k => (f k v).1)
     row 0 = [inf, inf, 0, one, neg + inf, 0, one, 0] ∧
     row neg = [neg + inf, neg + inf, neg, one, neg + inf, neg, one, neg] ∧
     row inf = [0, 0, inf, inf, inf, nan, nan, one] ∧
     row (neg + inf) = [neg, nan, nan, 0, nan, nan, nan, neg + one] ∧
     (∀ v k, k < 8 → v < 2 ^ 32 → inf < v % neg → (f k v).1 = nan) ∧
     (∀ v k, neg < v → v < neg + inf → (k = 1 ∨ k = 2 ∨ k = 4) → (f k v).1 = nan) ∧
     (∀ v n : Nat, ∀ (minus : Bool) (m : Nat) (e : Int), fp32.decode v = .fin minus m e → n ≠ 0 →
       ((0 ≤ e ∧ n = m * 2 ^ e.toNat) ∨ (e < 0 ∧ m = n * 2 ^ (-e).toNat)) →
       (f 5 v).1 = (if minus = (n % 2 == 1) then 0 else neg) ∧
       (f 6 v).1 = (if n % 2 = 1 then neg + one else one) ∧
       (minus = false → n ≤ 127 → (f 3 v).1 = (n + 127) * 2 ^ 23) ∧
       (minus = true → n ≤ 126 → (f 3 v).1 = (127 - n) * 2 ^ 23) ∧
       (minus = true → 126 < n → n ≤ 149 → (f 3 v).1 = 2 ^ (149 - n))) ∧
     (∀ v, v < inf → (f 5 (v + neg)).1 = ((f 5 v).1 + neg) % 2 ^ 32) ∧
     (∀ v, v < neg → (f 6 (v + neg)).1 = (f 6 v).1))

/-- CVT and CVTS: element DPOS of each lane's destination receives the converted element, the rest of the destination stays. -/
def Obligations.Converts : Prop :=
  ∀ (e : Ent) (w : IWord) (s : State) (i : IC) (d : Device),
    let t := typeOf w
    let src := bits w.mod.toNat 11 8
    let c := w.c.toNat
    let rnd := bits w.mod.toNat 6 4
    let sat := w.mod.toNat.testBit 7
    (s.dev.executes e 0x30 w { d := .v (typeRegs t), a := .vu (typeRegs src), c := .num, rd := true,
                               ok := convertible src t && rndOf w ≤ 4 && c < 64 && c % 8 < positions src && c / 8 < positions t } = some (i, d) →
      i.RoundedResult (.cvt e w) s d (typeRegs t) rnd (fun l g =>
        let r := convert src t rnd sat g (elemIn src (c % 8) (i.a (typeRegs src) l))
        (putElem t (c / 8) (i.oldD (typeRegs t) l) r.1, r.2))) ∧
    (s.dev.executes e 0x31 w { d := .v 1, a := .vu 1, b := .vu 1, c := .num, imm := .b, rd := true,
                               ok := 3 ≤ t && t ≤ 7 && modIn w 0x0FF && rndOf w ≤ 4 && c < 64 && c % 8 == 0 && c / 8 < positions t } = some (i, d) →
      i.RoundedResult (.cvts e w) s d 1 rnd (fun l g =>
        let r := convertScaled t rnd sat g (i.a 1 l) (i.b_ 1 l)
        (putElem t (c / 8) (i.oldD 1 l) r.1, r.2)))

/-- SETP, LVOTE, USETP and PLOP complete and write their predicate in the lanes they name (SETP and PLOP those whose guard is true, USETP and a vote the
active lanes); a ballot writes the guard-true voters' mask in a register of every active lane; nothing else changes. -/
def Obligations.Predicates : Prop :=
  ∀ (e : Ent) (w : IWord) (s : State) (i : IC) (d : Device),
    let t := typeOf w
    let n := typeRegs t
    let isInt := t == 10 || t == 11
    let m := bits w.mod.toNat 1 0
    (s.dev.executes e 0x2D w { d := .p, a := .vu n, b := .vu n, c := .p, imm := .b,
                               ok := [0, 10, 11, 12].contains t && (if isInt then modIn w 0xF0F && bits w.mod.toNat 11 9 < 6 else modIn w 0x70F) } = some (i, d) →
      i.PredResult (.setp e w) s d i.guard (maskOf (i.lanes.filter (fun l =>
        if isInt then icmp (bits w.mod.toNat 11 9) (32 * n) (!w.mod.toNat.testBit 8) (i.a n l) (i.b_ n l)
        else fcmp (bits w.mod.toNat 10 8) (i.fmt.decode (i.a n l)) (i.fmt.decode (i.b_ n l))))
        &&& i.b.pred i.x.group w.c.toNat)) ∧
    (s.dev.executes e 0x39 w { d := (if m = 2 then .v 1 else .p), a := .p, ok := m < 3 && modIn w 3 } = some (i, d) →
      let yes := i.guard &&& i.b.pred i.x.group w.a.toNat
      (m = 2 → ∃ b, i.Completes (.lvote e w) s (i.put d b) ∧ { b with v := i.b.v } = i.b ∧
        (w.dz = false → ∀ l ∈ setBits 32 i.x.mask, b.vreg (i.thread l) w.d.toNat = yes % 2 ^ 32) ∧
        (∀ t r, r < 256 → (w.dz = true ∨ r ≠ w.d.toNat ∨ ∀ l ∈ setBits 32 i.x.mask, t ≠ i.thread l) → b.vreg t r = i.b.vreg t r)) ∧
      (m < 2 → i.PredResult (.lvote e w) s d i.x.mask
        (if (if m = 0 then yes == i.guard else yes != 0) then 2 ^ 32 - 1 else 0))) ∧
    (s.dev.executes e 0x8E w { uniSpec w [10, 11] 0xE0F (decide (bits w.mod.toNat 11 9 < 6)) with d := .p, imm := .no } = some (i, d) →
      i.PredResult (.usetp e w) s d i.x.mask (if icmp (bits w.mod.toNat 11 9) (32 * n) true (i.a n 0) (i.b_ n 0) then 2 ^ 32 - 1 else 0)) ∧
    (s.dev.executes e 0x90 w { d := .p, a := .p, b := .p, ok := modIn w 0x300 } = some (i, d) →
      i.PredResult (.plop e w) s d i.guard
        (logic (bits w.mod.toNat 9 8) (i.b.pred i.x.group w.a.toNat) (i.b.pred i.x.group w.b.toNat)))

/-- UMOV, UADD, USUB, UMUL, ULOP, USHF and V2U: the uniform destination of the group receives the result once. -/
def Obligations.UniformArithmetic : Prop :=
  ∀ (e : Ent) (w : IWord) (s : State) (i : IC) (d : Device),
    let n := typeRegs (typeOf w)
    let sel := bits w.mod.toNat 9 8
    let a := i.a n 0
    let b := i.b_ n 0
    (s.dev.executes e 0x88 w { uniSpec w [10, 11] 0x00F with b := .none, imm := .a } = some (i, d) →
      i.UniformResult (.umov e w) s d n (if w.imm then w.immw.toNat else a)) ∧
    (s.dev.executes e 0x89 w (uniSpec w [10, 11] 0x00F) = some (i, d) → i.UniformResult (.uadd e w) s d n (a + b)) ∧
    (s.dev.executes e 0x8A w (uniSpec w [10, 11] 0x00F) = some (i, d) → i.UniformResult (.usub e w) s d n (a + 2 ^ (32 * n) - b)) ∧
    (s.dev.executes e 0x8B w (uniSpec w [10] 0x00F) = some (i, d) → i.UniformResult (.umul e w) s d n (a * b)) ∧
    (s.dev.executes e 0x8C w (uniSpec w [10] 0x30F) = some (i, d) → i.UniformResult (.ulop e w) s d n (logic sel a b)) ∧
    (s.dev.executes e 0x8D w (uniSpec w [10] 0x30F (sel < 3)) = some (i, d) →
      i.UniformResult (.ushf e w) s d n (if sel = 0 then shiftLeft a b else shiftRight (sel == 2) a b)) ∧
    (s.dev.executes e 0x8F w { d := .u 1, a := .v 1, b := .num, ok := typeOf w == 10 && modIn w 0x00F, pt := true } = some (i, d) →
      i.UniformResult (.v2u e w) s d 1 (i.a 1 (if w.b.toNat < 32 ∧ i.x.mask.testBit w.b.toNat then w.b.toNat
        else ((setBits 32 i.x.mask).head?).getD 0)))

/-! Ixfen memory -/

/-- LDL, LD, LDU, SLD and PRF. A load that no check stops and whose bytes can be read: in each lane whose guard is true (LDU: in the group's uniform
register) the bytes at its address, extended to 32 bits where narrower. Lanes in device memory read by the L1; where a lane lies in the host tier a
PCIe read is opened for it and the load stays open, keeping what has come, while the entry goes on (R113, R267). PRF changes no byte and no register.
The hits of watchpoints that do not stop are recorded. -/
def Obligations.Loads : Prop :=
  ∀ (e : Ent) (w : IWord) (s : State) (i : IC) (d : Device),
    let n := widthOf w
    let r := widthRegs n
    let sgn := w.mod.toNat.testBit 3
    let sc := w.mod.toNat.testBit 9
    let ask := fun (d : Device) (l : List LaneAcc) => i.askHost d l (fun d q _ => (d.openRead q n).loadSample i.core i.hoop)
    let loaded := fun (c : Instr) (d1 : Device) (l : List LaneAcc) =>
      let got := i.readLanes d1 n (bits w.mod.toNat 11 10) l
      let asked := ask got.1 l
      i.noHost d1 l = [] → got.2.2 = [] → got.1.block? e.core i.place = some i.b →
        (asked.2 = [] → ∃ b, i.Completes c s (i.noted 0 n d1 l (i.acquire (i.put got.1 b))) ∧
          i.LaneWrites r (fun l => extend n sgn (laneBytes got.2.1 l)) b) ∧
        (asked.2 ≠ [] → let x : Load := { i.loadOf false false r n with got := got.2.1, due := asked.2 }
          i.Completes c s (i.noted 0 n d1 l (asked.1.modBlock e.core i.place (fun b => { b with loads := Tab.insert b.loads got.1.fresh x }))))
    (s.dev.executes e 0x60 w (ixLdl w).1 = some (i, d) →
      (∀ x ∈ i.targets 1 n sc, x.2 % n = 0 ∧ d.localIn e.core x.2 n = true ∧ d.localBad e.core i.place x.2 n = false) →
      ∃ b, i.Completes (.ldl e w) s (i.acquire (i.put (i.localRead_ d n (i.targets 1 n sc)) b)) ∧
        i.LaneWrites r (fun l => extend n sgn (d.localRead e.core i.place (i.address 1 l n sc) n)) b) ∧
    (∀ d1 l, s.dev.executes e 0x62 w (ixLd w).1 = some (i, d) → i.reach d 0 n [3] sc = some (d1, l) → loaded (.ld e w) d1 l) ∧
    (∀ d1 l l0, s.dev.executes e 0x64 w (ixLdu w).1 = some (i, d) → i.lanes.head? = some l0 → i.address 2 l0 n sc % n = 0 →
      i.reached 0 n (i.translate d n [3] [(l0, i.address 2 l0 n sc)]) = some (d1, l) →
      let got := i.readLanes d1 n (bits w.mod.toNat 11 10) l
      let asked := ask got.1 l
      i.noHost d1 l = [] → got.2.2 = [] → got.1.block? e.core i.place = some i.b →
        (asked.2 = [] → i.Completes (.ldu e w) s
          (i.noted 0 n d1 l (i.acquire (i.put got.1 (i.setU i.b r (extend n sgn (laneBytes got.2.1 l0))))))) ∧
        (asked.2 ≠ [] → let x : Load := { i.loadOf true false r n with got := got.2.1, due := asked.2 }
          i.Completes (.ldu e w) s
            (i.noted 0 n d1 l (asked.1.modBlock e.core i.place (fun b => { b with loads := Tab.insert b.loads got.1.fresh x }))))) ∧
    (∀ d1 l, s.dev.executes e 0x68 w (ixSld w).1 = some (i, d) → i.tokenAlign n = [] →
      i.reached 0 n (i.resolveTokens d n false i.tokens) = some (d1, l) → loaded (.sld e w) d1 l) ∧
    (s.dev.executes e 0x65 w (ixPrf w).1 = some (i, d) → misaligned (i.targets 2 n sc) n = [] →
      let t := i.translate d n [3] (i.targets 2 n sc)
      (∀ x ∈ t.2.2, x.2.code ≠ 0) → t.1.watchStop i.hoop (i.hits 0 n t.1 t.2.1) = none →
      ∃ d2, i.Completes (.prf e w) s (i.noted 0 n t.1 t.2.1 d2) ∧
        (t.1.rests → t.1.readable (devLanes t.2.1) → d2.life.fatal = false → d2.mem = t.1.mem) ∧
        d2.block? e.core i.place = t.1.block? e.core i.place)

/-- STL, ST and SST. A store that no check stops and whose release, if it is one, waits for nothing more completes: each lane's bytes are written at its
address, the highest lane standing where lanes meet, and no other byte; lanes in the host tier are written by PCIe. An SST first raises PROVISIONAL of
each session to its token plus 1 (R311). The hits of watchpoints that do not stop are recorded. An early block holds ST and SST (R87), for which the entry
parks. -/
def Obligations.Stores : Prop :=
  ∀ (e : Ent) (w : IWord) (s : State) (i : IC) (d : Device),
    let n := widthOf w
    let sc := w.mod.toNat.testBit 9
    let value := fun l => le n (i.bReg (widthRegs n) l)
    (∀ d2, s.dev.executes e 0x61 w (ixStl w).1 = some (i, d) → i.released d = some d2 →
      (∀ x ∈ i.targets 1 n sc, x.2 % n = 0 ∧ d.localIn e.core x.2 n = true) →
      ∃ d3, i.Completes (.stl e w) s d3 ∧ d3.mem = d2.mem ∧ d3.regs = d2.regs ∧ d3.out = d2.out ∧
        d3.block? e.core i.place = d2.block? e.core i.place ∧
        ∀ x, d3.localByte e.core i.place x = match lastCover (i.targets 1 n sc) n x with
          | none => d2.localByte e.core i.place x
          | some y => (value y.1).getD (x - y.2) 0) ∧
    (∀ d1 l d2, s.dev.executes e 0x63 w (ixSt w).1 = some (i, d) → i.k.early = false → i.reach d 1 n [4] sc = some (d1, l) →
      i.released d1 = some d2 →
      ∃ d3, i.Completes (.st e w) s (i.noted 1 n d1 l d3) ∧ i.store d2 n l = .go d3 ∧ Stored d2 d3 (devLanes l) n value) ∧
    (∀ d1 l d2, s.dev.executes e 0x69 w (ixSst w).1 = some (i, d) → i.k.early = false → i.tokenAlign n = [] →
      (∀ x ∈ i.tokens, d.sessIn i.hoop x.2.1 = true → d.settling x.2.1 = false ∧
        ((d.sess x.2.1).state = 1 → d.tokenMoves x.2.1 x.2.2.1.toNat = false)) →
      i.reached 1 n (i.resolveTokens d n true i.tokens) = some (d1, l) → i.released d1 = some d2 →
      ∃ d3 d4, d3 = i.tokens.foldl (fun d x => d.raiseProv x.2.1 (x.2.2.1.toNat + 1)) d2 ∧ i.store d3 n l = .go d4 ∧
        i.Completes (.sst e w) s (i.noted 1 n d1 l d4) ∧ Stored d3 d4 (devLanes l) n value ∧
        ∀ y, (d3.sess y).prov = (i.tokens.filter (fun x => x.2.1 == y)).foldl (fun m x => Nat.max m (x.2.2.1.toNat + 1)) (d2.sess y).prov) ∧
    (s.dev.executes e 0x63 w (ixSt w).1 = some (i, d) → i.k.early = true → Gives (.st e w) s (i.apply (i.held d))) ∧
    (s.dev.executes e 0x69 w (ixSst w).1 = some (i, d) → i.k.early = true → Gives (.sst e w) s (i.apply (i.held d)))

/-- ATOM and ATOML complete where no check stops them. The lanes act one after the other in lane order: each reads the word at its address into its
destination and writes what the operation makes of it, and no other byte changes, where the coherent domain has no other request to perform. Where a lane's word lies in the host tier a PCIe AtomicOp is opened for it,
FetchAdd, Swap or CAS (R160, R267), and the atomic stays open, with what its other lanes have read, while the entry goes on. -/
def Obligations.Atomics : Prop :=
  ∀ (e : Ent) (w : IWord) (s : State) (i : IC) (d : Device),
    let n := 4 * i.aw
    (∀ d1 l d2, s.dev.executes e 0x70 w (ixAtom w).1 = some (i, d) → i.k.early = false → i.reach d 2 n [5] false = some (d1, l) →
      i.released d1 = some d2 → (∀ y ∈ devLanes l, d2.badAt y.2 n = false) →
      d2.block? e.core i.place = some i.b →
      let run := atomicSeq i.newWord n (devLanes l) d2.mem.get
      let whole := d2.rests ∧ d2.readable (devLanes l) ∧ ∀ y ∈ devLanes l, ∀ j < n, d2.holds (y.2 + j)
      ((∀ x ∈ l, x.host = none) → ∃ d3 b, i.Completes (.atom e w) s (i.noted 2 n d1 l (i.acquire (i.put d3 b))) ∧
        (whole → d3.life.fatal = false → (∀ a, d3.mem.get a = run.1 a) ∧ i.LaneWrites i.aw (fun lane => ofLe (laneBytes run.2 lane)) b)) ∧
      ((∃ x ∈ l, x.host.isSome = true) → i.noHost d2 l = [] → (i.aop = 0 ∨ i.aop = 6 ∨ i.aop = 7) →
        ∃ d3 b k x, i.Completes (.atom e w) s (i.noted 2 n d1 l d3) ∧ d3.block? e.core i.place = some b ∧ Tab.find? b.loads k = some x ∧
          x.writes = true ∧ x.due.map (fun y => (y.1, y.2.1)) = (l.filter (fun x => x.host.isSome)).map (fun x => (x.lane, x.va)) ∧
          (whole → d3.life.fatal = false → (∀ a, d3.mem.get a = run.1 a) ∧ x.got = run.2))) ∧
    (∀ d2, s.dev.executes e 0x71 w (ixAtoml w).1 = some (i, d) → i.k.early = false →
      (∀ x ∈ i.targets 1 n false, x.2 % n = 0 ∧ d.localIn e.core x.2 n = true ∧ d.localBad e.core i.place x.2 n = false) →
      i.released (i.localRead_ d n (i.targets 1 n false)) = some d2 → d2.block? e.core i.place = some i.b →
      let run := atomicSeq i.newWord n (i.targets 1 n false) (d2.localByte e.core i.place)
      ∃ d3 b, i.Completes (.atoml e w) s (i.acquire (i.put d3 b)) ∧ d3.mem = d2.mem ∧ d3.regs = d2.regs ∧ d3.out = d2.out ∧
        (∀ x, d3.localByte e.core i.place x = run.1 x) ∧ i.LaneWrites i.aw (fun lane => ofLe (laneBytes run.2 lane)) b) ∧
    (s.dev.executes e 0x70 w (ixAtom w).1 = some (i, d) → i.k.early = true → Gives (.atom e w) s (i.apply (i.held d))) ∧
    (s.dev.executes e 0x71 w (ixAtoml w).1 = some (i, d) → i.k.early = true → Gives (.atoml e w) s (i.apply (i.held d)))

/-- GLD, GST and GATOM at their source complete where no check stops them: one request with a number of its own for each line (GLD, RD_REQ with the
bytes asked), each run of bytes within a line (GST, WR with the lanes' bytes, the highest lane standing) or each lane in lane order (GATOM, ATOM with
operation and operands), the packet of its type to the chip, window and offset that the pointer names (R352). A GLD or GATOM is open, its destination
awaiting the answers (R113); the block of a GST awaits the acknowledgements (R276). A request for which no port serves is not opened (R357): its lanes of
a GLD or GATOM fail as REMOTE_REFUSED. -/
def Obligations.RemoteAccesses : Prop :=
  ∀ (e : Ent) (w : IWord) (s : State) (i : IC) (d d1 : Device) (l : List (Nat × Nat)),
    let n := widthOf w
    let sc := w.mod.toNat.testBit 9
    let served := fun (p : Nat) => gpChip p = d1.ownChip ∨ (d1.routePort (gpChip p) 0).isSome = true
    let sent := fun (d3 : Device) (kind j p ptype : Nat) (data : Bytes) => ∃ q : Remote,
      Tab.find? d3.klz.remotes (d1.klz.nextTag + j) = some q ∧ q.kind = kind ∧ q.a = e.core ∧ q.b = i.place ∧ q.hoop = i.hoop ∧
      q.pkt = { d1.dataPkt i.hoop ptype (gpChip p) (gpWin p) (gpOff p) data with tag := (d1.klz.nextTag + j) % 65536 }
    let opened := fun (d3 : Device) (k : Nat) (x : Load) (m : Nat) =>
      (d3.block? e.core i.place).bind (fun b => Tab.find? b.loads k) = some x ∧ (∀ y, y ∈ x.due.map (fun z => (z.1, z.2.1)) ↔ y ∈ l) ∧
      x.got = [] ∧ x.bad = [] ∧ d3.klz.nextTag = d1.klz.nextTag + m ∧ d3.mem = d1.mem
    (s.dev.executes e 0x66 w (ixGld w).1 = some (i, d) → i.far d n sc false = some (d1, l) → l ≠ [] → d1.block? e.core i.place = some i.b →
      (∀ x ∈ l, served x.2) →
      ∃ d3 x, i.Completes (.gld e w) s d3 ∧ opened d3 d1.fresh x (lineSpans l n).length ∧ x.writes = false ∧ x.n = n ∧
        ∀ j z, (lineSpans l n)[j]? = some z → sent d3 0 j z.1 0x01 (be 8 z.2.1)) ∧
    (s.dev.executes e 0x66 w (ixGld w).1 = some (i, d) → i.far d n sc false = some (d1, []) → i.Completes (.gld e w) s
      ((d1.step1).loadWrites e.core i.place (i.loadOf false false (widthRegs n) n))) ∧
    (∀ d0, s.dev.executes e 0x67 w (ixGst w).1 = some (i, d) → i.k.early = false → i.released d = some d0 → i.far d0 n sc true = some (d1, l) →
      (∀ x ∈ l, served x.2) →
      let cover := fun p => (lastCover l n p).map (fun y => (le n (i.bReg (widthRegs n) y.1)).getD (p - y.2) 0)
      ∃ d2 m, i.Completes (.gst e w) s d2 ∧ d2.mem = d1.mem ∧ d2.klz.nextTag = d1.klz.nextTag + m ∧
        (∀ j < m, ∃ p data, sent d2 1 j p 0x03 data ∧ 0 < data.length ∧ p / 128 = (p + data.length - 1) / 128 ∧
          ∀ x < data.length, cover (p + x) = some (data.getD x 0)) ∧
        (∀ p, (cover p).isSome = true → ∃ j < m, ∃ p0 data, sent d2 1 j p0 0x03 data ∧ p0 ≤ p ∧ p < p0 + data.length) ∧
        d2.block? e.core i.place = (d1.block? e.core i.place).map (fun b =>
          { b with gstOut := b.gstOut ++ (List.range m).map (fun j => d1.klz.nextTag + j) })) ∧
    (∀ d0, s.dev.executes e 0x72 w (ixGatom w).1 = some (i, d) → i.k.early = false → i.released d = some d0 →
      i.far d0 (4 * i.aw) false true = some (d1, l) → l ≠ [] → d1.block? e.core i.place = some i.b → (∀ x ∈ l, served x.2) →
      ∃ d3 x, i.Completes (.gatom e w) s d3 ∧ opened d3 d1.fresh x l.length ∧ x.writes = true ∧ x.n = 4 * i.aw ∧
        ∀ j y, l[j]? = some y → sent d3 0 j y.2 0x05 (atomData i.aop (w.mod.toNat.testBit 9) (w.mod.toNat.testBit 10) (i.bReg i.aw y.1)
          (if i.aop = 7 ∧ w.dz = false then i.b.vregs (i.thread y.1) w.d.toNat i.aw else 0))) ∧
    (s.dev.executes e 0x67 w (ixGst w).1 = some (i, d) → i.k.early = true → Gives (.gst e w) s (i.apply (i.held d))) ∧
    (s.dev.executes e 0x72 w (ixGatom w).1 = some (i, d) → i.k.early = true → Gives (.gatom e w) s (i.apply (i.held d)))

/-- FENCE, FSIGNAL and DOORBELL. A fence that waits for nothing goes on, an acquire at die scope or wider with the core's L1 emptied; FSIGNAL raises
its fence word to the maximum (R50, R162); DOORBELL rings the write pointer of a queue of the block's hoop (R72, R172). -/
def Obligations.FencesAndDoorbells : Prop :=
  ∀ (e : Ent) (w : IWord) (s : State) (i : IC) (d : Device),
    (∀ d2, s.dev.executes e 0x78 w (ixFence w).1 = some (i, d) → i.guard ≠ 0 → (i.k.early = false ∨ i.scope < 4) → i.open_ d = false →
      i.released d = some d2 →
      i.Completes (.fence e w) s (if (i.order = 1 ∨ i.order = 3) ∧ 3 ≤ i.scope then d2.dropL1 e.core else d2)) ∧
    (∀ a word, s.dev.executes e 0x79 w (ixFsignal w).1 = some (i, d) →
      s.dev.rd Reg.HOOP_CFG_DEP_MODEL i.hoop ≠ 1 → i.guard ≠ 0 → i.k.early = false → i.open_ d = false → (i.bReg 2 0).testBit 63 = false →
      i.a 1 0 < d.rd Reg.HOOP_FENCES_FENCES i.hoop →
      let x := d.xlate i.core i.hoop i.k.map (d.fenceVa i.hoop (i.a 1 0)) 8 [3, 4] false
      let y := x.1.seenVa i.hoop (x.1.fenceVa i.hoop (i.a 1 0)) 8
      x.2 = .ok (.dev a) → x.1.badAt a 8 = false → y.word i.hoop (y.fenceVa i.hoop (i.a 1 0)) = .ok word → word.testBit 63 = false →
      i.Completes (.fsignal e w) s (y.setWord i.hoop (y.fenceVa i.hoop (i.a 1 0)) (Nat.max word (i.bReg 2 0)))) ∧
    (s.dev.executes e 0xD4 w (ixDoorbell w).1 = some (i, d) → i.k.early = false → i.open_ d = false →
      i.a 1 0 < 4096 → (d.queue (i.a 1 0)).state ≠ 0 → (d.queue (i.a 1 0)).hoop = i.hoop →
      i.Completes (.doorbell e w) s (d.ring (i.a 1 0) (i.bReg 1 0)))

/-! Ixfen control flow, the press, streams and messages -/

/-- BRA, BRX, CALL, RCV and NOP. The lanes whose guard is true go to their target and the others to the next address: one aligned target in all is gone
to, several diverge, rising, under the reconvergence point (R118), which a BRX that does not declare itself divergent does not (R165); CALL writes
the next address in each lane and goes to its target. RCV away from the innermost reconvergence point goes on; at it, its lanes have arrived and wait
there, and the block's splits are settled (R119). NOP, and a branch without a true guard, go on. -/
def Obligations.Branches : Prop :=
  ∀ (e : Ent) (w : IWord) (s : State) (i : IC) (d : Device),
    let t := i.offset (w.immw.toNat % 2 ^ 32)
    let goes := fun (c : Instr) (l : List (Nat × Nat)) =>
      (∀ x, byTarget l = [x] → Gives c s (d.goTo_ e.core e.entry x.1)) ∧
      (∀ x y m, byTarget l = x :: y :: m → Gives c s (i.diverge d (x :: y :: m) i.point))
    (s.dev.executes e 0x80 w (ixBra w).1 = some (i, d) →
      (i.guard = 0 → i.Completes (.bra e w) s d) ∧
      (i.guard ≠ 0 → t % 8 = 0 → i.point % 8 = 0 →
        (i.stay = [] → Gives (.bra e w) s (d.goTo_ e.core e.entry t)) ∧ goes (.bra e w) (i.lanes.map (fun l => (l, t)) ++ i.stay))) ∧
    (s.dev.executes e 0x81 w (ixBrx w).1 = some (i, d) →
      (i.guard = 0 → i.Completes (.brx e w) s d) ∧
      (i.guard ≠ 0 → i.point % 8 = 0 → (∀ l ∈ i.lanes, i.a 2 l % 8 = 0) →
        (i.stay = [] → ∀ a, (∀ l ∈ i.lanes, i.a 2 l = a) → Gives (.brx e w) s (d.goTo_ e.core e.entry a)) ∧
        (w.immw.toNat / 2 ^ 32 ≠ 0 → goes (.brx e w) (i.lanes.map (fun l => (l, i.a 2 l)) ++ i.stay)))) ∧
    (s.dev.executes e 0x82 w (ixCall w).1 = some (i, d) → t % 8 = 0 →
      ∃ b, Gives (.call e w) s ((i.put d b).goTo_ e.core e.entry t) ∧ i.LaneWrites 2 (fun _ => i.x.pc + iwSize w) b) ∧
    (s.dev.executes e 0x83 w { ok := modIn w 0 } = some (i, d) →
      ((∀ c, i.x.ctx.head? = some c → c.point ≠ i.x.pc) → i.Completes (.rcv e w) s d) ∧
      (∀ c m b (sp : Split), i.x.ctx = c :: m → c.point = i.x.pc → i.x.stack = [] → d.block? e.core i.place = some b → d.ent? e.core e.entry = some i.x →
        Tab.find? b.splits c.split = some sp →
        let sp2 : Split := { sp with arrived := Tab.insert sp.arrived e.entry (Tab.get 0 sp.arrived e.entry ||| i.x.mask) }
        ∃ d2 : Device, Gives (.rcv e w) s (d2.settleBlock e.core i.place) ∧ (d2.ent? e.core e.entry).map (fun x => x.park) = some .reconv ∧
          d2.block? e.core i.place = some { b with splits := Tab.insert b.splits c.split sp2 })) ∧
    (s.dev.executes e 0x86 w { ok := modIn w 0 } = some (i, d) → i.Completes (.instructionNop e w) s d)

/-- BAR, BAR.ARRIVE and EXIT. Lanes whose guard is true are recorded as arrived at the barrier; those of BAR park there, and the entry's other lanes
go on in an entry of their own; those of BAR.ARRIVE go on, and those of EXIT leave the block; then the block's wait points and splits that this
completes are settled (R118, R119, R124). Without a true guard each goes on. -/
def Obligations.Barriers : Prop :=
  ∀ (e : Ent) (w : IWord) (s : State) (i : IC) (d : Device) (b : Block),
    let key := w.a.toNat * 32 + i.x.group
    let rest := without i.x.mask i.guard
    d.block? e.core i.place = some b →
    (s.dev.executes e 0x7A w (ixBar w).1 = some (i, d) →
      (i.guard = 0 → i.Completes (.bar e w) s d) ∧
      (i.guard ≠ 0 → i.open_ d = false → w.a.toNat < 16 → Tab.get 0 i.b.arrived key &&& i.guard = 0 →
        ∃ d2 : Device, Gives (.bar e w) s (d2.settle e.core i.place) ∧
          (d2.block? e.core i.place).map (fun y => Tab.get 0 y.arrived key) = some (Tab.get 0 b.arrived key ||| i.guard) ∧
          (rest = 0 → (d2.ent? e.core e.entry).map (fun y => (y.mask, y.park, y.pc)) = some (i.guard, Park.wait w.a.toNat, i.x.pc)) ∧
          (∀ f, rest ≠ 0 → d.freeEntry e.core i.b i.x.group = some f → f ≠ e.entry →
            (d2.ent? e.core e.entry).map (fun y => (y.mask, y.park, y.pc)) = some (i.guard, Park.wait w.a.toNat, i.x.pc) ∧
            (d2.ent? e.core f).map (fun y => (y.mask, y.park, y.pc)) = some (rest, Park.ready, i.x.pc + 8)))) ∧
    (s.dev.executes e 0x7B w (ixArrive w).1 = some (i, d) →
      (i.guard = 0 → i.Completes (.barArrive e w) s d) ∧
      (i.guard ≠ 0 → i.open_ d = false → w.a.toNat < 16 → Tab.get 0 i.b.arrived key &&& i.guard = 0 →
        ∃ d2 : Device, i.Completes (.barArrive e w) s (d2.settle e.core i.place) ∧
          d2.block? e.core i.place = some { b with arrived := Tab.insert b.arrived key (Tab.get 0 b.arrived key ||| i.guard) })) ∧
    (s.dev.executes e 0x84 w (ixExit w).1 = some (i, d) →
      (i.guard = 0 → i.Completes (.exit e w) s d) ∧
      (i.guard ≠ 0 → i.b.region = false →
        ∃ d2 : Device, Gives (.exit e w) s ((d2.emptied e.core e.entry).settle e.core i.place) ∧
          d2.block? e.core i.place = some { b with
            exited := Tab.insert b.exited i.x.group (Tab.get 0 b.exited i.x.group ||| i.guard), last := (i.x.pc, i.x.group, i.x.mask) } ∧
          (d2.ent? e.core e.entry).map (fun y => y.mask) = (d.ent? e.core e.entry).map (fun y => without y.mask i.guard)))

/-- BARRIER_STATE (R125): a thread that arrives at a barrier a second time before it completes, and BAR or BAR.ARRIVE that name a barrier above 15,
fault their block, once the lanes' earlier loads have completed (R134). -/
def Obligations.BarrierState : Prop :=
  ∀ (e : Ent) (w : IWord) (s : State) (i : IC) (d : Device),
    i.guard ≠ 0 → i.alone d = true → (15 < w.a.toNat ∨ Tab.get 0 i.b.arrived (w.a.toNat * 32 + i.x.group) &&& i.guard ≠ 0) →
    (s.dev.executes e 0x7A w (ixBar w).1 = some (i, d) →
      Gives (.bar e w) s (d.blockFault e.core i.place i.x.group i.x.mask i.x.pc { code := 0x41, arg2 := w.a.toNat })) ∧
    (s.dev.executes e 0x7B w (ixArrive w).1 = some (i, d) →
      Gives (.barArrive e w) s (d.blockFault e.core i.place i.x.group i.x.mask i.x.pc { code := 0x41, arg2 := w.a.toNat }))

/-- TRAP and an opcode that no table lists: what they do is to fault their block, TRAP with TRAP_INSTRUCTION and its number, an unlisted opcode with
ILLEGAL_OPCODE and the opcode (R134, R141); a TRAP without a true guard goes on. A BRX that declares that it does not diverge faults where it would
(R165). Each fault waits until the lanes' earlier loads have completed. The words of an instruction read
back as its opcode and fields (R140). -/
def Obligations.Traps : Prop :=
  ∀ (e : Ent) (w : IWord) (op : Byte) (s : State) (i : IC) (d : Device),
    (s.dev.executes e 0x85 w (ixTrap w).1 = some (i, d) →
      (i.guard = 0 → i.Completes (.trap e w) s d) ∧
      (i.guard ≠ 0 → i.alone d = true →
        Gives (.trap e w) s (d.blockFault e.core i.place i.x.group i.x.mask i.x.pc { code := 0x03, arg0 := i.guard, arg2 := w.a.toNat }))) ∧
    (s.dev.executes e 0x81 w (ixBrx w).1 = some (i, d) → w.immw.toNat / 2 ^ 32 = 0 → i.alone d = true →
      i.guard ≠ 0 → i.point % 8 = 0 → (∀ l ∈ i.lanes, i.a 2 l % 8 = 0) →
      (i.stay ≠ [] ∨ ∃ l ∈ i.lanes, ∃ m ∈ i.lanes, i.a 2 l ≠ i.a 2 m) →
      Gives (.brx e w) s (d.blockFault e.core i.place i.x.group i.x.mask i.x.pc
        { code := 0x09, arg0 := i.guard, arg1 := ((i.lanes.head?).map (i.a 2)).getD 0 })) ∧
    (∀ y, s.dev.live = true → listed op.toNat = false → s.dev.context e.core e.entry op.toNat {} = some i → i.x.code = [] →
      s.dev.fetchCode e.core e.entry i.x i.k = (d, .got y) → y.1 = op.toNat → i.alone d = true →
      Gives (.illegalOpcode e op) s (d.blockFault e.core i.place i.x.group i.x.mask i.x.pc { code := 0x01, arg2 := op.toNat })) ∧
    ((w.imm = false → w.immw = 0) → readWord (wordBits op.toNat w) w.immw.toNat = (op.toNat, w))

/-- The matrix instructions in full groups of the region they need: MXBEGIN and MXEND arrive and park at their rendezvous (R129, R133); MXLDIN,
MXSTREAM, MXACC and MXDRAIN with operands in range send their operation to the end of the press queue while fewer than 8 wait (R182), a stream from
local store or from a channel of the column buffer, a drain to local store or to global memory; MXWAIT goes on once no operation it names is left
(R185). -/
def Obligations.MatrixInstructions : Prop :=
  ∀ (e : Ent) (w : IWord) (s : State) (i : IC) (d : Device),
    let full := i.x.mask = 2 ^ 32 - 1
    let p := d.press e.core
    let t := typeOf w
    let scale := bits w.mod.toNat 9 8
    let room := fun (d : Device) => ((d.press e.core).ops.filter (fun x => !x.started)).length < 8
    let sent := fun (d : Device) (o : MxOp) (f : Press → Press) =>
      ((d.step1).modPress e.core (fun p => { p with ops := p.ops ++ [{ o with seq := d.fresh, place := i.place, group := i.x.group }] })).modPress e.core f
    (s.dev.executes e 0xC0 w { pt := true, ok := modIn w 0 } = some (i, d) → full → i.b.region = false →
      ∃ d2 : Device, i.arriveAndPark d 16 = .jump d2 ∧ Gives (.mxbegin e w) s d2) ∧
    (s.dev.executes e 0xC6 w { pt := true, ok := modIn w 0 } = some (i, d) → full → i.b.region = true →
      ∃ d2 : Device, i.arriveAndPark d 17 = .jump d2 ∧ Gives (.mxend e w) s d2) ∧
    (s.dev.executes e 0xC1 w { a := .u 1, b := .u 1, pt := true, ok := tileOk w && modIn w 0x30F && (scale == 0) == isUz w.bk } = some (i, d) →
      full → i.b.region = true → room d →
      i.pressRanges d ([(i.a 1 0, 128 * pressRb t, 128)] ++ (if scale = 0 then [] else [(i.bReg 1 0, 128 * pressSb t scale, 8)])) = none →
      i.Completes (.mxldin e w) s (sent d { kind := 0, seq := 0, handle := 16, a := i.a 1 0, b := i.bReg 1 0, type := t, scale := scale }
        (fun p => { p with tileType := some (t, scale) }))) ∧
    (∀ h, s.dev.executes e 0xC2 w { a := .u 1, b := .u 1, c := .u 1, pt := true,
                                    ok := tileOk w && modIn w 0x70F && (if w.mod.toNat.testBit 10 then isUz w.ck else (scale == 0) == isUz w.ck) }
        = some (i, d) →
      full → i.b.region = true → room d → p.cur = some h → p.tileType = some (t, scale) → 1 ≤ i.bReg 1 0 → i.bReg 1 0 ≤ 65536 →
      let r := Tab.get ⟨0, 1, 0⟩ p.handles h
      let src := w.mod.toNat.testBit 10
      (src = true → i.a 1 0 ≤ 3) →
      (src = false → i.pressRanges d ([(i.a 1 0, i.bReg 1 0 * pressRb t, 128)]
        ++ (if scale = 0 then [] else [(i.c 1 0, i.bReg 1 0 * pressSb t scale, 8)])) = none) →
      i.Completes (.mxstream e w) s (sent d { kind := 1, seq := 0, handle := h, a := i.a 1 0, c := if scale = 0 ∨ src then none else some (i.c 1 0),
                                              type := t, scale := scale, src := src, n := i.bReg 1 0, first := r.first, cols := r.cols,
                                              cursor := r.cursor }
        (fun p => { p with handles := Tab.insert p.handles h { r with cursor := (r.cursor + i.bReg 1 0) % r.cols } }))) ∧
    (s.dev.executes e 0xC3 w { d := .h, a := .u 1, b := .u 1, pt := true, ok := modIn w 0x100 } = some (i, d) →
      full → i.b.region = true → room d → 1 ≤ i.bReg 1 0 → i.a 1 0 + i.bReg 1 0 ≤ 1024 →
      i.Completes (.mxacc e w) s (sent d { kind := 2, seq := 0, handle := w.d.toNat, first := i.a 1 0, cols := i.bReg 1 0,
                                           mode := w.mod.toNat.testBit 8 }
        (fun p => { p with handles := Tab.insert p.handles w.d.toNat ⟨i.a 1 0, i.bReg 1 0, 0⟩
                           cur := some w.d.toNat
                           fresh := if w.mod.toNat.testBit 8 then p.fresh else (List.range (i.bReg 1 0)).foldl
                             (fun t j => Tab.insert t (i.a 1 0 + j) (Tab.get [] t (i.a 1 0 + j) ++ [d.fresh])) p.fresh }))) ∧
    (∀ r, let global := w.mod.toNat.testBit 11
      s.dev.executes e 0xC4 w { a := .h, b := .u (if global then 2 else 1), c := .u 1, pt := true,
                                ok := (typeOf w ≤ 8 || typeOf w == 10) && rndOf w ≤ 4 && modIn w 0x8FF } = some (i, d) →
      full → i.b.region = true → Tab.find? p.handles w.a.toNat = some r → r.cols * elemBits t % 8 = 0 →
      let dst := i.bReg (if global then 2 else 1) 0
      let bytes := 128 * (r.cols * elemBits t / 8)
      let c := if isUz w.ck then none else some (i.c 1 0)
      i.pressRanges d ((if global then [] else [(dst, bytes, 128)]) ++ (match c with | some c => [(c, 8 * r.cols, 8)] | none => [])) = none →
      let o : MxOp := { kind := 3, seq := 0, handle := w.a.toNat, b := dst, c := c, type := t, n := 0, first := r.first, cols := r.cols, rnd := rndOf w,
                        sat := w.mod.toNat.testBit 7, global := global }
      let z := i.drainSeg d dst bytes
      let acc : List LaneAcc := [⟨0, dst, 0, .dev 0⟩]
      (global = false → room d → i.Completes (.mxdrain e w) s (sent d o id)) ∧
      (global = true → i.k.early = false → dst % 128 = 0 → z.2 = none → room z.1 → z.1.watchStop i.hoop (i.hits 1 bytes z.1 acc) = none →
        i.Completes (.mxdrain e w) s (i.noted 1 bytes z.1 acc (sent z.1 o id)))) ∧
    (s.dev.executes e 0xC5 w { pt := true, ok := modIn w 0x00F } = some (i, d) → full → i.b.region = true →
      p.ops.any (fun o => o.named p t) = false → p.error t = none → i.Completes (.mxwait e w) s d)

/-- PRESS_GRANT gives the free press to the block whose rendezvous completed first, with fresh generators (R129, R191); PRESS_RELEASE takes it back
when the queue is empty and MXEND's rendezvous is complete (R133, R190), and faults the block where an operation met an uncorrectable error (R185).
MATRIX_OP_START starts the next operation in issue order whose condition of Table 6-3 holds, a drain with the accumulators as they stand; an MXACC is
done at once. MATRIX_OP_DONE takes the first operation that has nothing left out of the queue (R182). While a tile load runs each ac puts the next
row of local store in the tile, as it stands then (R176, R184). -/
def Obligations.Press : Prop :=
  ∀ (core : Nat) (s : State), s.dev.live = true → core < 256 →
    let c := s.dev.core core
    let press := s.dev.press core
    let waiting := c.blocks.filterMap (fun (x : Nat × Block) => x.2.ready.map (fun y => (y, x.1)))
    (∀ p b k r, c.press.owner = none → minOf (waiting.map (·.1)) = some r → List.find? (fun (x : Nat × Nat) => x.1 == r) waiting = some (r, p) →
      s.dev.block? core p = some b → s.dev.coreKernel core = some k →
      ∃ d2 : Device, Gives (.pressGrant core) s (d2.resumeAt core p 16) ∧ (d2.press core).owner = some p ∧ (d2.press core).ops = [] ∧
        d2.block? core p = some { b with region := true, ready := none, grants := b.grants + 1 } ∧
        (∀ row < 128, Tab.get 1 (d2.press core).gens row = mix k.seed b.lin (1024 + 128 * b.grants + row))) ∧
    (∀ p b, c.press.owner = some p → s.dev.block? core p = some b → b.ending = true → press.ops = [] →
      (press.error 0 = none →
        ∃ d2 : Device, Gives (.pressRelease core) s ((d2.resumeAt core p 17).settle core p) ∧ (d2.press core).owner = none) ∧
      (∀ f e x, press.error 0 = some f → c.ents.filter (fun (y : Nat × SEnt) => y.2.place == p && y.2.park == .wait 17) = [(e, x)] →
        Gives (.pressRelease core) s (s.dev.blockFault core p x.group x.mask x.pc { f with arg0 := x.mask }))) ∧
    (∀ o, press.ops.find? (fun o => !o.started) = some o → o.canStart (press.ops.takeWhile (fun x => x.started)) = true →
      (o.kind = 2 → Gives (.matrixOpStart core) s (s.dev.opDone core o.seq)) ∧
      (o.kind ≠ 2 → ∃ d2 : Device, Gives (.matrixOpStart core) s d2 ∧ d2.mem = s.dev.mem ∧
        (d2.press core).ops = press.ops.map (fun x => if x.seq = o.seq then { x with
          started := true
          snap := if x.kind = 3 then press.acc else []
          badSnap := if x.kind = 3 then press.badAcc else [] } else x))) ∧
    (∀ o, press.ops.find? MxOp.ended = some o →
      Gives (.matrixOpDone core) s (s.dev.modPress core (fun p => { p with ops := p.ops.filter (fun x => x.seq != o.seq) }))) ∧
    (∀ o, press.loading = some o → o.scale = 0 → s.dev.localBad core o.place (o.a + o.taken * pressRb o.type) (pressRb o.type) = false →
      ((s.dev.loadRow core).press core).tile = press.tile.take o.taken
        ++ [(s.dev.localRead core o.place (o.a + o.taken * pressRb o.type) (pressRb o.type), [])] ++ press.tile.drop (o.taken + 1))

/-- SSTART, SWAIT, SPOLL and MSEND. A valid, permitted descriptor goes to its engine and its handle to D (R173, R279); a handle that has completed
without failure is awaited, and SPOLL answers true in every active lane, while it has not completed it answers false (R170); an admitted message
from local or global memory gets a handle and leaves, or waits for its timeout where no port serves (R171, R353). An early block starts only
descriptors with a local destination (R87). -/
def Obligations.StreamsAndMessages : Prop :=
  ∀ (e : Ent) (w : IWord) (s : State) (i : IC) (d : Device),
    let n := i.a 1 0
    let pg := fun (b : Block) v => b.setPred i.x.group w.d.toNat i.x.mask v
    (∀ d2 d3 d4 b ub, s.dev.executes e 0xD0 w (ixSstart w).1 = some (i, d) →
      i.a 2 0 % 128 = 0 → i.structBytes d 0 (i.a 2 0) 128 = some (d2, b) → (i.k.early = true → (parseSd b).dstLocal = true) →
      d2.sdValid b { hoop := i.hoop, die := i.die, sstart := true, localSize := d2.localSize i.core, addr := i.a 2 0 } = true →
      (if (parseSd b).mode = 6 then i.structBytes d2 1 (parseSd b).src 128 = some (d3, ub) else d3 = d2 ∧ ub = []) →
      (parseSd b).updOk ub = true →
      let eng := if bits w.mod.toNat 4 0 = 16 then d2.lightest i.die else 16 * i.die + bits w.mod.toNat 4 0
      d3.issueCheck (512 + eng) i.hoop i.k.map (parseSd b) ub = (d4, none) → (d4.core i.core).held i.place < 16 → d4.engineRoom eng = true →
      let x : Desc := { hoop := i.hoop, map := i.k.map, bytes := b ++ ub, owner := .block i.core i.place (d4.fresh % 2 ^ 32), engine := eng }
      i.Completes (.sstart e w) s (i.giveHandle (((d4.setDesc d4.fresh x).step1).enqueue d4.fresh eng) (d4.fresh % 2 ^ 32)
        { kind := 0, op := d4.fresh, wide := !(parseSd b).dstLocal, detail := eng })) ∧
    (∀ h, s.dev.executes e 0xD1 w (ixSwait w).1 = some (i, d) → Tab.find? i.b.handles n = some h →
      h.awaited = false → h.done = true → h.fault = none →
      let d2 := d.modBlock i.core i.place (fun b => { b with handles := Tab.insert b.handles n { h with awaited := true } })
      i.Completes (.swait e w) s (if h.wide then d2.dropL1 i.core else d2)) ∧
    (∀ h, s.dev.executes e 0xD2 w (ixSpoll w).1 = some (i, d) → Tab.find? i.b.handles n = some h → h.awaited = false →
      (h.done = false → i.Completes (.spoll e w) s (d.modBlock i.core i.place (fun b =>
        pg { b with handles := Tab.insert b.handles n { h with polled := some (h.polled.getD (d.stamp i.hoop)), poller := i.x.group } } 0))) ∧
      (h.done = true → h.fault = none →
        let d2 := d.modBlock i.core i.place (fun b => { b with handles := Tab.insert b.handles n { h with awaited := true } })
        let d3 := if h.wide then d2.dropL1 i.core else d2
        (h.polled = none → i.Completes (.spoll e w) s (d3.modBlock i.core i.place (fun b => pg b (2 ^ 32 - 1)))) ∧
        (∀ st, h.polled = some st → i.Completes (.spoll e w) s
          ((d3.trace i.hoop (h.wait n).1 0 (d3.groupWaiter i.core i.x) n h.detail st).modBlock i.core i.place (fun b => pg b (2 ^ 32 - 1)))))) ∧
    (s.dev.executes e 0xD3 w (ixMsend w).1 = some (i, d) → i.k.early = false → 64 ≤ i.bReg 1 0 → i.bReg 1 0 ≤ 4096 → i.c 1 0 < 2 ^ 19 →
      let a := i.a 2 0 % 2 ^ 32
      let sends := fun (d1 : Device) (data : Bytes) => (d1.core i.core).held i.place < 16 →
        ∃ (d2 : Device) (r : Remote), i.Completes (.msend e w) s ((d2.openRemote r).getD (d2.keepRemote r)) ∧
          r.pkt.data = data ∧ r.chip = i.c 1 0 % 4096 ∧ r.pkt.ptype = 0x10 ∧
          (w.dz = false → i.w.d.toNat < 63 → (d2.block? i.core i.place).isSome →
            (d2.block? i.core i.place).map (fun b => b.ureg i.x.group w.d.toNat) = some (d1.fresh % 2 ^ 32))
      (w.mod.toNat.testBit 0 = true → d.localIn i.core a (i.bReg 1 0) = true → d.localBad i.core i.place a (i.bReg 1 0) = false →
        sends (d.localMet i.core i.place a (i.bReg 1 0)) (d.localRead i.core i.place a (i.bReg 1 0))) ∧
      (∀ d1 b, w.mod.toNat.testBit 0 = false →
        i.structBytes d 0 (i.a 2 0) (i.bReg 1 0) = some (d1, b) → sends d1 b))

/-- SMUPD: a valid update descriptor of the instruction's form, whose every access is permitted and whose elements exist. On device memory it updates
the element of each lane in lane order, each reading what the lane before wrote, and the UPDATE flags gather what they signal (R325, R326, R329); the
hits of watchpoints are recorded (R444);
with elements in the host tier it takes one of the block's 16 places and awaits their reads while the entry goes on (R170, R267). A group without a
true guard goes on. -/
def Obligations.Update : Prop :=
  ∀ (e : Ent) (w : IWord) (s : State) (i : IC) (d : Device),
    s.dev.executes e 0xE0 w (ixSmupd w).1 = some (i, d) → i.k.early = false →
    (i.guard = 0 → i.Completes (.smupd e w) s d) ∧
    (∀ d2 b, i.guard ≠ 0 → i.a 2 0 % 128 = 0 → i.structBytes d 64 (i.a 2 0) 128 = some (d2, b) → updValid b = true →
      (parseUpd b).form = bits w.mod.toNat 1 0 → (∀ l ∈ i.lanes, i.bReg 1 l < (parseUpd b).count) →
      let u := parseUpd b
      let idx := i.lanes.map (fun l => (l, i.bReg 1 l))
      let acc := updAccesses u idx
      let r := acc.foldl (fun (m : Device × List LaneAcc × List (Nat × FaultArgs)) x =>
        let y := i.translate m.1 x.2.2.1 [x.2.2.2] [(x.1, x.2.1)]
        (y.1, m.2.1 ++ (if x.2.2.2 = 3 then y.2.1 else []), m.2.2 ++ y.2.2)) (d2, [], [])
      r.2.2 = [] → (r.1.core i.core).held i.place < 16 → i.noHost r.1 r.2.1 = [] →
      i.collides r.1 (acc.map (fun x => (x.1, x.2.1, x.2.2.1, x.2.2.2 == 4))) = false →
      let d3 := r.2.1.foldl (fun d x => match x.loc with
        | .dev a => d.cohRead i.die i.hoop a 2 true
        | .host _ => d) (r.1.updWatch i.hoop (r.1.groupWaiter i.core i.x) acc)
      let o : UpdOp := { place := some i.place, hoop := i.hoop, map := i.k.map, group := i.x.group, mask := i.x.mask, pc := i.x.pc, desc := b,
                         idx := idx, due := [] }
      ((∀ x ∈ r.2.1, x.host = none) → o.failures d3 u = [] → i.Completes (.smupd e w) s (d3.updRun e.core o)) ∧
      ((∃ x ∈ r.2.1, x.host.isSome = true) → ∃ d4 n due, i.Completes (.smupd e w) s d4 ∧ due ≠ [] ∧
        Tab.find? (d4.core e.core).upds n = some { o with due := due } ∧ d4.mem = d3.mem))

/-! Ring entries, recipes and sessions -/

/-- NOP and EVENT_RECORD end with OK at their start (R68, R70). LAUNCH reads its kernel descriptor: a valid one is handed over the ring to its home
dispatcher and waits for the gate with the others, and the waiting credits are served (R65, R107); one that breaks a rule ends the entry with status 3, one that cannot be read with that read's status; while
the host is read the entry waits. LAUNCH_RECIPE of a recipe with a free place creates its instance and starts its nodes, waits for a place, or ends with
the status of the check that fails (R64, R82, R234). COPY hands its descriptors to the stream engines of a die, once no SEGMENT_WRITE holds a segment
that they name (R270, R278); WHEY puts its descriptors in its
hoop's queue, or waits for room (R299). That an entry without HANDLE[0], or whose HANDLE[0] is no recipe, ends with status 3 is the model's choice (log
entry 41). -/
def Obligations.RingEntries : Prop :=
  ∀ (q : Nat) (s : State) (e : Entry),
    let d := s.dev.begin_ q e.id
    let h := (d.queue q).hoop
    let p := slice e.bytes 8 24
    let map := d.rd Reg.HOOP_FLIP_APPLIED h
    let ends := fun (d : Device) st => (d.finish q e.id st).settleSlot q
    let waits := fun (d : Device) => (d.unbegin q e.id).settleSlot q
    (s.dev.startable q 0x00 = some e → Gives (.nop q) s (ends d 0)) ∧
    (s.dev.startable q 0x07 = some e → Gives (.eventRecord q) s (ends d 0)) ∧
    (∀ d2 r, s.dev.startable q 0x01 = some e → d.entRead q e.id (fieldLe p 0 8) 64 = (d2, r) →
      let fails := fun st => (ends (d2.countKernel (d2.queue q).hoop (d2.queue q).cls) st).serveCredits
      (∀ st, r = .error st → Gives (.launch q) s (fails st)) ∧
      (r = .ok none → Gives (.launch q) s (waits d2).serveCredits) ∧
      (∀ b, r = .ok (some b) →
        let k := kernelOf b p (d2.queue q).hoop q e.id e.ptr map none false
        let good := kdescGaps.all (fun g => zeroAt b g.1 g.2) && k.ok
        (good = false → Gives (.launch q) s (fails 3)) ∧
        (good = true → Gives (.launch q) s (((d2.setKernel d2.fresh k).step1.ringCtl 4 k.home).admitKernels.settleSlot q).serveCredits))) ∧
    (s.dev.startable q 0x02 = some e →
      (entNobj e.bytes = 0 → Gives (.launchRecipe q) s (ends d 3).serveCredits) ∧
      let d := d.objSeen h (fieldLe e.bytes 32 4)
      let obj := d.objRead h (fieldLe e.bytes 32 4)
      (∀ st, entNobj e.bytes ≠ 0 → obj = .error st → Gives (.launchRecipe q) s (ends d st).serveCredits) ∧
      (∀ x t ref, entNobj e.bytes ≠ 0 → obj = .ok (x, t, ref) →
        (t ≠ 2 ∨ d.recipe? h (ref % 1024) = none → Gives (.launchRecipe q) s (ends d 3).serveCredits) ∧
        (∀ r : Recipe, t = 2 → d.recipe? h (ref % 1024) = some r →
          let live := (d.work.insts.filter (fun (x : Nat × Inst) => x.2.hoop == h && x.2.recipe == ref % 1024)).length
          (r.paramLen ≠ fieldLe e.bytes 16 2 → Gives (.launchRecipe q) s (ends d 3).serveCredits) ∧
          (∀ a, r.paramLen = fieldLe e.bytes 16 2 → d.storeBad h r = some a →
            Gives (.launchRecipe q) s (ends (d.dataError h q (fieldLe e.bytes 32 4) e.ptr a) 0xA).serveCredits) ∧
          (r.paramLen = fieldLe e.bytes 16 2 → d.storeBad h r = none → (32 ≤ d.rd Reg.HOOP_RECIPES_LIVE h ∨ 8 ≤ live) →
            Gives (.launchRecipe q) s (waits d).serveCredits) ∧
          (∀ d2 b, r.paramLen = fieldLe e.bytes 16 2 → d.storeBad h r = none → d.rd Reg.HOOP_RECIPES_LIVE h < 32 → live < 8 →
            (if r.paramLen = 0 then (d, Except.ok (some [])) else d.entRead q e.id (fieldLe e.bytes 8 8) r.paramLen) = (d2, b) →
            (∀ st, b = .error st → Gives (.launchRecipe q) s (ends d2 st).serveCredits) ∧
            (b = .ok none → Gives (.launchRecipe q) s (waits d2).serveCredits) ∧
            (∀ block : Bytes, b = .ok (some block) →
              let node := fun (n : Nat) (x : RNode) =>
                ({ params := patched r n x.params block, counter := x.inDeg,
                   dispatch := ((r.preds n).filter (fun m => match r.nodes[m]? with | some y => y.isKernel | none => false)).length } : INode)
              let i : Inst := { hoop := h, recipe := ref % 1024, queue := q, entry := e.id, ptr := e.ptr, nodes := r.nodes.mapIdx (fun n x => (n, node n x)) }
              Gives (.launchRecipe q) s
                ((((((d2.storeSeen h r.parts).setInst d2.fresh i).step1).wr Reg.HOOP_RECIPES_LIVE h (d2.rd Reg.HOOP_RECIPES_LIVE h + 1)).startNodes
                  d2.fresh).settleSlot q).serveCredits))))) ∧
    (s.dev.startable q 0x03 = some e →
      let n := fieldLe p 8 2
      (n < 1 ∨ 256 < n → Gives (.copy q) s (ends d 3)) ∧
      (∀ d2 r, 1 ≤ n → n ≤ 256 → d.entRead q e.id (fieldLe p 0 8) (128 * n) = (d2, r) →
        (∀ st, r = .error st → Gives (.copy q) s (ends d2 st)) ∧
        (r = .ok none → Gives (.copy q) s (waits d2)) ∧
        (∀ (d3 : Device) (b : Bytes), r = .ok (some b) →
          let l := (List.range n).map (fun i => slice b (128 * i) 128)
          (d2.copyUpds q e.id l = (d3, false) → Gives (.copy q) s (waits d3)) ∧
          (∀ held : Bool, d2.copyUpds q e.id l = (d3, true) →
            held = (l.mapIdx (fun i b => (i, b))).any (fun (x : Nat × Bytes) =>
              d3.sdValid x.2 { hoop := h, die := q % 4, sstart := false, index := x.1, nodes := none, addr := fieldLe p 0 8 + 128 * x.1 }
              && ((d3.issueCheck (512 + d3.lightest (q % 4)) h map (parseSd x.2)
                (((d3.copyUpd q e.id (parseSd x.2)).2.toOption.getD none).getD [])).2.map (·.1)) == some 0) →
            (held = true → Gives (.copy q) s (waits d3)) ∧
            (held = false →
            Gives (.copy q) s ((((l.mapIdx (fun i b => (i, b))).foldl (fun d (x : Nat × Bytes) =>
              let v := d.sdValid x.2 { hoop := h, die := q % 4, sstart := false, index := x.1, nodes := none, addr := fieldLe p 0 8 + 128 * x.1 }
              let r := if v then d.copyUpd q e.id (parseSd x.2) else (d, .ok (some []))
              match r.2 with
              | .error st => r.1.copyOne h map (q % 4) (.copy q e.id x.1) x.2 [] (some st) v
              | .ok ub => r.1.copyOne h map (q % 4) (.copy q e.id x.1) x.2 (ub.getD []) none (v && (parseSd x.2).updOk (ub.getD []))) d3).tellOwner
                (.copy q e.id 0)).settleSlot q)))))) ∧
    (s.dev.startable q 0x04 = some e →
      let n := fieldLe e.bytes 16 2
      (n < 1 ∨ 64 < n → Gives (.whey q) s (ends d 3)) ∧
      (1 ≤ n → n ≤ 64 → 256 < (d.hx h).whey.length + n → Gives (.whey q) s (waits d)) ∧
      (∀ d2 r, 1 ≤ n → n ≤ 64 → (d.hx h).whey.length + n ≤ 256 → d.entRead q e.id (fieldLe e.bytes 8 8) (64 * n) = (d2, r) →
        (∀ st, r = .error st → Gives (.whey q) s (ends d2 st)) ∧
        (r = .ok none → Gives (.whey q) s (waits d2)) ∧
        (∀ b, r = .ok (some b) →
          Gives (.whey q) s ((((d2.setHx h { d2.hx h with whey := (d2.hx h).whey ++ (List.range n).map (fun i =>
            (⟨q, e.id, i + 1 == n, slice b (64 * i) 64⟩ : Whey)) }).wheyCount h false).modQueue q (fun x =>
              { x with entries := x.entries.map (fun y => if y.id = e.id then { y with buf := [] } else y) })).settleSlot q))))

/-- FENCE_WAIT and EVENT_WAIT end with OK once their word has been reached, with status 5 or 6 once it is abandoned, and wait while it has not been;
FENCE_SIGNAL raises its word to the maximum (R50, R69). A word that cannot be read ends every waiter on it with the status of the read (R69, R70).
FENCE_WAIT_SATISFIED and EVENT_WAIT_SATISFIED end each waiting entry and node of a queue whose word has been reached or abandoned. -/
def Obligations.FencesAndEvents : Prop :=
  ∀ (q : Nat) (s : State) (e : Entry) (w st : Nat),
    let d := s.dev.begin_ q e.id
    let h := (s.dev.queue q).hoop
    let i := fieldLe e.bytes 8 4
    let v := fieldLe e.bytes 16 8
    (s.dev.startable q 0x05 = some e →
      (d.word h (d.fenceVa h i) = .ok w →
        (w.testBit 63 = true → Gives (.fenceWait q) s ((d.endWaiter q e 5 w).settleSlot q)) ∧
        (w.testBit 63 = false → v ≤ w → Gives (.fenceWait q) s ((d.endWaiter q e 0 w).settleSlot q)) ∧
        (w.testBit 63 = false → w < v → Gives (.fenceWait q) s (d.settleSlot q))) ∧
      (d.word h (d.fenceVa h i) = .error st → st ≠ 0 → st ≠ 5 →
        Gives (.fenceWait q) s (((d.wordError h q e.who (d.fenceVa h i) st).failWaiters h 0x05 i st).settleSlot q))) ∧
    (s.dev.startable q 0x08 = some e →
      (d.word h (d.eventVa h i) = .ok w →
        (w.testBit 63 = true → Gives (.eventWait q) s ((d.endWaiter q e 6 0).settleSlot q)) ∧
        (w.testBit 63 = false → ringDiff 31 w e.target < 2 ^ 30 → Gives (.eventWait q) s ((d.endWaiter q e 0 0).settleSlot q)) ∧
        (w.testBit 63 = false → 2 ^ 30 ≤ ringDiff 31 w e.target → Gives (.eventWait q) s (d.settleSlot q))) ∧
      (d.word h (d.eventVa h i) = .error st → st ≠ 0 → st ≠ 6 →
        Gives (.eventWait q) s (((d.wordError h q e.who (d.eventVa h i) st).failWaiters h 0x08 i st).settleSlot q))) ∧
    (s.dev.startable q 0x06 = some e →
      let c := s.dev
      let va := c.fenceVa h i
      let d := c.seenVa h va 8
      (c.rd Reg.HOOP_FENCES_FENCES h ≤ i ∨ v.testBit 63 = true → Gives (.fenceSignal q) s ((c.beginEnd q e 3).settleSlot q)) ∧
      (i < c.rd Reg.HOOP_FENCES_FENCES h → v.testBit 63 = false →
        (∀ w, d.word h va = .ok w →
          (w.testBit 63 = true → Gives (.fenceSignal q) s ((d.beginEnd q e 5).settleSlot q)) ∧
          (w.testBit 63 = false → Gives (.fenceSignal q) s (((d.setWord h va (Nat.max w v)).beginEnd q e 0).settleSlot q))) ∧
        (d.word h va = .error st →
          Gives (.fenceSignal q) s ((((d.wordError h q e.who va st).failWaiters h 0x05 i st).beginEnd q e st).settleSlot q)))) ∧
    (s.dev.live = true →
      Gives (.fenceWaitSatisfied q) s ((s.dev.fencesSatisfied q).settleSlot q) ∧
      Gives (.eventWaitSatisfied q) s ((s.dev.eventsSatisfied q).settleSlot q)) ∧
    (let c := s.dev
     c.waiters (fun n _ => n == q) 0x05 = [(q, e)] → c.entryWaits q e.id = true → c.waitNodes (fun x => x.queue == q) 3 = [] →
      let d := c.seenVa h (c.fenceVa h i) 8
      (d.fenceTry h i v = none → c.fencesSatisfied q = d) ∧
      (d.fenceTry h i v = some (st, w) → (st = 0 ∨ st = 5 → c.fencesSatisfied q = d.endWaiter q e st w) ∧
        (st ≠ 0 → st ≠ 5 → c.fencesSatisfied q = (d.wordError h q e.who (d.fenceVa h i) st).failWaiters h 0x05 i st))) ∧
    (let c := s.dev
     c.waiters (fun n _ => n == q) 0x08 = [(q, e)] → c.entryWaits q e.id = true → c.waitNodes (fun x => x.queue == q) 6 = [] →
      let d := c.seenVa h (c.eventVa h i) 8
      (d.eventTry h i e.target = none → c.eventsSatisfied q = d) ∧
      (d.eventTry h i e.target = some st → (st = 0 ∨ st = 6 → c.eventsSatisfied q = d.endWaiter q e st 0) ∧
        (st ≠ 0 → st ≠ 6 → c.eventsSatisfied q = d.eventBad h q e.who i st))) ∧
    (∀ (a n : Nat) (y : INode), let c := s.dev
      c.nodeWaits a n = true →
      (c.waiters (fun m _ => m == q) 0x05 = [] → c.waitNodes (fun x => x.queue == q) 3 = [(a, n, y)] →
        let d := c.seenVa h (c.fenceVa h (fieldLe y.params 0 4)) 8
        d.fenceTry h (fieldLe y.params 0 4) (fieldLe y.params 8 8) = some (0, w) → c.fencesSatisfied q = d.endWaitNode a n 0 w) ∧
      (c.waiters (fun m _ => m == q) 0x08 = [] → c.waitNodes (fun x => x.queue == q) 6 = [(a, n, y)] →
        let d := c.seenVa h (c.eventVa h (fieldLe y.params 0 4)) 8
        d.eventTry h (fieldLe y.params 0 4) y.target = some 0 → c.eventsSatisfied q = d.endWaitNode a n 0 0))

/-- SESSION_COMMIT and SESSION_REJECT end with the status of the check that fails, settle at once a session with no write in flight, and wait while
there is one or an earlier settlement waits (R315 to R317); growth that the pool or the quota does not allow ends a commit with status 8 (R308).
SETTLEMENT_WAIT_DONE does the same for the one that waited; SESSION_RELEASE frees a released session's blocks, unless it is damaged, and posts its
release (R309, R320). WEIGHT_FLIP of two allowed slots ends with OK and is pending from its retirement on, of others ends with status 3 (R28, R335,
R339); CHAIN has the slot fetch its
run (R66), and one out of range ends with status 3; FLIP_DRAINED ends the draining of a hoop whose older bindings are over (R337). -/
def Obligations.SettlementsFlipsChains : Prop :=
  (∀ (q si : Nat) (s : State) (e : Entry),
      let h := (s.dev.queue q).hoop
      let x := fieldLe e.bytes 8 4
      let n := fieldLe e.bytes 12 4
      let d := (s.dev.begin_ q e.id).sessMet h x
      let g := (d.queue q).hoop
      let short := fun (d : Device) (g y n : Nat) => let need := (d.sess y).needs ((d.sess y).committed + n)
        need > 0 ∧ (d.rd Reg.HOOP_STATUS_OVER_QUOTA g = 1 ∨ d.rd Reg.HOOP_KVFREE_HBM_FREE g < need)
      let grows := fun (d : Device) (y n : Nat) => d.growSess y ((d.sess y).needs ((d.sess y).committed + n))
      let commits := fun (d d2 : Device) (y n : Nat) => let z := d.sess y
        ((d2.modSess y (fun z => { z with committed := z.committed + n })).finish q e.id 0 (z.committed + n)).settleSlot q
      let rejects := fun (d : Device) (y : Nat) => ((d.rejectSess y).finish q e.id 0).settleSlot q
      let ends := fun (d : Device) st => (d.finish q e.id st).settleSlot q
      (s.dev.startable q 0x09 = some e →
        (s.dev.settling x = true → Gives (.sessionCommit q) s (d.settleSlot q)) ∧
        (s.dev.settling x = false →
          (4096 < n → Gives (.sessionCommit q) s (ends d 3)) ∧
          (∀ st, n ≤ 4096 → d.settleCheck g x n = some st → Gives (.sessionCommit q) s (ends d st)) ∧
          (n ≤ 4096 → d.settleCheck g x n = none →
            ((d.sess x).writes ≠ [] → Gives (.sessionCommit q) s (d.settleSlot q)) ∧
            ((d.sess x).writes = [] →
              (short d g x n → Gives (.sessionCommit q) s (ends d 8)) ∧
              (¬ short d g x n →
                (∀ o, grows d x n = .error o → Gives (.sessionCommit q) s (ends (d.poolError g o 1) 0xA)) ∧
                (∀ d2, grows d x n = .ok d2 → Gives (.sessionCommit q) s (commits d d2 x n))))))) ∧
      (s.dev.startable q 0x0A = some e →
        (s.dev.settling x = true → Gives (.sessionReject q) s (d.settleSlot q)) ∧
        (s.dev.settling x = false →
          (∀ st, d.settleCheck g x 0 = some st → Gives (.sessionReject q) s (ends d st)) ∧
          (d.settleCheck g x 0 = none →
            ((d.sess x).writes ≠ [] → Gives (.sessionReject q) s (d.settleSlot q)) ∧
            ((d.sess x).writes = [] → Gives (.sessionReject q) s (rejects d x))))) ∧
      (s.dev.live = true →
        let c := s.dev
        ((c.sess si).writes ≠ [] → Gives (.settlementWaitDone si) s c) ∧
        ((c.sess si).writes = [] → x = si →
          (c.waiters (fun _ _ => true) 0x09).filter (fun y => fieldLe y.2.bytes 8 4 == si)
            ++ (c.waiters (fun _ _ => true) 0x0A).filter (fun y => fieldLe y.2.bytes 8 4 == si) = [(q, e)] →
          (entOp e.bytes = 0x0A → c.settleCheck h si 0 = none → Gives (.settlementWaitDone si) s (rejects c si)) ∧
          (∀ st, entOp e.bytes = 0x0A → c.settleCheck h si 0 = some st → Gives (.settlementWaitDone si) s (ends c st)) ∧
          (∀ st, entOp e.bytes = 0x09 → n ≤ 4096 → c.settleCheck h si n = some st → Gives (.settlementWaitDone si) s (ends c st)) ∧
          (entOp e.bytes = 0x09 → n ≤ 4096 → c.settleCheck h si n = none →
            (short c h si n → Gives (.settlementWaitDone si) s (ends c 8)) ∧
            (¬ short c h si n →
              (∀ o, grows c si n = .error o → Gives (.settlementWaitDone si) s (ends (c.poolError h o 1) 0xA)) ∧
              (∀ d2, grows c si n = .ok d2 → Gives (.settlementWaitDone si) s (commits c d2 si n))))) ∧
        ((c.sess si).rel = false → Gives (.sessionRelease si) s c) ∧
        ((c.sess si).rel = true →
          let c := c.sessMet (c.sess si).hoop si
          let y := c.sess si
          (y.rel = false ∨ c.sessBusy si = true → Gives (.sessionRelease si) s c) ∧
          (y.rel = true → c.sessBusy si = false →
          let d2 := if y.state = 3 then c.wr Reg.HOOP_KVUSE_DAMAGED y.hoop (c.rd Reg.HOOP_KVUSE_DAMAGED y.hoop - 1)
            else (c.freeBlocks si).wr Reg.HOOP_KVUSE_LIVE y.hoop (c.rd Reg.HOOP_KVUSE_LIVE y.hoop - 1)
          Gives (.sessionRelease si) s ((((d2.setSess si {}).objWrite y.hoop y.handle 0 0 si).relPost y.hoop y.handle 3).overQuota y.hoop))))) ∧
  (∀ (q h : Nat) (s : State) (e : Entry),
      let g := (s.dev.queue q).hoop
      let a := fieldLe e.bytes 8 1
      let b := fieldLe e.bytes 9 1
      let target := fieldLe e.bytes 8 8
      let n := fieldLe e.bytes 16 4
      (s.dev.startable q 0x0B = some e →
        (s.dev.flipRefused g a b = true → Gives (.weightFlip q) s ((s.dev.beginEnd q e 3).settleSlot q)) ∧
        (s.dev.flipRefused g a b = false → Gives (.weightFlip q) s ((s.dev.beginEnd q e 0).settleSlot q))) ∧
      (entOp e.bytes = 0x0B →
        let x := s.dev.hx g
        s.dev.retire q e 0 = (((s.dev.setHx g { x with
            flips := x.flips ++ [(a, b, s.dev.fcNow)]
            flipSlots := x.flipSlots ++ [s.dev.rd (Reg.HOOP_SEGMAP_MAP a) g, s.dev.rd (Reg.HOOP_SEGMAP_MAP b) g] }).wr Reg.HOOP_FLIP_PENDING g 1).retireAs
              q e 0) ∧
        ∀ st, st ≠ 0 → s.dev.retire q e st = s.dev.retireAs q e st) ∧
      (s.dev.startable q 0x0C = some e →
        (target % 64 = 0 → 1 ≤ n → n ≤ 65536 →
          Gives (.chain q) s (((s.dev.beginEnd q e 0).modQueue q (fun x => { x with chain := some (target, n, e.ptr) })).settleSlot q)) ∧
        (target % 64 ≠ 0 ∨ n = 0 ∨ 65536 < n →
          Gives (.chain q) s (((s.dev.beginEnd q e 3).modQueue q (fun x => { x with rptr := (x.rptr + 1) % 2 ^ 32 })).settleSlot q))) ∧
      (s.dev.live = true → h < 8 →
        (s.dev.hoopState h = 0 ∨ s.dev.oldBound h = true ∨ s.dev.rd Reg.HOOP_FLIP_DRAINED h = s.dev.rd Reg.HOOP_FLIP_APPLIED h →
          Gives (.flipDrained h) s s.dev) ∧
        (s.dev.hoopState h ≠ 0 → s.dev.oldBound h = false →
          s.dev.rd Reg.HOOP_FLIP_DRAINED h ≠ s.dev.rd Reg.HOOP_FLIP_APPLIED h →
          ∃ d2 : Device, Gives (.flipDrained h) s d2 ∧ d2.rd Reg.HOOP_FLIP_DRAINED h = s.dev.rd Reg.HOOP_FLIP_APPLIED h % 2 ^ Reg.HOOP_FLIP_DRAINED.width ∧
            d2.rd Reg.HOOP_FLIP_DRAINING h = 0 ∧ (d2.hx h).oldMap = [] ∧ d2.mem = s.dev.mem)))


/-- SLOT_FETCH of a slot that may fetch takes the next entry of its chained run, else of its ring, and settles its slot (R43, R61, R66, R76): at the
cached write pointer it re-checks, a read in the host tier is opened or taken, a rewritten segment descriptor holds it. MAPPER_RUN wakes the rung
slots and gives the candidates slots (R75, R76); QDB_WPTR in range updates the shadow pointer and one out of range is recorded (R72), after the
perturbation it meets (R448); ENTRY_RETIRE retires an entry that may (R55, R71, R90) and counts its latency. CONFIRMING_READ_DONE confirms the oldest
record and sends its vector, or stops the queue at it (R92 to R95). WHEY_DESCRIPTOR_START executes the next whey descriptor, and the last one of an
entry ends it with the byte count (R299, R300); NODE_COMPLETE of a node that ended with OK lowers its successors' counters, releases early kernels and
starts what can start, and of one that failed cancels its successors (R84 to R89). -/
def Obligations.SlotsAndNodes : Prop :=
  (∀ (s : State) (q : Nat) (fn : Nat) (v : W32),
      let d := s.dev
      let x := d.queue q
      d.live = true →
      (∀ k, k < 128 → (d.slot k).queue = q →
        let free := (d.slot k).state = 1 ∧ x.state = 2 ∧ x.stopFetch = false ∧ d.hoopState x.hoop = 1 ∧ d.admits x.hoop x.cls = true ∧ d.fetchRoom x = true
        let va := match x.chain with | some (a, _, _) => a | none => x.ring + 64 * (x.rptr % 2 ^ x.sizeLog2)
        let slot := d.slotOf x.hoop (d.curMap x.hoop) (bits va 47 44)
        let reading := d.flow.reads.any (fun (r : Nat × HRead) => r.2.kind == 6 && r.2.a == q)
        let pre := x.pre.find? (fun y => y.1 == va)
        (¬ free → Gives (.slotFetch k) s d) ∧
        (free → x.chain = none → x.rptr = (d.slot k).cached → Gives (.slotFetch k) s (d.settleSlot q)) ∧
        (free → (x.chain ≠ none ∨ x.rptr ≠ (d.slot k).cached) →
          (d.segClosed x.hoop slot = true → Gives (.slotFetch k) s (d.settleSlot q)) ∧
          (d.segClosed x.hoop slot = false →
            let d := d.seenVa x.hoop va 64
            (∀ b, d.readVa x.hoop va 64 = .ok b → Gives (.slotFetch k) s ((d.takeEntry q b none).settleSlot q)) ∧
            (∀ st, d.readVa x.hoop va 64 = .error st → st ≠ hostTier →
              let d2 := if st = 0xA then d.dataError x.hoop q 0xFFFFFFFF x.rptr
                ((d.badIn (d.seg x.hoop (d.slotOf x.hoop (d.curMap x.hoop) (bits va 47 44))) (va % 2 ^ 44) 64).getD (d.tableAddr x.hoop)) else d
              Gives (.slotFetch k) s ((d2.takeEntry q (List.replicate 64 0) (some st)).settleSlot q)) ∧
            (d.readVa x.hoop va 64 = .error hostTier →
              (∀ y, pre = some y →
                Gives (.slotFetch k) s ((d.takeEntry q (slice y.2 0 64) (if y.2.length < 64 then some 0xA else none)).settleSlot q)) ∧
              (pre = none → reading = true → Gives (.slotFetch k) s (d.settleSlot q)) ∧
              (pre = none → reading = false → d.mayMaster (d.ownerFn x.hoop) = false →
                Gives (.slotFetch k) s ((d.takeEntry q (List.replicate 64 0) (some 0xA)).settleSlot q)) ∧
              (pre = none → reading = false → d.mayMaster (d.ownerFn x.hoop) = true →
                let rd : HRead := { kind := 6, a := q, b := va, c := 0, fn := d.ownerFn x.hoop,
                                    addr := (d.seg x.hoop (d.slotOf x.hoop (d.curMap x.hoop) (bits va 47 44))).base + va % 2 ^ 44 }
                Gives (.slotFetch k) s ((d.openRead rd 64).settleSlot q)))))) ∧
      (let woken := (d.work.slots.filter (fun (x : Nat × Slot) => x.2.state ≥ 3 && (d.queue x.2.queue).rung && (d.queue x.2.queue).state == 2
          && d.hoopState (d.queue x.2.queue).hoop == 1)).map (·.1)
       let d2 := woken.foldl (fun d k => (d.setSlot k { d.slot k with cached := (d.queue (d.slot k).queue).shadow }).setSlotState k 1) d
       ∃ d3 : Device, Gives .mapperRun s d3 ∧ d3.mem = d.mem ∧ d3.cores = d.cores ∧
         (d2.candidates.all (fun q => (d2.slotFor q).isNone) = true → d3 = d2) ∧
         (∀ k, d2.candidates = [q] → d2.slotFor q = some k → (d2.mapTo q k).candidates = [] →
           d3 = d2.mapTo q k ∧ (d3.slot k).queue = q ∧ (d3.slot k).state = 1)) ∧
      (q < 4096 → (fn = 0 ∨ d.ownerFn x.hoop = fn) →
        (d.writesHeld = true →
          let bt := { d.boot with held := d.boot.held ++ [.doorbell q v.toNat] }
          Gives (.qdbWptr fn q v) s { d with boot := bt }) ∧
        (d.writesHeld = false →
        let d2 := d.perturb 4 x.hoop
        let wait := Nat.max (d.perturbDelay 4 x.hoop) (d.ringBehind q)
        (x.state = 0 ∨ 3 ≤ d.hoopState x.hoop → Gives (.qdbWptr fn q v) s d) ∧
        (x.state ≠ 0 → d.hoopState x.hoop < 3 →
          (wait ≠ 0 → let st := { d2.stat with late := d2.stat.late ++ [(d2.clock.now + wait, .doorbell q v.toNat)] }
            Gives (.qdbWptr fn q v) s { d2 with stat := st }) ∧
          (wait = 0 → Gives (.qdbWptr fn q v) s (d2.ringNow q v.toNat))))) ∧
      (x.state ≠ 0 → d.hoopState x.hoop < 3 →
        let far := ringDiff 32 v.toNat x.rptr > 2 ^ x.sizeLog2 ∨ ringDiff 32 v.toNat x.shadow ≥ 2 ^ 31
        (¬ far → d.ringNow q v.toNat = d.setQueue q { x with shadow := v.toNat, rung := true }) ∧
        (far → d.ringNow q v.toNat =
          d.post { code := 0x11, hoop := x.hoop, queue := q, detail := le 4 v.toNat ++ le 4 x.shadow ++ le 4 x.rptr })) ∧
      (∀ i, (x.entries[i]? = none → Gives (.entryRetire q i) s d) ∧
        (∀ e, x.entries[i]? = some e →
          (d.mayRetire x i e = false → Gives (.entryRetire q i) s d) ∧
          (d.mayRetire x i e = true →
            let d2 := d.retire q e (e.done.getD 0)
            Gives (.entryRetire q i) s (((d2.cnt x.hoop 14).sample x.hoop 0 (d2.clock.now - e.since.now)).settleSlot q)))) ∧
      (∀ c : Cpl, (x.recs.findSome? (fun r => r.tag) = none → Gives (.confirmingReadDone q c) s d) ∧
        (∀ r tag, x.recs.findSome? (fun r => r.tag) = some tag → x.recs.find? (fun r => r.tag == some tag) = some r →
          let d2 := d.closeRead tag
          (c ≠ .sc → Gives (.confirmingReadDone q c) s (d2.completionFault q r)) ∧
          (c = .sc → let d3 := d2.setQueue q { x with recs := x.recs.erase r }
            Gives (.confirmingReadDone q c) s ((if r.irq ∧ x.state ≠ 3 then d3.sendVector r.fn r.vec else d3).writeRecs q 66))))) ∧
  (∀ (s : State),
      s.dev.live = true →
      (s.dev.wheyNext = none → Gives .wheyDescriptorStart s s.dev) ∧
      (∀ (h : Nat) (w : Whey) (rest : List Whey) (d2 : Device) (r : Except Nat (Option Bytes)), s.dev.wheyNext = some h →
        let wk := { s.dev.work with lastWhey := h }
        let d : Device := { s.dev with work := wk }
        (d.hx h).whey = w :: rest → d.wheySource w = (d2, r) →
        let e := d2.entry? w.queue w.entry
        let sum := (e.map (fun (e : Entry) => e.result)).getD 0
        let map := (e.map (fun (e : Entry) => e.map)).getD (d2.curMap h)
        let va := fieldLe w.bytes 16 8
        let slot := d2.slotOf h map (bits va 47 44)
        let fails := fun (d : Device) st =>
          ((d.setHx h { d.hx h with whey := rest.filter (fun y => !(y.queue == w.queue && y.entry == w.entry)) }).wheyCount h false).finish w.queue w.entry st sum
        (∀ st, r = .error st → Gives .wheyDescriptorStart s (fails d2 st)) ∧
        (r = .ok none → Gives .wheyDescriptorStart s d2) ∧
        (∀ b, r = .ok (some b) →
          (d2.segClosed h slot = true → Gives .wheyDescriptorStart s d2) ∧
          (d2.segClosed h slot = false →
            (d2.storeVa h map va b = .error 0xA → Gives .wheyDescriptorStart s (fails (d2.dataError h w.queue
              (d2.entWho w.queue w.entry).2 (d2.entWho w.queue w.entry).1 (d2.tableAddr h + 32 * slot)) 0xA)) ∧
            (∀ st, d2.storeVa h map va b = .error st → st ≠ 0xA → Gives .wheyDescriptorStart s (fails d2 st)) ∧
            (∀ d3, d2.storeVa h map va b = .ok d3 →
              let d4 := ((d3.setHx h { d3.hx h with whey := rest }).wheyDrop w).wheyCount h true
              (w.last = true → Gives .wheyDescriptorStart s (d4.finish w.queue w.entry 0 (sum + b.length))) ∧
              (w.last = false → Gives .wheyDescriptorStart s (d4.modQueue w.queue (fun x => { x with entries := x.entries.map (fun e =>
                if e.id = w.entry then { e with result := e.result + b.length } else e) }))))))) ∧
      (∀ (i n : Nat) (x : Inst) (r : RNode) (y : INode) (st : Nat), s.dev.inst? i = some x → s.dev.rnode? x n = some r →
        Tab.find? x.nodes n = some y → y.done = some st →
        let d := s.dev.modNode i n (fun y => { y with seen := true })
        (y.seen = true → Gives (.nodeComplete i n) s s.dev.serveCredits) ∧
        (y.seen = false → st = 0 → Gives (.nodeComplete i n) s
          (((r.succ.foldl (fun d m =>
            let d := d.modNode i m (fun z => { z with counter := z.counter - 1 })
            match (d.inst? i).bind (fun (s : Inst) => Tab.find? s.nodes m), d.nodeKernel i m with
            | some z, some ki => if z.counter = 0 then d.release ki else d
            | _, _ => d) d).startNodes i).endInst i).serveCredits) ∧
        (y.seen = false → st ≠ 0 → Gives (.nodeComplete i n) s
          (((r.succ.foldl (fun d m => d.cancelNode i x.nodes.length m) (d.cancelDescs i n)).startNodes i).endInst i).serveCredits)))

/-! Dispatch, the wheel and the life of hoops -/

/-- BLOCK_CREDIT gives a core that runs a kernel its next block, but lets its credit wait in a held sub-slot
(R462), and lets the credit of a free core wait its turn; a waiting credit is served by the
kernel picked for the core, at once, or after the stagger while the cluster's other core holds the kernel (R106 to R109), or later where a perturbation
delays it (R448). STAGGERED_HAND_OUT gives the core the block that it waited for. A block given lies in its place with the registers and generators of
its start (R98 to R101). BLOCK_RETIRE ends a block whose threads have exited and whose operations have completed, and its kernel with the last one (R106,
R166); a block with a deferred fault faults (R292). BARRIER_STRANDED faults a stranded block (R126, R127). KERNEL_WATCHDOG aborts a kernel at its
age, also one that faulted at the same local time (R47, R138). -/
def Obligations.Blocks : Prop :=
  (∀ (core ki : Nat) (k : Kernel) (s : State),
      s.dev.live = true → core < 256 →
      let d := s.dev.perturb 3 (coreDie core)
      let late := s.dev.perturbDelay 3 (coreDie core)
      (late ≠ 0 →
        let st := { d.stat with late := d.stat.late ++ [(d.clock.now + late, .blockCredit core)] }
        Gives (.blockCredit core) s { d with stat := st }) ∧
      (late = 0 →
        ((d.core core).kernel = some ki → d.kernel? ki = none → Gives (.blockCredit core) s d) ∧
        ((d.core core).kernel = some ki → d.kernel? ki = some k →
          (k.fault = none → d.wheel.held = false → Gives (.blockCredit core) s (d.giveBlock core ki k).serveCredits) ∧
          (k.fault = none → d.wheel.held = true →
            let wk := { d.work with credits := d.work.credits ++ [core] }
            Gives (.blockCredit core) s { d with work := wk }) ∧
          (k.fault ≠ none → Gives (.blockCredit core) s d)) ∧
        ((d.core core).kernel = none → d.work.credits.contains core = true → Gives (.blockCredit core) s d.serveCredits) ∧
        ((d.core core).kernel = none → d.work.credits.contains core = false →
          let wk := { d.work with credits := d.work.credits ++ [core] }
          let d1 : Device := { d with work := wk }
          Gives (.blockCredit core) s d1.serveCredits ∧
          (d.work.credits = [] → d1.staggered core = none →
            (d1.pickKernel core = none → Gives (.blockCredit core) s d1) ∧
            (d1.pickKernel core = some (ki, k) →
              (d1.staggers core k = false → Gives (.blockCredit core) s (d1.giveBlock core ki k)) ∧
              (d1.staggers core k = true → Gives (.blockCredit core) s (d1.modCore core (fun c => { c with credit := some ki }))))))) ∧
      ((s.dev.core core).kernel ≠ none ∨ s.dev.staggered core = none → Gives (.staggeredHandOut core) s s.dev) ∧
      ((s.dev.core core).kernel = none → s.dev.staggered core = some (ki, k) →
        Gives (.staggeredHandOut core) s (s.dev.giveBlock core ki k).serveCredits) ∧
      (∀ b k1 p c2, k.take (coreDie core) = some (b, k1) → (d.core core).freePlace k.resident = some p →
        let k2 := d.claimRuns k1
        let quarters := placeGroups k.groups ((List.range 4).map ((d.core core).placesFree k))
        (d.core core).takeEnts p k.code k.threads (quarters.mapIdx (fun g q => (g, q))) = some c2 → k.inst = none →
        let d2 := d.giveBlock core ki k
        (∃ epoch clean, d2.block? core p = some { k2.block ki b core epoch quarters with clean := clean }) ∧
        (d2.core core).ents = c2.ents ∧ (d2.core core).credit = none ∧
        (d2.kernel? ki).map (fun k => (k.nextBlock, k.outstanding, k.started)) = some (k2.nextBlock, k2.outstanding + 1, true))) ∧
  (∀ (core p ki : Nat) (k : Kernel) (b : Block) (s : State),
      s.dev.live = true →
      ((s.dev.core core).kernel = some ki → s.dev.block? core p = some b →
        let done_ := b.allExited && (Tab.vals b.handles).all (fun h => h.done) && b.gstOut.isEmpty && b.loads.isEmpty
          && !(s.dev.core core).upds.any (fun (x : Nat × UpdOp) => x.2.place == some p)
        (done_ = false → Gives (.blockRetire core p) s s.dev.serveCredits) ∧
        (∀ f, done_ = true → b.lateFault = some f →
          Gives (.blockRetire core p) s (s.dev.blockFault core p b.last.2.1 b.last.2.2 b.last.1 f).serveCredits) ∧
        (done_ = true → b.lateFault = none → s.dev.kernel? ki = some k →
          let d := (((s.dev.ringCtl (coreDie core) k.home).dropBlock core p 0).modKernel ki
            (fun k => { k with outstanding := k.outstanding - 1, retired := k.retired + 1 })).freeIdle ki
          ∀ k2, d.kernel? ki = some k2 →
            (k2.spent = false → Gives (.blockRetire core p) s d.serveCredits) ∧
            (k2.spent = true → k2.early = true → Gives (.blockRetire core p) s (d.setKernel ki (k2.freeze d.clock.now)).serveCredits) ∧
            (k2.spent = true → k2.early = false → Gives (.blockRetire core p) s (d.endKernel ki 0).serveCredits))) ∧
      (s.dev.block? core p = some b →
        (s.dev.stranded core p b = true → Gives (.barrierStranded core p) s (s.dev.strandedFault core p)) ∧
        (s.dev.stranded core p b = false → Gives (.barrierStranded core p) s s.dev)) ∧
      (let due := k.started = true ∧ s.dev.rd Reg.HOOP_CFG_WATCHDOG k.hoop ≤ k.age
       let fires := (s.dev.post { code := 0x03, hoop := k.hoop, queue := k.queue, pointer := k.ptr, detail := le 8 k.age }).wr
         Reg.HOOP_STATUS_WATCHDOG_FIRED k.hoop 1
       (s.dev.kernel? ki = some k →
         (due → Gives (.kernelWatchdog ki) s (fires.endKernel ki 1).serveCredits) ∧
         (¬ due → Gives (.kernelWatchdog ki) s s.dev.serveCredits)) ∧
       (s.dev.kernel? ki = none → s.dev.work.faulted.find? (fun x => x.1 == ki && x.2.1 == s.dev.clock.now) = some (ki, s.dev.clock.now, k) →
         (due → Gives (.kernelWatchdog ki) s (fires.abortFaulted k).serveCredits) ∧
         (¬ due → Gives (.kernelWatchdog ki) s s.dev.serveCredits))))


/-- A tick advances the wheel one row, and to row 0 after the last or at tick E of a period change (R41, R44, R368). The manager ticks from its own timer:
TICK_OUT rises, and a time master sends TIME (R365, R366, R369); a worker from the best source it has (R365), from its own timer while a source is missing
or the manager is lost (R363, R365). TICK_SEND and an accepted TICK_IN edge prepare the next tick (R365, R366, R497); SUBSLOT_BOUNDARY begins the next
sub-slot (R45) and OVERRUN_DEBT_REPAID admits a class again (R46). -/
def Obligations.Ticks : Prop :=
  ∀ (s : State) (n h c low : Nat),
    let d := s.dev
    let row := d.rd Reg.WHEEL_STATUS_ROW
    let sub := d.rd Reg.WHEEL_STATUS_SUBSLOT
    ((∀ p e, d.wheel.period = some (p, e) → n < e) →
      (d.tickRow n).rd Reg.WHEEL_STATUS_ROW = (if row + 1 < d.wheel.rows.length then (row + 1) % 256 else 0)
      ∧ (d.tickRow n).rd Reg.WHEEL_STATUS_SUBSLOT = 0) ∧
    (∀ p e, d.wheel.period = some (p, e) → e ≤ n →
      (d.tickRow n).rd Reg.WHEEL_STATUS_ROW = 0 ∧ (d.tickRow n).rd Reg.WHEEL_STATUS_PERIOD_US = p % 2 ^ Reg.WHEEL_STATUS_PERIOD_US.width) ∧
    (d.live = true →
      (d.role = 2 →
        let follows := d.rd Reg.KLZ_TICK_TM_PRESENT = 1 ∧ d.rd Reg.KLZ_ID_TIME_MASTER = 0
        let pins := { d.pins with tickOut := d.pins.tickOut + 1 }
        let klz := { d.klz with ticked := true, adjust := 0 }
        let d1 : Device := { d with pins := pins, klz := klz }
        let d2 := ((d1.wr Reg.KLZ_TICK_SOURCE 0 (if follows then 2 else 1)).wr Reg.KLZ_TICK_MGR_PRESENT 0 1).tickAll (d.klz.number + 1) true false
        let d3 := if d2.rd Reg.KLZ_ID_TIME_MASTER = 1 then
            d2.upPorts.foldl (fun d p =>
              d.sendOn p 0 (d.ownPkt p 0x23 (d.tickPayload (s.dev.klz.number + 2) (d.nextTickAt - d.clock.now).toNat 1))) d2
          else d2
        Gives .wheelTick s d3 ∧ Gives .managerTick s d3 ∧
        Gives .tickSend s (d.upBoardPorts.foldl (fun d p =>
          d.sendOn p 0 (d.ownPkt p 0x20 (d.tickPayload (d.klz.number + 1) (d.nextTickAt - d.clock.now).toNat 1))) d)) ∧
      (d.role ≠ 2 → Gives .managerTick s d ∧ Gives .tickSend s d) ∧
      (∀ x, d.role = 1 → d.klz.conflict = false → bestSrc d.klz.srcs = some x →
        let klz := { d.klz with srcs := [], ticked := true, lost := if x.source ≠ 5 then false else d.klz.lost }
        let d1 : Device := { d with klz := klz }
        let d2 := ((d1.wr Reg.KLZ_TICK_SOURCE 0 x.source).wr Reg.KLZ_TICK_OFFSET_NS 0 (sat16 ((d.clock.now : Int) - x.at_))).wr
          Reg.KLZ_TICK_MGR_PRESENT 0 (b2n !klz.lost)
        Gives .wheelTick s (d2.tickAll x.number (!klz.lost && d.klz.boardUp.isSome) false).sendSummary) ∧
      (d.role = 1 → d.klz.ticked = true → d.klz.lost = false → d.klz.srcs = [] → Gives .missedTick s
        ((((d.count Reg.KLZ_TICK_MISSED 0).wr Reg.KLZ_TICK_SOURCE 0 1).tickAll (d.klz.number + 1) false false)).sendSummary) ∧
      (d.role = 1 → d.klz.lost = true →
        Gives .substituteTick s (((d.count Reg.KLZ_TICK_MISSED 0).wr Reg.KLZ_TICK_SOURCE 0 1).tickAll (d.klz.number + 1) false true).sendSummary) ∧
      (d.role = 1 → d.rd Reg.KLZ_TICK_IN_TICK_IN_EN = 1 → 500 ≤ low → (∀ t, d.klz.tickIn = some t → t + 200000 ≤ d.clock.now) →
        let fed := d.klz.srcs.any (fun x => x.source != 5) || d.klz.conflict
        let klz := { d.klz with tickIn := some d.clock.now }
        (fed = true → Gives (.tickIn low) s (d.setKlz klz)) ∧
        (fed = false →
          Gives (.tickIn low) s (d.setKlz { klz with srcs := d.klz.srcs ++ [⟨5, d.klz.number + 1, d.clock.now + d.rd Reg.KLZ_TICK_IN_TICK_IN_DELAY_NS⟩] }))) ∧
      (low < 500 → Gives (.tickIn low) s d) ∧
      (sub + 1 < d.wheelRow.subs.length → Gives .subslotBoundary s ((d.subEnd.wr Reg.WHEEL_STATUS_SUBSLOT 0 (sub + 1)).subBegin).serveCredits) ∧
      (h < 8 → c < 16 → d.maskAdmits h c = true → d.wheel.held = false →
        Gives (.overrunDebtRepaid h c) s ((d.setDebt h c 0).admitKernels).serveCredits))

/-- A drained hoop goes to SCRUBBING (R36); a scrub ends in HOLD, and frees a hoop that HOOP_DESTROY ended, and the commands that waited for it get their
replies (R38, R409); a segment write takes effect once the accesses in flight are over, and those it held go on (R270). -/
def Obligations.HoopLife : Prop :=
  ∀ (s : State) (h : Nat),
    let d := s.dev
    let blocks := d.cores.any (fun (x : Nat × Core) => !x.2.blocks.isEmpty && d.coreHoop x.1 == h)
    let ends := fun (d : Device) => (d.boot.waits.filter (fun w =>
      (w.wait == 1 || w.wait == 2 || w.wait == 3 || w.wait == 4 || w.wait == 6) && w.hdr.hoop == h)).foldl (fun d w => d.endWait w 0 0) (d.flrEnds h)
    d.live = true → h < 8 →
    (d.hoopState h = 3 → blocks = false → d.slotsOf h = 0 → Gives (.drainComplete h) s (d.wr Reg.HOOP_CFG_STATE h 4)) ∧
    (d.hoopState h ≠ 3 ∨ blocks = true ∨ d.slotsOf h ≠ 0 → Gives (.drainComplete h) s d) ∧
    (d.hoopState h ≠ 4 → Gives (.scrubDone h) s d) ∧
    (d.hoopState h = 4 →
      ((d.hx h).purpose ≠ 1 → Gives (.scrubDone h) s (ends ((d.scrub h).wr Reg.HOOP_CFG_STATE h 2))) ∧
      ((d.hx h).purpose = 1 →
        Gives (.scrubDone h) s (ends ((((((List.range 4).foldl (fun d die => d.setWays h die 0) (d.scrub h)).disown h).clearRegs Reg.hoopTable h []).setHx
          h {}).wr Reg.HOOP_CFG_STATE h 0)) ∧
        (d.boot.waits = [] →
          ∃ d2 : Device, Gives (.scrubDone h) s d2 ∧ d2.hoopState h = 0 ∧ d2.mem = (d.scrub h).mem ∧ d2.hx h = {}))) ∧
    (∀ w, d.boot.waits.find? (fun w => w.wait == 1 && w.hdr.hoop == h) = some w →
      (d.inFlight w = false → Gives (.segmentWriteDrained h) s ((d.segInstall h w.a w.b w.data).endWait w 0 0).releaseHeld.startAgain) ∧
      (d.inFlight w = true → Gives (.segmentWriteDrained h) s d))

/-- The resets of functions: VF_FLR and VF_DISABLE reset the VFs they name (R380, R391), PF_FLR everything that R393 lists, PCIE_LINK_DOWN that and
the link, which PCIE_LINK_UP brings back at a width and rate of Table 15-1; a configuration request completes with Request Retry Status during start-up
and while its function is being reset (R391, R394). BUS_MASTER_ENABLE sets the bit and goes on with
what waited for it (R390, R409); MSIX_UNMASK unmasks a vector and sends one that is pending (R389). -/
def Obligations.Functions : Prop :=
  ∀ (s : State) (fn v : Nat) (on : Bool),
    let d := s.dev
    let reached := fun n => d.awake = true ∧ d.pcie.up = true ∧ d.fnExists n = true ∧ d.life.rindDead = false
    let retry := fun n => d.pcie.crs = true ∨ d.inReset n = true
    let asks := fun (c : Instr) n (d2 : Device) =>
      (¬ reached n → Gives c s d) ∧ (reached n → retry n → Gives c s (d.emit (.completion n .rrs []))) ∧ (reached n → ¬ retry n → Gives c s d2)
    (1 ≤ v → asks (.vfFlr v) v (d.vfReset v 0)) ∧
    (1 ≤ v → v ≤ d.vfs → asks (.vfDisable v) 0 (Device.vfsGone { d with pcie := { d.pcie with vfEnable := v != 1, numVfs := v - 1 } } d.vfs)) ∧
    (v = 0 → Gives (.vfFlr v) s d) ∧
    (v = 0 ∨ d.vfs < v → Gives (.vfDisable v) s d) ∧
    asks .pfFlr 0 d.pfReset ∧
    d.pfReset.vfs = 0 ∧ d.pfReset.pcie.busMaster = 0 ∧ d.pfReset.pcie.entries = [] ∧ d.pfReset.pcie.pend = [] ∧
    asks (.busMasterEnable fn on) fn
      (((({ d with pcie := { d.pcie with busMaster := setBit d.pcie.busMaster fn on } } : Device).flushVectors fn)).ringFetch fn) ∧
    (d.awake = true → d.pcie.up = true → Gives .pcieLinkDown s
      { d.pfReset with
        pcie := { d.pfReset.pcie with up := false, mps := 128, lanes := 0, rate := 0 }
        flow := { d.pfReset.flow with asks := [] } }) ∧
    (d.awake = false ∨ d.pcie.up = false → Gives .pcieLinkDown s d) ∧
    (d.awake = true → d.pcie.up = false → ∃ lanes rate, lanes ∈ pcieWidths ∧ rate ∈ pcieRates ∧
      Gives .pcieLinkUp s { d with pcie := { d.pcie with up := true, crs := d.boot.starting, lanes := lanes, rate := rate } }) ∧
    (d.awake = false ∨ d.pcie.up = true → Gives .pcieLinkUp s d) ∧
    (d.regOpen fn = true → d.stage = 4 → v < (if fn = 0 then 256 else 224) →
      Gives (.msixUnmask fn v) s ((d.setMsix fn v { d.msixEnt fn v with masked := false }).flushVectors fn))

/-! Registers -/

/-- A register write that reaches one register, at its width and without a reserved bit, is that register's write (R9, R384). One that sets a
reserved bit has an undefined effect and stops (R11); one that reaches no register, or that the host cannot bring there, changes nothing. A write of a
vector's entry, of a doorbell page or of an aperture is that write (R382, R385, R389), and one of a configuration field changes that field (R378),
or completes with Request Retry Status (R391, R394). -/
def Obligations.RegisterWrites : Prop :=
  ∀ (s : State) (fn o a w : Nat) (value : W64) (g : RegD) (i b : Nat),
    let v := value.toNat % 2 ^ (8 * w)
    let m := (2 ^ (8 * w) - 1) * 2 ^ (8 * b)
    let vectors := if fn = 0 then 0x10000 ≤ o ∧ o < 0x11000 else 0x8000 ≤ o ∧ o < 0x8E00
    let table := if fn = 0 then 0x10000 else 0x8000
    let go := (a = 0x80008 ∧ w = 8 ∧ v.testBit 32 = true) ∨ (a = 0x8000C ∧ w = 4 ∧ v % 2 = 1)
    (w = 1 ∨ w = 2 ∨ w = 4 ∨ w = 8) →
    (barPlace fn o = some a → ¬ vectors →
      (s.dev.regOpen fn = true → s.dev.decodes a = true →
        (s.dev.placeWrite a w v = none → exec (.registerWrite fn (.bar 0 o) w value) s = .fault .reservedBitWritten) ∧
        (∀ d, s.dev.placeWrite a w v = some d →
          (¬ (go ∧ s.dev.stage = 5) → Gives (.registerWrite fn (.bar 0 o) w value) s d) ∧
          (go → s.dev.stage = 5 → exec (.registerWrite fn (.bar 0 o) w value) s = exec .recoveryGo { s with dev := d })) ∧
        (findReg a = some (g, i, b) → (g.bits ≠ 16 ∨ w = 2) → g.reached a w = true →
          let x := v % 2 ^ (8 * w) * 2 ^ (8 * b)
          (x &&& g.covered = x → s.dev.placeWrite a w v = some (s.dev.regWrite g i m x)) ∧
          (x &&& g.covered ≠ x → s.dev.placeWrite a w v = none))) ∧
      (s.dev.regOpen fn = false ∨ s.dev.decodes a = false → Gives (.registerWrite fn (.bar 0 o) w value) s s.dev)) ∧
    (barPlace fn o = none → ¬ vectors → Gives (.registerWrite fn (.bar 0 o) w value) s s.dev) ∧
    (vectors → s.dev.regOpen fn = true → s.dev.stage = 4 → o % w = 0 →
      (w < 4 → Gives (.registerWrite fn (.bar 0 o) w value) s s.dev) ∧
      (w = 4 → Gives (.registerWrite fn (.bar 0 o) w value) s (s.dev.msixWrite fn (o - table) v)) ∧
      (w = 8 → Gives (.registerWrite fn (.bar 0 o) w value) s
        ((s.dev.msixWrite fn (o - table) (v % 2 ^ 32)).msixWrite fn (o - table + 4) (v / 2 ^ 32)))) ∧
    (s.dev.regOpen fn = true → s.dev.stage = 4 → o < 2 ^ 24 → o % 4096 = 0 → w = 4 →
      exec (.registerWrite fn (.bar (if fn = 0 then 4 else 2) o) w value) s = exec (.qdbWptr fn (o / 4096) (BitVec.ofNat 32 v)) s) ∧
    Gives (.registerWrite fn (.bar (if fn = 0 then 2 else 4) o) w value) s (s.dev.hostStore fn o (le w v)) ∧
    (let reached := s.dev.awake = true ∧ s.dev.pcie.up = true ∧ s.dev.fnExists fn = true ∧ s.dev.life.rindDead = false
     let retry := s.dev.pcie.crs = true ∨ s.dev.inReset fn = true
     ∀ f, (¬ reached → Gives (.registerWrite fn (.cfg f) w value) s s.dev) ∧
      (reached → retry → Gives (.registerWrite fn (.cfg f) w value) s (s.dev.emit (.completion fn .rrs []))) ∧
      (reached → ¬ retry → Gives (.registerWrite fn (.cfg f) w value) s (s.dev.cfgWrite fn f value.toNat)))

/-- The register writes that have rows of their own: TABLES_LOCK is set once, when R59 holds, and starts the release ring empty
(R55); HEAD of a release ring, an
error ring, a view and a trace ring moves within its ring and lets what waited go on (R55, R422, R424, R442), and one outside it changes nothing; a
management ring is enabled with HEAD and TAIL 0 (R404), its TAIL is its doorbell (R405); a write of STOPPED lets a hoop run again (R445). -/
def Obligations.PointerWrites : Prop :=
  ∀ (s : State) (fn h : Nat) (v : W32) (r : W64),
    let d := s.dev
    d.regOpen fn = true → d.stage = 4 →
    (reaches fn h = true →
      (let fits := d.rd Reg.HOOP_CFG_TABLES_LOCK h = 0 ∧ 10 ≤ d.rd Reg.HOOP_OBJTAB_ENTRIES_LOG2 h ∧ d.rd Reg.HOOP_OBJTAB_ENTRIES_LOG2 h ≤ 20 ∧ 8 ≤ d.rd Reg.HOOP_RELQ_SIZE_LOG2 h ∧
         d.rd Reg.HOOP_RELQ_SIZE_LOG2 h ≤ 20 ∧ (d.tableRanges h).all (d.tableFits h) = true
       (fits → Gives (.hoopCfgTablesLock fn h) s
         (((d.wr Reg.HOOP_CFG_TABLES_LOCK h 1).wr Reg.HOOP_RELQ_PTR_TAIL h 0).wr Reg.HOOP_RELQ_PTR_HEAD h 0)) ∧
       (¬ fits → Gives (.hoopCfgTablesLock fn h) s d)) ∧
      (ringDiff 32 (d.rd Reg.HOOP_RELQ_PTR_TAIL h) v.toNat ≤ 2 ^ d.rd Reg.HOOP_RELQ_SIZE_LOG2 h →
        Gives (.hoopRelqPtrHead fn h v) s (((d.wr Reg.HOOP_RELQ_PTR_HEAD h v.toNat).relDrain h (d.hx h).held).waitsGo)) ∧
      (2 ^ d.rd Reg.HOOP_RELQ_SIZE_LOG2 h < ringDiff 32 (d.rd Reg.HOOP_RELQ_PTR_TAIL h) v.toNat → Gives (.hoopRelqPtrHead fn h v) s d) ∧
      (ringDiff 32 (d.rd Reg.HOOP_ERRQ_PTR_TAIL h) v.toNat < 2 ^ 31 →
        let d2 := d.wr Reg.HOOP_ERRQ_PTR_HEAD h v.toNat
        Gives (.hoopErrqPtrHead fn h v) s (((if d.rd Reg.HOOP_ERRQ_ENABLE h = 1 then d2.errOverflow h else d2).flushAll (· == h)).waitsGo)) ∧
      (2 ^ 31 ≤ ringDiff 32 (d.rd Reg.HOOP_ERRQ_PTR_TAIL h) v.toNat → Gives (.hoopErrqPtrHead fn h v) s d) ∧
      (ringDiff 32 (d.rd Reg.HOOP_TRACE_PTR_TAIL h) v.toNat < 2 ^ 31 →
        Gives (.hoopTracePtrHead fn h v) s (d.wr Reg.HOOP_TRACE_PTR_HEAD h v.toNat)) ∧
      (2 ^ 31 ≤ ringDiff 32 (d.rd Reg.HOOP_TRACE_PTR_TAIL h) v.toNat → Gives (.hoopTracePtrHead fn h v) s d) ∧
      (r.toNat % 2 = 0 → r.toNat / 2 ^ 5 % 2 ^ 7 = 0 → r.toNat / 2 ^ 48 = 0 → ∃ d1 : Device,
        Gives (.hoopErrqEnable fn h r) s (((d1.wr Reg.HOOP_ERRQ_ENABLE h 0).flushAll (· == h)).waitsGo) ∧
        d1 = (if d.rd Reg.HOOP_ERRQ_ENABLE h = 1 then (d.wr Reg.HOOP_ERRQ_SIZE_LOG2 h (d.rd Reg.HOOP_ERRQ_SIZE_LOG2 h)).wr Reg.HOOP_ERRQ_BASE h
            (d.rd Reg.HOOP_ERRQ_BASE h)
          else (d.wr Reg.HOOP_ERRQ_SIZE_LOG2 h (r.toNat / 2 % 16)).wr Reg.HOOP_ERRQ_BASE h (r.toNat / 2 ^ 12))) ∧
      (r.toNat % 2 = 1 → r.toNat / 2 ^ 5 % 2 ^ 7 = 0 → r.toNat / 2 ^ 48 = 0 → d.rd Reg.HOOP_ERRQ_ENABLE h = 0 → 6 ≤ r.toNat / 2 % 16 →
        r.toNat / 2 % 16 ≤ 14 → d.hbmWritable h (r.toNat / 2 ^ 12 * 4096) 1 = true →
        ∃ d2 : Device, Gives (.hoopErrqEnable fn h r) s d2 ∧ d2.rd Reg.HOOP_ERRQ_ENABLE h = 1 ∧ d2.rd Reg.HOOP_ERRQ_PTR_TAIL h = 0 ∧
          d2.rd Reg.HOOP_ERRQ_PTR_HEAD h = 0 ∧ d2.rd Reg.HOOP_ERRQ_SIZE_LOG2 h = r.toNat / 2 % 16 ∧ d2.mem = d.mem) ∧
      (∃ d2 : Device, Gives (.hoopWatchStopped fn h) s d2.admitKernels.serveCredits ∧ d2.rd Reg.HOOP_WATCH_STOPPED h = 0 ∧ d2.mem = d.mem)) ∧
    (d.regOpen 0 = true →
      (ringDiff 32 (d.rd Reg.ERRQ_PTR_TAIL) v.toNat < 2 ^ 31 →
        Gives (.errqPtrHead v) s ((((d.wr Reg.ERRQ_PTR_HEAD 0 v.toNat).errOverflow 8).flushAll (fun _ => true)).waitsGo)) ∧
      (2 ^ 31 ≤ ringDiff 32 (d.rd Reg.ERRQ_PTR_TAIL) v.toNat → Gives (.errqPtrHead v) s d)) ∧
    (fn < 9 → d.ringOn fn = false → r.toNat % 2 = 1 → r.toNat / 2 % 8 = 0 → 2 ≤ r.toNat / 16 % 16 → r.toNat / 16 % 16 ≤ 8 →
      r.toNat / 256 % 16 = 0 →
      ∃ d2 : Device, Gives (.mgmtRingEnable fn r) s d2 ∧ d2.ringOn fn = true ∧ d2.ringHead fn = 0 ∧ d2.rd Reg.MGMT_TAIL_TAIL fn = 0 ∧
        d2.ringLog2 fn = r.toNat / 16 % 16 ∧ d2.mem = d.mem) ∧
    (fn < 9 →
      (ringDiff 32 v.toNat (d.ringHead fn) ≤ 2 ^ d.ringLog2 fn → Gives (.mgmtTail fn v) s ((d.wr Reg.MGMT_TAIL_TAIL fn v.toNat).ringFetch fn)) ∧
      (2 ^ d.ringLog2 fn < ringDiff 32 v.toNat (d.ringHead fn) → Gives (.mgmtTail fn v) s (d.wr Reg.MGMT_STATUS_TAIL_INVALID fn 1)))

/-! Stream engines -/

/-- DESCRIPTOR_START begins a descriptor that may start, after its acquire, as its mode says (R279, R284 to R290, R318, R330); it moves nothing yet, since
lines move as time passes. DESCRIPTOR_COMPLETE ends one with nothing left to move, after the read that releases one which wrote to the host tier (R255,
R290, R292), later where a perturbation delays the completion with its release (R448); WC_BUFFER_ISSUE writes out an engine's oldest complete buffer while
the write pool holds a credit (R294, R296); SPILL_OLD_BLOCK_FREE frees the old block of the move that has ended once no access to it is under way
(R318). -/
def Obligations.StreamEvents : Prop :=
  ∀ (i : Nat) (x : Desc) (s : State),
    let d := s.dev
    d.live = true →
    (d.desc? i = some x →
      (d.descReady i x = false → Gives (.descriptorStart i) s d) ∧
      (d.descReady i x = true →
        let sd := parseSd x.bytes
        let d1 := d.acquireLines x.engine
        let d2 := if sd.mode = 2 then d1.modDesc i (fun x => { x with state := 1, pos := sd.runCount, members := sd.memberCores })
          else if sd.mode = 4 then d1.startSpill i x sd
          else if sd.mode = 5 then d1.modDesc i (fun x => { x with state := 1, pos := sd.runCount })
          else if sd.mode = 6 then d1.modDesc i (fun x => { x with state := 1, pos := sd.count 0 })
          else d1.startMove i x sd
        Gives (.descriptorStart i) s d2)) ∧
    (d.desc? i = some x →
      let waits := d.stat.late.any (fun y => y.2 == .descDone i) || x.state != 2 || !x.due.isEmpty || x.spillOld.isSome
        || (d.engine x.engine).wc.any (fun w => w.descs.contains i)
      let late := d.perturbDelay 1 (x.engine / 16)
      let d2 := d.perturb 1 (x.engine / 16)
      (waits = true → Gives (.descriptorComplete i) s d) ∧
      (waits = false → x.rel ≠ none → Gives (.descriptorComplete i) s (d.endDesc i)) ∧
      (waits = false → x.rel = none →
        (late = 0 → x.host = true → Gives (.descriptorComplete i) s (d2.descRelease i x)) ∧
        (late = 0 → x.host = false → Gives (.descriptorComplete i) s (d2.endDesc i)) ∧
        (late ≠ 0 →
          let st := { d2.stat with late := d2.stat.late ++ [(d2.clock.now + late, .descDone i)] }
          Gives (.descriptorComplete i) s { d2 with stat := st }))) ∧
    (∀ e, let due := (d.engine e).wc.find? (fun w => w.descs.all (fun i => match d.desc? i with | some x => decide (2 ≤ x.state) | none => true))
      (∀ w, due = some w → 0 < (d.pools (e / 16)).write → Gives (.wcBufferIssue e) s ((d.wcIssue e w).postOut e)) ∧
      (due = none ∨ (d.pools (e / 16)).write = 0 → Gives (.wcBufferIssue e) s d)) ∧
    (∀ pool n, d.desc? i = some x → x.spillOld = some (pool, n) →
      let y := d.sess ((parseSd x.bytes).src % 2 ^ 32)
      let g := d.poolOf x.hoop (pool == 1)
      let o := d.blockOff x.hoop (pool == 1) y n
      let busy := d.heldOf g o (2 ^ y.bsize) ≠ [] ∨ d.outOf g o (2 ^ y.bsize) = true
      (busy → Gives (.spillOldBlockFree i) s d) ∧
      (¬ busy → Gives (.spillOldBlockFree i) s ((d.markBlock x.hoop (pool == 1) n false).setDesc i { x with spillOld := none })))

/-! Management commands -/

/-- The commands of hoops and queues that pass R408: each makes its change and replies OK, or is refused by its own rules (R36 to R40, R56, R96, R406,
R411, R412). HOOP_DESTROY begins the scrub, and its reply waits for it (R37); a QUEUE_ABORT, QUEUE_RESET or QUEUE_DESTROY waits where an entry that has
not been fetched lies in the host tier, or where no retirement may begin (R55, R56, R96). -/
def Obligations.ManagementHoopsQueues : Prop :=
  ∀ (h : MHdr) (p : Bytes) (s : State) (d : Device),
    let n := h.hoop
    let f := fieldLe p
    let q := f 0 2
    (s.dev.carries { op := 0x00, hoopScope := true, sb := true, names := true, read := true, afterFatal := true } h p = some d →
      Answers (.mgmtNop h p) s h 0x00 d) ∧
    (s.dev.carries { op := 0x01, names := true, len := (· == 64), create := true } h p = some d →
      (∀ o, firstBad (d.hoopChecks n p) = some o → Refuses (.hoopCreate h p) s h 0x01 d 3 o) ∧
      (firstBad (d.hoopChecks n p) = none → d.storeFits p = false → Refuses (.hoopCreate h p) s h 0x01 d 3 42) ∧
      (firstBad (d.hoopChecks n p) = none → d.storeFits p = true →
        let d1 := (d.clearRegs Reg.hoopTable n []).setHx n {}
        let d2 := (((d1.setHstat n d1.newHstat).assign n p).ownCores (f 0 4) n).wr Reg.HOOP_CFG_HOOP n n
        let d3 := d2.wr Reg.HOOP_CHGROUPS_RESERVE_GROUP n (lowBit 48 (f 8 8))
        Answers (.hoopCreate h p) s h 0x01 ((d3.ownWrite 4 9 (d3.tableAddr n) (List.replicate 1600 0)).wr Reg.HOOP_CFG_STATE n 2))) ∧
    (s.dev.carries { op := 0x02, names := true, len := (· == 64) } h p = some d →
      let same : List (Nat × Bool) := [(41, f 41 1 == d.rd Reg.HOOP_CFG_DEP_MODEL n), (42, f 42 2 == d.rd Reg.HOOP_RECIPES_STORE_MIB n),
        (44, f 44 2 == d.rd Reg.HOOP_FENCES_FENCES n), (46, f 46 2 == d.rd Reg.HOOP_EVENTS_EVENTS n)]
      let bad := minOf (((d.hoopChecks n p ++ same).filter (fun x => !x.2)).map (·.1))
      (∀ o, bad = some o → Refuses (.hoopResize h p) s h 0x02 d 3 o) ∧
      (bad = none → d.removedInUse n p = true → Refuses (.hoopResize h p) s h 0x02 d 0x100) ∧
      (bad = none → d.removedInUse n p = false →
        let gone := without (d.rd Reg.HOOP_CLUSTERS_CLUSTERS n) (f 0 4)
        let d2 := (((d.assign n p).ownCores gone 0).ownCores (f 0 4) n).zeroGroups (without (d.rd Reg.HOOP_CHGROUPS_GROUPS n) (f 8 8))
        Answers (.hoopResize h p) s h 0x02 ((((d2.zeroClusters gone).emptyL1 (f 0 4)).overQuota n).claimHoop n))) ∧
    (s.dev.carries { op := 0x03, names := true } h p = some d →
      let used := d.work.queues.any (fun (x : Nat × Queue) => x.2.state != 0 && x.2.hoop == n)
        || (d.otherHoops n).any (fun x => (List.range 16).any (fun i => let y := d.segOwn x i; y.valid && y.sro && y.owner == n))
      (n = 0 → Refuses (.hoopDestroy h p) s h 0x03 d 3 0) ∧
      (n ≠ 0 → used = true → Refuses (.hoopDestroy h p) s h 0x03 d 0x100) ∧
      (n ≠ 0 → used = false →
        let d2 := (d.wr Reg.HOOP_CFG_STATE n 4).wr Reg.HOOP_CFG_TABLES_LOCK n 0
        WaitsFor (.hoopDestroy h p) s h 0x03 (d2.setHx n { d2.hx n with purpose := 1 }) 3 0 0 [])) ∧
    (s.dev.carries { op := 0x04, hoopScope := true, names := true, reply := 256, read := true } h p = some d →
      Answers (.hoopQuery h p) s h 0x04 d 0 (d.windowBytes n 256)) ∧
    (s.dev.carries { op := 0x10, hoopScope := true, names := true, len := (· == 24) } h p = some d →
      let free := (List.range 4096).find? (fun q => (d.queue q).state == 0)
      let bad := firstBad [(0, 6 ≤ f 0 1 && f 0 1 ≤ 16), (1, f 1 1 ≤ 15), (2, f 2 1 ≤ 1), (3, f 3 1 == 0), (4, vectorOk h.ring (f 4 2)),
        (8, d.ringOk n (f 8 8) (f 0 1)), (16, d.targetOk n (f 16 8) (f 0 1))]
      (free = none ∨ d.rd Reg.HOOP_CFG_TABLES_LOCK n = 0 → Refuses (.queueCreate h p) s h 0x10 d 0x100) ∧
      (∀ j, free = some j → d.rd Reg.HOOP_CFG_TABLES_LOCK n ≠ 0 →
        (∀ o, bad = some o → Refuses (.queueCreate h p) s h 0x10 d 3 o) ∧
        (bad = none →
          let x : Queue := { state := 1, hoop := n, lost := (d.queue j).lost, recs := (d.queue j).recs, ring := f 8 8, sizeLog2 := f 0 1, cls := f 1 1, completion := f 16 8,
                             confirmed := f 2 1 == 1, vector := f 4 2, vecFn := h.ring, owner := f 6 2 }
          Answers (.queueCreate h p) s h 0x10 (d.setQueue j x) j))) ∧
    (s.dev.carries { op := 0x11, hoopScope := true, names := true, len := (· == 24) } h p = some d →
      let bad := firstBad [(0, d.queueOf n q), (2, f 2 1 ≤ 3), (3, f 3 1 == 0), (4, vectorOk h.ring (f 4 2)), (6, f 6 2 == 0), (12, f 12 4 == 0),
        (16, d.targetOk n (f 16 8) (d.queue q).sizeLog2)]
      let set := (f 2 1).testBit 0
      let d2 := if set then d.discard q else d
      (∀ o, bad = some o → Refuses (.queueReset h p) s h 0x11 d 3 o) ∧
      (bad = none → (d.queue q).busy = true → Refuses (.queueReset h p) s h 0x11 d 0x100) ∧
      (bad = none → (d.queue q).busy = false →
        ((d2.queue q).gone ≠ [] → WaitsFor (.queueReset h p) s h 0x11 d2 4 0 0 p) ∧
        ((d2.queue q).gone = [] →
          Answers (.queueReset h p) s h 0x11 ((d2.leaveSlot q).modQueue q (fun x => { x with
            completion := f 16 8, confirmed := (f 2 1).testBit 1, vector := f 4 2, vecFn := h.ring
            rptr := if set then f 8 4 else x.rptr
            shadow := if set then f 8 4 else x.shadow
            rung := false, stopFetch := false, state := 1, pre := [], ctx := none }))))) ∧
    (s.dev.carries { op := 0x12, hoopScope := true, names := true, len := fun n => 6 ≤ n && n ≤ 4092, hold := false } h p = some d →
      let bad := firstBad ((abortList p).mapIdx (fun i q => (4 + 2 * i, d.queueOf n q)))
      let sized := 1 ≤ f 2 2 ∧ f 2 2 ≤ 2044 ∧ p.length = 4 + 2 * f 2 2
      let r := d.abortQueues n (f 0 2) (abortList p).eraseDups
      (¬ sized → Refuses (.queueAbort h p) s h 0x12 d 3 2) ∧
      (∀ o, sized → bad = some o → Refuses (.queueAbort h p) s h 0x12 d 3 o) ∧
      (sized → bad = none → r.2 = true → Answers (.queueAbort h p) s h 0x12 r.1) ∧
      (sized → bad = none → r.2 = false → WaitsFor (.queueAbort h p) s h 0x12 r.1 2 0 0 p)) ∧
    (s.dev.carries { op := 0x13, hoopScope := true, names := true, len := (· == 2) } h p = some d →
      let d2 := d.discard q
      let x := d2.queue q
      (d.queueOf n q = false → Refuses (.queueDestroy h p) s h 0x13 d 3 0) ∧
      (d.queueOf n q = true → (d.queue q).busy = true → Refuses (.queueDestroy h p) s h 0x13 d 0x100) ∧
      (d.queueOf n q = true → (d.queue q).busy = false →
        (x.gone ≠ [] → WaitsFor (.queueDestroy h p) s h 0x13 d2 4 0 0 p) ∧
        (x.gone = [] → Answers (.queueDestroy h p) s h 0x13 ((d2.leaveSlot q).setQueue q (if x.lost = [] ∧ x.recs = [] then {}
          else { hoop := x.hoop, lost := x.lost, recs := x.recs })))))

/-- The commands of segments, pools, sessions, recipes, receive queues and routes that pass R408: each makes its change and replies OK, or is refused by
its own rules (R78, R270, R272, R302 to R309, R320, R339, R355, R373). A segment write waits until the accesses in flight are over, and a recipe in the
host tier until it has been read. Where the recipe store puts a binary is the model's choice (log entry 24). -/
def Obligations.ManagementMemory : Prop :=
  ∀ (h : MHdr) (p : Bytes) (s : State) (d : Device),
    let n := h.hoop
    let f := fieldLe p
    (s.dev.carries { op := 0x18, hoopScope := true, names := true, len := fun n => n == 40 || n == 72 || n == 520 } h p = some d →
      (∀ st o, d.segCheck h p = some (st, o) → Refuses (.segmentWrite h p) s h 0x18 d st (if st = 3 then o else 0)) ∧
      (d.segCheck h p = none → WaitsFor (.segmentWrite h p) s h 0x18 d 1 (f 0 1) (f 1 1) (p.drop 8))) ∧
    (s.dev.carries { op := 0x19, hoopScope := true, names := true, reply := 48, read := true } h p = some d →
      let d1 := d.ownRead 4 9 (d.tableAddr n) 1600
      (d1.readDev (d1.tableAddr n) 1600 = none → Refuses (.segmentCheck h p) s h 0x19 d 0xA) ∧
      (∀ b, d1.readDev (d1.tableAddr n) 1600 = some b →
        Answers (.segmentCheck h p) s h 0x19 d1 (d1.rd Reg.HOOP_SEGS_GEN n) (digestBytes (Config.sha384 b)))) ∧
    (s.dev.carries { op := 0x1A, hoopScope := true, names := true, len := (· == 12) } h p = some d →
      let flips := fun (blocks slot : Nat) => blocks != 0 && (d.hx n).flipSlots.contains slot
      let busy := d.flow.sessions.any (fun (x : Nat × Sess) => x.2.state != 0 && d.sessIn n x.1) || flips (f 4 4) (f 0 1) || flips (f 8 4) (f 1 1)
      (busy = true → Refuses (.kvPoolSet h p) s h 0x1A d 0x100) ∧
      (∀ o, busy = false → firstBad (d.poolChecks n p) = some o → Refuses (.kvPoolSet h p) s h 0x1A d 3 o) ∧
      (busy = false → firstBad (d.poolChecks n p) = none →
        let cover := cdiv (f 4 4) 8 + cdiv (f 8 4) 8
        ∃ d1 : Device, Answers (.kvPoolSet h p) s h 0x1A ([(Reg.HOOP_KVPOOL_HBM_VALID, b2n (f 4 4 != 0)), (Reg.HOOP_KVPOOL_HBM_SEG, f 0 1),
            (Reg.HOOP_KVPOOL_HBM_BLOCK_LOG2, f 2 1), (Reg.HOOP_KVPOOL_HBM_BLOCKS, f 4 4), (Reg.HOOP_KVPOOL_CXL_VALID, b2n (f 8 4 != 0)),
            (Reg.HOOP_KVPOOL_CXL_SEG, f 1 1), (Reg.HOOP_KVPOOL_CXL_BLOCK_LOG2, f 2 1), (Reg.HOOP_KVPOOL_CXL_BLOCKS, f 8 4), (Reg.HOOP_KVFREE_HBM_FREE, f 4 4),
            (Reg.HOOP_KVFREE_CXL_FREE, f 8 4)].foldl (fun (d : Device) (x : Fld × Nat) => d.wr x.1 n x.2) d1) ∧
          (f 4 4 = 0 → d1 = d) ∧
          (f 4 4 ≠ 0 → d.mem.lost = none →
            (∀ o a, o < cover → (d.segOwn n (f 0 1)).offsetOf a = some o → d1.mem.get a = 0) ∧
            (∀ a, (d.segOwn n (f 0 1)).offsetOf a = none → d1.mem.get a = d.mem.get a)))) ∧
    (s.dev.carries { op := 0x20, hoopScope := true, names := true, len := (· == 24) } h p = some d →
      let locked := d.rd Reg.HOOP_CFG_TABLES_LOCK n ≠ 0
      let r := d
      let d := d.objSeen n (f 0 4)
      let need := cdiv (Nat.min (f 12 4) 4096) (f 6 2)
      let room := d.rd Reg.HOOP_STATUS_OVER_QUOTA n ≠ 1 ∧ d.rd Reg.HOOP_KVUSE_LIVE n < d.rd Reg.HOOP_SESSIONS_QUOTA n ∧ need ≤ d.rd Reg.HOOP_KVFREE_HBM_FREE n
      let free := Tab.lowestFree d.flow.sessions (d.rd Reg.HOOP_SESSIONS_BASE n) (d.rd Reg.HOOP_SESSIONS_COUNT n)
      (¬ locked → Refuses (.sessionAlloc h p) s h 0x20 r 0x100) ∧
      (∀ st, locked → d.handleFree n (f 0 4) = some st → Refuses (.sessionAlloc h p) s h 0x20 r st) ∧
      (∀ o, locked → d.handleFree n (f 0 4) = none → firstBad (d.allocChecks n p) = some o → Refuses (.sessionAlloc h p) s h 0x20 r 3 o) ∧
      (locked → d.handleFree n (f 0 4) = none → firstBad (d.allocChecks n p) = none →
        (¬ room → Refuses (.sessionAlloc h p) s h 0x20 r 8) ∧
        (room → free = none → Refuses (.sessionAlloc h p) s h 0x20 r 0x100) ∧
        (∀ i, room → free = some i →
          let y : Sess := { state := 1, hoop := n, bsize := f 4 1, tpb := f 6 2, record := f 8 4, blist := f 16 8, maxlen := f 12 4, handle := f 0 4 }
          (∀ o, (d.setSess i y).growSess i need = .error o →
            Refuses (.sessionAlloc h p) s h 0x20 (((d.setSess i y).setSess i {}).poolError n o 1) 0xA) ∧
          (∀ d2, (d.setSess i y).growSess i need = .ok d2 →
            Answers (.sessionAlloc h p) s h 0x20 (((d2.objWrite n (f 0 4) 1 3 i).count Reg.HOOP_KVUSE_LIVE n).overQuota n) i)))) ∧
    (s.dev.carries { op := 0x21, hoopScope := true, names := true, len := (· == 4) } h p = some d →
      let r := d
      let d := d.objSeen n (f 0 4)
      (∀ e, d.objRead n (f 0 4) = .error e → Refuses (.sessionFree h p) s h 0x21 r (if e = 4 then 4 else if e = 0xA then 0xA else 3)) ∧
      (∀ x t y, d.objRead n (f 0 4) = .ok (x, t, y) →
        (t ≠ 3 → Refuses (.sessionFree h p) s h 0x21 r 3 0) ∧
        (t = 3 → Answers (.sessionFree h p) s h 0x21 (d.objSub n 0xFFFF 1025 (f 0 4))))) ∧
    (s.dev.carries { op := 0x22, hoopScope := true, names := true, len := (· == 4), reply := 64, read := true } h p = some d →
      let d2 := d.sessMet n (f 0 4)
      (d2.sessIn n (f 0 4) = true → Answers (.sessionInfo h p) s h 0x22 d2 0 (d2.sess (f 0 4)).bytes) ∧
      (d2.sessIn n (f 0 4) = false → Refuses (.sessionInfo h p) s h 0x22 d 3 0)) ∧
    (s.dev.carries { op := 0x28, hoopScope := true, names := true, len := (· == 16) } h p = some d →
      let locked := d.rd Reg.HOOP_CFG_TABLES_LOCK n ≠ 0
      let sized := 64 ≤ f 4 4 ∧ f 4 4 ≤ 364608
      let refused := fun st o => Refuses (.recipeLoad h p) s h 0x28 d st o
      let r := d
      let d := d.seenVa n (f 8 8) (f 4 4)
      (¬ locked → refused 0x100 0) ∧
      (locked → ¬ sized → refused 3 4) ∧
      (∀ e, locked → sized → d.readVa n (f 8 8) (f 4 4) = .error e →
        (e = 0xA → refused 0xA 0) ∧
        (e ≠ 0xA → e ≠ hostTier → refused 3 8) ∧
        (e = hostTier → d.mayMaster (d.ownerFn n) = false → refused 0xA 0) ∧
        (e = hostTier → d.mayMaster (d.ownerFn n) = true →
          let g := d.seg n (d.slotOf n (d.curMap n) (bits (f 8 8) 47 44))
          let rd : HRead := { kind := 7, a := h.ring, b := n, c := 0, fn := d.ownerFn n, addr := g.base + f 8 8 % 2 ^ 44 }
          WaitsFor (.recipeLoad h p) s h 0x28 (d.openRead rd (f 4 4)) 6 (f 0 4) (f 4 4) [])) ∧
      (∀ b, locked → sized → d.readVa n (f 8 8) (f 4 4) = .ok b →
        (parseRecipe b (f 4 4) (d.rd Reg.HOOP_CFG_DEP_MODEL n == 1) = none → refused 3 8) ∧
        (∀ z : Recipe, parseRecipe b (f 4 4) (d.rd Reg.HOOP_CFG_DEP_MODEL n == 1) = some z →
          let d := (f 0 4 :: z.objects).foldl (fun d x => d.objSeen n x) d
          let mine := d.work.recipes.filter (fun (x : Nat × Recipe) => x.1 / 1024 == n)
          let used := mine.foldl (fun n (x : Nat × Recipe) => n + x.2.size) 0
          let free := (List.range 1024).find? (fun i => (d.recipe? n i).isNone)
          (∀ st, d.handleFree n (f 0 4) = some st → refused st 0) ∧
          (∀ st, d.handleFree n (f 0 4) = none → z.objects.findSome? (fun x => d.objCheck n x) = some st →
            Refuses (.recipeLoad h p) s h 0x28 r (if st = 0xB then 3 else st) (if (if st = 0xB then 3 else st) = 3 then 8 else 0)) ∧
          (d.handleFree n (f 0 4) = none → z.objects.findSome? (fun x => d.objCheck n x) = none →
            (free = none ∨ d.rd Reg.HOOP_RECIPES_STORE_MIB n * 2 ^ 20 < used + z.size → refused 8 0) ∧
            (∀ i, free = some i → used + z.size ≤ d.rd Reg.HOOP_RECIPES_STORE_MIB n * 2 ^ 20 →
              let held := mine.flatMap (fun (x : Nat × Recipe) => x.2.parts)
              let r2 := { z with parts := freeParts held (held.length + 1) 0 z.size }
              let d2 := (r2.objects.foldl (fun d x => d.objAdd n x) d).storeWrite n b r2.parts
              let wk := { d2.work with recipes := Tab.insert d2.work.recipes (n * 1024 + i) r2 }
              let d3 : Device := { d2 with work := wk }
              Answers (.recipeLoad h p) s h 0x28 ((d3.objWrite n (f 0 4) 1 2 i).count Reg.HOOP_RECIPES_LOADED n) i))))) ∧
    (s.dev.carries { op := 0x38, hoopScope := true, names := true, len := (· == 24) } h p = some d →
      let key := n * 16 + f 0 1
      let x := Tab.get {} d.klz.rxqs key
      let put := fun (y : RxQueue) => d.setKlz { d.klz with rxqs := Tab.put {} d.klz.rxqs key y }
      let shown := fun (d : Device) on => d.wr Reg.HOOP_RXQ_ENABLED n (setBit (d.rd Reg.HOOP_RXQ_ENABLED n) (f 0 1) on)
      let off := f 0 1 ≤ 15 ∧ f 3 1 = 0 ∧ zeroAt p 4 4 = true
      (off → Answers (.rxqConfig h p) s h 0x38 (shown (put { x with accept := 0 }) false)) ∧
      (∀ o, ¬ off → firstBad (d.rxqChecks n p) = some o → Refuses (.rxqConfig h p) s h 0x38 d 3 o) ∧
      (¬ off → firstBad (d.rxqChecks n p) = none → x.accept ≠ 0 → Refuses (.rxqConfig h p) s h 0x38 d 0x100) ∧
      (¬ off → firstBad (d.rxqChecks n p) = none → x.accept = 0 →
        let y : RxQueue := { accept := f 3 1, ring := f 8 8, slotLog2 := f 1 1, countLog2 := f 2 1, ctrl := f 16 8 }
        Answers (.rxqConfig h p) s h 0x38 (shown (put y) true))) ∧
    (s.dev.carries { op := 0x39, hoopScope := true, names := true, reply := s.dev.rd Reg.HOOP_REMOTE_SLICE_CHIPS n, read := true } h p = some d →
      Answers (.routeQuery h p) s h 0x39 d 0 (d.routes n))

/-- The commands of the wheel, time, board and power that pass R408: each makes its change and replies OK, or is refused by its own rules (R44, R361, R368,
R369, R371, R455, R456, R470). -/
def Obligations.ManagementModule : Prop :=
  ∀ (h : MHdr) (p : Bytes) (s : State) (d : Device),
    let v := fieldLe p 0 4
    let b := fieldLe p 0 1
    (∀ n, n = fieldLe p 0 2 → s.dev.carries { op := 0x30, len := fun n => 328 ≤ n && n ≤ 81928 } h p = some d →
      let rows := (List.range n).map (fun i => parseRow (slice p (8 + 320 * i) 320))
      let sized := 1 ≤ n ∧ n ≤ 256 ∧ p.length = 8 + 320 * n
      (¬ sized → Refuses (.wheelLoad h p) s h 0x30 d 3 0) ∧
      (sized → zeroAt p 2 6 = false → Refuses (.wheelLoad h p) s h 0x30 d 3 2) ∧
      (∀ i, sized → zeroAt p 2 6 = true → rows.findIdx? (fun r => !r.2) = some i → Refuses (.wheelLoad h p) s h 0x30 d 3 (8 + 320 * i)) ∧
      (sized → zeroAt p 2 6 = true → (∀ r ∈ rows, r.2 = true) →
        let w := { d.wheel with pending := some (rows.map (·.1)) }
        Answers (.wheelLoad h p) s h 0x30 { d with wheel := w })) ∧
    (s.dev.carries { op := 0x31, len := (· == 4) } h p = some d →
      let own := d.role = 2 ∧ ¬ (d.rd Reg.KLZ_TICK_TM_PRESENT = 1 ∧ d.rd Reg.KLZ_ID_TIME_MASTER = 0)
      (¬ own → Refuses (.wheelPeriod h p) s h 0x31 d 0x100) ∧
      (own → (v < 250 ∨ 64000 < v) → Refuses (.wheelPeriod h p) s h 0x31 d 3 0) ∧
      (own → 250 ≤ v → v ≤ 64000 →
        let w := { d.wheel with period := some (v, d.klz.number + 4) }
        Answers (.wheelPeriod h p) s h 0x31 { d with wheel := w })) ∧
    (s.dev.carries { op := 0x32, len := (· == 1) } h p = some d →
      (d.role ≠ 2 → Refuses (.timeMasterSet h p) s h 0x32 d 0x100) ∧
      (d.role = 2 → 1 < b → Refuses (.timeMasterSet h p) s h 0x32 d 3 0) ∧
      (d.role = 2 → b = 0 →
        let d2 := d.wr Reg.KLZ_ID_TIME_MASTER 0 0
        Answers (.timeMasterSet h p) s h 0x32 (if d2.klz.master = some d2.ownChip then d2.setKlz { d2.klz with master := none } else d2)) ∧
      (d.role = 2 → b = 1 →
        let d2 := (d.wr Reg.KLZ_ID_TIME_MASTER 0 1).follow (d.wr Reg.KLZ_ID_TIME_MASTER 0 1).ownChip
        Answers (.timeMasterSet h p) s h 0x32 ((d2.setKlz { d2.klz with adjust := 0, trim := 0 }).wr Reg.KLZ_TICK_TM_PRESENT 0 0))) ∧
    (s.dev.carries { op := 0x3A, sb := true, reply := 64 } h p = some d →
      (d.role = 2 → Answers (.boardMap h p) s h 0x3A d 0 d.boardMap) ∧ (d.role ≠ 2 → Refuses (.boardMap h p) s h 0x3A d 0x100)) ∧
    (s.dev.carries { op := 0x3B, len := (· == 1) } h p = some d →
      (7 < b → Refuses (.portEnable h p) s h 0x3B d 3 0) ∧
      (b ≤ 7 → let d2 := d.wr Reg.KLZ_PORT_STATUS_DISABLED b 0
        Answers (.portEnable h p) s h 0x3B (if d2.portState b = 6 then d2.train b else d2))) ∧
    (s.dev.carries { op := 0x40, sb := true, len := (· == 4) } h p = some d →
      (900 ≤ v → v ≤ 2400 → Answers (.powerCap h p) s h 0x40 (d.wr Reg.POWER_MEAS_CAP_W 0 v)) ∧
      (v < 900 ∨ 2400 < v → Refuses (.powerCap h p) s h 0x40 d 3 0)) ∧
    (s.dev.carries { op := 0x41, sb := true, reply := 64 } h p = some d → Answers (.powerQuery h p) s h 0x41 d 0 d.powerReply) ∧
    (s.dev.carries { op := 0x42, len := (· == 2) } h p = some d →
      (1 < b → Refuses (.powerMode h p) s h 0x42 d 3 0) ∧
      (b ≤ 1 → 8 < fieldLe p 1 1 → Refuses (.powerMode h p) s h 0x42 d 3 1) ∧
      (b ≤ 1 → fieldLe p 1 1 ≤ 8 → Answers (.powerMode h p) s h 0x42 (d.setPower { d.power with mode := some (b, fieldLe p 1 1) })))

/-- The commands of statistics, trace, watchpoints, debug and perturbation that pass R408: each makes its change and replies OK, or is refused by its own
rules (R434 to R448); and the end of an unlock's lifetime (R447). -/
def Obligations.ManagementStatistics : Prop :=
  ∀ (h : MHdr) (p : Bytes) (s : State) (d : Device),
    let n := h.hoop
    let f := fieldLe p
    let k := f 0 1
    (s.dev.carries { op := 0x48, hoopScope := true, names := true, len := (· == 16), reply := if f 1 1 = 1 then 4096 else 0 } h p = some d →
      let bad := firstBad [(0, f 0 1 ≤ 1), (1, f 1 1 ≤ 1), (2, zeroAt p 2 6), (8, f 8 8 % 2 ^ 18 == 0 && d.hbmWritable n (f 8 8) (2 ^ 18))]
      (∀ o, bad = some o → Refuses (.statsConfig h p) s h 0x48 d 3 o) ∧
      (bad = none → Answers (.statsConfig h p) s h 0x48 (d.modHstat n (fun x => { x with next := some (f 0 1 == 1, f 8 8 / 2 ^ 18) })) 0
        (if f 1 1 = 1 then slice (d.hstat n).page 0 4096 else []))) ∧
    (s.dev.carries { op := 0x49, hoopScope := true, names := !(h.ring == 0 && 8 ≤ k && k ≤ 14), len := (· == 3) } h p = some d →
      (8 ≤ k → k ≤ 14 → h.ring ≠ 0 → Refuses (.histogramConfig h p) s h 0x49 d 0x101) ∧
      (¬ (8 ≤ k ∧ k ≤ 14 ∧ h.ring ≠ 0) →
        (¬ (k ≤ 4 ∨ (8 ≤ k ∧ k ≤ 14)) → Refuses (.histogramConfig h p) s h 0x49 d 3 0) ∧
        ((k ≤ 4 ∨ (8 ≤ k ∧ k ≤ 14)) → 31 < f 1 1 → Refuses (.histogramConfig h p) s h 0x49 d 3 1) ∧
        ((k ≤ 4 ∨ (8 ≤ k ∧ k ≤ 14)) → f 1 1 ≤ 31 → (if k = 1 then 10 < f 2 1 else f 2 1 ≠ 0) → Refuses (.histogramConfig h p) s h 0x49 d 3 2) ∧
        (k ≤ 4 → f 1 1 ≤ 31 → (if k = 1 then f 2 1 ≤ 10 else f 2 1 = 0) →
          Answers (.histogramConfig h p) s h 0x49
            (d.modHstat n (fun x => { x with hists := Tab.put (histNew k) x.hists k { x.hist k with next := some (f 1 1, f 2 1) } }))) ∧
        (8 ≤ k → k ≤ 14 → f 1 1 ≤ 31 → f 2 1 = 0 →
          let x := Tab.get (histNew k) d.stat.hists k
          let st := { d.stat with hists := Tab.put (histNew k) d.stat.hists k { x with next := some (f 1 1, x.rate) } }
          Answers (.histogramConfig h p) s h 0x49 { d with stat := st }))) ∧
    (s.dev.carries { op := 0x4A, hoopScope := true, names := true, len := (· == 24) } h p = some d →
      let bad := if f 0 1 = 0 then none else
        firstBad [(0, f 0 1 ≤ 1), (1, f 1 1 ≤ 1), (2, 7 ≤ f 2 1 && f 2 1 ≤ 21), (3, zeroAt p 3 1), (4, f 4 2 % 2 == 0 && f 4 2 < 512),
          (6, zeroAt p 6 2), (12, zeroAt p 12 4), (16, f 16 8 % 4096 == 0 && d.hbmWritable n (f 16 8) 1)]
      let busy := f 0 1 ≠ 0 ∧ d.rd Reg.HOOP_TRACE_ENABLE n = 1
      (busy → Refuses (.traceConfig h p) s h 0x4A d 0x100) ∧
      (∀ o, ¬ busy → bad = some o → Refuses (.traceConfig h p) s h 0x4A d 3 o) ∧
      (¬ busy → bad = none →
        let d2 := (((((d.wr Reg.HOOP_TRACE_ENABLE n (f 0 1)).wr Reg.HOOP_TRACE_WRAP n (f 1 1)).wr Reg.HOOP_TRACE_SIZE_LOG2 n (f 2 1)).wr
          Reg.HOOP_TRACE_BASE n (f 16 8 / 4096)).modHstat n (fun x => { x with kinds := f 4 2, minNs := f 8 4 }))
        Answers (.traceConfig h p) s h 0x4A (if f 0 1 = 1 then (d2.wr Reg.HOOP_TRACE_PTR_TAIL n 0).wr Reg.HOOP_TRACE_PTR_HEAD n 0 else d2))) ∧
    (s.dev.carries { op := 0x4B, sb := true, len := (· == 1), reply := match k with | 0 => 4096 | 1 => 2048 | _ => 0 } h p = some d →
      (k = 0 → Answers (.counterRead h p) s h 0x4B d 0 (slice d.stat.page 0 4096)) ∧
      (k = 1 → d.role = 2 → Answers (.counterRead h p) s h 0x4B d 0 d.summaries) ∧
      (k = 1 → d.role ≠ 2 → Refuses (.counterRead h p) s h 0x4B d 0x100) ∧
      (1 < k → Refuses (.counterRead h p) s h 0x4B d 3 0)) ∧
    (s.dev.carries { op := 0x50, hoopScope := true, names := true, len := (· == 24) } h p = some d →
      let bad := firstBad [(0, f 0 1 ≤ 15), (1, 1 ≤ f 1 1 && f 1 1 ≤ 7), (2, f 2 1 ≤ 2), (3, 1 ≤ f 3 1 && f 3 1 ≤ 7), (4, zeroAt p 4 4),
        (8, f 8 8 + f 16 8 ≤ 2 ^ 48), (16, f 16 8 != 0)]
      (∀ o, bad = some o → Refuses (.watchSet h p) s h 0x50 d 3 o) ∧
      (bad = none → Answers (.watchSet h p) s h 0x50 ((d.setBits Reg.HOOP_WATCH_ENABLED n (2 ^ k)).modHstat n (fun x =>
        { x with watches := Tab.insert x.watches k ⟨f 1 1, f 2 1, f 3 1, f 8 8, f 16 8⟩ })))) ∧
    (s.dev.carries { op := 0x51, hoopScope := true, names := true, len := (· == 2) } h p = some d →
      let m := f 0 2
      Answers (.watchClear h p) s h 0x51 ((d.wr Reg.HOOP_WATCH_ENABLED n (without (d.rd Reg.HOOP_WATCH_ENABLED n) m)).modHstat n (fun x =>
        { x with watches := x.watches.filter (fun (w : Nat × Watch) => !m.testBit w.1) }))) ∧
    (k = 0 → s.dev.carries { op := 0x58, len := fun n => n == 1, reply := 32 } h p = some d →
      let nonce := (List.range 4).flatMap (fun i => le 8 (Config.freeValue (d.fresh + i)).toNat)
      let st := { d.stat with nonce := some nonce }
      Answers (.debugNonce h p) s h 0x58 { d with fresh := d.fresh + 4, stat := st } 0 nonce) ∧
    (k = 1 → s.dev.carries { op := 0x58, len := fun n => n == 272 } h p = some d →
      let t := p.drop 8
      let st := { d.stat with nonce := none }
      let d2 : Device := { d with stat := st }
      (zeroAt p 1 7 = false → Refuses (.debugUnlock h p) s h 0x58 d 3 1) ∧
      (zeroAt p 1 7 = true → 1 < fieldLe t 64 4 → Refuses (.debugUnlock h p) s h 0x58 d 3 72) ∧
      (zeroAt p 1 7 = true → fieldLe t 64 4 ≤ 1 →
        (d.tokenOk s.nv.fuses t = false → Refuses (.debugUnlock h p) s h 0x58 d2 0x102) ∧
        (d.tokenOk s.nv.fuses t = true →
          let d3 := (d2.wr Reg.DEBUG_STATUS_UNLOCKED 0 1).wr Reg.DEBUG_STATUS_REMAINING 0 (fieldLe t 68 4)
          let st := { d3.stat with rights := fieldLe t 64 4, expires := fieldLe t 68 4 != 0 }
          Answers (.debugUnlock h p) s h 0x58 (Device.post { d3 with stat := st } { code := 0x60 })))) ∧
    (k = 2 → s.dev.carries { op := 0x58, len := fun n => n == 1 } h p = some d → Answers (.debugRelock h p) s h 0x58 d.relock) ∧
    (2 < k → s.dev.carries { op := 0x58, len := fun n => n == 1 } h p = some d →
      Refuses (.debugNonce h p) s h 0x58 d 3 0 ∧ Refuses (.debugUnlock h p) s h 0x58 d 3 0 ∧ Refuses (.debugRelock h p) s h 0x58 d 3 0) ∧
    (s.dev.live = true → s.dev.rd Reg.DEBUG_STATUS_UNLOCKED = 1 → s.dev.stat.expires = true → s.dev.rd Reg.DEBUG_STATUS_REMAINING = 0 →
      Gives .debugLifetimeExpiry s s.dev.relock) ∧
    (d.relock.rd Reg.DEBUG_STATUS_UNLOCKED = 0 ∧ d.relock.rd Reg.DEBUG_STATUS_PERTURB_ACTIVE = 0
      ∧ (∀ i < 8, d.relock.rd Reg.PERTURB_CFG_TARGET i = 0) ∧ d.relock.mem = d.mem) ∧
    (s.dev.carries { op := 0x59, len := (· == 8) } h p = some d →
      let allowed := d.rd Reg.DEBUG_STATUS_UNLOCKED ≠ 0 ∧ d.stat.rights % 2 = 1
      let bad := firstBad [(0, f 0 1 ≤ 7), (1, f 1 1 ≤ 5), (2, f 2 1 ≤ selectMax (f 1 1)), (3, f 3 1 ≤ 15), (4, f 1 1 != 5 || f 4 2 == 0)]
      (¬ allowed → Refuses (.perturbSet h p) s h 0x59 d 0x100) ∧
      (∀ o, allowed → bad = some o → Refuses (.perturbSet h p) s h 0x59 d 3 o) ∧
      (allowed → bad = none →
        ∃ d2 : Device, Answers (.perturbSet h p) s h 0x59 d2 ∧ d2.rd Reg.PERTURB_CFG_TARGET k = f 1 1 ∧ d2.rd Reg.PERTURB_CFG_SELECT k = f 2 1 ∧
          d2.rd Reg.PERTURB_CFG_RATE_LOG2 k = f 3 1 ∧ d2.rd Reg.PERTURB_CFG_DELAY k = f 4 2 ∧ d2.rd Reg.PERTURB_CFG_SEED k = f 6 2 ∧
          d2.rd Reg.PERTURB_HITS_HITS k = 0 ∧ Tab.get 1 d2.stat.gens k = (if f 6 2 = 0 then 1 else f 6 2) ∧ d2.mem = d.mem))

/-- The commands of firmware and identity, of resets and of the error summary that pass R408 (R410, R413, R414, R480, R483): FW_UPDATE stages its bytes,
and with FINAL an image that passes is programmed before the reply, one that does not is refused; in RECOVERY the load of R480 follows. MODULE_RESET,
which samples the straps at their pins (R344), and POWER_CYCLE reply, then act. FW_PROGRAM_DONE fills the slot and replies. -/
def Obligations.ManagementFirmware : Prop :=
  ∀ (h : MHdr) (p : Bytes) (s : State) (d : Device),
    let offset := fieldLe p 0 4
    let flags := fieldLe p 4 4
    let n := offset + (p.drop 8).length
    (s.dev.carries { op := 0x60, sb := true, afterFatal := true, starter := true, reply := 80 } h p = some d →
      Answers (.fwQuery h p) s h 0x60 d 0 (d.fwReply s.nv.fuses)) ∧
    (s.dev.carries { op := 0x68, sb := true, afterFatal := true, starter := true, reply := 288 } h p = some d →
      Answers (.identityGet h p) s h 0x68 d 0 (d.identityReply s.nv.fuses)) ∧
    (s.dev.carries { op := 0x79, sb := true, afterFatal := true, starter := true, reply := 72 } h p = some d →
      let pins := { d.pins with alert := false }
      Answers (.errSummaryRead h p) s h 0x79 (if h.ring = 9 ∧ d.pins.alertAt ≠ some d.clock.now then { d with pins := pins } else d) 0 d.errReply) ∧
    (s.dev.carries { op := 0x61, sb := true, starter := true, len := fun n => 8 ≤ n && n ≤ 4096 } h p = some d →
      let sequel := offset = d.boot.staged ∨ offset = 0
      let d2 := d.setBoot { d.boot with staging := stageAt d.boot.staging offset (p.drop 8), staged := n }
      let c := imageCause s.nv.fuses (d2.stagedImage n)
      (d.boot.programming ≠ none → Refuses (.fwUpdate h p) s h 0x61 d 0x100) ∧
      (d.boot.programming = none → s.dev.boot.programming = none →
        (¬ sequel → Refuses (.fwUpdate h p) s h 0x61 d 3 0) ∧
        (sequel → 1 < flags → Refuses (.fwUpdate h p) s h 0x61 d 3 4) ∧
        (sequel → flags = 0 → Answers (.fwUpdate h p) s h 0x61 d2) ∧
        (sequel → flags = 1 → d2.stage ≠ 5 →
          let d3 := d2.setBoot { d2.boot with lastCause := c, checking := n }
          (c ≠ 0 → Refuses (.fwUpdate h p) s h 0x61 d3 0x102) ∧
          (c = 0 →
            ∃ t : State, exec (.fwUpdate h p) s = .next t ∧ t.nv = s.nv.slotOpen ∧ t.dev.boot.programming = some false
              ∧ t.dev.boot.checking = n ∧ t.dev.boot.waits = d.boot.waits ++ [⟨h, 0x61, 0, 0, 0, []⟩])) ∧
        (sequel → flags = 1 → d2.stage = 5 →
          ∃ t : State, exec (.fwUpdate h p) s = .next t ∧ t.dev.boot.waits = (d2.recoveryStart s.nv n).1.boot.waits ++ [⟨h, 0x61, 5, 0, 0, []⟩] ∧
            t.dev.boot.programming = (d2.recoveryStart s.nv n).1.boot.programming))) ∧
    (s.dev.awake = true → s.dev.boot.programming = some false →
      let d2 := s.dev.setBoot { s.dev.boot with programming := none }
      exec .fwProgramDone s = .next { s with
        nv := s.nv.program (s.dev.stagedImage s.dev.boot.checking)
        dev := (d2.boot.waits.filter (fun w => w.wait == 0)).foldl (fun d w => d.endWait w 0 0) d2 }) ∧
    (s.dev.boot.programming ≠ some false → Gives .fwProgramDone s s.dev) ∧
    (let sp : MSpec := { op := 0x70, sb := true, afterFatal := true }
     (s.dev.mgmtReady sp h = false → Gives (.moduleReset h p) s (s.dev.mgmtHold sp h p)) ∧
     (s.dev.mgmtReady sp h = true → let d1 := s.dev.mgmtAccept h
      (∀ st, d1.mgmtCheck sp h p = some st → Refuses (.moduleReset h p) s h 0x70 d1 st) ∧
      (d1.mgmtCheck sp h p = none → let d2 := d1.reply h 0x70 0 0 0 []
       Gives (.moduleReset h p) s (d2.beginStartup d2.pins.levels)))) ∧
    (let sp : MSpec := { op := 0x71, sb := true, afterFatal := true }
     (s.dev.mgmtReady sp h = false → Gives (.powerCycle h p) s (s.dev.mgmtHold sp h p)) ∧
     (s.dev.mgmtReady sp h = true → let d1 := s.dev.mgmtAccept h
      (∀ st, d1.mgmtCheck sp h p = some st → Refuses (.powerCycle h p) s h 0x71 d1 st) ∧
      (d1.mgmtCheck sp h p = none →
        let d2 := d1.reply h 0x71 0 0 0 []
        let d3 := d2.setBoot { d2.boot with pulse := true }
        let pins := { d2.pins with cycleReq := true }
        Gives (.powerCycle h p) s { d3 with pins := pins })))

/-- Which management commands are refused (R408, Table 2-2), for every command of Table 16-4: one that a VF or the sideband may not send with NOT_PERMITTED,
one whose header or length is out of range with INVALID_PARAMETER, one whose reply has no room with REPLY_TOO_SMALL, one that the module's stage, a
fatal event (R415) or its hoop's state does not admit with BUSY, and one whose parameters could not be read with DATA_ERROR, in that order. A command
that is there and that earlier ones hold back waits among the accepted ones, by its time and its ring, and one that is not there changes nothing (R407). -/
def Obligations.ManagementRefusals : Prop :=
  (∀ (h : MHdr) (p : Bytes) (s : State) (x : Instr × MSpec), x ∈ mgmtRows s.dev h p →
    let d := s.dev.mgmtAccept h
    (s.dev.mgmtReady x.2 h = false → Gives x.1 s (s.dev.mgmtHold x.2 h p)) ∧
    (s.dev.mgmtReady x.2 h = true →
      (∀ st, d.mgmtCheck x.2 h p = some st → Refuses x.1 s h x.2.op d st) ∧
      (d.mgmtCheck x.2 h p = none → h.unread = true → h.ring < 9 → p ≠ [] → Refuses x.1 s h x.2.op d 0xA))) ∧
  (∀ (h : MHdr) (p : Bytes) (d : Device) (sp : MSpec),
    (d.mgmtComes h = false → d.mgmtHold sp h p = d) ∧
    (d.mgmtComes h = true →
      let c : MCmd := { op := sp.op, hdr := h, names := sp.names, len := p.length, params := some p, at_ := d.clock.now }
      let earlier := fun (x : MCmd) => x.at_ < c.at_ || (x.at_ == c.at_ && ringRank x.hdr.ring ≤ ringRank h.ring)
      (d.mgmtHold sp h p).boot.cmds = d.boot.cmds.filter earlier ++ [c] ++ d.boot.cmds.filter (fun x => !earlier x))) ∧
  (∀ (h : MHdr) (p : Bytes) (d : Device) (sp : MSpec),
    let vf := 1 ≤ h.ring ∧ h.ring ≤ 8
    let may := (vf → sp.hoopScope = true ∧ h.hoop + 1 = h.ring) ∧ (h.ring = 9 → sp.sb = true)
    let placed := if h.ring = 9 then h.paramAddr = 0 ∧ h.replyAddr = 0
      else h.paramAddr % 8 = 0 ∧ h.replyAddr % 8 = 0 ∧ (p ≠ [] ∨ h.paramAddr = 0) ∧ (h.replyCap ≠ 0 ∨ h.replyAddr = 0)
    let well := h.rsvd = false ∧ h.hoop ≤ 7 ∧ h.replyCap ≤ 4096 ∧ placed ∧ sp.len p.length = true ∧ (sp.names = true ∨ h.hoop = 0)
    let fits := sp.reply ≤ h.replyCap
    let st := d.hoopState h.hoop
    (¬ may → d.mgmtCheck sp h p = some 0x101) ∧
    (may → ¬ well → d.mgmtCheck sp h p = some 3) ∧
    (may → well → ¬ fits → d.mgmtCheck sp h p = some 0x103) ∧
    (may → well → fits → d.stage ≠ 4 → d.mgmtCheck sp h p = if sp.starter then none else some 0x100) ∧
    (may → well → fits → d.stage = 4 → d.life.fatal = true →
      (vf → d.mgmtCheck sp h p = some 0x100) ∧
      (¬ vf → sp.names = true → st = 0 → sp.create = false → d.mgmtCheck sp h p = some 3) ∧
      (¬ vf → (sp.names = false ∨ st ≠ 0 ∨ sp.create = true) → d.mgmtCheck sp h p = if sp.afterFatal then none else some 0x100)) ∧
    (may → well → fits → d.stage = 4 → d.life.fatal = false →
      (sp.names = false → d.mgmtCheck sp h p = none) ∧
      (sp.names = true → st = 0 → d.mgmtCheck sp h p = if sp.create then none else some 3) ∧
      (sp.names = true → st ≠ 0 → sp.create = true → d.mgmtCheck sp h p = some 0x100) ∧
      (sp.names = true → sp.create = false →
        (st = 1 → d.mgmtCheck sp h p = none) ∧
        (st = 2 → d.mgmtCheck sp h p = if sp.hold then none else some 0x100) ∧
        (st = 3 ∨ st = 4 → d.mgmtCheck sp h p = if sp.read then none else some 0x100) ∧
        (4 < st → d.mgmtCheck sp h p = some 0x100))))

/-! Rules of the dispatchers -/

/-- The blocks of a grid (R101): block B is block x + GRID_X × (y + GRID_Y × z), and a LAUNCH or kernel node whose product exceeds 2^32 ends with
INVALID_PARAMETER and starts no block. DISP_CFG (R111, for the kernel of a LAUNCH): a die uses the values in force at the kernel's first block there,
later writes leave the kernel's unchanged, and a write of RUN_BLOCKS as 0 or above 64 leaves RUN_BLOCKS unchanged while the rest of the write takes effect. -/
def Obligations.GridAndDispatch : Prop :=
  (∀ (k : Kernel) (ki b core epoch : Nat) (quarters : List Nat), b < k.gx * k.gy * k.gz →
    let x := k.block ki b core epoch quarters
    x.lin = b ∧ b = x.x + k.gx * (x.y + k.gy * x.z) ∧ x.x < k.gx ∧ x.y < k.gy ∧ x.z < k.gz) ∧
  (∀ (d d2 : Device) (q id ptr map : Nat) (inst : Option (Nat × Nat)) (early : Bool) (p b : Bytes),
    d.entRead q id (fieldLe p 0 8) 64 = (d2, .ok (some b)) → 2 ^ 32 < fieldLe p 16 4 * fieldLe p 20 2 * fieldLe p 22 2 →
    d.kernelStart q id ptr map inst early p = (d2, .error 3)) ∧
  (∀ (q : Nat) (s : State) (e : Entry) (d2 : Device) (b : Bytes), s.dev.startable q 0x01 = some e →
    (s.dev.begin_ q e.id).entRead q e.id (fieldLe (slice e.bytes 8 24) 0 8) 64 = (d2, .ok (some b)) →
    2 ^ 32 < fieldLe (slice e.bytes 8 24) 16 4 * fieldLe (slice e.bytes 8 24) 20 2 * fieldLe (slice e.bytes 8 24) 22 2 →
    Gives (.launch q) s (((d2.countKernel (d2.queue q).hoop (d2.queue q).cls).finish q e.id 3).settleSlot q).serveCredits) ∧
  (∀ (d d2 : Device) (i n : Nat) (x : Inst) (r : RNode) (y : INode) (b : Bytes), d.inst? i = some x → d.rnode? x n = some r →
    Tab.find? x.nodes n = some y → r.type = 1 → y.counter = 0 →
    d.entRead x.queue x.entry (fieldLe y.params 0 8) 64 = (d2, .ok (some b)) →
    2 ^ 32 < fieldLe y.params 16 4 * fieldLe y.params 20 2 * fieldLe y.params 22 2 →
    d.startNode i n = ((d2.modNode i n (fun y => { y with started := true, since := d2.stamp x.hoop })).countKernel x.hoop
      (d.queue x.queue).cls).nodeDone i n 3 0) ∧
  (∀ (d : Device) (k : Kernel) (die : Nat),
    (∀ c, Tab.find? k.cfg die = some c → d.dispCfg k die = c) ∧
    (Tab.find? k.cfg die = none → d.dispCfg k die = (d.rd Reg.DISP_CFG_STAGGER_FC die, d.rd Reg.DISP_CFG_RUN_BLOCKS die))) ∧
  (∀ (d : Device) (core ki : Nat) (k k2 : Kernel) (b p : Nat) (c2 : Core),
    k.take (coreDie core) = some (b, k2) → (d.core core).freePlace k.resident = some p →
    (d.core core).takeEnts p k.code k.threads
      ((placeGroups k.groups ((List.range 4).map ((d.core core).placesFree k))).mapIdx (fun g q => (g, q))) = some c2 → k.inst = none →
    ((d.giveBlock core ki k).kernel? ki).bind (fun k => Tab.find? k.cfg (coreDie core)) = some (d.dispCfg k (coreDie core))) ∧
  (∀ (s : State) (die : Nat) (v : W64), s.dev.regOpen 0 = true → s.dev.stage = 4 → die < 4 → v.toNat < 2 ^ 15 →
    ∃ d2 : Device, Gives (.registerWrite 0 (.bar 0 (0x21000 + 8 * die)) 8 v) s d2 ∧ d2.rd Reg.DISP_CFG_STAGGER_FC die = v.toNat % 256 ∧
      (d2.rd Reg.DISP_CFG_RUN_BLOCKS die =
        if v.toNat / 256 = 0 ∨ 64 < v.toNat / 256 then s.dev.rd Reg.DISP_CFG_RUN_BLOCKS die else v.toNat / 256))

/-! Start-up, power and heat -/

/-- Power-up, reset and start-up (R344, R414, R467, R471 to R474, R480, R491 to R493): each event's effect on an awaiting module.
A strap that changes between samples has no effect. STARTUP without a
fault ends in READY when the image passes, with memory 0, every port training and only the alias key left in the key engine (R481), in RECOVERY when it does
not; a fault that shows before the image is read (0x13 to 0x15), or after one that passes, ends it in FAILED, where the module stays until its power is cycled
(R474; that a later start-up ends in FAILED again is the model's choice, log entry 11). A coolant loss at the time of a trip is what its record reports. -/
def Obligations.StartUp : Prop :=
  ∀ (s : State) (straps : Straps),
    let d := s.dev
    (d.life.powered = false → ∃ d2 : Device, Gives (.powerOn straps) s d2 ∧ d2.life = { powered := true, stopped := true } ∧
      d2.pins.straps = straps ∧ d2.pins.levels = straps ∧ d2.rd Reg.KLZ_ID_CHIP = (straps.board.toNat * 8 + straps.slot.toNat) % 2 ^ Reg.KLZ_ID_CHIP.width ∧ d2.stage = 0) ∧
    (d.life.powered = true → Gives (.powerOn straps) s (d.setLevels straps)) ∧
    (d.pins.perstN = true → Gives (.perstNDeassert straps) s (d.setLevels straps)) ∧
    (d.life.powered = true → d.life.rails = false → d.pins.thermtrip = false →
      let e : Device := { d with pins := { d.pins with flowOk := true }, life := { d.life with rails := true, stopped := false } }
      (d.pins.perstN = false → Gives .flowOkRise s e) ∧ (d.pins.perstN = true → Gives .flowOkRise s (e.beginStartup d.pins.levels))) ∧
    (d.pins.perstN = false → (d.life.powered = false ∨ d.life.rails = false ∨ d.life.stopped = true) →
      Gives (.perstNDeassert straps) s { d with pins := { d.pins with perstN := true, levels := straps } }) ∧
    (d.pins.perstN = false → d.life.powered = true → d.life.rails = true → d.life.stopped = false →
      Gives (.perstNDeassert straps) s (({ d with pins := { d.pins with perstN := true, levels := straps } } : Device).beginStartup straps)) ∧
    (d.pins.perstN = true → d.life.powered = true → d.life.rails = true → d.life.stopped = false →
      let r := ({ d with pins := { d.pins with perstN := false } } : Device).reset d.pins.straps
      Gives .perstNAssert s r ∧ r.stage = 0 ∧ r.mem.cells = [] ∧ r.clock.now = d.clock.now) ∧
    (d.pins.perstN = true → (d.life.powered = false ∨ d.life.rails = false ∨ d.life.stopped = true) →
      let off := { d.pins with perstN := false }
      (d.life.powered = true → d.pins.flowOk = true → Gives .perstNAssert s { d with pins := { off with alert := false, alertAt := none } }) ∧
      (d.life.powered = false ∨ d.pins.flowOk = false → Gives .perstNAssert s { d with pins := off })) ∧
    (d.awake = true → d.boot.starting = true →
      let c := imageCause s.nv.fuses s.nv.flash.image
      (d.life.failed = none → c = 0 → ∃ d2 : Device, Gives (.startup none) s d2 ∧ d2.stage = 4 ∧ d2.mem = Memory.zeroed ∧
        d2.boot.engine.secret = none ∧ d2.boot.engine.device = none ∧ d2.boot.engine.alias_.isSome = true ∧ d2.boot.certs.length = 4 ∧
        d2.boot.header = slice s.nv.flash.image 0 4096 ∧ d2.role = (if d.pins.straps.mgrEn then 2 else 1) ∧ d2.point = 8 ∧
        (∀ p < 8, d2.portState p = 1) ∧ d2.boot.starting = false) ∧
      (d.life.failed = none → c ≠ 0 → ∃ d2 : Device, Gives (.startup none) s d2 ∧ d2.stage = 5 ∧ d2.rd Reg.BOOT_STATUS_CAUSE = c ∧ d2.mem = d.mem) ∧
      (∀ f x given, (d.life.failed = some (f, x) ∧ f < 0x20 ∧ given = none) ∨ (d.life.failed = none ∧ given = some (f, x) ∧ bootFault f x = true) →
        (0x13 ≤ f ∨ c = 0 → ∃ d2 : Device, Gives (.startup given) s d2 ∧ d2.stage = 6 ∧ d2.rd Reg.BOOT_STATUS_CAUSE = f ∧
          d2.life.failed = some (f, x) ∧ d2.mem = d.mem) ∧
        (f < 0x13 → c ≠ 0 → ∃ d2 : Device, Gives (.startup given) s d2 ∧ d2.stage = 5 ∧ d2.rd Reg.BOOT_STATUS_CAUSE = c ∧ d2.mem = d.mem))) ∧
    (d.life.powered = true → Gives .brownOut s
      { d.railsOff with
        life := { d.railsOff.life with powered := false }
        pins := { d.railsOff.pins with alert := false, alertAt := none, thermtrip := false } }) ∧
    (let low : Device := { d with pins := { d.pins with flowOk := false } }
     (d.life.powered = true → d.life.rails = true → Gives .coolantLoss s (low.shutdown 4 0xFFFFFFFF 0 0)) ∧
     (d.life.powered = false ∨ d.life.rails = false →
       (∀ t i, d.life.trip = some (t, i) → t = d.clock.now →
         let life := { d.life with trip := none }
         Gives .coolantLoss s { low with out := d.out.set i (d.tripMsg 4 0xFFFFFFFF 0 0), life := life }) ∧
       (d.life.trip = none → Gives .coolantLoss s low))) ∧
    (d.boot.pulse = true → Gives .pwrCycleReqRelease s
      { d.setBoot { d.boot with pulse := false } with pins := { d.pins with cycleReq := false } })

/-- Recovery and the fuses (R468, R478, R480): RECOVERY_GO takes the staged image, RECOVERY_RESULT programs one that passed and shows its RESULT,
RECOVERY_RESET restarts the module with the straps at their pins; ROLLBACK_RAISE raises the rollback counter and the
revocation bits to the running image's; AGEING_COUNTER blows one more bit. -/
def Obligations.RecoveryAndFuses : Prop :=
  ∀ (s : State) (ok : Bool),
    let d := s.dev
    (d.awake = true → d.stage = 5 → d.rd Reg.RECOVERY_CTRL_BUSY = 0 →
      let n := d.rd Reg.RECOVERY_CTRL_LENGTH
      ∃ t : State, exec .recoveryGo s = .next t ∧ t.dev.rd Reg.RECOVERY_CTRL_BUSY = 1 ∧ t.dev.boot.programming = some true ∧ t.dev.boot.checking = n ∧
        t.dev.boot.lastCause = imageCause s.nv.fuses (d.stagedImage n) ∧ t.nv.fuses = s.nv.fuses ∧ t.dev.mem = d.mem) ∧
    (d.awake = true → d.stage = 5 → d.boot.programming = some true → d.boot.waits = [] →
      ∃ t : State, exec (.recoveryResult ok) s = .next t ∧ t.dev.rd Reg.RECOVERY_CTRL_BUSY = 0 ∧ t.dev.boot.programming = none ∧
        t.dev.rd Reg.RECOVERY_CTRL_RESULT = (if d.boot.lastCause ≠ 0 then 2 else if ok then 1 else 3) ∧
        t.nv = (if d.boot.lastCause = 0 ∧ ok then s.nv.program (d.stagedImage d.boot.checking) else s.nv)) ∧
    (d.awake = true → d.boot.recovered = true → Gives .recoveryReset s (d.beginStartup d.pins.levels)) ∧
    (d.live = true → d.boot.header ≠ [] → ∃ t : State, exec .rollbackRaise s = .next t ∧ t.dev = d ∧
      t.nv.fuses.rollback = Nat.max s.nv.fuses.rollback (Nat.min 128 (imgSvn d.boot.header)) ∧ t.nv.flash = s.nv.flash ∧
      t.nv.fuses.revoked = s.nv.fuses.revoked ||| setBit (fieldLe d.boot.header 7 1 % 16) (imgKeyIndex d.boot.header) false ∧
      t.nv.fuses.trim = s.nv.fuses.trim ∧ t.nv.fuses.hours = s.nv.fuses.hours) ∧
    (d.live = true → s.nv.fuses.hours < 512 → ∃ t : State, exec .ageingCounter s = .next t ∧ t.nv.fuses.hours = s.nv.fuses.hours + 1 ∧
      t.nv.fuses.rollback = s.nv.fuses.rollback ∧ t.nv.flash = s.nv.flash ∧ t.dev.mem = d.mem ∧
      ∀ r < 5, t.dev.rd Reg.AGEING_HOURS r = 200 * (s.nv.fuses.hours + 1) % 2 ^ Reg.AGEING_HOURS.width)

/-- The power and thermal controller (R454 to R468) completes every command of it. A sample shows in TEMP and the flags of its point, a third invalid one in a row
as a fault of the sensor, a second one in a row at TRIP shuts the module down, also after a fatal event; THROTTLE_STEP lowers the ceiling, then the duty, while a
point is at THROTTLE, and raises them while all are 3 °C below it (R466). E is the static term plus the activity terms (R457); POWER_DECISION steps down one point
at a time at once, and up by one after 100 µs with the margin of step 3 (R454, R459), and enters the state of R462 below the floor; in distrust it is the estimate
alone (R460). POWER_MEASUREMENT shows M and the mean of the estimates and starts a new mean (R457). OP_STEP takes the step under way; the 64th droop within 1 ms
steps down a point, and DROOP_END ends the stretch of its die (R464). -/
def Obligations.PowerAndHeat : Prop :=
  ∀ (s : State) (readings : List (Option Int)) (act : List Nat) (acts : List (List Nat)) (w rail : Nat),
    let d := s.dev
    let p := d.power
    let limit := fun (g : Fld) n => ((d.rd g (zoneOf n) : Nat) : Int)
    let warn := limit Reg.THERM_LIMITS_WARN
    let thr := limit Reg.THERM_LIMITS_THROTTLE
    let trip := limit Reg.THERM_LIMITS_TRIP
    let read := fun n => (readings.drop n).headD none
    (∀ q, d.estimate q = Config.powerStatic d.deterministic q ((d.hottest (List.range 168)).getD 0) +
      ((if d.rd Reg.POWER_STATUS_WARMUP = 1 then Config.maxActivity d.point else p.activity).mapIdx
        (fun i a => a * Config.powerCoef d.deterministic q i)).foldl (· + ·) 0 / 2 ^ 40) ∧
    (d.life.powered = true → d.life.rails = true → d.life.stopped = false → d.life.rindDead = false →
      ∃ d2 : Device, Gives (.thermalSample readings) s d2 ∧
        (∀ n < 168, ∀ t, read n = some t → -32768 ≤ t → t < 32768 →
          d2.temp n = t ∧ d2.rd Reg.THERM_POINT_VALID n = 1 ∧ d2.rd Reg.THERM_POINT_FAULT n = 0 ∧
          d2.rd Reg.THERM_POINT_WARN n = b2n (warn n ≤ t) ∧ d2.rd Reg.THERM_POINT_THROTTLE n = b2n (thr n ≤ t)) ∧
        (∀ n < 168, read n = none →
          d2.temp n = d.temp n ∧ d2.rd Reg.THERM_POINT_VALID n = 0 ∧
          (Tab.get 0 p.invalid n < 2 → d2.rd Reg.THERM_POINT_FAULT n = d.rd Reg.THERM_POINT_FAULT n ∧
            d2.rd Reg.THERM_POINT_THROTTLE n = d.rd Reg.THERM_POINT_THROTTLE n) ∧
          (2 ≤ Tab.get 0 p.invalid n → d2.rd Reg.THERM_POINT_FAULT n = 1 ∧ d2.rd Reg.THERM_POINT_THROTTLE n = 1)) ∧
        ((∃ n < 168, ∃ t, read n = some t ∧ trip n ≤ t ∧ 1 ≤ Tab.get 0 p.trips n) →
          d2.life.rails = false ∧ d2.life.stopped = true ∧ d2.pins.thermtrip = true ∧ d2.pins.alert = true) ∧
        (p.hot = [] → (∃ n < 168, ∃ t, read n = some t ∧ -32768 ≤ t ∧ t < 32768 ∧ thr n ≤ t) → d2.rd Reg.POWER_STATUS_THROTTLE = 1)) ∧
    (d.live = true →
      (let hot := ∃ n < 168, d.rd Reg.THERM_POINT_THROTTLE n = 1
       let cool := ∀ n < 168, d.rd Reg.THERM_POINT_THROTTLE n = 0 ∧ d.temp n < thr n - 48
       (hot → p.ceil < 8 → Gives .throttleStep s ((d.setPower { p with ceil := p.ceil + 1 }).setCeiling)) ∧
       (hot → 8 ≤ p.ceil → Gives .throttleStep s (d.setPower { p with
         thermalDuty := Nat.min 15 (p.thermalDuty + 1), credit := if d.effectiveA = 16 then 0 else p.credit })) ∧
       (¬ hot → ¬ cool → Gives .throttleStep s d) ∧
       (cool → 0 < p.thermalDuty → Gives .throttleStep s (d.setPower { p with thermalDuty := p.thermalDuty - 1 })) ∧
       (cool → p.thermalDuty = 0 → 0 < p.ceil → Gives .throttleStep s ((d.setPower { p with ceil := p.ceil - 1 }).setCeiling)) ∧
       (cool → p.thermalDuty = 0 → p.ceil = 0 → Gives .throttleStep s d)) ∧
      (let d2 := d.setPower { p with activity := act }
       let d3 := d2.setPower { d2.power with estimates := p.estimates ++ [d2.estimate d2.point] }
       let pt := d.point
       let top := d.rd Reg.POWER_STATUS_CEILING
       let q := (((List.range 9).filter (fun q => top ≤ q)).find? (fun q => d3.fits 1 1 q)).getD 8
       let up := q < pt ∧ p.holdUntil ≤ d.clock.now ∧ (∀ t, p.upAt = some t → t + 100000 ≤ d.clock.now) ∧ d3.fits 97 100 (pt - 1) = true
       let floors := fun (d : Device) => d.wr Reg.POWER_MEAS_FLOOR_W 0 (Nat.min d.floorW 65535)
       (d.distrust = true → Gives (.powerDecision act) s d3) ∧
       (d.distrust = false → ∃ d4 d5 : Device, Gives (.powerDecision act) s d5 ∧
         (p.moving = none → pt < q → d4 = d3.setPower { d3.power with goal := q, moving := some (pt + 1) }) ∧
         (p.moving = none → up → d4 = d3.setPower { d3.power with goal := pt - 1, moving := some (pt - 1), upAt := some d.clock.now }) ∧
         (p.moving = none → ¬ pt < q → ¬ up → d4 = d3) ∧
         (∀ m, p.moving = some m → pt < m →
           d4 = d3.setPower { d3.power with goal := if d.clock.now < p.holdUntil then Nat.max q p.goal else Nat.max q m }) ∧
         (∀ m, p.moving = some m → m ≤ pt → pt < q → d4 = d3.setPower { d3.power with goal := q, moving := some (pt + 1) }) ∧
         (∀ m, p.moving = some m → m ≤ pt → q = pt → d4 = d3.setPower { d3.power with goal := q, moving := none }) ∧
         (∀ m, p.moving = some m → m ≤ pt → q < pt → d4 = d3) ∧
         (d4.fits 1 1 8 = true → d5 = floors d4) ∧
         (d4.fits 1 1 8 = false → d.rd Reg.POWER_STATUS_BELOW_FLOOR = 1 →
           d5 = (floors d4).setPower { d4.power with above := false }) ∧
         (d4.fits 1 1 8 = false → d.rd Reg.POWER_STATUS_BELOW_FLOOR ≠ 1 →
           d5.rd Reg.POWER_STATUS_BELOW_FLOOR = 1 ∧ d5.rd Reg.POWER_STATUS_DUTY = d4.dutyA % 2 ^ Reg.POWER_STATUS_DUTY.width ∧ d5.power.credit = 0))) ∧
      (let sum := p.estimates.foldl (· + ·) 0
       let k := p.estimates.length
       ∃ d2 : Device, Gives (.powerMeasurement w acts) s d2 ∧ d2.rd Reg.POWER_MEAS_MEASURED_W = Nat.min w 65535 ∧ d2.power.estimates = [] ∧
        d2.power.meas = (w :: p.meas).take 10 ∧
        (k ≠ 0 → d2.rd Reg.POWER_MEAS_ESTIMATE_W = Nat.min (sum / k) 65535) ∧ (k = 0 → d2.power.deltas = p.deltas)) ∧
      (64 ≤ p.warm → Gives .warmupEnd s (d.wr Reg.POWER_STATUS_WARMUP 0 0)) ∧
      (p.warm < 64 → Gives .warmupEnd s d) ∧
      (p.moving = none → Gives .opStep s d) ∧
      (∀ m, p.moving = some m → m < 16 → ∃ d2 : Device, Gives .opStep s d2 ∧ d2.point = m ∧
        d2.power = { p with moving := if m < p.goal then some (m + 1) else none } ∧ d2.mem = d.mem) ∧
      (rail < 5 →
        let recent := d.clock.now :: p.droops.filter (fun t => d.clock.now < t + 1000000)
        let p2 := { p with stretched := setBit p.stretched rail true, droops := recent }
        ∃ d2 : Device, Gives (.droop rail) s d2 ∧
          d2.rd Reg.POWER_EVENTS_DROOPS = satAdd Reg.POWER_EVENTS_DROOPS.width (d.rd Reg.POWER_EVENTS_DROOPS) 1 % 2 ^ Reg.POWER_EVENTS_DROOPS.width ∧
          (recent.length < 64 → d2.power = p2) ∧
          (64 ≤ recent.length →
            let until_ := Nat.max p.holdUntil (d.clock.now + 10000000)
            let goal := Nat.max p.goal (d.point + 1)
            d2.power = if d.point < 8 then { p2 with droops := [], holdUntil := until_, goal := goal, moving := some (d.point + 1) }
              else { p2 with droops := [], holdUntil := until_ })) ∧
      (rail < 5 → Gives (.droopEnd rail) s (d.setPower { p with stretched := setBit p.stretched rail false })) ∧
      (5 ≤ rail → Gives (.droop rail) s d ∧ Gives (.droopEnd rail) s d))

/-! The host and CXL ports -/

/-- CXL links and decoders (R399 to R403): RETRAIN of a port that no committed decoder uses trains its links; a decoder that holds commits, and one
that does not shows ERROR; uncommitting maps nothing; a link that comes UP shows its device, one that goes down loses its decoders; a failed read
and a device event are recorded. -/
def Obligations.CxlPorts : Prop :=
  ∀ (s : State) (n width speed cap : Nat) (dpa : W64) (header : Bytes),
    let d := s.dev
    (d.pfOpen = true → n < 2 → (∀ j < 8, d.hdmOn j = true → d.targets j (2 * n) = false ∧ d.targets j (2 * n + 1) = false) →
      Gives (.cxlRetrain n) s
        ((d.setLink (2 * n) 1 0 0 0 0).setLink (2 * n + 1) (if d.rd Reg.CXL_PORT_CFG_BIFURCATE n = 1 then 1 else 3) 0 0 0 0)) ∧
    (d.pfOpen = true → n < 2 → (∃ j < 8, d.hdmOn j = true ∧ (d.targets j (2 * n) = true ∨ d.targets j (2 * n + 1) = true)) → Gives (.cxlRetrain n) s d) ∧
    (d.pfOpen = true → n < 8 → d.hdmOn n = false →
      (d.commitOk n = true → ∃ d2 : Device, Gives (.hdmCommit n) s d2 ∧ d2.hdmOn n = true ∧ d2.rd Reg.CXL_HDM_CTRL_ERROR n = 0 ∧
        d2.flow.lostHdm.contains n = false ∧ d2.mem = d.mem) ∧
      (d.commitOk n = false → Gives (.hdmCommit n) s ((d.wr Reg.CXL_HDM_CTRL_COMMIT n 0).wr Reg.CXL_HDM_CTRL_ERROR n 1))) ∧
    (d.pfOpen = true → n < 8 → ∃ d2 : Device, Gives (.hdmUncommit n) s d2 ∧ d2.hdmOn n = false ∧ d2.rd Reg.CXL_HDM_CTRL_COMMIT n = 0 ∧
      d2.mem = d.mem) ∧
    (d.live = true → n < 4 →
      (d.rd Reg.CXL_LINK_STATUS_STATE n = 1 → Gives (.cxlLinkDown n) s (d.setLink n 0 0 0 0 0)) ∧
      (d.rd Reg.CXL_LINK_STATUS_STATE n = 2 →
        Gives (.cxlLinkDown n) s (((((List.range 8).filter (fun j => (d.setLink n 0 0 0 0 0).hdmOn j && (d.setLink n 0 0 0 0 0).targets j n)).foldl
          Device.loseDecoder (d.setLink n 0 0 0 0 0))).post { code := 0x41, object := n }) ∧
        Gives (.cxlEvent n dpa header) s (d.post { code := 0x40, object := n, detail := le 8 dpa.toNat ++ slice header 0 16 })) ∧
      ((d.bifurcate (n / 2)).rd Reg.CXL_LINK_STATUS_STATE n < 2 →
        cxlWidthOk ((d.bifurcate (n / 2)).rd Reg.CXL_LINK_STATUS_STATE (n / 2 * 2 + 1) != 3) width = true → 1 ≤ speed → speed ≤ 6 → 0 < cap → cap < 65536 →
        Gives (.cxlLinkTrain n width speed cap) s
          (((d.bifurcate (n / 2)).setLink n 2 width speed 1 cap).post { code := 0x42, object := n, detail := le 2 cap })) ∧
      ((d.bifurcate (n / 2)).rd Reg.CXL_LINK_STATUS_STATE n < 2 → cap = 0 → Gives (.cxlLinkTrain n width speed cap) s ((d.bifurcate (n / 2)).setLink n 0 0 0 0 0)) ∧
      (2 ≤ (d.bifurcate (n / 2)).rd Reg.CXL_LINK_STATUS_STATE n → Gives (.cxlLinkTrain n width speed cap) s (d.bifurcate (n / 2)))) ∧
    (∀ link a, d.live = true → isCxl n = true → d.cxlRoute n = some (link, a) →
      Gives (.cxlReadTimeout n) s (({ d with bad := if d.bad.contains (n / 32) then d.bad else d.bad ++ [n / 32] } : Device).post { code := 0x40, object := link, detail := le 8 a ++ le 16 0 }))

/-- The apertures (R52, R270, R386 to R388, R474, R479): a read of an address that can be reached completes with its bytes, one that is closed with all
ones; a write is performed at the home and outside the module reserve; an AtomicOp completes with the old value, and one that takes a reference count
from 1 to 0 releases its object; an access whose segment descriptor is being replaced is held. In RECOVERY reads and writes reach the staging buffer. A
function in reset answers Unsupported Request, and after a fatal event reads give all ones and writes are discarded (R249, R391). A read of the host whose
last request completes ends the wait for it; one that fails or times out ends it with a failure (R267): an entry's structure comes, a management slot's
command is accepted, also after a fatal event, or its ring stops (R405, R409); then the management commands that waited take their turns (R407). -/
def Obligations.HostAccesses : Prop :=
  ∀ (s : State) (fn x n op : Nat) (data : Bytes) (w64 : Bool) (o c : W64) (d : Device) (a : Nat),
    (s.dev.hostOpen fn = true → s.dev.inReset fn = false → s.dev.stage = 4 → s.dev.life.fatal = false →
      (s.dev.apertureIn fn x n = true →
        (s.dev.apertureReach fn x n 0 = (d, .held) → Gives (.apertureRead fn x n) s (s.dev.hold (.read fn x n))) ∧
        (s.dev.apertureReach fn x n 0 = (d, .mem a) →
          Gives (.apertureRead fn x n) s ((d.cohRead 4 (apertureHoop fn) a n false).emit (.completion fn .sc (d.mem.read a n)))) ∧
        (s.dev.apertureReach fn x n 0 = (d, .closed) → Gives (.apertureRead fn x n) s (d.emit (.completion fn .sc (List.replicate n 0xFF)))) ∧
        (s.dev.apertureReach fn x n 0 = (d, .bad a) →
          Gives (.apertureRead fn x n) s (((d.pinRange a n).apertureError fn a).emit (.completion fn .ca [])))) ∧
      (s.dev.apertureIn fn x data.length = true →
        (s.dev.apertureReach fn x data.length 1 = (d, .mem a) →
          (fn = 0 ∧ d.inModuleReserve a = true → Gives (.apertureWrite fn x data) s d) ∧
          (fn ≠ 0 ∨ d.inModuleReserve a = false →
            let e := d.agentWrite 4 (apertureHoop fn) a data false
            Gives (.apertureWrite fn x data) s e ∧ Stored d e [(0, a)] data.length (fun _ => data))) ∧
        (s.dev.apertureReach fn x data.length 1 = (d, .closed) → Gives (.apertureWrite fn x data) s d) ∧
        (s.dev.apertureReach fn x data.length 1 = (d, .held) → Gives (.apertureWrite fn x data) s (s.dev.hold (.write fn x data)))) ∧
      (let k := if w64 then 8 else 4
       let c2 : Instr := .apertureAtomicop fn x op w64 o c
       s.dev.apertureIn fn x k = true → x % k = 0 → op ≤ 2 →
        (s.dev.apertureReach fn x k 2 = (d, .mem a) → (fn ≠ 0 ∨ d.inModuleReserve a = false) →
          let old := ofLe (d.mem.read a k)
          let new := atomicNew (atomicOpOf op) (8 * k) false old (o.toNat % 2 ^ (8 * k)) (c.toNat % 2 ^ (8 * k))
          let e := (d.cohAtomic 4 (apertureHoop fn) a k).writeDev a (le k new)
          (op ≠ 0 ∨ old % 2 ^ 32 ≠ 1 ∨ new % 2 ^ 32 ≠ 0 ∨ e.countAt a = none →
            Gives c2 s (e.emit (.completion fn .sc (le k old)))) ∧
          (∀ h y, op = 0 → old % 2 ^ 32 = 1 → new % 2 ^ 32 = 0 → e.countAt a = some (h, y) →
            Gives c2 s ((e.driverSub h y).emit (.completion fn .sc (le k old))))) ∧
        (s.dev.apertureReach fn x k 2 = (d, .closed) → Gives c2 s (d.emit (.completion fn .ca []))) ∧
        (s.dev.apertureReach fn x k 2 = (d, .bad a) → Gives c2 s (((d.pinRange a k).apertureError fn a).emit (.completion fn .ca []))) ∧
        (s.dev.apertureReach fn x k 2 = (d, .held) → Gives c2 s (s.dev.hold (.atomic fn x op w64 o.toNat c.toNat))))) ∧
    (s.dev.hostOpen fn = true →
      (let k := if w64 then 8 else 4
       inPage x k = true → x % k = 0 → op ≤ 2 →
        (s.dev.inReset fn = true ∨ s.dev.stage ≠ 4 ∨ s.dev.apertureIn fn x k = false →
          Gives (.apertureAtomicop fn x op w64 o c) s (s.dev.emit (.completion fn .ur []))) ∧
        (s.dev.inReset fn = false → s.dev.stage = 4 → s.dev.apertureIn fn x k = true → s.dev.life.fatal = true →
          Gives (.apertureAtomicop fn x op w64 o c) s (s.dev.emit (.completion fn .ca [])))) ∧
      (s.dev.apertureIn fn x n = true →
        (s.dev.inReset fn = true → Gives (.apertureRead fn x n) s (s.dev.emit (.completion fn .ur []))) ∧
        (s.dev.inReset fn = false → s.dev.stage = 4 → s.dev.life.fatal = true →
          Gives (.apertureRead fn x n) s (s.dev.emit (.completion fn .sc (List.replicate n 0xFF)))) ∧
        (s.dev.inReset fn = false → s.dev.stage = 5 → x + n ≤ 2 ^ 26 →
          Gives (.apertureRead fn x n) s (s.dev.emit (.completion fn .sc (slice s.dev.boot.staging x n))))) ∧
      (s.dev.apertureIn fn x data.length = true →
        (s.dev.inReset fn = true ∨ (s.dev.stage = 4 ∧ s.dev.life.fatal = true) → Gives (.apertureWrite fn x data) s s.dev) ∧
        (s.dev.inReset fn = false → s.dev.stage = 5 → x + data.length ≤ 2 ^ 26 → s.dev.rd Reg.RECOVERY_CTRL_BUSY = 0 →
          Gives (.apertureWrite fn x data) s (s.dev.setBoot { s.dev.boot with staging := stageAt s.dev.boot.staging x data })))) ∧
    (∀ (y : Ask) (r : HRead), s.dev.flow.asks.find? (fun z => z.tag == some n) = some y → Tab.find? s.dev.flow.reads y.read = some r →
      let others := fun (l : List Ask) => Device.sendAsks { s.dev with flow := { s.dev.flow with asks := l } }
      let served := fun (d : Device) k =>
        let d := match d.readHoop r with
          | some h => d.cnt h 7 k
          | none => d
        let d := if d.readDie r = 4 then d else d.ringData 4 (d.readDie r) k
        ({ d with flow := { d.flow with reads := Tab.erase d.flow.reads y.read } } : Device)
      let gives := fun (c : Instr) (d : Device) => exec c s = .next (State.mgmtGo { s with dev := d })
      let failed := served (others ((s.dev.flow.asks.filter (fun z => z != y)).filter (fun z => z.read != y.read || !z.waiting))) 0
      let l := s.dev.flow.asks.map (fun z => if z = y then { y with tag := none, come := some data } else z)
      let mine := l.filter (fun z => z.read == y.read)
      let bytes := mine.flatMap (fun z => z.come.getD [])
      let whole := served (others (l.filter (fun z => z.read != y.read))) bytes.length
      (s.dev.live = true → (∃ z ∈ mine, z.come = none) → gives (.pcieReadCompletion n .sc data) (others l)) ∧
      (r.kind = 5 → s.dev.live = true →
        ((∀ z ∈ mine, z.come ≠ none) → gives (.pcieReadCompletion n .sc data) (whole.entArrived r.a r.b r.c (.ok bytes))) ∧
        gives (.pcieReadCompletion n .ur data) (failed.entArrived r.a r.b r.c (.error 0x60)) ∧
        gives (.pcieReadCompletion n .ca data) (failed.entArrived r.a r.b r.c (.error 0x60)) ∧
        gives (.pcieCompletionTimeout n) (failed.entArrived r.a r.b r.c (.error 0x60))) ∧
      (r.kind = 4 →
        ((∀ z ∈ mine, z.come ≠ none) →
          gives (.pcieReadCompletion n .sc data) (whole.slotComes r.a (slice (bytes ++ List.replicate 64 0) 0 64))) ∧
        gives (.pcieReadCompletion n .ur data) (failed.fetchFault r.a r.addr) ∧
        gives (.pcieCompletionTimeout n) (failed.fetchFault r.a r.addr))) ∧
    (s.dev.flow.asks.find? (fun z => z.tag == some n) = none →
      exec (.pcieCompletionTimeout n) s = .next s.mgmtGo ∧ ∀ st, exec (.pcieReadCompletion n st data) s = .next s.mgmtGo)

/-! The coherent domain -/

/-- Requests (R239 to R246, Tables 9-2 to 9-6): an agent that may send one to the home of a line gives it to the home, which takes it at once while no
other is open or waits for the line and the slice has room, and else queues it; a WB keeps its data until then. An agent that has one for the line
already, or whose state of the line sends none, sends nothing. What the domain has met that is to be reported is reported (R234, R401). -/
def Obligations.CoherenceRequests : Prop :=
  ∀ (kind a n h off : Nat) (data : Bytes) (op : AtomOp) (s : State),
    let d := s.dev
    let c := d.coh
    let owner := ((Tab.find? (Tab.get [] c.caches a) n).map (fun (l : CLine) => l.hoop)).getD 0
    let t : Track := { kind := kind, agent := a, hoop := if kind = 4 then owner else h, off := if kind = 6 ∨ kind = 7 then off else 0,
                       data := if kind = 3 ∨ kind = 6 then data else [], op := if kind = 7 then some op else none }
    let c2 : Instr := match kind with
      | 0 => .rdShared a n h
      | 1 => .rdOwn a n h
      | 2 => .invOwn a n h
      | 3 => .wrLine a n { hoop := h, data := data }
      | 4 => .wb a n
      | 5 => .rdCur a n h
      | 6 => .wrCur a n { hoop := h, off := off, data := data }
      | _ => .atomic a n { hoop := h, off := off, op := op }
    kind < 8 → d.live = true → a ≤ 4 → d.isLine n = true → t.hoop < 8 →
    (kind = 3 → data.length = 128) → (kind = 6 → data ≠ [] ∧ off + data.length ≤ 128) →
    (kind = 7 → op.aop ≤ 10 ∧ (op.w64 = true → op.aop < 8) ∧ off % (if op.w64 then 8 else 4) = 0 ∧ off < 128) →
    let may := c.maySend kind a n (d.wayMask t.hoop a)
    let c3 := if kind = 4 then { c with wbs := c.wbs ++ [(a, n)] } else c
    let sent := (d.setCoh c3).ringMsg a (homeDie (n * 128)) kind n t.bytes
    (c.asked a n = false → may = true → c.busy n = false → c.openAt n < 48 → Gives c2 s (sent.take_ n t).reportFailed) ∧
    (c.asked a n = false → may = true → (c.busy n = true ∨ 48 ≤ c.openAt n) → Gives c2 s (sent.setCoh { c3 with waiting := c3.waiting ++ [(n, t)] }).reportFailed) ∧
    (c.asked a n = true ∨ may = false → Gives c2 s d.reportFailed) ∧
    (∀ e : Device, e.coh.failed = [] → e.coh.lost = [] → e.reportFailed = e)

/-- Snoops, responses and completions (Tables 9-3 and 9-4, R233 to R235, R240 to R246): a snooped agent pins a dirty uncorrectable line, looks the line
up, changes its state and answers, a line whose WB is on its way being answered from that; the home takes the answer; the completion gives the requester
its state, but for a line that memory supplies with an uncorrectable unit, moves the request's bytes, performs what it writes and lets the home take the
next request. A snoop, response or completion that nobody waits for is fatal (Table 9-6), and so are an answer that does not come in time and an error
that is met (R248). -/
def Obligations.CoherenceMessages : Prop :=
  ∀ (a n rsp group suspect : Nat) (t : Track) (s : State),
    let d := s.dev
    let c := d.coh
    let home := homeDie (n * 128)
    let snp : Instr := match group with
      | 0 => .snpShared a n
      | 1 => .snpInv a n
      | _ => .snpCur a n
    let rspC : Instr := match rsp with
      | 0 => .rspI a n
      | 1 => .rspS a n
      | 2 => .rspFwd a n
      | _ => .rspDirty a n
    d.live = true → a ≤ 4 → d.isLine n = true →
    (group < 3 → c.snoopOk group a n = false → Gives snp s (d.moduleFatal 8 a 7 0x1F n)) ∧
    (Tab.find? c.opened n = some t → t.due.contains a = true → group = snoopGroup t.kind →
      let answers := fun (d2 : Device) (c2 : Coh) r =>
        (d2.setCoh { c2 with opened := Tab.insert c2.opened n { t with due := t.due.erase a }, ring := c2.ring ++ [(a, n, r)] }).ringMsg a home (11 + r) n
      let d1 := (d.pinLine n).lookedUp a n (a != t.agent && supplies t.kind ((d.pinLine n).coh.state a n))
      let c1 := d1.coh
      (∀ cause, d.met a n [3, 5, 7] = some cause → Gives snp s (d.moduleFatal cause a 7 0x1F n)) ∧
      (d.met a n [3, 5, 7] = none → d1.life.fatal = true → Gives snp s d1) ∧
      (d.met a n [3, 5, 7] = none → d1.life.fatal = false →
        (a ≠ t.agent → c1.wbs.contains (a, n) = false →
          let r := c1.snoopAt t.kind a n
          let d2 := d1.cleaned t.kind a n
          Gives snp s (answers d2 (d2.coh.setState a n r.1) r.2)) ∧
        (a = t.agent → c1.wbs.contains (a, n) = false →
          Gives snp s (answers d1 (c1.setState a n (c1.state a n)) (if c1.state a n = 0 then 0 else 1))) ∧
        (c1.wbs.contains (a, n) = true →
          let tag := ((Tab.find? (Tab.get [] c1.caches a) n).map (fun (l : CLine) => l.hoop)).getD
            (((c1.waiting.find? (fun w => w.1 == n && w.2.agent == a && w.2.kind == 4)).map (fun w => w.2.hoop)).getD t.hoop)
          let d2 := if t.kind = 0 ∨ t.kind = 5 then d1.memBytes tag n 1 128 else d1.cleaned t.kind a n
          let c2 := d2.coh.setState a n 0
          Gives snp s (answers d2
            { c2 with wbs := c2.wbs.erase (a, n), waiting := c2.waiting.filter (fun w => !(w.1 == n && w.2.agent == a && w.2.kind == 4)) }
            (snoop t.kind 4).2)))) ∧
    (rsp < 4 → d.rspOk rsp a n = false → Gives rspC s (d.moduleFatal 8 home 7 (sliceOf n) n)) ∧
    (rsp < 4 → Tab.find? c.opened n = some t → c.ring.contains (a, n, rsp) = true →
      (∀ cause, d.met home n [3, 4] = some cause → Gives rspC s (d.moduleFatal cause home 7 (sliceOf n) n)) ∧
      (d.met home n [3, 4] = none →
        Gives rspC s (d.setCoh { c with ring := c.ring.erase (a, n, rsp), opened := Tab.insert c.opened n { t with rsps := t.rsps ++ [(a, rsp)] } }))) ∧
    ((∀ x, Tab.find? c.opened n = some x → x.agent ≠ a) → Gives (.cmp a n) s (d.moduleFatal 8 a 7 0x1F n)) ∧
    (Tab.find? c.opened n = some t → t.agent = a →
      ((t.due ≠ [] ∨ ∃ r ∈ c.ring, r.2.1 = n) → Gives (.cmp a n) s d.reportFailed) ∧
      (t.due = [] → (∀ r ∈ c.ring, r.2.1 ≠ n) →
        (∀ cause, d.met a n [3] = some cause → Gives (.cmp a n) s (d.moduleFatal cause a 7 0x1F n).reportFailed) ∧
        (d.met a n [3] = none →
          let rs := t.rsps.filter (fun r => r.1 != a)
          let brings := bringsData t.kind || (t.kind == 2 && t.rsps.contains (a, 0))
          let memory := brings && (supplier t.kind rs).isNone && !rs.any (fun r => r.2 == 3)
          let d1 := ((d.setCoh { c with opened := Tab.erase c.opened n }).answerTraffic t.kind a n brings rs).answerMemory t.kind n t.bytes t.hoop brings rs
            (lineMask t.off t.bytes)
          let e := d1.pinVictims a n (d1.wayMask t.hoop a) 16
          let d2 := if (memory && d1.badAt (n * 128) 128) = true then d1
            else e.settleCoh a n (e.coh.granted t.kind a n t.hoop (e.wayMask t.hoop a) (rs.map (·.2)))
          Gives (.cmp a n) s (if d2.life.fatal = true then d2 else (d2.perform n t).takeNext n d2.coh.waiting.length).reportFailed)) ∧
      (suspect ≤ 4 → Gives (.completionTimeout a suspect n) s (d.moduleFatal 2 a suspect 0x1F n))) ∧
    (Tab.find? c.opened n = some t → (t.due.contains suspect = true ∨ ∃ r ∈ c.ring, r.1 = suspect ∧ r.2.1 = n) →
      Gives (.snoopTimeout home suspect n) s (d.moduleFatal 1 home suspect (sliceOf n) n))

/-- A fatal event (R248, R249): every hoop is DEAD, device memory and the copies of its lines are lost, and no second one follows; unless the rind
die is dead the fatal registers hold the first event, ALERT_N is asserted, on I3C with an in-band interrupt, and the record is sent to the BMC and the host. -/
def Obligations.FatalEvent : Prop :=
  ∀ (d : Device) (cause reporter suspect slice line : Nat), d.life.fatal = false →
    let e := d.moduleFatal cause reporter suspect slice line
    (∀ h < 8, e.hoopState h = 5) ∧ e.mem = Memory.undefinedSince d.fresh ∧ e.coh = {} ∧ e.life.fatal = true ∧
    (∀ x y z u v, e.moduleFatal x y z u v = e) ∧
    (suspect ≠ 4 → e.pins.alert = true ∧
      (∃ rec, e.out = d.out ++ (if !d.pins.alert && !d.pins.straps.sbMode then [.inBand d.sbAddress] else [])
          ++ [vendorMsg (le 1 0x79 ++ le 3 0 ++ le 4 0xFFFFFFFF ++ rec)] ++ [.aer] ∧ rec = le 64 (e.rd Reg.FATAL_RECORD_RECORD)) ∧
      (d.rd Reg.COH_FATAL_VALID ≠ 1 → e.rd Reg.COH_FATAL_VALID = 1 ∧ e.rd Reg.COH_FATAL_CAUSE = cause % 2 ^ Reg.COH_FATAL_CAUSE.width ∧
        e.rd Reg.COH_FATAL_SUSPECT = suspect % 2 ^ Reg.COH_FATAL_SUSPECT.width) ∧
      (d.rd Reg.COH_FATAL_VALID = 1 → e.rd Reg.COH_FATAL_CAUSE = d.rd Reg.COH_FATAL_CAUSE ∧
        e.rd Reg.FATAL_RECORD_RECORD = d.rd Reg.FATAL_RECORD_RECORD)) ∧
    (suspect = 4 → e.out = d.out ∧ e.life.rindDead = true)

/-! Klozar -/

/-- Flits (R345 to R348, R356, R357, R371): what FEC found is counted; a payload flit in order enters the receive buffer and its packets are taken; one that
FEC or CRC rejects, or out of order, asks for a replay; an abort flit in order discards the packet under way and goes on with it; a packet for another
chip leaves on its route one class higher, and a request that cannot is refused. The bytes of a flit and the header of a packet spell their fields. -/
def Obligations.FlitsAndForwarding : Prop :=
  (∀ f : Flit, f.ftype < 4 → f.vc < 4 → f.cls < 4 → f.pstart < 256 → f.seq < 4096 → f.ack < 4096 → f.payload.length = 242 → f.cvc < 4 → f.ccls < 4 →
    f.ccount < 64 → f.bytes.length = 256 ∧ flitOf f.bytes = f ∧ flitGood f.bytes = true) ∧
  (∀ k : Pkt, k.dst < 4096 → k.src < 4096 → k.ptype < 64 → k.data.length < 8192 → k.tag < 65536 → k.job < 65536 → k.win < 16 → k.offset < 2 ^ 48 →
    pktOf (pktHeader k) k.data = k ∧ pktLen (pktHeader k) = k.data.length) ∧
  ∀ (p cls : Nat) (fec : Fec) (b : Bytes) (k : Pkt) (s : State),
    let d := s.dev
    let f := flitOf b
    let e := d.fecSeen p fec
    let g := e.flitControl p f
    let good := fec.good && flitGood b
    d.live = true → d.portUp p = true →
    (e.portUp p = false → Gives (.flitReceive p { fec := fec, bytes := b }) s e) ∧
    (e.portUp p = true →
      (good = false → Gives (.flitReceive p { fec := fec, bytes := b }) s (e.nak p) ∧ (f.ftype = 2 → Gives (.abortFlit p { fec := fec, bytes := b }) s (e.nak p))) ∧
      (good = true → f.ftype = 0 → Gives (.flitReceive p { fec := fec, bytes := b }) s g) ∧
      (good = true → f.ftype = 3 → Gives (.flitReceive p { fec := fec, bytes := b }) s e) ∧
      (good = true → f.ftype = 1 ∨ f.ftype = 2 → f.seq ≠ (e.port p).rxSeq →
        Gives (.flitReceive p { fec := fec, bytes := b }) s (if (e.port p).naking then e else e.nak p)) ∧
      (good = true → f.seq = (e.port p).rxSeq →
        (f.ftype = 1 → Gives (.flitReceive p { fec := fec, bytes := b }) s (if g.portUp p then g.payloadFlit p f else g)) ∧
        (f.ftype = 2 → Gives (.abortFlit p { fec := fec, bytes := b }) s (if g.portUp p then g.abortFlit p f else g)))) ∧
    (cls ≤ 3 → k.dst ≠ d.ownChip →
      (pktOk k = false → Gives (.packetForward p cls k) s (d.countSat Reg.KLZ_PORT_ERR_FEC_UNCORR p)) ∧
      (pktOk k = true →
        (∀ q, d.routePort k.dst (cls + 1) = some q → Gives (.packetForward p cls k) s (d.sendOn q (cls + 1) k)) ∧
        (d.routePort k.dst (cls + 1) = none → (k.ptype = 0x01 ∨ k.ptype = 0x03 ∨ k.ptype = 0x05) →
          Gives (.packetForward p cls k) s (d.respond k 0x07 4 [])) ∧
        (d.routePort k.dst (cls + 1) = none → (k.ptype ≠ 0x01 ∧ k.ptype ≠ 0x03 ∧ k.ptype ≠ 0x05) → Gives (.packetForward p cls k) s d)))

/-- Remote accesses at their target and back at their source (R268, R270, R276, R350 to R352, Tables 10-8, 14-5): an admitted read, write or atomic of a
readable address is served and answered, a refused one answered with its RSTATUS, one whose window or segment is being replaced held; an answer ends
the open request that it serves, and a timeout ends one without. A packet that the module sent to itself is taken once, from its internal path. -/
def Obligations.RemotePackets : Prop :=
  ∀ (p h a n : Nat) (k : Pkt) (r : Remote) (d2 : Device) (s : State),
    let d := s.dev
    let closed := d.winClosed h k.win || d.segClosed h (d.win h k.win).seg
    (d.receives p 0x01 k → d.jobHoop k.job = some h → closed = false →
      let c := fieldLe k.data 7 1
      (d.remoteAt h 3 c k = (d2, .ok a) →
        (d2.badAt a c = false → Gives (.rdReq p k) s ((d2.cohRead 4 h a c false).respondFor h k 0x02 0 (d2.mem.read a c))) ∧
        (d2.badAt a c = true → Gives (.rdReq p k) s (d2.refuseFor h k 3))) ∧
      (∀ st, d.remoteAt h 3 c k = (d2, .error st) → Gives (.rdReq p k) s (d2.refuseFor h k st))) ∧
    (d.receives p 0x03 k → d.jobHoop k.job = some h → closed = false →
      (d.remoteAt h 4 k.data.length k = (d2, .ok a) →
        let e := d2.agentWrite 4 h a k.data false
        Gives (.wr p k) s (e.respondFor h k 0x04 0 []) ∧ Stored d2 e [(0, a)] k.data.length (fun _ => k.data)) ∧
      (∀ st, d.remoteAt h 4 k.data.length k = (d2, .error st) → Gives (.wr p k) s (d2.refuseFor h k st))) ∧
    (d.receives p 0x05 k → d.jobHoop k.job = some h → closed = false →
      let f := fieldLe k.data 0 1
      let c := if f.testBit 4 then 8 else 4
      (d.remoteAt h 5 c k = (d2, .ok a) →
        (d2.badAt a c = false →
          let old := ofLe (d2.mem.read a c)
          Gives (.atomPacket p k) s (((d2.cohAtomic 4 h a c).writeDev a
            (le c (atomicNew (f % 16) (8 * c) (f.testBit 5) old (fieldBe k.data (16 - c) c) (fieldBe k.data (24 - c) c)))).respondFor h k 0x06 0
              (be 8 old))) ∧
        (d2.badAt a c = true → Gives (.atomPacket p k) s (d2.refuseFor h k 3))) ∧
      (∀ st, d.remoteAt h 5 c k = (d2, .error st) → Gives (.atomPacket p k) s (d2.refuseFor h k st))) ∧
    (d.receives p 0x01 k ∨ d.receives p 0x03 k ∨ d.receives p 0x05 k →
      let c : Instr := if k.ptype = 0x01 then .rdReq p k else if k.ptype = 0x03 then .wr p k else .atomPacket p k
      (d.jobHoop k.job = none → Gives c s (d.respond k 0x07 1 [])) ∧
      (d.jobHoop k.job = some h → closed = true → Gives c s { d with boot := { d.boot with held := d.boot.held ++ [.remote k] } })) ∧
    (d.remoteOf k.src k.tag = some (n, r) →
      let e := (d.dropRemote n).countAnswer r k
      (d.receives p 0x02 k → r.pkt.ptype = 0x01 →
        Gives (.rdRsp p k) s (e.settleRemote n r (.ok (slice k.data 0 (fieldLe r.pkt.data 7 1))))) ∧
      (d.receives p 0x04 k → r.pkt.ptype = 0x03 → Gives (.wrAck p k) s (e.settleRemote n r (.ok []))) ∧
      (d.receives p 0x06 k → r.pkt.ptype = 0x05 → Gives (.atomRsp p k) s (e.settleRemote n r (.ok (oldWord r.pkt k)))) ∧
      (d.receives p 0x07 k → k.offset % 256 ≠ 4 → (r.pkt.ptype = 0x01 ∨ r.pkt.ptype = 0x03 ∨ r.pkt.ptype = 0x05) →
        Gives (.refuse p k) s (e.settleRemote n r (.error (rstatusFault (k.offset % 256)))))) ∧
    (d.receives p 0x07 k → k.offset % 256 = 4 → d.remoteTag k.tag = some (n, r) → (r.pkt.ptype = 0x01 ∨ r.pkt.ptype = 0x03 ∨ r.pkt.ptype = 0x05) →
      Gives (.refuse p k) s (((d.dropRemote n).countAnswer r k).settleRemote n r (.error 0x15))) ∧
    (d.live = true → Tab.find? d.klz.remotes n = some r →
      (r.kind ≠ 3 → Gives (.remoteTimeout n) s ((d.dropRemote n).settleRemote n r (.error 0x15))) ∧
      (r.kind = 3 → let f := (d.dropRemote n).free 8; Gives (.remoteTimeout n) s (f.1.msgEnds r false f.2))) ∧
    (d.live = true → k.dst = d.ownChip → d.klz.loop.contains k = true →
      let e := d.setKlz { d.klz with loop := d.klz.loop.erase k }
      (k.ptype = 0x01 → Gives (.rdReq 8 k) s (e.serveRead k)) ∧ (k.ptype = 0x03 → Gives (.wr 8 k) s (e.serveWrite k)) ∧
      (k.ptype = 0x05 → Gives (.atomPacket 8 k) s (e.serveAtomic k)) ∧ (k.ptype = 0x10 → Gives (.msg 8 k) s (e.msgArrives k)) ∧
      (k.ptype = 0x11 → Gives (.msgAck 8 k) s (e.msgAcked k)))

/-- Messages (R353 to R355): one that a queue with a free slot admits is written with its record and TAIL, and acknowledged; a full queue reads HEAD
first, and refuses the message while no slot is free; one for a hoop that is not ACTIVE or a queue that does not admit it is refused; an acknowledgement
ends its message at the sender, or has it sent again while its queue is full. -/
def Obligations.Messages : Prop :=
  ∀ (p n : Nat) (k : Pkt) (r : Remote) (s : State),
    let d := s.dev
    let h := k.offset % 8
    let key := h * 16 + bits k.offset 6 3
    let x := d.rxq key
    let e := if x.accept = 2 then d.step1 else d
    let fits := d.rxAdmits h x.accept k && decide (64 + k.data.length ≤ 2 ^ x.slotLog2)
    (d.receives p 0x10 k →
      (d.hoopState h = 1 → fits = true →
        (x.full = false →
          let put := e.writeVa h (x.ring + x.seq % 2 ^ x.countLog2 * 2 ^ x.slotLog2) (e.rxHeader h x.seq k ++ k.data) (who := h)
          (put = none → Gives (.msg p k) s (e.msgLost h k)) ∧
          (∀ d2 : Device, put = some d2 →
            (d2.writeVa h x.ctrl (le 4 (x.seq + 1)) (who := h) = none → Gives (.msg p k) s (d2.msgLost h k)) ∧
            (∀ d3 : Device, d2.writeVa h x.ctrl (le 4 (x.seq + 1)) (who := h) = some d3 →
              Gives (.msg p k) s ((d3.setRxq key { x with seq := x.seq + 1 }).msgAck h k 0)))) ∧
        (x.full = true →
          (∀ d2 st, e.readHead key = (d2, .error st) → Gives (.msg p k) s (d2.msgAck h k 5)) ∧
          (∀ d2, e.readHead key = (d2, .ok none) →
            Gives (.msg p k) s (d2.setRxq key { d2.rxq key with held := (d2.rxq key).held ++ [(k.tag, k)] })) ∧
          (∀ d2 v, e.readHead key = (d2, .ok (some v)) →
            let d3 := d2.setRxq key { d2.rxq key with head := v }
            Gives (.msg p k) s (if (d3.rxq key).full then d3.msgAck h k 5 else d3.msgTake key k)))) ∧
      (d.hoopState h = 0 → Gives (.msg p k) s (d.respond k 0x11 2 [])) ∧
      (2 ≤ d.hoopState h → Gives (.msg p k) s (d.msgAck h k 2)) ∧
      (d.hoopState h = 1 → fits = false → Gives (.msg p k) s (e.msgAck h k 6)) ∧
      (x.accept = 0 ∨ (x.accept = 3 ∧ k.src ≠ d.ownChip) → fits = false)) ∧
    (d.receives p 0x11 k → d.remoteOf k.src k.tag = some (n, r) → r.kind = 3 →
      (k.offset % 256 ≠ 5 ∨ r.sent + 1000000 ≤ d.clock.now →
        Gives (.msgAck p k) s (((d.dropRemote n).countAnswer r k).msgEnds r (k.offset % 256 == 0) (k.offset % 256))) ∧
      (k.offset % 256 = 5 → d.clock.now < r.sent + 1000000 →
        Gives (.msgAck p k) s ((d.cnt r.hoop 12 16).setKlz { d.klz with remotes := Tab.insert d.klz.remotes n { r with resend := true } }))) ∧
    (d.live = true → Tab.find? d.klz.remotes n = some r → r.resend = true →
      (r.sent + 1000000 ≤ d.clock.now → Gives (.msgResend n) s ((d.dropRemote n).msgEnds r false 5)) ∧
      (d.clock.now < r.sent + 1000000 →
        let e := d.setKlz { d.klz with remotes := Tab.insert d.klz.remotes n { r with resend := false } }
        (e.sendPkt r.pkt = none → Gives (.msgResend n) s e) ∧
        (∀ d2, e.sendPkt r.pkt = some d2 → Gives (.msgResend n) s (d2.cnt r.hoop 11 (16 + r.pkt.data.length)))))

/-- Board and time packets, and the loss of the manager or the time master (R360 to R372, R440): each received packet is handled, and a module that
has no tick source of its kind left says so. The training of ports (R359, R364, R371): each event moves a port that is in the state before it; a
port that fails is FAILED, posted and announced; one whose partner is wired rightly is HELD until it may rise, and a miswired one is disabled.
DELAY_EXCHANGE asks for the delay of a port that is UP. -/
def Obligations.BoardAndPorts : Prop :=
  (∀ (p : Nat) (k : Pkt) (s : State),
      let d := s.dev
      (d.receives p 0x20 k → Gives (.tick p k) s (d.tickPkt p k)) ∧
      (d.receives p 0x21 k →
        Gives (.delayReq p k) s (d.sendOn p 0 (d.ownPkt p 0x22 (slice k.data 0 8 ++ be 8 d.clock.now ++ be 8 d.clock.now)))) ∧
      (d.receives p 0x22 k → (d.port p).t1 = some (fieldBe k.data 0 8) → (d.port p).ds = [] →
        let v : Int := (((d.clock.now : Int) - fieldBe k.data 0 8) - ((fieldBe k.data 16 8 : Int) - fieldBe k.data 8 8)).tdiv 2
        Gives (.delayRsp p k) s ((d.setPort p { d.port p with ds := [v], t1 := none }).wr Reg.KLZ_PORT_STATUS_DELAY_NS p (Nat.min 65535 v.toNat))) ∧
      (d.receives p 0x23 k →
        (k.src = d.ownChip ∨ (d.timesOf k.src).contains (fieldBe k.data 0 8) = true → Gives (.time p k) s d) ∧
        (k.src ≠ d.ownChip → (d.timesOf k.src).contains (fieldBe k.data 0 8) = false → Gives (.time p k) s (d.timePkt p k) ∧
          (d.timePkt p k).timesOf k.src = (fieldBe k.data 0 8 :: d.timesOf k.src).take 8)) ∧
      (d.receives p 0x28 k → fieldBe k.data 0 2 = 1 → Gives (.boardUp p k) s (d.boardUpMsg p k)) ∧
      (d.receives p 0x28 k → fieldBe k.data 0 2 = 2 → d.role = 2 → fieldBe k.data 16 2 / 8 = d.rd Reg.KLZ_ID_BOARD →
        Gives (.portReport p k) s (d.setKlz { d.klz with
          faultMap := Tab.insert d.klz.faultMap (fieldBe k.data 16 2 % 8) ((List.range 8).map (fun i => fieldLe k.data (18 + i) 1)) })) ∧
      (d.receives p 0x28 k → fieldBe k.data 0 2 = 3 → d.role = 2 → k.src / 8 = d.rd Reg.KLZ_ID_BOARD →
        Gives (.statsSummary p k) s (d.setKlz { d.klz with
          summaries := Tab.insert d.klz.summaries (k.src % 8) (slice k.data 16 256)
          fresh := d.klz.fresh.filter (· != k.src % 8) ++ [k.src % 8] })) ∧
      (d.receives p 0x30 k → fieldBe k.data 0 2 ≠ d.ownChip →
        (∀ r, Tab.find? d.klz.db (fieldBe k.data 0 2) = some r → 0 < ringDiff 32 (fieldBe k.data 4 4) r.seq ∧
          ringDiff 32 (fieldBe k.data 4 4) r.seq < 2 ^ 31) →
        ∃ d2 : Device, Gives (.linkState p k) s d2 ∧ d2.klz.stale = true ∧
          (Tab.find? d2.klz.db (fieldBe k.data 0 2)).map (·.seq) = some (fieldBe k.data 4 4)) ∧
      (d.live = true → d.role = 1 → d.klz.ticked = true → d.klz.lost = false → Gives .managerLost s d.loseManager) ∧
      (d.live = true → d.role = 2 → (∃ m, d.klz.master = some m ∧ m ≠ d.ownChip) → d.rd Reg.KLZ_TICK_TM_PRESENT = 1 → Gives .timeMasterLost s
        ((((d.setKlz { d.klz with trim := 0, adjust := 0 }).wr Reg.KLZ_TICK_TM_PRESENT 0 0).wr Reg.KLZ_TICK_SOURCE 0 1).post { code := 0x3A })) ∧
      (d.live = true → d.klz.stale = true → Gives .routeInstall s d.installRoutes ∧ d.installRoutes.klz.stale = false ∧
        d.installRoutes.mem = d.mem)) ∧
  (∀ (p c : Nat) (x : Partner) (s : State),
      let d := s.dev
      d.live = true → p < 8 →
      (d.portState p = 1 → Gives (.portTrained p) s ((d.setPort p { d.port p with eq := Config.adapted p d.clock.now }).setPortState p 2) ∧
        Gives (.trainTimeout p) s ((d.setPort p { d.port p with trainFailed := true }).setPortState p 0)) ∧
      (d.portState p = 0 → (d.port p).trainFailed = true →
        Gives (.klozarTrainRetry p) s ((d.setPort p { d.port p with trainFailed := false }).train p)) ∧
      (d.portState p = 5 → d.rd Reg.KLZ_PORT_STATUS_DISABLED p = 0 → Gives (.portRetrain p) s (d.train p)) ∧
      (∀ v, v < 8 → (d.setPortState p v).portState p = v) ∧ (d.train p).portState p = 1 ∧
      (2 ≤ d.portState p → d.portState p ≤ 4 → 1 ≤ c → c ≤ 5 → Gives (.portFailed p c) s (d.failPort p c)) ∧
      (d.portState p = 2 →
        let d2 := ((d.wr Reg.KLZ_PORT_STATUS_PARTNER_CHIP p x.chip).wr Reg.KLZ_PORT_STATUS_PARTNER_PORT p x.port).wr Reg.KLZ_PORT_STATUS_PARTNER_MGR p
          (b2n x.mgr)
        let d3 := if p < 7 ∧ x.mgr = true ∧ x.board = d2.rd Reg.KLZ_ID_BOARD ∧ d2.rd Reg.KLZ_ID_MGR_EN = 1 ∧ d2.role ≠ 3 then d2.managerConflict x.chip
          else d2
        (d3.wired p x = true → Gives (.identifyDone p x) s ((d3.setPortState p 3).raisePorts)) ∧
        (d3.wired p x = false → Gives (.identifyDone p x) s
          (((d3.wr Reg.KLZ_PORT_STATUS_DISABLED p 1).setPortState p 6).post { code := 0x31, object := p, detail := le 2 x.chip ++ le 1 x.port }))) ∧
      (d.portState p = 4 → Gives (.delayExchange p) s (d.sendOn p 0 (d.ownPkt p 0x21 (be 8 d.clock.now)))))


/-! The sideband -/

/-- MCTP control messages, the alert response and SPDM (R416, R481, R482, R496, R498): each request that is served has its response. Codes and
layouts that the manual leaves to the standards are PRESUMED (log entry 34). -/
def Obligations.Sideband : Prop :=
  ∀ (s : State) (eid mtype code : Byte) (slot offset length index : Nat) (nonce : Bytes),
    let d := s.dev
    (d.sbOpen = true →
      (eid ≠ 0 → eid ≠ 0xFF → Gives (.setEndpointId eid) s ((d.setBoot { d.boot with eid := eid.toNat }).control 1 0 (le 1 0 ++ [eid] ++ le 1 0))) ∧
      Gives .getEndpointId s (d.control 2 0 (le 1 d.boot.eid ++ le 2 0)) ∧
      (mtype = 0 ∨ mtype = 0xFF → Gives (.getMctpVersionSupport mtype) s (d.control 4 0 (le 1 1 ++ be 4 0xF1F3F100))) ∧
      Gives .getMessageTypeSupport s (d.control 5 0 (le 1 1 ++ le 1 0x7E))) ∧
    (d.life.powered = true → d.pins.flowOk = true → d.pins.alert = true → d.pins.straps.sbMode = true →
      Gives .alertResponse s (d.emit (.alertAddress (0x60 + d.pins.straps.slot.toNat)))) ∧
    (d.pins.flowOk = false ∨ d.pins.alert = false ∨ d.pins.straps.sbMode = false → Gives .alertResponse s d) ∧
    (d.doeOpen = true →
      Gives .getVersion s (d.emit (.spdm 0x04 (le 1 1 ++ le 2 0x1300))) ∧
      Gives .getCapabilities s (d.emit (.spdm 0x61 (le 4 0x16))) ∧
      Gives .negotiateAlgorithms s (d.emit (.spdm 0x63 (le 4 4 ++ le 4 0x80 ++ le 4 2))) ∧
      Gives .getDigests s (d.emit (.spdm 0x01 (le 1 1 ++ digestBytes (Config.sha384 d.chain)))) ∧
      (offset < d.chain.length →
        let part := (d.chain.drop offset).take length
        Gives (.getCertificate 0 offset length) s
          (d.emit (.spdm 0x02 (le 1 0 ++ le 2 part.length ++ le 2 (d.chain.length - offset - part.length) ++ part)))) ∧
      (slot ≠ 0 → Gives (.getCertificate slot offset length) s (d.spdmError 1 0) ∧ Gives (.challenge slot nonce) s (d.spdmError 1 0)) ∧
      Gives (.challenge 0 nonce) s (d.signed 0x03 nonce (le 1 0 ++ digestBytes (Config.sha384 d.chain))) ∧
      (index ≤ 4 ∨ index = 0xFF → Gives (.getMeasurements index true nonce) s (d.signed 0x60 nonce (d.blocks s.nv.fuses index)) ∧
        Gives (.getMeasurements index false nonce) s (d.nonce32.1.emit (.spdm 0x60 (d.blocks s.nv.fuses index ++ d.nonce32.2)))) ∧
      ([0x84, 0xE1, 0xE3, 0x81, 0x82, 0x83, 0xE0].contains code.toNat = false →
        Gives (.spdmUnsupportedRequest code) s (d.spdmError 7 code.toNat)))
end

