-- ==== Sys2Proof/Laws/Tab.lean ====
section
/-! SUPPORT. Sparse tables: read after write, other keys unchanged, and the canonical order kept by every operation. -/

namespace Sys2Proof.Tab

@[simp] theorem get_nil {α : Type} (z : α) (k : Nat) : get z ([] : Tab α) k = z := rfl
@[simp] theorem find?_nil {α : Type} (k : Nat) : find? ([] : Tab α) k = none := rfl

@[simp] theorem get_insert_same {α : Type} (z : α) (t : Tab α) (k : Nat) (v : α) : get z (insert t k v) k = v := by
  induction t with
  | nil => simp [insert, get]
  | cons c t ih =>
    obtain ⟨k', v'⟩ := c
    simp only [insert]
    split
    · simp [get]
    · split
      · simp [get]
      · rename_i h1 h2; simp [get, h2, ih]

theorem get_insert_ne {α : Type} (z : α) (t : Tab α) {j k : Nat} (v : α) (h : j ≠ k) : get z (insert t k v) j = get z t j := by
  induction t with
  | nil => simp [insert, get, Ne.symm h]
  | cons c t ih =>
    obtain ⟨k', v'⟩ := c
    simp only [insert]
    split
    · simp [get, Ne.symm h]
    · split
      · rename_i h2; subst h2; simp [get, Ne.symm h]
      · simp [get, ih]

@[simp] theorem get_erase_same {α : Type} (z : α) (t : Tab α) (k : Nat) : get z (erase t k) k = z := by
  induction t with
  | nil => rfl
  | cons c t ih =>
    obtain ⟨k', v'⟩ := c
    simp only [erase]
    split
    · exact ih
    · rename_i h; simp [get, h, ih]

theorem get_erase_ne {α : Type} (z : α) (t : Tab α) {j k : Nat} (h : j ≠ k) : get z (erase t k) j = get z t j := by
  induction t with
  | nil => rfl
  | cons c t ih =>
    obtain ⟨k', v'⟩ := c
    simp only [erase]
    split
    · rename_i h2; subst h2; simp [get, Ne.symm h, ih]
    · simp [get, ih]

@[simp] theorem get_put_same {α : Type} [DecidableEq α] (z : α) (t : Tab α) (k : Nat) (v : α) : get z (put z t k v) k = v := by
  unfold put
  split
  · rename_i h; simp [h]
  · simp

theorem get_put_ne {α : Type} [DecidableEq α] (z y : α) (t : Tab α) {j k : Nat} (v : α) (h : j ≠ k) :
    get z (put y t k v) j = get z t j := by
  unfold put
  split
  · exact get_erase_ne z t h
  · exact get_insert_ne z t v h

@[simp] theorem find?_insert_same {α : Type} (t : Tab α) (k : Nat) (v : α) : find? (insert t k v) k = some v := by
  induction t with
  | nil => simp [insert, find?]
  | cons c t ih =>
    obtain ⟨k', v'⟩ := c
    simp only [insert]
    split
    · simp [find?]
    · split
      · simp [find?]
      · rename_i h2; simp [find?, h2, ih]

theorem find?_insert_ne {α : Type} (t : Tab α) {j k : Nat} (v : α) (h : j ≠ k) : find? (insert t k v) j = find? t j := by
  induction t with
  | nil => simp [insert, find?, Ne.symm h]
  | cons c t ih =>
    obtain ⟨k', v'⟩ := c
    simp only [insert]
    split
    · simp [find?, Ne.symm h]
    · split
      · rename_i h2; subst h2; simp [find?, Ne.symm h]
      · simp [find?, ih]

/-- Every key of a table is above `k`. -/
def above {α : Type} (k : Nat) (t : Tab α) : Prop := ∀ c ∈ t, k < c.1

theorem sorted_cons {α : Type} (k : Nat) (v : α) (t : Tab α) : sorted ((k, v) :: t) = true ↔ above k t ∧ sorted t = true := by
  induction t generalizing k v with
  | nil => simp [sorted, above]
  | cons c t ih =>
    obtain ⟨k', v'⟩ := c
    have e : sorted ((k, v) :: (k', v') :: t) = (decide (k < k') && sorted ((k', v') :: t)) := rfl
    rw [e, Bool.and_eq_true, decide_eq_true_eq]
    constructor
    · rintro ⟨h1, h2⟩
      refine ⟨fun c hc => ?_, h2⟩
      rcases List.mem_cons.mp hc with rfl | hc
      · exact h1
      · exact Nat.lt_trans h1 (((ih k' v').mp h2).1 c hc)
    · rintro ⟨h1, h2⟩
      exact ⟨h1 (k', v') (List.mem_cons_self ..), h2⟩

theorem mem_insert {α : Type} {t : Tab α} {k : Nat} {v : α} {c : Nat × α} (h : c ∈ insert t k v) : c = (k, v) ∨ c ∈ t := by
  induction t with
  | nil => simpa [insert] using h
  | cons d t ih =>
    obtain ⟨k', v'⟩ := d
    simp only [insert] at h
    split at h
    · simpa using h
    · split at h
      · rcases List.mem_cons.mp h with h | h
        · exact .inl h
        · exact .inr (List.mem_cons_of_mem _ h)
      · rcases List.mem_cons.mp h with h | h
        · exact .inr (h ▸ List.mem_cons_self ..)
        · exact (ih h).imp id (List.mem_cons_of_mem _)

theorem mem_erase {α : Type} {t : Tab α} {k : Nat} {c : Nat × α} (h : c ∈ erase t k) : c ∈ t := by
  induction t with
  | nil => simp [erase] at h
  | cons d t ih =>
    obtain ⟨k', v'⟩ := d
    simp only [erase] at h
    split at h
    · exact List.mem_cons_of_mem _ (ih h)
    · rcases List.mem_cons.mp h with h | h
      · exact h ▸ List.mem_cons_self ..
      · exact List.mem_cons_of_mem _ (ih h)

theorem sorted_insert {α : Type} {t : Tab α} (h : sorted t = true) (k : Nat) (v : α) : sorted (insert t k v) = true := by
  induction t with
  | nil => rfl
  | cons c t ih =>
    obtain ⟨k', v'⟩ := c
    have hc := (sorted_cons k' v' t).mp h
    simp only [insert]
    split
    · rename_i hk
      refine (sorted_cons ..).mpr ⟨fun c hm => ?_, h⟩
      rcases List.mem_cons.mp hm with rfl | hm
      · exact hk
      · exact Nat.lt_trans hk (hc.1 c hm)
    · split
      · rename_i hk; subst hk; exact (sorted_cons ..).mpr hc
      · rename_i h1 h2
        refine (sorted_cons ..).mpr ⟨fun c hm => ?_, ih hc.2⟩
        rcases mem_insert hm with rfl | hm
        · simp only; omega
        · exact hc.1 c hm

theorem sorted_filter {α : Type} {t : Tab α} (h : sorted t = true) (p : Nat × α → Bool) : sorted (t.filter p : Tab α) = true := by
  induction t with
  | nil => rfl
  | cons c t ih =>
    obtain ⟨k', v'⟩ := c
    have hc := (sorted_cons k' v' t).mp h
    simp only [List.filter]
    split
    · exact (sorted_cons ..).mpr ⟨fun c hm => hc.1 c (List.mem_of_mem_filter hm), ih hc.2⟩
    · exact ih hc.2

theorem sorted_erase {α : Type} {t : Tab α} (h : sorted t = true) (k : Nat) : sorted (erase t k) = true := by
  induction t with
  | nil => rfl
  | cons c t ih =>
    obtain ⟨k', v'⟩ := c
    have hc := (sorted_cons k' v' t).mp h
    simp only [erase]
    split
    · exact ih hc.2
    · exact (sorted_cons ..).mpr ⟨fun c hm => hc.1 c (mem_erase hm), ih hc.2⟩

theorem sorted_put {α : Type} [DecidableEq α] {t : Tab α} (h : sorted t = true) (z : α) (k : Nat) (v : α) :
    sorted (put z t k v) = true := by
  unfold put
  split
  · exact sorted_erase h k
  · exact sorted_insert h k v

theorem sorted_map {α β : Type} {t : Tab α} (h : sorted t = true) (f : Nat × α → β) :
    sorted (t.map (fun c => (c.1, f c)) : Tab β) = true := by
  induction t with
  | nil => rfl
  | cons c t ih =>
    obtain ⟨k', v'⟩ := c
    have hc := (sorted_cons k' v' t).mp h
    simp only [List.map]
    refine (sorted_cons ..).mpr ⟨fun c hm => ?_, ih hc.2⟩
    obtain ⟨d, hd, rfl⟩ := List.mem_map.mp hm
    exact hc.1 d hd

end Sys2Proof.Tab
end

