-- ==== Sys2Proof/Laws/Fields.lean ====
section
/-! SUPPORT. Register fields: what a field reads as after a write of it, and after a write of another. -/

namespace Sys2Proof.Machine

/-- A field written by hardware reads as the value cut to its width. -/
@[simp] theorem Device.rd_wr_same (d : Device) (f : Fld) (i v : Nat) : (d.wr f i v).rd f i = v % 2 ^ f.width := by
  simp [Device.rd, Device.wr, Fld.read, Fld.write]

/-- A field with another place is unchanged. -/
theorem Device.rd_wr_ne (d : Device) (f g : Fld) (i j v : Nat) (h : g.key j ≠ f.key i) : (d.wr f i v).rd g j = d.rd g j := by
  simp only [Device.rd, Device.wr, Fld.read, Fld.write]
  exact Tab.get_put_ne _ _ _ _ h

/-- A wrapping count. -/
theorem Device.rd_count (d : Device) (f : Fld) (i n : Nat) : (d.count f i n).rd f i = (d.rd f i + n) % 2 ^ f.width := by
  simp [Device.count]

/-- A saturating count never falls, if the field held a value of its width. -/
theorem Device.rd_countSat_ge (d : Device) (f : Fld) (i n : Nat) (h : d.rd f i < 2 ^ f.width) :
    d.rd f i ≤ (d.countSat f i n).rd f i := by
  have hp : 0 < 2 ^ f.width := Nat.pos_of_ne_zero (by simp)
  simp only [Device.countSat, Device.rd_wr_same, satAdd]
  rw [Nat.mod_eq_of_lt] <;> simp only [Nat.min_def] <;> split <;> omega

/-- Bits that hardware sets are set. -/
theorem Device.rd_setBits (d : Device) (f : Fld) (i m : Nat) : (d.setBits f i m).rd f i = (d.rd f i ||| m) % 2 ^ f.width := by
  simp [Device.setBits]

end Sys2Proof.Machine
end

