-- ==== Sys2Proof/Laws/State.lean ====
section
/-! SUPPORT. The state's updates: each field after each named update, so that no proof unfolds a record update. -/

namespace Sys2Proof.Machine

section
variable (s : State) (d : Device)

@[simp] theorem State.done_eq : s.done d = .next { s with dev := d } := rfl

@[simp] theorem Device.wr_ms (f : Fld) (i v : Nat) : (d.wr f i v).ms = d.ms := rfl
@[simp] theorem Device.wr_mem (f : Fld) (i v : Nat) : (d.wr f i v).mem = d.mem := rfl
@[simp] theorem Device.wr_bad (f : Fld) (i v : Nat) : (d.wr f i v).bad = d.bad := rfl
@[simp] theorem Device.wr_fresh (f : Fld) (i v : Nat) : (d.wr f i v).fresh = d.fresh := rfl
@[simp] theorem Device.wr_out (f : Fld) (i v : Nat) : (d.wr f i v).out = d.out := rfl
@[simp] theorem Device.wr_life (f : Fld) (i v : Nat) : (d.wr f i v).life = d.life := rfl
@[simp] theorem Device.wr_clock (f : Fld) (i v : Nat) : (d.wr f i v).clock = d.clock := rfl
@[simp] theorem Device.wr_pins (f : Fld) (i v : Nat) : (d.wr f i v).pins = d.pins := rfl
@[simp] theorem Device.wr_pcie (f : Fld) (i v : Nat) : (d.wr f i v).pcie = d.pcie := rfl
@[simp] theorem Device.wr_work (f : Fld) (i v : Nat) : (d.wr f i v).work = d.work := rfl
@[simp] theorem Device.wr_cores (f : Fld) (i v : Nat) : (d.wr f i v).cores = d.cores := rfl
@[simp] theorem Device.wr_coh (f : Fld) (i v : Nat) : (d.wr f i v).coh = d.coh := rfl
@[simp] theorem Device.wr_flow (f : Fld) (i v : Nat) : (d.wr f i v).flow = d.flow := rfl
@[simp] theorem Device.wr_wheel (f : Fld) (i v : Nat) : (d.wr f i v).wheel = d.wheel := rfl
@[simp] theorem Device.wr_errs (f : Fld) (i v : Nat) : (d.wr f i v).errs = d.errs := rfl
@[simp] theorem Device.wr_klz (f : Fld) (i v : Nat) : (d.wr f i v).klz = d.klz := rfl
@[simp] theorem Device.wr_stat (f : Fld) (i v : Nat) : (d.wr f i v).stat = d.stat := rfl
@[simp] theorem Device.wr_power (f : Fld) (i v : Nat) : (d.wr f i v).power = d.power := rfl
@[simp] theorem Device.wr_boot (f : Fld) (i v : Nat) : (d.wr f i v).boot = d.boot := rfl

@[simp] theorem Device.count_ms (f : Fld) (i n : Nat) : (d.count f i n).ms = d.ms := rfl
@[simp] theorem Device.count_mem (f : Fld) (i n : Nat) : (d.count f i n).mem = d.mem := rfl
@[simp] theorem Device.count_bad (f : Fld) (i n : Nat) : (d.count f i n).bad = d.bad := rfl
@[simp] theorem Device.count_fresh (f : Fld) (i n : Nat) : (d.count f i n).fresh = d.fresh := rfl
@[simp] theorem Device.count_out (f : Fld) (i n : Nat) : (d.count f i n).out = d.out := rfl
@[simp] theorem Device.count_life (f : Fld) (i n : Nat) : (d.count f i n).life = d.life := rfl
@[simp] theorem Device.count_clock (f : Fld) (i n : Nat) : (d.count f i n).clock = d.clock := rfl
@[simp] theorem Device.count_pins (f : Fld) (i n : Nat) : (d.count f i n).pins = d.pins := rfl
@[simp] theorem Device.count_pcie (f : Fld) (i n : Nat) : (d.count f i n).pcie = d.pcie := rfl
@[simp] theorem Device.count_work (f : Fld) (i n : Nat) : (d.count f i n).work = d.work := rfl
@[simp] theorem Device.count_cores (f : Fld) (i n : Nat) : (d.count f i n).cores = d.cores := rfl
@[simp] theorem Device.count_coh (f : Fld) (i n : Nat) : (d.count f i n).coh = d.coh := rfl
@[simp] theorem Device.count_flow (f : Fld) (i n : Nat) : (d.count f i n).flow = d.flow := rfl
@[simp] theorem Device.count_wheel (f : Fld) (i n : Nat) : (d.count f i n).wheel = d.wheel := rfl
@[simp] theorem Device.count_errs (f : Fld) (i n : Nat) : (d.count f i n).errs = d.errs := rfl
@[simp] theorem Device.count_klz (f : Fld) (i n : Nat) : (d.count f i n).klz = d.klz := rfl
@[simp] theorem Device.count_stat (f : Fld) (i n : Nat) : (d.count f i n).stat = d.stat := rfl
@[simp] theorem Device.count_power (f : Fld) (i n : Nat) : (d.count f i n).power = d.power := rfl
@[simp] theorem Device.count_boot (f : Fld) (i n : Nat) : (d.count f i n).boot = d.boot := rfl

@[simp] theorem Device.countSat_ms (f : Fld) (i n : Nat) : (d.countSat f i n).ms = d.ms := rfl
@[simp] theorem Device.countSat_mem (f : Fld) (i n : Nat) : (d.countSat f i n).mem = d.mem := rfl
@[simp] theorem Device.countSat_bad (f : Fld) (i n : Nat) : (d.countSat f i n).bad = d.bad := rfl
@[simp] theorem Device.countSat_fresh (f : Fld) (i n : Nat) : (d.countSat f i n).fresh = d.fresh := rfl
@[simp] theorem Device.countSat_out (f : Fld) (i n : Nat) : (d.countSat f i n).out = d.out := rfl
@[simp] theorem Device.countSat_life (f : Fld) (i n : Nat) : (d.countSat f i n).life = d.life := rfl
@[simp] theorem Device.countSat_clock (f : Fld) (i n : Nat) : (d.countSat f i n).clock = d.clock := rfl
@[simp] theorem Device.countSat_pins (f : Fld) (i n : Nat) : (d.countSat f i n).pins = d.pins := rfl
@[simp] theorem Device.countSat_pcie (f : Fld) (i n : Nat) : (d.countSat f i n).pcie = d.pcie := rfl
@[simp] theorem Device.countSat_work (f : Fld) (i n : Nat) : (d.countSat f i n).work = d.work := rfl
@[simp] theorem Device.countSat_cores (f : Fld) (i n : Nat) : (d.countSat f i n).cores = d.cores := rfl
@[simp] theorem Device.countSat_coh (f : Fld) (i n : Nat) : (d.countSat f i n).coh = d.coh := rfl
@[simp] theorem Device.countSat_flow (f : Fld) (i n : Nat) : (d.countSat f i n).flow = d.flow := rfl
@[simp] theorem Device.countSat_wheel (f : Fld) (i n : Nat) : (d.countSat f i n).wheel = d.wheel := rfl
@[simp] theorem Device.countSat_errs (f : Fld) (i n : Nat) : (d.countSat f i n).errs = d.errs := rfl
@[simp] theorem Device.countSat_klz (f : Fld) (i n : Nat) : (d.countSat f i n).klz = d.klz := rfl
@[simp] theorem Device.countSat_stat (f : Fld) (i n : Nat) : (d.countSat f i n).stat = d.stat := rfl
@[simp] theorem Device.countSat_power (f : Fld) (i n : Nat) : (d.countSat f i n).power = d.power := rfl
@[simp] theorem Device.countSat_boot (f : Fld) (i n : Nat) : (d.countSat f i n).boot = d.boot := rfl

@[simp] theorem Device.setBits_ms (f : Fld) (i m : Nat) : (d.setBits f i m).ms = d.ms := rfl
@[simp] theorem Device.setBits_mem (f : Fld) (i m : Nat) : (d.setBits f i m).mem = d.mem := rfl
@[simp] theorem Device.setBits_bad (f : Fld) (i m : Nat) : (d.setBits f i m).bad = d.bad := rfl
@[simp] theorem Device.setBits_fresh (f : Fld) (i m : Nat) : (d.setBits f i m).fresh = d.fresh := rfl
@[simp] theorem Device.setBits_out (f : Fld) (i m : Nat) : (d.setBits f i m).out = d.out := rfl
@[simp] theorem Device.setBits_life (f : Fld) (i m : Nat) : (d.setBits f i m).life = d.life := rfl
@[simp] theorem Device.setBits_clock (f : Fld) (i m : Nat) : (d.setBits f i m).clock = d.clock := rfl
@[simp] theorem Device.setBits_pins (f : Fld) (i m : Nat) : (d.setBits f i m).pins = d.pins := rfl
@[simp] theorem Device.setBits_pcie (f : Fld) (i m : Nat) : (d.setBits f i m).pcie = d.pcie := rfl
@[simp] theorem Device.setBits_work (f : Fld) (i m : Nat) : (d.setBits f i m).work = d.work := rfl
@[simp] theorem Device.setBits_cores (f : Fld) (i m : Nat) : (d.setBits f i m).cores = d.cores := rfl
@[simp] theorem Device.setBits_coh (f : Fld) (i m : Nat) : (d.setBits f i m).coh = d.coh := rfl
@[simp] theorem Device.setBits_flow (f : Fld) (i m : Nat) : (d.setBits f i m).flow = d.flow := rfl
@[simp] theorem Device.setBits_wheel (f : Fld) (i m : Nat) : (d.setBits f i m).wheel = d.wheel := rfl
@[simp] theorem Device.setBits_errs (f : Fld) (i m : Nat) : (d.setBits f i m).errs = d.errs := rfl
@[simp] theorem Device.setBits_klz (f : Fld) (i m : Nat) : (d.setBits f i m).klz = d.klz := rfl
@[simp] theorem Device.setBits_stat (f : Fld) (i m : Nat) : (d.setBits f i m).stat = d.stat := rfl
@[simp] theorem Device.setBits_power (f : Fld) (i m : Nat) : (d.setBits f i m).power = d.power := rfl
@[simp] theorem Device.setBits_boot (f : Fld) (i m : Nat) : (d.setBits f i m).boot = d.boot := rfl

@[simp] theorem Device.emit_ms (o : Out) : (d.emit o).ms = d.ms := rfl
@[simp] theorem Device.emit_regs (o : Out) : (d.emit o).regs = d.regs := rfl
@[simp] theorem Device.emit_mem (o : Out) : (d.emit o).mem = d.mem := rfl
@[simp] theorem Device.emit_bad (o : Out) : (d.emit o).bad = d.bad := rfl
@[simp] theorem Device.emit_fresh (o : Out) : (d.emit o).fresh = d.fresh := rfl
@[simp] theorem Device.emit_life (o : Out) : (d.emit o).life = d.life := rfl
@[simp] theorem Device.emit_clock (o : Out) : (d.emit o).clock = d.clock := rfl
@[simp] theorem Device.emit_pins (o : Out) : (d.emit o).pins = d.pins := rfl
@[simp] theorem Device.emit_pcie (o : Out) : (d.emit o).pcie = d.pcie := rfl
@[simp] theorem Device.emit_work (o : Out) : (d.emit o).work = d.work := rfl
@[simp] theorem Device.emit_cores (o : Out) : (d.emit o).cores = d.cores := rfl
@[simp] theorem Device.emit_coh (o : Out) : (d.emit o).coh = d.coh := rfl
@[simp] theorem Device.emit_flow (o : Out) : (d.emit o).flow = d.flow := rfl
@[simp] theorem Device.emit_wheel (o : Out) : (d.emit o).wheel = d.wheel := rfl
@[simp] theorem Device.emit_errs (o : Out) : (d.emit o).errs = d.errs := rfl
@[simp] theorem Device.emit_klz (o : Out) : (d.emit o).klz = d.klz := rfl
@[simp] theorem Device.emit_stat (o : Out) : (d.emit o).stat = d.stat := rfl
@[simp] theorem Device.emit_power (o : Out) : (d.emit o).power = d.power := rfl
@[simp] theorem Device.emit_boot (o : Out) : (d.emit o).boot = d.boot := rfl

@[simp] theorem Device.step1_ms : (d.step1).ms = d.ms := rfl
@[simp] theorem Device.step1_regs : (d.step1).regs = d.regs := rfl
@[simp] theorem Device.step1_mem : (d.step1).mem = d.mem := rfl
@[simp] theorem Device.step1_bad : (d.step1).bad = d.bad := rfl
@[simp] theorem Device.step1_out : (d.step1).out = d.out := rfl
@[simp] theorem Device.step1_life : (d.step1).life = d.life := rfl
@[simp] theorem Device.step1_clock : (d.step1).clock = d.clock := rfl
@[simp] theorem Device.step1_pins : (d.step1).pins = d.pins := rfl
@[simp] theorem Device.step1_pcie : (d.step1).pcie = d.pcie := rfl
@[simp] theorem Device.step1_work : (d.step1).work = d.work := rfl
@[simp] theorem Device.step1_cores : (d.step1).cores = d.cores := rfl
@[simp] theorem Device.step1_coh : (d.step1).coh = d.coh := rfl
@[simp] theorem Device.step1_flow : (d.step1).flow = d.flow := rfl
@[simp] theorem Device.step1_wheel : (d.step1).wheel = d.wheel := rfl
@[simp] theorem Device.step1_errs : (d.step1).errs = d.errs := rfl
@[simp] theorem Device.step1_klz : (d.step1).klz = d.klz := rfl
@[simp] theorem Device.step1_stat : (d.step1).stat = d.stat := rfl
@[simp] theorem Device.step1_power : (d.step1).power = d.power := rfl
@[simp] theorem Device.step1_boot : (d.step1).boot = d.boot := rfl

@[simp] theorem Device.setHx_ms (h : Nat) (x : HoopX) : (d.setHx h x).ms = d.ms := rfl
@[simp] theorem Device.setHx_regs (h : Nat) (x : HoopX) : (d.setHx h x).regs = d.regs := rfl
@[simp] theorem Device.setHx_mem (h : Nat) (x : HoopX) : (d.setHx h x).mem = d.mem := rfl
@[simp] theorem Device.setHx_bad (h : Nat) (x : HoopX) : (d.setHx h x).bad = d.bad := rfl
@[simp] theorem Device.setHx_fresh (h : Nat) (x : HoopX) : (d.setHx h x).fresh = d.fresh := rfl
@[simp] theorem Device.setHx_out (h : Nat) (x : HoopX) : (d.setHx h x).out = d.out := rfl
@[simp] theorem Device.setHx_life (h : Nat) (x : HoopX) : (d.setHx h x).life = d.life := rfl
@[simp] theorem Device.setHx_clock (h : Nat) (x : HoopX) : (d.setHx h x).clock = d.clock := rfl
@[simp] theorem Device.setHx_pins (h : Nat) (x : HoopX) : (d.setHx h x).pins = d.pins := rfl
@[simp] theorem Device.setHx_pcie (h : Nat) (x : HoopX) : (d.setHx h x).pcie = d.pcie := rfl
@[simp] theorem Device.setHx_cores (h : Nat) (x : HoopX) : (d.setHx h x).cores = d.cores := rfl
@[simp] theorem Device.setHx_coh (h : Nat) (x : HoopX) : (d.setHx h x).coh = d.coh := rfl
@[simp] theorem Device.setHx_flow (h : Nat) (x : HoopX) : (d.setHx h x).flow = d.flow := rfl
@[simp] theorem Device.setHx_wheel (h : Nat) (x : HoopX) : (d.setHx h x).wheel = d.wheel := rfl
@[simp] theorem Device.setHx_errs (h : Nat) (x : HoopX) : (d.setHx h x).errs = d.errs := rfl
@[simp] theorem Device.setHx_klz (h : Nat) (x : HoopX) : (d.setHx h x).klz = d.klz := rfl
@[simp] theorem Device.setHx_stat (h : Nat) (x : HoopX) : (d.setHx h x).stat = d.stat := rfl
@[simp] theorem Device.setHx_power (h : Nat) (x : HoopX) : (d.setHx h x).power = d.power := rfl
@[simp] theorem Device.setHx_boot (h : Nat) (x : HoopX) : (d.setHx h x).boot = d.boot := rfl

@[simp] theorem Device.setCore_ms (k : Nat) (c : Core) : (d.setCore k c).ms = d.ms := rfl
@[simp] theorem Device.setCore_regs (k : Nat) (c : Core) : (d.setCore k c).regs = d.regs := rfl
@[simp] theorem Device.setCore_mem (k : Nat) (c : Core) : (d.setCore k c).mem = d.mem := rfl
@[simp] theorem Device.setCore_bad (k : Nat) (c : Core) : (d.setCore k c).bad = d.bad := rfl
@[simp] theorem Device.setCore_fresh (k : Nat) (c : Core) : (d.setCore k c).fresh = d.fresh := rfl
@[simp] theorem Device.setCore_out (k : Nat) (c : Core) : (d.setCore k c).out = d.out := rfl
@[simp] theorem Device.setCore_life (k : Nat) (c : Core) : (d.setCore k c).life = d.life := rfl
@[simp] theorem Device.setCore_clock (k : Nat) (c : Core) : (d.setCore k c).clock = d.clock := rfl
@[simp] theorem Device.setCore_pins (k : Nat) (c : Core) : (d.setCore k c).pins = d.pins := rfl
@[simp] theorem Device.setCore_pcie (k : Nat) (c : Core) : (d.setCore k c).pcie = d.pcie := rfl
@[simp] theorem Device.setCore_work (k : Nat) (c : Core) : (d.setCore k c).work = d.work := rfl
@[simp] theorem Device.setCore_coh (k : Nat) (c : Core) : (d.setCore k c).coh = d.coh := rfl
@[simp] theorem Device.setCore_flow (k : Nat) (c : Core) : (d.setCore k c).flow = d.flow := rfl
@[simp] theorem Device.setCore_wheel (k : Nat) (c : Core) : (d.setCore k c).wheel = d.wheel := rfl
@[simp] theorem Device.setCore_errs (k : Nat) (c : Core) : (d.setCore k c).errs = d.errs := rfl
@[simp] theorem Device.setCore_klz (k : Nat) (c : Core) : (d.setCore k c).klz = d.klz := rfl
@[simp] theorem Device.setCore_stat (k : Nat) (c : Core) : (d.setCore k c).stat = d.stat := rfl
@[simp] theorem Device.setCore_power (k : Nat) (c : Core) : (d.setCore k c).power = d.power := rfl
@[simp] theorem Device.setCore_boot (k : Nat) (c : Core) : (d.setCore k c).boot = d.boot := rfl

@[simp] theorem Device.modCore_ms (k : Nat) (f : Core → Core) : (d.modCore k f).ms = d.ms := rfl
@[simp] theorem Device.modCore_regs (k : Nat) (f : Core → Core) : (d.modCore k f).regs = d.regs := rfl
@[simp] theorem Device.modCore_mem (k : Nat) (f : Core → Core) : (d.modCore k f).mem = d.mem := rfl
@[simp] theorem Device.modCore_bad (k : Nat) (f : Core → Core) : (d.modCore k f).bad = d.bad := rfl
@[simp] theorem Device.modCore_fresh (k : Nat) (f : Core → Core) : (d.modCore k f).fresh = d.fresh := rfl
@[simp] theorem Device.modCore_out (k : Nat) (f : Core → Core) : (d.modCore k f).out = d.out := rfl
@[simp] theorem Device.modCore_life (k : Nat) (f : Core → Core) : (d.modCore k f).life = d.life := rfl
@[simp] theorem Device.modCore_clock (k : Nat) (f : Core → Core) : (d.modCore k f).clock = d.clock := rfl
@[simp] theorem Device.modCore_pins (k : Nat) (f : Core → Core) : (d.modCore k f).pins = d.pins := rfl
@[simp] theorem Device.modCore_pcie (k : Nat) (f : Core → Core) : (d.modCore k f).pcie = d.pcie := rfl
@[simp] theorem Device.modCore_work (k : Nat) (f : Core → Core) : (d.modCore k f).work = d.work := rfl
@[simp] theorem Device.modCore_coh (k : Nat) (f : Core → Core) : (d.modCore k f).coh = d.coh := rfl
@[simp] theorem Device.modCore_flow (k : Nat) (f : Core → Core) : (d.modCore k f).flow = d.flow := rfl
@[simp] theorem Device.modCore_wheel (k : Nat) (f : Core → Core) : (d.modCore k f).wheel = d.wheel := rfl
@[simp] theorem Device.modCore_errs (k : Nat) (f : Core → Core) : (d.modCore k f).errs = d.errs := rfl
@[simp] theorem Device.modCore_klz (k : Nat) (f : Core → Core) : (d.modCore k f).klz = d.klz := rfl
@[simp] theorem Device.modCore_stat (k : Nat) (f : Core → Core) : (d.modCore k f).stat = d.stat := rfl
@[simp] theorem Device.modCore_power (k : Nat) (f : Core → Core) : (d.modCore k f).power = d.power := rfl
@[simp] theorem Device.modCore_boot (k : Nat) (f : Core → Core) : (d.modCore k f).boot = d.boot := rfl

@[simp] theorem Device.setQueue_ms (q : Nat) (x : Queue) : (d.setQueue q x).ms = d.ms := rfl
@[simp] theorem Device.setQueue_regs (q : Nat) (x : Queue) : (d.setQueue q x).regs = d.regs := rfl
@[simp] theorem Device.setQueue_mem (q : Nat) (x : Queue) : (d.setQueue q x).mem = d.mem := rfl
@[simp] theorem Device.setQueue_bad (q : Nat) (x : Queue) : (d.setQueue q x).bad = d.bad := rfl
@[simp] theorem Device.setQueue_fresh (q : Nat) (x : Queue) : (d.setQueue q x).fresh = d.fresh := rfl
@[simp] theorem Device.setQueue_out (q : Nat) (x : Queue) : (d.setQueue q x).out = d.out := rfl
@[simp] theorem Device.setQueue_life (q : Nat) (x : Queue) : (d.setQueue q x).life = d.life := rfl
@[simp] theorem Device.setQueue_clock (q : Nat) (x : Queue) : (d.setQueue q x).clock = d.clock := rfl
@[simp] theorem Device.setQueue_pins (q : Nat) (x : Queue) : (d.setQueue q x).pins = d.pins := rfl
@[simp] theorem Device.setQueue_pcie (q : Nat) (x : Queue) : (d.setQueue q x).pcie = d.pcie := rfl
@[simp] theorem Device.setQueue_cores (q : Nat) (x : Queue) : (d.setQueue q x).cores = d.cores := rfl
@[simp] theorem Device.setQueue_coh (q : Nat) (x : Queue) : (d.setQueue q x).coh = d.coh := rfl
@[simp] theorem Device.setQueue_flow (q : Nat) (x : Queue) : (d.setQueue q x).flow = d.flow := rfl
@[simp] theorem Device.setQueue_wheel (q : Nat) (x : Queue) : (d.setQueue q x).wheel = d.wheel := rfl
@[simp] theorem Device.setQueue_errs (q : Nat) (x : Queue) : (d.setQueue q x).errs = d.errs := rfl
@[simp] theorem Device.setQueue_klz (q : Nat) (x : Queue) : (d.setQueue q x).klz = d.klz := rfl
@[simp] theorem Device.setQueue_stat (q : Nat) (x : Queue) : (d.setQueue q x).stat = d.stat := rfl
@[simp] theorem Device.setQueue_power (q : Nat) (x : Queue) : (d.setQueue q x).power = d.power := rfl
@[simp] theorem Device.setQueue_boot (q : Nat) (x : Queue) : (d.setQueue q x).boot = d.boot := rfl

@[simp] theorem Device.setSlot_ms (n : Nat) (x : Slot) : (d.setSlot n x).ms = d.ms := rfl
@[simp] theorem Device.setSlot_regs (n : Nat) (x : Slot) : (d.setSlot n x).regs = d.regs := rfl
@[simp] theorem Device.setSlot_mem (n : Nat) (x : Slot) : (d.setSlot n x).mem = d.mem := rfl
@[simp] theorem Device.setSlot_bad (n : Nat) (x : Slot) : (d.setSlot n x).bad = d.bad := rfl
@[simp] theorem Device.setSlot_fresh (n : Nat) (x : Slot) : (d.setSlot n x).fresh = d.fresh := rfl
@[simp] theorem Device.setSlot_out (n : Nat) (x : Slot) : (d.setSlot n x).out = d.out := rfl
@[simp] theorem Device.setSlot_life (n : Nat) (x : Slot) : (d.setSlot n x).life = d.life := rfl
@[simp] theorem Device.setSlot_clock (n : Nat) (x : Slot) : (d.setSlot n x).clock = d.clock := rfl
@[simp] theorem Device.setSlot_pins (n : Nat) (x : Slot) : (d.setSlot n x).pins = d.pins := rfl
@[simp] theorem Device.setSlot_pcie (n : Nat) (x : Slot) : (d.setSlot n x).pcie = d.pcie := rfl
@[simp] theorem Device.setSlot_cores (n : Nat) (x : Slot) : (d.setSlot n x).cores = d.cores := rfl
@[simp] theorem Device.setSlot_coh (n : Nat) (x : Slot) : (d.setSlot n x).coh = d.coh := rfl
@[simp] theorem Device.setSlot_flow (n : Nat) (x : Slot) : (d.setSlot n x).flow = d.flow := rfl
@[simp] theorem Device.setSlot_wheel (n : Nat) (x : Slot) : (d.setSlot n x).wheel = d.wheel := rfl
@[simp] theorem Device.setSlot_errs (n : Nat) (x : Slot) : (d.setSlot n x).errs = d.errs := rfl
@[simp] theorem Device.setSlot_klz (n : Nat) (x : Slot) : (d.setSlot n x).klz = d.klz := rfl
@[simp] theorem Device.setSlot_stat (n : Nat) (x : Slot) : (d.setSlot n x).stat = d.stat := rfl
@[simp] theorem Device.setSlot_power (n : Nat) (x : Slot) : (d.setSlot n x).power = d.power := rfl
@[simp] theorem Device.setSlot_boot (n : Nat) (x : Slot) : (d.setSlot n x).boot = d.boot := rfl

@[simp] theorem Device.setKernel_ms (k : Nat) (x : Kernel) : (d.setKernel k x).ms = d.ms := rfl
@[simp] theorem Device.setKernel_regs (k : Nat) (x : Kernel) : (d.setKernel k x).regs = d.regs := rfl
@[simp] theorem Device.setKernel_mem (k : Nat) (x : Kernel) : (d.setKernel k x).mem = d.mem := rfl
@[simp] theorem Device.setKernel_bad (k : Nat) (x : Kernel) : (d.setKernel k x).bad = d.bad := rfl
@[simp] theorem Device.setKernel_fresh (k : Nat) (x : Kernel) : (d.setKernel k x).fresh = d.fresh := rfl
@[simp] theorem Device.setKernel_out (k : Nat) (x : Kernel) : (d.setKernel k x).out = d.out := rfl
@[simp] theorem Device.setKernel_life (k : Nat) (x : Kernel) : (d.setKernel k x).life = d.life := rfl
@[simp] theorem Device.setKernel_clock (k : Nat) (x : Kernel) : (d.setKernel k x).clock = d.clock := rfl
@[simp] theorem Device.setKernel_pins (k : Nat) (x : Kernel) : (d.setKernel k x).pins = d.pins := rfl
@[simp] theorem Device.setKernel_pcie (k : Nat) (x : Kernel) : (d.setKernel k x).pcie = d.pcie := rfl
@[simp] theorem Device.setKernel_cores (k : Nat) (x : Kernel) : (d.setKernel k x).cores = d.cores := rfl
@[simp] theorem Device.setKernel_coh (k : Nat) (x : Kernel) : (d.setKernel k x).coh = d.coh := rfl
@[simp] theorem Device.setKernel_flow (k : Nat) (x : Kernel) : (d.setKernel k x).flow = d.flow := rfl
@[simp] theorem Device.setKernel_wheel (k : Nat) (x : Kernel) : (d.setKernel k x).wheel = d.wheel := rfl
@[simp] theorem Device.setKernel_errs (k : Nat) (x : Kernel) : (d.setKernel k x).errs = d.errs := rfl
@[simp] theorem Device.setKernel_klz (k : Nat) (x : Kernel) : (d.setKernel k x).klz = d.klz := rfl
@[simp] theorem Device.setKernel_stat (k : Nat) (x : Kernel) : (d.setKernel k x).stat = d.stat := rfl
@[simp] theorem Device.setKernel_power (k : Nat) (x : Kernel) : (d.setKernel k x).power = d.power := rfl
@[simp] theorem Device.setKernel_boot (k : Nat) (x : Kernel) : (d.setKernel k x).boot = d.boot := rfl

@[simp] theorem Device.setInst_ms (i : Nat) (x : Inst) : (d.setInst i x).ms = d.ms := rfl
@[simp] theorem Device.setInst_regs (i : Nat) (x : Inst) : (d.setInst i x).regs = d.regs := rfl
@[simp] theorem Device.setInst_mem (i : Nat) (x : Inst) : (d.setInst i x).mem = d.mem := rfl
@[simp] theorem Device.setInst_bad (i : Nat) (x : Inst) : (d.setInst i x).bad = d.bad := rfl
@[simp] theorem Device.setInst_fresh (i : Nat) (x : Inst) : (d.setInst i x).fresh = d.fresh := rfl
@[simp] theorem Device.setInst_out (i : Nat) (x : Inst) : (d.setInst i x).out = d.out := rfl
@[simp] theorem Device.setInst_life (i : Nat) (x : Inst) : (d.setInst i x).life = d.life := rfl
@[simp] theorem Device.setInst_clock (i : Nat) (x : Inst) : (d.setInst i x).clock = d.clock := rfl
@[simp] theorem Device.setInst_pins (i : Nat) (x : Inst) : (d.setInst i x).pins = d.pins := rfl
@[simp] theorem Device.setInst_pcie (i : Nat) (x : Inst) : (d.setInst i x).pcie = d.pcie := rfl
@[simp] theorem Device.setInst_cores (i : Nat) (x : Inst) : (d.setInst i x).cores = d.cores := rfl
@[simp] theorem Device.setInst_coh (i : Nat) (x : Inst) : (d.setInst i x).coh = d.coh := rfl
@[simp] theorem Device.setInst_flow (i : Nat) (x : Inst) : (d.setInst i x).flow = d.flow := rfl
@[simp] theorem Device.setInst_wheel (i : Nat) (x : Inst) : (d.setInst i x).wheel = d.wheel := rfl
@[simp] theorem Device.setInst_errs (i : Nat) (x : Inst) : (d.setInst i x).errs = d.errs := rfl
@[simp] theorem Device.setInst_klz (i : Nat) (x : Inst) : (d.setInst i x).klz = d.klz := rfl
@[simp] theorem Device.setInst_stat (i : Nat) (x : Inst) : (d.setInst i x).stat = d.stat := rfl
@[simp] theorem Device.setInst_power (i : Nat) (x : Inst) : (d.setInst i x).power = d.power := rfl
@[simp] theorem Device.setInst_boot (i : Nat) (x : Inst) : (d.setInst i x).boot = d.boot := rfl

@[simp] theorem Device.setSess_ms (n : Nat) (x : Sess) : (d.setSess n x).ms = d.ms := rfl
@[simp] theorem Device.setSess_regs (n : Nat) (x : Sess) : (d.setSess n x).regs = d.regs := rfl
@[simp] theorem Device.setSess_mem (n : Nat) (x : Sess) : (d.setSess n x).mem = d.mem := rfl
@[simp] theorem Device.setSess_bad (n : Nat) (x : Sess) : (d.setSess n x).bad = d.bad := rfl
@[simp] theorem Device.setSess_fresh (n : Nat) (x : Sess) : (d.setSess n x).fresh = d.fresh := rfl
@[simp] theorem Device.setSess_out (n : Nat) (x : Sess) : (d.setSess n x).out = d.out := rfl
@[simp] theorem Device.setSess_life (n : Nat) (x : Sess) : (d.setSess n x).life = d.life := rfl
@[simp] theorem Device.setSess_clock (n : Nat) (x : Sess) : (d.setSess n x).clock = d.clock := rfl
@[simp] theorem Device.setSess_pins (n : Nat) (x : Sess) : (d.setSess n x).pins = d.pins := rfl
@[simp] theorem Device.setSess_pcie (n : Nat) (x : Sess) : (d.setSess n x).pcie = d.pcie := rfl
@[simp] theorem Device.setSess_work (n : Nat) (x : Sess) : (d.setSess n x).work = d.work := rfl
@[simp] theorem Device.setSess_cores (n : Nat) (x : Sess) : (d.setSess n x).cores = d.cores := rfl
@[simp] theorem Device.setSess_coh (n : Nat) (x : Sess) : (d.setSess n x).coh = d.coh := rfl
@[simp] theorem Device.setSess_wheel (n : Nat) (x : Sess) : (d.setSess n x).wheel = d.wheel := rfl
@[simp] theorem Device.setSess_errs (n : Nat) (x : Sess) : (d.setSess n x).errs = d.errs := rfl
@[simp] theorem Device.setSess_klz (n : Nat) (x : Sess) : (d.setSess n x).klz = d.klz := rfl
@[simp] theorem Device.setSess_stat (n : Nat) (x : Sess) : (d.setSess n x).stat = d.stat := rfl
@[simp] theorem Device.setSess_power (n : Nat) (x : Sess) : (d.setSess n x).power = d.power := rfl
@[simp] theorem Device.setSess_boot (n : Nat) (x : Sess) : (d.setSess n x).boot = d.boot := rfl

@[simp] theorem Device.setDesc_ms (i : Nat) (x : Desc) : (d.setDesc i x).ms = d.ms := rfl
@[simp] theorem Device.setDesc_regs (i : Nat) (x : Desc) : (d.setDesc i x).regs = d.regs := rfl
@[simp] theorem Device.setDesc_mem (i : Nat) (x : Desc) : (d.setDesc i x).mem = d.mem := rfl
@[simp] theorem Device.setDesc_bad (i : Nat) (x : Desc) : (d.setDesc i x).bad = d.bad := rfl
@[simp] theorem Device.setDesc_fresh (i : Nat) (x : Desc) : (d.setDesc i x).fresh = d.fresh := rfl
@[simp] theorem Device.setDesc_out (i : Nat) (x : Desc) : (d.setDesc i x).out = d.out := rfl
@[simp] theorem Device.setDesc_life (i : Nat) (x : Desc) : (d.setDesc i x).life = d.life := rfl
@[simp] theorem Device.setDesc_clock (i : Nat) (x : Desc) : (d.setDesc i x).clock = d.clock := rfl
@[simp] theorem Device.setDesc_pins (i : Nat) (x : Desc) : (d.setDesc i x).pins = d.pins := rfl
@[simp] theorem Device.setDesc_pcie (i : Nat) (x : Desc) : (d.setDesc i x).pcie = d.pcie := rfl
@[simp] theorem Device.setDesc_work (i : Nat) (x : Desc) : (d.setDesc i x).work = d.work := rfl
@[simp] theorem Device.setDesc_cores (i : Nat) (x : Desc) : (d.setDesc i x).cores = d.cores := rfl
@[simp] theorem Device.setDesc_coh (i : Nat) (x : Desc) : (d.setDesc i x).coh = d.coh := rfl
@[simp] theorem Device.setDesc_wheel (i : Nat) (x : Desc) : (d.setDesc i x).wheel = d.wheel := rfl
@[simp] theorem Device.setDesc_errs (i : Nat) (x : Desc) : (d.setDesc i x).errs = d.errs := rfl
@[simp] theorem Device.setDesc_klz (i : Nat) (x : Desc) : (d.setDesc i x).klz = d.klz := rfl
@[simp] theorem Device.setDesc_stat (i : Nat) (x : Desc) : (d.setDesc i x).stat = d.stat := rfl
@[simp] theorem Device.setDesc_power (i : Nat) (x : Desc) : (d.setDesc i x).power = d.power := rfl
@[simp] theorem Device.setDesc_boot (i : Nat) (x : Desc) : (d.setDesc i x).boot = d.boot := rfl

@[simp] theorem Device.setEngine_ms (e : Nat) (x : Engine) : (d.setEngine e x).ms = d.ms := rfl
@[simp] theorem Device.setEngine_regs (e : Nat) (x : Engine) : (d.setEngine e x).regs = d.regs := rfl
@[simp] theorem Device.setEngine_mem (e : Nat) (x : Engine) : (d.setEngine e x).mem = d.mem := rfl
@[simp] theorem Device.setEngine_bad (e : Nat) (x : Engine) : (d.setEngine e x).bad = d.bad := rfl
@[simp] theorem Device.setEngine_fresh (e : Nat) (x : Engine) : (d.setEngine e x).fresh = d.fresh := rfl
@[simp] theorem Device.setEngine_out (e : Nat) (x : Engine) : (d.setEngine e x).out = d.out := rfl
@[simp] theorem Device.setEngine_life (e : Nat) (x : Engine) : (d.setEngine e x).life = d.life := rfl
@[simp] theorem Device.setEngine_clock (e : Nat) (x : Engine) : (d.setEngine e x).clock = d.clock := rfl
@[simp] theorem Device.setEngine_pins (e : Nat) (x : Engine) : (d.setEngine e x).pins = d.pins := rfl
@[simp] theorem Device.setEngine_pcie (e : Nat) (x : Engine) : (d.setEngine e x).pcie = d.pcie := rfl
@[simp] theorem Device.setEngine_work (e : Nat) (x : Engine) : (d.setEngine e x).work = d.work := rfl
@[simp] theorem Device.setEngine_cores (e : Nat) (x : Engine) : (d.setEngine e x).cores = d.cores := rfl
@[simp] theorem Device.setEngine_coh (e : Nat) (x : Engine) : (d.setEngine e x).coh = d.coh := rfl
@[simp] theorem Device.setEngine_wheel (e : Nat) (x : Engine) : (d.setEngine e x).wheel = d.wheel := rfl
@[simp] theorem Device.setEngine_errs (e : Nat) (x : Engine) : (d.setEngine e x).errs = d.errs := rfl
@[simp] theorem Device.setEngine_klz (e : Nat) (x : Engine) : (d.setEngine e x).klz = d.klz := rfl
@[simp] theorem Device.setEngine_stat (e : Nat) (x : Engine) : (d.setEngine e x).stat = d.stat := rfl
@[simp] theorem Device.setEngine_power (e : Nat) (x : Engine) : (d.setEngine e x).power = d.power := rfl
@[simp] theorem Device.setEngine_boot (e : Nat) (x : Engine) : (d.setEngine e x).boot = d.boot := rfl

@[simp] theorem Device.setBoot_ms (x : Boot) : (d.setBoot x).ms = d.ms := rfl
@[simp] theorem Device.setBoot_regs (x : Boot) : (d.setBoot x).regs = d.regs := rfl
@[simp] theorem Device.setBoot_mem (x : Boot) : (d.setBoot x).mem = d.mem := rfl
@[simp] theorem Device.setBoot_bad (x : Boot) : (d.setBoot x).bad = d.bad := rfl
@[simp] theorem Device.setBoot_fresh (x : Boot) : (d.setBoot x).fresh = d.fresh := rfl
@[simp] theorem Device.setBoot_out (x : Boot) : (d.setBoot x).out = d.out := rfl
@[simp] theorem Device.setBoot_life (x : Boot) : (d.setBoot x).life = d.life := rfl
@[simp] theorem Device.setBoot_clock (x : Boot) : (d.setBoot x).clock = d.clock := rfl
@[simp] theorem Device.setBoot_pins (x : Boot) : (d.setBoot x).pins = d.pins := rfl
@[simp] theorem Device.setBoot_pcie (x : Boot) : (d.setBoot x).pcie = d.pcie := rfl
@[simp] theorem Device.setBoot_work (x : Boot) : (d.setBoot x).work = d.work := rfl
@[simp] theorem Device.setBoot_cores (x : Boot) : (d.setBoot x).cores = d.cores := rfl
@[simp] theorem Device.setBoot_coh (x : Boot) : (d.setBoot x).coh = d.coh := rfl
@[simp] theorem Device.setBoot_flow (x : Boot) : (d.setBoot x).flow = d.flow := rfl
@[simp] theorem Device.setBoot_wheel (x : Boot) : (d.setBoot x).wheel = d.wheel := rfl
@[simp] theorem Device.setBoot_errs (x : Boot) : (d.setBoot x).errs = d.errs := rfl
@[simp] theorem Device.setBoot_klz (x : Boot) : (d.setBoot x).klz = d.klz := rfl
@[simp] theorem Device.setBoot_stat (x : Boot) : (d.setBoot x).stat = d.stat := rfl
@[simp] theorem Device.setBoot_power (x : Boot) : (d.setBoot x).power = d.power := rfl

@[simp] theorem Device.setCoh_ms (x : Coh) : (d.setCoh x).ms = d.ms := rfl
@[simp] theorem Device.setCoh_regs (x : Coh) : (d.setCoh x).regs = d.regs := rfl
@[simp] theorem Device.setCoh_mem (x : Coh) : (d.setCoh x).mem = d.mem := rfl
@[simp] theorem Device.setCoh_bad (x : Coh) : (d.setCoh x).bad = d.bad := rfl
@[simp] theorem Device.setCoh_fresh (x : Coh) : (d.setCoh x).fresh = d.fresh := rfl
@[simp] theorem Device.setCoh_out (x : Coh) : (d.setCoh x).out = d.out := rfl
@[simp] theorem Device.setCoh_life (x : Coh) : (d.setCoh x).life = d.life := rfl
@[simp] theorem Device.setCoh_clock (x : Coh) : (d.setCoh x).clock = d.clock := rfl
@[simp] theorem Device.setCoh_pins (x : Coh) : (d.setCoh x).pins = d.pins := rfl
@[simp] theorem Device.setCoh_pcie (x : Coh) : (d.setCoh x).pcie = d.pcie := rfl
@[simp] theorem Device.setCoh_work (x : Coh) : (d.setCoh x).work = d.work := rfl
@[simp] theorem Device.setCoh_cores (x : Coh) : (d.setCoh x).cores = d.cores := rfl
@[simp] theorem Device.setCoh_flow (x : Coh) : (d.setCoh x).flow = d.flow := rfl
@[simp] theorem Device.setCoh_wheel (x : Coh) : (d.setCoh x).wheel = d.wheel := rfl
@[simp] theorem Device.setCoh_errs (x : Coh) : (d.setCoh x).errs = d.errs := rfl
@[simp] theorem Device.setCoh_klz (x : Coh) : (d.setCoh x).klz = d.klz := rfl
@[simp] theorem Device.setCoh_stat (x : Coh) : (d.setCoh x).stat = d.stat := rfl
@[simp] theorem Device.setCoh_power (x : Coh) : (d.setCoh x).power = d.power := rfl
@[simp] theorem Device.setCoh_boot (x : Coh) : (d.setCoh x).boot = d.boot := rfl

@[simp] theorem Device.setKlz_ms (x : Klz) : (d.setKlz x).ms = d.ms := rfl
@[simp] theorem Device.setKlz_regs (x : Klz) : (d.setKlz x).regs = d.regs := rfl
@[simp] theorem Device.setKlz_mem (x : Klz) : (d.setKlz x).mem = d.mem := rfl
@[simp] theorem Device.setKlz_bad (x : Klz) : (d.setKlz x).bad = d.bad := rfl
@[simp] theorem Device.setKlz_fresh (x : Klz) : (d.setKlz x).fresh = d.fresh := rfl
@[simp] theorem Device.setKlz_out (x : Klz) : (d.setKlz x).out = d.out := rfl
@[simp] theorem Device.setKlz_life (x : Klz) : (d.setKlz x).life = d.life := rfl
@[simp] theorem Device.setKlz_clock (x : Klz) : (d.setKlz x).clock = d.clock := rfl
@[simp] theorem Device.setKlz_pins (x : Klz) : (d.setKlz x).pins = d.pins := rfl
@[simp] theorem Device.setKlz_pcie (x : Klz) : (d.setKlz x).pcie = d.pcie := rfl
@[simp] theorem Device.setKlz_work (x : Klz) : (d.setKlz x).work = d.work := rfl
@[simp] theorem Device.setKlz_cores (x : Klz) : (d.setKlz x).cores = d.cores := rfl
@[simp] theorem Device.setKlz_coh (x : Klz) : (d.setKlz x).coh = d.coh := rfl
@[simp] theorem Device.setKlz_flow (x : Klz) : (d.setKlz x).flow = d.flow := rfl
@[simp] theorem Device.setKlz_wheel (x : Klz) : (d.setKlz x).wheel = d.wheel := rfl
@[simp] theorem Device.setKlz_errs (x : Klz) : (d.setKlz x).errs = d.errs := rfl
@[simp] theorem Device.setKlz_stat (x : Klz) : (d.setKlz x).stat = d.stat := rfl
@[simp] theorem Device.setKlz_power (x : Klz) : (d.setKlz x).power = d.power := rfl
@[simp] theorem Device.setKlz_boot (x : Klz) : (d.setKlz x).boot = d.boot := rfl

@[simp] theorem Device.setPower_ms (x : Power) : (d.setPower x).ms = d.ms := rfl
@[simp] theorem Device.setPower_regs (x : Power) : (d.setPower x).regs = d.regs := rfl
@[simp] theorem Device.setPower_mem (x : Power) : (d.setPower x).mem = d.mem := rfl
@[simp] theorem Device.setPower_bad (x : Power) : (d.setPower x).bad = d.bad := rfl
@[simp] theorem Device.setPower_fresh (x : Power) : (d.setPower x).fresh = d.fresh := rfl
@[simp] theorem Device.setPower_out (x : Power) : (d.setPower x).out = d.out := rfl
@[simp] theorem Device.setPower_life (x : Power) : (d.setPower x).life = d.life := rfl
@[simp] theorem Device.setPower_clock (x : Power) : (d.setPower x).clock = d.clock := rfl
@[simp] theorem Device.setPower_pins (x : Power) : (d.setPower x).pins = d.pins := rfl
@[simp] theorem Device.setPower_pcie (x : Power) : (d.setPower x).pcie = d.pcie := rfl
@[simp] theorem Device.setPower_work (x : Power) : (d.setPower x).work = d.work := rfl
@[simp] theorem Device.setPower_cores (x : Power) : (d.setPower x).cores = d.cores := rfl
@[simp] theorem Device.setPower_coh (x : Power) : (d.setPower x).coh = d.coh := rfl
@[simp] theorem Device.setPower_flow (x : Power) : (d.setPower x).flow = d.flow := rfl
@[simp] theorem Device.setPower_wheel (x : Power) : (d.setPower x).wheel = d.wheel := rfl
@[simp] theorem Device.setPower_errs (x : Power) : (d.setPower x).errs = d.errs := rfl
@[simp] theorem Device.setPower_klz (x : Power) : (d.setPower x).klz = d.klz := rfl
@[simp] theorem Device.setPower_stat (x : Power) : (d.setPower x).stat = d.stat := rfl
@[simp] theorem Device.setPower_boot (x : Power) : (d.setPower x).boot = d.boot := rfl

@[simp] theorem Device.wr_regs (f : Fld) (i v : Nat) : (d.wr f i v).regs = f.write d.regs i v := rfl
@[simp] theorem Device.emit_out (o : Out) : (d.emit o).out = d.out ++ [o] := rfl
@[simp] theorem Device.step1_fresh : (d.step1).fresh = d.fresh + 1 := rfl
@[simp] theorem Device.setBoot_boot (x : Boot) : (d.setBoot x).boot = x := rfl
@[simp] theorem Device.setCoh_coh (x : Coh) : (d.setCoh x).coh = x := rfl
@[simp] theorem Device.setKlz_klz (x : Klz) : (d.setKlz x).klz = x := rfl
@[simp] theorem Device.setPower_power (x : Power) : (d.setPower x).power = x := rfl
@[simp] theorem Device.emit_rd (o : Out) (f : Fld) (i : Nat) : (d.emit o).rd f i = d.rd f i := rfl
@[simp] theorem Device.setBoot_rd (x : Boot) (f : Fld) (i : Nat) : (d.setBoot x).rd f i = d.rd f i := rfl
@[simp] theorem Device.setPower_rd (x : Power) (f : Fld) (i : Nat) : (d.setPower x).rd f i = d.rd f i := rfl

end

end Sys2Proof.Machine
end

