-- ==== Sys2Proof/Laws/Ixfen.lean ====
section
/-! SUPPORT. Ixfen instructions: what an instruction that executes does to the state, and what the shared shapes of effects write. -/

namespace Sys2Proof.Machine

/-- An instruction that executes has its effect, unless its hoop does not have the opcode; a fault waits until no earlier access is open. -/
theorem Device.issue_executes {d d' : Device} {e : Ent} {op : Nat} {w : IWord} {sp : OpSpec} {i : IC}
    (h : d.executes e op w sp = some (i, d')) (f : IC → Device → Eff) (illegal : Nat → Bool) (hi : illegal i.hoop = false) :
    d.issue e op w sp f illegal = match f i d' with
      | .fault d2 g => if i.open_ d' then i.apply (.retry d' none) else i.apply (.fault d2 g)
      | x => i.apply x := by
  unfold Device.executes at h
  split at h
  · cases h
  rename_i hl
  split at h
  · cases h
  rename_i j hc
  split at h
  case h_2 => cases h
  rename_i d1 y hf
  split at h
  case isFalse => cases h
  rename_i hk
  simp only [Option.some.injEq, Prod.mk.injEq] at h
  obtain ⟨rfl, rfl⟩ := h
  obtain ⟨h1, h2, h3, h4⟩ := hk
  simp only [IC.unhindered, Bool.and_eq_true, Bool.not_eq_true', Option.isNone_iff_eq_none, List.isEmpty_iff] at h4
  obtain ⟨⟨⟨⟨k1, k2⟩, k3⟩, k4⟩, k5⟩ := h4
  unfold Device.issue
  rw [if_neg hl]
  have k6 : (d1.core j.core).badReg.isEmpty = true := by rw [k4]; rfl
  have k7 : (d1.core j.core).softReg.isEmpty = true := by rw [k5]; rfl
  have hb : j.badLanes d1 sp = [] := by simp [IC.badLanes, k6]
  have hm : j.regsMet d1 sp = d1 := by simp only [IC.regsMet, k7, if_true, hb]
  simp only [hc, hf, h1, h2, h3, IC.run, hi, k1, k2, k3, hm, hb, k4]
  cases f j d1 <;> simp

/-- The word of the context is the command's. -/
theorem Device.executes_w {d d' : Device} {e : Ent} {op : Nat} {w : IWord} {sp : OpSpec} {i : IC}
    (h : d.executes e op w sp = some (i, d')) : i.w = w ∧ i.core = e.core ∧ i.entry = e.entry ∧ i.op = op ∧ sp.encoded w = true := by
  unfold Device.executes at h
  split at h
  · cases h
  split at h
  · cases h
  rename_i j hc
  split at h
  case h_2 => cases h
  split at h
  case isFalse => cases h
  rename_i hk
  simp only [Option.some.injEq, Prod.mk.injEq] at h
  obtain ⟨rfl, rfl⟩ := h
  have hj : j.w = w ∧ j.core = e.core ∧ j.entry = e.entry ∧ j.op = op := by
    unfold Device.context at hc
    split at hc <;> try cases hc
    split at hc <;> try cases hc
    split at hc <;> cases hc
    exact ⟨rfl, rfl, rfl, rfl⟩
  have h4 := hk.2.2.2
  simp only [IC.unhindered, Bool.and_eq_true] at h4
  exact ⟨hj.1, hj.2.1, hj.2.2.1, hj.2.2.2, hj.1 ▸ h4.1.1.1.1⟩

/-- An effect that goes on completes the instruction. -/
theorem IC.completes_go {s : State} {c : Instr} {e : Ent} {op : Nat} {w : IWord} {sp : OpSpec} {f : IC → Device → Eff} {i : IC}
    {d d2 : Device} (hc : exec c s = ixfen e op w sp f s) (h : s.dev.executes e op w sp = some (i, d)) (hf : f i d = .go d2) :
    i.Completes c s d2 := by
  unfold IC.Completes Gives
  rw [hc, ixfen, Device.issue_executes h f _ rfl, hf]
  rfl

/-! Registers -/

theorem Block.vreg_setV_same (b : Block) (t n v : Nat) : (b.setV t n v).vreg t n = v % 2 ^ 32 := by
  simp [Block.vreg, Block.setV]

theorem Block.vreg_setV_ne (b : Block) {t n x r : Nat} (v : Nat) (h : x * 256 + r ≠ t * 256 + n) :
    (b.setV t n v).vreg x r = b.vreg x r := by
  simp only [Block.vreg, Block.setV]
  exact Tab.get_insert_ne _ _ _ h

theorem Block.vreg_setVs_out (b : Block) (t n v x r : Nat) (m : Nat) (h : ∀ j, j < m → x * 256 + r ≠ t * 256 + (n + j)) :
    (b.setVs t n v m).vreg x r = b.vreg x r := by
  induction m generalizing b n v with
  | zero => rfl
  | succ m ih =>
    rw [Block.setVs, ih, Block.vreg_setV_ne _ _ (by simpa using h 0 (by omega))]
    intro j hj; have := h (j + 1) (by omega); omega

theorem Block.vregs_congr {a b : Block} (t n m : Nat) (h : ∀ j, j < m → a.vreg t (n + j) = b.vreg t (n + j)) :
    a.vregs t n m = b.vregs t n m := by
  induction m generalizing n with
  | zero => rfl
  | succ m ih =>
    rw [Block.vregs, Block.vregs, ih (n + 1) (fun j hj => by have := h (j + 1) (by omega); simpa [Nat.add_assoc, Nat.add_comm 1] using this)]
    rw [show a.vreg t n = b.vreg t n from h 0 (by omega)]

theorem Block.vregs_setVs (b : Block) (t n v m : Nat) : (b.setVs t n v m).vregs t n m = v % 2 ^ (32 * m) := by
  induction m generalizing b n v with
  | zero => simp [Block.vregs, Nat.mod_one]
  | succ m ih =>
    rw [Block.setVs, Block.vregs, ih, Block.vreg_setVs_out _ _ _ _ _ _ _ (fun j _ => by omega), Block.vreg_setV_same]
    rw [show 32 * (m + 1) = 32 + 32 * m by ring, pow_add, Nat.mod_mul]

theorem Block.setVs_rest (b : Block) (t n v m : Nat) : ∃ x, b.setVs t n v m = { b with v := x } := by
  induction m generalizing b n v with
  | zero => exact ⟨b.v, rfl⟩
  | succ m ih =>
    obtain ⟨x, hx⟩ := ih (b.setV t n v) (n + 1) (v / 2 ^ 32)
    exact ⟨x, by rw [Block.setVs, hx]; rfl⟩

theorem IC.mem_lanes {i : IC} {l : Nat} (h : l ∈ i.lanes) : l < 32 := by
  simp only [IC.lanes, setBits, List.mem_filter, List.mem_range] at h
  exact h.1

theorem IC.lanes_nodup (i : IC) : i.lanes.Nodup := by
  simp only [IC.lanes, setBits]
  exact List.Nodup.filter _ List.nodup_range

/-! Lane results -/

/-- One lane's part of a rounded operation. -/
def IC.laneStep (i : IC) (n rnd : Nat) (f : Nat → Nat → Nat × Nat) (a : Block × Nat) (l : Nat) : Block × Nat :=
  let g := if rnd = 4 then a.1.drawFor (i.thread l) else (a.1, 0)
  let v := f l g.2
  (i.setD g.1 n l v.1, a.2 ||| v.2)

theorem IC.rounded_eq (i : IC) (d : Device) (n rnd : Nat) (f : Nat → Nat → Nat × Nat) :
    i.rounded d n rnd f = .go ((i.put d (i.lanes.foldl (i.laneStep n rnd f) (i.b, 0)).1).numFlags i.hoop 0
      (i.lanes.foldl (i.laneStep n rnd f) (i.b, 0)).2) := rfl

theorem IC.lanewise_eq (i : IC) (d : Device) (n : Nat) (f : Nat → Nat × Nat) :
    i.lanewise d n f = i.rounded d n 0 (fun l _ => f l) := rfl

theorem IC.setD_rest (i : IC) (b : Block) (n l v : Nat) : ∃ x, i.setD b n l v = { b with v := x } := by
  unfold IC.setD
  split
  · exact ⟨b.v, rfl⟩
  · exact Block.setVs_rest ..

theorem IC.setD_vreg_out (i : IC) (b : Block) (n l v t r : Nat) (hr : r < 256)
    (hD : i.w.dz = false → i.w.d.toNat + n ≤ 255)
    (h : i.w.dz = true ∨ r < i.w.d.toNat ∨ i.w.d.toNat + n ≤ r ∨ t ≠ i.thread l) : (i.setD b n l v).vreg t r = b.vreg t r := by
  unfold IC.setD
  split
  · rfl
  · rename_i hz
    have hz : i.w.dz = false := by simpa using hz
    have := hD hz
    refine Block.vreg_setVs_out _ _ _ _ _ _ _ (fun j hj => ?_)
    rcases h with h | h | h | h
    · simp [hz] at h
    · omega
    · omega
    · intro he; apply h; omega

theorem Block.drawFor_fst (b : Block) (t : Nat) :
    (b.drawFor t).1 = { b with gens := Tab.put 1 b.gens t (draw (Tab.get 1 b.gens t)) } := by simp only [Block.drawFor]
theorem Block.drawFor_snd (b : Block) (t : Nat) : (b.drawFor t).2 = draw (Tab.get 1 b.gens t) := by simp only [Block.drawFor]

theorem IC.laneStep_gens (i : IC) (n rnd : Nat) (f : Nat → Nat → Nat × Nat) (a : Block × Nat) (l : Nat) :
    (i.laneStep n rnd f a l).1.gens = if rnd = 4 then Tab.put 1 a.1.gens (i.thread l) (draw (Tab.get 1 a.1.gens (i.thread l))) else a.1.gens := by
  unfold IC.laneStep
  split
  · obtain ⟨x, hx⟩ := i.setD_rest (a.1.drawFor (i.thread l)).1 n l (f l (a.1.drawFor (i.thread l)).2).1
    simp only [hx]; rw [Block.drawFor_fst]
  · obtain ⟨x, hx⟩ := i.setD_rest a.1 n l (f l 0).1
    simp only [hx]

theorem IC.laneStep_rest (i : IC) (n rnd : Nat) (f : Nat → Nat → Nat × Nat) (a : Block × Nat) (l : Nat) :
    ∃ x g, (i.laneStep n rnd f a l).1 = { a.1 with v := x, gens := g } := by
  unfold IC.laneStep
  split
  · obtain ⟨x, hx⟩ := i.setD_rest (a.1.drawFor (i.thread l)).1 n l (f l (a.1.drawFor (i.thread l)).2).1
    exact ⟨x, Tab.put 1 a.1.gens (i.thread l) (draw (Tab.get 1 a.1.gens (i.thread l))), by simp only [hx]; rw [Block.drawFor_fst]⟩
  · obtain ⟨x, hx⟩ := i.setD_rest a.1 n l (f l 0).1
    exact ⟨x, a.1.gens, by simp only [hx]⟩

theorem IC.fold_rest (i : IC) (n rnd : Nat) (f : Nat → Nat → Nat × Nat) (L : List Nat) (a : Block × Nat) :
    ∃ x g, (L.foldl (i.laneStep n rnd f) a).1 = { a.1 with v := x, gens := g } := by
  induction L generalizing a with
  | nil => exact ⟨a.1.v, a.1.gens, rfl⟩
  | cons l t ih =>
    obtain ⟨x, g, h⟩ := ih (i.laneStep n rnd f a l)
    obtain ⟨y, k, hk⟩ := i.laneStep_rest n rnd f a l
    exact ⟨x, g, by rw [List.foldl_cons, h, hk]⟩

theorem IC.laneStep_vreg_out (i : IC) (n rnd : Nat) (f : Nat → Nat → Nat × Nat) (a : Block × Nat) (l t r : Nat) (hr : r < 256)
    (hD : i.w.dz = false → i.w.d.toNat + n ≤ 255)
    (h : i.w.dz = true ∨ r < i.w.d.toNat ∨ i.w.d.toNat + n ≤ r ∨ t ≠ i.thread l) :
    (i.laneStep n rnd f a l).1.vreg t r = a.1.vreg t r := by
  unfold IC.laneStep
  simp only
  rw [IC.setD_vreg_out i _ n l _ t r hr hD h]
  split
  · simp only [Block.drawFor_fst, Block.vreg]
  · rfl

theorem IC.fold_vreg_out (i : IC) (n rnd : Nat) (f : Nat → Nat → Nat × Nat) (L : List Nat) (a : Block × Nat) (t r : Nat) (hr : r < 256)
    (hD : i.w.dz = false → i.w.d.toNat + n ≤ 255)
    (h : i.w.dz = true ∨ r < i.w.d.toNat ∨ i.w.d.toNat + n ≤ r ∨ ∀ l ∈ L, t ≠ i.thread l) :
    (L.foldl (i.laneStep n rnd f) a).1.vreg t r = a.1.vreg t r := by
  induction L generalizing a with
  | nil => rfl
  | cons l m ih =>
    rw [List.foldl_cons, ih, IC.laneStep_vreg_out i n rnd f a l t r hr hD]
    · exact h.imp id (Or.imp id (Or.imp id (fun h => h l (List.mem_cons_self ..))))
    · exact h.imp id (Or.imp id (Or.imp id (fun h x hx => h x (List.mem_cons_of_mem _ hx))))

theorem IC.thread_inj (i : IC) {l m : Nat} (h : i.thread l = i.thread m) : l = m := by unfold IC.thread at h; omega

theorem IC.fold_gens (i : IC) (n rnd : Nat) (f : Nat → Nat → Nat × Nat) (L : List Nat) (hn : L.Nodup) (a : Block × Nat) (l : Nat) :
    Tab.get 1 (L.foldl (i.laneStep n rnd f) a).1.gens (i.thread l)
      = if rnd = 4 ∧ l ∈ L then draw (Tab.get 1 a.1.gens (i.thread l)) else Tab.get 1 a.1.gens (i.thread l) := by
  induction L generalizing a with
  | nil => simp
  | cons m t ih =>
    have hm := List.nodup_cons.mp hn
    rw [List.foldl_cons, ih hm.2, IC.laneStep_gens]
    by_cases h4 : rnd = 4
    · by_cases e : l = m
      · subst e; simp [h4, hm.1]
      · have ht : i.thread l ≠ i.thread m := fun h => e (i.thread_inj h)
        simp [h4, e, Tab.get_put_ne _ _ _ _ ht]
    · simp [h4]

/-- The draw of a lane whose thread's generator has not moved. -/
theorem IC.laneStep_draw (i : IC) (n rnd : Nat) (f : Nat → Nat → Nat × Nat) (a : Block × Nat) (l : Nat)
    (h : rnd = 4 → Tab.get 1 a.1.gens (i.thread l) = Tab.get 1 i.b.gens (i.thread l)) :
    (i.laneStep n rnd f a l).2 = a.2 ||| (f l (i.laneDraw rnd l)).2 ∧
    (i.w.dz = false → (i.laneStep n rnd f a l).1.vregs (i.thread l) i.w.d.toNat n = (f l (i.laneDraw rnd l)).1 % 2 ^ (32 * n)) := by
  unfold IC.laneStep IC.laneDraw
  by_cases h4 : rnd = 4
  · have h := h h4
    simp only [h4, if_true, Block.drawFor, h, true_and]
    intro hz
    simp only [IC.setD, hz, Bool.false_eq_true, if_false]
    exact Block.vregs_setVs ..
  · simp only [h4, if_false, true_and]
    intro hz
    simp only [IC.setD, hz, Bool.false_eq_true, if_false]
    exact Block.vregs_setVs ..

theorem IC.fold_values (i : IC) (n rnd : Nat) (f : Nat → Nat → Nat × Nat) (L : List Nat) (hn : L.Nodup) (a : Block × Nat)
    (hD : i.w.dz = false → i.w.d.toNat + n ≤ 255)
    (hg : ∀ l ∈ L, Tab.get 1 a.1.gens (i.thread l) = Tab.get 1 i.b.gens (i.thread l)) :
    (L.foldl (i.laneStep n rnd f) a).2 = L.foldl (fun m l => m ||| (f l (i.laneDraw rnd l)).2) a.2 ∧
    (i.w.dz = false → ∀ l ∈ L, (L.foldl (i.laneStep n rnd f) a).1.vregs (i.thread l) i.w.d.toNat n
      = (f l (i.laneDraw rnd l)).1 % 2 ^ (32 * n)) := by
  induction L generalizing a with
  | nil => simp
  | cons m t ih =>
    have hm := List.nodup_cons.mp hn
    have hs := i.laneStep_draw n rnd f a m (fun _ => hg m (List.mem_cons_self ..))
    have hg' : ∀ l ∈ t, Tab.get 1 (i.laneStep n rnd f a m).1.gens (i.thread l) = Tab.get 1 i.b.gens (i.thread l) := by
      intro l hl
      have hne : i.thread l ≠ i.thread m := fun h => hm.1 (i.thread_inj h ▸ hl)
      rw [IC.laneStep_gens]
      split
      · rw [Tab.get_put_ne _ _ _ _ hne]; exact hg l (List.mem_cons_of_mem _ hl)
      · exact hg l (List.mem_cons_of_mem _ hl)
    have := ih hm.2 _ hg'
    refine ⟨by rw [List.foldl_cons, this.1, List.foldl_cons, hs.1], fun hz l hl => ?_⟩
    rcases List.mem_cons.mp hl with rfl | hl
    · rw [List.foldl_cons, ← hs.2 hz]
      refine Block.vregs_congr _ _ _ (fun j hj => ?_)
      have := hD hz
      exact i.fold_vreg_out n rnd f t _ _ _ (by omega) hD (.inr (.inr (.inr (fun x hx h => hm.1 (i.thread_inj h ▸ hx)))))
    · rw [List.foldl_cons]; exact this.2 hz l hl

/-- What a rounded operation that executes does. -/
theorem IC.rounded_result {s : State} {c : Instr} {e : Ent} {op : Nat} {w : IWord} {sp : OpSpec} {f : IC → Device → Eff} {i : IC}
    {d : Device} {n rnd : Nat} {g : Nat → Nat → Nat × Nat} (hc : exec c s = ixfen e op w sp f s)
    (h : s.dev.executes e op w sp = some (i, d)) (hd : sp.d = .v n) (hf : f i d = i.rounded d n rnd g) :
    i.RoundedResult c s d n rnd g := by
  have hw := Device.executes_w h
  have hD : i.w.dz = false → i.w.d.toNat + n ≤ 255 := by
    intro hz
    have he := hw.2.2.2.2
    simp only [OpSpec.encoded, hd, DK.ok, ← hw.1, hz, Bool.and_eq_true] at he
    have := he.1.1.1.1.1.1
    simp only [Bool.false_eq_true, if_false, regFits, Bool.and_eq_true, decide_eq_true_eq] at this
    exact this.2
  have hv := i.fold_values n rnd g i.lanes i.lanes_nodup (i.b, 0) hD (fun _ _ => rfl)
  refine ⟨(i.lanes.foldl (i.laneStep n rnd g) (i.b, 0)).1, ?_, ⟨hv.2, ?_, ?_⟩, ?_⟩
  · have := IC.completes_go hc h (hf.trans (i.rounded_eq d n rnd g))
    rwa [hv.1] at this
  · exact fun t r hr ho => i.fold_vreg_out n rnd g i.lanes (i.b, 0) t r hr hD ho
  · obtain ⟨x, y, hxy⟩ := i.fold_rest n rnd g i.lanes (i.b, 0)
    rw [hxy]
  · intro l
    rw [i.fold_gens n rnd g i.lanes i.lanes_nodup (i.b, 0) l]
    simp [IC.laneDraw]

/-- What a lane-wise operation without flags does. -/
theorem IC.lane_result {s : State} {c : Instr} {e : Ent} {op : Nat} {w : IWord} {sp : OpSpec} {f : IC → Device → Eff} {i : IC}
    {d : Device} {n : Nat} {g : Nat → Nat} (hc : exec c s = ixfen e op w sp f s)
    (h : s.dev.executes e op w sp = some (i, d)) (hd : sp.d = .v n) (hf : f i d = i.lanewise d n (fun l => (g l, 0))) :
    i.LaneResult c s d n g := by
  have hw := Device.executes_w h
  have hD : i.w.dz = false → i.w.d.toNat + n ≤ 255 := by
    intro hz
    have he := hw.2.2.2.2
    simp only [OpSpec.encoded, hd, DK.ok, ← hw.1, hz, Bool.and_eq_true] at he
    have := he.1.1.1.1.1.1
    simp only [Bool.false_eq_true, if_false, regFits, Bool.and_eq_true, decide_eq_true_eq] at this
    exact this.2
  have h0 : ∀ (L : List Nat) (m : Nat), L.foldl (fun m _ => m ||| 0) m = m := by
    intro L; induction L with
    | nil => intro m; rfl
    | cons a t ih => intro m; rw [List.foldl_cons, Nat.or_zero]; exact ih m
  have hv := i.fold_values n 0 (fun l _ => (g l, 0)) i.lanes i.lanes_nodup (i.b, 0) hD (fun _ _ => rfl)
  have hgen : ∀ (L : List Nat) (a : Block × Nat), (L.foldl (i.laneStep n 0 (fun l _ => (g l, 0))) a).1.gens = a.1.gens := by
    intro L; induction L with
    | nil => intro a; rfl
    | cons l t ih => intro a; rw [List.foldl_cons, ih, IC.laneStep_gens]; simp
  refine ⟨(i.lanes.foldl (i.laneStep n 0 (fun l _ => (g l, 0))) (i.b, 0)).1, ?_, ⟨hv.2, ?_, ?_⟩, ?_⟩
  · have := IC.completes_go hc h ((hf.trans (i.lanewise_eq d n _)).trans (i.rounded_eq d n 0 _))
    rw [hv.1, h0] at this
    exact this
  · exact fun t r hr ho => i.fold_vreg_out n 0 _ i.lanes (i.b, 0) t r hr hD ho
  · obtain ⟨x, y, hxy⟩ := i.fold_rest n 0 (fun l _ => (g l, 0)) i.lanes (i.b, 0)
    rw [hxy]
  · exact hgen i.lanes (i.b, 0)

end Sys2Proof.Machine
end

