-- ==== Sys2Proof/Laws/Memory.lean ====
section
/-! SUPPORT. Device memory: read after write, other bytes unchanged, and the canonical form kept by every operation. -/

namespace Sys2Proof.Machine

theorem Memory.put_lost (m : Memory) (a : Nat) (b : Byte) : (m.put a b).lost = m.lost := by
  unfold Memory.put; split <;> rfl

theorem Memory.write_lost (m : Memory) (a : Nat) (v : Bytes) : (m.write a v).lost = m.lost := by
  induction v generalizing m a with
  | nil => rfl
  | cons b t ih => rw [Memory.write, ih, Memory.put_lost]

@[simp] theorem Memory.get_put_same (m : Memory) (a : Nat) (b : Byte) : (m.put a b).get a = b := by
  have hd : (m.put a b).dflt a = m.dflt a := by simp [Memory.dflt, Memory.put_lost]
  unfold Memory.get
  rw [hd]
  unfold Memory.put
  split
  · rename_i h; simp [Memory.dflt, h.1, h.2]
  · simp

theorem Memory.get_put_ne (m : Memory) {a x : Nat} (b : Byte) (h : x ≠ a) : (m.put a b).get x = m.get x := by
  have hd : (m.put a b).dflt x = m.dflt x := by simp [Memory.dflt, Memory.put_lost]
  unfold Memory.get
  rw [hd]
  unfold Memory.put
  split
  · exact Tab.get_erase_ne _ _ h
  · exact Tab.get_insert_ne _ _ _ h

/-- A write leaves every byte outside its range alone. -/
theorem Memory.get_write_outside (m : Memory) (a x : Nat) (v : Bytes) (h : x < a ∨ a + v.length ≤ x) :
    (m.write a v).get x = m.get x := by
  induction v generalizing m a with
  | nil => rfl
  | cons b t ih =>
    simp only [List.length_cons] at h
    rw [Memory.write, ih _ _ (by omega), Memory.get_put_ne _ _ (by omega)]

/-- A byte of a write's range reads as written. -/
theorem Memory.get_write_inside (m : Memory) (a i : Nat) (v : Bytes) (h : i < v.length) : (m.write a v).get (a + i) = v[i] := by
  induction v generalizing m a i with
  | nil => simp at h
  | cons b t ih =>
    rw [Memory.write]
    cases i with
    | zero => rw [Memory.get_write_outside _ _ _ _ (by omega)]; simp
    | succ i =>
      have := ih (m.put a b) (a + 1) i (by simpa using h)
      simpa [Nat.add_assoc, Nat.add_comm 1] using this

theorem Memory.wf_iff (m : Memory) :
    m.wf = true ↔ Tab.sorted m.cells = true ∧ (m.lost.isSome = true ∨ ∀ c ∈ m.cells, c.2 ≠ 0) := by
  simp [Memory.wf]

theorem Memory.put_wf {m : Memory} (h : m.wf = true) (a : Nat) (b : Byte) : (m.put a b).wf = true := by
  rw [Memory.wf_iff] at h ⊢
  rw [Memory.put_lost]
  unfold Memory.put
  split
  · exact ⟨Tab.sorted_erase h.1 a, h.2.imp id (fun g c hc => g c (Tab.mem_erase hc))⟩
  · rename_i hz
    refine ⟨Tab.sorted_insert h.1 a b, ?_⟩
    rcases h.2 with g | g
    · exact .inl g
    · by_cases hl : m.lost = none
      · refine .inr (fun c hc => ?_)
        rcases Tab.mem_insert hc with rfl | hc
        · exact fun hb => hz ⟨hl, hb⟩
        · exact g c hc
      · exact .inl (Option.isSome_iff_ne_none.mpr hl)

theorem Memory.write_wf {m : Memory} (h : m.wf = true) (a : Nat) (v : Bytes) : (m.write a v).wf = true := by
  induction v generalizing m a with
  | nil => exact h
  | cons b t ih => exact ih (Memory.put_wf h a b) (a + 1)

theorem Memory.clear_wf {m : Memory} (h : m.wf = true) (p : Nat → Bool) : (m.clear p).wf = true := by
  rw [Memory.wf_iff] at h
  rw [Memory.wf_iff]
  unfold Memory.clear
  split
  · rename_i hl
    refine ⟨Tab.sorted_filter h.1 _, ?_⟩
    rcases h.2 with g | g
    · simp [hl] at g
    · exact .inr (fun c hc => g c (List.mem_of_mem_filter hc))
  · rename_i e hl
    refine ⟨?_, .inl (by simp [hl])⟩
    have := Tab.sorted_map (t := m.cells) h.1 (fun c => if p c.1 then (0 : Byte) else c.2)
    convert this using 3
    rename_i c
    funext c
    split <;> rfl

theorem Memory.zeroed_wf : Memory.zeroed.wf = true := rfl
theorem Memory.undefinedSince_wf (e : Nat) : (Memory.undefinedSince e).wf = true := rfl

end Sys2Proof.Machine
end

