-- ==== Sys2Proof/Machine/HostView.lean ====
section
/-! DEFINITION. What the host reads: registers, the MSI-X table and its pending bits, doorbell pages, configuration fields (R9, R11, R73, R378, R380,
R383 to R385, R389, R391, R394, R474, R479). The commands have no row for these reads, which change nothing; reads of apertures are APERTURE_READ. -/

namespace Sys2Proof.Machine

/-- All ones, as wide as an access. -/
def onesOf (w : Nat) : Nat := 2 ^ (8 * w) - 1

/-- What a read of `w` bytes at a place gives: the fields of a register that the access reaches, WO fields and reserved bits as 0; 0 where no
register is; all ones for any other access (R9, R11, R383, R384). -/
def Device.placeRead (d : Device) (a w : Nat) : Nat :=
  if (List.range w).all (fun k => (findReg (a + k)).isNone) then 0
  else
    let all := pieces a w
    if all.isEmpty || !all.all (fun x => match findReg x.2.1 with
        | some (g, _, _) => g.reached a w
        | none => false) then onesOf w
    else all.foldl (fun v x => match findReg x.2.1 with
      | some (g, i, o) => v + g.word d.regs i / 2 ^ (8 * o) % 2 ^ (8 * x.2.2) * 2 ^ (8 * x.1)
      | none => v) 0

/-- The 4 bytes at an offset of a function's MSI-X table (R389): address, data, mask. -/
def Device.msixRead (d : Device) (fn o : Nat) : Nat :=
  let e := d.msixEnt fn (o / 16)
  match o % 16 / 4 with
  | 0 => e.addr % 2 ^ 32
  | 1 => e.addr / 2 ^ 32 % 2 ^ 32
  | 2 => e.data
  | _ => b2n e.masked

/-- The 4 bytes at an offset of a function's pending-bit array (R383, R389): bit v is 1 while vector v is pending. -/
def Device.pbaRead (d : Device) (fn o : Nat) : Nat :=
  (List.range 32).foldl (fun s i => s + b2n (d.pcie.pend.contains (fn, 8 * o + i)) * 2 ^ i) 0

/-- A read of 4 or 8 bytes, aligned, of a table that is made of 4-byte parts; all ones for any other access (R384). -/
def byWords (f : Nat → Nat) (o w : Nat) : Nat :=
  if o % w ≠ 0 then onesOf w else if w = 4 then f o else if w = 8 then f o + f (o + 4) * 2 ^ 32 else onesOf w

/-- QDB_STATE of a queue (R73). -/
def Device.qdbState (d : Device) (q : Nat) : Nat :=
  let x := d.queue q
  x.state + 8 * b2n x.rung + (match d.slotOfQueue q with
    | some s => 16 * (d.slot s).state + 256 * s
    | none => 0)

/-- What a doorbell page reads as at an offset (R73, R385): QDB_RPTR at 8, QDB_STATE at 16, 0 elsewhere, all ones where another access meets a register. -/
def Device.pageRead (d : Device) (fn q o w : Nat) : Nat :=
  if fn ≠ 0 ∧ ((d.queue q).state = 0 ∨ d.ownerFn (d.queue q).hoop ≠ fn) then 0
  else if w = 4 ∧ o % 4 = 0 then (if o = 8 then (d.queue q).rptr % 2 ^ 32 else if o = 16 then d.qdbState q else 0)
  else if [0, 8, 16].any (fun b => o < b + 4 && b < o + w) then onesOf w
  else 0

/-- What a read of a register BAR gives at an offset: PF BAR0 and BAR4, a VF's BAR0 and BAR2 (R382 to R385, R474, R479). None where it completes with Unsupported
Request or meets no such BAR (R391). -/
def Device.barRead (d : Device) (fn bar o w : Nat) : Option Nat :=
  if !d.regOpen fn || !(w == 1 || w == 2 || w == 4 || w == 8) then none
  else if bar = 0 then
    let table := if fn = 0 then (0x10000, 256) else (0x8000, 224)
    let pba := if fn = 0 then 0x18000 else 0xF000
    if o ≥ (if fn = 0 then 2 ^ 26 else 2 ^ 16) then none
    else if d.stage = 4 ∧ table.1 ≤ o ∧ o < table.1 + 16 * table.2 then some (byWords (fun k => d.msixRead fn (k - table.1)) o w)
    else if d.stage = 4 ∧ pba ≤ o ∧ o < pba + 32 then some (byWords (fun k => d.pbaRead fn (k - pba)) o w)
    else some (match barPlace fn o with
      | some a => if d.decodes a then d.placeRead a w else 0
      | none => 0)
  else if (fn = 0 ∧ bar = 4) ∨ (fn ≠ 0 ∧ bar = 2) then
    if o ≥ 2 ^ 24 then none else some (if d.stage = 4 then d.pageRead fn (o / 4096) (o % 4096) w else 0)
  else none

/-- TotalVFs (R380, R474, R479). -/
def Device.totalVfs (d : Device) : Nat := if d.stage = 4 then 8 else 0

/-- What a configuration read gives; none where it completes with Request Retry Status or meets no function (R378, R380, R389, R391, R394). -/
def Device.cfgRead (d : Device) (fn : Nat) (f : CfgField) : Option Nat :=
  if !d.hostOpen fn || d.inReset fn then none
  else
    let p := d.pcie
    some (match f with
      | .vfEnable => b2n (fn == 0 && p.vfEnable)
      | .numVfs => if fn = 0 then p.numVfs else 0
      | .totalVfs => if fn = 0 then d.totalVfs else 0
      | .ariCapable => b2n (fn == 0 && p.ari)
      | .msixEnable => b2n (p.msixEnable.testBit fn)
      | .functionMask => b2n (p.funcMask.testBit fn)
      | .bar2Size => if fn = 0 then p.bar2Gib else 0
      | .vfBar4Size => if fn = 0 then p.vfBar4Gib else 0
      | .maxPayload => p.mps
      | .maxReadRequest => p.mrrs
      | .aspm => 2 * b2n (p.aspm.testBit fn)
      | .l0pWidth => p.l0p
      | .linkWidth => p.lanes
      | .linkRate => p.rate
      | .vendorId => Config.pciVendor.toNat)

end Sys2Proof.Machine
end

