-- ==== Sys2Proof/Tests/Slice0.lean ====
section
/-! SUPPORT. Tests: ill-formed terms that WellFormed refuses, for each statement states that meet its hypotheses (each theorem
`witness_<statement>`, clause by clause), and small checks of results that the manual gives. -/

namespace Sys2Proof.Machine.Tests

open Sys2Proof.Machine

set_option linter.unusedVariables false
set_option Elab.async false

/-! Helper states -/

/-- A segment descriptor of Table 10-3 as 32 bytes: flags, interleave, base, limit, groups. -/
def segBytes (flags ilv base limit groups : Nat) : Bytes := le 2 flags ++ le 1 ilv ++ le 5 0 ++ le 8 base ++ le 8 limit ++ le 8 groups

/-- A module that runs (READY), with memory 0. -/
def up : Device := ({ life := { powered := true, rails := true }, pins := { perstN := true }, mem := Memory.zeroed } : Device).wr Reg.BOOT_STATUS_STAGE 0 4

/-- Hoop 0 with a segment table at device address 0: slot 0 in the host tier, slot 1 in HBM3E, both with every permission. -/
def mapped : Device :=
  { up with mem := (up.mem.write 0 (segBytes 0xFD 0 0 (2 ^ 44) 0)).write 32 (segBytes 0xF9 12 0 (2 ^ 20) 1) }

/-- A block of 32 threads: v0 of threads 0 and 1 holds 3 and 7, v1 of thread 0 holds 4. -/
def blk : Block := { kernel := 5, lin := 0, x := 0, y := 0, z := 0, threads := 32, epoch := 1, quarters := [0], v := [(0, 3), (1, 4), (256, 7)] }

/-- The kernel of the block. -/
def kern : Kernel :=
  { hoop := 0, queue := 0, entry := 0, ptr := 0, code := 0, regs := 32, split := 0, local_ := 1024, bx := 32, byy := 1, bz := 1, seed := 1
    params := 0, gx := 1, gy := 1, gz := 1, started := true }

/-- Where the instructions of the tests lie, in HBM3E. -/
def pc0 : Nat := 2 ^ 44 + 0xC000

/-- A module whose core 0 runs a block; its entry 0 holds group 0 with the lanes of a mask at that address. -/
def busyWith (b : Block) (mask : Nat) : Device :=
  { mapped with
    work := { mapped.work with kernels := [(5, kern)] }
    cores := [(0, { kernel := some 5, blocks := [(0, b)], ents := [(0, { place := 0, group := 0, mask := mask, pc := pc0 })] })] }

/-- The same with lanes 0 and 1. -/
def busy : Device := busyWith blk 3

/-- A state with a device, no command waiting and blank fuses. -/
def st (d : Device) : State := ⟨[], {}, d⟩

/-- Core 0, entry 0. -/
def e0 : Ent := ⟨0, 0⟩

/-- An instruction word with D = 2, A = 0, B = 1 and a MOD field. -/
def alu (m : Nat) : IWord := { d := 2, a := 0, b := 1, mod := BitVec.ofNat 12 m }

/-- The device with an instruction in memory at that address (Table 5-1). -/
def holding (d : Device) (op : Nat) (w : IWord) : Device := { d with mem := d.mem.write (devAddr 0 0xC000) (wordBytes op w) }

/-- Whether an instruction executes at entry 0 of core 0 and its context and device meet a condition. -/
def runs (d : Device) (op : Nat) (w : IWord) (sp : OpSpec) (f : IC → Device → Bool := fun _ _ => true) : Bool :=
  match (holding d op w).executes e0 op w sp with
  | some (i, d) => f i d
  | none => false

/-- The coherent domain rests. -/
def resting (d : Device) : Bool := d.coh.opened.isEmpty && d.coh.waiting.isEmpty && d.coh.failed.isEmpty && d.coh.lost.isEmpty

/-- The same module with its kernel early. -/
def earlyOf (d : Device) : Device :=
  { d with work := { d.work with kernels := d.work.kernels.map (fun x => (x.1, { x.2 with early := true })) } }
/-- The block with addresses in registers: v4, v5 of threads 0 and 1 point into HBM3E at 0x1000 and 0x1004, v6 into local store at 0x10 and 0x14, v10,
v11 to window 0 of chip 0; v20 holds session 0; u4, u5 hold the first pointer, u6 0x40, u7 1. -/
def ptrs : Block :=
  { blk with
    v := [(0, 3), (1, 4), (4, 0x1000), (5, 4096), (6, 0x10), (10, 0x1000), (11, 0), (20, 0), (256, 7), (260, 0x1004), (261, 4096), (262, 0x14),
      (266, 0x1004), (267, 0), (276, 0)]
    u := [(4, 0x1000), (5, 4096), (6, 0x40), (7, 1)] }

/-- The busy module with that block, lanes 0 and 1. -/
def memBusy : Device := busyWith ptrs 3

/-- The same with lane 0 alone. -/
def one : Device := busyWith ptrs 1

/-- The same with hoop 0 in a job whose slice holds chip 0, which is this one. -/
def far : Device := { memBusy with mem := memBusy.mem.write 1088 [1] }.wr Reg.HOOP_REMOTE_JOB 0 7

/-- The same with a session 0 of hoop 0: one block of 16 tokens with records of 64 bytes, PROVISIONAL 8, its pool in segment slot 1. -/
def kv : Device :=
  ({ memBusy with flow := { memBusy.flow with
       sessions := [(0, { state := 1, hoop := 0, tpb := 16, record := 64, blist := 0x2000, blocks := 1, maxlen := 16, prov := 8 })] } }.wr
    Reg.HOOP_KVPOOL_HBM_SEG 0 1).wr Reg.HOOP_SESSIONS_COUNT 0 1

/-- A load's word: D = v2, base in vector register `a`, no index. -/
def ldw (a m : Nat) : IWord := { d := 2, a := BitVec.ofNat 8 a, ck := 2, mod := BitVec.ofNat 12 m }

/-- A store's word: source v1. -/
def stw (a m : Nat) : IWord := { a := BitVec.ofNat 8 a, b := 1, ck := 2, mod := BitVec.ofNat 12 m }

/-- The module with 64 fences at HBM3E virtual address 0x4000 and queue 3 of hoop 0. -/
def fenced : Device :=
  let d := memBusy.wr Reg.HOOP_FENCES_BASE 0 0x100000004
  { d with work := { d.work with queues := [(3, { state := 1, hoop := 0, ring := 2 ^ 44 + 0x8000, completion := 2 ^ 44 + 0x9000 })] } }

/-- A block with p0 true in lane 0 alone, and branch targets: v12, v13 of thread 0 hold 0x200, of thread 1 0x300; v14, v15 of both 0x200. -/
def jumps : Block :=
  { ptrs with
    v := [(0, 3), (12, 0x200), (13, 0), (14, 0x200), (15, 0), (256, 7), (268, 0x300), (269, 0), (270, 0x200), (271, 0)]
    p := [(1, 1)] }

/-- The module with that block. -/
def jumpBusy : Device := busyWith jumps 3

/-- The module with a block of one full group that owns the press: u4 holds 0, u5 8, u6 0x8000, handle 0 is bound to columns 0 to 7. -/
def pressed : Device :=
  let d := busyWith { blk with region := true, u := [(4, 0), (5, 8), (6, 0x8000)] } (2 ^ 32 - 1)
  { d with
    work := { d.work with kernels := [(5, { kern with local_ := 131072 })] }
    cores := d.cores.map (fun c => (c.1, { c.2 with press :=
      { owner := some 0, tileType := some (1, 0), handles := [(0, ⟨0, 8, 0⟩)], cur := some 0 } })) }

/-- A stream descriptor that copies 8 FP32 elements from HBM3E offset 0x8000 to 0x9000. -/
def copySd : Bytes :=
  le 8 0 ++ le 8 (2 ^ 44 + 0x8000) ++ le 8 (2 ^ 44 + 0x9000) ++ le 8 0 ++ le 4 8 ++ le 12 0
    ++ (List.range 5).flatMap (fun _ => le 4 1 ++ le 12 0)

/-- An update descriptor of form 0 with FP32 gradients and moments: 4 elements in arrays of 0x100 bytes from HBM3E offset 0x8000. -/
def updDesc : Bytes :=
  le 2 0 ++ le 2 2 ++ le 4 4 ++ (List.range 5).flatMap (fun i => le 8 (2 ^ 44 + 0x8000 + 0x100 * i)) ++ le 16 0 ++ le 64 0

/-- The module with both descriptors in HBM3E, at offsets 0x1000 and 0x1080, and a block whose u4, u5 and u10, u11 point at them; handle 1 has
completed, handle 2 has not. -/
def streaming : Device :=
  let b := { ptrs with
    v := [(0, 3), (1, 1), (256, 7), (257, 2)]
    u := [(4, 0x1000), (5, 4096), (6, 64), (7, 1), (8, 0), (9, 0), (10, 0x1080), (11, 4096), (12, 2)]
    handles := [(1, { kind := 0, op := 9, done := true }), (2, { kind := 0, op := 10 })] }
  let d := (((busyWith b 3).writeVa 0 (2 ^ 44 + 0x1000) (copySd ++ updDesc)).getD {})
  { d with cores := d.cores.map (fun (c : Nat × Core) => (c.1, { c.2 with loc := (List.range 64).map (fun n => (n, BitVec.ofNat 8 (n + 1))) })) }.wr
    Reg.HOOP_REMOTE_JOB 0 7

/-- A ring entry of 64 bytes: opcode, NOBJ, payload, HANDLE[0]. -/
def entB (op nobj : Nat) (payload : Bytes) (handle : Nat := 0) : Bytes :=
  le 1 op ++ le 1 0 ++ le 1 nobj ++ le 1 0 ++ le 4 5 ++ payload ++ List.replicate (24 - payload.length) 0 ++ le 4 handle ++ le 28 0

/-- A kernel descriptor (Table 3-4): 32 registers, 1,024 bytes of local store, a block of 32 threads. -/
def kdesc : Bytes :=
  le 8 (2 ^ 44 + 0x10000) ++ le 1 32 ++ le 1 1 ++ le 2 0 ++ le 4 1024 ++ le 2 32 ++ le 2 1 ++ le 2 1 ++ le 2 0 ++ le 4 9 ++ le 36 0

/-- The payload of a LAUNCH: descriptor, parameters, a grid of 2 by 1 by 1. -/
def launchP : Bytes := le 8 (2 ^ 44 + 0x1000) ++ le 8 0 ++ le 4 2 ++ le 2 1 ++ le 2 1

/-- A whey descriptor that writes 8 immediate bytes at HBM3E offset 0x9000. -/
def wheyD : Bytes := le 2 3 ++ le 2 8 ++ le 12 0 ++ le 8 (2 ^ 44 + 0x9000) ++ le 8 0 ++ le 8 0x1122334455667788 ++ le 24 0

/-- A recipe of one node that waits for a fence and has no successor. -/
def recipe : Recipe := { nodes := [⟨3, false, 0, [], le 4 1 ++ le 4 0 ++ le 8 9 ++ le 8 0⟩], patches := [], objects := [], paramLen := 0, size := 256 }

/-- Hoop 0 is ACTIVE; its tables lie in HBM3E: fences at 0x4000, objects at 0x60000 (handle 4 is a recipe, 5 session 0), a release ring at 0x70000;
the descriptors lie at 0x1000 (kernel), 0x1080 (stream), 0x1100 (whey). -/
def ready : Device :=
  let d := ((((((mapped.wr Reg.HOOP_CFG_STATE 0 1).wr Reg.HOOP_FENCES_BASE 0 0x100000004).wr Reg.HOOP_OBJTAB_BASE 0 0x100000060).wr
    Reg.HOOP_OBJTAB_ENTRIES_LOG2 0 10).wr Reg.HOOP_RELQ_BASE 0 0x100000070).wr Reg.HOOP_RELQ_SIZE_LOG2 0 8).wr Reg.HOOP_CFG_TABLES_LOCK 0 1
  let d := (d.writeVa 0 (2 ^ 44 + 0x1000) (kdesc ++ le 64 0 ++ copySd ++ wheyD)).getD {}
  let d := (d.objWrite 0 4 1 2 1).objWrite 0 5 1 3 0
  let d := { d with mem := (d.mem.write 96 (segBytes 0xF9 12 (2 ^ 20) (2 ^ 20) 1)).write 128 (segBytes 0xF9 12 (2 ^ 21) (2 ^ 20) 1) }
  { d with work := { d.work with recipes := [(1, recipe)] } }

/-- The queue of the next state. -/
def ringQ (l : List Entry) : Queue :=
  { state := 2, hoop := 0, ring := 2 ^ 44 + 0x8000, completion := 2 ^ 44 + 0xA000, vector := 0xFFFF, entries := l, rptr := 1, shadow := 1 }

/-- The module whose queue 0 is mapped to slot 0 and holds these entries. -/
def queued (l : List Entry) : Device :=
  { ready with work := { ready.work with queues := [(0, ringQ l)], slots := [(0, { queue := 0, state := 1, cached := 1 })] } }

/-- One entry that has not started. -/
def fetched (op nobj : Nat) (p : Bytes) (handle : Nat := 0) : Entry := { id := 7, bytes := entB op nobj p handle, ptr := 0 }

/-- An instance of the recipe whose only node runs. -/
def inst (y : INode) : Inst := { hoop := 0, recipe := 1, queue := 0, entry := 7, ptr := 0, nodes := [(0, y)] }

/-- The module with that instance, number 9. -/
def running (y : INode) : Device :=
  let d := queued [{ fetched 0x02 1 [] 4 with started := true }]
  { d with work := { d.work with insts := [(9, inst y)] } }.wr Reg.HOOP_RECIPES_LIVE 0 1

/-- The module with a kernel of two blocks, number 5, admitted and not started, and these cores. -/
def waitingKernel (k : Kernel) (cores : Tab Core) : Device :=
  { queued [] with
    work := { (queued []).work with kernels := [(5, { k with split := 1, gx := 2, since := some {} })] }
    cores := cores }

/-- A core that runs kernel 5 with one block whose threads have exited. -/
def exited (b : Block) : Core := { kernel := some 5, blocks := [(0, { b with exited := [(0, 2 ^ 32 - 1)] })] }

/-- A manager (`role` 2) or worker (1) that runs; port 0 is UP. -/
def boardRole (role : Nat) : Device := (ready.wr Reg.KLZ_ID_ROLE 0 role).wr Reg.KLZ_PORT_STATUS_STATE 0 4

/-- The module that hosts reach, with a management ring of the PF that holds one command. -/
def managed : Device :=
  let d := queued []
  ((({ d with pcie := { d.pcie with up := true, crs := false, busMaster := 1 } } : Device).wr Reg.MGMT_RING_ENABLE 0 1).wr Reg.MGMT_RING_SIZE_LOG2 0 4).wr
    Reg.MGMT_TAIL_TAIL 0 1

/-- The header of a command on the PF's ring that names a hoop. -/
def hdr (hoop : Nat) (cap : Nat := 0) : MHdr := { ring := 0, hoop := hoop, tag := 3, replyCap := cap }

/-! States that meet the hypotheses of the statements -/

set_option maxRecDepth 100000 in
theorem witness_IntegerArithmetic :
    ((runs busy 0x08 (alu 10) (intSpec (alu 10) [10, 11]) : Bool) &&
     (runs busy 0x09 (alu 10) (intSpec (alu 10) [10, 11]) : Bool) &&
     (runs busy 0x0A (alu 10) (intSpec (alu 10) [10]) : Bool) &&
     (runs busy 0x0B (alu 10) (intSpec (alu 10) [10]) : Bool) &&
     (runs busy 0x0C (alu 10) (intSpec (alu 10) [10] true) : Bool)) = true := by decide +kernel

set_option maxRecDepth 100000 in
theorem witness_BitwiseAndShift :
    ((runs busy 0x20 (alu 10) (intSpec (alu 10) [10]) : Bool) &&
     (runs busy 0x21 (alu 10) (intSpec (alu 10) [10]) : Bool) &&
     (runs busy 0x22 (alu 10) (intSpec (alu 10) [10]) : Bool) &&
     (runs busy 0x23 (alu 10) (intSpec (alu 10) [10]) : Bool) &&
     (runs busy 0x24 (alu 10) (intSpec (alu 10) [10]) : Bool) &&
     (runs busy 0x25 (alu 10) (intSpec (alu 10) [10]) : Bool) &&
     (runs busy 0x26 ({ alu 10 with b := 0 } : IWord) (unSpec ({ alu 10 with b := 0 } : IWord) [10] 0x10F) : Bool) &&
     (runs busy 0x27 ({ alu 10 with b := 0 } : IWord) (unSpec ({ alu 10 with b := 0 } : IWord) [10] 0x10F) : Bool) &&
     (runs busy 0x28 ({ alu 10 with b := 0 } : IWord) (unSpec ({ alu 10 with b := 0 } : IWord) [10] 0x10F) : Bool)) = true := by decide +kernel

set_option maxRecDepth 100000 in
theorem witness_SelectAndMove :
    ((runs busy 0x29 (alu 10) (intSpec (alu 10) [10]) : Bool) &&
     (runs busy 0x2A (alu 10) (intSpec (alu 10) [10]) : Bool) &&
     (runs busy 0x04 (alu 0) (aluSpec (alu 0) [0, 12] 0xF0F) : Bool) &&
     (runs busy 0x05 (alu 0) (aluSpec (alu 0) [0, 12] 0xF0F) : Bool) &&
     (runs busy 0x2B (alu 10) (aluSpec (alu 10) [10, 11] 0x10F .p) : Bool) &&
     (runs busy 0x2C ({ alu 10 with b := 0 } : IWord) ({ unSpec ({ alu 10 with b := 0 } : IWord) [10, 11] 0x10F with imm := .a }) : Bool) &&
     (runs busy 0x38 (alu 10) (aluSpec (alu 10) [10] 0x60F) : Bool) &&
     (runs busy 0x3A ({ d := 2, mod := 0 } : IWord) ({ d := .v 1, ok := bits (({ d := 2, mod := 0 } : IWord)).mod.toNat 4 0 < 20 && modIn ({ d := 2, mod := 0 } : IWord) 0x1F }) : Bool)) = true := by decide +kernel

set_option maxRecDepth 100000 in
theorem witness_FloatArithmetic :
    ((runs busy 0 (alu 0) (fpSpec (alu 0) false) : Bool) &&
     (runs busy 1 (alu 0) (fpSpec (alu 0) false) : Bool) &&
     (runs busy 2 (alu 0) (fpSpec (alu 0) false) : Bool) &&
     (runs busy 3 (alu 0) (fpSpec (alu 0) true) : Bool)) = true := by decide +kernel

set_option maxRecDepth 100000 in
theorem witness_SpecialFunctions :
    (((List.range 8).all (fun k => runs busy (0x50 + k) { d := 2 } { d := .v 1, a := .vu 1, ok := modIn { d := 2 } 0x500 }) : Bool)) = true := by decide +kernel

set_option maxRecDepth 100000 in
theorem witness_Converts :
    ((runs busy 0x30 ({ d := 2, mod := 0xA00 } : IWord) ({ d := .v (typeRegs (typeOf ({ d := 2, mod := 0xA00 } : IWord))), a := .vu (typeRegs (bits (({ d := 2, mod := 0xA00 } : IWord)).mod.toNat 11 8)), c := .num, rd := true, ok := convertible (bits (({ d := 2, mod := 0xA00 } : IWord)).mod.toNat 11 8) (typeOf ({ d := 2, mod := 0xA00 } : IWord)) && rndOf ({ d := 2, mod := 0xA00 } : IWord) ≤ 4 && (({ d := 2, mod := 0xA00 } : IWord)).c.toNat < 64 && (({ d := 2, mod := 0xA00 } : IWord)).c.toNat % 8 < positions (bits (({ d := 2, mod := 0xA00 } : IWord)).mod.toNat 11 8) && (({ d := 2, mod := 0xA00 } : IWord)).c.toNat / 8 < positions (typeOf ({ d := 2, mod := 0xA00 } : IWord)) }) : Bool) &&
     (runs busy 0x31 ({ d := 2, b := 1, mod := 3 } : IWord) ({ d := .v 1, a := .vu 1, b := .vu 1, c := .num, imm := .b, rd := true, ok := 3 ≤ typeOf ({ d := 2, b := 1, mod := 3 } : IWord) && typeOf ({ d := 2, b := 1, mod := 3 } : IWord) ≤ 7 && modIn ({ d := 2, b := 1, mod := 3 } : IWord) 0x0FF && rndOf ({ d := 2, b := 1, mod := 3 } : IWord) ≤ 4 && (({ d := 2, b := 1, mod := 3 } : IWord)).c.toNat < 64 && (({ d := 2, b := 1, mod := 3 } : IWord)).c.toNat % 8 == 0 && (({ d := 2, b := 1, mod := 3 } : IWord)).c.toNat / 8 < positions (typeOf ({ d := 2, b := 1, mod := 3 } : IWord)) }) : Bool)) = true := by decide +kernel

set_option maxRecDepth 100000 in
theorem witness_Predicates :
    ((runs busy 0x2D ({ alu 10 with d := 1 } : IWord) ({ d := .p, a := .vu 1, b := .vu 1, c := .p, imm := .b, ok := [0, 10, 11, 12].contains (typeOf ({ alu 10 with d := 1 } : IWord)) && (if typeOf ({ alu 10 with d := 1 } : IWord) == 10 || typeOf ({ alu 10 with d := 1 } : IWord) == 11 then modIn ({ alu 10 with d := 1 } : IWord) 0xF0F && bits (({ alu 10 with d := 1 } : IWord)).mod.toNat 11 9 < 6 else modIn ({ alu 10 with d := 1 } : IWord) 0x70F) }) : Bool) &&
     (runs busy 0x39 ({ d := 2, mod := 2 } : IWord) ({ d := .v 1, a := .p, ok := bits (({ d := 2, mod := 2 } : IWord)).mod.toNat 1 0 < 3 && modIn ({ d := 2, mod := 2 } : IWord) 3 }) : Bool) &&
     (runs busy 0x39 ({ d := 2, mod := 1 } : IWord) ({ d := .p, a := .p, ok := bits (({ d := 2, mod := 1 } : IWord)).mod.toNat 1 0 < 3 && modIn ({ d := 2, mod := 1 } : IWord) 3 }) : Bool) &&
     (runs memBusy 0x8E ({ d := 1, a := 6, b := 7, ak := 1, bk := 1, mod := 10 } : IWord) ({ uniSpec ({ d := 1, a := 6, b := 7, ak := 1, bk := 1, mod := 10 } : IWord) [10, 11] 0xE0F (decide (bits (({ d := 1, a := 6, b := 7, ak := 1, bk := 1, mod := 10 } : IWord)).mod.toNat 11 9 < 6)) with d := .p, imm := .no }) : Bool) &&
     (runs busy 0x90 ({ d := 1, a := 0, b := 2 } : IWord) ({ d := .p, a := .p, b := .p, ok := modIn ({ d := 1, a := 0, b := 2 } : IWord) 0x300 }) : Bool)) = true := by decide +kernel

set_option maxRecDepth 100000 in
theorem witness_UniformArithmetic :
    ((runs memBusy 0x88 ({ d := 8, a := 6, ak := 1, mod := 10 } : IWord) ({ uniSpec ({ d := 8, a := 6, ak := 1, mod := 10 } : IWord) [10, 11] 0x00F with b := .none, imm := .a }) : Bool) &&
     (runs memBusy 0x89 ({ d := 8, a := 6, b := 7, ak := 1, bk := 1, mod := 10 } : IWord) (uniSpec ({ d := 8, a := 6, b := 7, ak := 1, bk := 1, mod := 10 } : IWord) [10, 11] 0x00F) : Bool) &&
     (runs memBusy 0x8A ({ d := 8, a := 6, b := 7, ak := 1, bk := 1, mod := 10 } : IWord) (uniSpec ({ d := 8, a := 6, b := 7, ak := 1, bk := 1, mod := 10 } : IWord) [10, 11] 0x00F) : Bool) &&
     (runs memBusy 0x8B ({ d := 8, a := 6, b := 7, ak := 1, bk := 1, mod := 10 } : IWord) (uniSpec ({ d := 8, a := 6, b := 7, ak := 1, bk := 1, mod := 10 } : IWord) [10] 0x00F) : Bool) &&
     (runs memBusy 0x8C ({ d := 8, a := 6, b := 7, ak := 1, bk := 1, mod := 10 } : IWord) (uniSpec ({ d := 8, a := 6, b := 7, ak := 1, bk := 1, mod := 10 } : IWord) [10] 0x30F) : Bool) &&
     (runs memBusy 0x8D ({ d := 8, a := 6, b := 7, ak := 1, bk := 1, mod := 10 } : IWord) (uniSpec ({ d := 8, a := 6, b := 7, ak := 1, bk := 1, mod := 10 } : IWord) [10] 0x30F (bits (({ d := 8, a := 6, b := 7, ak := 1, bk := 1, mod := 10 } : IWord)).mod.toNat 9 8 < 3)) : Bool) &&
     (runs memBusy 0x8F ({ d := 8, a := 1, b := 1, mod := 10 } : IWord) ({ d := .u 1, a := .v 1, b := .num, ok := typeOf ({ d := 8, a := 1, b := 1, mod := 10 } : IWord) == 10 && modIn ({ d := 8, a := 1, b := 1, mod := 10 } : IWord) 0x00F, pt := true }) : Bool)) = true := by decide +kernel

set_option maxRecDepth 100000 in
theorem witness_Loads :
    ((runs ({ memBusy with cores := memBusy.cores.map (fun c => (c.1, { c.2 with loc := (List.range 64).map (fun n => (n, BitVec.ofNat 8 (n + 1))) })) }) 0x60 (ldw 6 2) ((ixLdl (ldw 6 2)).1) (fun i d => (i.targets 1 4 false).all (fun x => x.2 % 4 == 0 && d.localIn 0 x.2 4 && !d.localBad 0 i.place x.2 4)) : Bool) &&
     (runs memBusy 0x62 (ldw 4 2) ((ixLd (ldw 4 2)).1) (fun i d => match i.reach d 0 4 [3] false with | some (d1, l) => (let got := i.readLanes d1 4 0 l; let ask := i.askHost got.1 l (fun d q _ => d.openRead q 4); (i.noHost d1 l).isEmpty && got.2.2.isEmpty && got.1.block? 0 i.place == some i.b && (ask.2.isEmpty)) | none => false) : Bool) &&
     (runs ({ memBusy with pcie := { memBusy.pcie with up := true, crs := false, busMaster := 1 } }) 0x62 (ldw 10 2) ((ixLd (ldw 10 2)).1) (fun i d => match i.reach d 0 4 [3] false with | some (d1, l) => (let got := i.readLanes d1 4 0 l; let ask := i.askHost got.1 l (fun d q _ => d.openRead q 4); (i.noHost d1 l).isEmpty && got.2.2.isEmpty && got.1.block? 0 i.place == some i.b && (!ask.2.isEmpty)) | none => false) : Bool) &&
     (runs memBusy 0x64 ({ d := 8, a := 4, ak := 1, ck := 2, mod := 2 } : IWord) ((ixLdu ({ d := 8, a := 4, ak := 1, ck := 2, mod := 2 } : IWord)).1) (fun i d => i.lanes.head? == some 0 && i.address 2 0 4 false % 4 == 0 && match i.reached 0 4 (i.translate d 4 [3] [(0, i.address 2 0 4 false)]) with | some (d1, l) => (let got := i.readLanes d1 4 0 l; let ask := i.askHost got.1 l (fun d q _ => d.openRead q 4); (i.noHost d1 l).isEmpty && got.2.2.isEmpty && got.1.block? 0 i.place == some i.b && ask.2.isEmpty) | none => false) : Bool) &&
     (runs ({ memBusy with pcie := { memBusy.pcie with up := true, crs := false, busMaster := 1 } }) 0x64 ({ d := 8, a := 10, ak := 1, ck := 2, mod := 2 } : IWord) ((ixLdu ({ d := 8, a := 10, ak := 1, ck := 2, mod := 2 } : IWord)).1) (fun i d => i.lanes.head? == some 0 && i.address 2 0 4 false % 4 == 0 && match i.reached 0 4 (i.translate d 4 [3] [(0, i.address 2 0 4 false)]) with | some (d1, l) => (let got := i.readLanes d1 4 0 l; let ask := i.askHost got.1 l (fun d q _ => d.openRead q 4); (i.noHost d1 l).isEmpty && got.2.2.isEmpty && got.1.block? 0 i.place == some i.b && !ask.2.isEmpty) | none => false) : Bool) &&
     (runs kv 0x68 ({ d := 2, a := 20, c := 0, mod := 2, imm := true, immw := 4 } : IWord) ((ixSld ({ d := 2, a := 20, c := 0, mod := 2, imm := true, immw := 4 } : IWord)).1) (fun i d => (i.tokenAlign 4).isEmpty && match i.reached 0 4 (i.resolveTokens d 4 false i.tokens) with | some (d1, l) => (let got := i.readLanes d1 4 0 l; let ask := i.askHost got.1 l (fun d q _ => d.openRead q 4); (i.noHost d1 l).isEmpty && got.2.2.isEmpty && got.1.block? 0 i.place == some i.b && ask.2.isEmpty) | none => false) : Bool) &&
     (runs memBusy 0x65 ({ a := 4, ck := 2, mod := 2 } : IWord) ((ixPrf ({ a := 4, ck := 2, mod := 2 } : IWord)).1) (fun i d => (misaligned (i.targets 2 4 false) 4).isEmpty && (i.translate d 4 [3] (i.targets 2 4 false)).2.2.all (fun x => x.2.code != 0) && ((i.translate d 4 [3] (i.targets 2 4 false)).1.hstat i.hoop).watches.isEmpty) : Bool)) = true := by decide +kernel

set_option maxRecDepth 100000 in
theorem witness_Stores :
    ((runs memBusy 0x61 (stw 6 2) ((ixStl (stw 6 2)).1) (fun i d => (i.released d).isSome && (i.targets 1 4 false).all (fun x => x.2 % 4 == 0 && d.localIn 0 x.2 4)) : Bool) &&
     (runs memBusy 0x63 (stw 4 2) ((ixSt (stw 4 2)).1) (fun i d => !i.k.early && match i.reach d 1 4 [4] false with | some (d1, l) => (match i.released d1 with | some d2 => (match i.store d2 4 l with | .go d3 => !d3.life.fatal && resting d2 && l.any (fun x => x.dev.any isHbm) | _ => false) | none => false) | none => false) : Bool) &&
     (runs ({ memBusy with pcie := { memBusy.pcie with up := true, crs := false, busMaster := 1 } }) 0x63 (stw 10 2) ((ixSt (stw 10 2)).1) (fun i d => !i.k.early && match i.reach d 1 4 [4] false with | some (d1, l) => (match i.released d1 with | some d2 => (match i.store d2 4 l with | .go d3 => true | _ => false) | none => false) | none => false) : Bool) &&
     (runs kv 0x69 ({ a := 20, b := 1, c := 0, mod := 2, imm := true, immw := 4 } : IWord) ((ixSst ({ a := 20, b := 1, c := 0, mod := 2, imm := true, immw := 4 } : IWord)).1) (fun i d => !i.k.early && (i.tokenAlign 4).isEmpty && i.tokens.all (fun x => !d.sessIn i.hoop x.2.1 || (!d.settling x.2.1 && !d.tokenMoves x.2.1 x.2.2.1.toNat)) && match i.reached 1 4 (i.resolveTokens d 4 true i.tokens) with | some (d1, l) => (match i.released d1 with | some d2 => true | none => false) | none => false) : Bool) &&
     (runs (earlyOf memBusy) 0x63 (stw 4 2) ((ixSt (stw 4 2)).1) (fun i d => i.k.early) : Bool) &&
     (runs (earlyOf kv) 0x69 ({ a := 20, b := 1, c := 0, mod := 2, imm := true, immw := 4 } : IWord) ((ixSst ({ a := 20, b := 1, c := 0, mod := 2, imm := true, immw := 4 } : IWord)).1) (fun i d => i.k.early) : Bool)) = true := by decide +kernel

set_option maxRecDepth 100000 in
theorem witness_Atomics :
    ((runs one 0x70 ({ d := 2, a := 4, b := 1, ck := 2 } : IWord) ((ixAtom ({ d := 2, a := 4, b := 1, ck := 2 } : IWord)).1) (fun i d => !i.k.early && match i.reach d 2 4 [5] false with | some (d1, l) => (match i.released d1 with | some d2 => l.all (fun x => x.dev.all (fun a => !d2.badAt a 4)) && d2.block? 0 0 == some i.b && l.all (fun x => x.host.isNone) && l.length == 1 && resting d2 && l.all (fun x => x.dev.all (fun a => isHbm a && !d2.badAt (a / 128 * 128) 128)) | none => false) | none => false) : Bool) &&
     (runs memBusy 0x70 ({ d := 2, a := 4, b := 1, ck := 2 } : IWord) ((ixAtom ({ d := 2, a := 4, b := 1, ck := 2 } : IWord)).1) (fun i d => !i.k.early && match i.reach d 2 4 [5] false with | some (d1, l) => (match i.released d1 with | some d2 => l.all (fun x => x.dev.all (fun a => !d2.badAt a 4)) && d2.block? 0 0 == some i.b && l.all (fun x => x.host.isNone) && l.length == 2 | none => false) | none => false) : Bool) &&
     (runs ({ one with pcie := { one.pcie with up := true, crs := false, busMaster := 1 } }) 0x70 ({ d := 2, a := 10, b := 1, ck := 2 } : IWord) ((ixAtom ({ d := 2, a := 10, b := 1, ck := 2 } : IWord)).1) (fun i d => !i.k.early && match i.reach d 2 4 [5] false with | some (d1, l) => (match i.released d1 with | some d2 => l.all (fun x => x.dev.all (fun a => !d2.badAt a 4)) && d2.block? 0 0 == some i.b && l.any (fun x => x.host.isSome) && (i.noHost d2 l).isEmpty && i.aop == 0 | none => false) | none => false) : Bool) &&
     (runs ({ one with cores := one.cores.map (fun c => (c.1, { c.2 with loc := (List.range 64).map (fun n => (n, BitVec.ofNat 8 (n + 1))) })) }) 0x71 ({ d := 2, a := 6, b := 1, ck := 2 } : IWord) ((ixAtoml ({ d := 2, a := 6, b := 1, ck := 2 } : IWord)).1) (fun i d => !i.k.early && i.lanes == [0] && (i.targets 1 4 false).all (fun x => x.2 % 4 == 0 && d.localIn 0 x.2 4 && !d.localBad 0 i.place x.2 4) && match i.released (i.localRead_ d 4 (i.targets 1 4 false)) with | some d2 => d2.block? 0 0 == some i.b | none => false) : Bool) &&
     (runs (earlyOf one) 0x70 ({ d := 2, a := 4, b := 1, ck := 2 } : IWord) ((ixAtom ({ d := 2, a := 4, b := 1, ck := 2 } : IWord)).1) (fun i d => i.k.early) : Bool) &&
     (runs (earlyOf one) 0x71 ({ d := 2, a := 6, b := 1, ck := 2 } : IWord) ((ixAtoml ({ d := 2, a := 6, b := 1, ck := 2 } : IWord)).1) (fun i d => i.k.early) : Bool)) = true := by decide +kernel

set_option maxRecDepth 100000 in
theorem witness_RemoteAccesses :
    ((runs far 0x66 (ldw 10 2) ((ixGld (ldw 10 2)).1) (fun i d => (match some d with | some d0 => (match i.far d0 4 false false with | some (d1, l) => !l.isEmpty && d1.block? 0 i.place == some i.b && l.all (fun x => gpChip x.2 == d1.ownChip || (d1.routePort (gpChip x.2) 0).isSome) && (lineSpans l 4).flatMap (fun z => z.2.2) == l | none => false) | none => false)) : Bool) &&
     (runs far 0x67 (stw 10 2) ((ixGst (stw 10 2)).1) (fun i d => !i.k.early && (match i.released d with | some d0 => (match i.far d0 4 false true with | some (d1, l) => !l.isEmpty && l.all (fun x => gpChip x.2 == d1.ownChip || (d1.routePort (gpChip x.2) 0).isSome) | none => false) | none => false)) : Bool) &&
     (runs far 0x72 ({ d := 2, a := 10, b := 1, ck := 2 } : IWord) ((ixGatom ({ d := 2, a := 10, b := 1, ck := 2 } : IWord)).1) (fun i d => !i.k.early && (match i.released d with | some d0 => (match i.far d0 4 false true with | some (d1, l) => !l.isEmpty && d1.block? 0 i.place == some i.b && l.all (fun x => gpChip x.2 == d1.ownChip || (d1.routePort (gpChip x.2) 0).isSome) | none => false) | none => false)) : Bool) &&
     (runs (earlyOf far) 0x67 (stw 10 2) ((ixGst (stw 10 2)).1) (fun i d => i.k.early) : Bool) &&
     (runs (earlyOf far) 0x72 ({ d := 2, a := 10, b := 1, ck := 2 } : IWord) ((ixGatom ({ d := 2, a := 10, b := 1, ck := 2 } : IWord)).1) (fun i d => i.k.early) : Bool) &&
     (runs far 0x66 ({ ldw 10 2 with pg := 1 } : IWord) ((ixGld ({ ldw 10 2 with pg := 1 } : IWord)).1) (fun i d => (match some d with | some d0 => (match i.far d0 4 false false with | some (d1, l) => l.isEmpty | none => false) | none => false)) : Bool)) = true := by decide +kernel

set_option maxRecDepth 100000 in
theorem witness_FencesAndDoorbells :
    ((runs memBusy 0x78 ({ mod := 0x0D0 } : IWord) ((ixFence ({ mod := 0x0D0 } : IWord)).1) (fun i d => i.guard != 0 && !i.k.early && !i.open_ d && (i.released d).isSome && i.order == 1 && 3 ≤ i.scope) : Bool) &&
     (runs fenced 0x79 ({ a := 6, ak := 1, b := 4, bk := 1 } : IWord) ((ixFsignal ({ a := 6, ak := 1, b := 4, bk := 1 } : IWord)).1) (fun i d => fenced.rd Reg.HOOP_CFG_DEP_MODEL 0 != 1 && i.guard != 0 && !i.k.early && !i.open_ d && !(i.bReg 2 0).testBit 63 && i.a 1 0 < d.rd Reg.HOOP_FENCES_FENCES 0 && (let x := d.xlate i.core i.hoop i.k.map (d.fenceVa i.hoop (i.a 1 0)) 8 [3, 4] false; match x.2, x.1.word 0 (x.1.fenceVa 0 (i.a 1 0)) with | .ok (.dev a), .ok v => !x.1.badAt a 8 && !v.testBit 63 | _, _ => false)) : Bool) &&
     (runs ({ fenced with cores := (busyWith { ptrs with u := [(6, 3), (7, 1)] } 3).cores }) 0xD4 ({ a := 6, ak := 1, b := 7, bk := 1 } : IWord) ((ixDoorbell ({ a := 6, ak := 1, b := 7, bk := 1 } : IWord)).1) (fun i d => !i.k.early && !i.open_ d && i.a 1 0 < 4096 && (d.queue (i.a 1 0)).state != 0 && (d.queue (i.a 1 0)).hoop == i.hoop) : Bool)) = true := by decide +kernel

set_option maxRecDepth 100000 in
theorem witness_Branches :
    ((runs jumpBusy 0x80 ({ pg := 2, imm := true, immw := 0x0000004000000020 } : IWord) ((ixBra ({ pg := 2, imm := true, immw := 0x0000004000000020 } : IWord)).1) (fun i d => i.guard == 0) : Bool) &&
     (runs jumpBusy 0x80 ({ imm := true, immw := 0x0000004000000020 } : IWord) ((ixBra ({ imm := true, immw := 0x0000004000000020 } : IWord)).1) (fun i d => i.guard != 0 && i.offset 0x20 % 8 == 0 && i.point % 8 == 0 && i.stay.isEmpty && (byTarget (i.lanes.map (fun l => (l, i.offset 0x20)) ++ i.stay)).length == 1) : Bool) &&
     (runs jumpBusy 0x80 ({ pg := 1, imm := true, immw := 0x0000004000000020 } : IWord) ((ixBra ({ pg := 1, imm := true, immw := 0x0000004000000020 } : IWord)).1) (fun i d => i.guard != 0 && i.offset 0x20 % 8 == 0 && i.point % 8 == 0 && (byTarget (i.lanes.map (fun l => (l, i.offset 0x20)) ++ i.stay)).length == 2) : Bool) &&
     (runs jumpBusy 0x81 ({ pg := 2, a := 14, imm := true } : IWord) ((ixBrx ({ pg := 2, a := 14, imm := true } : IWord)).1) (fun i d => i.guard == 0) : Bool) &&
     (runs jumpBusy 0x81 ({ a := 14, imm := true } : IWord) ((ixBrx ({ a := 14, imm := true } : IWord)).1) (fun i d => i.guard != 0 && i.point % 8 == 0 && i.lanes.all (fun l => i.a 2 l % 8 == 0) && i.stay.isEmpty && i.lanes.all (fun l => i.a 2 l == 0x200)) : Bool) &&
     (runs jumpBusy 0x81 ({ a := 14, imm := true, immw := 0x0000004000000000 } : IWord) ((ixBrx ({ a := 14, imm := true, immw := 0x0000004000000000 } : IWord)).1) (fun i d => i.guard != 0 && i.point % 8 == 0 && i.lanes.all (fun l => i.a 2 l % 8 == 0) && byTarget (i.lanes.map (fun l => (l, i.a 2 l)) ++ i.stay) == [(0x200, 3)]) : Bool) &&
     (runs jumpBusy 0x81 ({ a := 12, imm := true, immw := 0x0000004000000000 } : IWord) ((ixBrx ({ a := 12, imm := true, immw := 0x0000004000000000 } : IWord)).1) (fun i d => i.guard != 0 && i.point % 8 == 0 && i.lanes.all (fun l => i.a 2 l % 8 == 0) && (byTarget (i.lanes.map (fun l => (l, i.a 2 l)) ++ i.stay)).length == 2) : Bool) &&
     (runs jumpBusy 0x82 ({ d := 2, imm := true, immw := 0x20 } : IWord) ((ixCall ({ d := 2, imm := true, immw := 0x20 } : IWord)).1) (fun i d => i.offset 0x20 % 8 == 0) : Bool) &&
     (runs jumpBusy 0x83 ({  } : IWord) ({ ok := modIn ({  } : IWord) 0 }) (fun i d => i.x.ctx.head?.isNone) : Bool) &&
     (runs ({ jumpBusy with cores := jumpBusy.cores.map (fun (c : Nat × Core) => (c.1, { c.2 with ents := [(0, { place := 0, group := 0, mask := 1, pc := pc0, ctx := [⟨pc0, 4⟩] })], blocks := [(0, { jumps with splits := [(4, { group := 0, home := 0, point := pc0, lanes := 3, ctx := [] })] })] })) }) 0x83 ({  } : IWord) ({ ok := modIn ({  } : IWord) 0 }) (fun i d => i.x.ctx == [⟨i.x.pc, 4⟩] && i.x.stack.isEmpty && d.block? 0 0 == some i.b && d.ent? 0 0 == some i.x && (Tab.find? i.b.splits 4).isSome) : Bool) &&
     (runs jumpBusy 0x86 ({  } : IWord) ({ ok := modIn ({  } : IWord) 0 }) (fun i d => true) : Bool)) = true := by decide +kernel

set_option maxRecDepth 100000 in
theorem witness_Barriers :
    ((runs jumpBusy 0x7A ({ pg := 2, a := 1 } : IWord) ((ixBar ({ pg := 2, a := 1 } : IWord)).1) (fun i d => d.block? 0 0 == some i.b && i.guard == 0) : Bool) &&
     (runs jumpBusy 0x7B ({ pg := 2, a := 1 } : IWord) ((ixArrive ({ pg := 2, a := 1 } : IWord)).1) (fun i d => d.block? 0 0 == some i.b && i.guard == 0) : Bool) &&
     (runs jumpBusy 0x84 ({ pg := 2 } : IWord) ((ixExit ({ pg := 2 } : IWord)).1) (fun i d => d.block? 0 0 == some i.b && i.guard == 0) : Bool) &&
     (runs busy 0x7A ({ a := 1 } : IWord) ((ixBar ({ a := 1 } : IWord)).1) (fun i d => d.block? 0 0 == some i.b && i.guard != 0 && !i.open_ d && Tab.get 0 i.b.arrived (32 + i.x.group) &&& i.guard == 0 && without i.x.mask i.guard == 0) : Bool) &&
     (runs jumpBusy 0x7A ({ pg := 1, a := 1 } : IWord) ((ixBar ({ pg := 1, a := 1 } : IWord)).1) (fun i d => d.block? 0 0 == some i.b && i.guard != 0 && !i.open_ d && Tab.get 0 i.b.arrived (32 + i.x.group) &&& i.guard == 0 && without i.x.mask i.guard == 2 && (match d.freeEntry 0 i.b 0 with | some f => f != 0 | none => false)) : Bool) &&
     (runs busy 0x7B ({ a := 1 } : IWord) ((ixArrive ({ a := 1 } : IWord)).1) (fun i d => d.block? 0 0 == some i.b && i.guard != 0 && !i.open_ d && Tab.get 0 i.b.arrived (32 + i.x.group) &&& i.guard == 0) : Bool) &&
     (runs jumpBusy 0x84 ({ pg := 1 } : IWord) ((ixExit ({ pg := 1 } : IWord)).1) (fun i d => d.block? 0 0 == some i.b && i.guard != 0 && !i.b.region) : Bool)) = true := by decide +kernel

set_option maxRecDepth 100000 in
theorem witness_BarrierState :
    ((runs busy 0x7A ({ a := 16 } : IWord) ((ixBar ({ a := 16 } : IWord)).1) (fun i d => i.guard != 0 && i.alone d && true) : Bool) &&
     (runs (busyWith { blk with arrived := [(32, 1)] } 3) 0x7A ({ a := 1 } : IWord) ((ixBar ({ a := 1 } : IWord)).1) (fun i d => i.guard != 0 && i.alone d && Tab.get 0 i.b.arrived (32 + i.x.group) &&& i.guard != 0) : Bool) &&
     (runs busy 0x7B ({ a := 16 } : IWord) ((ixArrive ({ a := 16 } : IWord)).1) (fun i d => i.guard != 0 && i.alone d && true) : Bool) &&
     (runs (busyWith { blk with arrived := [(32, 1)] } 3) 0x7B ({ a := 1 } : IWord) ((ixArrive ({ a := 1 } : IWord)).1) (fun i d => i.guard != 0 && i.alone d && Tab.get 0 i.b.arrived (32 + i.x.group) &&& i.guard != 0) : Bool)) = true := by decide +kernel

set_option maxRecDepth 100000 in
theorem witness_Traps :
    ((runs jumpBusy 0x85 ({ pg := 2, a := 9 } : IWord) ((ixTrap ({ pg := 2, a := 9 } : IWord)).1) (fun i d => i.guard == 0) : Bool) &&
     (runs busy 0x85 ({ a := 9 } : IWord) ((ixTrap ({ a := 9 } : IWord)).1) (fun i d => i.guard != 0 && i.alone d) : Bool) &&
     (runs jumpBusy 0x81 ({ a := 12, imm := true } : IWord) ((ixBrx ({ a := 12, imm := true } : IWord)).1) (fun i d => i.guard != 0 && i.point % 8 == 0 && i.lanes.all (fun l => i.a 2 l % 8 == 0) && i.alone d && i.stay.isEmpty && i.a 2 0 != i.a 2 1) : Bool) &&
     (runs jumpBusy 0x81 ({ pg := 1, a := 14, imm := true } : IWord) ((ixBrx ({ pg := 1, a := 14, imm := true } : IWord)).1) (fun i d => i.guard != 0 && i.point % 8 == 0 && i.lanes.all (fun l => i.a 2 l % 8 == 0) && i.alone d && !i.stay.isEmpty) : Bool) &&
     (let d0 := (holding busy 0x0D {}); d0.live && !listed 0x0D &&
       (match d0.context 0 0 0x0D {} with | some i => i.x.code.isEmpty && (match d0.fetchCode 0 0 i.x i.k with | (d, .got y) => y.1 == 0x0D && i.alone d && true | _ => false) | none => false)) &&
     (let w := ({ d := 2, imm := true, immw := 7, pg := 3, pn := true, ck := 1 } : IWord); w.imm &&
       readWord (wordBits 0x0D w) w.immw.toNat == (0x0D, w))) = true := by decide +kernel

set_option maxRecDepth 100000 in
theorem witness_MatrixInstructions :
    ((runs (busyWith blk (2 ^ 32 - 1)) 0xC0 ({  } : IWord) ({ pt := true, ok := modIn ({  } : IWord) 0 }) (fun i d => i.x.mask == 2 ^ 32 - 1 && !i.b.region && (match i.arriveAndPark d 16 with | .jump _ => true | _ => false)) : Bool) &&
     (runs pressed 0xC6 ({  } : IWord) ({ pt := true, ok := modIn ({  } : IWord) 0 }) (fun i d => i.x.mask == 2 ^ 32 - 1 && i.b.region && (match i.arriveAndPark d 17 with | .jump _ => true | _ => false)) : Bool) &&
     (runs pressed 0xC1 ({ a := 4, ak := 1, bk := 2, mod := 1 } : IWord) ({ a := .u 1, b := .u 1, pt := true, ok := tileOk ({ a := 4, ak := 1, bk := 2, mod := 1 } : IWord) && modIn ({ a := 4, ak := 1, bk := 2, mod := 1 } : IWord) 0x30F && (bits (({ a := 4, ak := 1, bk := 2, mod := 1 } : IWord)).mod.toNat 9 8 == 0) == isUz (({ a := 4, ak := 1, bk := 2, mod := 1 } : IWord)).bk }) (fun i d => i.x.mask == 2 ^ 32 - 1 && i.b.region && ((d.press 0).ops.filter (fun x => !x.started)).length < 8 && (i.pressRanges d ([(i.a 1 0, 128 * pressRb 1, 128)] ++ [])).isNone) : Bool) &&
     (runs ({ pressed with cores := pressed.cores.map (fun (c : Nat × Core) => (c.1, { c.2 with press := { c.2.press with tileType := some (3, 1) } })) }) 0xC1 ({ a := 4, ak := 1, b := 6, bk := 1, mod := 0x103 } : IWord) ({ a := .u 1, b := .u 1, pt := true, ok := tileOk ({ a := 4, ak := 1, b := 6, bk := 1, mod := 0x103 } : IWord) && modIn ({ a := 4, ak := 1, b := 6, bk := 1, mod := 0x103 } : IWord) 0x30F && (bits (({ a := 4, ak := 1, b := 6, bk := 1, mod := 0x103 } : IWord)).mod.toNat 9 8 == 0) == isUz (({ a := 4, ak := 1, b := 6, bk := 1, mod := 0x103 } : IWord)).bk }) (fun i d => i.x.mask == 2 ^ 32 - 1 && i.b.region && ((d.press 0).ops.filter (fun x => !x.started)).length < 8 && (i.pressRanges d ([(i.a 1 0, 128 * pressRb 3, 128)] ++ [(i.bReg 1 0, 128 * pressSb 3 1, 8)])).isNone) : Bool) &&
     (runs pressed 0xC2 ({ a := 6, ak := 1, b := 5, bk := 1, ck := 2, mod := 1 } : IWord) ({ a := .u 1, b := .u 1, c := .u 1, pt := true, ok := tileOk ({ a := 6, ak := 1, b := 5, bk := 1, ck := 2, mod := 1 } : IWord) && modIn ({ a := 6, ak := 1, b := 5, bk := 1, ck := 2, mod := 1 } : IWord) 0x70F && (if (({ a := 6, ak := 1, b := 5, bk := 1, ck := 2, mod := 1 } : IWord)).mod.toNat.testBit 10 then isUz (({ a := 6, ak := 1, b := 5, bk := 1, ck := 2, mod := 1 } : IWord)).ck else (bits (({ a := 6, ak := 1, b := 5, bk := 1, ck := 2, mod := 1 } : IWord)).mod.toNat 9 8 == 0) == isUz (({ a := 6, ak := 1, b := 5, bk := 1, ck := 2, mod := 1 } : IWord)).ck) }) (fun i d => i.x.mask == 2 ^ 32 - 1 && i.b.region && ((d.press 0).ops.filter (fun x => !x.started)).length < 8 && (d.press 0).cur == some 0 && 1 ≤ i.bReg 1 0 && i.bReg 1 0 ≤ 65536 && (d.press 0).tileType == some (1, 0) && (i.pressRanges d ([(i.a 1 0, i.bReg 1 0 * pressRb 1, 128)] ++ [])).isNone) : Bool) &&
     (runs ({ pressed with cores := pressed.cores.map (fun (c : Nat × Core) => (c.1, { c.2 with press := { c.2.press with tileType := some (3, 1) } })) }) 0xC2 ({ a := 6, ak := 1, b := 5, bk := 1, c := 4, ck := 1, mod := 0x103 } : IWord) ({ a := .u 1, b := .u 1, c := .u 1, pt := true, ok := tileOk ({ a := 6, ak := 1, b := 5, bk := 1, c := 4, ck := 1, mod := 0x103 } : IWord) && modIn ({ a := 6, ak := 1, b := 5, bk := 1, c := 4, ck := 1, mod := 0x103 } : IWord) 0x70F && (if (({ a := 6, ak := 1, b := 5, bk := 1, c := 4, ck := 1, mod := 0x103 } : IWord)).mod.toNat.testBit 10 then isUz (({ a := 6, ak := 1, b := 5, bk := 1, c := 4, ck := 1, mod := 0x103 } : IWord)).ck else (bits (({ a := 6, ak := 1, b := 5, bk := 1, c := 4, ck := 1, mod := 0x103 } : IWord)).mod.toNat 9 8 == 0) == isUz (({ a := 6, ak := 1, b := 5, bk := 1, c := 4, ck := 1, mod := 0x103 } : IWord)).ck) }) (fun i d => i.x.mask == 2 ^ 32 - 1 && i.b.region && ((d.press 0).ops.filter (fun x => !x.started)).length < 8 && (d.press 0).cur == some 0 && 1 ≤ i.bReg 1 0 && i.bReg 1 0 ≤ 65536 && (d.press 0).tileType == some (3, 1) && (i.pressRanges d ([(i.a 1 0, i.bReg 1 0 * pressRb 3, 128)] ++ [(i.c 1 0, i.bReg 1 0 * pressSb 3 1, 8)])).isNone) : Bool) &&
     (runs pressed 0xC2 ({ a := 4, ak := 1, b := 5, bk := 1, ck := 2, mod := 0x401 } : IWord) ({ a := .u 1, b := .u 1, c := .u 1, pt := true, ok := tileOk ({ a := 4, ak := 1, b := 5, bk := 1, ck := 2, mod := 0x401 } : IWord) && modIn ({ a := 4, ak := 1, b := 5, bk := 1, ck := 2, mod := 0x401 } : IWord) 0x70F && (if (({ a := 4, ak := 1, b := 5, bk := 1, ck := 2, mod := 0x401 } : IWord)).mod.toNat.testBit 10 then isUz (({ a := 4, ak := 1, b := 5, bk := 1, ck := 2, mod := 0x401 } : IWord)).ck else (bits (({ a := 4, ak := 1, b := 5, bk := 1, ck := 2, mod := 0x401 } : IWord)).mod.toNat 9 8 == 0) == isUz (({ a := 4, ak := 1, b := 5, bk := 1, ck := 2, mod := 0x401 } : IWord)).ck) }) (fun i d => i.x.mask == 2 ^ 32 - 1 && i.b.region && ((d.press 0).ops.filter (fun x => !x.started)).length < 8 && (d.press 0).cur == some 0 && 1 ≤ i.bReg 1 0 && i.bReg 1 0 ≤ 65536 && (d.press 0).tileType == some (1, 0) && i.a 1 0 ≤ 3) : Bool) &&
     (runs pressed 0xC3 ({ d := 1, a := 4, ak := 1, b := 5, bk := 1 } : IWord) ({ d := .h, a := .u 1, b := .u 1, pt := true, ok := modIn ({ d := 1, a := 4, ak := 1, b := 5, bk := 1 } : IWord) 0x100 }) (fun i d => i.x.mask == 2 ^ 32 - 1 && i.b.region && ((d.press 0).ops.filter (fun x => !x.started)).length < 8 && 1 ≤ i.bReg 1 0 && i.a 1 0 + i.bReg 1 0 ≤ 1024) : Bool) &&
     (runs pressed 0xC3 ({ d := 1, a := 4, ak := 1, b := 5, bk := 1, mod := 0x100 } : IWord) ({ d := .h, a := .u 1, b := .u 1, pt := true, ok := modIn ({ d := 1, a := 4, ak := 1, b := 5, bk := 1, mod := 0x100 } : IWord) 0x100 }) (fun i d => i.x.mask == 2 ^ 32 - 1 && i.b.region && ((d.press 0).ops.filter (fun x => !x.started)).length < 8 && 1 ≤ i.bReg 1 0 && i.a 1 0 + i.bReg 1 0 ≤ 1024) : Bool) &&
     (runs pressed 0xC4 ({ a := 0, b := 6, bk := 1, ck := 2 } : IWord) ({ a := .h, b := .u (if (({ a := 0, b := 6, bk := 1, ck := 2 } : IWord)).mod.toNat.testBit 11 then 2 else 1), c := .u 1, pt := true, ok := (typeOf ({ a := 0, b := 6, bk := 1, ck := 2 } : IWord) ≤ 8 || typeOf ({ a := 0, b := 6, bk := 1, ck := 2 } : IWord) == 10) && rndOf ({ a := 0, b := 6, bk := 1, ck := 2 } : IWord) ≤ 4 && modIn ({ a := 0, b := 6, bk := 1, ck := 2 } : IWord) 0x8FF }) (fun i d => i.x.mask == 2 ^ 32 - 1 && i.b.region && ((d.press 0).ops.filter (fun x => !x.started)).length < 8 && Tab.find? (d.press 0).handles 0 == some ⟨0, 8, 0⟩ && (i.pressRanges d ([(i.bReg 1 0, 128 * (8 * elemBits 0 / 8), 128)] ++ [])).isNone) : Bool) &&
     (runs pressed 0xC4 ({ a := 0, b := 6, bk := 1, c := 4, ck := 1 } : IWord) ({ a := .h, b := .u (if (({ a := 0, b := 6, bk := 1, c := 4, ck := 1 } : IWord)).mod.toNat.testBit 11 then 2 else 1), c := .u 1, pt := true, ok := (typeOf ({ a := 0, b := 6, bk := 1, c := 4, ck := 1 } : IWord) ≤ 8 || typeOf ({ a := 0, b := 6, bk := 1, c := 4, ck := 1 } : IWord) == 10) && rndOf ({ a := 0, b := 6, bk := 1, c := 4, ck := 1 } : IWord) ≤ 4 && modIn ({ a := 0, b := 6, bk := 1, c := 4, ck := 1 } : IWord) 0x8FF }) (fun i d => i.x.mask == 2 ^ 32 - 1 && i.b.region && ((d.press 0).ops.filter (fun x => !x.started)).length < 8 && Tab.find? (d.press 0).handles 0 == some ⟨0, 8, 0⟩ && (i.pressRanges d ([(i.bReg 1 0, 128 * (8 * elemBits 0 / 8), 128)] ++ [(i.c 1 0, 64, 8)])).isNone) : Bool) &&
     (runs ({ pressed with cores := pressed.cores.map (fun (c : Nat × Core) => (c.1, { c.2 with blocks := [(0, { blk with region := true, u := [(4, 0x8000), (5, 4096)] })] })) }) 0xC4 ({ a := 0, b := 4, bk := 1, ck := 2, mod := 0x800 } : IWord) ({ a := .h, b := .u (if (({ a := 0, b := 4, bk := 1, ck := 2, mod := 0x800 } : IWord)).mod.toNat.testBit 11 then 2 else 1), c := .u 1, pt := true, ok := (typeOf ({ a := 0, b := 4, bk := 1, ck := 2, mod := 0x800 } : IWord) ≤ 8 || typeOf ({ a := 0, b := 4, bk := 1, ck := 2, mod := 0x800 } : IWord) == 10) && rndOf ({ a := 0, b := 4, bk := 1, ck := 2, mod := 0x800 } : IWord) ≤ 4 && modIn ({ a := 0, b := 4, bk := 1, ck := 2, mod := 0x800 } : IWord) 0x8FF }) (fun i d => i.x.mask == 2 ^ 32 - 1 && i.b.region && Tab.find? (d.press 0).handles 0 == some ⟨0, 8, 0⟩ && !i.k.early && i.bReg 2 0 % 128 == 0 && (i.pressRanges d ([] ++ [])).isNone && (let z := i.drainSeg d (i.bReg 2 0) 4096; let acc : List LaneAcc := [⟨0, i.bReg 2 0, 0, .dev 0⟩]; z.2.isNone && ((z.1.press 0).ops.filter (fun x => !x.started)).length < 8 && (z.1.watchStop i.hoop (i.hits 1 4096 z.1 acc)).isNone)) : Bool) &&
     (runs pressed 0xC5 ({  } : IWord) ({ pt := true, ok := modIn ({  } : IWord) 0x00F }) (fun i d => i.x.mask == 2 ^ 32 - 1 && i.b.region && !(d.press 0).ops.any (fun o => o.named (d.press 0) 0) && ((d.press 0).error 0).isNone) : Bool)) = true := by decide +kernel

set_option maxRecDepth 100000 in
theorem witness_Press :
    ((let d : Device := ({ pressed with cores := pressed.cores.map (fun (c : Nat × Core) => (c.1, { c.2 with press := { c.2.press with owner := none }, blocks := [(0, { blk with ready := some 1, arrived := [(512, 2 ^ 32 - 1)] })] })) });
       d.live &&
       (((d.core 0).press.owner).isNone && minOf (((d.core 0).blocks.filterMap (fun (x : Nat × Block) => x.2.ready.map (fun y => (y, x.1)))).map (·.1)) == some 1 && (d.coreKernel 0).isSome)) &&
     (let d : Device := ({ pressed with cores := pressed.cores.map (fun (c : Nat × Core) => (c.1, { c.2 with press := { c.2.press with ops := [] }, blocks := [(0, { blk with region := true, ending := true })] })) });
       d.live && ((d.core 0).press.owner == some 0 && (d.press 0).ops.isEmpty && ((d.press 0).error 0).isNone)) &&
     (let d : Device := ({ pressed with cores := pressed.cores.map (fun (c : Nat × Core) => (c.1, { c.2 with press := { c.2.press with bad := [⟨3, none, 0⟩] }, blocks := [(0, { blk with region := true, ending := true })], ents := [(0, { place := 0, group := 0, mask := 2 ^ 32 - 1, pc := pc0, park := .wait 17 })] })) });
       d.live &&
       ((d.core 0).press.owner == some 0 && (d.press 0).ops.isEmpty && ((d.press 0).error 0).isSome && ((d.core 0).ents.filter (fun (y : Nat × SEnt) => y.2.place == 0 && y.2.park == .wait 17)).length == 1)) &&
     (let d : Device := ({ pressed with cores := pressed.cores.map (fun (c : Nat × Core) => (c.1, { c.2 with press := { c.2.press with acc := [(0, 5)], ops := [{ kind := 2, seq := 3 }] } })) });
       d.live &&
       ((d.press 0).ops.find? (fun o => !o.started) == some { kind := 2, seq := 3 } && ({ kind := 2, seq := 3 } : MxOp).canStart ((d.press 0).ops.takeWhile (fun x => x.started)))) &&
     (let d : Device := ({ pressed with cores := pressed.cores.map (fun (c : Nat × Core) => (c.1, { c.2 with press := { c.2.press with acc := [(0, 5)], ops := [{ kind := 0, seq := 3, type := 1 }] } })) });
       d.live &&
       ((d.press 0).ops.find? (fun o => !o.started) == some { kind := 0, seq := 3, type := 1 } && ({ kind := 0, seq := 3, type := 1 } : MxOp).canStart ((d.press 0).ops.takeWhile (fun x => x.started)))) &&
     (let d : Device := ({ pressed with cores := pressed.cores.map (fun (c : Nat × Core) => (c.1, { c.2 with press := { c.2.press with acc := [(0, 5)], ops := [{ kind := 3, seq := 3, cols := 8, b := 0x8000 }] } })) });
       d.live &&
       ((d.press 0).ops.find? (fun o => !o.started) == some { kind := 3, seq := 3, cols := 8, b := 0x8000 } && ({ kind := 3, seq := 3, cols := 8, b := 0x8000 } : MxOp).canStart ((d.press 0).ops.takeWhile (fun x => x.started)))) &&
     (let d : Device := ({ pressed with cores := pressed.cores.map (fun (c : Nat × Core) => (c.1, { c.2 with press := { c.2.press with ops := [{ kind := 0, seq := 3, type := 1, started := true, taken := 128 }] } })) });
       d.live && (((d.press 0).ops.find? MxOp.ended).isSome)) &&
     (let d : Device := ({ pressed with cores := pressed.cores.map (fun (c : Nat × Core) => (c.1, { c.2 with press := { c.2.press with ops := [{ kind := 0, seq := 3, type := 1, started := true, taken := 7 }] } })) });
       d.live && ((d.press 0).loading.isSome && !d.localBad 0 0 (7 * pressRb 1) (pressRb 1)))) = true := by decide +kernel

set_option maxRecDepth 100000 in
theorem witness_StreamsAndMessages :
    ((runs streaming 0xD0 ({ d := 14, a := 4, ak := 1, mod := 16 } : IWord) ((ixSstart ({ d := 14, a := 4, ak := 1, mod := 16 } : IWord)).1) (fun i d => i.a 2 0 % 128 == 0 && (match i.structBytes d 0 (i.a 2 0) 128 with
  | some (d2, b) => !i.k.early && d2.sdValid b { hoop := i.hoop, die := i.die, sstart := true, localSize := d2.localSize i.core, addr := i.a 2 0 }
      && (match (if (parseSd b).mode = 6 then i.structBytes d2 1 (parseSd b).src 128 else some (d2, [])) with
        | some (d3, ub) => (parseSd b).mode != 6 && (parseSd b).updOk ub && (let eng := d2.lightest i.die; match d3.issueCheck (512 + eng) i.hoop i.k.map (parseSd b) ub with
          | (d4, none) => (d4.core i.core).held i.place < 16 && d4.engineRoom eng && true
          | _ => false)
        | none => false)
  | none => false)) : Bool) &&
     (runs streaming 0xD0 ({ d := 14, a := 4, ak := 1, mod := 5 } : IWord) ((ixSstart ({ d := 14, a := 4, ak := 1, mod := 5 } : IWord)).1) (fun i d => i.a 2 0 % 128 == 0 && (match i.structBytes d 0 (i.a 2 0) 128 with
  | some (d2, b) => !i.k.early && d2.sdValid b { hoop := i.hoop, die := i.die, sstart := true, localSize := d2.localSize i.core, addr := i.a 2 0 }
      && (match (if (parseSd b).mode = 6 then i.structBytes d2 1 (parseSd b).src 128 else some (d2, [])) with
        | some (d3, ub) => (parseSd b).mode != 6 && (parseSd b).updOk ub && (let eng := 16 * i.die + 5; match d3.issueCheck (512 + eng) i.hoop i.k.map (parseSd b) ub with
          | (d4, none) => (d4.core i.core).held i.place < 16 && d4.engineRoom eng && true
          | _ => false)
        | none => false)
  | none => false)) : Bool) &&
     (runs streaming 0xD1 ({ a := 7, ak := 1 } : IWord) ((ixSwait ({ a := 7, ak := 1 } : IWord)).1) (fun i d => Tab.find? i.b.handles (i.a 1 0) == some { kind := 0, op := 9, done := true }) : Bool) &&
     (runs ({ streaming with cores := streaming.cores.map (fun (c : Nat × Core) => (c.1, { c.2 with blocks := c.2.blocks.map (fun (b : Nat × Block) => (b.1, { b.2 with handles := [(1, { kind := 0, op := 9, done := true, wide := true, polled := some {} })] })) })) }) 0xD1 ({ a := 7, ak := 1 } : IWord) ((ixSwait ({ a := 7, ak := 1 } : IWord)).1) (fun i d => Tab.find? i.b.handles (i.a 1 0) == some { kind := 0, op := 9, done := true, wide := true, polled := some {} }) : Bool) &&
     (runs streaming 0xD2 ({ d := 1, a := 12, ak := 1 } : IWord) ((ixSpoll ({ d := 1, a := 12, ak := 1 } : IWord)).1) (fun i d => Tab.find? i.b.handles (i.a 1 0) == some { kind := 0, op := 10 }) : Bool) &&
     (runs streaming 0xD2 ({ d := 1, a := 7, ak := 1 } : IWord) ((ixSpoll ({ d := 1, a := 7, ak := 1 } : IWord)).1) (fun i d => Tab.find? i.b.handles (i.a 1 0) == some { kind := 0, op := 9, done := true }) : Bool) &&
     (runs ({ streaming with cores := streaming.cores.map (fun (c : Nat × Core) => (c.1, { c.2 with blocks := c.2.blocks.map (fun (b : Nat × Block) => (b.1, { b.2 with handles := [(1, { kind := 0, op := 9, done := true, wide := true, polled := some {} })] })) })) }) 0xD2 ({ d := 1, a := 7, ak := 1 } : IWord) ((ixSpoll ({ d := 1, a := 7, ak := 1 } : IWord)).1) (fun i d => Tab.find? i.b.handles (i.a 1 0) == some { kind := 0, op := 9, done := true, wide := true, polled := some {} }) : Bool) &&
     (runs streaming 0xD3 ({ d := 14, a := 8, ak := 1, b := 6, bk := 1, c := 8, ck := 1, mod := 1 } : IWord) ((ixMsend ({ d := 14, a := 8, ak := 1, b := 6, bk := 1, c := 8, ck := 1, mod := 1 } : IWord)).1) (fun i d => !i.k.early && 64 ≤ i.bReg 1 0 && i.bReg 1 0 ≤ 4096 && i.c 1 0 < 2 ^ 19 && d.localIn 0 (i.a 2 0) 64 && !d.localBad 0 i.place (i.a 2 0) 64 && ((d.localMet 0 i.place 0 64).core 0).held i.place < 16) : Bool) &&
     (runs streaming 0xD3 ({ d := 0, dz := true, a := 8, ak := 1, b := 6, bk := 1, c := 8, ck := 1, mod := 1 } : IWord) ((ixMsend ({ d := 0, dz := true, a := 8, ak := 1, b := 6, bk := 1, c := 8, ck := 1, mod := 1 } : IWord)).1) (fun i d => !i.k.early && 64 ≤ i.bReg 1 0 && i.bReg 1 0 ≤ 4096 && i.c 1 0 < 2 ^ 19 && d.localIn 0 (i.a 2 0) 64 && !d.localBad 0 i.place (i.a 2 0) 64 && ((d.localMet 0 i.place 0 64).core 0).held i.place < 16) : Bool) &&
     (runs streaming 0xD3 ({ d := 14, a := 4, ak := 1, b := 6, bk := 1, c := 8, ck := 1 } : IWord) ((ixMsend ({ d := 14, a := 4, ak := 1, b := 6, bk := 1, c := 8, ck := 1 } : IWord)).1) (fun i d => !i.k.early && 64 ≤ i.bReg 1 0 && i.bReg 1 0 ≤ 4096 && i.c 1 0 < 2 ^ 19 && (match i.structBytes d 0 (i.a 2 0) (i.bReg 1 0) with | some (d1, b) => (d1.core 0).held i.place < 16 | none => false)) : Bool)) = true := by decide +kernel

set_option maxRecDepth 100000 in
theorem witness_Update :
    ((runs streaming 0xE0 ({ pg := 1, a := 10, ak := 1, b := 1 } : IWord) ((ixSmupd ({ pg := 1, a := 10, ak := 1, b := 1 } : IWord)).1) (fun i d => !i.k.early && i.guard == 0) : Bool) &&
     (runs streaming 0xE0 ({ a := 10, ak := 1, b := 1 } : IWord) ((ixSmupd ({ a := 10, ak := 1, b := 1 } : IWord)).1) (fun i d => !i.k.early && i.guard != 0 && i.a 2 0 % 128 == 0 && (match i.structBytes d 64 (i.a 2 0) 128 with
  | some (d2, b) => updValid b && (parseUpd b).form == 0 && i.lanes.all (fun l => i.bReg 1 l < (parseUpd b).count)
    && (let u := parseUpd b
        let idx := i.lanes.map (fun l => (l, i.bReg 1 l))
        let r := (updAccesses u idx).foldl (fun (m : Device × List LaneAcc × List (Nat × FaultArgs)) x =>
          let y := i.translate m.1 x.2.2.1 [x.2.2.2] [(x.1, x.2.1)]
          (y.1, m.2.1 ++ (if x.2.2.2 = 3 then y.2.1 else []), m.2.2 ++ y.2.2)) (d2, [], [])
        let d3 := r.2.1.foldl (fun d x => match x.loc with
          | .dev a => d.cohRead i.die i.hoop a 2 true
          | .host _ => d) (r.1.updWatch i.hoop (r.1.groupWaiter i.core i.x) (updAccesses u idx))
        let o : UpdOp := { place := some i.place, hoop := i.hoop, map := i.k.map, group := i.x.group, mask := i.x.mask, pc := i.x.pc, desc := b, idx := idx, due := [] }
        r.2.2.isEmpty && (r.1.core 0).held i.place < 16 && (i.noHost r.1 r.2.1).isEmpty && !i.collides r.1 ((updAccesses u idx).map (fun x => (x.1, x.2.1, x.2.2.1, x.2.2.2 == 4))) && r.2.1.all (fun x => x.host.isNone) && (o.failures d3 u).isEmpty)
  | none => false)) : Bool) &&
     (runs (((({ streaming with pcie := { streaming.pcie with up := true, crs := false, busMaster := 1 } } : Device).writeVa 0 (2 ^ 44 + 0x1080) (le 2 0 ++ le 2 2 ++ le 4 4 ++ (List.range 5).flatMap (fun i => le 8 ((if i = 0 then 0 else 2 ^ 44) + 0x8000 + 0x100 * i)) ++ le 16 0 ++ le 64 0)).getD {})) 0xE0 ({ a := 10, ak := 1, b := 1 } : IWord) ((ixSmupd ({ a := 10, ak := 1, b := 1 } : IWord)).1) (fun i d => !i.k.early && i.guard != 0 && i.a 2 0 % 128 == 0 && (match i.structBytes d 64 (i.a 2 0) 128 with
  | some (d2, b) => updValid b && (parseUpd b).form == 0 && i.lanes.all (fun l => i.bReg 1 l < (parseUpd b).count)
    && (let u := parseUpd b
        let idx := i.lanes.map (fun l => (l, i.bReg 1 l))
        let r := (updAccesses u idx).foldl (fun (m : Device × List LaneAcc × List (Nat × FaultArgs)) x =>
          let y := i.translate m.1 x.2.2.1 [x.2.2.2] [(x.1, x.2.1)]
          (y.1, m.2.1 ++ (if x.2.2.2 = 3 then y.2.1 else []), m.2.2 ++ y.2.2)) (d2, [], [])
        let d3 := r.2.1.foldl (fun d x => match x.loc with
          | .dev a => d.cohRead i.die i.hoop a 2 true
          | .host _ => d) (r.1.updWatch i.hoop (r.1.groupWaiter i.core i.x) (updAccesses u idx))
        let o : UpdOp := { place := some i.place, hoop := i.hoop, map := i.k.map, group := i.x.group, mask := i.x.mask, pc := i.x.pc, desc := b, idx := idx, due := [] }
        r.2.2.isEmpty && (r.1.core 0).held i.place < 16 && (i.noHost r.1 r.2.1).isEmpty && !i.collides r.1 ((updAccesses u idx).map (fun x => (x.1, x.2.1, x.2.2.1, x.2.2.2 == 4))) && r.2.1.any (fun x => x.host.isSome))
  | none => false)) : Bool)) = true := by decide +kernel

set_option maxRecDepth 100000 in
theorem witness_RingEntries :
    ((let s : Device := (queued [(fetched 0x00 0 [])]); let e := (fetched 0x00 0 []); let d := s.begin_ 0 7; let h := (d.queue 0).hoop;
       s.startable 0 0x00 == some e && (true)) &&
     (let s : Device := (queued [(fetched 0x07 0 [])]); let e := (fetched 0x07 0 []); let d := s.begin_ 0 7; let h := (d.queue 0).hoop;
       s.startable 0 0x07 == some e && (true)) &&
     (let s : Device := (queued [(fetched 0x01 0 launchP)]); let e := (fetched 0x01 0 launchP); let d := s.begin_ 0 7;
       let h := (d.queue 0).hoop; let r := d.entRead 0 7 (fieldLe (slice e.bytes 8 24) 0 8) 64;
       let k := fun b => kernelOf b (slice e.bytes 8 24) (r.1.queue 0).hoop 0 7 0 (d.rd Reg.HOOP_FLIP_APPLIED h) none false;
       s.startable 0 0x01 == some e &&
       (match r.2 with | .ok (some b) => kdescGaps.all (fun g => zeroAt b g.1 g.2) && (k b).ok | _ => false)) &&
     (let s : Device := (queued [(fetched 0x01 0 (le 8 (2 ^ 44 + 0x1080) ++ le 8 0 ++ le 4 2 ++ le 2 1 ++ le 2 1))]);
       let e := (fetched 0x01 0 (le 8 (2 ^ 44 + 0x1080) ++ le 8 0 ++ le 4 2 ++ le 2 1 ++ le 2 1)); let d := s.begin_ 0 7;
       let h := (d.queue 0).hoop; let r := d.entRead 0 7 (fieldLe (slice e.bytes 8 24) 0 8) 64;
       let k := fun b => kernelOf b (slice e.bytes 8 24) (r.1.queue 0).hoop 0 7 0 (d.rd Reg.HOOP_FLIP_APPLIED h) none false;
       s.startable 0 0x01 == some e &&
       (match r.2 with | .ok (some b) => !(kdescGaps.all (fun g => zeroAt b g.1 g.2) && (k b).ok) | _ => false)) &&
     (let s : Device := (queued [(fetched 0x01 0 (le 8 (2 ^ 45) ++ le 8 0 ++ le 4 2 ++ le 2 1 ++ le 2 1))]);
       let e := (fetched 0x01 0 (le 8 (2 ^ 45) ++ le 8 0 ++ le 4 2 ++ le 2 1 ++ le 2 1)); let d := s.begin_ 0 7; let h := (d.queue 0).hoop;
       let r := d.entRead 0 7 (fieldLe (slice e.bytes 8 24) 0 8) 64;
       let k := fun b => kernelOf b (slice e.bytes 8 24) (r.1.queue 0).hoop 0 7 0 (d.rd Reg.HOOP_FLIP_APPLIED h) none false;
       s.startable 0 0x01 == some e && (match r.2 with | .error 0xB => true | _ => false)) &&
     (let s : Device := ((let z : Device := queued [(fetched 0x01 0 (le 8 (0x1000) ++ le 8 0 ++ le 4 2 ++ le 2 1 ++ le 2 1))]; { z with pcie := { z.pcie with up := true, crs := false, busMaster := 1 } }));
       let e := (fetched 0x01 0 (le 8 (0x1000) ++ le 8 0 ++ le 4 2 ++ le 2 1 ++ le 2 1)); let d := s.begin_ 0 7; let h := (d.queue 0).hoop;
       let r := d.entRead 0 7 (fieldLe (slice e.bytes 8 24) 0 8) 64;
       let k := fun b => kernelOf b (slice e.bytes 8 24) (r.1.queue 0).hoop 0 7 0 (d.rd Reg.HOOP_FLIP_APPLIED h) none false;
       s.startable 0 0x01 == some e && (match r.2 with | .ok none => true | _ => false)) &&
     (let s : Device := ((let z : Device := queued [(fetched 0x02 0 [] 4)]; let z : Device := { z with work := { z.work with recipes := [(1, recipe)] }, pcie := { z.pcie with up := true, crs := false, busMaster := 1 } }; z));
       let e := (fetched 0x02 0 [] 4); let d := s.begin_ 0 7; let h := (d.queue 0).hoop; let obj := d.objRead h (fieldLe e.bytes 32 4);
       let r : Recipe := recipe; let live := (d.work.insts.filter (fun (x : Nat × Inst) => x.2.hoop == h && x.2.recipe == 1)).length;
       s.startable 0 0x02 == some e && (entNobj e.bytes == 0)) &&
     (let s : Device := ((let z : Device := queued [(fetched 0x02 1 [] 2048)]; let z : Device := { z with work := { z.work with recipes := [(1, recipe)] }, pcie := { z.pcie with up := true, crs := false, busMaster := 1 } }; z));
       let e := (fetched 0x02 1 [] 2048); let d := s.begin_ 0 7; let h := (d.queue 0).hoop; let d := d.objSeen h (fieldLe e.bytes 32 4);
       let obj := d.objRead h (fieldLe e.bytes 32 4); let r : Recipe := recipe;
       let live := (d.work.insts.filter (fun (x : Nat × Inst) => x.2.hoop == h && x.2.recipe == 1)).length; s.startable 0 0x02 == some e &&
       (entNobj e.bytes != 0 && (match obj with | .error 4 => true | _ => false))) &&
     (let s : Device := ((let z : Device := queued [(fetched 0x02 1 [] 5)]; let z : Device := { z with work := { z.work with recipes := [(1, recipe)] }, pcie := { z.pcie with up := true, crs := false, busMaster := 1 } }; z));
       let e := (fetched 0x02 1 [] 5); let d := s.begin_ 0 7; let h := (d.queue 0).hoop; let d := d.objSeen h (fieldLe e.bytes 32 4);
       let obj := d.objRead h (fieldLe e.bytes 32 4); let r : Recipe := recipe;
       let live := (d.work.insts.filter (fun (x : Nat × Inst) => x.2.hoop == h && x.2.recipe == 1)).length; s.startable 0 0x02 == some e &&
       (entNobj e.bytes != 0 && (match obj with | .ok (_, t, _) => t != 2 | _ => false))) &&
     (let s : Device := ((let z : Device := queued [(fetched 0x02 1 [] 6)]; let z : Device := { z with work := { z.work with recipes := [(1, recipe)] }, pcie := { z.pcie with up := true, crs := false, busMaster := 1 } }; z.objWrite 0 6 1 2 7));
       let e := (fetched 0x02 1 [] 6); let d := s.begin_ 0 7; let h := (d.queue 0).hoop; let d := d.objSeen h (fieldLe e.bytes 32 4);
       let obj := d.objRead h (fieldLe e.bytes 32 4); let r : Recipe := recipe;
       let live := (d.work.insts.filter (fun (x : Nat × Inst) => x.2.hoop == h && x.2.recipe == 1)).length; s.startable 0 0x02 == some e &&
       (entNobj e.bytes != 0 && (match obj with | .ok (_, 2, ref) => (d.recipe? h (ref % 1024)).isNone | _ => false))) &&
     (let s : Device := ((let z : Device := queued [(fetched 0x02 1 (le 8 0 ++ le 2 8) 4)]; let z : Device := { z with work := { z.work with recipes := [(1, recipe)] }, pcie := { z.pcie with up := true, crs := false, busMaster := 1 } }; z));
       let e := (fetched 0x02 1 (le 8 0 ++ le 2 8) 4); let d := s.begin_ 0 7; let h := (d.queue 0).hoop;
       let d := d.objSeen h (fieldLe e.bytes 32 4); let obj := d.objRead h (fieldLe e.bytes 32 4); let r : Recipe := recipe;
       let live := (d.work.insts.filter (fun (x : Nat × Inst) => x.2.hoop == h && x.2.recipe == 1)).length; s.startable 0 0x02 == some e &&
       (entNobj e.bytes != 0 && (match obj with | .ok (_, 2, 1) => true | _ => false) && d.recipe? h 1 == some r && r.paramLen != fieldLe e.bytes 16 2)) &&
     (let s : Device := ((let z : Device := queued [(fetched 0x02 1 [] 4)]; let z : Device := { z with work := { z.work with recipes := [(1, { recipe with parts := [(0, 256)] })] }, pcie := { z.pcie with up := true, crs := false, busMaster := 1 } }; { z with bad := (z.recipeRuns 0 [(0, 256)]).map (fun x => x.1 / 32) }));
       let e := (fetched 0x02 1 [] 4); let d := s.begin_ 0 7; let h := (d.queue 0).hoop; let d := d.objSeen h (fieldLe e.bytes 32 4);
       let obj := d.objRead h (fieldLe e.bytes 32 4); let r : Recipe := { recipe with parts := [(0, 256)] };
       let live := (d.work.insts.filter (fun (x : Nat × Inst) => x.2.hoop == h && x.2.recipe == 1)).length; s.startable 0 0x02 == some e &&
       (entNobj e.bytes != 0 && (match obj with | .ok (_, 2, 1) => true | _ => false) && d.recipe? h 1 == some r && r.paramLen == fieldLe e.bytes 16 2 && (d.storeBad h r).isSome)) &&
     (let s : Device := ((let z : Device := queued [(fetched 0x02 1 [] 4)]; let z : Device := { z with work := { z.work with recipes := [(1, recipe)] }, pcie := { z.pcie with up := true, crs := false, busMaster := 1 } }; z.wr Reg.HOOP_RECIPES_LIVE 0 32));
       let e := (fetched 0x02 1 [] 4); let d := s.begin_ 0 7; let h := (d.queue 0).hoop; let d := d.objSeen h (fieldLe e.bytes 32 4);
       let obj := d.objRead h (fieldLe e.bytes 32 4); let r : Recipe := recipe;
       let live := (d.work.insts.filter (fun (x : Nat × Inst) => x.2.hoop == h && x.2.recipe == 1)).length; s.startable 0 0x02 == some e &&
       (entNobj e.bytes != 0 && (match obj with | .ok (_, 2, 1) => true | _ => false) && d.recipe? h 1 == some r && r.paramLen == fieldLe e.bytes 16 2 && (d.storeBad h r).isNone && 32 ≤ d.rd Reg.HOOP_RECIPES_LIVE h)) &&
     (let s : Device := ((let z : Device := queued [(fetched 0x02 1 [] 4)]; let z : Device := { z with work := { z.work with recipes := [(1, recipe)] }, pcie := { z.pcie with up := true, crs := false, busMaster := 1 } }; { z with work := { z.work with insts := (List.range 8).map (fun n => (n, inst { params := [], counter := 0, dispatch := 0 })) } }));
       let e := (fetched 0x02 1 [] 4); let d := s.begin_ 0 7; let h := (d.queue 0).hoop; let d := d.objSeen h (fieldLe e.bytes 32 4);
       let obj := d.objRead h (fieldLe e.bytes 32 4); let r : Recipe := recipe;
       let live := (d.work.insts.filter (fun (x : Nat × Inst) => x.2.hoop == h && x.2.recipe == 1)).length; s.startable 0 0x02 == some e &&
       (entNobj e.bytes != 0 && (match obj with | .ok (_, 2, 1) => true | _ => false) && d.recipe? h 1 == some r && r.paramLen == fieldLe e.bytes 16 2 && (d.storeBad h r).isNone && 8 ≤ live)) &&
     (let s : Device := ((let z : Device := queued [(fetched 0x02 1 (le 8 (2 ^ 45) ++ le 2 64) 4)]; let z : Device := { z with work := { z.work with recipes := [(1, { recipe with paramLen := 64 })] }, pcie := { z.pcie with up := true, crs := false, busMaster := 1 } }; z));
       let e := (fetched 0x02 1 (le 8 (2 ^ 45) ++ le 2 64) 4); let d := s.begin_ 0 7; let h := (d.queue 0).hoop;
       let d := d.objSeen h (fieldLe e.bytes 32 4); let obj := d.objRead h (fieldLe e.bytes 32 4);
       let r : Recipe := { recipe with paramLen := 64 };
       let live := (d.work.insts.filter (fun (x : Nat × Inst) => x.2.hoop == h && x.2.recipe == 1)).length;
       let b := d.entRead 0 7 (fieldLe e.bytes 8 8) 64; s.startable 0 0x02 == some e &&
       (entNobj e.bytes != 0 && (match obj with | .ok (_, 2, 1) => true | _ => false) && d.recipe? h 1 == some r && r.paramLen == fieldLe e.bytes 16 2 && (d.storeBad h r).isNone && d.rd Reg.HOOP_RECIPES_LIVE h < 32 && live < 8 && (match b.2 with | .error 0xB => true | _ => false))) &&
     (let s : Device := ((let z : Device := queued [(fetched 0x02 1 (le 8 0x1000 ++ le 2 64) 4)]; let z : Device := { z with work := { z.work with recipes := [(1, { recipe with paramLen := 64 })] }, pcie := { z.pcie with up := true, crs := false, busMaster := 1 } }; z));
       let e := (fetched 0x02 1 (le 8 0x1000 ++ le 2 64) 4); let d := s.begin_ 0 7; let h := (d.queue 0).hoop;
       let d := d.objSeen h (fieldLe e.bytes 32 4); let obj := d.objRead h (fieldLe e.bytes 32 4);
       let r : Recipe := { recipe with paramLen := 64 };
       let live := (d.work.insts.filter (fun (x : Nat × Inst) => x.2.hoop == h && x.2.recipe == 1)).length;
       let b := d.entRead 0 7 (fieldLe e.bytes 8 8) 64; s.startable 0 0x02 == some e &&
       (entNobj e.bytes != 0 && (match obj with | .ok (_, 2, 1) => true | _ => false) && d.recipe? h 1 == some r && r.paramLen == fieldLe e.bytes 16 2 && (d.storeBad h r).isNone && d.rd Reg.HOOP_RECIPES_LIVE h < 32 && live < 8 && (match b.2 with | .ok none => true | _ => false))) &&
     (let s : Device := ((let z : Device := queued [(fetched 0x02 1 [] 4)]; let z : Device := { z with work := { z.work with recipes := [(1, recipe)] }, pcie := { z.pcie with up := true, crs := false, busMaster := 1 } }; z));
       let e := (fetched 0x02 1 [] 4); let d := s.begin_ 0 7; let h := (d.queue 0).hoop; let d := d.objSeen h (fieldLe e.bytes 32 4);
       let obj := d.objRead h (fieldLe e.bytes 32 4); let r : Recipe := recipe;
       let live := (d.work.insts.filter (fun (x : Nat × Inst) => x.2.hoop == h && x.2.recipe == 1)).length; s.startable 0 0x02 == some e &&
       (entNobj e.bytes != 0 && (match obj with | .ok (_, 2, 1) => true | _ => false) && d.recipe? h 1 == some r && r.paramLen == fieldLe e.bytes 16 2 && (d.storeBad h r).isNone && d.rd Reg.HOOP_RECIPES_LIVE h < 32 && live < 8)) &&
     (let s : Device := ((let z : Device := queued [(fetched 0x02 1 (le 8 (2 ^ 44 + 0x1000) ++ le 2 64) 4)]; let z : Device := { z with work := { z.work with recipes := [(1, { recipe with paramLen := 64 })] }, pcie := { z.pcie with up := true, crs := false, busMaster := 1 } }; z));
       let e := (fetched 0x02 1 (le 8 (2 ^ 44 + 0x1000) ++ le 2 64) 4); let d := s.begin_ 0 7; let h := (d.queue 0).hoop;
       let d := d.objSeen h (fieldLe e.bytes 32 4); let obj := d.objRead h (fieldLe e.bytes 32 4);
       let r : Recipe := { recipe with paramLen := 64 };
       let live := (d.work.insts.filter (fun (x : Nat × Inst) => x.2.hoop == h && x.2.recipe == 1)).length;
       let b := d.entRead 0 7 (fieldLe e.bytes 8 8) 64; s.startable 0 0x02 == some e &&
       (entNobj e.bytes != 0 && (match obj with | .ok (_, 2, 1) => true | _ => false) && d.recipe? h 1 == some r && r.paramLen == fieldLe e.bytes 16 2 && (d.storeBad h r).isNone && d.rd Reg.HOOP_RECIPES_LIVE h < 32 && live < 8 && (match b.2 with | .ok (some _) => true | _ => false))) &&
     (let s : Device := (queued [(fetched 0x03 0 (le 8 (2 ^ 44 + 0x1080) ++ le 2 0))]);
       let e := (fetched 0x03 0 (le 8 (2 ^ 44 + 0x1080) ++ le 2 0)); let d := s.begin_ 0 7; let h := (d.queue 0).hoop;
       let r := d.entRead 0 7 (fieldLe (slice e.bytes 8 24) 0 8) (128 * 0);
       let l := fun b => (List.range 0).map (fun i => slice b (128 * i) 128); s.startable 0 0x03 == some e && (true)) &&
     (let s : Device := (queued [(fetched 0x03 0 (le 8 (2 ^ 44 + 0x1080) ++ le 2 257))]);
       let e := (fetched 0x03 0 (le 8 (2 ^ 44 + 0x1080) ++ le 2 257)); let d := s.begin_ 0 7; let h := (d.queue 0).hoop;
       let r := d.entRead 0 7 (fieldLe (slice e.bytes 8 24) 0 8) (128 * 257);
       let l := fun b => (List.range 257).map (fun i => slice b (128 * i) 128); s.startable 0 0x03 == some e && (true)) &&
     (let s : Device := (queued [(fetched 0x03 0 (le 8 (2 ^ 45) ++ le 2 1))]); let e := (fetched 0x03 0 (le 8 (2 ^ 45) ++ le 2 1));
       let d := s.begin_ 0 7; let h := (d.queue 0).hoop; let r := d.entRead 0 7 (fieldLe (slice e.bytes 8 24) 0 8) (128 * 1);
       let l := fun b => (List.range 1).map (fun i => slice b (128 * i) 128); s.startable 0 0x03 == some e &&
       (match r.2 with | .error 0xB => true | _ => false)) &&
     (let s : Device := ((let z : Device := queued [(fetched 0x03 0 (le 8 (0x1000) ++ le 2 256))]; { z with pcie := { z.pcie with up := true, crs := false, busMaster := 1 } }));
       let e := (fetched 0x03 0 (le 8 (0x1000) ++ le 2 256)); let d := s.begin_ 0 7; let h := (d.queue 0).hoop;
       let r := d.entRead 0 7 (fieldLe (slice e.bytes 8 24) 0 8) (128 * 256);
       let l := fun b => (List.range 256).map (fun i => slice b (128 * i) 128); s.startable 0 0x03 == some e &&
       (match r.2 with | .ok none => true | _ => false)) &&
     (let s : Device := ((let z : Device := (let z : Device := queued [(fetched 0x03 0 (le 8 (2 ^ 44 + 0x2000) ++ le 2 1))]; { z with pcie := { z.pcie with up := true, crs := false, busMaster := 1 } }); (z.writeVa 0 (2 ^ 44 + 0x2000) ((le 8 6 ++ le 8 0x1000 ++ List.replicate 112 0))).getD z));
       let e := (fetched 0x03 0 (le 8 (2 ^ 44 + 0x2000) ++ le 2 1)); let d := s.begin_ 0 7; let h := (d.queue 0).hoop;
       let r := d.entRead 0 7 (fieldLe (slice e.bytes 8 24) 0 8) (128 * 1);
       let l := fun b => (List.range 1).map (fun i => slice b (128 * i) 128); s.startable 0 0x03 == some e &&
       (match r.2 with | .ok (some b) => !(r.1.copyUpds 0 7 (l b)).2 | _ => false)) &&
     (let s : Device := (queued [(fetched 0x03 0 (le 8 (2 ^ 44 + 0x1080) ++ le 2 1))]);
       let e := (fetched 0x03 0 (le 8 (2 ^ 44 + 0x1080) ++ le 2 1)); let d := s.begin_ 0 7; let h := (d.queue 0).hoop;
       let r := d.entRead 0 7 (fieldLe (slice e.bytes 8 24) 0 8) (128 * 1);
       let l := fun b => (List.range 1).map (fun i => slice b (128 * i) 128); s.startable 0 0x03 == some e &&
       (match r.2 with | .ok (some b) => (r.1.copyUpds 0 7 (l b)).2 && r.1.sdValid b { hoop := 0, die := 0, sstart := false, index := 0, nodes := none, addr := 2 ^ 44 + 0x1080 } | _ => false)) &&
     (let s : Device := (queued [(fetched 0x04 0 (le 8 (2 ^ 44 + 0x1100) ++ le 2 0))]);
       let e := (fetched 0x04 0 (le 8 (2 ^ 44 + 0x1100) ++ le 2 0)); let d := s.begin_ 0 7; let h := (d.queue 0).hoop;
       let r := d.entRead 0 7 (fieldLe e.bytes 8 8) (64 * 0); s.startable 0 0x04 == some e && (fieldLe e.bytes 16 2 == 0 && (true))) &&
     (let s : Device := (queued [(fetched 0x04 0 (le 8 (2 ^ 44 + 0x1100) ++ le 2 65))]);
       let e := (fetched 0x04 0 (le 8 (2 ^ 44 + 0x1100) ++ le 2 65)); let d := s.begin_ 0 7; let h := (d.queue 0).hoop;
       let r := d.entRead 0 7 (fieldLe e.bytes 8 8) (64 * 65); s.startable 0 0x04 == some e && (fieldLe e.bytes 16 2 == 65 && (true))) &&
     (let s : Device := (((queued [(fetched 0x04 0 (le 8 (2 ^ 44 + 0x1100) ++ le 2 1))]).setHx 0 { whey := List.replicate 256 ⟨0, 9, true, []⟩ }));
       let e := (fetched 0x04 0 (le 8 (2 ^ 44 + 0x1100) ++ le 2 1)); let d := s.begin_ 0 7; let h := (d.queue 0).hoop;
       let r := d.entRead 0 7 (fieldLe e.bytes 8 8) (64 * 1); s.startable 0 0x04 == some e &&
       (fieldLe e.bytes 16 2 == 1 && (256 < (d.hx h).whey.length + 1))) &&
     (let s : Device := (queued [(fetched 0x04 0 (le 8 (2 ^ 45) ++ le 2 64))]); let e := (fetched 0x04 0 (le 8 (2 ^ 45) ++ le 2 64));
       let d := s.begin_ 0 7; let h := (d.queue 0).hoop; let r := d.entRead 0 7 (fieldLe e.bytes 8 8) (64 * 64);
       s.startable 0 0x04 == some e &&
       (fieldLe e.bytes 16 2 == 64 && ((d.hx h).whey.length + 64 ≤ 256 && (match r.2 with | .error 0xB => true | _ => false)))) &&
     (let s : Device := ((let z : Device := queued [(fetched 0x04 0 (le 8 (0x1000) ++ le 2 1))]; { z with pcie := { z.pcie with up := true, crs := false, busMaster := 1 } }));
       let e := (fetched 0x04 0 (le 8 (0x1000) ++ le 2 1)); let d := s.begin_ 0 7; let h := (d.queue 0).hoop;
       let r := d.entRead 0 7 (fieldLe e.bytes 8 8) (64 * 1); s.startable 0 0x04 == some e &&
       (fieldLe e.bytes 16 2 == 1 && ((d.hx h).whey.length + 1 ≤ 256 && (match r.2 with | .ok none => true | _ => false)))) &&
     (let s : Device := (queued [(fetched 0x04 0 (le 8 (2 ^ 44 + 0x1100) ++ le 2 1))]);
       let e := (fetched 0x04 0 (le 8 (2 ^ 44 + 0x1100) ++ le 2 1)); let d := s.begin_ 0 7; let h := (d.queue 0).hoop;
       let r := d.entRead 0 7 (fieldLe e.bytes 8 8) (64 * 1); s.startable 0 0x04 == some e &&
       (fieldLe e.bytes 16 2 == 1 && ((d.hx h).whey.length + 1 ≤ 256 && (match r.2 with | .ok (some b) => b == wheyD | _ => false)))) &&
     (let s : Device := ((let z : Device := queued [(fetched 0x03 0 (le 8 (3 * 2 ^ 44 + 0x1080) ++ le 2 1))]; let z : Device := (z.writeVa 0 (3 * 2 ^ 44 + 0x1080) copySd).getD {}; { z with boot := { z.boot with waits := [⟨{ ring := 0 }, 0x18, 1, 0, 1, []⟩] } }));
       let e := (fetched 0x03 0 (le 8 (3 * 2 ^ 44 + 0x1080) ++ le 2 1)); let d := s.begin_ 0 7; let h := (d.queue 0).hoop;
       let r := d.entRead 0 7 (fieldLe (slice e.bytes 8 24) 0 8) (128 * 1);
       let l := fun b => (List.range 1).map (fun i => slice b (128 * i) 128); s.startable 0 0x03 == some e &&
       (match r.2 with | .ok (some b) => (r.1.copyUpds 0 7 (l b)).2 && r.1.sdValid b { hoop := 0, die := 0, sstart := false, index := 0, nodes := none, addr := 3 * 2 ^ 44 + 0x1080 } && ((r.1.issueCheck (512 + r.1.lightest 0) 0 (d.rd Reg.HOOP_FLIP_APPLIED 0) (parseSd b) []).2.map (·.1)) == some 0 | _ => false))) = true := by decide +kernel

set_option maxRecDepth 100000 in
theorem witness_FencesAndEvents :
    ((let s : Device := ((let z : Device := queued [(fetched 0x05 0 (le 8 1 ++ le 8 9))]; z.setWord 0 (z.fenceVa 0 1) (2 ^ 63 + 3)));
       let e := (fetched 0x05 0 (le 8 1 ++ le 8 9)); let d := s.begin_ 0 7; let h := (d.queue 0).hoop; s.startable 0 0x05 == some e &&
       (match d.word h (d.fenceVa h 1) with | .ok v => v.testBit 63 | _ => false)) &&
     (let s : Device := ((let z : Device := queued [(fetched 0x05 0 (le 8 1 ++ le 8 9))]; z.setWord 0 (z.fenceVa 0 1) (9)));
       let e := (fetched 0x05 0 (le 8 1 ++ le 8 9)); let d := s.begin_ 0 7; let h := (d.queue 0).hoop; s.startable 0 0x05 == some e &&
       (match d.word h (d.fenceVa h 1) with | .ok v => !v.testBit 63 && v == 9 | _ => false)) &&
     (let s : Device := ((let z : Device := queued [(fetched 0x05 0 (le 8 1 ++ le 8 9))]; z.setWord 0 (z.fenceVa 0 1) (8)));
       let e := (fetched 0x05 0 (le 8 1 ++ le 8 9)); let d := s.begin_ 0 7; let h := (d.queue 0).hoop; s.startable 0 0x05 == some e &&
       (match d.word h (d.fenceVa h 1) with | .ok v => !v.testBit 63 && v == 8 | _ => false)) &&
     (let s : Device := (((queued [(fetched 0x05 0 (le 8 1 ++ le 8 9))]).wr Reg.HOOP_FENCES_BASE 0 0x200000004));
       let e := (fetched 0x05 0 (le 8 1 ++ le 8 9)); let d := s.begin_ 0 7; let h := (d.queue 0).hoop; s.startable 0 0x05 == some e &&
       (match d.word h (d.fenceVa h 1) with | .error 0xB => true | _ => false)) &&
     (let s : Device := ((let z : Device := queued [({ fetched 0x08 0 (le 8 1) with target := 2 })]; z.setWord 0 (z.eventVa 0 1) (2 ^ 63)));
       let e := ({ fetched 0x08 0 (le 8 1) with target := 2 }); let d := s.begin_ 0 7; let h := (d.queue 0).hoop;
       s.startable 0 0x08 == some e && (match d.word h (d.eventVa h 1) with | .ok v => v.testBit 63 | _ => false)) &&
     (let s : Device := ((let z : Device := queued [({ fetched 0x08 0 (le 8 1) with target := 2 })]; z.setWord 0 (z.eventVa 0 1) (2)));
       let e := ({ fetched 0x08 0 (le 8 1) with target := 2 }); let d := s.begin_ 0 7; let h := (d.queue 0).hoop;
       s.startable 0 0x08 == some e &&
       (match d.word h (d.eventVa h 1) with | .ok v => !v.testBit 63 && ringDiff 31 v e.target < 2 ^ 30 | _ => false)) &&
     (let s : Device := ((let z : Device := queued [({ fetched 0x08 0 (le 8 1) with target := 2 })]; z.setWord 0 (z.eventVa 0 1) (1)));
       let e := ({ fetched 0x08 0 (le 8 1) with target := 2 }); let d := s.begin_ 0 7; let h := (d.queue 0).hoop;
       s.startable 0 0x08 == some e &&
       (match d.word h (d.eventVa h 1) with | .ok v => !v.testBit 63 && 2 ^ 30 ≤ ringDiff 31 v e.target | _ => false)) &&
     (let s : Device := (((queued [({ fetched 0x08 0 (le 8 1) with target := 2 })]).wr Reg.HOOP_FENCES_BASE 0 0x200000004));
       let e := ({ fetched 0x08 0 (le 8 1) with target := 2 }); let d := s.begin_ 0 7; let h := (d.queue 0).hoop;
       s.startable 0 0x08 == some e && (match d.word h (d.eventVa h 1) with | .error 0xB => true | _ => false)) &&
     (let s : Device := (queued [(fetched 0x06 0 (le 8 (2 ^ 31) ++ le 8 (9)))]); let e := (fetched 0x06 0 (le 8 (2 ^ 31) ++ le 8 (9)));
       let d := s.begin_ 0 7; let h := (d.queue 0).hoop; let sn := s.seenVa 0 (s.fenceVa 0 1) 8; s.startable 0 0x06 == some e &&
       (s.rd Reg.HOOP_FENCES_FENCES 0 ≤ 2 ^ 31)) &&
     (let s : Device := (queued [(fetched 0x06 0 (le 8 1 ++ le 8 (2 ^ 63)))]); let e := (fetched 0x06 0 (le 8 1 ++ le 8 (2 ^ 63)));
       let d := s.begin_ 0 7; let h := (d.queue 0).hoop; let sn := s.seenVa 0 (s.fenceVa 0 1) 8; s.startable 0 0x06 == some e && (true)) &&
     (let s : Device := ((let z : Device := queued [(fetched 0x06 0 (le 8 1 ++ le 8 (9)))]; z.setWord 0 (z.fenceVa 0 1) (2 ^ 63)));
       let e := (fetched 0x06 0 (le 8 1 ++ le 8 (9))); let d := s.begin_ 0 7; let h := (d.queue 0).hoop;
       let sn := s.seenVa 0 (s.fenceVa 0 1) 8; s.startable 0 0x06 == some e &&
       (1 < s.rd Reg.HOOP_FENCES_FENCES 0 && (match s.word 0 (s.fenceVa 0 1) with | .ok v => v.testBit 63 | _ => false))) &&
     (let s : Device := ((let z : Device := queued [(fetched 0x06 0 (le 8 1 ++ le 8 (9)))]; z.setWord 0 (z.fenceVa 0 1) (8)));
       let e := (fetched 0x06 0 (le 8 1 ++ le 8 (9))); let d := s.begin_ 0 7; let h := (d.queue 0).hoop;
       let sn := s.seenVa 0 (s.fenceVa 0 1) 8; s.startable 0 0x06 == some e &&
       (1 < s.rd Reg.HOOP_FENCES_FENCES 0 && (match s.word 0 (s.fenceVa 0 1) with | .ok v => !v.testBit 63 | _ => false))) &&
     (let s : Device := (((queued [(fetched 0x06 0 (le 8 1 ++ le 8 (9)))]).wr Reg.HOOP_FENCES_BASE 0 0x200000004));
       let e := (fetched 0x06 0 (le 8 1 ++ le 8 (9))); let d := s.begin_ 0 7; let h := (d.queue 0).hoop;
       let sn := s.seenVa 0 (s.fenceVa 0 1) 8; s.startable 0 0x06 == some e &&
       (1 < s.rd Reg.HOOP_FENCES_FENCES 0 && (match sn.word 0 (s.fenceVa 0 1) with | .error 0xB => true | _ => false))) &&
     (let s : Device := (let z : Device := queued [({ fetched 0x05 0 (le 8 1 ++ le 8 9) with started := true })]; z.setWord 0 (z.fenceVa 0 1) (9));
       let e : Entry := ({ fetched 0x05 0 (le 8 1 ++ le 8 9) with started := true }); s.live &&
       s.waiters (fun n _ => n == 0) 0x05 == [(0, e)] && s.entryWaits 0 7 && (s.waitNodes (fun x => x.queue == 0) 3).isEmpty &&
       (let s := s.seenVa 0 (s.fenceVa 0 1) 8; s.fenceTry 0 1 9 == some (0, 9))) &&
     (let s : Device := (let z : Device := queued [({ fetched 0x05 0 (le 8 1 ++ le 8 9) with started := true })]; z.setWord 0 (z.fenceVa 0 1) (2 ^ 63));
       let e : Entry := ({ fetched 0x05 0 (le 8 1 ++ le 8 9) with started := true }); s.live &&
       s.waiters (fun n _ => n == 0) 0x05 == [(0, e)] && s.entryWaits 0 7 && (s.waitNodes (fun x => x.queue == 0) 3).isEmpty &&
       (let s := s.seenVa 0 (s.fenceVa 0 1) 8; s.fenceTry 0 1 9 == some (5, 2 ^ 63))) &&
     (let s : Device := (let z : Device := queued [({ fetched 0x05 0 (le 8 1 ++ le 8 9) with started := true })]; z.setWord 0 (z.fenceVa 0 1) (8));
       let e : Entry := ({ fetched 0x05 0 (le 8 1 ++ le 8 9) with started := true }); s.live &&
       s.waiters (fun n _ => n == 0) 0x05 == [(0, e)] && s.entryWaits 0 7 && (s.waitNodes (fun x => x.queue == 0) 3).isEmpty &&
       (let s := s.seenVa 0 (s.fenceVa 0 1) 8; s.fenceTry 0 1 9 == none)) &&
     (let s : Device := ((queued [({ fetched 0x05 0 (le 8 1 ++ le 8 9) with started := true })]).wr Reg.HOOP_FENCES_BASE 0 0x200000004);
       let e : Entry := ({ fetched 0x05 0 (le 8 1 ++ le 8 9) with started := true }); s.live &&
       s.waiters (fun n _ => n == 0) 0x05 == [(0, e)] && s.entryWaits 0 7 && (s.waitNodes (fun x => x.queue == 0) 3).isEmpty &&
       (let s := s.seenVa 0 (s.fenceVa 0 1) 8; s.fenceTry 0 1 9 == some (0xB, 0))) &&
     (let s : Device := (let z : Device := queued [({ fetched 0x08 0 (le 8 1) with started := true, target := 2 })]; z.setWord 0 (z.eventVa 0 1) (2));
       let e : Entry := ({ fetched 0x08 0 (le 8 1) with started := true, target := 2 }); s.live &&
       s.waiters (fun n _ => n == 0) 0x08 == [(0, e)] && s.entryWaits 0 7 && (s.waitNodes (fun x => x.queue == 0) 6).isEmpty &&
       (let s := s.seenVa 0 (s.eventVa 0 1) 8; s.eventTry 0 1 2 == some 0)) &&
     (let s : Device := (let z : Device := queued [({ fetched 0x08 0 (le 8 1) with started := true, target := 2 })]; z.setWord 0 (z.eventVa 0 1) (2 ^ 63));
       let e : Entry := ({ fetched 0x08 0 (le 8 1) with started := true, target := 2 }); s.live &&
       s.waiters (fun n _ => n == 0) 0x08 == [(0, e)] && s.entryWaits 0 7 && (s.waitNodes (fun x => x.queue == 0) 6).isEmpty &&
       (let s := s.seenVa 0 (s.eventVa 0 1) 8; s.eventTry 0 1 2 == some 6)) &&
     (let s : Device := (let z : Device := queued [({ fetched 0x08 0 (le 8 1) with started := true, target := 2 })]; z.setWord 0 (z.eventVa 0 1) (1));
       let e : Entry := ({ fetched 0x08 0 (le 8 1) with started := true, target := 2 }); s.live &&
       s.waiters (fun n _ => n == 0) 0x08 == [(0, e)] && s.entryWaits 0 7 && (s.waitNodes (fun x => x.queue == 0) 6).isEmpty &&
       (let s := s.seenVa 0 (s.eventVa 0 1) 8; s.eventTry 0 1 2 == none)) &&
     (let s : Device := ((queued [({ fetched 0x08 0 (le 8 1) with started := true, target := 2 })]).wr Reg.HOOP_FENCES_BASE 0 0x200000004);
       let e : Entry := ({ fetched 0x08 0 (le 8 1) with started := true, target := 2 }); s.live &&
       s.waiters (fun n _ => n == 0) 0x08 == [(0, e)] && s.entryWaits 0 7 && (s.waitNodes (fun x => x.queue == 0) 6).isEmpty &&
       (let s := s.seenVa 0 (s.eventVa 0 1) 8; s.eventTry 0 1 2 == some 0xB)) &&
     (let s : Device := (let z : Device := running ({ params := le 4 1 ++ le 4 0 ++ le 8 9, counter := 0, dispatch := 0, started := true, target := 2 } : INode); let z : Device := { z with work := { z.work with recipes := [(1, { recipe with nodes := recipe.nodes.map (fun n => { n with type := 3 }) })] } }; z.setWord 0 (z.fenceVa 0 1) 9);
       s.live && s.nodeWaits 9 0 && (s.waiters (fun m _ => m == 0) 0x05).isEmpty &&
       s.waitNodes (fun x => x.queue == 0) 3 == [(9, 0, ({ params := le 4 1 ++ le 4 0 ++ le 8 9, counter := 0, dispatch := 0, started := true, target := 2 } : INode))] &&
       (let s := s.seenVa 0 (s.fenceVa 0 1) 8; s.fenceTry 0 1 9 == some (0, 9))) &&
     (let s : Device := (let z : Device := running ({ params := le 4 1 ++ le 4 0 ++ le 8 9, counter := 0, dispatch := 0, started := true, target := 2 } : INode); let z : Device := { z with work := { z.work with recipes := [(1, { recipe with nodes := recipe.nodes.map (fun n => { n with type := 6 }) })] } }; z.setWord 0 (z.eventVa 0 1) 2);
       s.live && s.nodeWaits 9 0 && (s.waiters (fun m _ => m == 0) 0x08).isEmpty &&
       s.waitNodes (fun x => x.queue == 0) 6 == [(9, 0, ({ params := le 4 1 ++ le 4 0 ++ le 8 9, counter := 0, dispatch := 0, started := true, target := 2 } : INode))] &&
       (let s := s.seenVa 0 (s.eventVa 0 1) 8; s.eventTry 0 1 2 == some 0))) = true := by decide +kernel

set_option maxRecDepth 100000 in
theorem witness_SettlementsFlipsChains :
    ((let s : Device := ((let z : Device := queued [(fetched 0x09 1 (le 4 0 ++ le 4 4097) 5)]; (({ z with flow := { z.flow with sessions := [(0, { state := 1, hoop := 0, tpb := 16, record := 64, blist := 0x2000, blocks := 1, maxlen := 64, prov := 17, committed := 2, handle := 5, writes := [] })] } }.wr Reg.HOOP_KVPOOL_HBM_SEG 0 1).wr Reg.HOOP_SESSIONS_COUNT 0 1).wr Reg.HOOP_KVFREE_HBM_FREE 0 0));
       let e := (fetched 0x09 1 (le 4 0 ++ le 4 4097) 5); let d := s.begin_ 0 7; let h := (d.queue 0).hoop; let d := d.sessMet h 0;
       s.startable 0 0x09 == some e && (!s.settling 0 && 4096 < 4097)) &&
     (let s : Device := ((let z : Device := queued [(fetched 0x09 1 (le 4 0 ++ le 4 16) 5)]; (({ z with flow := { z.flow with sessions := [(0, { state := 1, hoop := 0, tpb := 16, record := 64, blist := 0x2000, blocks := 1, maxlen := 64, prov := 17, committed := 2, handle := 5, writes := [] })] } }.wr Reg.HOOP_KVPOOL_HBM_SEG 0 1).wr Reg.HOOP_SESSIONS_COUNT 0 1).wr Reg.HOOP_KVFREE_HBM_FREE 0 0));
       let e := (fetched 0x09 1 (le 4 0 ++ le 4 16) 5); let d := s.begin_ 0 7; let h := (d.queue 0).hoop; let d := d.sessMet h 0;
       s.startable 0 0x09 == some e && (!s.settling 0 && d.settleCheck h 0 16 == some 3)) &&
     (let s : Device := ((let z : Device := queued [(fetched 0x09 1 (le 4 0 ++ le 4 6) 5)]; (({ z with flow := { z.flow with sessions := [(0, { state := 1, hoop := 0, tpb := 16, record := 64, blist := 0x2000, blocks := 1, maxlen := 64, prov := 17, committed := 2, handle := 5, writes := [1] })] } }.wr Reg.HOOP_KVPOOL_HBM_SEG 0 1).wr Reg.HOOP_SESSIONS_COUNT 0 1).wr Reg.HOOP_KVFREE_HBM_FREE 0 0));
       let e := (fetched 0x09 1 (le 4 0 ++ le 4 6) 5); let d := s.begin_ 0 7; let h := (d.queue 0).hoop; let d := d.sessMet h 0;
       s.startable 0 0x09 == some e && (!s.settling 0 && d.settleCheck h 0 6 == none && (d.sess 0).writes != [])) &&
     (let s : Device := ((let z : Device := queued [(fetched 0x09 1 (le 4 0 ++ le 4 15) 5)]; (({ z with flow := { z.flow with sessions := [(0, { state := 1, hoop := 0, tpb := 16, record := 64, blist := 0x2000, blocks := 1, maxlen := 64, prov := 17, committed := 2, handle := 5, writes := [] })] } }.wr Reg.HOOP_KVPOOL_HBM_SEG 0 1).wr Reg.HOOP_SESSIONS_COUNT 0 1).wr Reg.HOOP_KVFREE_HBM_FREE 0 0));
       let e := (fetched 0x09 1 (le 4 0 ++ le 4 15) 5); let d := s.begin_ 0 7; let h := (d.queue 0).hoop; let d := d.sessMet h 0;
       s.startable 0 0x09 == some e &&
       (!s.settling 0 && d.settleCheck h 0 15 == none && (d.sess 0).writes == [] && (let need := (d.sess 0).needs ((d.sess 0).committed + 15); need > 0 && (d.rd Reg.HOOP_STATUS_OVER_QUOTA 0 == 1 || d.rd Reg.HOOP_KVFREE_HBM_FREE 0 < need)))) &&
     (let s : Device := ((let z : Device := queued [(fetched 0x09 1 (le 4 0 ++ le 4 6) 5)]; (({ z with flow := { z.flow with sessions := [(0, { state := 1, hoop := 0, tpb := 16, record := 64, blist := 0x2000, blocks := 1, maxlen := 64, prov := 17, committed := 2, handle := 5, writes := [] })] } }.wr Reg.HOOP_KVPOOL_HBM_SEG 0 1).wr Reg.HOOP_SESSIONS_COUNT 0 1).wr Reg.HOOP_KVFREE_HBM_FREE 0 3));
       let e := (fetched 0x09 1 (le 4 0 ++ le 4 6) 5); let d := s.begin_ 0 7; let h := (d.queue 0).hoop; let d := d.sessMet h 0;
       s.startable 0 0x09 == some e &&
       (!s.settling 0 && d.settleCheck h 0 6 == none && (d.sess 0).writes == [] && !(let need := (d.sess 0).needs ((d.sess 0).committed + 6); need > 0 && (d.rd Reg.HOOP_STATUS_OVER_QUOTA 0 == 1 || d.rd Reg.HOOP_KVFREE_HBM_FREE 0 < need)))) &&
     (let s : Device := ((let z : Device := queued [(fetched 0x0A 1 (le 4 0) 5)]; (({ z with flow := { z.flow with sessions := [(0, { state := 3, hoop := 0, tpb := 16, record := 64, blist := 0x2000, blocks := 1, maxlen := 64, prov := 17, committed := 2, handle := 5, writes := [] })] } }.wr Reg.HOOP_KVPOOL_HBM_SEG 0 1).wr Reg.HOOP_SESSIONS_COUNT 0 1).wr Reg.HOOP_KVFREE_HBM_FREE 0 0));
       let e := (fetched 0x0A 1 (le 4 0) 5); let d := s.begin_ 0 7; let h := (d.queue 0).hoop; let d := d.sessMet h 0;
       s.startable 0 0x0A == some e && (!s.settling 0 && d.settleCheck h 0 0 == some 0xA)) &&
     (let s : Device := ((let z : Device := queued [(fetched 0x0A 1 (le 4 0) 5)]; (({ z with flow := { z.flow with sessions := [(0, { state := 1, hoop := 0, tpb := 16, record := 64, blist := 0x2000, blocks := 1, maxlen := 64, prov := 17, committed := 2, handle := 5, writes := [1] })] } }.wr Reg.HOOP_KVPOOL_HBM_SEG 0 1).wr Reg.HOOP_SESSIONS_COUNT 0 1).wr Reg.HOOP_KVFREE_HBM_FREE 0 0));
       let e := (fetched 0x0A 1 (le 4 0) 5); let d := s.begin_ 0 7; let h := (d.queue 0).hoop; let d := d.sessMet h 0;
       s.startable 0 0x0A == some e && (!s.settling 0 && d.settleCheck h 0 0 == none && (d.sess 0).writes != [])) &&
     (let s : Device := ((let z : Device := queued [(fetched 0x0A 1 (le 4 0) 5)]; (({ z with flow := { z.flow with sessions := [(0, { state := 1, hoop := 0, tpb := 16, record := 64, blist := 0x2000, blocks := 1, maxlen := 64, prov := 17, committed := 2, handle := 5, writes := [] })] } }.wr Reg.HOOP_KVPOOL_HBM_SEG 0 1).wr Reg.HOOP_SESSIONS_COUNT 0 1).wr Reg.HOOP_KVFREE_HBM_FREE 0 0));
       let e := (fetched 0x0A 1 (le 4 0) 5); let d := s.begin_ 0 7; let h := (d.queue 0).hoop; let d := d.sessMet h 0;
       s.startable 0 0x0A == some e && (!s.settling 0 && d.settleCheck h 0 0 == none && (d.sess 0).writes == [])) &&
     (let s : Device := ((let z : Device := (let z : Device := queued [(fetched 0x09 1 (le 4 0 ++ le 4 6) 5)]; { z with work := { z.work with queues := z.work.queues ++ [(1, { ringQ [{ fetched 0x0A 1 (le 4 0) 5 with started := true, id := 6 }] with ring := 2 ^ 44 + 0xC000 })] } }); (({ z with flow := { z.flow with sessions := [(0, { state := 1, hoop := 0, tpb := 16, record := 64, blist := 0x2000, blocks := 1, maxlen := 64, prov := 17, committed := 2, handle := 5, writes := [1] })] } }.wr Reg.HOOP_KVPOOL_HBM_SEG 0 1).wr Reg.HOOP_SESSIONS_COUNT 0 1).wr Reg.HOOP_KVFREE_HBM_FREE 0 0));
       let e := (fetched 0x09 1 (le 4 0 ++ le 4 6) 5); let d := s.begin_ 0 7; let h := (d.queue 0).hoop; let d := d.sessMet h 0;
       s.startable 0 0x09 == some e && (s.settling 0)) &&
     (let s : Device := ((let z : Device := (let z : Device := queued [(fetched 0x0A 1 (le 4 0) 5)]; { z with work := { z.work with queues := z.work.queues ++ [(1, { ringQ [{ fetched 0x0A 1 (le 4 0) 5 with started := true, id := 6 }] with ring := 2 ^ 44 + 0xC000 })] } }); (({ z with flow := { z.flow with sessions := [(0, { state := 1, hoop := 0, tpb := 16, record := 64, blist := 0x2000, blocks := 1, maxlen := 64, prov := 17, committed := 2, handle := 5, writes := [1] })] } }.wr Reg.HOOP_KVPOOL_HBM_SEG 0 1).wr Reg.HOOP_SESSIONS_COUNT 0 1).wr Reg.HOOP_KVFREE_HBM_FREE 0 0));
       let e := (fetched 0x0A 1 (le 4 0) 5); let d := s.begin_ 0 7; let h := (d.queue 0).hoop; let d := d.sessMet h 0;
       s.startable 0 0x0A == some e && (s.settling 0)) &&
     (let s : Device := (let z : Device := queued [({ (fetched 0x0A 1 (le 4 0) 5) with started := true })]; (({ z with flow := { z.flow with sessions := [(0, { state := 1, hoop := 0, tpb := 16, record := 64, blist := 0x2000, blocks := 1, maxlen := 64, prov := 17, committed := 2, handle := 5, writes := [1] })] } }.wr Reg.HOOP_KVPOOL_HBM_SEG 0 1).wr Reg.HOOP_SESSIONS_COUNT 0 1).wr Reg.HOOP_KVFREE_HBM_FREE 0 0);
       let e : Entry := ({ (fetched 0x0A 1 (le 4 0) 5) with started := true }); s.live && (s.sess 0).writes != []) &&
     (let s : Device := (let z : Device := queued [({ (fetched 0x0A 1 (le 4 0) 5) with started := true })]; (({ z with flow := { z.flow with sessions := [(0, { state := 1, hoop := 0, tpb := 16, record := 64, blist := 0x2000, blocks := 1, maxlen := 64, prov := 17, committed := 2, handle := 5, writes := [] })] } }.wr Reg.HOOP_KVPOOL_HBM_SEG 0 1).wr Reg.HOOP_SESSIONS_COUNT 0 1).wr Reg.HOOP_KVFREE_HBM_FREE 0 0);
       let e : Entry := ({ (fetched 0x0A 1 (le 4 0) 5) with started := true }); s.live &&
       (s.waiters (fun _ _ => true) 0x09).filter (fun y => fieldLe y.2.bytes 8 4 == 0) ++ (s.waiters (fun _ _ => true) 0x0A).filter (fun y => fieldLe y.2.bytes 8 4 == 0) == [(0, e)] &&
       (s.sess 0).writes == [] && s.settleCheck 0 0 0 == none) &&
     (let s : Device := (let z : Device := queued [({ (fetched 0x0A 1 (le 4 0) 5) with started := true })]; (({ z with flow := { z.flow with sessions := [(0, { state := 3, hoop := 0, tpb := 16, record := 64, blist := 0x2000, blocks := 1, maxlen := 64, prov := 17, committed := 2, handle := 5, writes := [] })] } }.wr Reg.HOOP_KVPOOL_HBM_SEG 0 1).wr Reg.HOOP_SESSIONS_COUNT 0 1).wr Reg.HOOP_KVFREE_HBM_FREE 0 0);
       let e : Entry := ({ (fetched 0x0A 1 (le 4 0) 5) with started := true }); s.live &&
       (s.waiters (fun _ _ => true) 0x09).filter (fun y => fieldLe y.2.bytes 8 4 == 0) ++ (s.waiters (fun _ _ => true) 0x0A).filter (fun y => fieldLe y.2.bytes 8 4 == 0) == [(0, e)] &&
       (s.sess 0).writes == [] && s.settleCheck 0 0 0 == some 0xA) &&
     (let s : Device := (let z : Device := queued [({ (fetched 0x09 1 (le 4 0 ++ le 4 16) 5) with started := true })]; (({ z with flow := { z.flow with sessions := [(0, { state := 1, hoop := 0, tpb := 16, record := 64, blist := 0x2000, blocks := 1, maxlen := 64, prov := 17, committed := 2, handle := 5, writes := [] })] } }.wr Reg.HOOP_KVPOOL_HBM_SEG 0 1).wr Reg.HOOP_SESSIONS_COUNT 0 1).wr Reg.HOOP_KVFREE_HBM_FREE 0 0);
       let e : Entry := ({ (fetched 0x09 1 (le 4 0 ++ le 4 16) 5) with started := true }); s.live &&
       (s.waiters (fun _ _ => true) 0x09).filter (fun y => fieldLe y.2.bytes 8 4 == 0) ++ (s.waiters (fun _ _ => true) 0x0A).filter (fun y => fieldLe y.2.bytes 8 4 == 0) == [(0, e)] &&
       (s.sess 0).writes == [] && s.settleCheck 0 0 16 == some 3) &&
     (let s : Device := (let z : Device := queued [({ (fetched 0x09 1 (le 4 0 ++ le 4 15) 5) with started := true })]; (({ z with flow := { z.flow with sessions := [(0, { state := 1, hoop := 0, tpb := 16, record := 64, blist := 0x2000, blocks := 1, maxlen := 64, prov := 17, committed := 2, handle := 5, writes := [] })] } }.wr Reg.HOOP_KVPOOL_HBM_SEG 0 1).wr Reg.HOOP_SESSIONS_COUNT 0 1).wr Reg.HOOP_KVFREE_HBM_FREE 0 0);
       let e : Entry := ({ (fetched 0x09 1 (le 4 0 ++ le 4 15) 5) with started := true }); s.live &&
       (s.waiters (fun _ _ => true) 0x09).filter (fun y => fieldLe y.2.bytes 8 4 == 0) ++ (s.waiters (fun _ _ => true) 0x0A).filter (fun y => fieldLe y.2.bytes 8 4 == 0) == [(0, e)] &&
       (s.sess 0).writes == [] && s.settleCheck 0 0 15 == none &&
       (let need := (s.sess 0).needs ((s.sess 0).committed + 15); need > 0 && (s.rd Reg.HOOP_STATUS_OVER_QUOTA 0 == 1 || s.rd Reg.HOOP_KVFREE_HBM_FREE 0 < need))) &&
     (let s : Device := (let z : Device := queued [({ (fetched 0x09 1 (le 4 0 ++ le 4 6) 5) with started := true })]; (({ z with flow := { z.flow with sessions := [(0, { state := 1, hoop := 0, tpb := 16, record := 64, blist := 0x2000, blocks := 1, maxlen := 64, prov := 17, committed := 2, handle := 5, writes := [] })] } }.wr Reg.HOOP_KVPOOL_HBM_SEG 0 1).wr Reg.HOOP_SESSIONS_COUNT 0 1).wr Reg.HOOP_KVFREE_HBM_FREE 0 3);
       let e : Entry := ({ (fetched 0x09 1 (le 4 0 ++ le 4 6) 5) with started := true }); s.live &&
       (s.waiters (fun _ _ => true) 0x09).filter (fun y => fieldLe y.2.bytes 8 4 == 0) ++ (s.waiters (fun _ _ => true) 0x0A).filter (fun y => fieldLe y.2.bytes 8 4 == 0) == [(0, e)] &&
       (s.sess 0).writes == [] && s.settleCheck 0 0 6 == none &&
       !(let need := (s.sess 0).needs ((s.sess 0).committed + 6); need > 0 && (s.rd Reg.HOOP_STATUS_OVER_QUOTA 0 == 1 || s.rd Reg.HOOP_KVFREE_HBM_FREE 0 < need))) &&
     (let s : Device := (let z : Device := queued [(fetched 0 0 [])]; (({ z with flow := { z.flow with sessions := [(0, { state := 1, hoop := 0, tpb := 16, record := 64, blist := 0x2000, blocks := 1, maxlen := 64, prov := 17, committed := 2, handle := 5, writes := [] })] } }.wr Reg.HOOP_KVPOOL_HBM_SEG 0 1).wr Reg.HOOP_SESSIONS_COUNT 0 1).wr Reg.HOOP_KVFREE_HBM_FREE 0 0);
       let e : Entry := (fetched 0 0 []); s.live && !(s.sess 0).rel) &&
     (let s : Device := (let z : Device := queued [(fetched 0 0 [])]; (({ z with flow := { z.flow with sessions := [(0, { state := 1, hoop := 0, tpb := 16, record := 64, blist := 0x2000, blocks := 1, maxlen := 64, prov := 17, committed := 2, handle := 5, writes := [1], rel := true })] } }.wr Reg.HOOP_KVPOOL_HBM_SEG 0 1).wr Reg.HOOP_SESSIONS_COUNT 0 1).wr Reg.HOOP_KVFREE_HBM_FREE 0 0);
       let e : Entry := (fetched 0 0 []); s.live && s.sessBusy 0) &&
     (let s : Device := (let z : Device := queued [(fetched 0 0 [])]; (({ z with flow := { z.flow with sessions := [(0, { state := 2, hoop := 0, tpb := 16, record := 64, blist := 0x2000, blocks := 1, maxlen := 64, prov := 17, committed := 2, handle := 5, writes := [], rel := true })] } }.wr Reg.HOOP_KVPOOL_HBM_SEG 0 1).wr Reg.HOOP_SESSIONS_COUNT 0 1).wr Reg.HOOP_KVFREE_HBM_FREE 0 0);
       let e : Entry := (fetched 0 0 []); s.live && (s.sess 0).rel && !s.sessBusy 0 && (s.sess 0).state == 2) &&
     (let s : Device := (let z : Device := queued [(fetched 0 0 [])]; (({ z with flow := { z.flow with sessions := [(0, { state := 3, hoop := 0, tpb := 16, record := 64, blist := 0x2000, blocks := 1, maxlen := 64, prov := 17, committed := 2, handle := 5, writes := [], rel := true })] } }.wr Reg.HOOP_KVPOOL_HBM_SEG 0 1).wr Reg.HOOP_SESSIONS_COUNT 0 1).wr Reg.HOOP_KVFREE_HBM_FREE 0 0);
       let e : Entry := (fetched 0 0 []); s.live && (s.sess 0).rel && !s.sessBusy 0 && (s.sess 0).state == 3) &&
     (let s : Device := (queued [(fetched 0x0B 0 (le 1 3 ++ le 1 4))]); let e := (fetched 0x0B 0 (le 1 3 ++ le 1 4)); let d := s.begin_ 0 7;
       let h := (d.queue 0).hoop; s.startable 0 0x0B == some e && (!s.flipRefused 0 3 4)) &&
     (let s : Device := queued [(fetched 0x0B 0 (le 1 3 ++ le 1 4))]; let e : Entry := (fetched 0x0B 0 (le 1 3 ++ le 1 4));
       entOp e.bytes == 0x0B && s.live) &&
     (let s : Device := (queued [(fetched 0x0B 0 (le 1 3 ++ le 1 16))]); let e := (fetched 0x0B 0 (le 1 3 ++ le 1 16)); let d := s.begin_ 0 7;
       let h := (d.queue 0).hoop; s.startable 0 0x0B == some e && (s.flipRefused 0 3 16)) &&
     (let s : Device := (queued [(fetched 0x0C 0 (le 8 (2 ^ 44 + 0xB000) ++ le 4 1))]);
       let e := (fetched 0x0C 0 (le 8 (2 ^ 44 + 0xB000) ++ le 4 1)); let d := s.begin_ 0 7; let h := (d.queue 0).hoop;
       s.startable 0 0x0C == some e && (fieldLe e.bytes 8 8 % 64 == 0 && fieldLe e.bytes 16 4 == 1)) &&
     (let s : Device := (queued [(fetched 0x0C 0 (le 8 (2 ^ 44 + 0xB000) ++ le 4 65536))]);
       let e := (fetched 0x0C 0 (le 8 (2 ^ 44 + 0xB000) ++ le 4 65536)); let d := s.begin_ 0 7; let h := (d.queue 0).hoop;
       s.startable 0 0x0C == some e && (fieldLe e.bytes 8 8 % 64 == 0 && fieldLe e.bytes 16 4 == 65536)) &&
     (let s : Device := (queued [(fetched 0x0C 0 (le 8 (2 ^ 44 + 0xB008) ++ le 4 1))]);
       let e := (fetched 0x0C 0 (le 8 (2 ^ 44 + 0xB008) ++ le 4 1)); let d := s.begin_ 0 7; let h := (d.queue 0).hoop;
       s.startable 0 0x0C == some e && (fieldLe e.bytes 8 8 % 64 != 0 || fieldLe e.bytes 16 4 == 0 || 65536 < fieldLe e.bytes 16 4)) &&
     (let s : Device := (queued [(fetched 0x0C 0 (le 8 (2 ^ 44 + 0xB000) ++ le 4 0))]);
       let e := (fetched 0x0C 0 (le 8 (2 ^ 44 + 0xB000) ++ le 4 0)); let d := s.begin_ 0 7; let h := (d.queue 0).hoop;
       s.startable 0 0x0C == some e && (fieldLe e.bytes 8 8 % 64 != 0 || fieldLe e.bytes 16 4 == 0 || 65536 < fieldLe e.bytes 16 4)) &&
     (let s : Device := (queued [(fetched 0x0C 0 (le 8 (2 ^ 44 + 0xB000) ++ le 4 65537))]);
       let e := (fetched 0x0C 0 (le 8 (2 ^ 44 + 0xB000) ++ le 4 65537)); let d := s.begin_ 0 7; let h := (d.queue 0).hoop;
       s.startable 0 0x0C == some e && (fieldLe e.bytes 8 8 % 64 != 0 || fieldLe e.bytes 16 4 == 0 || 65536 < fieldLe e.bytes 16 4)) &&
     (let s : Device := ((queued []).wr Reg.HOOP_FLIP_APPLIED 0 1); s.live && s.hoopState 0 != 0 && !s.oldBound 0 &&
       s.rd Reg.HOOP_FLIP_DRAINED 0 != s.rd Reg.HOOP_FLIP_APPLIED 0) &&
     (((queued []).live && (queued []).rd Reg.HOOP_FLIP_DRAINED 0 == (queued []).rd Reg.HOOP_FLIP_APPLIED 0) : Bool) &&
     (let s : Device := ((let z : Device := ((let z : Device := queued [(fetched 0x09 1 (le 4 0 ++ le 4 6) 5)]; (({ z with flow := { z.flow with sessions := [(0, { state := 1, hoop := 0, tpb := 16, record := 64, blist := 0x2000, blocks := 1, maxlen := 64, prov := 17, committed := 2, handle := 5, writes := [] })] } }.wr Reg.HOOP_KVPOOL_HBM_SEG 0 1).wr Reg.HOOP_SESSIONS_COUNT 0 1).wr Reg.HOOP_KVFREE_HBM_FREE 0 3)).wr Reg.HOOP_KVPOOL_HBM_BLOCKS 0 16; { z with bad := (match (z.hbmPool 0).place (z.bitmapOff 0 false 0) with | .dev a => [a / 32] | _ => []) }));
       let e := (fetched 0x09 1 (le 4 0 ++ le 4 6) 5); let d := s.begin_ 0 7; let h := (d.queue 0).hoop; let d := d.sessMet h 0;
       s.startable 0 0x09 == some e &&
       (!s.settling 0 && d.settleCheck h 0 6 == none && (d.sess 0).writes == [] && !(let need := (d.sess 0).needs ((d.sess 0).committed + 6); need > 0 && (d.rd Reg.HOOP_STATUS_OVER_QUOTA 0 == 1 || d.rd Reg.HOOP_KVFREE_HBM_FREE 0 < need)) && (match d.growSess 0 ((d.sess 0).needs ((d.sess 0).committed + 6)) with | .error _ => true | _ => false))) &&
     (let s : Device := (let z : Device := ((let z : Device := queued [({ (fetched 0x09 1 (le 4 0 ++ le 4 6) 5) with started := true })]; (({ z with flow := { z.flow with sessions := [(0, { state := 1, hoop := 0, tpb := 16, record := 64, blist := 0x2000, blocks := 1, maxlen := 64, prov := 17, committed := 2, handle := 5, writes := [] })] } }.wr Reg.HOOP_KVPOOL_HBM_SEG 0 1).wr Reg.HOOP_SESSIONS_COUNT 0 1).wr Reg.HOOP_KVFREE_HBM_FREE 0 3)).wr Reg.HOOP_KVPOOL_HBM_BLOCKS 0 16; { z with bad := (match (z.hbmPool 0).place (z.bitmapOff 0 false 0) with | .dev a => [a / 32] | _ => []) });
       let e : Entry := ({ (fetched 0x09 1 (le 4 0 ++ le 4 6) 5) with started := true }); s.live &&
       (s.waiters (fun _ _ => true) 0x09).filter (fun y => fieldLe y.2.bytes 8 4 == 0) ++ (s.waiters (fun _ _ => true) 0x0A).filter (fun y => fieldLe y.2.bytes 8 4 == 0) == [(0, e)] &&
       (s.sess 0).writes == [] && s.settleCheck 0 0 6 == none &&
       !(let need := (s.sess 0).needs ((s.sess 0).committed + 6); need > 0 && (s.rd Reg.HOOP_STATUS_OVER_QUOTA 0 == 1 || s.rd Reg.HOOP_KVFREE_HBM_FREE 0 < need)) &&
       (match s.growSess 0 ((s.sess 0).needs ((s.sess 0).committed + 6)) with | .error _ => true | _ => false)) &&
     (let s : Device := ((let z : Device := queued [(fetched 0x09 1 (le 4 0 ++ le 4 6) 5)]; (({ z with flow := { z.flow with sessions := [(0, { state := 1, hoop := 0, tpb := 16, record := 64, blist := 0x2000, blocks := 1, maxlen := 64, prov := 17, committed := 2, handle := 5, writes := [], err := true })] } }.wr Reg.HOOP_KVPOOL_HBM_SEG 0 1).wr Reg.HOOP_SESSIONS_COUNT 0 1).wr Reg.HOOP_KVFREE_HBM_FREE 0 0));
       let e := (fetched 0x09 1 (le 4 0 ++ le 4 6) 5); let d := s.begin_ 0 7; let h := (d.queue 0).hoop; let d := d.sessMet h 0;
       s.startable 0 0x09 == some e && (!s.settling 0 && d.settleCheck h 0 6 == some 0xA && (s.sess 0).err))) = true := by decide +kernel

set_option maxRecDepth 100000 in
theorem witness_SlotsAndNodes :
    ((let d : Device := (let d : Device := queued []; let d : Device := ((d.writeVa 0 (2 ^ 44 + 0x8000) (entB 0x00 0 [])).getD {}).modQueue 0 (fun x => { x with ring := 2 ^ 44 + 0x8000, rptr := 0 }); d.modQueue 0 (fun x => { x with stopFetch := true }));
       d.live && (d.queue 0).stopFetch) &&
     (let d : Device := (queued []); d.live && (d.slot 0).queue == 0 && (d.slot 0).state == 1 && (d.queue 0).state == 2 &&
       !(d.queue 0).stopFetch && d.hoopState 0 == 1 && d.admits 0 0 && d.fetchRoom (d.queue 0) && (d.queue 0).chain.isNone &&
       (d.queue 0).rptr == (d.slot 0).cached) &&
     (let d : Device := (let d : Device := queued []; let d : Device := ((d.writeVa 0 (2 ^ 44 + 0x8000) (entB 0x00 0 [])).getD {}).modQueue 0 (fun x => { x with ring := 2 ^ 44 + 0x8000, rptr := 0 }); { d with boot := { d.boot with waits := [⟨{ ring := 0 }, 0x20, 1, 0, 1, []⟩] } });
       d.live && (d.slot 0).queue == 0 && (d.slot 0).state == 1 && (d.queue 0).state == 2 && !(d.queue 0).stopFetch &&
       d.hoopState 0 == 1 && d.admits 0 0 && d.fetchRoom (d.queue 0) && (d.queue 0).rptr != (d.slot 0).cached && d.segClosed 0 1) &&
     (let d : Device := (let d : Device := queued []; let d : Device := ((d.writeVa 0 (2 ^ 44 + 0x8000) (entB 0x00 0 [])).getD {}).modQueue 0 (fun x => { x with ring := 2 ^ 44 + 0x8000, rptr := 0 }); d);
       d.live && (d.slot 0).queue == 0 && (d.slot 0).state == 1 && (d.queue 0).state == 2 && !(d.queue 0).stopFetch &&
       d.hoopState 0 == 1 && d.admits 0 0 && d.fetchRoom (d.queue 0) && (d.queue 0).rptr != (d.slot 0).cached && !d.segClosed 0 1 &&
       (match d.readVa 0 (2 ^ 44 + 0x8000) 64 with | .ok b => b == entB 0 0 [] | _ => false)) &&
     (let d : Device := (let d : Device := queued []; let d : Device := ((d.writeVa 0 (2 ^ 44 + 0x8000) (entB 0x00 0 [])).getD {}).modQueue 0 (fun x => { x with ring := 2 ^ 44 + 0x8000, chain := some (2 ^ 44 + 0x8000, 2, 0) }); d);
       d.live && (d.slot 0).queue == 0 && (d.slot 0).state == 1 && (d.queue 0).state == 2 && !(d.queue 0).stopFetch &&
       d.hoopState 0 == 1 && d.admits 0 0 && d.fetchRoom (d.queue 0) && (d.queue 0).chain.isSome && !d.segClosed 0 1 &&
       (match d.readVa 0 (2 ^ 44 + 0x8000) 64 with | .ok b => b == entB 0 0 [] | _ => false)) &&
     (let d : Device := (let d : Device := queued []; let d : Device := ((d.writeVa 0 (2 ^ 44 + 0x8000) (entB 0x00 0 [])).getD {}).modQueue 0 (fun x => { x with ring := 2 ^ 45, rptr := 0 }); d);
       d.live && (d.slot 0).queue == 0 && (d.slot 0).state == 1 && (d.queue 0).state == 2 && !(d.queue 0).stopFetch &&
       d.hoopState 0 == 1 && d.admits 0 0 && d.fetchRoom (d.queue 0) && (d.queue 0).rptr != (d.slot 0).cached && !d.segClosed 0 2 &&
       (match d.readVa 0 (2 ^ 45) 64 with | .error 0xB => true | _ => false)) &&
     (let d : Device := (let d : Device := queued []; let d : Device := ((d.writeVa 0 (2 ^ 44 + 0x8000) (entB 0x00 0 [])).getD {}).modQueue 0 (fun x => { x with ring := 0x8000, rptr := 0 }); d);
       d.live && (d.slot 0).queue == 0 && (d.slot 0).state == 1 && (d.queue 0).state == 2 && !(d.queue 0).stopFetch &&
       d.hoopState 0 == 1 && d.admits 0 0 && d.fetchRoom (d.queue 0) && (d.queue 0).rptr != (d.slot 0).cached && !d.segClosed 0 0 &&
       (match d.readVa 0 0x8000 64 with | .error e => e == hostTier | _ => false) && (d.queue 0).pre.isEmpty && d.flow.reads.isEmpty &&
       !d.mayMaster (d.ownerFn 0)) &&
     (let d : Device := (let d : Device := queued []; let d : Device := ((d.writeVa 0 (2 ^ 44 + 0x8000) (entB 0x00 0 [])).getD {}).modQueue 0 (fun x => { x with ring := 0x8000, rptr := 0 }); { d with pcie := { d.pcie with up := true, crs := false, busMaster := 1 } });
       d.live && (d.slot 0).queue == 0 && (d.slot 0).state == 1 && (d.queue 0).state == 2 && !(d.queue 0).stopFetch &&
       d.hoopState 0 == 1 && d.admits 0 0 && d.fetchRoom (d.queue 0) && (d.queue 0).rptr != (d.slot 0).cached && !d.segClosed 0 0 &&
       (match d.readVa 0 0x8000 64 with | .error e => e == hostTier | _ => false) && (d.queue 0).pre.isEmpty && d.flow.reads.isEmpty &&
       d.mayMaster (d.ownerFn 0)) &&
     (let d : Device := (let d : Device := queued []; let d : Device := ((d.writeVa 0 (2 ^ 44 + 0x8000) (entB 0x00 0 [])).getD {}).modQueue 0 (fun x => { x with ring := 0x8000, rptr := 0 }); { d with flow := { d.flow with reads := [(3, { kind := 6, a := 0, b := 0x8000, c := 0, fn := 0, addr := 0 })] } });
       d.live && (d.slot 0).queue == 0 && (d.slot 0).state == 1 && (d.queue 0).state == 2 && !(d.queue 0).stopFetch &&
       d.hoopState 0 == 1 && d.admits 0 0 && d.fetchRoom (d.queue 0) && (d.queue 0).rptr != (d.slot 0).cached && !d.segClosed 0 0 &&
       (match d.readVa 0 0x8000 64 with | .error e => e == hostTier | _ => false) && (d.queue 0).pre.isEmpty && !d.flow.reads.isEmpty) &&
     (let d : Device := (let d : Device := queued []; let d : Device := ((d.writeVa 0 (2 ^ 44 + 0x8000) (entB 0x00 0 [])).getD {}).modQueue 0 (fun x => { x with ring := 0x8000, rptr := 0, pre := [(0x8000, List.replicate 0 1)] }); d);
       d.live && (d.slot 0).queue == 0 && (d.slot 0).state == 1 && (d.queue 0).state == 2 && !(d.queue 0).stopFetch &&
       d.hoopState 0 == 1 && d.admits 0 0 && d.fetchRoom (d.queue 0) && (d.queue 0).rptr != (d.slot 0).cached && !d.segClosed 0 0 &&
       (match d.readVa 0 0x8000 64 with | .error e => e == hostTier | _ => false) &&
       (d.queue 0).pre.find? (fun y => y.1 == 0x8000) == some (0x8000, List.replicate 0 1)) &&
     (let d : Device := (let d : Device := queued []; let d : Device := ((d.writeVa 0 (2 ^ 44 + 0x8000) (entB 0x00 0 [])).getD {}).modQueue 0 (fun x => { x with ring := 0x8000, rptr := 0, pre := [(0x8000, List.replicate 64 1)] }); d);
       d.live && (d.slot 0).queue == 0 && (d.slot 0).state == 1 && (d.queue 0).state == 2 && !(d.queue 0).stopFetch &&
       d.hoopState 0 == 1 && d.admits 0 0 && d.fetchRoom (d.queue 0) && (d.queue 0).rptr != (d.slot 0).cached && !d.segClosed 0 0 &&
       (match d.readVa 0 0x8000 64 with | .error e => e == hostTier | _ => false) &&
       (d.queue 0).pre.find? (fun y => y.1 == 0x8000) == some (0x8000, List.replicate 64 1)) &&
     (let d : Device := (let d := ready; { d with work := { d.work with queues := [(0, { ringQ [] with state := 1, rptr := 0 })] } }); d.live &&
       d.work.slots.isEmpty && d.candidates == [0] && d.slotFor 0 == some 0 && (d.mapTo 0 0).candidates.isEmpty) &&
     (let d : Device := ready; d.live && d.candidates.isEmpty && d.work.slots.isEmpty) &&
     (let d : Device := (let d := (queued []).modQueue 0 (fun x => { x with rung := true, shadow := 5 }); d.setSlot 0 { queue := 0, state := 3, cached := 1 });
       d.live && (d.slot 0).state ≥ 3 && (d.queue 0).rung && (d.queue 0).state == 2 && d.hoopState 0 == 1) &&
     (let d : Device := (queued []); d.live && (d.queue 7).state == 0) &&
     (let d : Device := (queued []); d.live && (d.queue 0).state != 0 && d.hoopState 0 < 3 &&
       Nat.max (d.perturbDelay 4 0) (d.ringBehind 0) == 0 &&
       !(ringDiff 32 65 (d.queue 0).rptr > 2 ^ (d.queue 0).sizeLog2 || ringDiff 32 65 (d.queue 0).shadow ≥ 2 ^ 31)) &&
     (let d : Device := (queued []); d.live && (d.queue 0).state != 0 && d.hoopState 0 < 3 &&
       Nat.max (d.perturbDelay 4 0) (d.ringBehind 0) == 0 &&
       (ringDiff 32 66 (d.queue 0).rptr > 2 ^ (d.queue 0).sizeLog2 || ringDiff 32 66 (d.queue 0).shadow ≥ 2 ^ 31)) &&
     (let d : Device := (queued []); d.live && (d.queue 0).state != 0 && d.hoopState 0 < 3 &&
       Nat.max (d.perturbDelay 4 0) (d.ringBehind 0) == 0 &&
       (ringDiff 32 0x80000002 (d.queue 0).rptr > 2 ^ (d.queue 0).sizeLog2 || ringDiff 32 0x80000002 (d.queue 0).shadow ≥ 2 ^ 31)) &&
     (let d : Device := ((((queued []).wr Reg.PERTURB_CFG_TARGET 0 4).wr Reg.PERTURB_CFG_DELAY 0 12)); d.live && (d.queue 0).state != 0 &&
       d.hoopState 0 < 3 && Nat.max (d.perturbDelay 4 0) (d.ringBehind 0) != 0) &&
     (let d : Device := (queued [{ fetched 0x00 0 [] with started := true, done := some 0 }]); d.live &&
       (match (d.queue 0).entries with | [e] => d.mayRetire (d.queue 0) 0 e | _ => false)) &&
     (let d : Device := (queued [fetched 0x00 0 []]); d.live &&
       (match (d.queue 0).entries with | [e] => !d.mayRetire (d.queue 0) 0 e | _ => false)) &&
     (let d : Device := (queued []); d.live && (d.queue 0).entries[0]?.isNone) &&
     (let d : Device := (let d := (queued []).modQueue 0 (fun x => { x with state := 2, recs := [⟨3, 2 ^ 44 + 0xA000, List.replicate 32 1, true, true, 0, 5, some 3⟩] }); { d with flow := { d.flow with reads := [(3, { kind := 1, a := 0, b := 0, c := 0, fn := 0, addr := 0 })] } });
       d.live && (d.queue 0).recs.findSome? (fun r => r.tag) == some 3 && d.flow.reads.length == 1) &&
     (let d : Device := (let d := (queued []).modQueue 0 (fun x => { x with state := 2, recs := [⟨3, 2 ^ 44 + 0xA000, List.replicate 32 1, false, true, 0, 5, some 3⟩] }); { d with flow := { d.flow with reads := [] } });
       d.live && (d.queue 0).recs.findSome? (fun r => r.tag) == some 3) &&
     (let d : Device := (let d := (queued []).modQueue 0 (fun x => { x with state := 3, recs := [⟨3, 2 ^ 44 + 0xA000, List.replicate 32 1, true, true, 0, 5, some 3⟩] }); { d with flow := { d.flow with reads := [] } });
       d.live && (d.queue 0).recs.findSome? (fun r => r.tag) == some 3) &&
     (let d : Device := (queued []); d.live && ((d.queue 0).recs.findSome? (fun r => r.tag)).isNone) &&
     (let d : Device := (queued []); d.live && d.wheyNext.isNone) &&
     (let d : Device := (let z := queued [{ fetched 0x04 0 (le 8 (2 ^ 44 + 0x1100) ++ le 2 1) with started := true, result := 5 }]; let z := z.setHx 0 { whey := [⟨0, 7, true, (le 2 0 ++ le 2 8 ++ le 4 0 ++ le 8 (0) ++ le 8 (2 ^ 44 + 0x9000) ++ le 8 0 ++ le 8 0x1122334455667788 ++ le 24 0)⟩] }; z);
       let w : Whey := ⟨0, 7, true, (le 2 0 ++ le 2 8 ++ le 4 0 ++ le 8 (0) ++ le 8 (2 ^ 44 + 0x9000) ++ le 8 0 ++ le 8 0x1122334455667788 ++ le 24 0)⟩;
       let d1 : Device := { d with work := { d.work with lastWhey := 0 } }; let r := d1.wheySource w;
       let va := fieldLe ((le 2 0 ++ le 2 8 ++ le 4 0 ++ le 8 (0) ++ le 8 (2 ^ 44 + 0x9000) ++ le 8 0 ++ le 8 0x1122334455667788 ++ le 24 0)) 16 8;
       d.live && d.wheyNext == some 0 && (match r.2 with | .error 3 => true | _ => false)) &&
     (let d : Device := (let z := queued [{ fetched 0x04 0 (le 8 (2 ^ 44 + 0x1100) ++ le 2 1) with started := true, result := 5 }]; let z := z.setHx 0 { whey := [⟨0, 7, true, (le 2 1 ++ le 2 8 ++ le 4 0 ++ le 8 (0x1000) ++ le 8 (2 ^ 44 + 0x9000) ++ le 8 0 ++ le 8 0x1122334455667788 ++ le 24 0)⟩] }; { z with pcie := { z.pcie with up := true, crs := false, busMaster := 1 } });
       let w : Whey := ⟨0, 7, true, (le 2 1 ++ le 2 8 ++ le 4 0 ++ le 8 (0x1000) ++ le 8 (2 ^ 44 + 0x9000) ++ le 8 0 ++ le 8 0x1122334455667788 ++ le 24 0)⟩;
       let d1 : Device := { d with work := { d.work with lastWhey := 0 } }; let r := d1.wheySource w;
       let va := fieldLe ((le 2 1 ++ le 2 8 ++ le 4 0 ++ le 8 (0x1000) ++ le 8 (2 ^ 44 + 0x9000) ++ le 8 0 ++ le 8 0x1122334455667788 ++ le 24 0)) 16 8;
       d.live && d.wheyNext == some 0 && (match r.2 with | .ok none => true | _ => false)) &&
     (let d : Device := (let z := queued [{ fetched 0x04 0 (le 8 (2 ^ 44 + 0x1100) ++ le 2 1) with started := true, result := 5 }]; let z := z.setHx 0 { whey := [⟨0, 7, true, wheyD⟩] }; { z with boot := { z.boot with waits := [⟨{ ring := 0 }, 0x20, 1, 0, 1, []⟩] } });
       let w : Whey := ⟨0, 7, true, wheyD⟩; let d1 : Device := { d with work := { d.work with lastWhey := 0 } }; let r := d1.wheySource w;
       let va := fieldLe (wheyD) 16 8; d.live && d.wheyNext == some 0 && (match r.2 with | .ok (some b) => r.1.segClosed 0 1 | _ => false)) &&
     (let d : Device := (let z := queued [{ fetched 0x04 0 (le 8 (2 ^ 44 + 0x1100) ++ le 2 1) with started := true, result := 5 }]; let z := z.setHx 0 { whey := [⟨0, 7, true, (le 2 3 ++ le 2 8 ++ le 4 0 ++ le 8 (0) ++ le 8 (2 ^ 45) ++ le 8 0 ++ le 8 0x1122334455667788 ++ le 24 0)⟩] }; z);
       let w : Whey := ⟨0, 7, true, (le 2 3 ++ le 2 8 ++ le 4 0 ++ le 8 (0) ++ le 8 (2 ^ 45) ++ le 8 0 ++ le 8 0x1122334455667788 ++ le 24 0)⟩;
       let d1 : Device := { d with work := { d.work with lastWhey := 0 } }; let r := d1.wheySource w;
       let va := fieldLe ((le 2 3 ++ le 2 8 ++ le 4 0 ++ le 8 (0) ++ le 8 (2 ^ 45) ++ le 8 0 ++ le 8 0x1122334455667788 ++ le 24 0)) 16 8;
       d.live && d.wheyNext == some 0 &&
       (match r.2 with | .ok (some b) => !r.1.segClosed 0 2 && (match r.1.storeVa 0 0 va b with | .error 0xB => true | _ => false) | _ => false)) &&
     (let d : Device := (let z := queued [{ fetched 0x04 0 (le 8 (2 ^ 44 + 0x1100) ++ le 2 1) with started := true, result := 5 }]; let z := z.setHx 0 { whey := [⟨0, 7, true, wheyD⟩] }; { z with bad := [1] });
       let w : Whey := ⟨0, 7, true, wheyD⟩; let d1 : Device := { d with work := { d.work with lastWhey := 0 } }; let r := d1.wheySource w;
       let va := fieldLe (wheyD) 16 8; d.live && d.wheyNext == some 0 &&
       (match r.2 with | .ok (some b) => !r.1.segClosed 0 1 && (match r.1.storeVa 0 0 va b with | .error 0xA => true | _ => false) | _ => false)) &&
     (let d : Device := (let z := queued [{ fetched 0x04 0 (le 8 (2 ^ 44 + 0x1100) ++ le 2 1) with started := true, result := 5 }]; let z := z.setHx 0 { whey := [⟨0, 7, true, wheyD⟩] }; z);
       let w : Whey := ⟨0, 7, true, wheyD⟩; let d1 : Device := { d with work := { d.work with lastWhey := 0 } }; let r := d1.wheySource w;
       let va := fieldLe (wheyD) 16 8; d.live && d.wheyNext == some 0 &&
       (match r.2 with | .ok (some b) => !r.1.segClosed 0 1 && (match r.1.storeVa 0 0 va b with | .ok _ => true | _ => false) | _ => false)) &&
     (let d : Device := (let z := queued [{ fetched 0x04 0 (le 8 (2 ^ 44 + 0x1100) ++ le 2 1) with started := true, result := 5 }]; let z := z.setHx 0 { whey := [⟨0, 7, false, wheyD⟩] }; z);
       let w : Whey := ⟨0, 7, false, wheyD⟩; let d1 : Device := { d with work := { d.work with lastWhey := 0 } }; let r := d1.wheySource w;
       let va := fieldLe (wheyD) 16 8; d.live && d.wheyNext == some 0 &&
       (match r.2 with | .ok (some b) => !r.1.segClosed 0 1 && (match r.1.storeVa 0 0 va b with | .ok _ => true | _ => false) | _ => false)) &&
     (let d : Device := (running ({ params := [], counter := 0, dispatch := 0, started := true, done := some 0, seen := false } : INode));
       d.live &&
       d.inst? 9 == some (inst ({ params := [], counter := 0, dispatch := 0, started := true, done := some 0, seen := false } : INode)) &&
       (d.rnode? (inst ({ params := [], counter := 0, dispatch := 0, started := true, done := some 0, seen := false } : INode)) 0).isSome) &&
     (let d : Device := (running ({ params := [], counter := 0, dispatch := 0, started := true, done := some 3, seen := false } : INode));
       d.live &&
       d.inst? 9 == some (inst ({ params := [], counter := 0, dispatch := 0, started := true, done := some 3, seen := false } : INode)) &&
       (d.rnode? (inst ({ params := [], counter := 0, dispatch := 0, started := true, done := some 3, seen := false } : INode)) 0).isSome) &&
     (let d : Device := (running ({ params := [], counter := 0, dispatch := 0, started := true, done := some 0, seen := true } : INode));
       d.live &&
       d.inst? 9 == some (inst ({ params := [], counter := 0, dispatch := 0, started := true, done := some 0, seen := true } : INode)) &&
       (d.rnode? (inst ({ params := [], counter := 0, dispatch := 0, started := true, done := some 0, seen := true } : INode)) 0).isSome) &&
     (let d : Device := (let d := queued []; { d with boot := { d.boot with held := [.write 0 0 [1]] } }); d.live && d.writesHeld)) = true := by decide +kernel

set_option maxRecDepth 100000 in
theorem witness_Blocks :
    ((let d : Device := ((queued []).wr Reg.PERTURB_CFG_TARGET 0 3 |>.wr Reg.PERTURB_CFG_DELAY 0 12); d.live && d.perturbDelay 3 0 != 0) &&
     (let d : Device := (let z := queued []; { z with cores := [(0, { kernel := some 5 })] }); d.live && d.perturbDelay 3 0 == 0 &&
       (d.core 0).kernel == some 5 && (d.kernel? 5).isNone) &&
     (let d : Device := (let z := waitingKernel kern [(0, { kernel := some 5 })]; { z with work := { z.work with credits := [] } }); d.live &&
       d.perturbDelay 3 0 == 0 && (d.core 0).kernel == some 5 && (match d.kernel? 5 with | some k => k.fault.isNone | none => false)) &&
     (let d : Device := (let z := waitingKernel { kern with fault := some (0, []) } [(0, { kernel := some 5 })]; { z with work := { z.work with credits := [] } });
       d.live && d.perturbDelay 3 0 == 0 && (d.core 0).kernel == some 5 &&
       (match d.kernel? 5 with | some k => k.fault.isSome | none => false)) &&
     (let d : Device := (let z := waitingKernel { kern with started := false } []; { z with work := { z.work with credits := [0] } }); d.live &&
       d.perturbDelay 3 0 == 0 && (d.core 0).kernel.isNone && d.work.credits.contains 0) &&
     (let d : Device := (let z := waitingKernel { kern with nextBlock := 2 } []; { z with work := { z.work with credits := [] } });
       let p := d.perturb 3 0; let p : Device := { p with work := { p.work with credits := [0] } }; d.live && d.perturbDelay 3 0 == 0 &&
       (d.core 0).kernel.isNone && d.work.credits == [] && (p.staggered 0).isNone && p.pickKernel 0 == none) &&
     (let d : Device := (let z := waitingKernel { kern with started := false } []; { z with work := { z.work with credits := [] } });
       let p := d.perturb 3 0; let p : Device := { p with work := { p.work with credits := [0] } }; d.live && d.perturbDelay 3 0 == 0 &&
       (d.core 0).kernel.isNone && d.work.credits == [] && (p.staggered 0).isNone &&
       (match p.pickKernel 0 with | some (5, k) => !p.staggers 0 k | _ => false)) &&
     (let d : Device := ((let z := waitingKernel { kern with given := [1] } []; { z with work := { z.work with credits := [] } }).wr Reg.DISP_CFG_STAGGER_FC 0 4);
       let p := d.perturb 3 0; let p : Device := { p with work := { p.work with credits := [0] } }; d.live && d.perturbDelay 3 0 == 0 &&
       (d.core 0).kernel.isNone && d.work.credits == [] && (p.staggered 0).isNone &&
       (match p.pickKernel 0 with | some (5, k) => p.staggers 0 k | _ => false)) &&
     (let d : Device := ((let z := waitingKernel { kern with given := [1] } [(0, { credit := some 5 })]; { z with work := { z.work with credits := [0] } }).wr Reg.DISP_CFG_STAGGER_FC 0 4);
       d.live && (d.core 0).kernel.isNone && (match d.staggered 0 with | some (5, _) => true | _ => false)) &&
     (let d : Device := (let z := waitingKernel { kern with started := false } []; { z with work := { z.work with credits := [] } }); d.live &&
       (d.staggered 0).isNone) &&
     (let d : Device := (let z := waitingKernel { kern with started := false } []; { z with work := { z.work with credits := [] } }); d.live &&
       (match d.kernel? 5 with | some k => (k.inst.isNone && (match k.take 0, (d.core 0).freePlace k.resident with | some (0, _), some 0 => ((d.core 0).takeEnts 0 k.code k.threads ((placeGroups k.groups ((List.range 4).map ((d.core 0).placesFree k))).mapIdx (fun g q => (g, q)))).isSome | _, _ => false)) | none => false)) &&
     (let d : Device := (let z := waitingKernel { kern with outstanding := 1 } [(0, { exited blk with blocks := [(0, blk)] })]; { z with work := { z.work with credits := [] } });
       d.live && (d.core 0).kernel == some 5 &&
       (match d.block? 0 0 with | some b => !(b.allExited && (Tab.vals b.handles).all (fun h => h.done) && b.gstOut.isEmpty && b.loads.isEmpty && !(d.core 0).upds.any (fun (x : Nat × UpdOp) => x.2.place == some 0)) && true | none => false)) &&
     (let d : Device := (let z := waitingKernel { kern with nextBlock := 2, outstanding := 1 } [(0, exited { blk with gstFail := some (0x15, 1, 2) })]; { z with work := { z.work with credits := [] } });
       d.live && (d.core 0).kernel == some 5 &&
       (match d.block? 0 0 with | some b => (b.allExited && (Tab.vals b.handles).all (fun h => h.done) && b.gstOut.isEmpty && b.loads.isEmpty && !(d.core 0).upds.any (fun (x : Nat × UpdOp) => x.2.place == some 0)) && b.lateFault.isSome | none => false)) &&
     (let d : Device := (let z := waitingKernel { kern with nextBlock := 1, outstanding := 1 } [(0, exited blk)]; { z with work := { z.work with credits := [] } });
       let n := ((d.ringCtl 0 0).dropBlock 0 0 0).modKernel 5 (fun k => { k with outstanding := k.outstanding - 1, retired := k.retired + 1 }) |>.freeIdle 5;
       d.live && (d.core 0).kernel == some 5 &&
       (match d.block? 0 0 with | some b => (b.allExited && (Tab.vals b.handles).all (fun h => h.done) && b.gstOut.isEmpty && b.loads.isEmpty && !(d.core 0).upds.any (fun (x : Nat × UpdOp) => x.2.place == some 0)) && b.lateFault.isNone | none => false) &&
       (match n.kernel? 5 with | some k => !k.spent | none => false)) &&
     (let d : Device := (let z := waitingKernel { kern with nextBlock := 2, outstanding := 2 } [(0, exited blk)]; { z with work := { z.work with credits := [] } });
       let n := ((d.ringCtl 0 0).dropBlock 0 0 0).modKernel 5 (fun k => { k with outstanding := k.outstanding - 1, retired := k.retired + 1 }) |>.freeIdle 5;
       d.live && (d.core 0).kernel == some 5 &&
       (match d.block? 0 0 with | some b => (b.allExited && (Tab.vals b.handles).all (fun h => h.done) && b.gstOut.isEmpty && b.loads.isEmpty && !(d.core 0).upds.any (fun (x : Nat × UpdOp) => x.2.place == some 0)) && b.lateFault.isNone | none => false) &&
       (match n.kernel? 5 with | some k => !k.spent | none => false)) &&
     (let d : Device := (let z := waitingKernel { kern with nextBlock := 2, outstanding := 1, early := true } [(0, exited blk)]; { z with work := { z.work with credits := [] } });
       let n := ((d.ringCtl 0 0).dropBlock 0 0 0).modKernel 5 (fun k => { k with outstanding := k.outstanding - 1, retired := k.retired + 1 }) |>.freeIdle 5;
       d.live && (d.core 0).kernel == some 5 &&
       (match d.block? 0 0 with | some b => (b.allExited && (Tab.vals b.handles).all (fun h => h.done) && b.gstOut.isEmpty && b.loads.isEmpty && !(d.core 0).upds.any (fun (x : Nat × UpdOp) => x.2.place == some 0)) && b.lateFault.isNone | none => false) &&
       (match n.kernel? 5 with | some k => k.spent && k.early | none => false)) &&
     (let d : Device := (let z := waitingKernel { kern with nextBlock := 2, outstanding := 1 } [(0, exited blk)]; { z with work := { z.work with credits := [] } });
       let n := ((d.ringCtl 0 0).dropBlock 0 0 0).modKernel 5 (fun k => { k with outstanding := k.outstanding - 1, retired := k.retired + 1 }) |>.freeIdle 5;
       d.live && (d.core 0).kernel == some 5 &&
       (match d.block? 0 0 with | some b => (b.allExited && (Tab.vals b.handles).all (fun h => h.done) && b.gstOut.isEmpty && b.loads.isEmpty && !(d.core 0).upds.any (fun (x : Nat × UpdOp) => x.2.place == some 0)) && b.lateFault.isNone | none => false) &&
       (match n.kernel? 5 with | some k => k.spent && !k.early | none => false)) &&
     (let d : Device := (waitingKernel kern [(0, { kernel := some 5, blocks := [(0, { blk with arrived := [(32, 3)], exited := [(0, 2 ^ 32 - 4)] })], ents := [(0, { place := 0, group := 0, mask := 3, pc := 0, park := .wait 1 })] })]);
       d.live && (match d.block? 0 0 with | some b => d.stranded 0 0 b | none => false)) &&
     (let d : Device := (waitingKernel kern [(0, { kernel := some 5, blocks := [(0, { blk with arrived := [(32, 3)], exited := [(0, 2 ^ 32 - 4)] })], ents := [(0, { place := 0, group := 0, mask := 3, pc := 0, park := .ready })] })]);
       d.live && (match d.block? 0 0 with | some b => !d.stranded 0 0 b | none => false)) &&
     (let d : Device := ((waitingKernel { kern with age := 9 } []).wr Reg.HOOP_CFG_WATCHDOG 0 9); d.live &&
       (match d.kernel? 5 with | some k => k.started && d.rd Reg.HOOP_CFG_WATCHDOG k.hoop ≤ k.age | none => false)) &&
     (let d : Device := ((waitingKernel { kern with age := 8 } []).wr Reg.HOOP_CFG_WATCHDOG 0 9); d.live &&
       (match d.kernel? 5 with | some k => !(k.started && d.rd Reg.HOOP_CFG_WATCHDOG k.hoop ≤ k.age) | none => false)) &&
     (let d : Device := (let z := queued [{ fetched 1 0 [] with started := true, done := some 2, fault := true }]; { z with work := { z.work with faulted := [(5, 0, { kern with age := 9, entry := 7 })] } }.wr Reg.HOOP_CFG_WATCHDOG 0 9);
       d.live && (d.kernel? 5).isNone &&
       (match d.work.faulted with | [(5, 0, k)] => (k.started && d.rd Reg.HOOP_CFG_WATCHDOG k.hoop ≤ k.age) | _ => false) &&
       d.clock.now == 0) &&
     (let d : Device := (let z := queued [{ fetched 1 0 [] with started := true, done := some 2, fault := true }]; { z with work := { z.work with faulted := [(5, 0, { kern with age := 8, entry := 7 })] } }.wr Reg.HOOP_CFG_WATCHDOG 0 9);
       d.live && (d.kernel? 5).isNone &&
       (match d.work.faulted with | [(5, 0, k)] => !(k.started && d.rd Reg.HOOP_CFG_WATCHDOG k.hoop ≤ k.age) | _ => false) &&
       d.clock.now == 0) &&
     (let d : Device := (let z := (let z := waitingKernel kern [(0, { kernel := some 5 })]; { z with work := { z.work with credits := [] } }); { z with wheel := { z.wheel with held := true } });
       d.live && d.perturbDelay 3 0 == 0 && (d.core 0).kernel == some 5 && d.wheel.held)) = true := by decide +kernel

set_option maxRecDepth 100000 in
theorem witness_Ticks :
    ((let d : Device := ready; d.wheel.period.isNone) &&
     (let d : Device := ({ ready with wheel := { ready.wheel with period := some (500, 3), rows := ready.wheel.rows ++ ready.wheel.rows } });
       d.wheel.period == some (500, 3) && 2 < 3) &&
     (let d : Device := (boardRole 2); d.live && d.role == 2) &&
     (let d : Device := ((boardRole 2).wr Reg.KLZ_ID_TIME_MASTER 0 1); d.live && d.role == 2 && d.rd Reg.KLZ_ID_TIME_MASTER == 1) &&
     (let d : Device := (boardRole 1); d.live && d.role != 2) &&
     (let d : Device := (let d := boardRole 1; d.setKlz { d.klz with srcs := [⟨3, 5, 0⟩], boardUp := some 0, lost := true }); d.live &&
       d.role == 1 && !d.klz.conflict && bestSrc d.klz.srcs == some ⟨3, 5, 0⟩) &&
     (let d : Device := (let d := boardRole 1; d.setKlz { d.klz with srcs := [⟨5, 5, 0⟩], boardUp := some 0, lost := true }); d.live &&
       d.role == 1 && !d.klz.conflict && bestSrc d.klz.srcs == some ⟨5, 5, 0⟩) &&
     (let d : Device := (let d := boardRole 1; d.setKlz { d.klz with ticked := true }); d.live && d.role == 1 && d.klz.ticked && !d.klz.lost &&
       d.klz.srcs.isEmpty) &&
     (let d : Device := (let d := boardRole 1; d.setKlz { d.klz with lost := true }); d.live && d.role == 1 && d.klz.lost) &&
     (let d : Device := (boardRole 1); d.live && d.role == 1 && d.rd Reg.KLZ_TICK_IN_TICK_IN_EN == 1 && d.klz.tickIn.isNone &&
       d.klz.srcs.isEmpty && !d.klz.conflict) &&
     (let d : Device := (let d := boardRole 1; d.setKlz { d.klz with srcs := [⟨3, 5, 0⟩] }); d.live && d.role == 1 &&
       d.rd Reg.KLZ_TICK_IN_TICK_IN_EN == 1 && d.klz.tickIn.isNone && d.klz.srcs.any (fun x => x.source != 5)) &&
     (let d : Device := ({ ready with wheel := { ready.wheel with rows := [⟨[(99, List.replicate 8 1), (255, List.replicate 8 2)]⟩] } });
       d.live && d.rd Reg.WHEEL_STATUS_SUBSLOT + 1 < d.wheelRow.subs.length) &&
     (let d : Device := (ready.setDebt 0 0 500); d.live && d.maskAdmits 0 0 && !d.wheel.held)) = true := by decide +kernel

set_option maxRecDepth 100000 in
theorem witness_HoopLife :
    ((let d : Device := (ready.wr Reg.HOOP_CFG_STATE 0 3); d.live && d.hoopState 0 == 3 &&
       !d.cores.any (fun (x : Nat × Core) => !x.2.blocks.isEmpty && d.coreHoop x.1 == 0) && d.slotsOf 0 == 0) &&
     (let d : Device := (busy.wr Reg.HOOP_CFG_STATE 0 3); d.live && d.hoopState 0 == 3 &&
       d.cores.any (fun (x : Nat × Core) => !x.2.blocks.isEmpty && d.coreHoop x.1 == 0)) &&
     (let d : Device := ready; d.live && d.hoopState 0 != 4) &&
     (let d : Device := ((ready.wr Reg.HOOP_CFG_STATE 0 4).setBoot { ready.boot with waits := [⟨{ ring := 9, hoop := 0 }, 0x12, 2, 0, 0, []⟩] });
       d.live && d.hoopState 0 == 4 && !d.boot.waits.isEmpty && (d.hx 0).purpose != 1) &&
     (let d : Device := (((up.wr Reg.HOOP_CFG_STATE 1 4).setHx 1 { purpose := 1 }).setBoot { up.boot with waits := [] }); d.live &&
       d.hoopState 1 == 4 && d.boot.waits.isEmpty && (d.hx 1).purpose == 1) &&
     (let d : Device := (((up.wr Reg.HOOP_CFG_STATE 1 4).setHx 1 { purpose := 1 }).setBoot { up.boot with waits := [⟨{ ring := 9, hoop := 1 }, 0x11, 3, 0, 0, []⟩] });
       d.live && d.hoopState 1 == 4 && !d.boot.waits.isEmpty && (d.hx 1).purpose == 1) &&
     (let d : Device := (ready.setBoot { ready.boot with waits := [⟨{ ring := 9 }, 0x18, 1, 0, 3, segBytes 0 0 0 0 0⟩] }); d.live &&
       (match d.boot.waits.find? (fun w => w.wait == 1 && w.hdr.hoop == 0) with | some w => !d.inFlight w | none => false)) &&
     (let d : Device := (let z : Device := (ready.setBoot { ready.boot with waits := [⟨{ ring := 9 }, 0x18, 1, 2, 0, segBytes 0 0 0 0 0⟩] }); { z with klz := { z.klz with remotes := [(3, { kind := 0, a := 0, b := 0, c := 0, hoop := 0, chip := 1, pkt := { dst := 1, src := 0, ptype := 1 } })] } });
       d.live && (match d.boot.waits.find? (fun w => w.wait == 1 && w.hdr.hoop == 0) with | some w => d.inFlight w | none => false))) = true := by decide +kernel

set_option maxRecDepth 100000 in
theorem witness_Functions :
    ((let d : Device := ({ ready with pcie := { ready.pcie with up := true, crs := false, vfEnable := true, numVfs := 3, busMaster := 1 } });
       d.awake && d.pcie.up && 2 ≤ d.vfs && d.vfs < 4) &&
     (let d : Device := ({ ready with pcie := { ready.pcie with up := true, crs := false, vfEnable := true, numVfs := 3, busMaster := 1 } });
       d.awake && d.pcie.up) &&
     (let d : Device := ({ ready with pcie := { ready.pcie with up := true, crs := false, vfEnable := true, numVfs := 3, busMaster := 1 } });
       d.awake && d.pcie.up && d.fnExists 1 && !d.pcie.flr.testBit 1 && !d.fnExists 5) &&
     (let d : Device := ({ ready with pcie := { ready.pcie with up := true, crs := false, vfEnable := true, numVfs := 3, flr := 2, busMaster := 1 } });
       d.awake && d.pcie.up && d.fnExists 1 && d.inReset 1 && !d.life.rindDead) &&
     (let d : Device := (({ ready with pcie := { ready.pcie with up := false } } : Device)); d.awake && !d.pcie.up) &&
     (let d : Device := ({ ready with pcie := { ready.pcie with up := true, crs := true, vfEnable := true, numVfs := 3, busMaster := 1 } });
       d.awake && d.pcie.up && d.fnExists 0 && d.pcie.crs && !d.life.rindDead) &&
     (let d : Device := ready; d.awake && !d.pcie.up) &&
     (let d : Device := ({ ready with pcie := { ready.pcie with up := true, crs := false, vfEnable := true, numVfs := 3, busMaster := 1 } });
       d.awake && d.regOpen 0 && d.regOpen 1 && d.stage == 4)) = true := by decide +kernel

set_option maxRecDepth 100000 in
theorem witness_RegisterWrites :
    ((let d : Device := ({ ready with pcie := { ready.pcie with up := true, crs := false, vfEnable := true, numVfs := 3, busMaster := 1 } });
       (match findReg 0x21000 with | some (g, i, b) => d.regOpen 0 && d.decodes 0x21000 && barPlace 0 0x21000 == some 0x21000 && g.bits != 16 && g.reached 0x21000 8 && i == 0 && b == 0 && (0x1020 &&& g.covered == 0x1020) && (0x10000000000000 &&& g.covered != 0x10000000000000) && d.placeWrite 0x21000 8 0x1020 == some (d.regWrite g i (2 ^ 64 - 1) 0x1020) && (d.placeWrite 0x21000 8 0x10000000000000).isNone && d.stage != 5 | none => false)) &&
     (let d : Device := (({ up with pcie := { up.pcie with up := true, crs := false } } : Device).wr Reg.BOOT_STATUS_STAGE 0 5); d.stage == 5 &&
       d.regOpen 0 && d.decodes 0x80008 && barPlace 0 0x80008 == some 0x80008 && (d.placeWrite 0x80008 8 0x100000000).isSome) &&
     (let d : Device := (({ up with pcie := { up.pcie with up := true, crs := false } } : Device).wr Reg.BOOT_STATUS_STAGE 0 5); d.stage == 5 &&
       d.regOpen 0 && d.decodes 0x8000C && barPlace 0 0x8000C == some 0x8000C && (d.placeWrite 0x8000C 4 1).isSome) &&
     (let d : Device := ({ ready with pcie := { ready.pcie with up := true, crs := false, vfEnable := true, numVfs := 3, busMaster := 1 } });
       (barPlace 1 0x21000).isNone && !decide (0x8000 ≤ 0x21000 ∧ 0x21000 < 0x8E00)) &&
     (let d : Device := ready; barPlace 0 0x21000 == some 0x21000 && !d.regOpen 0) &&
     (let d : Device := ({ ready with pcie := { ready.pcie with up := true, crs := false, vfEnable := true, numVfs := 3, busMaster := 1 } });
       d.regOpen 0 && d.regOpen 1 && d.stage == 4) &&
     (let d : Device := ({ ready with pcie := { ready.pcie with up := true, crs := false, vfEnable := true, numVfs := 3, busMaster := 1 } });
       d.regOpen 0)) = true := by decide +kernel

set_option maxRecDepth 100000 in
theorem witness_PointerWrites :
    ((let d : Device := (({ ready with pcie := { ready.pcie with up := true, crs := false, vfEnable := true, numVfs := 3, busMaster := 1 } }).wr Reg.HOOP_CFG_TABLES_LOCK 0 0);
       d.regOpen 0 && d.stage == 4 && reaches 0 0 &&
       (10 ≤ d.rd Reg.HOOP_OBJTAB_ENTRIES_LOG2 0 && d.rd Reg.HOOP_OBJTAB_ENTRIES_LOG2 0 ≤ 20 && 8 ≤ d.rd Reg.HOOP_RELQ_SIZE_LOG2 0 && d.rd Reg.HOOP_RELQ_SIZE_LOG2 0 ≤ 20 && (d.tableRanges 0).all (d.tableFits 0))) &&
     (let d : Device := ((({ ready with pcie := { ready.pcie with up := true, crs := false, vfEnable := true, numVfs := 3, busMaster := 1 } }).wr Reg.HOOP_CFG_TABLES_LOCK 0 0).wr Reg.HOOP_OBJTAB_ENTRIES_LOG2 0 9);
       d.regOpen 0 && d.stage == 4 && reaches 0 0 &&
       !(10 ≤ d.rd Reg.HOOP_OBJTAB_ENTRIES_LOG2 0 && d.rd Reg.HOOP_OBJTAB_ENTRIES_LOG2 0 ≤ 20 && 8 ≤ d.rd Reg.HOOP_RELQ_SIZE_LOG2 0 && d.rd Reg.HOOP_RELQ_SIZE_LOG2 0 ≤ 20 && (d.tableRanges 0).all (d.tableFits 0))) &&
     (let d : Device := ((({ ready with pcie := { ready.pcie with up := true, crs := false, vfEnable := true, numVfs := 3, busMaster := 1 } }).wr Reg.HOOP_CFG_TABLES_LOCK 0 0).wr Reg.HOOP_OBJTAB_ENTRIES_LOG2 0 21);
       d.regOpen 0 && d.stage == 4 && reaches 0 0 &&
       !(10 ≤ d.rd Reg.HOOP_OBJTAB_ENTRIES_LOG2 0 && d.rd Reg.HOOP_OBJTAB_ENTRIES_LOG2 0 ≤ 20 && 8 ≤ d.rd Reg.HOOP_RELQ_SIZE_LOG2 0 && d.rd Reg.HOOP_RELQ_SIZE_LOG2 0 ≤ 20 && (d.tableRanges 0).all (d.tableFits 0))) &&
     (let d : Device := (({ ready with pcie := { ready.pcie with up := true, crs := false, vfEnable := true, numVfs := 3, busMaster := 1 } }).wr Reg.HOOP_RELQ_PTR_TAIL 0 256);
       d.regOpen 0 && d.stage == 4 && reaches 0 0 && ringDiff 32 (d.rd Reg.HOOP_RELQ_PTR_TAIL 0) 0 == 2 ^ d.rd Reg.HOOP_RELQ_SIZE_LOG2 0) &&
     (let d : Device := (({ ready with pcie := { ready.pcie with up := true, crs := false, vfEnable := true, numVfs := 3, busMaster := 1 } }).wr Reg.HOOP_ERRQ_ENABLE 0 1);
       d.regOpen 0 && d.stage == 4 && reaches 0 0 && d.rd Reg.HOOP_ERRQ_ENABLE 0 == 1 && d.rd Reg.HOOP_ERRQ_PTR_TAIL 0 == 0) &&
     (let d : Device := ({ ready with pcie := { ready.pcie with up := true, crs := false, vfEnable := true, numVfs := 3, busMaster := 1 } });
       d.regOpen 0 && d.stage == 4 && reaches 0 0 && d.rd Reg.HOOP_ERRQ_ENABLE 0 == 0 && d.rd Reg.HOOP_ERRQ_PTR_TAIL 0 == 0) &&
     (let d : Device := ({ ready with pcie := { ready.pcie with up := true, crs := false, vfEnable := true, numVfs := 3, busMaster := 1 } });
       d.regOpen 0 && d.stage == 4 && reaches 0 0 && d.rd Reg.HOOP_TRACE_PTR_TAIL 0 == 0) &&
     (let d : Device := ({ ready with pcie := { ready.pcie with up := true, crs := false, vfEnable := true, numVfs := 3, busMaster := 1 } });
       d.regOpen 0 && d.stage == 4 && reaches 0 0 && d.rd Reg.HOOP_ERRQ_ENABLE 0 == 0) &&
     (let d : Device := (({ ready with pcie := { ready.pcie with up := true, crs := false, vfEnable := true, numVfs := 3, busMaster := 1 } }).wr Reg.HOOP_ERRQ_ENABLE 0 1);
       d.regOpen 0 && d.stage == 4 && reaches 0 0 && d.rd Reg.HOOP_ERRQ_ENABLE 0 == 1) &&
     (let d : Device := ({ ready with pcie := { ready.pcie with up := true, crs := false, vfEnable := true, numVfs := 3, busMaster := 1 } });
       d.regOpen 0 && d.stage == 4 && reaches 0 0 && (2 ^ 44 + 0x80000 + 6 * 2 + 1) % 2 == 1 &&
       (2 ^ 44 + 0x80000 + 6 * 2 + 1) / 2 ^ 5 % 2 ^ 7 == 0 && (2 ^ 44 + 0x80000 + 6 * 2 + 1) / 2 ^ 48 == 0 &&
       (2 ^ 44 + 0x80000 + 6 * 2 + 1) / 2 % 16 == 6 && d.rd Reg.HOOP_ERRQ_ENABLE 0 == 0 &&
       d.hbmWritable 0 ((2 ^ 44 + 0x80000 + 6 * 2 + 1) / 2 ^ 12 * 4096) 1) &&
     (let d : Device := ({ ready with pcie := { ready.pcie with up := true, crs := false, vfEnable := true, numVfs := 3, busMaster := 1 } });
       d.regOpen 0 && d.stage == 4 && reaches 0 0 && (2 ^ 44 + 0x80000 + 14 * 2 + 1) % 2 == 1 &&
       (2 ^ 44 + 0x80000 + 14 * 2 + 1) / 2 ^ 5 % 2 ^ 7 == 0 && (2 ^ 44 + 0x80000 + 14 * 2 + 1) / 2 ^ 48 == 0 &&
       (2 ^ 44 + 0x80000 + 14 * 2 + 1) / 2 % 16 == 14 && d.rd Reg.HOOP_ERRQ_ENABLE 0 == 0 &&
       d.hbmWritable 0 ((2 ^ 44 + 0x80000 + 14 * 2 + 1) / 2 ^ 12 * 4096) 1) &&
     (let d : Device := ({ ready with pcie := { ready.pcie with up := true, crs := false, vfEnable := true, numVfs := 3, busMaster := 1 } });
       d.regOpen 0 && d.stage == 4 && reaches 0 0) &&
     (let d : Device := ({ ready with pcie := { ready.pcie with up := true, crs := false, vfEnable := true, numVfs := 3, busMaster := 1 } });
       d.regOpen 0 && d.stage == 4 && reaches 0 0 && d.rd Reg.ERRQ_PTR_TAIL == 0) &&
     (let d : Device := ({ ready with pcie := { ready.pcie with up := true, crs := false, vfEnable := true, numVfs := 3, busMaster := 1 } });
       d.regOpen 0 && d.stage == 4 && reaches 0 0 && !d.ringOn 0) &&
     (let d : Device := ((({ ready with pcie := { ready.pcie with up := true, crs := false, vfEnable := true, numVfs := 3, busMaster := 1 } }).wr Reg.MGMT_RING_ENABLE 0 1).wr Reg.MGMT_RING_SIZE_LOG2 0 4);
       d.regOpen 0 && d.stage == 4 && reaches 0 0 && d.ringHead 0 == 0 && d.ringLog2 0 == 4) &&
     (let d : Device := ({ ready with pcie := { ready.pcie with up := true, crs := false, vfEnable := true, numVfs := 3, busMaster := 1 } });
       d.regOpen 0 && d.stage == 4 && reaches 0 0 && d.rd Reg.HOOP_CFG_TABLES_LOCK 0 == 1)) = true := by decide +kernel

set_option maxRecDepth 100000 in
theorem witness_StreamEvents :
    ((let d : Device := (let z : Device := queued []; let z : Device := { z with flow := { z.flow with descs := [(3, { bytes := copySd, hoop := 0, map := 0, owner := .copy 0 7 0, engine := 0 })], engines := [(0, {})] } }; z);
       d.live && (match d.desc? 3 with | some x => !d.descReady 3 x | none => false)) &&
     (let d : Device := (let z : Device := queued []; let z : Device := { z with flow := { z.flow with descs := [(3, { bytes := (le 8 0 ++ copySd.drop 8), hoop := 0, map := 0, owner := .copy 0 7 0, engine := 0 })], engines := [(0, { queue := [3] })] } }; z);
       d.live && (match d.desc? 3 with | some x => d.descReady 3 x && (parseSd x.bytes).mode == 0 | none => false)) &&
     (let d : Device := (let z : Device := queued []; let z : Device := { z with flow := { z.flow with descs := [(3, { bytes := (le 8 2 ++ copySd.drop 8), hoop := 0, map := 0, owner := .copy 0 7 0, engine := 0 })], engines := [(0, { queue := [3] })] } }; z);
       d.live && (match d.desc? 3 with | some x => d.descReady 3 x && (parseSd x.bytes).mode == 2 | none => false)) &&
     (let d : Device := (let z : Device := queued []; let z : Device := { z with flow := { z.flow with descs := [(3, { bytes := (le 8 4 ++ le 8 0 ++ copySd.drop 16), hoop := 0, map := 0, owner := .copy 0 7 0, engine := 0 })], engines := [(0, { queue := [3] })] } }; z);
       d.live && (match d.desc? 3 with | some x => d.descReady 3 x && (parseSd x.bytes).mode == 4 | none => false)) &&
     (let d : Device := (let z : Device := queued []; let z : Device := { z with flow := { z.flow with descs := [(3, { bytes := (le 8 5 ++ copySd.drop 8), hoop := 0, map := 0, owner := .copy 0 7 0, engine := 0 })], engines := [(0, { queue := [3] })] } }; z);
       d.live && (match d.desc? 3 with | some x => d.descReady 3 x && (parseSd x.bytes).mode == 5 | none => false)) &&
     (let d : Device := (let z : Device := queued []; let z : Device := { z with flow := { z.flow with descs := [(3, { bytes := (le 8 6 ++ copySd.drop 8) ++ updDesc, hoop := 0, map := 0, owner := .copy 0 7 0, engine := 0 })], engines := [(0, { queue := [3] })] } }; z);
       d.live && (match d.desc? 3 with | some x => d.descReady 3 x && (parseSd x.bytes).mode == 6 | none => false)) &&
     (let d : Device := (let z : Device := queued []; let z : Device := { z with flow := { z.flow with descs := [(3, { bytes := copySd, hoop := 0, map := 0, owner := .copy 0 7 0, engine := 0, state := 1 })], engines := [(0, { queue := [3] })] } }; z);
       d.live &&
       (match d.desc? 3 with | some x => (d.stat.late.any (fun y => y.2 == .descDone 3) || x.state != 2 || !x.due.isEmpty || x.spillOld.isSome || (d.engine 0).wc.any (fun w => w.descs.contains 3)) | none => false)) &&
     (let d : Device := (let z : Device := queued []; let z : Device := { z with flow := { z.flow with descs := [(3, { bytes := copySd, hoop := 0, map := 0, owner := .copy 0 7 0, engine := 0, state := 2, host := true })], engines := [(0, { queue := [3] })] } }; z);
       d.live &&
       (match d.desc? 3 with | some x => !(d.stat.late.any (fun y => y.2 == .descDone 3) || x.state != 2 || !x.due.isEmpty || x.spillOld.isSome || (d.engine 0).wc.any (fun w => w.descs.contains 3)) && x.host && x.rel.isNone && d.perturbDelay 1 0 == 0 | none => false)) &&
     (let d : Device := (let z : Device := queued []; let z : Device := { z with flow := { z.flow with descs := [(3, { bytes := copySd, hoop := 0, map := 0, owner := .copy 0 7 0, engine := 0, state := 2 })], engines := [(0, { queue := [3] })] } }; z);
       d.live &&
       (match d.desc? 3 with | some x => !(d.stat.late.any (fun y => y.2 == .descDone 3) || x.state != 2 || !x.due.isEmpty || x.spillOld.isSome || (d.engine 0).wc.any (fun w => w.descs.contains 3)) && (!x.host || x.rel.isSome) && d.perturbDelay 1 0 == 0 | none => false)) &&
     (let d : Device := (let z : Device := queued []; let z : Device := { z with flow := { z.flow with descs := [(3, { bytes := copySd, hoop := 0, map := 0, owner := .copy 0 7 0, engine := 0, state := 2, host := true, rel := some 5 })], engines := [(0, { queue := [3] })] } }; z);
       d.live &&
       (match d.desc? 3 with | some x => !(d.stat.late.any (fun y => y.2 == .descDone 3) || x.state != 2 || !x.due.isEmpty || x.spillOld.isSome || (d.engine 0).wc.any (fun w => w.descs.contains 3)) && (!x.host || x.rel.isSome) && d.perturbDelay 1 0 == 0 | none => false)) &&
     (let d : Device := (let z : Device := queued []; let z : Device := { z with flow := { z.flow with descs := [(3, { bytes := copySd, hoop := 0, map := 0, owner := .copy 0 7 0, engine := 0, state := 2 })], engines := [(0, { queue := [3] })] } }; (z.wr Reg.PERTURB_CFG_TARGET 0 1).wr Reg.PERTURB_CFG_DELAY 0 12);
       d.live &&
       (match d.desc? 3 with | some x => !(d.stat.late.any (fun y => y.2 == .descDone 3) || x.state != 2 || !x.due.isEmpty || x.spillOld.isSome || (d.engine 0).wc.any (fun w => w.descs.contains 3)) && !x.host && d.perturbDelay 1 0 != 0 | none => false)) &&
     (let d : Device := (let z : Device := queued []; let z : Device := { z with flow := { z.flow with descs := [(3, { bytes := copySd, hoop := 0, map := 0, owner := .copy 0 7 0, engine := 0, state := 2 })], engines := [(0, { wc := [{ host := false, line := 0x400000120, descs := [3], hoop := 0, data := (List.range 128).map (fun j => (j, 7)) }] })] } }; z);
       d.live &&
       (((d.engine 0).wc.find? (fun w => w.descs.all (fun i => match d.desc? i with | some x => decide (2 ≤ x.state) | none => true))).isSome && decide (0 < (d.pools 0).write)) == true) &&
     (let d : Device := (let z : Device := queued []; let z : Device := { z with flow := { z.flow with descs := [(3, { bytes := copySd, hoop := 0, map := 0, owner := .copy 0 7 0, engine := 0, state := 1 })], engines := [(0, { wc := [{ host := false, line := 0x400000120, descs := [3], hoop := 0, data := (List.range 128).map (fun j => (j, 7)) }] })] } }; z);
       d.live &&
       (((d.engine 0).wc.find? (fun w => w.descs.all (fun i => match d.desc? i with | some x => decide (2 ≤ x.state) | none => true))).isSome && decide (0 < (d.pools 0).write)) == false) &&
     (let d : Device := (let z : Device := queued []; let z : Device := { z with flow := { z.flow with descs := [(3, { bytes := copySd, hoop := 0, map := 0, owner := .copy 0 7 0, engine := 0, state := 2 })], engines := [(0, { wc := [{ host := false, line := 0x400000120, descs := [3], hoop := 0, data := (List.range 128).map (fun j => (j, 7)) }] })] } }; { z with flow := { z.flow with pools := [(0, { write := 0 })] } });
       d.live &&
       (((d.engine 0).wc.find? (fun w => w.descs.all (fun i => match d.desc? i with | some x => decide (2 ≤ x.state) | none => true))).isSome && decide (0 < (d.pools 0).write)) == false) &&
     (let d : Device := (let z : Device := queued []; let z : Device := (((z.wr Reg.HOOP_KVPOOL_HBM_SEG 0 1).wr Reg.HOOP_KVPOOL_HBM_BLOCK_LOG2 0 16).wr Reg.HOOP_KVPOOL_HBM_BLOCKS 0 4); { z with flow := { z.flow with descs := [(3, { bytes := (le 8 4 ++ le 8 0 ++ copySd.drop 16), hoop := 0, map := 0, owner := .copy 0 7 0, engine := 0, state := 1, spillOld := some (0, 2) })], sessions := [(0, { state := 1, hoop := 0, bsize := 16 })], engines := [(0, { queue := [3], wc := [] })] } });
       d.live &&
       (match d.desc? 3 with | some x => x.spillOld == some (0, 2) && (d.heldOf (d.poolOf 0 false) (d.blockOff 0 false (d.sess ((parseSd x.bytes).src % 2 ^ 32)) 2) (2 ^ (d.sess ((parseSd x.bytes).src % 2 ^ 32)).bsize)).isEmpty && !d.outOf (d.poolOf 0 false) (d.blockOff 0 false (d.sess ((parseSd x.bytes).src % 2 ^ 32)) 2) (2 ^ 16) | none => false)) &&
     (let d : Device := (let z : Device := queued []; let z : Device := (((z.wr Reg.HOOP_KVPOOL_HBM_SEG 0 1).wr Reg.HOOP_KVPOOL_HBM_BLOCK_LOG2 0 16).wr Reg.HOOP_KVPOOL_HBM_BLOCKS 0 4); { z with flow := { z.flow with descs := [(3, { bytes := (le 8 4 ++ le 8 0 ++ copySd.drop 16), hoop := 0, map := 0, owner := .copy 0 7 0, engine := 0, state := 1, spillOld := some (0, 2) })], sessions := [(0, { state := 1, hoop := 0, bsize := 16 })], engines := [(0, { queue := [3], wc := [{ host := false, line := (match (z.poolOf 0 false).place (z.blockOff 0 false { state := 1, hoop := 0, bsize := 16 } 2) with | .dev a => a / 128 | .host _ => 0), descs := [3], hoop := 0 }] })] } });
       d.live &&
       (match d.desc? 3 with | some x => x.spillOld == some (0, 2) && !(d.heldOf (d.poolOf 0 false) (d.blockOff 0 false (d.sess ((parseSd x.bytes).src % 2 ^ 32)) 2) (2 ^ (d.sess ((parseSd x.bytes).src % 2 ^ 32)).bsize)).isEmpty | none => false))) = true := by decide +kernel

set_option maxRecDepth 100000 in
theorem witness_ManagementHoopsQueues :
    ((let d0 : Device := managed; let h := hdr 0; let p : Bytes := []; let n := h.hoop; let f := fieldLe p;
       match d0.carries { op := 0x00, hoopScope := true, names := true, sb := true, read := true, afterFatal := true } h p with | some d => (true) | none => false) &&
     (let d0 : Device := (((((((managed.wr Reg.HOOP_CLUSTERS_CLUSTERS 0 1).wr Reg.HOOP_CHGROUPS_GROUPS 0 1).wr Reg.HOOP_SESSIONS_COUNT 0 1).wr (Reg.HOOP_WAYS_WAYS 0) 0 1).wr (Reg.HOOP_WAYS_WAYS 1) 0 1).wr (Reg.HOOP_WAYS_WAYS 2) 0 1).wr (Reg.HOOP_WAYS_WAYS 3) 0 1);
       let h := hdr 1;
       let p : Bytes := (le 4 2 ++ le 4 0 ++ le 8 2 ++ le 2 2 ++ le 6 0 ++ le 4 16 ++ le 4 4 ++ le 4 4 ++ le 4 0 ++ le 1 1 ++ le 1 0 ++ le 6 0 ++ le 16 0);
       let n := h.hoop; let f := fieldLe p;
       match d0.carries { op := 0x01, names := true, len := (· == 64), create := true } h p with | some d => ((firstBad (d.hoopChecks n p)).isNone && d.storeFits p) | none => false) &&
     (let d0 : Device := (((((((managed.wr Reg.HOOP_CLUSTERS_CLUSTERS 0 1).wr Reg.HOOP_CHGROUPS_GROUPS 0 1).wr Reg.HOOP_SESSIONS_COUNT 0 1).wr (Reg.HOOP_WAYS_WAYS 0) 0 1).wr (Reg.HOOP_WAYS_WAYS 1) 0 1).wr (Reg.HOOP_WAYS_WAYS 2) 0 1).wr (Reg.HOOP_WAYS_WAYS 3) 0 1);
       let h := hdr 1;
       let p : Bytes := (le 4 1 ++ le 4 0 ++ le 8 2 ++ le 2 2 ++ le 6 0 ++ le 4 16 ++ le 4 4 ++ le 4 4 ++ le 4 0 ++ le 1 1 ++ le 1 0 ++ le 6 0 ++ le 16 0);
       let n := h.hoop; let f := fieldLe p;
       match d0.carries { op := 0x01, names := true, len := (· == 64), create := true } h p with | some d => (firstBad (d.hoopChecks n p) == some 0) | none => false) &&
     (let d0 : Device := (((((((managed.wr Reg.HOOP_CLUSTERS_CLUSTERS 0 1).wr Reg.HOOP_CHGROUPS_GROUPS 0 1).wr Reg.HOOP_SESSIONS_COUNT 0 1).wr (Reg.HOOP_WAYS_WAYS 0) 0 1).wr (Reg.HOOP_WAYS_WAYS 1) 0 1).wr (Reg.HOOP_WAYS_WAYS 2) 0 1).wr (Reg.HOOP_WAYS_WAYS 3) 0 1);
       let h := hdr 1;
       let p : Bytes := (le 4 2 ++ le 4 0 ++ le 8 2 ++ le 2 2 ++ le 6 0 ++ le 4 16 ++ le 4 4 ++ le 4 4 ++ le 4 0 ++ le 1 1 ++ le 1 0 ++ le 2 65535 ++ le 4 0 ++ le 16 0);
       let n := h.hoop; let f := fieldLe p;
       match d0.carries { op := 0x01, names := true, len := (· == 64), create := true } h p with | some d => ((firstBad (d.hoopChecks n p)).isNone && !d.storeFits p) | none => false) &&
     (let d0 : Device := ((((((((((managed.wr Reg.HOOP_CLUSTERS_CLUSTERS 0 1).wr Reg.HOOP_CHGROUPS_GROUPS 0 1).wr Reg.HOOP_SESSIONS_COUNT 0 1).wr (Reg.HOOP_WAYS_WAYS 0) 0 1).wr (Reg.HOOP_WAYS_WAYS 1) 0 1).wr (Reg.HOOP_WAYS_WAYS 2) 0 1).wr (Reg.HOOP_WAYS_WAYS 3) 0 1).assign 1 (le 4 2 ++ le 4 0 ++ le 8 2 ++ le 2 2 ++ le 6 0 ++ le 4 16 ++ le 4 4 ++ le 4 4 ++ le 4 0 ++ le 1 1 ++ le 1 0 ++ le 6 0 ++ le 16 0)).wr Reg.HOOP_CHGROUPS_RESERVE_GROUP 1 1).wr Reg.HOOP_CFG_STATE 1 2);
       let h := hdr 1;
       let p : Bytes := (le 4 2 ++ le 4 0 ++ le 8 2 ++ le 2 2 ++ le 6 0 ++ le 4 16 ++ le 4 4 ++ le 4 2 ++ le 4 0 ++ le 1 1 ++ le 1 0 ++ le 6 0 ++ le 16 0);
       let n := h.hoop; let f := fieldLe p;
       match d0.carries { op := 0x02, names := true, len := (· == 64) } h p with | some d => ((let same : List (Nat × Bool) := [(41, f 41 1 == d.rd Reg.HOOP_CFG_DEP_MODEL n), (42, f 42 2 == d.rd Reg.HOOP_RECIPES_STORE_MIB n), (44, f 44 2 == d.rd Reg.HOOP_FENCES_FENCES n), (46, f 46 2 == d.rd Reg.HOOP_EVENTS_EVENTS n)]; minOf (((d.hoopChecks n p ++ same).filter (fun x => !x.2)).map (·.1))) == none && !d.removedInUse n p) | none => false) &&
     (let d0 : Device := ((((((((((managed.wr Reg.HOOP_CLUSTERS_CLUSTERS 0 1).wr Reg.HOOP_CHGROUPS_GROUPS 0 1).wr Reg.HOOP_SESSIONS_COUNT 0 1).wr (Reg.HOOP_WAYS_WAYS 0) 0 1).wr (Reg.HOOP_WAYS_WAYS 1) 0 1).wr (Reg.HOOP_WAYS_WAYS 2) 0 1).wr (Reg.HOOP_WAYS_WAYS 3) 0 1).assign 1 (le 4 2 ++ le 4 0 ++ le 8 2 ++ le 2 2 ++ le 6 0 ++ le 4 16 ++ le 4 4 ++ le 4 4 ++ le 4 0 ++ le 1 1 ++ le 1 0 ++ le 6 0 ++ le 16 0)).wr Reg.HOOP_CHGROUPS_RESERVE_GROUP 1 1).wr Reg.HOOP_CFG_STATE 1 2);
       let h := hdr 1;
       let p : Bytes := (le 4 0 ++ le 4 0 ++ le 8 2 ++ le 2 2 ++ le 6 0 ++ le 4 16 ++ le 4 4 ++ le 4 4 ++ le 4 0 ++ le 1 1 ++ le 1 0 ++ le 6 0 ++ le 16 0);
       let n := h.hoop; let f := fieldLe p;
       match d0.carries { op := 0x02, names := true, len := (· == 64) } h p with | some d => ((let same : List (Nat × Bool) := [(41, f 41 1 == d.rd Reg.HOOP_CFG_DEP_MODEL n), (42, f 42 2 == d.rd Reg.HOOP_RECIPES_STORE_MIB n), (44, f 44 2 == d.rd Reg.HOOP_FENCES_FENCES n), (46, f 46 2 == d.rd Reg.HOOP_EVENTS_EVENTS n)]; minOf (((d.hoopChecks n p ++ same).filter (fun x => !x.2)).map (·.1))) == some 0) | none => false) &&
     (let d0 : Device := ((((((((((managed.wr Reg.HOOP_CLUSTERS_CLUSTERS 0 1).wr Reg.HOOP_CHGROUPS_GROUPS 0 1).wr Reg.HOOP_SESSIONS_COUNT 0 1).wr (Reg.HOOP_WAYS_WAYS 0) 0 1).wr (Reg.HOOP_WAYS_WAYS 1) 0 1).wr (Reg.HOOP_WAYS_WAYS 2) 0 1).wr (Reg.HOOP_WAYS_WAYS 3) 0 1).assign 1 (le 4 2 ++ le 4 0 ++ le 8 2 ++ le 2 2 ++ le 6 0 ++ le 4 16 ++ le 4 4 ++ le 4 4 ++ le 4 0 ++ le 1 1 ++ le 1 0 ++ le 6 0 ++ le 16 0)).wr Reg.HOOP_CHGROUPS_RESERVE_GROUP 1 1).wr Reg.HOOP_CFG_STATE 1 2);
       let h := hdr 1;
       let p : Bytes := (le 4 2 ++ le 4 0 ++ le 8 2 ++ le 2 2 ++ le 6 0 ++ le 4 16 ++ le 4 4 ++ le 4 2 ++ le 4 0 ++ le 1 1 ++ le 1 1 ++ le 6 0 ++ le 16 0);
       let n := h.hoop; let f := fieldLe p;
       match d0.carries { op := 0x02, names := true, len := (· == 64) } h p with | some d => ((let same : List (Nat × Bool) := [(41, f 41 1 == d.rd Reg.HOOP_CFG_DEP_MODEL n), (42, f 42 2 == d.rd Reg.HOOP_RECIPES_STORE_MIB n), (44, f 44 2 == d.rd Reg.HOOP_FENCES_FENCES n), (46, f 46 2 == d.rd Reg.HOOP_EVENTS_EVENTS n)]; minOf (((d.hoopChecks n p ++ same).filter (fun x => !x.2)).map (·.1))) == some 41) | none => false) &&
     (let d0 : Device := ((((((((((managed.wr Reg.HOOP_CLUSTERS_CLUSTERS 0 1).wr Reg.HOOP_CHGROUPS_GROUPS 0 1).wr Reg.HOOP_SESSIONS_COUNT 0 1).wr (Reg.HOOP_WAYS_WAYS 0) 0 1).wr (Reg.HOOP_WAYS_WAYS 1) 0 1).wr (Reg.HOOP_WAYS_WAYS 2) 0 1).wr (Reg.HOOP_WAYS_WAYS 3) 0 1).assign 1 (le 4 2 ++ le 4 0 ++ le 8 2 ++ le 2 2 ++ le 6 0 ++ le 4 16 ++ le 4 4 ++ le 4 4 ++ le 4 0 ++ le 1 1 ++ le 1 0 ++ le 6 0 ++ le 16 0)).wr Reg.HOOP_CHGROUPS_RESERVE_GROUP 1 1).wr Reg.HOOP_CFG_STATE 1 2);
       let h := hdr 1;
       let p : Bytes := (le 4 2 ++ le 4 0 ++ le 8 4 ++ le 2 2 ++ le 6 0 ++ le 4 16 ++ le 4 4 ++ le 4 4 ++ le 4 0 ++ le 1 1 ++ le 1 0 ++ le 6 0 ++ le 16 0);
       let n := h.hoop; let f := fieldLe p;
       match d0.carries { op := 0x02, names := true, len := (· == 64) } h p with | some d => ((let same : List (Nat × Bool) := [(41, f 41 1 == d.rd Reg.HOOP_CFG_DEP_MODEL n), (42, f 42 2 == d.rd Reg.HOOP_RECIPES_STORE_MIB n), (44, f 44 2 == d.rd Reg.HOOP_FENCES_FENCES n), (46, f 46 2 == d.rd Reg.HOOP_EVENTS_EVENTS n)]; minOf (((d.hoopChecks n p ++ same).filter (fun x => !x.2)).map (·.1))) == none && d.removedInUse n p) | none => false) &&
     (let d0 : Device := ((((((((((managed.wr Reg.HOOP_CLUSTERS_CLUSTERS 0 1).wr Reg.HOOP_CHGROUPS_GROUPS 0 1).wr Reg.HOOP_SESSIONS_COUNT 0 1).wr (Reg.HOOP_WAYS_WAYS 0) 0 1).wr (Reg.HOOP_WAYS_WAYS 1) 0 1).wr (Reg.HOOP_WAYS_WAYS 2) 0 1).wr (Reg.HOOP_WAYS_WAYS 3) 0 1).assign 1 (le 4 2 ++ le 4 0 ++ le 8 2 ++ le 2 2 ++ le 6 0 ++ le 4 16 ++ le 4 4 ++ le 4 4 ++ le 4 0 ++ le 1 1 ++ le 1 0 ++ le 6 0 ++ le 16 0)).wr Reg.HOOP_CHGROUPS_RESERVE_GROUP 1 1).wr Reg.HOOP_CFG_STATE 1 2);
       let h := hdr 1; let p : Bytes := []; let n := h.hoop; let f := fieldLe p;
       match d0.carries { op := 0x03, names := true } h p with | some d => (n != 0 && !(d.work.queues.any (fun (x : Nat × Queue) => x.2.state != 0 && x.2.hoop == n) || (d.otherHoops n).any (fun x => (List.range 16).any (fun i => let y := d.segOwn x i; y.valid && y.sro && y.owner == n)))) | none => false) &&
     (let d0 : Device := (managed.wr Reg.HOOP_CFG_STATE 0 2); let h := hdr 0; let p : Bytes := []; let n := h.hoop; let f := fieldLe p;
       match d0.carries { op := 0x03, names := true } h p with | some d => (n == 0) | none => false) &&
     (let d0 : Device := (((((((((((managed.wr Reg.HOOP_CLUSTERS_CLUSTERS 0 1).wr Reg.HOOP_CHGROUPS_GROUPS 0 1).wr Reg.HOOP_SESSIONS_COUNT 0 1).wr (Reg.HOOP_WAYS_WAYS 0) 0 1).wr (Reg.HOOP_WAYS_WAYS 1) 0 1).wr (Reg.HOOP_WAYS_WAYS 2) 0 1).wr (Reg.HOOP_WAYS_WAYS 3) 0 1).assign 1 (le 4 2 ++ le 4 0 ++ le 8 2 ++ le 2 2 ++ le 6 0 ++ le 4 16 ++ le 4 4 ++ le 4 4 ++ le 4 0 ++ le 1 1 ++ le 1 0 ++ le 6 0 ++ le 16 0)).wr Reg.HOOP_CHGROUPS_RESERVE_GROUP 1 1).wr Reg.HOOP_CFG_STATE 1 2).setQueue 9 { state := 1, hoop := 1 });
       let h := hdr 1; let p : Bytes := []; let n := h.hoop; let f := fieldLe p;
       match d0.carries { op := 0x03, names := true } h p with | some d => (n != 0 && (d.work.queues.any (fun (x : Nat × Queue) => x.2.state != 0 && x.2.hoop == n) || (d.otherHoops n).any (fun x => (List.range 16).any (fun i => let y := d.segOwn x i; y.valid && y.sro && y.owner == n)))) | none => false) &&
     (let d0 : Device := managed; let h := hdr 0 256; let p : Bytes := []; let n := h.hoop; let f := fieldLe p;
       match d0.carries { op := 0x04, hoopScope := true, names := true, reply := 256, read := true } h p with | some d => (true) | none => false) &&
     (let d0 : Device := managed; let h := hdr 0;
       let p : Bytes := (le 1 7 ++ le 1 2 ++ le 1 1 ++ le 1 0 ++ le 2 5 ++ le 2 9 ++ le 8 (2 ^ 44 + 0x20000) ++ le 8 (2 ^ 44 + 0x30000));
       let n := h.hoop; let f := fieldLe p;
       match d0.carries { op := 0x10, hoopScope := true, names := true, len := (· == 24) } h p with | some d => ((List.range 4096).find? (fun q => (d.queue q).state == 0) == some 1 && d.rd Reg.HOOP_CFG_TABLES_LOCK n != 0 && firstBad [(0, 6 ≤ f 0 1 && f 0 1 ≤ 16), (1, f 1 1 ≤ 15), (2, f 2 1 ≤ 1), (3, f 3 1 == 0), (4, vectorOk h.ring (f 4 2)), (8, d.ringOk n (f 8 8) (f 0 1)), (16, d.targetOk n (f 16 8) (f 0 1))] == none) | none => false) &&
     (let d0 : Device := (managed.wr Reg.HOOP_CFG_TABLES_LOCK 0 0); let h := hdr 0;
       let p : Bytes := (le 1 7 ++ le 1 2 ++ le 1 1 ++ le 1 0 ++ le 2 5 ++ le 2 9 ++ le 8 (2 ^ 44 + 0x20000) ++ le 8 (2 ^ 44 + 0x30000));
       let n := h.hoop; let f := fieldLe p;
       match d0.carries { op := 0x10, hoopScope := true, names := true, len := (· == 24) } h p with | some d => (d.rd Reg.HOOP_CFG_TABLES_LOCK n == 0) | none => false) &&
     (let d0 : Device := managed; let h := hdr 0;
       let p : Bytes := (le 1 5 ++ le 1 2 ++ le 1 1 ++ le 1 0 ++ le 2 5 ++ le 2 9 ++ le 8 (2 ^ 44 + 0x20000) ++ le 8 (2 ^ 44 + 0x30000));
       let n := h.hoop; let f := fieldLe p;
       match d0.carries { op := 0x10, hoopScope := true, names := true, len := (· == 24) } h p with | some d => ((List.range 4096).find? (fun q => (d.queue q).state == 0) == some 1 && d.rd Reg.HOOP_CFG_TABLES_LOCK n != 0 && firstBad [(0, 6 ≤ f 0 1 && f 0 1 ≤ 16), (1, f 1 1 ≤ 15), (2, f 2 1 ≤ 1), (3, f 3 1 == 0), (4, vectorOk h.ring (f 4 2)), (8, d.ringOk n (f 8 8) (f 0 1)), (16, d.targetOk n (f 16 8) (f 0 1))] == some 0) | none => false) &&
     (let d0 : Device := managed; let h := hdr 0;
       let p : Bytes := (le 2 0 ++ le 1 3 ++ le 1 0 ++ le 2 5 ++ le 2 0 ++ le 4 9 ++ le 4 0 ++ le 8 (2 ^ 44 + 0x30000)); let n := h.hoop;
       let f := fieldLe p;
       match d0.carries { op := 0x11, hoopScope := true, names := true, len := (· == 24) } h p with | some d => (firstBad [(0, d.queueOf n 0), (2, f 2 1 ≤ 3), (3, f 3 1 == 0), (4, vectorOk h.ring (f 4 2)), (6, f 6 2 == 0), (12, f 12 4 == 0), (16, d.targetOk n (f 16 8) (d.queue 0).sizeLog2)] == none && !(d.queue 0).busy && ((d.discard 0).queue 0).gone.isEmpty) | none => false) &&
     (let d0 : Device := managed; let h := hdr 0;
       let p : Bytes := (le 2 0 ++ le 1 0 ++ le 1 0 ++ le 2 5 ++ le 2 0 ++ le 4 9 ++ le 4 0 ++ le 8 (2 ^ 44 + 0x30000)); let n := h.hoop;
       let f := fieldLe p;
       match d0.carries { op := 0x11, hoopScope := true, names := true, len := (· == 24) } h p with | some d => (firstBad [(0, d.queueOf n 0), (2, f 2 1 ≤ 3), (3, f 3 1 == 0), (4, vectorOk h.ring (f 4 2)), (6, f 6 2 == 0), (12, f 12 4 == 0), (16, d.targetOk n (f 16 8) (d.queue 0).sizeLog2)] == none && !(d.queue 0).busy && (d.queue 0).gone.isEmpty) | none => false) &&
     (let d0 : Device := managed; let h := hdr 0;
       let p : Bytes := (le 2 0 ++ le 1 4 ++ le 1 0 ++ le 2 5 ++ le 2 0 ++ le 4 9 ++ le 4 0 ++ le 8 (2 ^ 44 + 0x30000)); let n := h.hoop;
       let f := fieldLe p;
       match d0.carries { op := 0x11, hoopScope := true, names := true, len := (· == 24) } h p with | some d => (firstBad [(0, d.queueOf n 0), (2, f 2 1 ≤ 3), (3, f 3 1 == 0), (4, vectorOk h.ring (f 4 2)), (6, f 6 2 == 0), (12, f 12 4 == 0), (16, d.targetOk n (f 16 8) (d.queue 0).sizeLog2)] == some 2) | none => false) &&
     (let d0 : Device := (managed.modQueue 0 (fun x => { x with entries := [fetched 0 0 []] })); let h := hdr 0;
       let p : Bytes := (le 2 0 ++ le 1 3 ++ le 1 0 ++ le 2 5 ++ le 2 0 ++ le 4 9 ++ le 4 0 ++ le 8 (2 ^ 44 + 0x30000)); let n := h.hoop;
       let f := fieldLe p;
       match d0.carries { op := 0x11, hoopScope := true, names := true, len := (· == 24) } h p with | some d => (firstBad [(0, d.queueOf n 0), (2, f 2 1 ≤ 3), (3, f 3 1 == 0), (4, vectorOk h.ring (f 4 2)), (6, f 6 2 == 0), (12, f 12 4 == 0), (16, d.targetOk n (f 16 8) (d.queue 0).sizeLog2)] == none && (d.queue 0).busy) | none => false) &&
     (let d0 : Device := (managed.modQueue 0 (fun x => { x with ring := 0x8000, shadow := 3 })); let h := hdr 0;
       let p : Bytes := (le 2 0 ++ le 1 3 ++ le 1 0 ++ le 2 5 ++ le 2 0 ++ le 4 9 ++ le 4 0 ++ le 8 (2 ^ 44 + 0x30000)); let n := h.hoop;
       let f := fieldLe p;
       match d0.carries { op := 0x11, hoopScope := true, names := true, len := (· == 24) } h p with | some d => (firstBad [(0, d.queueOf n 0), (2, f 2 1 ≤ 3), (3, f 3 1 == 0), (4, vectorOk h.ring (f 4 2)), (6, f 6 2 == 0), (12, f 12 4 == 0), (16, d.targetOk n (f 16 8) (d.queue 0).sizeLog2)] == none && !(d.queue 0).busy && !((d.discard 0).queue 0).gone.isEmpty) | none => false) &&
     (let d0 : Device := managed; let h := hdr 0; let p : Bytes := (le 2 7 ++ le 2 1 ++ le 2 0); let n := h.hoop; let f := fieldLe p;
       match d0.carries { op := 0x12, hoopScope := true, names := true, len := fun n => 6 ≤ n && n ≤ 4092, hold := false } h p with | some d => ((1 ≤ f 2 2 && f 2 2 ≤ 2044 && p.length == 4 + 2 * f 2 2) && firstBad ((abortList p).mapIdx (fun i q => (4 + 2 * i, d.queueOf n q))) == none && (d.abortQueues n (f 0 2) (abortList p).eraseDups).2) | none => false) &&
     (let d0 : Device := (managed.modQueue 0 (fun x => { x with ring := 0x8000, shadow := 3 })); let h := hdr 0;
       let p : Bytes := (le 2 7 ++ le 2 1 ++ le 2 0); let n := h.hoop; let f := fieldLe p;
       match d0.carries { op := 0x12, hoopScope := true, names := true, len := fun n => 6 ≤ n && n ≤ 4092, hold := false } h p with | some d => ((1 ≤ f 2 2 && f 2 2 ≤ 2044 && p.length == 4 + 2 * f 2 2) && firstBad ((abortList p).mapIdx (fun i q => (4 + 2 * i, d.queueOf n q))) == none && !(d.abortQueues n (f 0 2) (abortList p).eraseDups).2) | none => false) &&
     (let d0 : Device := managed; let h := hdr 0; let p : Bytes := (le 2 7 ++ le 2 1 ++ le 2 9); let n := h.hoop; let f := fieldLe p;
       match d0.carries { op := 0x12, hoopScope := true, names := true, len := fun n => 6 ≤ n && n ≤ 4092, hold := false } h p with | some d => ((1 ≤ f 2 2 && f 2 2 ≤ 2044 && p.length == 4 + 2 * f 2 2) && firstBad ((abortList p).mapIdx (fun i q => (4 + 2 * i, d.queueOf n q))) == some 4) | none => false) &&
     (let d0 : Device := managed; let h := hdr 0; let p : Bytes := (le 2 7 ++ le 2 2 ++ le 2 0); let n := h.hoop; let f := fieldLe p;
       match d0.carries { op := 0x12, hoopScope := true, names := true, len := fun n => 6 ≤ n && n ≤ 4092, hold := false } h p with | some d => (!(1 ≤ f 2 2 && f 2 2 ≤ 2044 && p.length == 4 + 2 * f 2 2)) | none => false) &&
     (let d0 : Device := managed; let h := hdr 0; let p : Bytes := (le 2 0); let n := h.hoop; let f := fieldLe p;
       match d0.carries { op := 0x13, hoopScope := true, names := true, len := (· == 2) } h p with | some d => (d.queueOf n 0 && !(d.queue 0).busy && ((d.discard 0).queue 0).gone.isEmpty && ((d.discard 0).queue 0).lost.length == 0) | none => false) &&
     (let d0 : Device := (managed.modQueue 0 (fun x => { x with lost := [[1]] })); let h := hdr 0; let p : Bytes := (le 2 0); let n := h.hoop;
       let f := fieldLe p;
       match d0.carries { op := 0x13, hoopScope := true, names := true, len := (· == 2) } h p with | some d => (d.queueOf n 0 && !(d.queue 0).busy && ((d.discard 0).queue 0).gone.isEmpty && ((d.discard 0).queue 0).lost.length == 1) | none => false) &&
     (let d0 : Device := managed; let h := hdr 0; let p : Bytes := (le 2 9); let n := h.hoop; let f := fieldLe p;
       match d0.carries { op := 0x13, hoopScope := true, names := true, len := (· == 2) } h p with | some d => (!d.queueOf n 9) | none => false) &&
     (let d0 : Device := (managed.modQueue 0 (fun x => { x with entries := [fetched 0 0 []] })); let h := hdr 0; let p : Bytes := (le 2 0);
       let n := h.hoop; let f := fieldLe p;
       match d0.carries { op := 0x13, hoopScope := true, names := true, len := (· == 2) } h p with | some d => (d.queueOf n 0 && (d.queue 0).busy) | none => false) &&
     (let d0 : Device := (managed.modQueue 0 (fun x => { x with ring := 0x8000, shadow := 3 })); let h := hdr 0; let p : Bytes := (le 2 0);
       let n := h.hoop; let f := fieldLe p;
       match d0.carries { op := 0x13, hoopScope := true, names := true, len := (· == 2) } h p with | some d => (d.queueOf n 0 && !(d.queue 0).busy && !((d.discard 0).queue 0).gone.isEmpty) | none => false)) = true := by decide +kernel

set_option maxRecDepth 100000 in
theorem witness_ManagementMemory :
    ((let d0 : Device := managed; let h := hdr 0; let p : Bytes := (le 1 0 ++ le 1 5 ++ le 6 0 ++ le 32 0); let n := h.hoop; let f := fieldLe p;
       match d0.carries { op := 0x18, hoopScope := true, names := true, len := fun n => n == 40 || n == 72 || n == 520 } h p with | some d => ((d.segCheck h p).isNone) | none => false) &&
     (let d0 : Device := managed; let h := hdr 0; let p : Bytes := (le 1 0 ++ le 1 16 ++ le 6 0 ++ le 32 0); let n := h.hoop;
       let f := fieldLe p;
       match d0.carries { op := 0x18, hoopScope := true, names := true, len := fun n => n == 40 || n == 72 || n == 520 } h p with | some d => (d.segCheck h p == some (3, 1)) | none => false) &&
     (let d0 : Device := managed; let h := hdr 0; let p : Bytes := (le 1 0 ++ le 1 1 ++ le 6 0 ++ le 32 0); let n := h.hoop; let f := fieldLe p;
       match d0.carries { op := 0x18, hoopScope := true, names := true, len := fun n => n == 40 || n == 72 || n == 520 } h p with | some d => ((match d.segCheck h p with | some (0x100, _) => true | _ => false)) | none => false) &&
     (let d0 : Device := managed; let h := hdr 0 48; let p : Bytes := []; let n := h.hoop; let f := fieldLe p;
       match d0.carries { op := 0x19, hoopScope := true, names := true, reply := 48, read := true } h p with | some d => (((d.ownRead 4 9 (d.tableAddr n) 1600).readDev (d.tableAddr n) 1600).isSome) | none => false) &&
     (let d0 : Device := { managed with bad := [0] }; let h := hdr 0 48; let p : Bytes := []; let n := h.hoop; let f := fieldLe p;
       match d0.carries { op := 0x19, hoopScope := true, names := true, reply := 48, read := true } h p with | some d => (((d.ownRead 4 9 (d.tableAddr n) 1600).readDev (d.tableAddr n) 1600).isNone) | none => false) &&
     (let d0 : Device := managed; let h := hdr 0; let p : Bytes := (le 1 3 ++ le 1 0 ++ le 1 16 ++ le 1 0 ++ le 4 0 ++ le 4 0); let n := h.hoop;
       let f := fieldLe p;
       match d0.carries { op := 0x1A, hoopScope := true, names := true, len := (· == 12) } h p with | some d => (!(d.flow.sessions.any (fun (x : Nat × Sess) => x.2.state != 0 && d.sessIn n x.1) || (f 4 4 != 0 && (d.hx n).flipSlots.contains (f 0 1)) || (f 8 4 != 0 && (d.hx n).flipSlots.contains (f 1 1))) && (firstBad (d.poolChecks n p)).isNone && f 4 4 == 0) | none => false) &&
     (let d0 : Device := ({ managed with mem := managed.mem.write 0x60 (segBytes 0xF9 12 (2 ^ 20) (2 ^ 20) 1) }); let h := hdr 0;
       let p : Bytes := (le 1 3 ++ le 1 0 ++ le 1 16 ++ le 1 0 ++ le 4 4 ++ le 4 0); let n := h.hoop; let f := fieldLe p;
       match d0.carries { op := 0x1A, hoopScope := true, names := true, len := (· == 12) } h p with | some d => (!(d.flow.sessions.any (fun (x : Nat × Sess) => x.2.state != 0 && d.sessIn n x.1) || (f 4 4 != 0 && (d.hx n).flipSlots.contains (f 0 1)) || (f 8 4 != 0 && (d.hx n).flipSlots.contains (f 1 1))) && (firstBad (d.poolChecks n p)).isNone && f 4 4 == 4 && d.mem.lost.isNone) | none => false) &&
     (let d0 : Device := managed; let h := hdr 0; let p : Bytes := (le 1 3 ++ le 1 0 ++ le 1 15 ++ le 1 0 ++ le 4 0 ++ le 4 0); let n := h.hoop;
       let f := fieldLe p;
       match d0.carries { op := 0x1A, hoopScope := true, names := true, len := (· == 12) } h p with | some d => (!(d.flow.sessions.any (fun (x : Nat × Sess) => x.2.state != 0 && d.sessIn n x.1) || (f 4 4 != 0 && (d.hx n).flipSlots.contains (f 0 1)) || (f 8 4 != 0 && (d.hx n).flipSlots.contains (f 1 1))) && firstBad (d.poolChecks n p) == some 2) | none => false) &&
     (let d0 : Device := (({ managed with mem := managed.mem.write 0x60 (segBytes 0xF9 12 (2 ^ 20) (2 ^ 20) 1) }).setHx 0 { ({ managed with mem := managed.mem.write 0x60 (segBytes 0xF9 12 (2 ^ 20) (2 ^ 20) 1) }).hx 0 with flipSlots := [3] });
       let h := hdr 0; let p : Bytes := (le 1 3 ++ le 1 0 ++ le 1 16 ++ le 1 0 ++ le 4 4 ++ le 4 0); let n := h.hoop; let f := fieldLe p;
       match d0.carries { op := 0x1A, hoopScope := true, names := true, len := (· == 12) } h p with | some d => ((d.flow.sessions.any (fun (x : Nat × Sess) => x.2.state != 0 && d.sessIn n x.1) || (f 4 4 != 0 && (d.hx n).flipSlots.contains (f 0 1)) || (f 8 4 != 0 && (d.hx n).flipSlots.contains (f 1 1)))) | none => false) &&
     (let d0 : Device := (((((((managed.wr Reg.HOOP_KVPOOL_HBM_VALID 0 1).wr Reg.HOOP_KVPOOL_HBM_SEG 0 3).wr Reg.HOOP_KVPOOL_HBM_BLOCK_LOG2 0 16).wr Reg.HOOP_KVPOOL_HBM_BLOCKS 0 4).wr Reg.HOOP_KVFREE_HBM_FREE 0 4).wr Reg.HOOP_SESSIONS_COUNT 0 2).wr Reg.HOOP_SESSIONS_QUOTA 0 2);
       let h := hdr 0; let p : Bytes := (le 4 6 ++ le 1 16 ++ le 1 0 ++ le 2 16 ++ le 4 64 ++ le 4 32 ++ le 8 0x60000); let n := h.hoop;
       let f := fieldLe p;
       match d0.carries { op := 0x20, hoopScope := true, names := true, len := (· == 24) } h p with | some d => (d.rd Reg.HOOP_CFG_TABLES_LOCK n != 0 && (d.handleFree n (f 0 4)).isNone && (firstBad (d.allocChecks n p)).isNone && (d.rd Reg.HOOP_STATUS_OVER_QUOTA n != 1 && d.rd Reg.HOOP_KVUSE_LIVE n < d.rd Reg.HOOP_SESSIONS_QUOTA n && cdiv (Nat.min (f 12 4) 4096) (f 6 2) ≤ d.rd Reg.HOOP_KVFREE_HBM_FREE n) && Tab.lowestFree d.flow.sessions (d.rd Reg.HOOP_SESSIONS_BASE n) (d.rd Reg.HOOP_SESSIONS_COUNT n) == some 0) | none => false) &&
     (let d0 : Device := ((((((((managed.wr Reg.HOOP_KVPOOL_HBM_VALID 0 1).wr Reg.HOOP_KVPOOL_HBM_SEG 0 3).wr Reg.HOOP_KVPOOL_HBM_BLOCK_LOG2 0 16).wr Reg.HOOP_KVPOOL_HBM_BLOCKS 0 4).wr Reg.HOOP_KVFREE_HBM_FREE 0 4).wr Reg.HOOP_SESSIONS_COUNT 0 2).wr Reg.HOOP_SESSIONS_QUOTA 0 2).wr Reg.HOOP_CFG_TABLES_LOCK 0 0);
       let h := hdr 0; let p : Bytes := (le 4 6 ++ le 1 16 ++ le 1 0 ++ le 2 16 ++ le 4 64 ++ le 4 32 ++ le 8 0x60000); let n := h.hoop;
       let f := fieldLe p;
       match d0.carries { op := 0x20, hoopScope := true, names := true, len := (· == 24) } h p with | some d => (d.rd Reg.HOOP_CFG_TABLES_LOCK n == 0) | none => false) &&
     (let d0 : Device := (((((((managed.wr Reg.HOOP_KVPOOL_HBM_VALID 0 1).wr Reg.HOOP_KVPOOL_HBM_SEG 0 3).wr Reg.HOOP_KVPOOL_HBM_BLOCK_LOG2 0 16).wr Reg.HOOP_KVPOOL_HBM_BLOCKS 0 4).wr Reg.HOOP_KVFREE_HBM_FREE 0 4).wr Reg.HOOP_SESSIONS_COUNT 0 2).wr Reg.HOOP_SESSIONS_QUOTA 0 2);
       let h := hdr 0; let p : Bytes := (le 4 5 ++ le 1 16 ++ le 1 0 ++ le 2 16 ++ le 4 64 ++ le 4 32 ++ le 8 0x60000); let n := h.hoop;
       let f := fieldLe p;
       match d0.carries { op := 0x20, hoopScope := true, names := true, len := (· == 24) } h p with | some d => (d.rd Reg.HOOP_CFG_TABLES_LOCK n != 0 && d.handleFree n (f 0 4) == some 3) | none => false) &&
     (let d0 : Device := (((((((managed.wr Reg.HOOP_KVPOOL_HBM_VALID 0 1).wr Reg.HOOP_KVPOOL_HBM_SEG 0 3).wr Reg.HOOP_KVPOOL_HBM_BLOCK_LOG2 0 16).wr Reg.HOOP_KVPOOL_HBM_BLOCKS 0 4).wr Reg.HOOP_KVFREE_HBM_FREE 0 4).wr Reg.HOOP_SESSIONS_COUNT 0 2).wr Reg.HOOP_SESSIONS_QUOTA 0 2);
       let h := hdr 0; let p : Bytes := (le 4 6 ++ le 1 17 ++ le 1 0 ++ le 2 16 ++ le 4 64 ++ le 4 32 ++ le 8 0x60000); let n := h.hoop;
       let f := fieldLe p;
       match d0.carries { op := 0x20, hoopScope := true, names := true, len := (· == 24) } h p with | some d => (d.rd Reg.HOOP_CFG_TABLES_LOCK n != 0 && (d.handleFree n (f 0 4)).isNone && firstBad (d.allocChecks n p) == some 4) | none => false) &&
     (let d0 : Device := (((((((managed.wr Reg.HOOP_KVPOOL_HBM_VALID 0 1).wr Reg.HOOP_KVPOOL_HBM_SEG 0 3).wr Reg.HOOP_KVPOOL_HBM_BLOCK_LOG2 0 16).wr Reg.HOOP_KVPOOL_HBM_BLOCKS 0 4).wr Reg.HOOP_KVFREE_HBM_FREE 0 4).wr Reg.HOOP_SESSIONS_COUNT 0 2).wr Reg.HOOP_SESSIONS_QUOTA 0 0);
       let h := hdr 0; let p : Bytes := (le 4 6 ++ le 1 16 ++ le 1 0 ++ le 2 16 ++ le 4 64 ++ le 4 32 ++ le 8 0x60000); let n := h.hoop;
       let f := fieldLe p;
       match d0.carries { op := 0x20, hoopScope := true, names := true, len := (· == 24) } h p with | some d => (d.rd Reg.HOOP_CFG_TABLES_LOCK n != 0 && (d.handleFree n (f 0 4)).isNone && (firstBad (d.allocChecks n p)).isNone && !(d.rd Reg.HOOP_STATUS_OVER_QUOTA n != 1 && d.rd Reg.HOOP_KVUSE_LIVE n < d.rd Reg.HOOP_SESSIONS_QUOTA n && cdiv (Nat.min (f 12 4) 4096) (f 6 2) ≤ d.rd Reg.HOOP_KVFREE_HBM_FREE n)) | none => false) &&
     (let d0 : Device := (((((((managed.wr Reg.HOOP_KVPOOL_HBM_VALID 0 1).wr Reg.HOOP_KVPOOL_HBM_SEG 0 3).wr Reg.HOOP_KVPOOL_HBM_BLOCK_LOG2 0 16).wr Reg.HOOP_KVPOOL_HBM_BLOCKS 0 4).wr Reg.HOOP_KVFREE_HBM_FREE 0 4).wr Reg.HOOP_SESSIONS_COUNT 0 0).wr Reg.HOOP_SESSIONS_QUOTA 0 2);
       let h := hdr 0; let p : Bytes := (le 4 6 ++ le 1 16 ++ le 1 0 ++ le 2 16 ++ le 4 64 ++ le 4 32 ++ le 8 0x60000); let n := h.hoop;
       let f := fieldLe p;
       match d0.carries { op := 0x20, hoopScope := true, names := true, len := (· == 24) } h p with | some d => (d.rd Reg.HOOP_CFG_TABLES_LOCK n != 0 && (d.handleFree n (f 0 4)).isNone && (firstBad (d.allocChecks n p)).isNone && (d.rd Reg.HOOP_STATUS_OVER_QUOTA n != 1 && d.rd Reg.HOOP_KVUSE_LIVE n < d.rd Reg.HOOP_SESSIONS_QUOTA n && cdiv (Nat.min (f 12 4) 4096) (f 6 2) ≤ d.rd Reg.HOOP_KVFREE_HBM_FREE n) && Tab.lowestFree d.flow.sessions (d.rd Reg.HOOP_SESSIONS_BASE n) (d.rd Reg.HOOP_SESSIONS_COUNT n) == none) | none => false) &&
     (let d0 : Device := (let z := (((((((managed.wr Reg.HOOP_KVPOOL_HBM_VALID 0 1).wr Reg.HOOP_KVPOOL_HBM_SEG 0 3).wr Reg.HOOP_KVPOOL_HBM_BLOCK_LOG2 0 16).wr Reg.HOOP_KVPOOL_HBM_BLOCKS 0 4).wr Reg.HOOP_KVFREE_HBM_FREE 0 4).wr Reg.HOOP_SESSIONS_COUNT 0 2).wr Reg.HOOP_SESSIONS_QUOTA 0 2); { z with bad := (match (z.hbmPool 0).place (z.bitmapOff 0 false 0) with | .dev a => [a / 32] | _ => []) });
       let h := hdr 0; let p : Bytes := (le 4 6 ++ le 1 16 ++ le 1 0 ++ le 2 16 ++ le 4 64 ++ le 4 32 ++ le 8 0x60000); let n := h.hoop;
       let f := fieldLe p;
       match d0.carries { op := 0x20, hoopScope := true, names := true, len := (· == 24) } h p with | some d => (d.rd Reg.HOOP_CFG_TABLES_LOCK n != 0 && (d.handleFree n (f 0 4)).isNone && (firstBad (d.allocChecks n p)).isNone && (d.rd Reg.HOOP_STATUS_OVER_QUOTA n != 1 && d.rd Reg.HOOP_KVUSE_LIVE n < d.rd Reg.HOOP_SESSIONS_QUOTA n && cdiv (Nat.min (f 12 4) 4096) (f 6 2) ≤ d.rd Reg.HOOP_KVFREE_HBM_FREE n) && Tab.lowestFree d.flow.sessions (d.rd Reg.HOOP_SESSIONS_BASE n) (d.rd Reg.HOOP_SESSIONS_COUNT n) == some 0) | none => false) &&
     (let d0 : Device := managed; let h := hdr 0; let p : Bytes := (le 4 5); let n := h.hoop; let f := fieldLe p;
       match d0.carries { op := 0x21, hoopScope := true, names := true, len := (· == 4) } h p with | some d => ((match d.objRead n 5 with | .ok (_, 3, _) => true | _ => false)) | none => false) &&
     (let d0 : Device := managed; let h := hdr 0; let p : Bytes := (le 4 4); let n := h.hoop; let f := fieldLe p;
       match d0.carries { op := 0x21, hoopScope := true, names := true, len := (· == 4) } h p with | some d => ((match d.objRead n 4 with | .ok (_, t, _) => t != 3 | _ => false)) | none => false) &&
     (let d0 : Device := managed; let h := hdr 0; let p : Bytes := (le 4 2048); let n := h.hoop; let f := fieldLe p;
       match d0.carries { op := 0x21, hoopScope := true, names := true, len := (· == 4) } h p with | some d => ((match d.objRead n 2048 with | .error 4 => true | _ => false)) | none => false) &&
     (let d0 : Device := (let z := managed; { z with bad := match (z.seg 0 1).place 0x60000 with | .dev a => [a / 32] | .host _ => [] });
       let h := hdr 0; let p : Bytes := (le 4 0); let n := h.hoop; let f := fieldLe p;
       match d0.carries { op := 0x21, hoopScope := true, names := true, len := (· == 4) } h p with | some d => ((match d.objRead n 0 with | .error 0xA => true | _ => false)) | none => false) &&
     (let d0 : Device := (managed.wr Reg.HOOP_SESSIONS_COUNT 0 2); let h := hdr 0 64; let p : Bytes := (le 4 1); let n := h.hoop;
       let f := fieldLe p;
       match d0.carries { op := 0x22, hoopScope := true, names := true, len := (· == 4), reply := 64, read := true } h p with | some d => ((d.sessMet n 1).sessIn n 1) | none => false) &&
     (let d0 : Device := (managed.wr Reg.HOOP_SESSIONS_COUNT 0 2); let h := hdr 0 64; let p : Bytes := (le 4 2); let n := h.hoop;
       let f := fieldLe p;
       match d0.carries { op := 0x22, hoopScope := true, names := true, len := (· == 4), reply := 64, read := true } h p with | some d => (!(d.sessMet n 2).sessIn n 2) | none => false) &&
     (let d0 : Device := (managed.wr Reg.HOOP_CFG_TABLES_LOCK 0 0); let h := hdr 0;
       let p : Bytes := (le 4 6 ++ le 4 128 ++ le 8 (2 ^ 44 + 0x2000)); let n := h.hoop; let f := fieldLe p;
       match d0.carries { op := 0x28, hoopScope := true, names := true, len := (· == 16) } h p with | some d => (d.rd Reg.HOOP_CFG_TABLES_LOCK n == 0) | none => false) &&
     (let d0 : Device := (((managed.writeVa 0 (2 ^ 44 + 0x2000) (le 4 0x52435048 ++ le 2 1 ++ le 2 0 ++ le 4 1 ++ le 12 0 ++ le 4 64 ++ le 4 128 ++ le 4 128 ++ le 4 128 ++ le 4 0 ++ le 4 128 ++ le 16 0 ++ le 1 3 ++ le 15 0 ++ le 48 0)).getD {}).wr Reg.HOOP_RECIPES_STORE_MIB 0 1);
       let h := hdr 0; let p : Bytes := (le 4 6 ++ le 4 63 ++ le 8 (2 ^ 44 + 0x2000)); let n := h.hoop; let f := fieldLe p;
       match d0.carries { op := 0x28, hoopScope := true, names := true, len := (· == 16) } h p with | some d => (d.rd Reg.HOOP_CFG_TABLES_LOCK n != 0 && !(64 ≤ f 4 4 && f 4 4 ≤ 364608)) | none => false) &&
     (let d0 : Device := (((managed.writeVa 0 (2 ^ 44 + 0x2000) (le 4 0x52435048 ++ le 2 1 ++ le 2 0 ++ le 4 1 ++ le 12 0 ++ le 4 64 ++ le 4 128 ++ le 4 128 ++ le 4 128 ++ le 4 0 ++ le 4 128 ++ le 16 0 ++ le 1 3 ++ le 15 0 ++ le 48 0)).getD {}).wr Reg.HOOP_RECIPES_STORE_MIB 0 1);
       let h := hdr 0; let p : Bytes := (le 4 6 ++ le 4 364609 ++ le 8 (2 ^ 44 + 0x2000)); let n := h.hoop; let f := fieldLe p;
       match d0.carries { op := 0x28, hoopScope := true, names := true, len := (· == 16) } h p with | some d => (d.rd Reg.HOOP_CFG_TABLES_LOCK n != 0 && !(64 ≤ f 4 4 && f 4 4 ≤ 364608)) | none => false) &&
     (let d0 : Device := (((managed.writeVa 0 (2 ^ 44 + 0x2000) (le 4 0x52435048 ++ le 2 1 ++ le 2 0 ++ le 4 1 ++ le 12 0 ++ le 4 64 ++ le 4 128 ++ le 4 128 ++ le 4 128 ++ le 4 0 ++ le 4 128 ++ le 16 0 ++ le 1 3 ++ le 15 0 ++ le 48 0)).getD {}).wr Reg.HOOP_RECIPES_STORE_MIB 0 1);
       let h := hdr 0; let p : Bytes := (le 4 6 ++ le 4 128 ++ le 8 (2 ^ 45)); let n := h.hoop; let f := fieldLe p;
       match d0.carries { op := 0x28, hoopScope := true, names := true, len := (· == 16) } h p with | some d => (d.rd Reg.HOOP_CFG_TABLES_LOCK n != 0 && 64 ≤ f 4 4 && f 4 4 ≤ 364608 && (match d.readVa n (f 8 8) (f 4 4) with | .error e => e != 0xA && e != hostTier | _ => false)) | none => false) &&
     (let d0 : Device := (let z := managed; { z with bad := match (z.seg 0 1).place 0x2000 with | .dev a => [a / 32] | .host _ => [] });
       let h := hdr 0; let p : Bytes := (le 4 6 ++ le 4 128 ++ le 8 (2 ^ 44 + 0x2000)); let n := h.hoop; let f := fieldLe p;
       match d0.carries { op := 0x28, hoopScope := true, names := true, len := (· == 16) } h p with | some d => (d.rd Reg.HOOP_CFG_TABLES_LOCK n != 0 && 64 ≤ f 4 4 && f 4 4 ≤ 364608 && (match d.readVa n (f 8 8) (f 4 4) with | .error e => e == 0xA | _ => false)) | none => false) &&
     (let d0 : Device := (let z := managed; { z with pcie := { z.pcie with vfEnable := true, numVfs := 3 } }); let h := hdr 0;
       let p : Bytes := (le 4 6 ++ le 4 128 ++ le 8 (0x2000)); let n := h.hoop; let f := fieldLe p;
       match d0.carries { op := 0x28, hoopScope := true, names := true, len := (· == 16) } h p with | some d => (d.rd Reg.HOOP_CFG_TABLES_LOCK n != 0 && 64 ≤ f 4 4 && f 4 4 ≤ 364608 && (match d.readVa n (f 8 8) (f 4 4) with | .error e => e == hostTier && !d.mayMaster (d.ownerFn n) | _ => false)) | none => false) &&
     (let d0 : Device := managed; let h := hdr 0; let p : Bytes := (le 4 6 ++ le 4 128 ++ le 8 (0x2000)); let n := h.hoop; let f := fieldLe p;
       match d0.carries { op := 0x28, hoopScope := true, names := true, len := (· == 16) } h p with | some d => (d.rd Reg.HOOP_CFG_TABLES_LOCK n != 0 && 64 ≤ f 4 4 && f 4 4 ≤ 364608 && (match d.readVa n (f 8 8) (f 4 4) with | .error e => e == hostTier && d.mayMaster (d.ownerFn n) | _ => false)) | none => false) &&
     (let d0 : Device := (((managed.writeVa 0 (2 ^ 44 + 0x2000) (le 4 2 ++ le 4 0 ++ le 8 2 ++ le 2 2 ++ le 6 0 ++ le 4 16 ++ le 4 4 ++ le 4 4 ++ le 4 0 ++ le 1 1 ++ le 1 0 ++ le 6 0 ++ le 16 0)).getD {}).wr Reg.HOOP_RECIPES_STORE_MIB 0 1);
       let h := hdr 0; let p : Bytes := (le 4 6 ++ le 4 64 ++ le 8 (2 ^ 44 + 0x2000)); let n := h.hoop; let f := fieldLe p;
       match d0.carries { op := 0x28, hoopScope := true, names := true, len := (· == 16) } h p with | some d => (d.rd Reg.HOOP_CFG_TABLES_LOCK n != 0 && 64 ≤ f 4 4 && f 4 4 ≤ 364608 && (match d.readVa n (f 8 8) (f 4 4) with | .ok b => (parseRecipe b (f 4 4) (d.rd Reg.HOOP_CFG_DEP_MODEL n == 1)).isNone | _ => false)) | none => false) &&
     (let d0 : Device := (((managed.writeVa 0 (2 ^ 44 + 0x2000) (le 4 0x52435048 ++ le 2 1 ++ le 2 0 ++ le 4 1 ++ le 12 0 ++ le 4 64 ++ le 4 128 ++ le 4 128 ++ le 4 128 ++ le 4 0 ++ le 4 128 ++ le 16 0 ++ le 1 3 ++ le 15 0 ++ le 48 0)).getD {}).wr Reg.HOOP_RECIPES_STORE_MIB 0 1);
       let h := hdr 0; let p : Bytes := (le 4 5 ++ le 4 128 ++ le 8 (2 ^ 44 + 0x2000)); let n := h.hoop; let f := fieldLe p;
       match d0.carries { op := 0x28, hoopScope := true, names := true, len := (· == 16) } h p with | some d => (d.rd Reg.HOOP_CFG_TABLES_LOCK n != 0 && 64 ≤ f 4 4 && f 4 4 ≤ 364608 && (match d.readVa n (f 8 8) (f 4 4) with | .ok b => (match parseRecipe b (f 4 4) (d.rd Reg.HOOP_CFG_DEP_MODEL n == 1) with | some r => (let mine := d.work.recipes.filter (fun (x : Nat × Recipe) => x.1 / 1024 == n); let used := mine.foldl (fun n (x : Nat × Recipe) => n + x.2.size) 0; let free := (List.range 1024).find? (fun i => (d.recipe? n i).isNone); d.handleFree n (f 0 4) == some 3) | none => false) | _ => false)) | none => false) &&
     (let d0 : Device := (((managed.writeVa 0 (2 ^ 44 + 0x2000) (le 4 0x52435048 ++ le 2 1 ++ le 2 0 ++ le 4 1 ++ le 8 0 ++ le 4 1 ++ le 4 64 ++ le 4 128 ++ le 4 128 ++ le 4 128 ++ le 4 0 ++ le 4 192 ++ le 16 0 ++ le 1 3 ++ le 15 0 ++ le 48 0 ++ le 4 2048 ++ le 60 0)).getD {}).wr Reg.HOOP_RECIPES_STORE_MIB 0 1);
       let h := hdr 0; let p : Bytes := (le 4 6 ++ le 4 192 ++ le 8 (2 ^ 44 + 0x2000)); let n := h.hoop; let f := fieldLe p;
       match d0.carries { op := 0x28, hoopScope := true, names := true, len := (· == 16) } h p with | some d => (d.rd Reg.HOOP_CFG_TABLES_LOCK n != 0 && 64 ≤ f 4 4 && f 4 4 ≤ 364608 && (match d.readVa n (f 8 8) (f 4 4) with | .ok b => (match parseRecipe b (f 4 4) (d.rd Reg.HOOP_CFG_DEP_MODEL n == 1) with | some r => (let mine := d.work.recipes.filter (fun (x : Nat × Recipe) => x.1 / 1024 == n); let used := mine.foldl (fun n (x : Nat × Recipe) => n + x.2.size) 0; let free := (List.range 1024).find? (fun i => (d.recipe? n i).isNone); (d.handleFree n (f 0 4)).isNone && r.objects.findSome? (fun x => d.objCheck n x) == some 4) | none => false) | _ => false)) | none => false) &&
     (let d0 : Device := (((managed.writeVa 0 (2 ^ 44 + 0x2000) (le 4 0x52435048 ++ le 2 1 ++ le 2 0 ++ le 4 1 ++ le 12 0 ++ le 4 64 ++ le 4 128 ++ le 4 128 ++ le 4 128 ++ le 4 0 ++ le 4 128 ++ le 16 0 ++ le 1 3 ++ le 15 0 ++ le 48 0)).getD {}).wr Reg.HOOP_RECIPES_STORE_MIB 0 0);
       let h := hdr 0; let p : Bytes := (le 4 6 ++ le 4 128 ++ le 8 (2 ^ 44 + 0x2000)); let n := h.hoop; let f := fieldLe p;
       match d0.carries { op := 0x28, hoopScope := true, names := true, len := (· == 16) } h p with | some d => (d.rd Reg.HOOP_CFG_TABLES_LOCK n != 0 && 64 ≤ f 4 4 && f 4 4 ≤ 364608 && (match d.readVa n (f 8 8) (f 4 4) with | .ok b => (match parseRecipe b (f 4 4) (d.rd Reg.HOOP_CFG_DEP_MODEL n == 1) with | some r => (let mine := d.work.recipes.filter (fun (x : Nat × Recipe) => x.1 / 1024 == n); let used := mine.foldl (fun n (x : Nat × Recipe) => n + x.2.size) 0; let free := (List.range 1024).find? (fun i => (d.recipe? n i).isNone); (d.handleFree n (f 0 4)).isNone && (r.objects.findSome? (fun x => d.objCheck n x)).isNone && d.rd Reg.HOOP_RECIPES_STORE_MIB n * 2 ^ 20 < used + r.size) | none => false) | _ => false)) | none => false) &&
     (let d0 : Device := (((managed.writeVa 0 (2 ^ 44 + 0x2000) (le 4 0x52435048 ++ le 2 1 ++ le 2 0 ++ le 4 1 ++ le 12 0 ++ le 4 64 ++ le 4 128 ++ le 4 128 ++ le 4 128 ++ le 4 0 ++ le 4 128 ++ le 16 0 ++ le 1 3 ++ le 15 0 ++ le 48 0)).getD {}).wr Reg.HOOP_RECIPES_STORE_MIB 0 1);
       let h := hdr 0; let p : Bytes := (le 4 6 ++ le 4 128 ++ le 8 (2 ^ 44 + 0x2000)); let n := h.hoop; let f := fieldLe p;
       match d0.carries { op := 0x28, hoopScope := true, names := true, len := (· == 16) } h p with | some d => (d.rd Reg.HOOP_CFG_TABLES_LOCK n != 0 && 64 ≤ f 4 4 && f 4 4 ≤ 364608 && (match d.readVa n (f 8 8) (f 4 4) with | .ok b => (match parseRecipe b (f 4 4) (d.rd Reg.HOOP_CFG_DEP_MODEL n == 1) with | some r => (let mine := d.work.recipes.filter (fun (x : Nat × Recipe) => x.1 / 1024 == n); let used := mine.foldl (fun n (x : Nat × Recipe) => n + x.2.size) 0; let free := (List.range 1024).find? (fun i => (d.recipe? n i).isNone); (d.handleFree n (f 0 4)).isNone && (r.objects.findSome? (fun x => d.objCheck n x)).isNone && free == some 0 && used + r.size ≤ d.rd Reg.HOOP_RECIPES_STORE_MIB n * 2 ^ 20) | none => false) | _ => false)) | none => false) &&
     (let d0 : Device := managed; let h := hdr 0;
       let p : Bytes := (le 1 2 ++ le 1 8 ++ le 1 4 ++ le 1 1 ++ le 4 0 ++ le 8 (2 ^ 44 + 0x20000) ++ le 8 (2 ^ 44 + 0x30000));
       let n := h.hoop; let f := fieldLe p;
       match d0.carries { op := 0x38, hoopScope := true, names := true, len := (· == 24) } h p with | some d => ((firstBad (d.rxqChecks n p)).isNone && f 3 1 == 1 && (Tab.get {} d.klz.rxqs 2).accept == 0) | none => false) &&
     (let d0 : Device := (let z := managed; z.setKlz { z.klz with rxqs := [(2, { accept := 1, ring := 7 })] }); let h := hdr 0;
       let p : Bytes := (le 1 2 ++ le 1 8 ++ le 1 4 ++ le 1 0 ++ le 4 0 ++ le 8 (2 ^ 44 + 0x20000) ++ le 8 (2 ^ 44 + 0x30000));
       let n := h.hoop; let f := fieldLe p;
       match d0.carries { op := 0x38, hoopScope := true, names := true, len := (· == 24) } h p with | some d => (f 0 1 ≤ 15 && f 3 1 == 0 && zeroAt p 4 4) | none => false) &&
     (let d0 : Device := managed; let h := hdr 0;
       let p : Bytes := (le 1 2 ++ le 1 14 ++ le 1 4 ++ le 1 1 ++ le 4 0 ++ le 8 (2 ^ 44 + 0x20000) ++ le 8 (2 ^ 44 + 0x30000));
       let n := h.hoop; let f := fieldLe p;
       match d0.carries { op := 0x38, hoopScope := true, names := true, len := (· == 24) } h p with | some d => (firstBad (d.rxqChecks n p) == some 1 && f 3 1 != 0) | none => false) &&
     (let d0 : Device := managed; let h := hdr 0;
       let p : Bytes := (le 1 2 ++ le 1 8 ++ le 1 4 ++ le 1 0 ++ le 4 1 ++ le 8 (2 ^ 44 + 0x20000) ++ le 8 (2 ^ 44 + 0x30000));
       let n := h.hoop; let f := fieldLe p;
       match d0.carries { op := 0x38, hoopScope := true, names := true, len := (· == 24) } h p with | some d => (f 3 1 == 0 && !zeroAt p 4 4 && (firstBad (d.rxqChecks n p)).isSome) | none => false) &&
     (let d0 : Device := (let z := managed; z.setKlz { z.klz with rxqs := [(2, { accept := 1, ring := 7 })] }); let h := hdr 0;
       let p : Bytes := (le 1 2 ++ le 1 8 ++ le 1 4 ++ le 1 1 ++ le 4 0 ++ le 8 (2 ^ 44 + 0x20000) ++ le 8 (2 ^ 44 + 0x30000));
       let n := h.hoop; let f := fieldLe p;
       match d0.carries { op := 0x38, hoopScope := true, names := true, len := (· == 24) } h p with | some d => ((firstBad (d.rxqChecks n p)).isNone && f 3 1 == 1 && (Tab.get {} d.klz.rxqs 2).accept != 0) | none => false) &&
     (let d0 : Device := (managed.wr Reg.HOOP_REMOTE_SLICE_CHIPS 0 2); let h := hdr 0 64; let p : Bytes := []; let n := h.hoop;
       let f := fieldLe p;
       match d0.carries { op := 0x39, hoopScope := true, names := true, reply := 2, read := true } h p with | some d => (d0.rd Reg.HOOP_REMOTE_SLICE_CHIPS n == 2) | none => false)) = true := by decide +kernel

set_option maxRecDepth 100000 in
theorem witness_ManagementModule :
    ((let d0 : Device := managed; let h := hdr 0;
       let p : Bytes := (le 2 1 ++ le 6 0 ++ le 16 0 ++ (le 1 255 ++ le 15 0 ++ le 32 0 ++ List.replicate 16 0xFF ++ le 240 0));
       let n := h.hoop; let f := fieldLe p;
       match d0.carries { op := 0x30, len := fun n => 328 ≤ n && n ≤ 81928 } h p with | some d => ((1 ≤ f 0 2 && f 0 2 ≤ 256 && p.length == 8 + 320 * f 0 2) && zeroAt p 2 6 && ((List.range (f 0 2)).map (fun i => parseRow (slice p (8 + 320 * i) 320))).all (·.2)) | none => false) &&
     (let d0 : Device := managed; let h := hdr 0;
       let p : Bytes := (le 2 2 ++ le 6 0 ++ le 16 0 ++ (le 1 255 ++ le 15 0 ++ le 32 0 ++ List.replicate 16 0xFF ++ le 240 0));
       let n := h.hoop; let f := fieldLe p;
       match d0.carries { op := 0x30, len := fun n => 328 ≤ n && n ≤ 81928 } h p with | some d => (!(1 ≤ f 0 2 && f 0 2 ≤ 256 && p.length == 8 + 320 * f 0 2)) | none => false) &&
     (let d0 : Device := managed; let h := hdr 0;
       let p : Bytes := (le 2 1 ++ le 6 1 ++ le 16 0 ++ (le 1 255 ++ le 15 0 ++ le 32 0 ++ List.replicate 16 0xFF ++ le 240 0));
       let n := h.hoop; let f := fieldLe p;
       match d0.carries { op := 0x30, len := fun n => 328 ≤ n && n ≤ 81928 } h p with | some d => ((1 ≤ f 0 2 && f 0 2 ≤ 256 && p.length == 8 + 320 * f 0 2) && !zeroAt p 2 6) | none => false) &&
     (let d0 : Device := managed; let h := hdr 0;
       let p : Bytes := (le 2 2 ++ le 6 0 ++ le 16 0 ++ (le 1 255 ++ le 15 0 ++ le 32 0 ++ List.replicate 16 0xFF ++ le 240 0) ++ (le 320 0));
       let n := h.hoop; let f := fieldLe p;
       match d0.carries { op := 0x30, len := fun n => 328 ≤ n && n ≤ 81928 } h p with | some d => ((1 ≤ f 0 2 && f 0 2 ≤ 256 && p.length == 8 + 320 * f 0 2) && zeroAt p 2 6 && ((List.range (f 0 2)).map (fun i => parseRow (slice p (8 + 320 * i) 320))).findIdx? (fun r => !r.2) == some 1) | none => false) &&
     (let d0 : Device := (managed.wr Reg.KLZ_ID_ROLE 0 2); let h := hdr 0; let p : Bytes := (le 4 250); let n := h.hoop; let f := fieldLe p;
       match d0.carries { op := 0x31, len := (· == 4) } h p with | some d => ((d.role == 2 && !(d.rd Reg.KLZ_TICK_TM_PRESENT == 1 && d.rd Reg.KLZ_ID_TIME_MASTER == 0))) | none => false) &&
     (let d0 : Device := (managed.wr Reg.KLZ_ID_ROLE 0 2); let h := hdr 0; let p : Bytes := (le 4 64000); let n := h.hoop; let f := fieldLe p;
       match d0.carries { op := 0x31, len := (· == 4) } h p with | some d => ((d.role == 2 && !(d.rd Reg.KLZ_TICK_TM_PRESENT == 1 && d.rd Reg.KLZ_ID_TIME_MASTER == 0))) | none => false) &&
     (let d0 : Device := (managed.wr Reg.KLZ_ID_ROLE 0 2); let h := hdr 0; let p : Bytes := (le 4 249); let n := h.hoop; let f := fieldLe p;
       match d0.carries { op := 0x31, len := (· == 4) } h p with | some d => ((d.role == 2 && !(d.rd Reg.KLZ_TICK_TM_PRESENT == 1 && d.rd Reg.KLZ_ID_TIME_MASTER == 0))) | none => false) &&
     (let d0 : Device := (managed.wr Reg.KLZ_ID_ROLE 0 2); let h := hdr 0; let p : Bytes := (le 4 64001); let n := h.hoop; let f := fieldLe p;
       match d0.carries { op := 0x31, len := (· == 4) } h p with | some d => ((d.role == 2 && !(d.rd Reg.KLZ_TICK_TM_PRESENT == 1 && d.rd Reg.KLZ_ID_TIME_MASTER == 0))) | none => false) &&
     (let d0 : Device := managed; let h := hdr 0; let p : Bytes := (le 4 500); let n := h.hoop; let f := fieldLe p;
       match d0.carries { op := 0x31, len := (· == 4) } h p with | some d => (!(d.role == 2 && !(d.rd Reg.KLZ_TICK_TM_PRESENT == 1 && d.rd Reg.KLZ_ID_TIME_MASTER == 0))) | none => false) &&
     (let d0 : Device := ((managed.wr Reg.KLZ_ID_ROLE 0 2).wr Reg.KLZ_TICK_TM_PRESENT 0 1); let h := hdr 0; let p : Bytes := (le 4 500);
       let n := h.hoop; let f := fieldLe p;
       match d0.carries { op := 0x31, len := (· == 4) } h p with | some d => (!(d.role == 2 && !(d.rd Reg.KLZ_TICK_TM_PRESENT == 1 && d.rd Reg.KLZ_ID_TIME_MASTER == 0))) | none => false) &&
     (let d0 : Device := (managed.wr Reg.KLZ_ID_ROLE 0 2); let h := hdr 0; let p : Bytes := (le 1 0); let n := h.hoop; let f := fieldLe p;
       match d0.carries { op := 0x32, len := (· == 1) } h p with | some d => (d.role == 2) | none => false) &&
     (let d0 : Device := (let z := (managed.wr Reg.KLZ_ID_ROLE 0 2); z.setKlz { z.klz with master := some z.ownChip }); let h := hdr 0;
       let p : Bytes := (le 1 0); let n := h.hoop; let f := fieldLe p;
       match d0.carries { op := 0x32, len := (· == 1) } h p with | some d => (d.role == 2 && d.klz.master == some d.ownChip) | none => false) &&
     (let d0 : Device := (managed.wr Reg.KLZ_ID_ROLE 0 2); let h := hdr 0; let p : Bytes := (le 1 1); let n := h.hoop; let f := fieldLe p;
       match d0.carries { op := 0x32, len := (· == 1) } h p with | some d => (d.role == 2) | none => false) &&
     (let d0 : Device := (managed.wr Reg.KLZ_ID_ROLE 0 2); let h := hdr 0; let p : Bytes := (le 1 2); let n := h.hoop; let f := fieldLe p;
       match d0.carries { op := 0x32, len := (· == 1) } h p with | some d => (d.role == 2) | none => false) &&
     (let d0 : Device := managed; let h := hdr 0; let p : Bytes := (le 1 0); let n := h.hoop; let f := fieldLe p;
       match d0.carries { op := 0x32, len := (· == 1) } h p with | some d => (d.role != 2) | none => false) &&
     (let d0 : Device := (managed.wr Reg.KLZ_ID_ROLE 0 2); let h := hdr 0 64; let p : Bytes := []; let n := h.hoop; let f := fieldLe p;
       match d0.carries { op := 0x3A, sb := true, reply := 64 } h p with | some d => (d.role == 2) | none => false) &&
     (let d0 : Device := managed; let h := hdr 0 64; let p : Bytes := []; let n := h.hoop; let f := fieldLe p;
       match d0.carries { op := 0x3A, sb := true, reply := 64 } h p with | some d => (d.role != 2) | none => false) &&
     (let d0 : Device := (managed.wr Reg.KLZ_PORT_STATUS_STATE 7 6); let h := hdr 0; let p : Bytes := (le 1 7); let n := h.hoop;
       let f := fieldLe p; match d0.carries { op := 0x3B, len := (· == 1) } h p with | some d => (d.portState 7 == 6) | none => false) &&
     (let d0 : Device := (managed.wr Reg.KLZ_PORT_STATUS_STATE 7 4); let h := hdr 0; let p : Bytes := (le 1 7); let n := h.hoop;
       let f := fieldLe p; match d0.carries { op := 0x3B, len := (· == 1) } h p with | some d => (d.portState 7 == 4) | none => false) &&
     (let d0 : Device := managed; let h := hdr 0; let p : Bytes := (le 1 8); let n := h.hoop; let f := fieldLe p;
       match d0.carries { op := 0x3B, len := (· == 1) } h p with | some d => (true) | none => false) &&
     (let d0 : Device := managed; let h := hdr 0; let p : Bytes := (le 4 900); let n := h.hoop; let f := fieldLe p;
       match d0.carries { op := 0x40, sb := true, len := (· == 4) } h p with | some d => (true) | none => false) &&
     (let d0 : Device := managed; let h := hdr 0; let p : Bytes := (le 4 2400); let n := h.hoop; let f := fieldLe p;
       match d0.carries { op := 0x40, sb := true, len := (· == 4) } h p with | some d => (true) | none => false) &&
     (let d0 : Device := managed; let h := hdr 0; let p : Bytes := (le 4 899); let n := h.hoop; let f := fieldLe p;
       match d0.carries { op := 0x40, sb := true, len := (· == 4) } h p with | some d => (true) | none => false) &&
     (let d0 : Device := managed; let h := hdr 0; let p : Bytes := (le 4 2401); let n := h.hoop; let f := fieldLe p;
       match d0.carries { op := 0x40, sb := true, len := (· == 4) } h p with | some d => (true) | none => false) &&
     (let d0 : Device := managed; let h := hdr 0 64; let p : Bytes := []; let n := h.hoop; let f := fieldLe p;
       match d0.carries { op := 0x41, sb := true, reply := 64 } h p with | some d => (true) | none => false) &&
     (let d0 : Device := managed; let h := hdr 0; let p : Bytes := (le 1 1 ++ le 1 8); let n := h.hoop; let f := fieldLe p;
       match d0.carries { op := 0x42, len := (· == 2) } h p with | some d => (true) | none => false) &&
     (let d0 : Device := managed; let h := hdr 0; let p : Bytes := (le 1 2 ++ le 1 7); let n := h.hoop; let f := fieldLe p;
       match d0.carries { op := 0x42, len := (· == 2) } h p with | some d => (true) | none => false) &&
     (let d0 : Device := managed; let h := hdr 0; let p : Bytes := (le 1 1 ++ le 1 9); let n := h.hoop; let f := fieldLe p;
       match d0.carries { op := 0x42, len := (· == 2) } h p with | some d => (true) | none => false)) = true := by decide +kernel

set_option maxRecDepth 100000 in
theorem witness_ManagementStatistics :
    ((let d0 : Device := managed; let h := hdr 0 4096; let p : Bytes := (le 1 1 ++ le 1 1 ++ le 6 0 ++ le 8 (2 ^ 44 + 2 ^ 18)); let n := h.hoop;
       let f := fieldLe p;
       match d0.carries { op := 0x48, hoopScope := true, names := true, len := (· == 16), reply := 4096 } h p with | some d => (firstBad [(0, f 0 1 ≤ 1), (1, f 1 1 ≤ 1), (2, zeroAt p 2 6), (8, f 8 8 % 2 ^ 18 == 0 && d.hbmWritable n (f 8 8) (2 ^ 18))] == none) | none => false) &&
     (let d0 : Device := managed; let h := hdr 0 4096; let p : Bytes := (le 1 0 ++ le 1 0 ++ le 6 0 ++ le 8 (2 ^ 44 + 2 ^ 18)); let n := h.hoop;
       let f := fieldLe p;
       match d0.carries { op := 0x48, hoopScope := true, names := true, len := (· == 16), reply := 0 } h p with | some d => (firstBad [(0, f 0 1 ≤ 1), (1, f 1 1 ≤ 1), (2, zeroAt p 2 6), (8, f 8 8 % 2 ^ 18 == 0 && d.hbmWritable n (f 8 8) (2 ^ 18))] == none) | none => false) &&
     (let d0 : Device := managed; let h := hdr 0 4096; let p : Bytes := (le 1 2 ++ le 1 0 ++ le 6 0 ++ le 8 (2 ^ 44 + 2 ^ 18)); let n := h.hoop;
       let f := fieldLe p;
       match d0.carries { op := 0x48, hoopScope := true, names := true, len := (· == 16), reply := 0 } h p with | some d => (firstBad [(0, f 0 1 ≤ 1), (1, f 1 1 ≤ 1), (2, zeroAt p 2 6), (8, f 8 8 % 2 ^ 18 == 0 && d.hbmWritable n (f 8 8) (2 ^ 18))] == some 0) | none => false) &&
     (let d0 : Device := managed; let h := hdr 0 4096; let p : Bytes := (le 1 1 ++ le 1 0 ++ le 6 1 ++ le 8 (2 ^ 44 + 2 ^ 18)); let n := h.hoop;
       let f := fieldLe p;
       match d0.carries { op := 0x48, hoopScope := true, names := true, len := (· == 16), reply := 0 } h p with | some d => (firstBad [(0, f 0 1 ≤ 1), (1, f 1 1 ≤ 1), (2, zeroAt p 2 6), (8, f 8 8 % 2 ^ 18 == 0 && d.hbmWritable n (f 8 8) (2 ^ 18))] == some 2) | none => false) &&
     (let d0 : Device := managed; let h := hdr 0 4096; let p : Bytes := (le 1 1 ++ le 1 0 ++ le 6 0 ++ le 8 (2 ^ 44 + 8)); let n := h.hoop;
       let f := fieldLe p;
       match d0.carries { op := 0x48, hoopScope := true, names := true, len := (· == 16), reply := 0 } h p with | some d => (firstBad [(0, f 0 1 ≤ 1), (1, f 1 1 ≤ 1), (2, zeroAt p 2 6), (8, f 8 8 % 2 ^ 18 == 0 && d.hbmWritable n (f 8 8) (2 ^ 18))] == some 8) | none => false) &&
     (let d0 : Device := managed; let h := hdr 0; let p : Bytes := (le 1 1 ++ le 1 31 ++ le 1 10); let n := h.hoop; let f := fieldLe p;
       match d0.carries { op := 0x49, hoopScope := true, names := true, len := (· == 3) } h p with | some d => (true) | none => false) &&
     (let d0 : Device := managed; let h := hdr 0; let p : Bytes := (le 1 4 ++ le 1 7 ++ le 1 0); let n := h.hoop; let f := fieldLe p;
       match d0.carries { op := 0x49, hoopScope := true, names := true, len := (· == 3) } h p with | some d => (true) | none => false) &&
     (let d0 : Device := managed; let h := hdr 0; let p : Bytes := (le 1 8 ++ le 1 31 ++ le 1 0); let n := h.hoop; let f := fieldLe p;
       match d0.carries { op := 0x49, hoopScope := true, names := false, len := (· == 3) } h p with | some d => (h.ring == 0) | none => false) &&
     (let d0 : Device := managed; let h := hdr 0; let p : Bytes := (le 1 14 ++ le 1 31 ++ le 1 0); let n := h.hoop; let f := fieldLe p;
       match d0.carries { op := 0x49, hoopScope := true, names := false, len := (· == 3) } h p with | some d => (h.ring == 0) | none => false) &&
     (let d0 : Device := (let z := managed; (((({ z with pcie := { z.pcie with vfEnable := true, numVfs := 1, busMaster := 3 } }).wr Reg.MGMT_RING_ENABLE 1 1).wr Reg.MGMT_RING_SIZE_LOG2 1 4).wr Reg.MGMT_TAIL_TAIL 1 1));
       let h := { hdr 0 with ring := 1 }; let p : Bytes := (le 1 8 ++ le 1 0 ++ le 1 0); let n := h.hoop; let f := fieldLe p;
       match d0.carries { op := 0x49, hoopScope := true, names := true, len := (· == 3) } h p with | some d => (h.ring != 0) | none => false) &&
     (let d0 : Device := managed; let h := hdr 0; let p : Bytes := (le 1 5 ++ le 1 0 ++ le 1 0); let n := h.hoop; let f := fieldLe p;
       match d0.carries { op := 0x49, hoopScope := true, names := true, len := (· == 3) } h p with | some d => (true) | none => false) &&
     (let d0 : Device := managed; let h := hdr 0; let p : Bytes := (le 1 15 ++ le 1 0 ++ le 1 0); let n := h.hoop; let f := fieldLe p;
       match d0.carries { op := 0x49, hoopScope := true, names := true, len := (· == 3) } h p with | some d => (true) | none => false) &&
     (let d0 : Device := managed; let h := hdr 0; let p : Bytes := (le 1 1 ++ le 1 32 ++ le 1 0); let n := h.hoop; let f := fieldLe p;
       match d0.carries { op := 0x49, hoopScope := true, names := true, len := (· == 3) } h p with | some d => (true) | none => false) &&
     (let d0 : Device := managed; let h := hdr 0; let p : Bytes := (le 1 1 ++ le 1 0 ++ le 1 11); let n := h.hoop; let f := fieldLe p;
       match d0.carries { op := 0x49, hoopScope := true, names := true, len := (· == 3) } h p with | some d => (true) | none => false) &&
     (let d0 : Device := managed; let h := hdr 0; let p : Bytes := (le 1 2 ++ le 1 0 ++ le 1 1); let n := h.hoop; let f := fieldLe p;
       match d0.carries { op := 0x49, hoopScope := true, names := true, len := (· == 3) } h p with | some d => (true) | none => false) &&
     (let d0 : Device := managed; let h := hdr 0;
       let p : Bytes := (le 1 1 ++ le 1 0 ++ le 1 7 ++ le 1 0 ++ le 2 6 ++ le 2 0 ++ le 4 100 ++ le 4 0 ++ le 8 (2 ^ 44 + 0x40000));
       let n := h.hoop; let f := fieldLe p;
       match d0.carries { op := 0x4A, hoopScope := true, names := true, len := (· == 24) } h p with | some d => (d.rd Reg.HOOP_TRACE_ENABLE n != 1 && (if f 0 1 = 0 then none else firstBad [(0, f 0 1 ≤ 1), (1, f 1 1 ≤ 1), (2, 7 ≤ f 2 1 && f 2 1 ≤ 21), (3, zeroAt p 3 1), (4, f 4 2 % 2 == 0 && f 4 2 < 512), (6, zeroAt p 6 2), (12, zeroAt p 12 4), (16, f 16 8 % 4096 == 0 && d.hbmWritable n (f 16 8) 1)]) == none) | none => false) &&
     (let d0 : Device := managed; let h := hdr 0;
       let p : Bytes := (le 1 0 ++ le 1 0 ++ le 1 7 ++ le 1 0 ++ le 2 6 ++ le 2 0 ++ le 4 100 ++ le 4 0 ++ le 8 (2 ^ 44 + 0x40000));
       let n := h.hoop; let f := fieldLe p;
       match d0.carries { op := 0x4A, hoopScope := true, names := true, len := (· == 24) } h p with | some d => (d.rd Reg.HOOP_TRACE_ENABLE n != 1 && (if f 0 1 = 0 then none else firstBad [(0, f 0 1 ≤ 1), (1, f 1 1 ≤ 1), (2, 7 ≤ f 2 1 && f 2 1 ≤ 21), (3, zeroAt p 3 1), (4, f 4 2 % 2 == 0 && f 4 2 < 512), (6, zeroAt p 6 2), (12, zeroAt p 12 4), (16, f 16 8 % 4096 == 0 && d.hbmWritable n (f 16 8) 1)]) == none) | none => false) &&
     (let d0 : Device := (managed.wr Reg.HOOP_TRACE_ENABLE 0 1); let h := hdr 0;
       let p : Bytes := (le 1 1 ++ le 1 0 ++ le 1 7 ++ le 1 0 ++ le 2 6 ++ le 2 0 ++ le 4 100 ++ le 4 0 ++ le 8 (2 ^ 44 + 0x40000));
       let n := h.hoop; let f := fieldLe p;
       match d0.carries { op := 0x4A, hoopScope := true, names := true, len := (· == 24) } h p with | some d => (d.rd Reg.HOOP_TRACE_ENABLE n == 1) | none => false) &&
     (let d0 : Device := managed; let h := hdr 0;
       let p : Bytes := (le 1 1 ++ le 1 0 ++ le 1 6 ++ le 1 0 ++ le 2 6 ++ le 2 0 ++ le 4 100 ++ le 4 0 ++ le 8 (2 ^ 44 + 0x40000));
       let n := h.hoop; let f := fieldLe p;
       match d0.carries { op := 0x4A, hoopScope := true, names := true, len := (· == 24) } h p with | some d => (d.rd Reg.HOOP_TRACE_ENABLE n != 1 && (if f 0 1 = 0 then none else firstBad [(0, f 0 1 ≤ 1), (1, f 1 1 ≤ 1), (2, 7 ≤ f 2 1 && f 2 1 ≤ 21), (3, zeroAt p 3 1), (4, f 4 2 % 2 == 0 && f 4 2 < 512), (6, zeroAt p 6 2), (12, zeroAt p 12 4), (16, f 16 8 % 4096 == 0 && d.hbmWritable n (f 16 8) 1)]) == some 2) | none => false) &&
     (let d0 : Device := managed; let h := hdr 0;
       let p : Bytes := (le 1 1 ++ le 1 0 ++ le 1 22 ++ le 1 0 ++ le 2 6 ++ le 2 0 ++ le 4 100 ++ le 4 0 ++ le 8 (2 ^ 44 + 0x40000));
       let n := h.hoop; let f := fieldLe p;
       match d0.carries { op := 0x4A, hoopScope := true, names := true, len := (· == 24) } h p with | some d => (d.rd Reg.HOOP_TRACE_ENABLE n != 1 && (if f 0 1 = 0 then none else firstBad [(0, f 0 1 ≤ 1), (1, f 1 1 ≤ 1), (2, 7 ≤ f 2 1 && f 2 1 ≤ 21), (3, zeroAt p 3 1), (4, f 4 2 % 2 == 0 && f 4 2 < 512), (6, zeroAt p 6 2), (12, zeroAt p 12 4), (16, f 16 8 % 4096 == 0 && d.hbmWritable n (f 16 8) 1)]) == some 2) | none => false) &&
     (let d0 : Device := managed; let h := hdr 0;
       let p : Bytes := (le 1 1 ++ le 1 0 ++ le 1 7 ++ le 1 0 ++ le 2 6 ++ le 2 0 ++ le 4 100 ++ le 4 0 ++ le 8 (2 ^ 44 + 8));
       let n := h.hoop; let f := fieldLe p;
       match d0.carries { op := 0x4A, hoopScope := true, names := true, len := (· == 24) } h p with | some d => (d.rd Reg.HOOP_TRACE_ENABLE n != 1 && (if f 0 1 = 0 then none else firstBad [(0, f 0 1 ≤ 1), (1, f 1 1 ≤ 1), (2, 7 ≤ f 2 1 && f 2 1 ≤ 21), (3, zeroAt p 3 1), (4, f 4 2 % 2 == 0 && f 4 2 < 512), (6, zeroAt p 6 2), (12, zeroAt p 12 4), (16, f 16 8 % 4096 == 0 && d.hbmWritable n (f 16 8) 1)]) == some 16) | none => false) &&
     (let d0 : Device := managed; let h := hdr 0;
       let p : Bytes := (le 1 2 ++ le 1 0 ++ le 1 7 ++ le 1 0 ++ le 2 6 ++ le 2 0 ++ le 4 100 ++ le 4 0 ++ le 8 (2 ^ 44 + 0x40000));
       let n := h.hoop; let f := fieldLe p;
       match d0.carries { op := 0x4A, hoopScope := true, names := true, len := (· == 24) } h p with | some d => (d.rd Reg.HOOP_TRACE_ENABLE n != 1 && (if f 0 1 = 0 then none else firstBad [(0, f 0 1 ≤ 1), (1, f 1 1 ≤ 1), (2, 7 ≤ f 2 1 && f 2 1 ≤ 21), (3, zeroAt p 3 1), (4, f 4 2 % 2 == 0 && f 4 2 < 512), (6, zeroAt p 6 2), (12, zeroAt p 12 4), (16, f 16 8 % 4096 == 0 && d.hbmWritable n (f 16 8) 1)]) == some 0) | none => false) &&
     (let d0 : Device := managed; let h := hdr 0 4096; let p : Bytes := (le 1 0); let n := h.hoop; let f := fieldLe p;
       match d0.carries { op := 0x4B, sb := true, len := (· == 1), reply := 4096 } h p with | some d => (true) | none => false) &&
     (let d0 : Device := (managed.wr Reg.KLZ_ID_ROLE 0 2); let h := hdr 0 4096; let p : Bytes := (le 1 1); let n := h.hoop; let f := fieldLe p;
       match d0.carries { op := 0x4B, sb := true, len := (· == 1), reply := 2048 } h p with | some d => (d.role == 2) | none => false) &&
     (let d0 : Device := managed; let h := hdr 0 4096; let p : Bytes := (le 1 1); let n := h.hoop; let f := fieldLe p;
       match d0.carries { op := 0x4B, sb := true, len := (· == 1), reply := 2048 } h p with | some d => (d.role != 2) | none => false) &&
     (let d0 : Device := managed; let h := hdr 0 4096; let p : Bytes := (le 1 2); let n := h.hoop; let f := fieldLe p;
       match d0.carries { op := 0x4B, sb := true, len := (· == 1), reply := 0 } h p with | some d => (true) | none => false) &&
     (let d0 : Device := managed; let h := hdr 0;
       let p : Bytes := (le 1 3 ++ le 1 2 ++ le 1 1 ++ le 1 1 ++ le 4 0 ++ le 8 (0x1000) ++ le 8 (64)); let n := h.hoop;
       let f := fieldLe p;
       match d0.carries { op := 0x50, hoopScope := true, names := true, len := (· == 24) } h p with | some d => (firstBad [(0, f 0 1 ≤ 15), (1, 1 ≤ f 1 1 && f 1 1 ≤ 7), (2, f 2 1 ≤ 2), (3, 1 ≤ f 3 1 && f 3 1 ≤ 7), (4, zeroAt p 4 4), (8, f 8 8 + f 16 8 ≤ 2 ^ 48), (16, f 16 8 != 0)] == none) | none => false) &&
     (let d0 : Device := managed; let h := hdr 0;
       let p : Bytes := (le 1 15 ++ le 1 7 ++ le 1 2 ++ le 1 7 ++ le 4 0 ++ le 8 (2 ^ 48 - 1) ++ le 8 (1)); let n := h.hoop;
       let f := fieldLe p;
       match d0.carries { op := 0x50, hoopScope := true, names := true, len := (· == 24) } h p with | some d => (firstBad [(0, f 0 1 ≤ 15), (1, 1 ≤ f 1 1 && f 1 1 ≤ 7), (2, f 2 1 ≤ 2), (3, 1 ≤ f 3 1 && f 3 1 ≤ 7), (4, zeroAt p 4 4), (8, f 8 8 + f 16 8 ≤ 2 ^ 48), (16, f 16 8 != 0)] == none) | none => false) &&
     (let d0 : Device := managed; let h := hdr 0;
       let p : Bytes := (le 1 16 ++ le 1 2 ++ le 1 1 ++ le 1 1 ++ le 4 0 ++ le 8 (0x1000) ++ le 8 (64)); let n := h.hoop;
       let f := fieldLe p;
       match d0.carries { op := 0x50, hoopScope := true, names := true, len := (· == 24) } h p with | some d => (firstBad [(0, f 0 1 ≤ 15), (1, 1 ≤ f 1 1 && f 1 1 ≤ 7), (2, f 2 1 ≤ 2), (3, 1 ≤ f 3 1 && f 3 1 ≤ 7), (4, zeroAt p 4 4), (8, f 8 8 + f 16 8 ≤ 2 ^ 48), (16, f 16 8 != 0)] == some 0) | none => false) &&
     (let d0 : Device := managed; let h := hdr 0;
       let p : Bytes := (le 1 3 ++ le 1 0 ++ le 1 1 ++ le 1 1 ++ le 4 0 ++ le 8 (0x1000) ++ le 8 (64)); let n := h.hoop;
       let f := fieldLe p;
       match d0.carries { op := 0x50, hoopScope := true, names := true, len := (· == 24) } h p with | some d => (firstBad [(0, f 0 1 ≤ 15), (1, 1 ≤ f 1 1 && f 1 1 ≤ 7), (2, f 2 1 ≤ 2), (3, 1 ≤ f 3 1 && f 3 1 ≤ 7), (4, zeroAt p 4 4), (8, f 8 8 + f 16 8 ≤ 2 ^ 48), (16, f 16 8 != 0)] == some 1) | none => false) &&
     (let d0 : Device := managed; let h := hdr 0;
       let p : Bytes := (le 1 3 ++ le 1 2 ++ le 1 3 ++ le 1 1 ++ le 4 0 ++ le 8 (0x1000) ++ le 8 (64)); let n := h.hoop;
       let f := fieldLe p;
       match d0.carries { op := 0x50, hoopScope := true, names := true, len := (· == 24) } h p with | some d => (firstBad [(0, f 0 1 ≤ 15), (1, 1 ≤ f 1 1 && f 1 1 ≤ 7), (2, f 2 1 ≤ 2), (3, 1 ≤ f 3 1 && f 3 1 ≤ 7), (4, zeroAt p 4 4), (8, f 8 8 + f 16 8 ≤ 2 ^ 48), (16, f 16 8 != 0)] == some 2) | none => false) &&
     (let d0 : Device := managed; let h := hdr 0;
       let p : Bytes := (le 1 3 ++ le 1 2 ++ le 1 1 ++ le 1 0 ++ le 4 0 ++ le 8 (0x1000) ++ le 8 (64)); let n := h.hoop;
       let f := fieldLe p;
       match d0.carries { op := 0x50, hoopScope := true, names := true, len := (· == 24) } h p with | some d => (firstBad [(0, f 0 1 ≤ 15), (1, 1 ≤ f 1 1 && f 1 1 ≤ 7), (2, f 2 1 ≤ 2), (3, 1 ≤ f 3 1 && f 3 1 ≤ 7), (4, zeroAt p 4 4), (8, f 8 8 + f 16 8 ≤ 2 ^ 48), (16, f 16 8 != 0)] == some 3) | none => false) &&
     (let d0 : Device := managed; let h := hdr 0;
       let p : Bytes := (le 1 3 ++ le 1 2 ++ le 1 1 ++ le 1 1 ++ le 4 0 ++ le 8 (2 ^ 48) ++ le 8 (1)); let n := h.hoop; let f := fieldLe p;
       match d0.carries { op := 0x50, hoopScope := true, names := true, len := (· == 24) } h p with | some d => (firstBad [(0, f 0 1 ≤ 15), (1, 1 ≤ f 1 1 && f 1 1 ≤ 7), (2, f 2 1 ≤ 2), (3, 1 ≤ f 3 1 && f 3 1 ≤ 7), (4, zeroAt p 4 4), (8, f 8 8 + f 16 8 ≤ 2 ^ 48), (16, f 16 8 != 0)] == some 8) | none => false) &&
     (let d0 : Device := managed; let h := hdr 0;
       let p : Bytes := (le 1 3 ++ le 1 2 ++ le 1 1 ++ le 1 1 ++ le 4 0 ++ le 8 (0x1000) ++ le 8 (0)); let n := h.hoop; let f := fieldLe p;
       match d0.carries { op := 0x50, hoopScope := true, names := true, len := (· == 24) } h p with | some d => (firstBad [(0, f 0 1 ≤ 15), (1, 1 ≤ f 1 1 && f 1 1 ≤ 7), (2, f 2 1 ≤ 2), (3, 1 ≤ f 3 1 && f 3 1 ≤ 7), (4, zeroAt p 4 4), (8, f 8 8 + f 16 8 ≤ 2 ^ 48), (16, f 16 8 != 0)] == some 16) | none => false) &&
     (let d0 : Device := managed; let h := hdr 0; let p : Bytes := (le 2 1); let n := h.hoop; let f := fieldLe p;
       match d0.carries { op := 0x51, hoopScope := true, names := true, len := (· == 2) } h p with | some d => (true) | none => false) &&
     (let d0 : Device := managed; let h := hdr 0 32; let p : Bytes := (le 1 0); let n := h.hoop; let f := fieldLe p;
       match d0.carries { op := 0x58, len := fun n => n == 1, reply := 32 } h p with | some d => (true) | none => false) &&
     (let d0 : Device := managed; let h := hdr 0; let p : Bytes := (le 1 1 ++ le 271 0); let n := h.hoop; let f := fieldLe p;
       match d0.carries { op := 0x58, len := fun n => n == 272 } h p with | some d => (zeroAt p 1 7 && fieldLe (p.drop 8) 64 4 ≤ 1 && !d.tokenOk {} (p.drop 8)) | none => false) &&
     (let d0 : Device := managed; let h := hdr 0; let p : Bytes := (le 1 1 ++ le 271 1); let n := h.hoop; let f := fieldLe p;
       match d0.carries { op := 0x58, len := fun n => n == 272 } h p with | some d => (!zeroAt p 1 7) | none => false) &&
     (let d0 : Device := managed; let h := hdr 0; let p : Bytes := (le 1 1 ++ le 7 0 ++ le 64 0 ++ le 4 2 ++ le 196 0); let n := h.hoop;
       let f := fieldLe p;
       match d0.carries { op := 0x58, len := fun n => n == 272 } h p with | some d => (zeroAt p 1 7 && fieldLe (p.drop 8) 64 4 == 2) | none => false) &&
     (let d0 : Device := managed; let h := hdr 0; let p : Bytes := (le 1 2); let n := h.hoop; let f := fieldLe p;
       match d0.carries { op := 0x58, len := fun n => n == 1 } h p with | some d => (true) | none => false) &&
     (let d : Device := ({ ((managed.wr Reg.DEBUG_STATUS_UNLOCKED 0 1)) with stat := { managed.stat with expires := true, rights := 1 } });
       d.live && d.rd Reg.DEBUG_STATUS_UNLOCKED == 1 && d.stat.expires && d.rd Reg.DEBUG_STATUS_REMAINING == 0) &&
     (let d0 : Device := ({ ((managed.wr Reg.DEBUG_STATUS_UNLOCKED 0 1)) with stat := { managed.stat with rights := 1 } }); let h := hdr 0;
       let p : Bytes := (le 1 2 ++ le 1 4 ++ le 1 0 ++ le 1 3 ++ le 2 8 ++ le 2 77); let n := h.hoop; let f := fieldLe p;
       match d0.carries { op := 0x59, len := (· == 8) } h p with | some d => ((d.rd Reg.DEBUG_STATUS_UNLOCKED != 0 && d.stat.rights % 2 == 1) && firstBad [(0, f 0 1 ≤ 7), (1, f 1 1 ≤ 5), (2, f 2 1 ≤ selectMax (f 1 1)), (3, f 3 1 ≤ 15), (4, f 1 1 != 5 || f 4 2 == 0)] == none) | none => false) &&
     (let d0 : Device := ({ ((managed.wr Reg.DEBUG_STATUS_UNLOCKED 0 1)) with stat := { managed.stat with rights := 1 } }); let h := hdr 0;
       let p : Bytes := (le 1 7 ++ le 1 5 ++ le 1 0 ++ le 1 15 ++ le 2 0 ++ le 2 0); let n := h.hoop; let f := fieldLe p;
       match d0.carries { op := 0x59, len := (· == 8) } h p with | some d => ((d.rd Reg.DEBUG_STATUS_UNLOCKED != 0 && d.stat.rights % 2 == 1) && firstBad [(0, f 0 1 ≤ 7), (1, f 1 1 ≤ 5), (2, f 2 1 ≤ selectMax (f 1 1)), (3, f 3 1 ≤ 15), (4, f 1 1 != 5 || f 4 2 == 0)] == none) | none => false) &&
     (let d0 : Device := managed; let h := hdr 0; let p : Bytes := (le 1 2 ++ le 1 4 ++ le 1 0 ++ le 1 3 ++ le 2 8 ++ le 2 77); let n := h.hoop;
       let f := fieldLe p;
       match d0.carries { op := 0x59, len := (· == 8) } h p with | some d => (!(d.rd Reg.DEBUG_STATUS_UNLOCKED != 0 && d.stat.rights % 2 == 1)) | none => false) &&
     (let d0 : Device := ({ ((managed.wr Reg.DEBUG_STATUS_UNLOCKED 0 1)) with stat := { managed.stat with rights := 1 } }); let h := hdr 0;
       let p : Bytes := (le 1 8 ++ le 1 4 ++ le 1 0 ++ le 1 3 ++ le 2 8 ++ le 2 77); let n := h.hoop; let f := fieldLe p;
       match d0.carries { op := 0x59, len := (· == 8) } h p with | some d => ((d.rd Reg.DEBUG_STATUS_UNLOCKED != 0 && d.stat.rights % 2 == 1) && firstBad [(0, f 0 1 ≤ 7), (1, f 1 1 ≤ 5), (2, f 2 1 ≤ selectMax (f 1 1)), (3, f 3 1 ≤ 15), (4, f 1 1 != 5 || f 4 2 == 0)] == some 0) | none => false) &&
     (let d0 : Device := ({ ((managed.wr Reg.DEBUG_STATUS_UNLOCKED 0 1)) with stat := { managed.stat with rights := 1 } }); let h := hdr 0;
       let p : Bytes := (le 1 2 ++ le 1 6 ++ le 1 0 ++ le 1 3 ++ le 2 8 ++ le 2 77); let n := h.hoop; let f := fieldLe p;
       match d0.carries { op := 0x59, len := (· == 8) } h p with | some d => ((d.rd Reg.DEBUG_STATUS_UNLOCKED != 0 && d.stat.rights % 2 == 1) && firstBad [(0, f 0 1 ≤ 7), (1, f 1 1 ≤ 5), (2, f 2 1 ≤ selectMax (f 1 1)), (3, f 3 1 ≤ 15), (4, f 1 1 != 5 || f 4 2 == 0)] == some 1) | none => false) &&
     (let d0 : Device := ({ ((managed.wr Reg.DEBUG_STATUS_UNLOCKED 0 1)) with stat := { managed.stat with rights := 1 } }); let h := hdr 0;
       let p : Bytes := (le 1 2 ++ le 1 4 ++ le 1 9 ++ le 1 3 ++ le 2 8 ++ le 2 77); let n := h.hoop; let f := fieldLe p;
       match d0.carries { op := 0x59, len := (· == 8) } h p with | some d => ((d.rd Reg.DEBUG_STATUS_UNLOCKED != 0 && d.stat.rights % 2 == 1) && firstBad [(0, f 0 1 ≤ 7), (1, f 1 1 ≤ 5), (2, f 2 1 ≤ selectMax (f 1 1)), (3, f 3 1 ≤ 15), (4, f 1 1 != 5 || f 4 2 == 0)] == some 2) | none => false) &&
     (let d0 : Device := ({ ((managed.wr Reg.DEBUG_STATUS_UNLOCKED 0 1)) with stat := { managed.stat with rights := 1 } }); let h := hdr 0;
       let p : Bytes := (le 1 2 ++ le 1 4 ++ le 1 0 ++ le 1 16 ++ le 2 8 ++ le 2 77); let n := h.hoop; let f := fieldLe p;
       match d0.carries { op := 0x59, len := (· == 8) } h p with | some d => ((d.rd Reg.DEBUG_STATUS_UNLOCKED != 0 && d.stat.rights % 2 == 1) && firstBad [(0, f 0 1 ≤ 7), (1, f 1 1 ≤ 5), (2, f 2 1 ≤ selectMax (f 1 1)), (3, f 3 1 ≤ 15), (4, f 1 1 != 5 || f 4 2 == 0)] == some 3) | none => false) &&
     (let d0 : Device := ({ ((managed.wr Reg.DEBUG_STATUS_UNLOCKED 0 1)) with stat := { managed.stat with rights := 1 } }); let h := hdr 0;
       let p : Bytes := (le 1 2 ++ le 1 5 ++ le 1 0 ++ le 1 3 ++ le 2 1 ++ le 2 77); let n := h.hoop; let f := fieldLe p;
       match d0.carries { op := 0x59, len := (· == 8) } h p with | some d => ((d.rd Reg.DEBUG_STATUS_UNLOCKED != 0 && d.stat.rights % 2 == 1) && firstBad [(0, f 0 1 ≤ 7), (1, f 1 1 ≤ 5), (2, f 2 1 ≤ selectMax (f 1 1)), (3, f 3 1 ≤ 15), (4, f 1 1 != 5 || f 4 2 == 0)] == some 4) | none => false)) = true := by decide +kernel

set_option maxRecDepth 100000 in
theorem witness_ManagementFirmware :
    ((let d0 : Device := managed; let h := hdr 0 96; let p : Bytes := []; let n := h.hoop; let f := fieldLe p;
       match d0.carries { op := 0x60, sb := true, afterFatal := true, starter := true, reply := 80 } h p with | some d => (true) | none => false) &&
     (let d0 : Device := managed; let h := hdr 0 288; let p : Bytes := []; let n := h.hoop; let f := fieldLe p;
       match d0.carries { op := 0x68, sb := true, afterFatal := true, starter := true, reply := 288 } h p with | some d => (true) | none => false) &&
     (let d0 : Device := managed; let h := ({ ring := 9, replyCap := 72 } : MHdr); let p : Bytes := []; let n := h.hoop; let f := fieldLe p;
       match d0.carries { op := 0x79, sb := true, afterFatal := true, starter := true, reply := 72 } h p with | some d => (h.ring == 9) | none => false) &&
     (let d0 : Device := managed; let h := ({ ring := 0, replyCap := 72 } : MHdr); let p : Bytes := []; let n := h.hoop; let f := fieldLe p;
       match d0.carries { op := 0x79, sb := true, afterFatal := true, starter := true, reply := 72 } h p with | some d => (h.ring == 0) | none => false) &&
     (let d0 : Device := (managed.setBoot { managed.boot with programming := some false }); let h := hdr 0;
       let p : Bytes := (le 4 0 ++ le 4 0 ++ le 8 77); let n := h.hoop; let f := fieldLe p;
       match d0.carries { op := 0x61, sb := true, starter := true, len := fun n => 8 ≤ n && n ≤ 4096 } h p with | some d => (d.boot.programming.isSome) | none => false) &&
     (let d0 : Device := (managed.setBoot { managed.boot with staged := 8, staging := le 8 5 }); let h := hdr 0;
       let p : Bytes := (le 4 9 ++ le 4 0 ++ le 8 77); let n := h.hoop; let f := fieldLe p;
       match d0.carries { op := 0x61, sb := true, starter := true, len := fun n => 8 ≤ n && n ≤ 4096 } h p with | some d => (d0.boot.programming.isNone && d.boot.programming.isNone && f 0 4 != d.boot.staged && f 0 4 != 0) | none => false) &&
     (let d0 : Device := managed; let h := hdr 0; let p : Bytes := (le 4 0 ++ le 4 2 ++ le 8 77); let n := h.hoop; let f := fieldLe p;
       match d0.carries { op := 0x61, sb := true, starter := true, len := fun n => 8 ≤ n && n ≤ 4096 } h p with | some d => (d0.boot.programming.isNone && d.boot.programming.isNone && f 0 4 == 0) | none => false) &&
     (let d0 : Device := (managed.setBoot { managed.boot with staged := 8, staging := le 8 5 }); let h := hdr 0;
       let p : Bytes := (le 4 0 ++ le 4 0 ++ le 8 77); let n := h.hoop; let f := fieldLe p;
       match d0.carries { op := 0x61, sb := true, starter := true, len := fun n => 8 ≤ n && n ≤ 4096 } h p with | some d => (d0.boot.programming.isNone && d.boot.programming.isNone && f 0 4 == 0) | none => false) &&
     (let d0 : Device := (managed.setBoot { managed.boot with staged := 8, staging := le 8 5 }); let h := hdr 0;
       let p : Bytes := (le 4 8 ++ le 4 0 ++ le 8 77); let n := h.hoop; let f := fieldLe p;
       match d0.carries { op := 0x61, sb := true, starter := true, len := fun n => 8 ≤ n && n ≤ 4096 } h p with | some d => (d0.boot.programming.isNone && d.boot.programming.isNone && f 0 4 == 8) | none => false) &&
     (let d0 : Device := managed; let h := hdr 0; let p : Bytes := (le 4 0 ++ le 4 1 ++ le 8 77); let n := h.hoop; let f := fieldLe p;
       match d0.carries { op := 0x61, sb := true, starter := true, len := fun n => 8 ≤ n && n ≤ 4096 } h p with | some d => (d0.boot.programming.isNone && d.boot.programming.isNone && (let nn := f 0 4 + (p.drop 8).length; let d2 := d.setBoot { d.boot with staging := stageAt d.boot.staging (f 0 4) (p.drop 8), staged := nn }; d2.stage != 5 && imageCause {} (d2.stagedImage nn) != 0)) | none => false) &&
     (let d0 : Device := (managed.wr Reg.BOOT_STATUS_STAGE 0 5); let h := ({ ring := 9 } : MHdr);
       let p : Bytes := (le 4 0 ++ le 4 1 ++ le 8 77); let n := h.hoop; let f := fieldLe p;
       match d0.carries { op := 0x61, sb := true, starter := true, len := fun n => 8 ≤ n && n ≤ 4096 } h p with | some d => (d0.boot.programming.isNone && d.boot.programming.isNone && (let nn := f 0 4 + (p.drop 8).length; let d2 := d.setBoot { d.boot with staging := stageAt d.boot.staging (f 0 4) (p.drop 8), staged := nn }; d2.stage == 5)) | none => false) &&
     (let d : Device := (up.setBoot { up.boot with programming := some false, checking := 8, staging := [1, 2, 3, 4, 5, 6, 7, 8] }); d.awake &&
       d.boot.waits.isEmpty && d.boot.programming == some false) &&
     (let d : Device := up; d.boot.programming != some false) &&
     (let d : Device := managed; d.mgmtReady { op := 0x70, sb := true, afterFatal := true } (hdr 0) &&
       ((d.mgmtAccept (hdr 0)).mgmtCheck { op := 0x70, sb := true, afterFatal := true } (hdr 0) []).isNone) &&
     (let d : Device := managed; d.mgmtReady { op := 0x70, sb := true, afterFatal := true } (hdr 0) &&
       (d.mgmtAccept (hdr 0)).mgmtCheck { op := 0x70, sb := true, afterFatal := true } (hdr 0) [1] == some 3) &&
     (let d : Device := (managed.wr Reg.MGMT_TAIL_TAIL 0 0); !d.mgmtReady { op := 0x70, sb := true, afterFatal := true } (hdr 0)) &&
     (let d : Device := managed; d.mgmtReady { op := 0x71, sb := true, afterFatal := true } (hdr 0) &&
       ((d.mgmtAccept (hdr 0)).mgmtCheck { op := 0x71, sb := true, afterFatal := true } (hdr 0) []).isNone) &&
     (let d : Device := managed; d.mgmtReady { op := 0x71, sb := true, afterFatal := true } (hdr 0) &&
       (d.mgmtAccept (hdr 0)).mgmtCheck { op := 0x71, sb := true, afterFatal := true } (hdr 0) [1] == some 3) &&
     (let d : Device := (managed.wr Reg.MGMT_TAIL_TAIL 0 0); !d.mgmtReady { op := 0x71, sb := true, afterFatal := true } (hdr 0))) = true := by decide +kernel

set_option maxRecDepth 100000 in
theorem witness_ManagementRefusals :
    ((let d : Device := managed;
       (let h : MHdr := { ring := 9 }; let p : Bytes := (le 24 0); d.mgmtReady { op := 0x10, hoopScope := true, names := true, len := (· == 24) } h && (h.ring == 9))) &&
     (let d : Device := ((((({ managed with pcie := { managed.pcie with vfEnable := true, numVfs := 3, busMaster := 15 } } : Device).wr Reg.MGMT_RING_ENABLE 2 1).wr Reg.MGMT_RING_SIZE_LOG2 2 4).wr Reg.MGMT_TAIL_TAIL 2 1));
       (let h : MHdr := { ring := 2 }; let p : Bytes := (le 24 0); d.mgmtReady { op := 0x10, hoopScope := true, names := true, len := (· == 24) } h && (h.hoop + 1 != h.ring))) &&
     (let d : Device := managed;
       (let h : MHdr := { ring := 0, rsvd := true }; let p : Bytes := (le 24 0); d.mgmtReady { op := 0x10, hoopScope := true, names := true, len := (· == 24) } h && (h.rsvd))) &&
     (let d : Device := managed;
       (let h : MHdr := hdr 8; let p : Bytes := (le 24 0); d.mgmtReady { op := 0x10, hoopScope := true, names := true, len := (· == 24) } h && (7 < h.hoop))) &&
     (let d : Device := managed;
       (let h : MHdr := hdr 0; let p : Bytes := (le 23 0); d.mgmtReady { op := 0x10, hoopScope := true, names := true, len := (· == 24) } h && (p.length != 24))) &&
     (let d : Device := (managed.wr Reg.BOOT_STATUS_STAGE 0 3); d.mgmtReady { op := 0x40, sb := true, len := (· == 4) } { ring := 9 } &&
       (d.mgmtAccept { ring := 9 }).stage != 4) &&
     (let d : Device := (let z : Device := managed; z.setBoot { z.boot with waits := [⟨{ ring := 9 }, 0x18, 1, 0, 1, []⟩] });
       !d.mgmtReady { op := 0x18, hoopScope := true, names := true, len := (· == 40) } (hdr 0) && d.mgmtComes (hdr 0)) &&
     (let d : Device := (managed.wr Reg.BOOT_STATUS_STAGE 0 3); d.stage != 4) &&
     (let d : Device := ({ managed with life := { managed.life with fatal := true } });
       (let h : MHdr := hdr 0; let p : Bytes := (le 24 0); d.mgmtReady { op := 0x10, hoopScope := true, names := true, len := (· == 24) } h && (!h.rsvd && h.hoop ≤ 7 && h.replyCap == 0 && p.length == 24 && h.paramAddr % 8 == 0 && h.replyAddr == 0 && (d.mgmtAccept h).stage == 4 && (d.mgmtAccept h).life.fatal && (d.mgmtAccept h).hoopState 0 != 0))) &&
     (let d : Device := ({ managed with life := { managed.life with fatal := true } });
       (let h : MHdr := hdr 3; let p : Bytes := (le 24 0); d.mgmtReady { op := 0x10, hoopScope := true, names := true, len := (· == 24) } h && (!h.rsvd && h.hoop ≤ 7 && h.replyCap == 0 && p.length == 24 && h.paramAddr % 8 == 0 && h.replyAddr == 0 && (d.mgmtAccept h).stage == 4 && (d.mgmtAccept h).life.fatal && (d.mgmtAccept h).hoopState 3 == 0))) &&
     (let d : Device := managed;
       (let h : MHdr := hdr 3; let p : Bytes := (le 24 0); d.mgmtReady { op := 0x10, hoopScope := true, names := true, len := (· == 24) } h && (!h.rsvd && h.hoop ≤ 7 && h.replyCap == 0 && p.length == 24 && h.paramAddr % 8 == 0 && h.replyAddr == 0 && (d.mgmtAccept h).stage == 4 && !(d.mgmtAccept h).life.fatal && (d.mgmtAccept h).hoopState 3 == 0))) &&
     (let d : Device := (managed.wr Reg.HOOP_CFG_STATE 0 3);
       (let h : MHdr := hdr 0; let p : Bytes := (le 24 0); d.mgmtReady { op := 0x10, hoopScope := true, names := true, len := (· == 24) } h && (!h.rsvd && h.hoop ≤ 7 && h.replyCap == 0 && p.length == 24 && h.paramAddr % 8 == 0 && h.replyAddr == 0 && (d.mgmtAccept h).stage == 4 && !(d.mgmtAccept h).life.fatal && (d.mgmtAccept h).hoopState 0 == 3))) &&
     (let d : Device := (managed.wr Reg.HOOP_CFG_STATE 0 4);
       (let h : MHdr := hdr 0; let p : Bytes := (le 24 0); d.mgmtReady { op := 0x10, hoopScope := true, names := true, len := (· == 24) } h && (!h.rsvd && h.hoop ≤ 7 && h.replyCap == 0 && p.length == 24 && h.paramAddr % 8 == 0 && h.replyAddr == 0 && (d.mgmtAccept h).stage == 4 && !(d.mgmtAccept h).life.fatal && (d.mgmtAccept h).hoopState 0 == 4))) &&
     (let d : Device := (managed.wr Reg.HOOP_CFG_STATE 0 5);
       (let h : MHdr := hdr 0; let p : Bytes := (le 24 0); d.mgmtReady { op := 0x10, hoopScope := true, names := true, len := (· == 24) } h && (!h.rsvd && h.hoop ≤ 7 && h.replyCap == 0 && p.length == 24 && h.paramAddr % 8 == 0 && h.replyAddr == 0 && (d.mgmtAccept h).stage == 4 && !(d.mgmtAccept h).life.fatal && (d.mgmtAccept h).hoopState 0 == 5))) &&
     (let d : Device := managed;
       (let h : MHdr := { hdr 0 with unread := true }; let p : Bytes := (le 24 0); d.mgmtReady { op := 0x10, hoopScope := true, names := true, len := (· == 24) } h && (!h.rsvd && h.hoop ≤ 7 && h.replyCap == 0 && p.length == 24 && h.paramAddr % 8 == 0 && h.replyAddr == 0 && (d.mgmtAccept h).stage == 4 && !(d.mgmtAccept h).life.fatal && h.unread && (d.mgmtAccept h).hoopState 0 == 1 && ((d.mgmtAccept h).mgmtCheck { op := 0x10, hoopScope := true, names := true, len := (· == 24) } h p).isNone))) &&
     (let d : Device := (managed.wr Reg.MGMT_TAIL_TAIL 0 0);
       !d.mgmtReady { op := 0x10, hoopScope := true, names := true, len := (· == 24) } (hdr 0)) &&
     (let d : Device := managed; d.mgmtReady { op := 0x04, hoopScope := true, names := true, reply := 256, read := true } (hdr 0 255)) &&
     (let d : Device := managed; d.mgmtReady { op := 0x01, names := true, len := (· == 64), create := true } (hdr 0) &&
       (d.mgmtAccept (hdr 0)).hoopState 0 == 1) &&
     (let d : Device := (managed.wr Reg.HOOP_CFG_STATE 0 2);
       (let sp : MSpec := { op := 0x12, hoopScope := true, names := true, len := fun n => 6 ≤ n && n ≤ 4092, hold := false }; d.mgmtReady sp (hdr 0) && (d.mgmtAccept (hdr 0)).hoopState 0 == 2))) = true := by decide +kernel

set_option maxRecDepth 100000 in
theorem witness_GridAndDispatch :
    ((let k : Kernel := { kern with gx := 2, gy := 3, gz := 4 }; 23 < k.gx * k.gy * k.gz) &&
     (let d : Device := (queued [fetched 0x01 0 (le 8 (2 ^ 44 + 0x1000) ++ le 8 0 ++ le 4 0x80000000 ++ le 2 3 ++ le 2 1)]);
       (match d.startable 0 1, (d.begin_ 0 7).entRead 0 7 (fieldLe (le 8 (2 ^ 44 + 0x1000) ++ le 8 0 ++ le 4 0x80000000 ++ le 2 3 ++ le 2 1) 0 8) 64 with | some e, (_, .ok (some _)) => e == fetched 0x01 0 (le 8 (2 ^ 44 + 0x1000) ++ le 8 0 ++ le 4 0x80000000 ++ le 2 3 ++ le 2 1) && 2 ^ 32 < fieldLe (slice e.bytes 8 24) 16 4 * fieldLe (slice e.bytes 8 24) 20 2 * fieldLe (slice e.bytes 8 24) 22 2 | _, _ => false)) &&
     (let d : Device := ({ running { params := (le 8 (2 ^ 44 + 0x1000) ++ le 8 0 ++ le 4 0x80000000 ++ le 2 3 ++ le 2 1), counter := 0, dispatch := 0 } with work := { (running { params := (le 8 (2 ^ 44 + 0x1000) ++ le 8 0 ++ le 4 0x80000000 ++ le 2 3 ++ le 2 1), counter := 0, dispatch := 0 }).work with recipes := [(1, { recipe with nodes := [⟨1, false, 0, [], (le 8 (2 ^ 44 + 0x1000) ++ le 8 0 ++ le 4 0x80000000 ++ le 2 3 ++ le 2 1)⟩] })] } });
       (match d.inst? 9 with | some x => (match d.rnode? x 0, Tab.find? x.nodes 0 with | some r, some y => r.type == 1 && y.counter == 0 && 2 ^ 32 < fieldLe y.params 16 4 * fieldLe y.params 20 2 * fieldLe y.params 22 2 && (match d.entRead x.queue x.entry (fieldLe y.params 0 8) 64 with | (_, .ok (some _)) => true | _ => false) | _, _ => false) | none => false)) &&
     (let d : Device := ({ ready with pcie := { ready.pcie with up := true, crs := false, vfEnable := true, numVfs := 3, busMaster := 1 } });
       d.regOpen 0 && d.stage == 4) &&
     (let d : Device := (waitingKernel { kern with started := false, cfg := [] } []);
       (match d.kernel? 5 with | some k => k.inst.isNone && (match k.take (coreDie 0), (d.core 0).freePlace k.resident with | some _, some p => ((d.core 0).takeEnts p k.code k.threads ((placeGroups k.groups ((List.range 4).map ((d.core 0).placesFree k))).mapIdx (fun g q => (g, q)))).isSome | _, _ => false) | none => false)) &&
     (let d : Device := (waitingKernel { kern with started := false, cfg := [(0, (3, 5))] } []);
       (match d.kernel? 5 with | some k => k.inst.isNone && (match k.take (coreDie 0), (d.core 0).freePlace k.resident with | some _, some p => ((d.core 0).takeEnts p k.code k.threads ((placeGroups k.groups ((List.range 4).map ((d.core 0).placesFree k))).mapIdx (fun g q => (g, q)))).isSome | _, _ => false) | none => false)) &&
     (let d : Device := up; true)) = true := by decide +kernel

set_option maxRecDepth 100000 in
theorem witness_StartUp :
    ((let d : Device := ({} : Device); !d.life.powered) &&
     (let d : Device := ready; d.pins.perstN && d.life.powered && d.life.rails && !d.life.stopped) &&
     (let d : Device := ({ life := { powered := true, rails := true }, pins := { perstN := true }, boot := { starting := true } } : Device);
       d.awake && d.boot.starting && imageCause {} [] != 0) &&
     (let d : Device := ({ life := { powered := true, rails := true }, pins := { perstN := true }, boot := { starting := true } } : Device);
       d.awake && d.boot.starting && d.life.failed.isNone && bootFault 0x14 3) &&
     (let d : Device := ({ life := { powered := true, rails := true }, pins := { perstN := true }, boot := { starting := true } } : Device);
       d.awake && d.boot.starting && d.life.failed.isNone && bootFault 0x10 3 && imageCause {} [] != 0) &&
     (let d : Device := ({ life := { powered := true, rails := true, failed := some (0x15, 0) }, pins := { perstN := true }, boot := { starting := true } } : Device);
       d.awake && d.boot.starting && d.life.failed == some (0x15, 0)) &&
     (let d : Device := ({ life := { powered := true, stopped := true }, pins := { perstN := true, flowOk := true, alert := true } } : Device);
       d.pins.perstN && !d.life.rails && d.life.powered && d.pins.flowOk) &&
     (let d : Device := ({ life := { powered := true, stopped := true }, pins := { perstN := true, alert := true } } : Device); d.pins.perstN &&
       !d.life.rails && !d.pins.flowOk) &&
     (let d : Device := ready; d.life.powered) &&
     (let d : Device := ready; d.life.powered && d.life.rails) &&
     (let d : Device := (let z : Device := ready; { z with life := { z.life with rails := false, trip := some (z.clock.now, 0) }, out := [.aer] });
       d.life.powered && !d.life.rails && d.life.trip == some (d.clock.now, 0)) &&
     (let d : Device := ({ life := { powered := true } } : Device); d.life.powered && !d.life.rails && d.life.trip.isNone) &&
     (let d : Device := (ready.setBoot { ready.boot with pulse := true }); d.boot.pulse) &&
     (let d : Device := ({ life := { powered := true, stopped := true } } : Device); d.life.powered && !d.life.rails && !d.pins.thermtrip &&
       !d.pins.perstN) &&
     (let d : Device := ({ life := { powered := true, stopped := true }, pins := { perstN := true } } : Device); d.life.powered &&
       !d.life.rails && !d.pins.thermtrip && d.pins.perstN) &&
     (let d : Device := ({ life := { powered := true } } : Device); !d.pins.perstN && !d.life.rails) &&
     (let d : Device := ({ life := { powered := true, rails := true }, pins := { flowOk := true } } : Device); !d.pins.perstN &&
       d.life.powered && d.life.rails && !d.life.stopped) &&
     (let d : Device := ready; d.life.powered && d.pins.perstN)) = true := by decide +kernel

set_option maxRecDepth 100000 in
theorem witness_RecoveryAndFuses :
    ((let d : Device := (((up.setBoot { up.boot with staging := [1, 2, 3] }).wr Reg.BOOT_STATUS_STAGE 0 5).wr Reg.RECOVERY_CTRL_LENGTH 0 3);
       d.awake && d.stage == 5 && d.rd Reg.RECOVERY_CTRL_BUSY == 0 && d.rd Reg.RECOVERY_CTRL_LENGTH == 3) &&
     (let d : Device := ((up.setBoot { up.boot with staging := [1, 2, 3], programming := some true, lastCause := 0, checking := 3 }).wr Reg.BOOT_STATUS_STAGE 0 5);
       d.awake && d.stage == 5 && d.boot.programming == some true && d.boot.waits.isEmpty) &&
     (let d : Device := ((up.setBoot { up.boot with staging := [1, 2, 3], programming := some true, lastCause := 3, checking := 3 }).wr Reg.BOOT_STATUS_STAGE 0 5);
       d.awake && d.stage == 5 && d.boot.programming == some true && d.boot.waits.isEmpty && d.boot.lastCause == 3) &&
     (let d : Device := (up.setBoot { up.boot with header := List.replicate 4096 3 }); d.live && d.boot.header != []) &&
     (let d : Device := up; d.live && (st d).nv.fuses.hours < 512) &&
     (let d : Device := ((up.setBoot { up.boot with staging := [1, 2, 3], recovered := true }).wr Reg.BOOT_STATUS_STAGE 0 5); d.awake &&
       d.boot.recovered)) = true := by decide +kernel

set_option maxRecDepth 100000 in
theorem witness_PowerAndHeat :
    ((let d : Device := up; d.live) &&
     (let d : Device := ((up.setPower { up.power with ceil := 5, thermalDuty := 0 }).wr Reg.THERM_POINT_THROTTLE 3 1); d.live &&
       (List.range 168).any (fun n => d.rd Reg.THERM_POINT_THROTTLE n == 1) && d.power.ceil < 8) &&
     (let d : Device := ((up.setPower { up.power with ceil := 8, thermalDuty := 2 }).wr Reg.THERM_POINT_THROTTLE 3 1); d.live &&
       (List.range 168).any (fun n => d.rd Reg.THERM_POINT_THROTTLE n == 1) && d.power.ceil == 8) &&
     (let d : Device := (up.wr Reg.THERM_POINT_TEMP 7 (up.rd Reg.THERM_LIMITS_THROTTLE (zoneOf 7) - 48)); d.live &&
       !(List.range 168).any (fun n => d.rd Reg.THERM_POINT_THROTTLE n == 1) &&
       !(List.range 168).all (fun n => d.rd Reg.THERM_POINT_THROTTLE n == 0 && d.temp n < ((d.rd Reg.THERM_LIMITS_THROTTLE (zoneOf n) : Nat) : Int) - 48)) &&
     (let d : Device := (up.setPower { up.power with ceil := 5 }); d.live &&
       (List.range 168).all (fun n => d.rd Reg.THERM_POINT_THROTTLE n == 0 && d.temp n < ((d.rd Reg.THERM_LIMITS_THROTTLE (zoneOf n) : Nat) : Int) - 48) &&
       d.power.thermalDuty == 0) &&
     (let d : Device := (up.setPower { up.power with ceil := 8, thermalDuty := 1 }); d.live &&
       (List.range 168).all (fun n => d.rd Reg.THERM_POINT_THROTTLE n == 0 && d.temp n < ((d.rd Reg.THERM_LIMITS_THROTTLE (zoneOf n) : Nat) : Int) - 48) &&
       d.power.thermalDuty == 1) &&
     (let d : Device := up; d.live &&
       (List.range 168).all (fun n => d.rd Reg.THERM_POINT_THROTTLE n == 0 && d.temp n < ((d.rd Reg.THERM_LIMITS_THROTTLE (zoneOf n) : Nat) : Int) - 48) &&
       d.power.thermalDuty == 0 && d.power.ceil == 0) &&
     (let d : Device := up; d.live && d.power.moving.isNone) &&
     (let d : Device := (up.setPower { up.power with moving := some 3, goal := 5 }); d.live && d.power.moving == some 3 && d.point < 3) &&
     (let d : Device := (let z : Device := up.wr Reg.POWER_STATUS_POINT 0 8; z.setPower { z.power with moving := some 7, goal := 7 }); d.live &&
       d.power.moving == some 7 && 7 ≤ d.point) &&
     (let d : Device := (up.setPower { up.power with warm := 64 }); d.live && 64 ≤ d.power.warm) &&
     (let d : Device := (up.setPower { up.power with moving := some 3, goal := 5 }); d.live && d.power.moving == some 3) &&
     (let d : Device := (up.setPower { up.power with stretched := 4 }); d.live) &&
     (let d : Device := (up.setPower { up.power with moving := some 15, goal := 15 }); d.live && d.power.moving == some 15) &&
     (let d : Device := (up.setPower { up.power with invalid := [(5, 2), (6, 1)] }); d.live && d.life.rails &&
       Tab.get 0 d.power.invalid 5 == 2 && Tab.get 0 d.power.invalid 6 == 1) &&
     (let d : Device := (let z : Device := up.setPower { up.power with trips := [(0, 1)] }; { z with life := { z.life with fatal := true } });
       d.life.powered && d.life.rails && !d.life.stopped && !d.life.rindDead && d.rd Reg.THERM_LIMITS_TRIP (zoneOf 0) ≤ 32767) &&
     (let d : Device := up; d.live && d.power.hot.isEmpty && d.rd Reg.THERM_LIMITS_THROTTLE (zoneOf 1) ≤ 32767) &&
     (let d : Device := (up.setPower { up.power with estimates := [700, 901] }); d.live && d.power.estimates.length == 2) &&
     (let d : Device := up; d.live && d.power.warm < 64) &&
     (let d : Device := (up.setPower { up.power with droops := List.replicate 63 0 }); d.live && d.clock.now < 1000000 &&
       d.power.droops.length == 63)) = true := by decide +kernel

set_option maxRecDepth 100000 in
theorem witness_CxlPorts :
    ((let d : Device := ({ ready with pcie := { ready.pcie with up := true, crs := false, vfEnable := true, numVfs := 3, busMaster := 1 } });
       d.pfOpen && (List.range 8).all (fun j => !d.hdmOn j)) &&
     (let d : Device := ({ ready with pcie := { ready.pcie with up := true, crs := false, vfEnable := true, numVfs := 3, busMaster := 1 } });
       d.pfOpen && !d.hdmOn 2 && !d.commitOk 2) &&
     (let d : Device := (({ ready with pcie := { ready.pcie with up := true, crs := false, vfEnable := true, numVfs := 3, busMaster := 1 } }).wr Reg.CXL_HDM_CTRL_COMMITTED 2 1);
       d.pfOpen) &&
     (let d : Device := (ready.wr Reg.CXL_LINK_STATUS_STATE 1 2); d.live && d.rd Reg.CXL_LINK_STATUS_STATE 1 == 2) &&
     (let d : Device := ready; d.live && (d.bifurcate 0).rd Reg.CXL_LINK_STATUS_STATE 0 < 2 &&
       cxlWidthOk ((d.bifurcate 0).rd Reg.CXL_PORT_CFG_BIFURCATE 0 == 1) 16) &&
     (let d : Device := (let x := ((((ready.wr Reg.CXL_HDM_RANGE_SIZE 1 4 |>.wr Reg.CXL_HDM_RANGE_BASE 1 2).wr Reg.CXL_LINK_STATUS_STATE 0 2).wr Reg.CXL_LINK_STATUS_DEVICE 0 1).wr Reg.CXL_LINK_STATUS_CAP_GIB 0 64); let x := ((x.wr Reg.CXL_HDM_RANGE_SIZE 0 2).wr Reg.CXL_HDM_CTRL_COMMITTED 0 1); { x with pcie := { x.pcie with up := true, crs := false } });
       d.pfOpen && !d.hdmOn 1 && d.commitOk 1) &&
     (let d : Device := (let x := ((((ready.wr Reg.CXL_HDM_RANGE_SIZE 2 4).wr Reg.CXL_LINK_STATUS_STATE 0 2).wr Reg.CXL_LINK_STATUS_DEVICE 0 1).wr Reg.CXL_LINK_STATUS_CAP_GIB 0 64); let x := ((x.wr Reg.CXL_HDM_RANGE_SIZE 0 2).wr Reg.CXL_HDM_CTRL_COMMITTED 0 1); { x with pcie := { x.pcie with up := true, crs := false } });
       d.live && isCxl (cxlBase + 4096) && (d.cxlRoute (cxlBase + 4096)).isSome && !d.bad.contains ((cxlBase + 4096) / 32)) &&
     (let d : Device := (let x := ((((ready.wr Reg.CXL_HDM_RANGE_SIZE 2 4).wr Reg.CXL_LINK_STATUS_STATE 0 2).wr Reg.CXL_LINK_STATUS_DEVICE 0 1).wr Reg.CXL_LINK_STATUS_CAP_GIB 0 64); let x := ((x.wr Reg.CXL_HDM_RANGE_SIZE 0 2).wr Reg.CXL_HDM_CTRL_COMMITTED 0 1); { x with pcie := { x.pcie with up := true, crs := false } });
       d.pfOpen && (List.range 8).any (fun j => d.hdmOn j && (d.targets j 0 || d.targets j 1))) &&
     (let d : Device := ready; d.live && (d.bifurcate 0).rd Reg.CXL_LINK_STATUS_STATE 0 < 2) &&
     (let d : Device := (ready.wr Reg.CXL_LINK_STATUS_STATE 1 2); d.live && 2 ≤ (d.bifurcate 0).rd Reg.CXL_LINK_STATUS_STATE 1) &&
     (let d : Device := (ready.wr Reg.CXL_LINK_STATUS_STATE 3 1); d.live && d.rd Reg.CXL_LINK_STATUS_STATE 3 == 1) &&
     (let d : Device := (let x := ((((ready.wr Reg.CXL_HDM_RANGE_SIZE 2 4).wr Reg.CXL_LINK_STATUS_STATE 0 2).wr Reg.CXL_LINK_STATUS_DEVICE 0 1).wr Reg.CXL_LINK_STATUS_CAP_GIB 0 64); let x := ((x.wr Reg.CXL_HDM_RANGE_SIZE 0 2).wr Reg.CXL_HDM_CTRL_COMMITTED 0 1); { x with pcie := { x.pcie with up := true, crs := false } });
       d.live && isCxl (cxlBase + 4096) && (d.cxlRoute (cxlBase + 4096)).isSome)) = true := by decide +kernel

set_option maxRecDepth 100000 in
theorem witness_HostAccesses :
    ((let d : Device := (let x := ({ ready with pcie := { ready.pcie with up := true, crs := false, vfEnable := true, numVfs := 3, busMaster := 1 } }); { x with mem := x.mem.write 0x200200000 [1, 2, 3, 4] });
       d.hostOpen 0 && !d.inReset 0 && d.stage == 4 && !d.life.fatal && d.apertureIn 0 (0x200200000) 4 &&
       (match d.apertureReach 0 (0x200200000) 4 0 with | (e, r) => r == .mem 0x200200000 && true)) &&
     (let d : Device := (let x := ({ ready with pcie := { ready.pcie with up := true, crs := false, vfEnable := true, numVfs := 3, busMaster := 1 } }); { x with mem := x.mem.write 0x200200000 [1, 2, 3, 4] });
       d.hostOpen 0 && !d.inReset 0 && d.stage == 4 && !d.life.fatal && d.apertureIn 0 (0x40) 4 &&
       (match d.apertureReach 0 (0x40) 4 0 with | (e, r) => r == .closed && true)) &&
     (let d : Device := (let x := (let x := ({ ready with pcie := { ready.pcie with up := true, crs := false, vfEnable := true, numVfs := 3, busMaster := 1 } }); { x with mem := x.mem.write 0x200200000 [1, 2, 3, 4] }); { x with bad := [0x200200000 / 32] });
       d.hostOpen 0 && !d.inReset 0 && d.stage == 4 && !d.life.fatal && d.apertureIn 0 (0x200200000) 4 &&
       (match d.apertureReach 0 (0x200200000) 4 0 with | (e, r) => r == .bad 0x200200000 && true)) &&
     (let d : Device := (let x := ({ ready with pcie := { ready.pcie with up := true, crs := false, vfEnable := true, numVfs := 3, busMaster := 1 } }); { x with mem := x.mem.write 0x200200000 [1, 2, 3, 4] });
       d.hostOpen 0 && !d.inReset 0 && d.stage == 4 && !d.life.fatal && d.apertureIn 0 (0x200200000) 2 &&
       (match d.apertureReach 0 (0x200200000) 2 1 with | (e, r) => r == .mem 0x200200000 && !e.inModuleReserve 0x200200000)) &&
     (let d : Device := ((let x := ({ ready with pcie := { ready.pcie with up := true, crs := false, vfEnable := true, numVfs := 3, busMaster := 1 } }); { x with mem := x.mem.write 0x200200000 [1, 2, 3, 4] }).wr Reg.PF_APERTURE_BASE 0 (reserveAddr ready.ms / 2 ^ 30));
       d.hostOpen 0 && !d.inReset 0 && d.stage == 4 && !d.life.fatal &&
       d.apertureIn 0 ((reserveAddr ready.ms - reserveAddr ready.ms / (ready.pcie.bar2Gib * 2 ^ 30) * (ready.pcie.bar2Gib * 2 ^ 30))) 2 &&
       (match d.apertureReach 0 ((reserveAddr ready.ms - reserveAddr ready.ms / (ready.pcie.bar2Gib * 2 ^ 30) * (ready.pcie.bar2Gib * 2 ^ 30))) 2 1 with | (e, r) => (match r with | .mem a => e.inModuleReserve a | _ => false) && true)) &&
     (let d : Device := (let x := ({ ready with pcie := { ready.pcie with up := true, crs := false, vfEnable := true, numVfs := 3, busMaster := 1 } }); { x with mem := x.mem.write 0x200200000 [1, 2, 3, 4] });
       d.hostOpen 0 && !d.inReset 0 && d.stage == 4 && !d.life.fatal && d.apertureIn 0 (0x200200000) 4 &&
       (match d.apertureReach 0 (0x200200000) 4 2 with | (e, r) => r == .mem 0x200200000 && !e.inModuleReserve 0x200200000 && (let z := (e.cohAtomic 4 (apertureHoop 0) 0x200200000 4).writeDev 0x200200000 (le 4 (ofLe (e.mem.read 0x200200000 4) + 5)); z.countAt 0x200200000 == none))) &&
     (let d : Device := ((let x := ({ ready with pcie := { ready.pcie with up := true, crs := false, vfEnable := true, numVfs := 3, busMaster := 1 } }); x.writeVa 0 (2 ^ 44 + 0x9000) [5, 6, 7, 8] |>.getD x).wr Reg.HOOP_APERTURE_BASE 0 16384);
       d.hostOpen 1 && !d.inReset 1 && d.stage == 4 && !d.life.fatal && d.apertureIn 1 (0x9000) 4 &&
       (match d.apertureReach 1 (0x9000) 4 0 with | (e, r) => (match r with | .mem _ => true | _ => false) && true)) &&
     (let d : Device := ((let x := ({ ready with pcie := { ready.pcie with up := true, crs := false, vfEnable := true, numVfs := 3, busMaster := 1 } }); x.writeVa 0 (2 ^ 44 + 0x9000) [5, 6, 7, 8] |>.getD x).wr Reg.HOOP_APERTURE_BASE 0 16384);
       d.hostOpen 1 && !d.inReset 1 && d.stage == 4 && !d.life.fatal && d.apertureIn 1 (0x9000) 2 &&
       (match d.apertureReach 1 (0x9000) 2 1 with | (e, r) => (match r with | .mem _ => true | _ => false) && true)) &&
     (let d : Device := ({ ready with pcie := { ready.pcie with up := true, crs := false, vfEnable := true, numVfs := 3, busMaster := 1 } });
       d.hostOpen 1 && !d.inReset 1 && d.stage == 4 && !d.life.fatal && d.apertureIn 1 (0x40) 4 &&
       (match d.apertureReach 1 (0x40) 4 0 with | (e, r) => r == .closed && true)) &&
     (let d : Device := ({ ready with pcie := { ready.pcie with up := true, crs := false, vfEnable := true, numVfs := 3, busMaster := 1 } });
       d.hostOpen 1 && !d.inReset 1 && d.stage == 4 && !d.life.fatal && d.apertureIn 1 (0x40) 2 &&
       (match d.apertureReach 1 (0x40) 2 1 with | (e, r) => r == .closed && true)) &&
     (let d : Device := ({ ready with pcie := { ready.pcie with up := true, crs := false, vfEnable := true, numVfs := 3, busMaster := 1 } });
       d.hostOpen 1 && !d.inReset 1 && d.stage == 4 && !d.life.fatal && d.apertureIn 1 (0x40) 4 &&
       (match d.apertureReach 1 (0x40) 4 2 with | (e, r) => r == .closed && true)) &&
     (let d : Device := (let z := ((let x := ({ ready with pcie := { ready.pcie with up := true, crs := false, vfEnable := true, numVfs := 3, busMaster := 1 } }); x.writeVa 0 (2 ^ 44 + 0x9000) [5, 6, 7, 8] |>.getD x).wr Reg.HOOP_APERTURE_BASE 0 16384); z.setBoot { z.boot with waits := [⟨{ ring := 9 }, 0x18, 1, 0, 1, segBytes 0 0 0 0 0⟩] });
       d.hostOpen 1 && !d.inReset 1 && d.stage == 4 && !d.life.fatal && d.apertureIn 1 (0x9000) 4 &&
       (match d.apertureReach 1 (0x9000) 4 0 with | (e, r) => r == .held && true)) &&
     (let d : Device := (let z := ((let x := ({ ready with pcie := { ready.pcie with up := true, crs := false, vfEnable := true, numVfs := 3, busMaster := 1 } }); x.writeVa 0 (2 ^ 44 + 0x9000) [5, 6, 7, 8] |>.getD x).wr Reg.HOOP_APERTURE_BASE 0 16384); z.setBoot { z.boot with waits := [⟨{ ring := 9 }, 0x18, 1, 0, 1, segBytes 0 0 0 0 0⟩] });
       d.hostOpen 1 && !d.inReset 1 && d.stage == 4 && !d.life.fatal && d.apertureIn 1 (0x9000) 2 &&
       (match d.apertureReach 1 (0x9000) 2 1 with | (e, r) => r == .held && true)) &&
     (let d : Device := (let z := ((let x := ({ ready with pcie := { ready.pcie with up := true, crs := false, vfEnable := true, numVfs := 3, busMaster := 1 } }); x.writeVa 0 (2 ^ 44 + 0x9000) [5, 6, 7, 8] |>.getD x).wr Reg.HOOP_APERTURE_BASE 0 16384); z.setBoot { z.boot with waits := [⟨{ ring := 9 }, 0x18, 1, 0, 1, segBytes 0 0 0 0 0⟩] });
       d.hostOpen 1 && !d.inReset 1 && d.stage == 4 && !d.life.fatal && d.apertureIn 1 (0x9000) 4 &&
       (match d.apertureReach 1 (0x9000) 4 2 with | (e, r) => r == .held && true)) &&
     (let d : Device := ((let x := ({ ready with pcie := { ready.pcie with up := true, crs := false, vfEnable := true, numVfs := 3, busMaster := 1 } }); x.writeVa 0 (2 ^ 44 + 0x9000) [5, 6, 7, 8] |>.getD x).wr Reg.HOOP_APERTURE_BASE 0 16384);
       d.hostOpen 1 && !d.inReset 1 && d.stage == 4 && !d.life.fatal && d.apertureIn 1 ((0x60000 + 16 * 4)) 4 &&
       (match d.apertureReach 1 ((0x60000 + 16 * 4)) 4 2 with | (e, r) => (match r with | .mem _ => true | _ => false) && (let a := (match (d.apertureReach 1 (0x60000 + 16 * 4) 4 2).2 with | .mem a => a | _ => 0); ofLe (e.mem.read a 4) == 1 && (((e.cohAtomic 4 (apertureHoop 1) a 4).writeDev a (le 4 0)).countAt a).isSome))) &&
     (let d : Device := (let z := ((let x := ({ ready with pcie := { ready.pcie with up := true, crs := false, vfEnable := true, numVfs := 3, busMaster := 1 } }); x.writeVa 0 (2 ^ 44 + 0x9000) [5, 6, 7, 8] |>.getD x).wr Reg.HOOP_APERTURE_BASE 0 16384); match (z.apertureReach 1 0x9000 4 0).2 with | .mem a => { z with bad := [a / 32] } | _ => z);
       d.hostOpen 1 && !d.inReset 1 && d.stage == 4 && !d.life.fatal && d.apertureIn 1 (0x9000) 4 &&
       (match d.apertureReach 1 (0x9000) 4 2 with | (e, r) => (match r with | .bad _ => true | _ => false) && true)) &&
     (let d : Device := (let x := ({ ready with pcie := { ready.pcie with up := true, crs := false, vfEnable := true, numVfs := 3, busMaster := 1 } }); { x with life := { x.life with fatal := true } });
       d.hostOpen 0 && d.apertureIn 0 0x200200000 3 && !d.inReset 0 && d.stage == 4 && d.life.fatal) &&
     (let d : Device := ((({ ready with pcie := { ready.pcie with up := true, crs := false, vfEnable := true, numVfs := 3, busMaster := 1 } }).setBoot { ready.boot with staging := [7, 8, 9] }).wr Reg.BOOT_STATUS_STAGE 0 5);
       d.hostOpen 0 && d.apertureIn 0 0 3 && !d.inReset 0 && d.stage == 5 && d.rd Reg.RECOVERY_CTRL_BUSY == 0) &&
     (let d : Device := (let x := queued [{ fetched 0x01 0 launchP with started := true }]; { x with flow := { x.flow with asks := [{ read := 6, fn := 0, addr := 0x1000, n := 2, tag := some 3 }], reads := [(6, { kind := 5, a := 0, b := 7, c := 0x1000, fn := 0, addr := 0x1000 }), (8, { kind := 4, a := 0, b := 0, c := 0, fn := 0, addr := 0x2000 })] } });
       (d.flow.asks.find? (fun z => z.tag == some 3)).isSome && (match Tab.find? d.flow.reads 6 with | some r => d.live | none => false)) &&
     (let d : Device := (let x := queued [{ fetched 0x01 0 launchP with started := true }]; { x with flow := { x.flow with asks := [{ read := 6, fn := 0, addr := 0x1000, n := 2, tag := some 3 }, { read := 6, fn := 0, addr := 0x1002, n := 2 }], reads := [(6, { kind := 5, a := 0, b := 7, c := 0x1000, fn := 0, addr := 0x1000 }), (8, { kind := 4, a := 0, b := 0, c := 0, fn := 0, addr := 0x2000 })] } });
       (d.flow.asks.find? (fun z => z.tag == some 3)).isSome && (match Tab.find? d.flow.reads 6 with | some r => d.live | none => false)) &&
     (let d : Device := (let x := queued [{ fetched 0x01 0 launchP with started := true }]; { x with flow := { x.flow with asks := [{ read := 8, fn := 0, addr := 0x2000, n := 64, tag := some 5 }], reads := [(6, { kind := 5, a := 0, b := 7, c := 0x1000, fn := 0, addr := 0x1000 }), (8, { kind := 4, a := 0, b := 0, c := 0, fn := 0, addr := 0x2000 })] } });
       (d.flow.asks.find? (fun z => z.tag == some 5)).isSome &&
       (match Tab.find? d.flow.reads 8 with | some r => r.kind == 4 | none => false)) &&
     (let d : Device := (let z : Device := (let x := queued [{ fetched 0x01 0 launchP with started := true }]; { x with flow := { x.flow with asks := [{ read := 8, fn := 0, addr := 0x2000, n := 64, tag := some 5 }], reads := [(6, { kind := 5, a := 0, b := 7, c := 0x1000, fn := 0, addr := 0x1000 }), (8, { kind := 4, a := 0, b := 0, c := 0, fn := 0, addr := 0x2000 })] } }); { z with life := { z.life with fatal := true } });
       (d.flow.asks.find? (fun z => z.tag == some 5)).isSome &&
       (match Tab.find? d.flow.reads 8 with | some r => r.kind == 4 | none => false)) &&
     (let d : Device := (let x := queued [{ fetched 0x01 0 launchP with started := true }]; { x with flow := { x.flow with asks := [{ read := 6, fn := 0, addr := 0x1000, n := 2, tag := some 3 }], reads := [(6, { kind := 5, a := 0, b := 7, c := 0x1000, fn := 0, addr := 0x1000 }), (8, { kind := 4, a := 0, b := 0, c := 0, fn := 0, addr := 0x2000 })] } });
       (d.flow.asks.find? (fun z => z.tag == some 9)).isNone) &&
     (let d : Device := (let x := ({ ready with pcie := { ready.pcie with up := true, crs := false, vfEnable := true, numVfs := 3, busMaster := 1 } }); { x with pcie := { x.pcie with flr := 1 } });
       d.hostOpen 0 && d.apertureIn 0 0x200200000 3 && d.inReset 0) &&
     (let d : Device := (let x := ({ ready with pcie := { ready.pcie with up := true, crs := false, vfEnable := true, numVfs := 3, busMaster := 1 } }); { x with pcie := { x.pcie with flr := 1 } });
       d.hostOpen 0 && d.inReset 0 && inPage 0x200200000 4 && 0x200200000 % 4 == 0) &&
     (let d : Device := ({ ready with pcie := { ready.pcie with up := true, crs := false, vfEnable := true, numVfs := 3, busMaster := 1 } });
       d.hostOpen 0 && !d.apertureIn 0 (2 ^ 60) 4 && inPage (2 ^ 60) 4) &&
     (let d : Device := (let x := ({ ready with pcie := { ready.pcie with up := true, crs := false, vfEnable := true, numVfs := 3, busMaster := 1 } }); { x with life := { x.life with fatal := true } });
       d.hostOpen 0 && !d.inReset 0 && d.stage == 4 && d.apertureIn 0 0x200200000 4 && d.life.fatal)) = true := by decide +kernel

set_option maxRecDepth 100000 in
theorem witness_CoherenceRequests :
    ((let d : Device := ({ ready with coh := { caches := [] } }); d.live && d.isLine 70000 && true && !d.coh.asked 1 70000 &&
       d.coh.maySend 0 1 70000 (d.wayMask 0 1) && !d.coh.busy 70000 && d.coh.openAt 70000 < 48) &&
     (let d : Device := ({ ready with coh := { caches := [], opened := [(70000, { kind := 0, agent := 2, hoop := 0 })] } }); d.live &&
       d.isLine 70000 && true && !d.coh.asked 1 70000 && d.coh.maySend 0 1 70000 (d.wayMask 0 1) && d.coh.busy 70000) &&
     (let d : Device := ({ ready with coh := { caches := [], opened := [(70000, { kind := 0, agent := 1, hoop := 0 })] } }); d.live &&
       d.isLine 70000 && true && d.coh.asked 1 70000) &&
     (let d : Device := ({ ready with coh := { caches := [] } }); d.live && d.isLine 70000 && true && !d.coh.asked 1 70000 &&
       d.coh.maySend 1 1 70000 (d.wayMask 0 1) && !d.coh.busy 70000 && d.coh.openAt 70000 < 48) &&
     (let d : Device := ({ ready with coh := { caches := [], opened := [(70000, { kind := 0, agent := 2, hoop := 0 })] } }); d.live &&
       d.isLine 70000 && true && !d.coh.asked 1 70000 && d.coh.maySend 1 1 70000 (d.wayMask 0 1) && d.coh.busy 70000) &&
     (let d : Device := ({ ready with coh := { caches := [(1, [(70000, { state := 1, hoop := 0 })])] } }); d.live && d.isLine 70000 && true &&
       !d.coh.asked 1 70000 && d.coh.maySend 2 1 70000 (d.wayMask 0 1) && !d.coh.busy 70000 && d.coh.openAt 70000 < 48) &&
     (let d : Device := ({ ready with coh := { caches := [(1, [(70000, { state := 1, hoop := 0 })])], opened := [(70000, { kind := 0, agent := 2, hoop := 0 })] } });
       d.live && d.isLine 70000 && true && !d.coh.asked 1 70000 && d.coh.maySend 2 1 70000 (d.wayMask 0 1) && d.coh.busy 70000) &&
     (let d : Device := ({ ready with coh := { caches := [(1, [(70000, { state := 1, hoop := 0 })])], opened := [(70000, { kind := 0, agent := 1, hoop := 0 })] } });
       d.live && d.isLine 70000 && true && d.coh.asked 1 70000) &&
     (let d : Device := ({ ready with coh := { caches := [] } }); d.live && d.isLine 70000 && ((List.replicate 128 7)).length == 128 &&
       !d.coh.asked 1 70000 && d.coh.maySend 3 1 70000 (d.wayMask 0 1) && !d.coh.busy 70000 && d.coh.openAt 70000 < 48) &&
     (let d : Device := ({ ready with coh := { caches := [], opened := [(70000, { kind := 0, agent := 2, hoop := 0 })] } }); d.live &&
       d.isLine 70000 && ((List.replicate 128 7)).length == 128 && !d.coh.asked 1 70000 && d.coh.maySend 3 1 70000 (d.wayMask 0 1) &&
       d.coh.busy 70000) &&
     (let d : Device := ({ ready with coh := { caches := [], opened := [(70000, { kind := 0, agent := 1, hoop := 0 })] } }); d.live &&
       d.isLine 70000 && ((List.replicate 128 7)).length == 128 && d.coh.asked 1 70000) &&
     (let d : Device := ({ ready with coh := { caches := [(1, [(70000, { state := 4, hoop := 0 })])] } }); d.live && d.isLine 70000 && true &&
       !d.coh.asked 1 70000 && d.coh.maySend 4 1 70000 (d.wayMask 0 1) && !d.coh.busy 70000 && d.coh.openAt 70000 < 48) &&
     (let d : Device := ({ ready with coh := { caches := [(1, [(70000, { state := 4, hoop := 0 })])], opened := [(70000, { kind := 0, agent := 2, hoop := 0 })] } });
       d.live && d.isLine 70000 && true && !d.coh.asked 1 70000 && d.coh.maySend 4 1 70000 (d.wayMask 0 1) && d.coh.busy 70000) &&
     (let d : Device := ({ ready with coh := { caches := [(1, [(70000, { state := 4, hoop := 0 })])], opened := [(70000, { kind := 0, agent := 1, hoop := 0 })] } });
       d.live && d.isLine 70000 && true && d.coh.asked 1 70000) &&
     (let d : Device := ({ ready with coh := { caches := [] } }); d.live && d.isLine 70000 && true && !d.coh.asked 1 70000 &&
       d.coh.maySend 5 1 70000 (d.wayMask 0 1) && !d.coh.busy 70000 && d.coh.openAt 70000 < 48) &&
     (let d : Device := ({ ready with coh := { caches := [], opened := [(70000, { kind := 0, agent := 2, hoop := 0 })] } }); d.live &&
       d.isLine 70000 && true && !d.coh.asked 1 70000 && d.coh.maySend 5 1 70000 (d.wayMask 0 1) && d.coh.busy 70000) &&
     (let d : Device := ({ ready with coh := { caches := [] } }); d.live && d.isLine 70000 && 126 + 2 ≤ 128 && !d.coh.asked 1 70000 &&
       d.coh.maySend 6 1 70000 (d.wayMask 0 1) && !d.coh.busy 70000 && d.coh.openAt 70000 < 48) &&
     (let d : Device := ({ ready with coh := { caches := [], opened := [(70000, { kind := 0, agent := 2, hoop := 0 })] } }); d.live &&
       d.isLine 70000 && 126 + 2 ≤ 128 && !d.coh.asked 1 70000 && d.coh.maySend 6 1 70000 (d.wayMask 0 1) && d.coh.busy 70000) &&
     (let d : Device := ({ ready with coh := { caches := [], opened := [(70000, { kind := 0, agent := 1, hoop := 0 })] } }); d.live &&
       d.isLine 70000 && 126 + 2 ≤ 128 && d.coh.asked 1 70000) &&
     (let d : Device := ({ ready with coh := { caches := [] } }); d.live && d.isLine 70000 && 120 % 8 == 0 && 120 < 128 &&
       !d.coh.asked 1 70000 && d.coh.maySend 7 1 70000 (d.wayMask 0 1) && !d.coh.busy 70000 && d.coh.openAt 70000 < 48) &&
     (let d : Device := ({ ready with coh := { caches := [], opened := [(70000, { kind := 0, agent := 2, hoop := 0 })] } }); d.live &&
       d.isLine 70000 && 120 % 8 == 0 && 120 < 128 && !d.coh.asked 1 70000 && d.coh.maySend 7 1 70000 (d.wayMask 0 1) && d.coh.busy 70000) &&
     (let d : Device := ({ ready with coh := { caches := [], opened := [(70000, { kind := 0, agent := 1, hoop := 0 })] } }); d.live &&
       d.isLine 70000 && 120 % 8 == 0 && 120 < 128 && d.coh.asked 1 70000) &&
     (let d : Device := ({ ready with coh := { caches := [(1, [(70000, { state := 1, hoop := 0 })])] } }); d.live && d.isLine 70000 &&
       !d.coh.maySend 0 1 70000 (d.wayMask 0 1)) &&
     (let d : Device := ({ ready with coh := { caches := [(1, [(70000, { state := 3, hoop := 0 })])] } }); d.live && d.isLine 70000 &&
       !d.coh.maySend 1 1 70000 (d.wayMask 0 1)) &&
     (let d : Device := ({ ready with coh := { caches := [(1, [(70000, { state := 3, hoop := 0 })])] } }); d.live && d.isLine 70000 &&
       !d.coh.maySend 2 1 70000 (d.wayMask 0 1)) &&
     (let d : Device := ({ ready with coh := { caches := [(1, [(70000, { state := 4, hoop := 0 })])] } }); d.live && d.isLine 70000 &&
       !d.coh.maySend 3 1 70000 (d.wayMask 0 1)) &&
     (let d : Device := ({ ready with coh := { caches := [(1, [(70000, { state := 1, hoop := 0 })])] } }); d.live && d.isLine 70000 &&
       !d.coh.maySend 4 1 70000 (d.wayMask 0 1)) &&
     (let d : Device := (let lines := (List.range 4096).filter (fun n => homeDie (n * 128) == homeDie (70000 * 128) && sliceOf n == sliceOf 70000); { ready with coh := { opened := (lines.take 48).map (fun n => (n, ({ kind := 0, agent := 2, hoop := 0 } : Track))) } });
       d.live && d.isLine 70000 && !d.coh.asked 1 70000 && d.coh.maySend 5 1 70000 (d.wayMask 0 1) && !d.coh.busy 70000 &&
       48 ≤ d.coh.openAt 70000) &&
     (let d : Device := (let z : Device := ready; { z with coh := { z.coh with failed := [], lost := [] } }); d.coh.failed.isEmpty &&
       d.coh.lost.isEmpty)) = true := by decide +kernel

set_option maxRecDepth 100000 in
theorem witness_CoherenceMessages :
    ((let d : Device := ({ ready with coh := { caches := [(1, [(70000, { state := 4, hoop := 0 })])], opened := [(70000, { ({ kind := 0, agent := 2, hoop := 0 } : Track) with due := [1] })] } });
       d.live && d.isLine 70000 &&
       (match Tab.find? d.coh.opened 70000 with | some t => t.due.contains 1 && snoopGroup t.kind == snoopGroup 0 | none => false) &&
       d.met 1 70000 [3, 5, 7] == none && !d.coh.wbs.contains (1, 70000)) &&
     (let d : Device := ({ ready with coh := { caches := [(1, [(70000, { state := 3, hoop := 0 })])], opened := [(70000, { ({ kind := 0, agent := 2, hoop := 0 } : Track) with due := [1] })] } });
       d.live && d.isLine 70000 &&
       (match Tab.find? d.coh.opened 70000 with | some t => t.due.contains 1 && snoopGroup t.kind == snoopGroup 0 | none => false) &&
       d.met 1 70000 [3, 5, 7] == none && !d.coh.wbs.contains (1, 70000)) &&
     (let d : Device := ({ ready with coh := { caches := [(1, [(70000, { state := 2, hoop := 0 })])], opened := [(70000, { ({ kind := 0, agent := 2, hoop := 0 } : Track) with due := [1] })] } });
       d.live && d.isLine 70000 &&
       (match Tab.find? d.coh.opened 70000 with | some t => t.due.contains 1 && snoopGroup t.kind == snoopGroup 0 | none => false) &&
       d.met 1 70000 [3, 5, 7] == none && !d.coh.wbs.contains (1, 70000)) &&
     (let d : Device := ({ ready with coh := { caches := [(1, [(70000, { state := 1, hoop := 0 })])], opened := [(70000, { ({ kind := 0, agent := 2, hoop := 0 } : Track) with due := [1] })] } });
       d.live && d.isLine 70000 &&
       (match Tab.find? d.coh.opened 70000 with | some t => t.due.contains 1 && snoopGroup t.kind == snoopGroup 0 | none => false) &&
       d.met 1 70000 [3, 5, 7] == none && !d.coh.wbs.contains (1, 70000)) &&
     (let d : Device := ({ ready with coh := { caches := [], opened := [(70000, { ({ kind := 0, agent := 2, hoop := 0 } : Track) with due := [1] })] } });
       d.live && d.isLine 70000 &&
       (match Tab.find? d.coh.opened 70000 with | some t => t.due.contains 1 && snoopGroup t.kind == snoopGroup 0 | none => false) &&
       d.met 1 70000 [3, 5, 7] == none && !d.coh.wbs.contains (1, 70000)) &&
     (let d : Device := ({ ready with coh := { caches := [(1, [(70000, { state := 4, hoop := 0, bad := [3], pin := true })])], opened := [(70000, { ({ kind := 0, agent := 2, hoop := 0 } : Track) with due := [1] })] } });
       d.live && d.isLine 70000 &&
       (match Tab.find? d.coh.opened 70000 with | some t => t.due.contains 1 && snoopGroup t.kind == snoopGroup 0 | none => false) &&
       d.met 1 70000 [3, 5, 7] == none && !d.coh.wbs.contains (1, 70000)) &&
     (let d : Device := ({ ready with coh := { caches := [(1, [(70000, { state := 1, hoop := 0 })])], opened := [(70000, { ({ kind := 0, agent := 1, hoop := 0 } : Track) with due := [1] })] } });
       d.live && d.isLine 70000 &&
       (match Tab.find? d.coh.opened 70000 with | some t => t.due.contains 1 && snoopGroup t.kind == snoopGroup 0 | none => false) &&
       d.met 1 70000 [3, 5, 7] == none && !d.coh.wbs.contains (1, 70000)) &&
     (let d : Device := ({ ready with coh := { caches := [(1, [(70000, { state := 4, hoop := 0 })])], opened := [(70000, { ({ kind := 0, agent := 2, hoop := 0 } : Track) with due := [1] })], wbs := [(1, 70000)], waiting := [(70000, { kind := 4, agent := 1, hoop := 0 })] } });
       d.live && d.isLine 70000 &&
       (match Tab.find? d.coh.opened 70000 with | some t => t.due.contains 1 && snoopGroup t.kind == snoopGroup 0 | none => false) &&
       d.met 1 70000 [3, 5, 7] == none && d.coh.wbs.contains (1, 70000)) &&
     (let d : Device := ready; d.live && d.isLine 70000 && !d.coh.snoopOk (snoopGroup 0) 1 70000) &&
     (let d : Device := ({ ready with coh := { opened := [(70000, { ({ kind := 0, agent := 2, hoop := 0 } : Track) with due := [1] })], faults := [(3, 1, 70000)] } });
       d.live && d.isLine 70000 &&
       (match Tab.find? d.coh.opened 70000 with | some t => t.due.contains 1 && snoopGroup t.kind == snoopGroup 0 | none => false) &&
       d.met 1 70000 [3, 5, 7] == some 3) &&
     (let d : Device := ({ ready with coh := { opened := [(70000, { ({ kind := 0, agent := 2, hoop := 0 } : Track) with due := [1] })], faults := [(5, 1, 70000)] } });
       d.live && d.isLine 70000 &&
       (match Tab.find? d.coh.opened 70000 with | some t => t.due.contains 1 && snoopGroup t.kind == snoopGroup 0 | none => false) &&
       d.met 1 70000 [3, 5, 7] == some 5) &&
     (let d : Device := ({ ready with coh := { opened := [(70000, { ({ kind := 0, agent := 2, hoop := 0 } : Track) with due := [1] })], faults := [(7, 1, 70000)] } });
       d.live && d.isLine 70000 &&
       (match Tab.find? d.coh.opened 70000 with | some t => t.due.contains 1 && snoopGroup t.kind == snoopGroup 0 | none => false) &&
       d.met 1 70000 [3, 5, 7] == some 7) &&
     (let d : Device := ({ ready with coh := { caches := [(1, [(70000, { state := 4, hoop := 0 })])], opened := [(70000, { ({ kind := 5, agent := 2, hoop := 0 } : Track) with due := [1] })] } });
       d.live && d.isLine 70000 &&
       (match Tab.find? d.coh.opened 70000 with | some t => t.due.contains 1 && snoopGroup t.kind == snoopGroup 5 | none => false) &&
       d.met 1 70000 [3, 5, 7] == none && !d.coh.wbs.contains (1, 70000)) &&
     (let d : Device := ({ ready with coh := { caches := [(1, [(70000, { state := 3, hoop := 0 })])], opened := [(70000, { ({ kind := 5, agent := 2, hoop := 0 } : Track) with due := [1] })] } });
       d.live && d.isLine 70000 &&
       (match Tab.find? d.coh.opened 70000 with | some t => t.due.contains 1 && snoopGroup t.kind == snoopGroup 5 | none => false) &&
       d.met 1 70000 [3, 5, 7] == none && !d.coh.wbs.contains (1, 70000)) &&
     (let d : Device := ({ ready with coh := { caches := [(1, [(70000, { state := 2, hoop := 0 })])], opened := [(70000, { ({ kind := 5, agent := 2, hoop := 0 } : Track) with due := [1] })] } });
       d.live && d.isLine 70000 &&
       (match Tab.find? d.coh.opened 70000 with | some t => t.due.contains 1 && snoopGroup t.kind == snoopGroup 5 | none => false) &&
       d.met 1 70000 [3, 5, 7] == none && !d.coh.wbs.contains (1, 70000)) &&
     (let d : Device := ({ ready with coh := { caches := [(1, [(70000, { state := 1, hoop := 0 })])], opened := [(70000, { ({ kind := 5, agent := 2, hoop := 0 } : Track) with due := [1] })] } });
       d.live && d.isLine 70000 &&
       (match Tab.find? d.coh.opened 70000 with | some t => t.due.contains 1 && snoopGroup t.kind == snoopGroup 5 | none => false) &&
       d.met 1 70000 [3, 5, 7] == none && !d.coh.wbs.contains (1, 70000)) &&
     (let d : Device := ({ ready with coh := { caches := [], opened := [(70000, { ({ kind := 5, agent := 2, hoop := 0 } : Track) with due := [1] })] } });
       d.live && d.isLine 70000 &&
       (match Tab.find? d.coh.opened 70000 with | some t => t.due.contains 1 && snoopGroup t.kind == snoopGroup 5 | none => false) &&
       d.met 1 70000 [3, 5, 7] == none && !d.coh.wbs.contains (1, 70000)) &&
     (let d : Device := ({ ready with coh := { caches := [(1, [(70000, { state := 4, hoop := 0, bad := [3], pin := true })])], opened := [(70000, { ({ kind := 5, agent := 2, hoop := 0 } : Track) with due := [1] })] } });
       d.live && d.isLine 70000 &&
       (match Tab.find? d.coh.opened 70000 with | some t => t.due.contains 1 && snoopGroup t.kind == snoopGroup 5 | none => false) &&
       d.met 1 70000 [3, 5, 7] == none && !d.coh.wbs.contains (1, 70000)) &&
     (let d : Device := ({ ready with coh := { caches := [(1, [(70000, { state := 1, hoop := 0 })])], opened := [(70000, { ({ kind := 5, agent := 1, hoop := 0 } : Track) with due := [1] })] } });
       d.live && d.isLine 70000 &&
       (match Tab.find? d.coh.opened 70000 with | some t => t.due.contains 1 && snoopGroup t.kind == snoopGroup 5 | none => false) &&
       d.met 1 70000 [3, 5, 7] == none && !d.coh.wbs.contains (1, 70000)) &&
     (let d : Device := ({ ready with coh := { caches := [(1, [(70000, { state := 4, hoop := 0 })])], opened := [(70000, { ({ kind := 5, agent := 2, hoop := 0 } : Track) with due := [1] })], wbs := [(1, 70000)], waiting := [(70000, { kind := 4, agent := 1, hoop := 0 })] } });
       d.live && d.isLine 70000 &&
       (match Tab.find? d.coh.opened 70000 with | some t => t.due.contains 1 && snoopGroup t.kind == snoopGroup 5 | none => false) &&
       d.met 1 70000 [3, 5, 7] == none && d.coh.wbs.contains (1, 70000)) &&
     (let d : Device := ready; d.live && d.isLine 70000 && !d.coh.snoopOk (snoopGroup 5) 1 70000) &&
     (let d : Device := ({ ready with coh := { opened := [(70000, { ({ kind := 5, agent := 2, hoop := 0 } : Track) with due := [1] })], faults := [(3, 1, 70000)] } });
       d.live && d.isLine 70000 &&
       (match Tab.find? d.coh.opened 70000 with | some t => t.due.contains 1 && snoopGroup t.kind == snoopGroup 5 | none => false) &&
       d.met 1 70000 [3, 5, 7] == some 3) &&
     (let d : Device := ({ ready with coh := { opened := [(70000, { ({ kind := 5, agent := 2, hoop := 0 } : Track) with due := [1] })], faults := [(5, 1, 70000)] } });
       d.live && d.isLine 70000 &&
       (match Tab.find? d.coh.opened 70000 with | some t => t.due.contains 1 && snoopGroup t.kind == snoopGroup 5 | none => false) &&
       d.met 1 70000 [3, 5, 7] == some 5) &&
     (let d : Device := ({ ready with coh := { opened := [(70000, { ({ kind := 5, agent := 2, hoop := 0 } : Track) with due := [1] })], faults := [(7, 1, 70000)] } });
       d.live && d.isLine 70000 &&
       (match Tab.find? d.coh.opened 70000 with | some t => t.due.contains 1 && snoopGroup t.kind == snoopGroup 5 | none => false) &&
       d.met 1 70000 [3, 5, 7] == some 7) &&
     (let d : Device := ({ ready with coh := { caches := [(1, [(70000, { state := 4, hoop := 0 })])], opened := [(70000, { ({ kind := 1, agent := 2, hoop := 0 } : Track) with due := [1] })] } });
       d.live && d.isLine 70000 &&
       (match Tab.find? d.coh.opened 70000 with | some t => t.due.contains 1 && snoopGroup t.kind == snoopGroup 1 | none => false) &&
       d.met 1 70000 [3, 5, 7] == none && !d.coh.wbs.contains (1, 70000)) &&
     (let d : Device := ({ ready with coh := { caches := [(1, [(70000, { state := 3, hoop := 0 })])], opened := [(70000, { ({ kind := 1, agent := 2, hoop := 0 } : Track) with due := [1] })] } });
       d.live && d.isLine 70000 &&
       (match Tab.find? d.coh.opened 70000 with | some t => t.due.contains 1 && snoopGroup t.kind == snoopGroup 1 | none => false) &&
       d.met 1 70000 [3, 5, 7] == none && !d.coh.wbs.contains (1, 70000)) &&
     (let d : Device := ({ ready with coh := { caches := [(1, [(70000, { state := 2, hoop := 0 })])], opened := [(70000, { ({ kind := 1, agent := 2, hoop := 0 } : Track) with due := [1] })] } });
       d.live && d.isLine 70000 &&
       (match Tab.find? d.coh.opened 70000 with | some t => t.due.contains 1 && snoopGroup t.kind == snoopGroup 1 | none => false) &&
       d.met 1 70000 [3, 5, 7] == none && !d.coh.wbs.contains (1, 70000)) &&
     (let d : Device := ({ ready with coh := { caches := [(1, [(70000, { state := 1, hoop := 0 })])], opened := [(70000, { ({ kind := 1, agent := 2, hoop := 0 } : Track) with due := [1] })] } });
       d.live && d.isLine 70000 &&
       (match Tab.find? d.coh.opened 70000 with | some t => t.due.contains 1 && snoopGroup t.kind == snoopGroup 1 | none => false) &&
       d.met 1 70000 [3, 5, 7] == none && !d.coh.wbs.contains (1, 70000)) &&
     (let d : Device := ({ ready with coh := { caches := [], opened := [(70000, { ({ kind := 1, agent := 2, hoop := 0 } : Track) with due := [1] })] } });
       d.live && d.isLine 70000 &&
       (match Tab.find? d.coh.opened 70000 with | some t => t.due.contains 1 && snoopGroup t.kind == snoopGroup 1 | none => false) &&
       d.met 1 70000 [3, 5, 7] == none && !d.coh.wbs.contains (1, 70000)) &&
     (let d : Device := ({ ready with coh := { caches := [(1, [(70000, { state := 4, hoop := 0, bad := [3], pin := true })])], opened := [(70000, { ({ kind := 1, agent := 2, hoop := 0 } : Track) with due := [1] })] } });
       d.live && d.isLine 70000 &&
       (match Tab.find? d.coh.opened 70000 with | some t => t.due.contains 1 && snoopGroup t.kind == snoopGroup 1 | none => false) &&
       d.met 1 70000 [3, 5, 7] == none && !d.coh.wbs.contains (1, 70000)) &&
     (let d : Device := ({ ready with coh := { caches := [(1, [(70000, { state := 1, hoop := 0 })])], opened := [(70000, { ({ kind := 1, agent := 1, hoop := 0 } : Track) with due := [1] })] } });
       d.live && d.isLine 70000 &&
       (match Tab.find? d.coh.opened 70000 with | some t => t.due.contains 1 && snoopGroup t.kind == snoopGroup 1 | none => false) &&
       d.met 1 70000 [3, 5, 7] == none && !d.coh.wbs.contains (1, 70000)) &&
     (let d : Device := ({ ready with coh := { caches := [(1, [(70000, { state := 4, hoop := 0 })])], opened := [(70000, { ({ kind := 1, agent := 2, hoop := 0 } : Track) with due := [1] })], wbs := [(1, 70000)], waiting := [(70000, { kind := 4, agent := 1, hoop := 0 })] } });
       d.live && d.isLine 70000 &&
       (match Tab.find? d.coh.opened 70000 with | some t => t.due.contains 1 && snoopGroup t.kind == snoopGroup 1 | none => false) &&
       d.met 1 70000 [3, 5, 7] == none && d.coh.wbs.contains (1, 70000)) &&
     (let d : Device := ready; d.live && d.isLine 70000 && !d.coh.snoopOk (snoopGroup 1) 1 70000) &&
     (let d : Device := ({ ready with coh := { opened := [(70000, { ({ kind := 1, agent := 2, hoop := 0 } : Track) with due := [1] })], faults := [(3, 1, 70000)] } });
       d.live && d.isLine 70000 &&
       (match Tab.find? d.coh.opened 70000 with | some t => t.due.contains 1 && snoopGroup t.kind == snoopGroup 1 | none => false) &&
       d.met 1 70000 [3, 5, 7] == some 3) &&
     (let d : Device := ({ ready with coh := { opened := [(70000, { ({ kind := 1, agent := 2, hoop := 0 } : Track) with due := [1] })], faults := [(5, 1, 70000)] } });
       d.live && d.isLine 70000 &&
       (match Tab.find? d.coh.opened 70000 with | some t => t.due.contains 1 && snoopGroup t.kind == snoopGroup 1 | none => false) &&
       d.met 1 70000 [3, 5, 7] == some 5) &&
     (let d : Device := ({ ready with coh := { opened := [(70000, { ({ kind := 1, agent := 2, hoop := 0 } : Track) with due := [1] })], faults := [(7, 1, 70000)] } });
       d.live && d.isLine 70000 &&
       (match Tab.find? d.coh.opened 70000 with | some t => t.due.contains 1 && snoopGroup t.kind == snoopGroup 1 | none => false) &&
       d.met 1 70000 [3, 5, 7] == some 7) &&
     (let d : Device := ({ ready with coh := { caches := [(1, [(70000, { state := 4, hoop := 0 })])], opened := [(70000, { ({ kind := 7, agent := 2, hoop := 0 } : Track) with due := [1] })] } });
       d.live && d.isLine 70000 &&
       (match Tab.find? d.coh.opened 70000 with | some t => t.due.contains 1 && snoopGroup t.kind == snoopGroup 7 | none => false) &&
       d.met 1 70000 [3, 5, 7] == none && !d.coh.wbs.contains (1, 70000)) &&
     (let d : Device := ({ ready with coh := { caches := [(1, [(70000, { state := 3, hoop := 0 })])], opened := [(70000, { ({ kind := 7, agent := 2, hoop := 0 } : Track) with due := [1] })] } });
       d.live && d.isLine 70000 &&
       (match Tab.find? d.coh.opened 70000 with | some t => t.due.contains 1 && snoopGroup t.kind == snoopGroup 7 | none => false) &&
       d.met 1 70000 [3, 5, 7] == none && !d.coh.wbs.contains (1, 70000)) &&
     (let d : Device := ({ ready with coh := { caches := [(1, [(70000, { state := 2, hoop := 0 })])], opened := [(70000, { ({ kind := 7, agent := 2, hoop := 0 } : Track) with due := [1] })] } });
       d.live && d.isLine 70000 &&
       (match Tab.find? d.coh.opened 70000 with | some t => t.due.contains 1 && snoopGroup t.kind == snoopGroup 7 | none => false) &&
       d.met 1 70000 [3, 5, 7] == none && !d.coh.wbs.contains (1, 70000)) &&
     (let d : Device := ({ ready with coh := { caches := [(1, [(70000, { state := 1, hoop := 0 })])], opened := [(70000, { ({ kind := 7, agent := 2, hoop := 0 } : Track) with due := [1] })] } });
       d.live && d.isLine 70000 &&
       (match Tab.find? d.coh.opened 70000 with | some t => t.due.contains 1 && snoopGroup t.kind == snoopGroup 7 | none => false) &&
       d.met 1 70000 [3, 5, 7] == none && !d.coh.wbs.contains (1, 70000)) &&
     (let d : Device := ({ ready with coh := { caches := [], opened := [(70000, { ({ kind := 7, agent := 2, hoop := 0 } : Track) with due := [1] })] } });
       d.live && d.isLine 70000 &&
       (match Tab.find? d.coh.opened 70000 with | some t => t.due.contains 1 && snoopGroup t.kind == snoopGroup 7 | none => false) &&
       d.met 1 70000 [3, 5, 7] == none && !d.coh.wbs.contains (1, 70000)) &&
     (let d : Device := ({ ready with coh := { caches := [(1, [(70000, { state := 4, hoop := 0, bad := [3], pin := true })])], opened := [(70000, { ({ kind := 7, agent := 2, hoop := 0 } : Track) with due := [1] })] } });
       d.live && d.isLine 70000 &&
       (match Tab.find? d.coh.opened 70000 with | some t => t.due.contains 1 && snoopGroup t.kind == snoopGroup 7 | none => false) &&
       d.met 1 70000 [3, 5, 7] == none && !d.coh.wbs.contains (1, 70000)) &&
     (let d : Device := ({ ready with coh := { caches := [(1, [(70000, { state := 1, hoop := 0 })])], opened := [(70000, { ({ kind := 7, agent := 1, hoop := 0 } : Track) with due := [1] })] } });
       d.live && d.isLine 70000 &&
       (match Tab.find? d.coh.opened 70000 with | some t => t.due.contains 1 && snoopGroup t.kind == snoopGroup 7 | none => false) &&
       d.met 1 70000 [3, 5, 7] == none && !d.coh.wbs.contains (1, 70000)) &&
     (let d : Device := ({ ready with coh := { caches := [(1, [(70000, { state := 4, hoop := 0 })])], opened := [(70000, { ({ kind := 7, agent := 2, hoop := 0 } : Track) with due := [1] })], wbs := [(1, 70000)], waiting := [(70000, { kind := 4, agent := 1, hoop := 0 })] } });
       d.live && d.isLine 70000 &&
       (match Tab.find? d.coh.opened 70000 with | some t => t.due.contains 1 && snoopGroup t.kind == snoopGroup 7 | none => false) &&
       d.met 1 70000 [3, 5, 7] == none && d.coh.wbs.contains (1, 70000)) &&
     (let d : Device := ready; d.live && d.isLine 70000 && !d.coh.snoopOk (snoopGroup 7) 1 70000) &&
     (let d : Device := ({ ready with coh := { opened := [(70000, { ({ kind := 7, agent := 2, hoop := 0 } : Track) with due := [1] })], faults := [(3, 1, 70000)] } });
       d.live && d.isLine 70000 &&
       (match Tab.find? d.coh.opened 70000 with | some t => t.due.contains 1 && snoopGroup t.kind == snoopGroup 7 | none => false) &&
       d.met 1 70000 [3, 5, 7] == some 3) &&
     (let d : Device := ({ ready with coh := { opened := [(70000, { ({ kind := 7, agent := 2, hoop := 0 } : Track) with due := [1] })], faults := [(5, 1, 70000)] } });
       d.live && d.isLine 70000 &&
       (match Tab.find? d.coh.opened 70000 with | some t => t.due.contains 1 && snoopGroup t.kind == snoopGroup 7 | none => false) &&
       d.met 1 70000 [3, 5, 7] == some 5) &&
     (let d : Device := ({ ready with coh := { opened := [(70000, { ({ kind := 7, agent := 2, hoop := 0 } : Track) with due := [1] })], faults := [(7, 1, 70000)] } });
       d.live && d.isLine 70000 &&
       (match Tab.find? d.coh.opened 70000 with | some t => t.due.contains 1 && snoopGroup t.kind == snoopGroup 7 | none => false) &&
       d.met 1 70000 [3, 5, 7] == some 7) &&
     (let d : Device := ({ ready with coh := { caches := [(1, [(70000, { state := 4, hoop := 0 })])], opened := [(70000, { ({ kind := 2, agent := 2, hoop := 0 } : Track) with due := [1] })] } });
       d.live && d.isLine 70000 &&
       (match Tab.find? d.coh.opened 70000 with | some t => t.due.contains 1 && snoopGroup t.kind == snoopGroup 2 | none => false) &&
       d.met 1 70000 [3, 5, 7] == none && !d.coh.wbs.contains (1, 70000)) &&
     (let d : Device := ({ ready with coh := { caches := [(1, [(70000, { state := 3, hoop := 0 })])], opened := [(70000, { ({ kind := 2, agent := 2, hoop := 0 } : Track) with due := [1] })] } });
       d.live && d.isLine 70000 &&
       (match Tab.find? d.coh.opened 70000 with | some t => t.due.contains 1 && snoopGroup t.kind == snoopGroup 2 | none => false) &&
       d.met 1 70000 [3, 5, 7] == none && !d.coh.wbs.contains (1, 70000)) &&
     (let d : Device := ({ ready with coh := { caches := [(1, [(70000, { state := 2, hoop := 0 })])], opened := [(70000, { ({ kind := 2, agent := 2, hoop := 0 } : Track) with due := [1] })] } });
       d.live && d.isLine 70000 &&
       (match Tab.find? d.coh.opened 70000 with | some t => t.due.contains 1 && snoopGroup t.kind == snoopGroup 2 | none => false) &&
       d.met 1 70000 [3, 5, 7] == none && !d.coh.wbs.contains (1, 70000)) &&
     (let d : Device := ({ ready with coh := { caches := [(1, [(70000, { state := 1, hoop := 0 })])], opened := [(70000, { ({ kind := 2, agent := 2, hoop := 0 } : Track) with due := [1] })] } });
       d.live && d.isLine 70000 &&
       (match Tab.find? d.coh.opened 70000 with | some t => t.due.contains 1 && snoopGroup t.kind == snoopGroup 2 | none => false) &&
       d.met 1 70000 [3, 5, 7] == none && !d.coh.wbs.contains (1, 70000)) &&
     (let d : Device := ({ ready with coh := { caches := [], opened := [(70000, { ({ kind := 2, agent := 2, hoop := 0 } : Track) with due := [1] })] } });
       d.live && d.isLine 70000 &&
       (match Tab.find? d.coh.opened 70000 with | some t => t.due.contains 1 && snoopGroup t.kind == snoopGroup 2 | none => false) &&
       d.met 1 70000 [3, 5, 7] == none && !d.coh.wbs.contains (1, 70000)) &&
     (let d : Device := ({ ready with coh := { caches := [(1, [(70000, { state := 4, hoop := 0, bad := [3], pin := true })])], opened := [(70000, { ({ kind := 2, agent := 2, hoop := 0 } : Track) with due := [1] })] } });
       d.live && d.isLine 70000 &&
       (match Tab.find? d.coh.opened 70000 with | some t => t.due.contains 1 && snoopGroup t.kind == snoopGroup 2 | none => false) &&
       d.met 1 70000 [3, 5, 7] == none && !d.coh.wbs.contains (1, 70000)) &&
     (let d : Device := ({ ready with coh := { caches := [(1, [(70000, { state := 1, hoop := 0 })])], opened := [(70000, { ({ kind := 2, agent := 1, hoop := 0 } : Track) with due := [1] })] } });
       d.live && d.isLine 70000 &&
       (match Tab.find? d.coh.opened 70000 with | some t => t.due.contains 1 && snoopGroup t.kind == snoopGroup 2 | none => false) &&
       d.met 1 70000 [3, 5, 7] == none && !d.coh.wbs.contains (1, 70000)) &&
     (let d : Device := ({ ready with coh := { caches := [(1, [(70000, { state := 4, hoop := 0 })])], opened := [(70000, { ({ kind := 2, agent := 2, hoop := 0 } : Track) with due := [1] })], wbs := [(1, 70000)], waiting := [(70000, { kind := 4, agent := 1, hoop := 0 })] } });
       d.live && d.isLine 70000 &&
       (match Tab.find? d.coh.opened 70000 with | some t => t.due.contains 1 && snoopGroup t.kind == snoopGroup 2 | none => false) &&
       d.met 1 70000 [3, 5, 7] == none && d.coh.wbs.contains (1, 70000)) &&
     (let d : Device := ready; d.live && d.isLine 70000 && !d.coh.snoopOk (snoopGroup 2) 1 70000) &&
     (let d : Device := ({ ready with coh := { opened := [(70000, { ({ kind := 2, agent := 2, hoop := 0 } : Track) with due := [1] })], faults := [(3, 1, 70000)] } });
       d.live && d.isLine 70000 &&
       (match Tab.find? d.coh.opened 70000 with | some t => t.due.contains 1 && snoopGroup t.kind == snoopGroup 2 | none => false) &&
       d.met 1 70000 [3, 5, 7] == some 3) &&
     (let d : Device := ({ ready with coh := { opened := [(70000, { ({ kind := 2, agent := 2, hoop := 0 } : Track) with due := [1] })], faults := [(5, 1, 70000)] } });
       d.live && d.isLine 70000 &&
       (match Tab.find? d.coh.opened 70000 with | some t => t.due.contains 1 && snoopGroup t.kind == snoopGroup 2 | none => false) &&
       d.met 1 70000 [3, 5, 7] == some 5) &&
     (let d : Device := ({ ready with coh := { opened := [(70000, { ({ kind := 2, agent := 2, hoop := 0 } : Track) with due := [1] })], faults := [(7, 1, 70000)] } });
       d.live && d.isLine 70000 &&
       (match Tab.find? d.coh.opened 70000 with | some t => t.due.contains 1 && snoopGroup t.kind == snoopGroup 2 | none => false) &&
       d.met 1 70000 [3, 5, 7] == some 7) &&
     (let d : Device := ({ ready with coh := { caches := [(1, [(70000, { state := 4, hoop := 0, bad := [3] })])], opened := [(70000, { ({ kind := 0, agent := 2, hoop := 0 } : Track) with due := [1] })] } });
       d.live && d.isLine 70000 &&
       (match Tab.find? d.coh.opened 70000 with | some t => t.due.contains 1 && snoopGroup t.kind == snoopGroup 0 | none => false) &&
       d.met 1 70000 [3, 5, 7] == none && supplies 0 ((d.pinLine 70000).coh.state 1 70000) &&
       (let d1 := (d.pinLine 70000).lookedUp 1 70000 true; !d1.life.fatal && d1.coh.pinCount 1 70000 == 1)) &&
     (let d : Device := ({ ready with coh := { caches := [(1, [(70000, { state := 3, hoop := 0, bad := [3] })])], opened := [(70000, { ({ kind := 0, agent := 2, hoop := 0 } : Track) with due := [1] })] } });
       d.live && d.isLine 70000 &&
       (match Tab.find? d.coh.opened 70000 with | some t => t.due.contains 1 && snoopGroup t.kind == snoopGroup 0 | none => false) &&
       d.met 1 70000 [3, 5, 7] == none && (let d1 := (d.pinLine 70000).lookedUp 1 70000 true; !d1.life.fatal && d1.coh.state 1 70000 == 0)) &&
     (let d : Device := (let lines := ((List.range 4096).filter (fun n => n != 70000 && sliceOf n == sliceOf 70000)).take 4; { ready with coh := { caches := [(1, (70000, ({ state := 4, hoop := 0, bad := [3] } : CLine)) :: lines.map (fun n => (n, ({ state := 4, hoop := 0, bad := [3], pin := true } : CLine))))], opened := [(70000, { ({ kind := 0, agent := 2, hoop := 0 } : Track) with due := [1] })] } });
       d.live && d.isLine 70000 &&
       (match Tab.find? d.coh.opened 70000 with | some t => t.due.contains 1 && snoopGroup t.kind == snoopGroup 0 | none => false) &&
       d.met 1 70000 [3, 5, 7] == none && (let d1 := (d.pinLine 70000).lookedUp 1 70000 true; d1.life.fatal)) &&
     (let d : Device := ({ ready with coh := { opened := [(70000, { kind := 0, agent := 2, hoop := 0 })], ring := [(1, 70000, 0)] } });
       d.live && d.isLine 70000 && d.coh.ring.contains (1, 70000, 0) && (Tab.find? d.coh.opened 70000).isSome &&
       d.met (homeDie (70000 * 128)) 70000 [3, 4] == none) &&
     (let d : Device := ({ ready with coh := { opened := [(70000, { kind := 0, agent := 2, hoop := 0 })], ring := [(1, 70000, 0)], faults := [(3, (homeDie (70000 * 128)), 70000)] } });
       d.live && d.isLine 70000 && d.coh.ring.contains (1, 70000, 0) && (Tab.find? d.coh.opened 70000).isSome &&
       d.met (homeDie (70000 * 128)) 70000 [3, 4] == some 3) &&
     (let d : Device := ({ ready with coh := { opened := [(70000, { kind := 0, agent := 2, hoop := 0 })], ring := [(1, 70000, 0)], faults := [(4, (homeDie (70000 * 128)), 70000)] } });
       d.live && d.isLine 70000 && d.coh.ring.contains (1, 70000, 0) && (Tab.find? d.coh.opened 70000).isSome &&
       d.met (homeDie (70000 * 128)) 70000 [3, 4] == some 4) &&
     (let d : Device := ready; d.live && d.isLine 70000 && !d.rspOk 0 1 70000) &&
     (let d : Device := ({ ready with coh := { opened := [(70000, { kind := 0, agent := 2, hoop := 0 })], ring := [(1, 70000, 1)] } });
       d.live && d.isLine 70000 && d.coh.ring.contains (1, 70000, 1) && (Tab.find? d.coh.opened 70000).isSome &&
       d.met (homeDie (70000 * 128)) 70000 [3, 4] == none) &&
     (let d : Device := ({ ready with coh := { opened := [(70000, { kind := 0, agent := 2, hoop := 0 })], ring := [(1, 70000, 1)], faults := [(3, (homeDie (70000 * 128)), 70000)] } });
       d.live && d.isLine 70000 && d.coh.ring.contains (1, 70000, 1) && (Tab.find? d.coh.opened 70000).isSome &&
       d.met (homeDie (70000 * 128)) 70000 [3, 4] == some 3) &&
     (let d : Device := ({ ready with coh := { opened := [(70000, { kind := 0, agent := 2, hoop := 0 })], ring := [(1, 70000, 1)], faults := [(4, (homeDie (70000 * 128)), 70000)] } });
       d.live && d.isLine 70000 && d.coh.ring.contains (1, 70000, 1) && (Tab.find? d.coh.opened 70000).isSome &&
       d.met (homeDie (70000 * 128)) 70000 [3, 4] == some 4) &&
     (let d : Device := ready; d.live && d.isLine 70000 && !d.rspOk 1 1 70000) &&
     (let d : Device := ({ ready with coh := { opened := [(70000, { kind := 0, agent := 2, hoop := 0 })], ring := [(1, 70000, 2)] } });
       d.live && d.isLine 70000 && d.coh.ring.contains (1, 70000, 2) && (Tab.find? d.coh.opened 70000).isSome &&
       d.met (homeDie (70000 * 128)) 70000 [3, 4] == none) &&
     (let d : Device := ({ ready with coh := { opened := [(70000, { kind := 0, agent := 2, hoop := 0 })], ring := [(1, 70000, 2)], faults := [(3, (homeDie (70000 * 128)), 70000)] } });
       d.live && d.isLine 70000 && d.coh.ring.contains (1, 70000, 2) && (Tab.find? d.coh.opened 70000).isSome &&
       d.met (homeDie (70000 * 128)) 70000 [3, 4] == some 3) &&
     (let d : Device := ({ ready with coh := { opened := [(70000, { kind := 0, agent := 2, hoop := 0 })], ring := [(1, 70000, 2)], faults := [(4, (homeDie (70000 * 128)), 70000)] } });
       d.live && d.isLine 70000 && d.coh.ring.contains (1, 70000, 2) && (Tab.find? d.coh.opened 70000).isSome &&
       d.met (homeDie (70000 * 128)) 70000 [3, 4] == some 4) &&
     (let d : Device := ready; d.live && d.isLine 70000 && !d.rspOk 2 1 70000) &&
     (let d : Device := ({ ready with coh := { opened := [(70000, { kind := 0, agent := 2, hoop := 0 })], ring := [(1, 70000, 3)] } });
       d.live && d.isLine 70000 && d.coh.ring.contains (1, 70000, 3) && (Tab.find? d.coh.opened 70000).isSome &&
       d.met (homeDie (70000 * 128)) 70000 [3, 4] == none) &&
     (let d : Device := ({ ready with coh := { opened := [(70000, { kind := 0, agent := 2, hoop := 0 })], ring := [(1, 70000, 3)], faults := [(3, (homeDie (70000 * 128)), 70000)] } });
       d.live && d.isLine 70000 && d.coh.ring.contains (1, 70000, 3) && (Tab.find? d.coh.opened 70000).isSome &&
       d.met (homeDie (70000 * 128)) 70000 [3, 4] == some 3) &&
     (let d : Device := ({ ready with coh := { opened := [(70000, { kind := 0, agent := 2, hoop := 0 })], ring := [(1, 70000, 3)], faults := [(4, (homeDie (70000 * 128)), 70000)] } });
       d.live && d.isLine 70000 && d.coh.ring.contains (1, 70000, 3) && (Tab.find? d.coh.opened 70000).isSome &&
       d.met (homeDie (70000 * 128)) 70000 [3, 4] == some 4) &&
     (let d : Device := ready; d.live && d.isLine 70000 && !d.rspOk 3 1 70000) &&
     (let d : Device := ({ ready with coh := { opened := [(70000, ({ kind := 0, agent := 1, hoop := 0, rsps := [(2, 1)] } : Track))] } });
       d.live && d.isLine 70000 &&
       (match Tab.find? d.coh.opened 70000 with | some t => t.agent == 1 && t.due.isEmpty && !d.coh.ring.any (fun r => r.2.1 == 70000) && d.met 1 70000 [3] == none && true | none => false)) &&
     (let d : Device := ({ ready with coh := { opened := [(70000, ({ kind := 1, agent := 1, hoop := 0, rsps := [(2, 2)] } : Track))] } });
       d.live && d.isLine 70000 &&
       (match Tab.find? d.coh.opened 70000 with | some t => t.agent == 1 && t.due.isEmpty && !d.coh.ring.any (fun r => r.2.1 == 70000) && d.met 1 70000 [3] == none && true | none => false)) &&
     (let d : Device := ({ ready with coh := { opened := [(70000, ({ kind := 2, agent := 1, hoop := 0, rsps := [(1, 0), (2, 0)] } : Track))] } });
       d.live && d.isLine 70000 &&
       (match Tab.find? d.coh.opened 70000 with | some t => t.agent == 1 && t.due.isEmpty && !d.coh.ring.any (fun r => r.2.1 == 70000) && d.met 1 70000 [3] == none && true | none => false)) &&
     (let d : Device := ({ ready with coh := { opened := [(70000, ({ kind := 2, agent := 1, hoop := 0, rsps := [(1, 1), (2, 0)] } : Track))], caches := [(1, [(70000, { state := 1, hoop := 0 })])] } });
       d.live && d.isLine 70000 &&
       (match Tab.find? d.coh.opened 70000 with | some t => t.agent == 1 && t.due.isEmpty && !d.coh.ring.any (fun r => r.2.1 == 70000) && d.met 1 70000 [3] == none && true | none => false)) &&
     (let d : Device := ({ ready with coh := { opened := [(70000, ({ kind := 3, agent := 1, hoop := 0, rsps := [(2, 0)], data := (List.replicate 128 7) } : Track))] } });
       d.live && d.isLine 70000 &&
       (match Tab.find? d.coh.opened 70000 with | some t => t.agent == 1 && t.due.isEmpty && !d.coh.ring.any (fun r => r.2.1 == 70000) && d.met 1 70000 [3] == none && true | none => false)) &&
     (let d : Device := ({ ready with coh := { opened := [(70000, ({ kind := 5, agent := 1, hoop := 0, rsps := [(2, 3)] } : Track))] } });
       d.live && d.isLine 70000 &&
       (match Tab.find? d.coh.opened 70000 with | some t => t.agent == 1 && t.due.isEmpty && !d.coh.ring.any (fun r => r.2.1 == 70000) && d.met 1 70000 [3] == none && true | none => false)) &&
     (let d : Device := ({ ready with coh := { opened := [(70000, ({ kind := 6, agent := 1, hoop := 0, rsps := [(2, 3)], off := 4, data := [1, 2] } : Track))] } });
       d.live && d.isLine 70000 &&
       (match Tab.find? d.coh.opened 70000 with | some t => t.agent == 1 && t.due.isEmpty && !d.coh.ring.any (fun r => r.2.1 == 70000) && d.met 1 70000 [3] == none && true | none => false)) &&
     (let d : Device := ({ ready with coh := { opened := [(70000, ({ kind := 7, agent := 1, hoop := 0, rsps := [(2, 0)], off := 8, op := some { aop := 0, w64 := true, uns := false, b := 5, c := 0 } } : Track))] } });
       d.live && d.isLine 70000 &&
       (match Tab.find? d.coh.opened 70000 with | some t => t.agent == 1 && t.due.isEmpty && !d.coh.ring.any (fun r => r.2.1 == 70000) && d.met 1 70000 [3] == none && true | none => false)) &&
     (let d : Device := ({ ready with coh := { opened := [(70000, ({ kind := 0, agent := 1, hoop := 0, rsps := [(2, 0)] } : Track))], waiting := [(70000, { kind := 5, agent := 3, hoop := 0 })] } });
       d.live && d.isLine 70000 &&
       (match Tab.find? d.coh.opened 70000 with | some t => t.agent == 1 && t.due.isEmpty && !d.coh.ring.any (fun r => r.2.1 == 70000) && d.met 1 70000 [3] == none && true | none => false)) &&
     (let d : Device := ({ ready with bad := [70000 * 4], coh := { opened := [(70000, ({ kind := 0, agent := 1, hoop := 0, rsps := [(2, 0)] } : Track))] } });
       d.live && d.isLine 70000 &&
       (match Tab.find? d.coh.opened 70000 with | some t => t.agent == 1 && t.due.isEmpty && !d.coh.ring.any (fun r => r.2.1 == 70000) && d.met 1 70000 [3] == none && d.badAt (70000 * 128) 128 | none => false)) &&
     (let d : Device := ({ ready with coh := { opened := [(70000, ({ kind := 0, agent := 1, hoop := 0, rsps := [(2, 0)] } : Track))], caches := [(1, ((List.range 16).filterMap (fun k => ((List.range 32).map (fun i => 70000 / 32 * 32 + 98304 * (k + 1) + i)).find? (fun n => sameSet n 70000))).mapIdx (fun i n => (n, ({ state := 4, hoop := 0, way := i, bad := [1] } : CLine))))] } });
       d.live && d.isLine 70000 &&
       (match Tab.find? d.coh.opened 70000 with | some t => t.agent == 1 && t.due.isEmpty && !d.coh.ring.any (fun r => r.2.1 == 70000) && d.met 1 70000 [3] == none && ((List.range 16).filterMap (fun k => ((List.range 32).map (fun i => 70000 / 32 * 32 + 98304 * (k + 1) + i)).find? (fun n => sameSet n 70000))).length == 16 && d.coh.state 1 70000 == 0 && (d.pinVictims 1 70000 (d.wayMask 0 1) 16 != d) | none => false)) &&
     (let d : Device := ({ ready with coh := { opened := [(70000, ({ kind := 0, agent := 1, hoop := 0, due := [3] } : Track))] } }); d.live &&
       d.isLine 70000 && (match Tab.find? d.coh.opened 70000 with | some t => t.agent == 1 && !t.due.isEmpty | none => false)) &&
     (let d : Device := ({ ready with coh := { opened := [(70000, ({ kind := 0, agent := 1, hoop := 0 } : Track))], ring := [(3, 70000, 0)] } });
       d.live && d.isLine 70000 &&
       (match Tab.find? d.coh.opened 70000 with | some t => t.agent == 1 && d.coh.ring.any (fun r => r.2.1 == 70000) | none => false)) &&
     (let d : Device := ({ ready with coh := { opened := [(70000, ({ kind := 0, agent := 1, hoop := 0 } : Track))], faults := [(3, 1, 70000)] } });
       d.live && d.isLine 70000 &&
       (match Tab.find? d.coh.opened 70000 with | some t => t.agent == 1 && t.due.isEmpty && d.coh.ring.isEmpty && d.met 1 70000 [3] == some 3 | none => false)) &&
     (let d : Device := ({ ready with coh := { opened := [(70000, ({ kind := 0, agent := 1, hoop := 0 } : Track))] } }); d.live &&
       d.isLine 70000 && (match Tab.find? d.coh.opened 70000 with | some t => t.agent == 1 && true | none => false)) &&
     (let d : Device := ready; d.live && d.isLine 70000 && (Tab.find? d.coh.opened 70000).isNone) &&
     (let d : Device := ({ ready with coh := { opened := [(70000, ({ kind := 0, agent := 2, hoop := 0 } : Track))] } }); d.live &&
       d.isLine 70000) &&
     (let d : Device := ({ ready with coh := { opened := [(70000, ({ kind := 0, agent := 2, hoop := 0, due := [3] } : Track))] } }); d.live &&
       d.isLine 70000 && (Tab.find? d.coh.opened 70000).isSome) &&
     (let d : Device := ({ ready with coh := { opened := [(70000, ({ kind := 0, agent := 2, hoop := 0 } : Track))], ring := [(3, 70000, 1)] } });
       d.live && d.isLine 70000 && (Tab.find? d.coh.opened 70000).isSome)) = true := by decide +kernel

set_option maxRecDepth 100000 in
theorem witness_FatalEvent :
    ((let d : Device := ready; !d.life.fatal) &&
     (let d : Device := (let z : Device := ready; { z with pins := { z.pins with straps := { z.pins.straps with sbMode := false } } });
       !d.life.fatal && !d.pins.alert && !d.pins.straps.sbMode) &&
     (let d : Device := (ready.wr Reg.COH_FATAL_VALID 0 1); !d.life.fatal && d.rd Reg.COH_FATAL_VALID == 1)) = true := by decide +kernel

set_option maxRecDepth 100000 in
theorem witness_FlitsAndForwarding :
    ((let f := ({ ftype := 1, vc := 2, cls := 3, pstart := 8, seq := 4095, ack := 17, nak := true, payload := List.replicate 242 9, cvc := 1, ccls := 2, ccount := 63 } : Flit);
       f.ftype < 4 && f.vc < 4 && f.cls < 4 && f.pstart < 256 && f.seq < 4096 && f.ack < 4096 && f.payload.length == 242 && f.cvc < 4 &&
       f.ccls < 4 && f.ccount < 64) &&
     (let k := ({ dst := 4095, src := 3, ptype := 63, data := [1, 2], tag := 65535, job := 9, win := 15, offset := 2 ^ 48 - 1 } : Pkt);
       k.dst < 4096 && k.src < 4096 && k.ptype < 64 && k.data.length < 8192 && k.tag < 65536 && k.job < 65536 && k.win < 16 &&
       k.offset < 2 ^ 48) &&
     (let d : Device := (boardRole 2); let fec : Fec := { uncorrectable := 17 };
       let b := (({ ftype := 0, payload := List.replicate 242 0 } : Flit).bytes); let f := flitOf b; let e := d.fecSeen 0 fec;
       let g := e.flitControl 0 f; let good := fec.good && flitGood b; d.live && d.portUp 0 && !e.portUp 0) &&
     (let d : Device := (boardRole 2); let fec : Fec := {};
       let b := ((({ ftype := 1, payload := List.replicate 242 0 } : Flit).bytes).take 255 ++ [0x55]); let f := flitOf b;
       let e := d.fecSeen 0 fec; let g := e.flitControl 0 f; let good := fec.good && flitGood b; d.live && d.portUp 0 && e.portUp 0 &&
       !good) &&
     (let d : Device := (boardRole 2); let fec : Fec := {};
       let b := ((({ ftype := 2, payload := List.replicate 242 0 } : Flit).bytes).take 255 ++ [0x55]); let f := flitOf b;
       let e := d.fecSeen 0 fec; let g := e.flitControl 0 f; let good := fec.good && flitGood b; d.live && d.portUp 0 && e.portUp 0 &&
       !good && f.ftype == 2) &&
     (let d : Device := (boardRole 2); let fec : Fec := { uncorrectable := 1, good := false };
       let b := (({ ftype := 1, payload := List.replicate 242 0 } : Flit).bytes); let f := flitOf b; let e := d.fecSeen 0 fec;
       let g := e.flitControl 0 f; let good := fec.good && flitGood b; d.live && d.portUp 0 && e.portUp 0 && !good) &&
     (let d : Device := (boardRole 2); let fec : Fec := { uncorrectable := 1, good := false };
       let b := (({ ftype := 2, payload := List.replicate 242 0 } : Flit).bytes); let f := flitOf b; let e := d.fecSeen 0 fec;
       let g := e.flitControl 0 f; let good := fec.good && flitGood b; d.live && d.portUp 0 && e.portUp 0 && !good && f.ftype == 2) &&
     (let d : Device := (boardRole 2); let fec : Fec := { corrected := 2 };
       let b := (({ ftype := 0, payload := List.replicate 242 0, ccount := 3, cvc := 2, ccls := 1 } : Flit).bytes); let f := flitOf b;
       let e := d.fecSeen 0 fec; let g := e.flitControl 0 f; let good := fec.good && flitGood b; d.live && d.portUp 0 && e.portUp 0 &&
       good && f.ftype == 0) &&
     (let d : Device := (boardRole 2); let fec : Fec := {}; let b := (({ ftype := 3, payload := List.replicate 242 0 } : Flit).bytes);
       let f := flitOf b; let e := d.fecSeen 0 fec; let g := e.flitControl 0 f; let good := fec.good && flitGood b; d.live && d.portUp 0 &&
       e.portUp 0 && good && f.ftype == 3) &&
     (let d : Device := (boardRole 2); let fec : Fec := {}; let b := (({ ftype := 1, seq := 7, payload := List.replicate 242 0 } : Flit).bytes);
       let f := flitOf b; let e := d.fecSeen 0 fec; let g := e.flitControl 0 f; let good := fec.good && flitGood b; d.live && d.portUp 0 &&
       e.portUp 0 && good && f.ftype == 1 && f.seq != (e.port 0).rxSeq && !(e.port 0).naking) &&
     (let d : Device := (let z := boardRole 2; z.setPort 0 { z.port 0 with naking := true }); let fec : Fec := {};
       let b := (({ ftype := 2, seq := 7, payload := List.replicate 242 0 } : Flit).bytes); let f := flitOf b; let e := d.fecSeen 0 fec;
       let g := e.flitControl 0 f; let good := fec.good && flitGood b; d.live && d.portUp 0 && e.portUp 0 && good && f.ftype == 2 &&
       f.seq != (e.port 0).rxSeq && (e.port 0).naking) &&
     (let d : Device := (boardRole 2); let fec : Fec := {};
       let b := (({ ftype := 1, pstart := 0, payload := List.replicate 242 0 } : Flit).bytes); let f := flitOf b; let e := d.fecSeen 0 fec;
       let g := e.flitControl 0 f; let good := fec.good && flitGood b; d.live && d.portUp 0 && e.portUp 0 && good && f.ftype == 1 &&
       f.seq == (e.port 0).rxSeq && g.portUp 0) &&
     (let d : Device := (boardRole 2); let fec : Fec := {};
       let b := (({ ftype := 1, pstart := 0, payload := (pktHeader { dst := 9, src := 3, ptype := 1, data := le 7 0 ++ [4] } ++ le 7 0 ++ [4] ++ List.replicate 218 0) } : Flit).bytes);
       let f := flitOf b; let e := d.fecSeen 0 fec; let g := e.flitControl 0 f; let good := fec.good && flitGood b; d.live && d.portUp 0 &&
       e.portUp 0 && good && f.ftype == 1 && f.seq == (e.port 0).rxSeq && g.portUp 0) &&
     (let d : Device := (boardRole 2); let fec : Fec := {}; let b := (({ ftype := 2, payload := List.replicate 242 0 } : Flit).bytes);
       let f := flitOf b; let e := d.fecSeen 0 fec; let g := e.flitControl 0 f; let good := fec.good && flitGood b; d.live && d.portUp 0 &&
       e.portUp 0 && good && f.ftype == 2 && f.seq == (e.port 0).rxSeq && g.portUp 0) &&
     (let d : Device := ((boardRole 2).wr Reg.KLZ_RT_PRIMARY 9 0); let k := ({ dst := 9, src := 3, ptype := 1, data := le 7 0 ++ [4] } : Pkt);
       d.live && d.portUp 0 && k.dst != d.ownChip && pktOk k && (d.routePort 9 2).isSome) &&
     (let d : Device := (boardRole 2); let k := ({ dst := 9, src := 3, ptype := 1, data := le 7 0 ++ [4] } : Pkt); d.live && d.portUp 0 &&
       k.dst != d.ownChip && pktOk k && (d.routePort 9 2).isNone) &&
     (let d : Device := ((boardRole 2).wr Reg.KLZ_RT_PRIMARY 9 0); let k := ({ dst := 9, src := 3, ptype := 3, data := [1] } : Pkt); d.live &&
       d.portUp 0 && k.dst != d.ownChip && pktOk k && (d.routePort 9 2).isSome) &&
     (let d : Device := (boardRole 2); let k := ({ dst := 9, src := 3, ptype := 3, data := [1] } : Pkt); d.live && d.portUp 0 &&
       k.dst != d.ownChip && pktOk k && (d.routePort 9 2).isNone) &&
     (let d : Device := ((boardRole 2).wr Reg.KLZ_RT_PRIMARY 9 0); let k := ({ dst := 9, src := 3, ptype := 5, data := le 24 0 } : Pkt);
       d.live && d.portUp 0 && k.dst != d.ownChip && pktOk k && (d.routePort 9 2).isSome) &&
     (let d : Device := (boardRole 2); let k := ({ dst := 9, src := 3, ptype := 5, data := le 24 0 } : Pkt); d.live && d.portUp 0 &&
       k.dst != d.ownChip && pktOk k && (d.routePort 9 2).isNone) &&
     (let d : Device := (boardRole 2); let k : Pkt := { dst := 9, src := 3, ptype := 4 }; d.live && d.portUp 0 && k.dst != d.ownChip &&
       pktOk k && (d.routePort 9 2).isNone) &&
     (let d : Device := ((boardRole 2).wr Reg.KLZ_RT_PRIMARY 9 0); let k := ({ dst := 9, src := 3, ptype := 1, data := le 7 0 ++ [4] } : Pkt);
       d.live && d.portUp 0 && k.dst != d.ownChip && pktOk k && (d.routePort 9 4).isNone) &&
     (let d : Device := (boardRole 2); let k : Pkt := { dst := 9, src := 3, ptype := 1 }; d.live && d.portUp 0 && k.dst != d.ownChip && !pktOk k)) = true := by decide +kernel

set_option maxRecDepth 100000 in
theorem witness_RemotePackets :
    ((let d : Device := (let x := (boardRole 2).wr Reg.HOOP_REMOTE_JOB 0 7; { x with mem := (((x.mem.write 512 ([0x39, 0, 1, 0, 0, 0, 0, 0] ++ le 8 0 ++ le 8 0x100000 ++ le 8 0)).write 1088 [255]).write (devAddr 0 4096) [1, 2, 3, 4]) });
       let k := ({ dst := 0, src := 3, ptype := 1, tag := 7, job := 7, offset := 0x1000, data := le 7 0 ++ [4] } : Pkt);
       (d.live && k.dst == d.ownChip && d.portUp 0 && pktOk k) && d.jobHoop k.job == some 0 &&
       (match (d.remoteAt 0 3 4 k).2 with | .ok a => !(d.remoteAt 0 3 4 k).1.badAt a 4 && isHbm a | _ => false)) &&
     (let d : Device := (let x := (boardRole 2).wr Reg.HOOP_REMOTE_JOB 0 7; { x with mem := (((x.mem.write 512 ([0x39, 0, 1, 0, 0, 0, 0, 0] ++ le 8 0 ++ le 8 0x100000 ++ le 8 0)).write 1088 [255]).write (devAddr 0 4096) [1, 2, 3, 4]) });
       let k := ({ dst := 0, src := 3, ptype := 1, tag := 7, job := 7, offset := 0x200000, data := le 7 0 ++ [4] } : Pkt);
       (d.live && k.dst == d.ownChip && d.portUp 0 && pktOk k) && d.jobHoop k.job == some 0 &&
       (match (d.remoteAt 0 3 4 k).2 with | .error 2 => true | _ => false)) &&
     (let d : Device := (let x := (boardRole 2).wr Reg.HOOP_REMOTE_JOB 0 7; { x with mem := (((x.mem.write 512 ([0x39, 0, 1, 0, 0, 0, 0, 0] ++ le 8 0 ++ le 8 0x100000 ++ le 8 0)).write 1088 [255]).write (devAddr 0 4096) [1, 2, 3, 4]) });
       let k := ({ dst := 0, src := 3, ptype := 3, tag := 7, job := 7, offset := 0x1000, data := [9, 8] } : Pkt);
       (d.live && k.dst == d.ownChip && d.portUp 0 && pktOk k) && d.jobHoop k.job == some 0 &&
       (match (d.remoteAt 0 4 2 k).2 with | .ok a => isHbm a | _ => false)) &&
     (let d : Device := (let x := (boardRole 2).wr Reg.HOOP_REMOTE_JOB 0 7; { x with mem := (((x.mem.write 512 ([0x39, 0, 1, 0, 0, 0, 0, 0] ++ le 8 0 ++ le 8 0x100000 ++ le 8 0)).write 1088 [255]).write (devAddr 0 4096) [1, 2, 3, 4]) });
       let k := ({ dst := 0, src := 3, ptype := 5, tag := 7, job := 7, offset := 0x1000, data := [0, 0, 0, 0, 0, 0, 0, 0] ++ be 8 0 ++ be 8 5 } : Pkt);
       (d.live && k.dst == d.ownChip && d.portUp 0 && pktOk k) && d.jobHoop k.job == some 0 &&
       (match (d.remoteAt 0 5 4 k).2 with | .ok a => !(d.remoteAt 0 5 4 k).1.badAt a 4 && isHbm a | _ => false)) &&
     (let d : Device := (boardRole 2);
       let k := ({ dst := 0, src := 3, ptype := 1, tag := 7, job := 7, offset := 0x1000, data := le 7 0 ++ [4] } : Pkt);
       (d.live && k.dst == d.ownChip && d.portUp 0 && pktOk k) && (d.jobHoop k.job).isNone) &&
     (let d : Device := (boardRole 2); let k := ({ dst := 0, src := 3, ptype := 3, tag := 7, job := 7, offset := 0x1000, data := [1] } : Pkt);
       (d.live && k.dst == d.ownChip && d.portUp 0 && pktOk k) && (d.jobHoop k.job).isNone) &&
     (let d : Device := (boardRole 2);
       let k := ({ dst := 0, src := 3, ptype := 5, tag := 7, job := 7, offset := 0x1000, data := le 24 0 } : Pkt);
       (d.live && k.dst == d.ownChip && d.portUp 0 && pktOk k) && (d.jobHoop k.job).isNone) &&
     (let d : Device := (let x := boardRole 2; x.setKlz { x.klz with remotes := [(7, { kind := 0, a := 0, b := 0, c := 0, hoop := 0, chip := 3, pkt := { dst := 3, src := 0, ptype := 1, tag := 7, data := le 7 0 ++ [4] } })] });
       let k := ({ dst := 0, src := 3, ptype := 2, tag := 7, job := 7, offset := 0, data := [1, 2, 3, 4] } : Pkt);
       (d.live && k.dst == d.ownChip && d.portUp 0 && pktOk k) &&
       (match d.remoteOf k.src k.tag with | some (n, r) => n == 7 && r.pkt.ptype == 1 && true | none => false)) &&
     (let d : Device := (let x := boardRole 2; x.setKlz { x.klz with remotes := [(7, { kind := 1, a := 0, b := 0, c := 0, hoop := 0, chip := 3, writes := true, pkt := { dst := 3, src := 0, ptype := 3, tag := 7, data := [1] } })] });
       let k := ({ dst := 0, src := 3, ptype := 4, tag := 7, job := 7, offset := 0, data := [] } : Pkt);
       (d.live && k.dst == d.ownChip && d.portUp 0 && pktOk k) &&
       (match d.remoteOf k.src k.tag with | some (n, r) => n == 7 && r.pkt.ptype == 3 && true | none => false)) &&
     (let d : Device := (let x := boardRole 2; x.setKlz { x.klz with remotes := [(7, { kind := 0, a := 0, b := 0, c := 0, hoop := 0, chip := 3, writes := true, pkt := { dst := 3, src := 0, ptype := 5, tag := 7, data := le 24 0 } })] });
       let k := ({ dst := 0, src := 3, ptype := 6, tag := 7, job := 7, offset := 0, data := le 8 1 } : Pkt);
       (d.live && k.dst == d.ownChip && d.portUp 0 && pktOk k) &&
       (match d.remoteOf k.src k.tag with | some (n, r) => n == 7 && r.pkt.ptype == 5 && true | none => false)) &&
     (let d : Device := (let x := boardRole 2; x.setKlz { x.klz with remotes := [(7, { kind := 0, a := 0, b := 0, c := 0, hoop := 0, chip := 3, pkt := { dst := 3, src := 0, ptype := 1, tag := 7, data := le 7 0 ++ [4] } })] });
       let k := ({ dst := 0, src := 3, ptype := 7, tag := 7, job := 7, offset := 2, data := [] } : Pkt);
       (d.live && k.dst == d.ownChip && d.portUp 0 && pktOk k) &&
       (match d.remoteOf k.src k.tag with | some (n, r) => n == 7 && r.pkt.ptype == 1 && true | none => false)) &&
     (let d : Device := (let x := boardRole 2; x.setKlz { x.klz with remotes := [(7, { kind := 0, a := 0, b := 0, c := 0, hoop := 0, chip := 3, pkt := { dst := 3, src := 0, ptype := 1, tag := 7, data := le 7 0 ++ [4] } })] });
       d.live && (match Tab.find? d.klz.remotes 7 with | some r => r.kind != 3 | none => false)) &&
     (let d : Device := (let z := (let x := (boardRole 2).wr Reg.HOOP_REMOTE_JOB 0 7; { x with mem := (((x.mem.write 512 ([0x39, 0, 1, 0, 0, 0, 0, 0] ++ le 8 0 ++ le 8 0x100000 ++ le 8 0)).write 1088 [255]).write (devAddr 0 4096) [1, 2, 3, 4]) }); match (z.remoteAt 0 3 4 (({ dst := 0, src := 3, ptype := 1, tag := 7, job := 7, offset := 0x1000, data := le 7 0 ++ [4] } : Pkt))).2 with | .ok a => { z with bad := [a / 32] } | _ => z);
       let k := ({ dst := 0, src := 3, ptype := 1, tag := 7, job := 7, offset := 0x1000, data := le 7 0 ++ [4] } : Pkt);
       (d.live && k.dst == d.ownChip && d.portUp 0 && pktOk k) && d.jobHoop k.job == some 0 &&
       !(d.winClosed 0 k.win || d.segClosed 0 (d.win 0 k.win).seg) &&
       (match d.remoteAt 0 3 4 k with | (e, .ok a) => e.badAt a 4 | _ => false)) &&
     (let d : Device := (let x := (boardRole 2).wr Reg.HOOP_REMOTE_JOB 0 7; { x with mem := (((x.mem.write 512 ([0x39, 0, 1, 0, 0, 0, 0, 0] ++ le 8 0 ++ le 8 0x100000 ++ le 8 0)).write 1088 [255]).write (devAddr 0 4096) [1, 2, 3, 4]) });
       let k := ({ dst := 0, src := 3, ptype := 1, tag := 7, job := 7, offset := 0x200000, data := le 7 0 ++ [4] } : Pkt);
       (d.live && k.dst == d.ownChip && d.portUp 0 && pktOk k) && d.jobHoop k.job == some 0 &&
       !(d.winClosed 0 k.win || d.segClosed 0 (d.win 0 k.win).seg) && (match (d.remoteAt 0 3 4 k).2 with | .error 2 => true | _ => false)) &&
     (let d : Device := (let z := (let x := (boardRole 2).wr Reg.HOOP_REMOTE_JOB 0 7; { x with mem := (((x.mem.write 512 ([0x39, 0, 1, 0, 0, 0, 0, 0] ++ le 8 0 ++ le 8 0x100000 ++ le 8 0)).write 1088 [255]).write (devAddr 0 4096) [1, 2, 3, 4]) }); z.setBoot { z.boot with waits := [⟨{ ring := 9 }, 0x18, 1, 1, 0, []⟩] });
       let k := ({ dst := 0, src := 3, ptype := 1, tag := 7, job := 7, offset := 0x1000, data := le 7 0 ++ [4] } : Pkt);
       (d.live && k.dst == d.ownChip && d.portUp 0 && pktOk k) && d.jobHoop k.job == some 0 &&
       (d.winClosed 0 k.win || d.segClosed 0 (d.win 0 k.win).seg)) &&
     (let d : Device := (let z := (let x := (boardRole 2).wr Reg.HOOP_REMOTE_JOB 0 7; { x with mem := (((x.mem.write 512 ([0x39, 0, 1, 0, 0, 0, 0, 0] ++ le 8 0 ++ le 8 0x100000 ++ le 8 0)).write 1088 [255]).write (devAddr 0 4096) [1, 2, 3, 4]) }); z.setBoot { z.boot with waits := [⟨{ ring := 9 }, 0x18, 1, 0, 1, []⟩] });
       let k := ({ dst := 0, src := 3, ptype := 1, tag := 7, job := 7, offset := 0x1000, data := le 7 0 ++ [4] } : Pkt);
       (d.live && k.dst == d.ownChip && d.portUp 0 && pktOk k) && d.jobHoop k.job == some 0 &&
       (d.winClosed 0 k.win || d.segClosed 0 (d.win 0 k.win).seg)) &&
     (let d : Device := (let z := (let x := (boardRole 2).wr Reg.HOOP_REMOTE_JOB 0 7; { x with mem := (((x.mem.write 512 ([0x39, 0, 1, 0, 0, 0, 0, 0] ++ le 8 0 ++ le 8 0x100000 ++ le 8 0)).write 1088 [255]).write (devAddr 0 4096) [1, 2, 3, 4]) }); z.setKlz { z.klz with loop := [{ dst := 0, src := 3, ptype := 1, tag := 7, job := 7, offset := 0x1000, data := le 7 0 ++ [4] }] });
       let k := ({ dst := 0, src := 3, ptype := 1, tag := 7, job := 7, offset := 0x1000, data := le 7 0 ++ [4] } : Pkt); d.live &&
       k.dst == d.ownChip && d.klz.loop.contains k) &&
     (let d : Device := (let x := (boardRole 2).wr Reg.HOOP_REMOTE_JOB 0 7; { x with mem := (((x.mem.write 512 ([0x39, 0, 1, 0, 0, 0, 0, 0] ++ le 8 0 ++ le 8 0x100000 ++ le 8 0)).write 1088 [255]).write (devAddr 0 4096) [1, 2, 3, 4]) });
       let k := ({ dst := 0, src := 3, ptype := 3, tag := 7, job := 7, offset := 0x200000, data := [9, 8] } : Pkt);
       (d.live && k.dst == d.ownChip && d.portUp 0 && pktOk k) && d.jobHoop k.job == some 0 &&
       !(d.winClosed 0 k.win || d.segClosed 0 (d.win 0 k.win).seg) && (match (d.remoteAt 0 4 2 k).2 with | .error 2 => true | _ => false)) &&
     (let d : Device := (let z := (let x := (boardRole 2).wr Reg.HOOP_REMOTE_JOB 0 7; { x with mem := (((x.mem.write 512 ([0x39, 0, 1, 0, 0, 0, 0, 0] ++ le 8 0 ++ le 8 0x100000 ++ le 8 0)).write 1088 [255]).write (devAddr 0 4096) [1, 2, 3, 4]) }); z.setBoot { z.boot with waits := [⟨{ ring := 9 }, 0x18, 1, 1, 0, []⟩] });
       let k := ({ dst := 0, src := 3, ptype := 3, tag := 7, job := 7, offset := 0x1000, data := [9, 8] } : Pkt);
       (d.live && k.dst == d.ownChip && d.portUp 0 && pktOk k) && d.jobHoop k.job == some 0 &&
       (d.winClosed 0 k.win || d.segClosed 0 (d.win 0 k.win).seg)) &&
     (let d : Device := (let z := (let x := (boardRole 2).wr Reg.HOOP_REMOTE_JOB 0 7; { x with mem := (((x.mem.write 512 ([0x39, 0, 1, 0, 0, 0, 0, 0] ++ le 8 0 ++ le 8 0x100000 ++ le 8 0)).write 1088 [255]).write (devAddr 0 4096) [1, 2, 3, 4]) }); z.setBoot { z.boot with waits := [⟨{ ring := 9 }, 0x18, 1, 0, 1, []⟩] });
       let k := ({ dst := 0, src := 3, ptype := 3, tag := 7, job := 7, offset := 0x1000, data := [9, 8] } : Pkt);
       (d.live && k.dst == d.ownChip && d.portUp 0 && pktOk k) && d.jobHoop k.job == some 0 &&
       (d.winClosed 0 k.win || d.segClosed 0 (d.win 0 k.win).seg)) &&
     (let d : Device := (let z := (let x := (boardRole 2).wr Reg.HOOP_REMOTE_JOB 0 7; { x with mem := (((x.mem.write 512 ([0x39, 0, 1, 0, 0, 0, 0, 0] ++ le 8 0 ++ le 8 0x100000 ++ le 8 0)).write 1088 [255]).write (devAddr 0 4096) [1, 2, 3, 4]) }); z.setKlz { z.klz with loop := [{ dst := 0, src := 3, ptype := 3, tag := 7, job := 7, offset := 0x1000, data := [9, 8] }] });
       let k := ({ dst := 0, src := 3, ptype := 3, tag := 7, job := 7, offset := 0x1000, data := [9, 8] } : Pkt); d.live &&
       k.dst == d.ownChip && d.klz.loop.contains k) &&
     (let d : Device := (let z := (let x := (boardRole 2).wr Reg.HOOP_REMOTE_JOB 0 7; { x with mem := (((x.mem.write 512 ([0x39, 0, 1, 0, 0, 0, 0, 0] ++ le 8 0 ++ le 8 0x100000 ++ le 8 0)).write 1088 [255]).write (devAddr 0 4096) [1, 2, 3, 4]) }); match (z.remoteAt 0 5 4 (({ dst := 0, src := 3, ptype := 5, tag := 7, job := 7, offset := 0x1000, data := [0, 0, 0, 0, 0, 0, 0, 0] ++ be 8 0 ++ be 8 5 } : Pkt))).2 with | .ok a => { z with bad := [a / 32] } | _ => z);
       let k := ({ dst := 0, src := 3, ptype := 5, tag := 7, job := 7, offset := 0x1000, data := [0, 0, 0, 0, 0, 0, 0, 0] ++ be 8 0 ++ be 8 5 } : Pkt);
       (d.live && k.dst == d.ownChip && d.portUp 0 && pktOk k) && d.jobHoop k.job == some 0 &&
       !(d.winClosed 0 k.win || d.segClosed 0 (d.win 0 k.win).seg) &&
       (match d.remoteAt 0 5 4 k with | (e, .ok a) => e.badAt a 4 | _ => false)) &&
     (let d : Device := (let x := (boardRole 2).wr Reg.HOOP_REMOTE_JOB 0 7; { x with mem := (((x.mem.write 512 ([0x39, 0, 1, 0, 0, 0, 0, 0] ++ le 8 0 ++ le 8 0x100000 ++ le 8 0)).write 1088 [255]).write (devAddr 0 4096) [1, 2, 3, 4]) });
       let k := ({ dst := 0, src := 3, ptype := 5, tag := 7, job := 7, offset := 0x200000, data := [0, 0, 0, 0, 0, 0, 0, 0] ++ be 8 0 ++ be 8 5 } : Pkt);
       (d.live && k.dst == d.ownChip && d.portUp 0 && pktOk k) && d.jobHoop k.job == some 0 &&
       !(d.winClosed 0 k.win || d.segClosed 0 (d.win 0 k.win).seg) && (match (d.remoteAt 0 5 4 k).2 with | .error 2 => true | _ => false)) &&
     (let d : Device := (let z := (let x := (boardRole 2).wr Reg.HOOP_REMOTE_JOB 0 7; { x with mem := (((x.mem.write 512 ([0x39, 0, 1, 0, 0, 0, 0, 0] ++ le 8 0 ++ le 8 0x100000 ++ le 8 0)).write 1088 [255]).write (devAddr 0 4096) [1, 2, 3, 4]) }); z.setBoot { z.boot with waits := [⟨{ ring := 9 }, 0x18, 1, 1, 0, []⟩] });
       let k := ({ dst := 0, src := 3, ptype := 5, tag := 7, job := 7, offset := 0x1000, data := [0, 0, 0, 0, 0, 0, 0, 0] ++ be 8 0 ++ be 8 5 } : Pkt);
       (d.live && k.dst == d.ownChip && d.portUp 0 && pktOk k) && d.jobHoop k.job == some 0 &&
       (d.winClosed 0 k.win || d.segClosed 0 (d.win 0 k.win).seg)) &&
     (let d : Device := (let z := (let x := (boardRole 2).wr Reg.HOOP_REMOTE_JOB 0 7; { x with mem := (((x.mem.write 512 ([0x39, 0, 1, 0, 0, 0, 0, 0] ++ le 8 0 ++ le 8 0x100000 ++ le 8 0)).write 1088 [255]).write (devAddr 0 4096) [1, 2, 3, 4]) }); z.setBoot { z.boot with waits := [⟨{ ring := 9 }, 0x18, 1, 0, 1, []⟩] });
       let k := ({ dst := 0, src := 3, ptype := 5, tag := 7, job := 7, offset := 0x1000, data := [0, 0, 0, 0, 0, 0, 0, 0] ++ be 8 0 ++ be 8 5 } : Pkt);
       (d.live && k.dst == d.ownChip && d.portUp 0 && pktOk k) && d.jobHoop k.job == some 0 &&
       (d.winClosed 0 k.win || d.segClosed 0 (d.win 0 k.win).seg)) &&
     (let d : Device := (let z := (let x := (boardRole 2).wr Reg.HOOP_REMOTE_JOB 0 7; { x with mem := (((x.mem.write 512 ([0x39, 0, 1, 0, 0, 0, 0, 0] ++ le 8 0 ++ le 8 0x100000 ++ le 8 0)).write 1088 [255]).write (devAddr 0 4096) [1, 2, 3, 4]) }); z.setKlz { z.klz with loop := [{ dst := 0, src := 3, ptype := 5, tag := 7, job := 7, offset := 0x1000, data := [0, 0, 0, 0, 0, 0, 0, 0] ++ be 8 0 ++ be 8 5 }] });
       let k := ({ dst := 0, src := 3, ptype := 5, tag := 7, job := 7, offset := 0x1000, data := [0, 0, 0, 0, 0, 0, 0, 0] ++ be 8 0 ++ be 8 5 } : Pkt);
       d.live && k.dst == d.ownChip && d.klz.loop.contains k) &&
     (let d : Device := (let z := (let x := (boardRole 2).wr Reg.HOOP_REMOTE_JOB 0 7; { x with mem := (((x.mem.write 512 ([0x39, 0, 1, 0, 0, 0, 0, 0] ++ le 8 0 ++ le 8 0x100000 ++ le 8 0)).write 1088 [255]).write (devAddr 0 4096) [1, 2, 3, 4]) }); z.setKlz { z.klz with loop := [{ dst := 0, src := 3, ptype := 0x10, tag := 7, job := 7, offset := 0, data := List.replicate 64 5 }] });
       let k := ({ dst := 0, src := 3, ptype := 0x10, tag := 7, job := 7, offset := 0, data := List.replicate 64 5 } : Pkt); d.live &&
       k.dst == d.ownChip && d.klz.loop.contains k) &&
     (let d : Device := (let z := (let x := (boardRole 2).wr Reg.HOOP_REMOTE_JOB 0 7; { x with mem := (((x.mem.write 512 ([0x39, 0, 1, 0, 0, 0, 0, 0] ++ le 8 0 ++ le 8 0x100000 ++ le 8 0)).write 1088 [255]).write (devAddr 0 4096) [1, 2, 3, 4]) }); z.setKlz { z.klz with loop := [{ dst := 0, src := 3, ptype := 0x11, tag := 7, job := 7, offset := 0, data := [] }] });
       let k := ({ dst := 0, src := 3, ptype := 0x11, tag := 7, job := 7, offset := 0, data := [] } : Pkt); d.live && k.dst == d.ownChip &&
       d.klz.loop.contains k) &&
     (let d : Device := (let x := boardRole 2; x.setKlz { x.klz with remotes := [(7, { kind := 1, a := 0, b := 0, c := 0, hoop := 0, chip := 3, writes := true, pkt := { dst := 3, src := 0, ptype := 3, tag := 7, data := [1] } })] });
       let k := ({ dst := 0, src := 3, ptype := 7, tag := 7, job := 7, offset := 1, data := [] } : Pkt);
       (d.live && k.dst == d.ownChip && d.portUp 0 && pktOk k) &&
       (match d.remoteOf k.src k.tag with | some (n, r) => n == 7 && r.pkt.ptype == 3 && true | none => false)) &&
     (let d : Device := (let x := boardRole 2; x.setKlz { x.klz with remotes := [(7, { kind := 0, a := 0, b := 0, c := 0, hoop := 0, chip := 3, writes := true, pkt := { dst := 3, src := 0, ptype := 5, tag := 7, data := le 24 0 } })] });
       let k := ({ dst := 0, src := 3, ptype := 7, tag := 7, job := 7, offset := 4, data := [] } : Pkt);
       (d.live && k.dst == d.ownChip && d.portUp 0 && pktOk k) &&
       (match d.remoteOf k.src k.tag with | some (n, r) => n == 7 && r.pkt.ptype == 5 && true | none => false)) &&
     (let d : Device := (let x := boardRole 2; x.setKlz { x.klz with remotes := [(7, { kind := 1, a := 0, b := 0, c := 0, hoop := 0, chip := 3, writes := true, pkt := { dst := 3, src := 0, ptype := 3, tag := 7, data := [1] } })] });
       let k : Pkt := ({ dst := 0, src := 5, ptype := 7, tag := 7, job := 7, offset := 4, data := [] } : Pkt);
       (d.live && k.dst == d.ownChip && d.portUp 0 && pktOk k) && k.offset % 256 == 4 &&
       (match d.remoteTag k.tag with | some (n, r) => n == 7 && r.pkt.ptype == 3 && k.src != r.chip | none => false)) &&
     (let d : Device := (let x := boardRole 2; x.setKlz { x.klz with remotes := [(7, { kind := 3, a := 0, b := 0, c := 0, hoop := 0, chip := 3, pkt := { dst := 3, src := 0, ptype := 16, tag := 7, data := List.replicate 64 5 } })] });
       d.live && (match Tab.find? d.klz.remotes 7 with | some r => r.kind == 3 | none => false))) = true := by decide +kernel

set_option maxRecDepth 100000 in
theorem witness_Messages :
    ((let d : Device := (let x := ((boardRole 2).wr Reg.HOOP_CFG_STATE 0 1).setKlz { (boardRole 2).klz with rxqs := [(0, { accept := 1, ring := 2 ^ 44 + 0x20000, slotLog2 := 7, countLog2 := 2, ctrl := 2 ^ 44 + 0x30000 })] }; x);
       let k := ({ dst := 0, src := 3, ptype := 0x10, tag := 7, job := 7, offset := 0, data := List.replicate 64 5 } : Pkt);
       let h := k.offset % 8; let key := h * 16 + bits k.offset 6 3; let x := d.rxq key; let e := if x.accept = 2 then d.step1 else d;
       let fits := d.rxAdmits h x.accept k && decide (64 + k.data.length ≤ 2 ^ x.slotLog2);
       (d.live && k.dst == d.ownChip && d.portUp 0 && pktOk k) && d.hoopState h == 1 && fits && !x.full &&
       (match e.writeVa h (x.ring + x.seq % 2 ^ x.countLog2 * 2 ^ x.slotLog2) (e.rxHeader h x.seq k ++ k.data) (who := h) with | some d2 => (d2.writeVa h x.ctrl (le 4 (x.seq + 1)) (who := h)).isSome | none => false)) &&
     (let d : Device := ((let x := ((boardRole 2).wr Reg.HOOP_CFG_STATE 0 1).setKlz { (boardRole 2).klz with rxqs := [(0, { accept := 2, ring := 2 ^ 44 + 0x20000, slotLog2 := 7, countLog2 := 2, ctrl := 2 ^ 44 + 0x30000 })] }; x).wr Reg.HOOP_REMOTE_JOB 0 9 |>.wr Reg.HOOP_REMOTE_JOB 3 9);
       let k := ({ dst := 0, src := 0, ptype := 0x10, tag := 7, job := 3, offset := 0, data := List.replicate 64 5 } : Pkt);
       let h := k.offset % 8; let key := h * 16 + bits k.offset 6 3; let x := d.rxq key; let e := if x.accept = 2 then d.step1 else d;
       let fits := d.rxAdmits h x.accept k && decide (64 + k.data.length ≤ 2 ^ x.slotLog2);
       (d.live && k.dst == d.ownChip && d.portUp 0 && pktOk k) && d.hoopState h == 1 && fits && !x.full &&
       (match e.writeVa h (x.ring + x.seq % 2 ^ x.countLog2 * 2 ^ x.slotLog2) (e.rxHeader h x.seq k ++ k.data) (who := h) with | some d2 => (d2.writeVa h x.ctrl (le 4 (x.seq + 1)) (who := h)).isSome | none => false)) &&
     (let d : Device := (let x := ((boardRole 2).wr Reg.HOOP_CFG_STATE 0 1).setKlz { (boardRole 2).klz with rxqs := [(0, { accept := 1, ring := 5 * 2 ^ 44, slotLog2 := 7, countLog2 := 2, ctrl := 2 ^ 44 + 0x30000 })] }; x);
       let k := ({ dst := 0, src := 3, ptype := 0x10, tag := 7, job := 7, offset := 0, data := List.replicate 64 5 } : Pkt);
       let h := k.offset % 8; let key := h * 16 + bits k.offset 6 3; let x := d.rxq key; let e := if x.accept = 2 then d.step1 else d;
       let fits := d.rxAdmits h x.accept k && decide (64 + k.data.length ≤ 2 ^ x.slotLog2);
       (d.live && k.dst == d.ownChip && d.portUp 0 && pktOk k) && d.hoopState h == 1 && fits && !x.full &&
       e.writeVa h (x.ring + x.seq % 2 ^ x.countLog2 * 2 ^ x.slotLog2) (e.rxHeader h x.seq k ++ k.data) (who := h) == none) &&
     (let d : Device := (let x := ((boardRole 2).wr Reg.HOOP_CFG_STATE 0 1).setKlz { (boardRole 2).klz with rxqs := [(0, { accept := 1, ring := 2 ^ 44 + 0x20000, slotLog2 := 7, countLog2 := 2, ctrl := 5 * 2 ^ 44 })] }; x);
       let k := ({ dst := 0, src := 3, ptype := 0x10, tag := 7, job := 7, offset := 0, data := List.replicate 64 5 } : Pkt);
       let h := k.offset % 8; let key := h * 16 + bits k.offset 6 3; let x := d.rxq key; let e := if x.accept = 2 then d.step1 else d;
       let fits := d.rxAdmits h x.accept k && decide (64 + k.data.length ≤ 2 ^ x.slotLog2);
       (d.live && k.dst == d.ownChip && d.portUp 0 && pktOk k) && d.hoopState h == 1 && fits && !x.full &&
       (match e.writeVa h (x.ring + x.seq % 2 ^ x.countLog2 * 2 ^ x.slotLog2) (e.rxHeader h x.seq k ++ k.data) (who := h) with | some d2 => (d2.writeVa h x.ctrl (le 4 (x.seq + 1)) (who := h)) == none | none => false)) &&
     (let d : Device := (let x := ((boardRole 2).wr Reg.HOOP_CFG_STATE 0 1).setKlz { (boardRole 2).klz with rxqs := [(0, { accept := 1, ring := 2 ^ 44 + 0x20000, slotLog2 := 7, countLog2 := 2, ctrl := 0x40, seq := 4 })] }; x);
       let k := ({ dst := 0, src := 3, ptype := 0x10, tag := 7, job := 7, offset := 0, data := List.replicate 64 5 } : Pkt);
       let h := k.offset % 8; let key := h * 16 + bits k.offset 6 3; let x := d.rxq key; let e := if x.accept = 2 then d.step1 else d;
       let fits := d.rxAdmits h x.accept k && decide (64 + k.data.length ≤ 2 ^ x.slotLog2);
       (d.live && k.dst == d.ownChip && d.portUp 0 && pktOk k) && d.hoopState h == 1 && fits && x.full &&
       (match e.readHead key with | (_, .error _) => true | _ => false)) &&
     (let d : Device := (let z := (let x := ((boardRole 2).wr Reg.HOOP_CFG_STATE 0 1).setKlz { (boardRole 2).klz with rxqs := [(0, { accept := 1, ring := 2 ^ 44 + 0x20000, slotLog2 := 7, countLog2 := 2, ctrl := 2 ^ 12, seq := 4 })] }; x); { z with pcie := { z.pcie with up := true, crs := false, busMaster := 1 } });
       let k := ({ dst := 0, src := 3, ptype := 0x10, tag := 7, job := 7, offset := 0, data := List.replicate 64 5 } : Pkt);
       let h := k.offset % 8; let key := h * 16 + bits k.offset 6 3; let x := d.rxq key; let e := if x.accept = 2 then d.step1 else d;
       let fits := d.rxAdmits h x.accept k && decide (64 + k.data.length ≤ 2 ^ x.slotLog2);
       (d.live && k.dst == d.ownChip && d.portUp 0 && pktOk k) && d.hoopState h == 1 && fits && x.full &&
       (match e.readHead key with | (_, .ok none) => true | _ => false)) &&
     (let d : Device := (let z := (let x := ((boardRole 2).wr Reg.HOOP_CFG_STATE 0 1).setKlz { (boardRole 2).klz with rxqs := [(0, { accept := 1, ring := 2 ^ 44 + 0x20000, slotLog2 := 7, countLog2 := 2, ctrl := 2 ^ 44 + 0x30000, seq := 4 })] }; x); (z.writeVa 0 (2 ^ 44 + 0x30040) (le 4 0)).getD z);
       let k := ({ dst := 0, src := 3, ptype := 0x10, tag := 7, job := 7, offset := 0, data := List.replicate 64 5 } : Pkt);
       let h := k.offset % 8; let key := h * 16 + bits k.offset 6 3; let x := d.rxq key; let e := if x.accept = 2 then d.step1 else d;
       let fits := d.rxAdmits h x.accept k && decide (64 + k.data.length ≤ 2 ^ x.slotLog2);
       (d.live && k.dst == d.ownChip && d.portUp 0 && pktOk k) && d.hoopState h == 1 && fits && x.full &&
       (match e.readHead key with | (d2, .ok (some v)) => v == 0 && (d2.setRxq key { d2.rxq key with head := v } |>.rxq key).full == true | _ => false)) &&
     (let d : Device := (let z := (let x := ((boardRole 2).wr Reg.HOOP_CFG_STATE 0 1).setKlz { (boardRole 2).klz with rxqs := [(0, { accept := 1, ring := 2 ^ 44 + 0x20000, slotLog2 := 7, countLog2 := 2, ctrl := 2 ^ 44 + 0x30000, seq := 4 })] }; x); (z.writeVa 0 (2 ^ 44 + 0x30040) (le 4 1)).getD z);
       let k := ({ dst := 0, src := 3, ptype := 0x10, tag := 7, job := 7, offset := 0, data := List.replicate 64 5 } : Pkt);
       let h := k.offset % 8; let key := h * 16 + bits k.offset 6 3; let x := d.rxq key; let e := if x.accept = 2 then d.step1 else d;
       let fits := d.rxAdmits h x.accept k && decide (64 + k.data.length ≤ 2 ^ x.slotLog2);
       (d.live && k.dst == d.ownChip && d.portUp 0 && pktOk k) && d.hoopState h == 1 && fits && x.full &&
       (match e.readHead key with | (d2, .ok (some v)) => v == 1 && (d2.setRxq key { d2.rxq key with head := v } |>.rxq key).full == false | _ => false)) &&
     (let d : Device := (let x := ((boardRole 2).wr Reg.HOOP_CFG_STATE 0 0).setKlz { (boardRole 2).klz with rxqs := [(0, { accept := 1, ring := 2 ^ 44 + 0x20000, slotLog2 := 7, countLog2 := 2, ctrl := 2 ^ 44 + 0x30000 })] }; x);
       let k := ({ dst := 0, src := 3, ptype := 0x10, tag := 7, job := 7, offset := 0, data := List.replicate 64 5 } : Pkt);
       let h := k.offset % 8; let key := h * 16 + bits k.offset 6 3; let x := d.rxq key; let e := if x.accept = 2 then d.step1 else d;
       let fits := d.rxAdmits h x.accept k && decide (64 + k.data.length ≤ 2 ^ x.slotLog2);
       (d.live && k.dst == d.ownChip && d.portUp 0 && pktOk k) && d.hoopState h == 0) &&
     (let d : Device := (let x := ((boardRole 2).wr Reg.HOOP_CFG_STATE 0 2).setKlz { (boardRole 2).klz with rxqs := [(0, { accept := 1, ring := 2 ^ 44 + 0x20000, slotLog2 := 7, countLog2 := 2, ctrl := 2 ^ 44 + 0x30000 })] }; x);
       let k := ({ dst := 0, src := 3, ptype := 0x10, tag := 7, job := 7, offset := 0, data := List.replicate 64 5 } : Pkt);
       let h := k.offset % 8; let key := h * 16 + bits k.offset 6 3; let x := d.rxq key; let e := if x.accept = 2 then d.step1 else d;
       let fits := d.rxAdmits h x.accept k && decide (64 + k.data.length ≤ 2 ^ x.slotLog2);
       (d.live && k.dst == d.ownChip && d.portUp 0 && pktOk k) && d.hoopState h == 2) &&
     (let d : Device := (let x := ((boardRole 2).wr Reg.HOOP_CFG_STATE 0 5).setKlz { (boardRole 2).klz with rxqs := [(0, { accept := 1, ring := 2 ^ 44 + 0x20000, slotLog2 := 7, countLog2 := 2, ctrl := 2 ^ 44 + 0x30000 })] }; x);
       let k := ({ dst := 0, src := 3, ptype := 0x10, tag := 7, job := 7, offset := 0, data := List.replicate 64 5 } : Pkt);
       let h := k.offset % 8; let key := h * 16 + bits k.offset 6 3; let x := d.rxq key; let e := if x.accept = 2 then d.step1 else d;
       let fits := d.rxAdmits h x.accept k && decide (64 + k.data.length ≤ 2 ^ x.slotLog2);
       (d.live && k.dst == d.ownChip && d.portUp 0 && pktOk k) && d.hoopState h == 5) &&
     (let d : Device := (let x := ((boardRole 2).wr Reg.HOOP_CFG_STATE 0 1).setKlz { (boardRole 2).klz with rxqs := [(0, { accept := 0, ring := 2 ^ 44 + 0x20000, slotLog2 := 7, countLog2 := 2, ctrl := 2 ^ 44 + 0x30000 })] }; x);
       let k := ({ dst := 0, src := 3, ptype := 0x10, tag := 7, job := 7, offset := 0, data := List.replicate 64 5 } : Pkt);
       let h := k.offset % 8; let key := h * 16 + bits k.offset 6 3; let x := d.rxq key; let e := if x.accept = 2 then d.step1 else d;
       let fits := d.rxAdmits h x.accept k && decide (64 + k.data.length ≤ 2 ^ x.slotLog2);
       (d.live && k.dst == d.ownChip && d.portUp 0 && pktOk k) && d.hoopState h == 1 && x.accept == 0) &&
     (let d : Device := (let x := ((boardRole 2).wr Reg.HOOP_CFG_STATE 0 1).setKlz { (boardRole 2).klz with rxqs := [(0, { accept := 3, ring := 2 ^ 44 + 0x20000, slotLog2 := 7, countLog2 := 2, ctrl := 2 ^ 44 + 0x30000 })] }; x);
       let k := ({ dst := 0, src := 3, ptype := 0x10, tag := 7, job := 7, offset := 0, data := List.replicate 64 5 } : Pkt);
       let h := k.offset % 8; let key := h * 16 + bits k.offset 6 3; let x := d.rxq key; let e := if x.accept = 2 then d.step1 else d;
       let fits := d.rxAdmits h x.accept k && decide (64 + k.data.length ≤ 2 ^ x.slotLog2);
       (d.live && k.dst == d.ownChip && d.portUp 0 && pktOk k) && d.hoopState h == 1 && x.accept == 3 && k.src != d.ownChip) &&
     (let d : Device := (let x := ((boardRole 2).wr Reg.HOOP_CFG_STATE 0 1).setKlz { (boardRole 2).klz with rxqs := [(0, { accept := 1, ring := 2 ^ 44 + 0x20000, slotLog2 := 7, countLog2 := 2, ctrl := 2 ^ 44 + 0x30000 })] }; x);
       let k := ({ dst := 0, src := 3, ptype := 0x10, tag := 7, job := 7, offset := 0, data := List.replicate 65 5 } : Pkt);
       let h := k.offset % 8; let key := h * 16 + bits k.offset 6 3; let x := d.rxq key; let e := if x.accept = 2 then d.step1 else d;
       let fits := d.rxAdmits h x.accept k && decide (64 + k.data.length ≤ 2 ^ x.slotLog2);
       (d.live && k.dst == d.ownChip && d.portUp 0 && pktOk k) && d.hoopState h == 1 && !fits) &&
     (let d : Device := (let x := boardRole 2; x.setKlz { x.klz with remotes := [(7, { kind := 3, a := 0, b := 0, c := 0, hoop := 0, chip := 3, pkt := { dst := 3, src := 0, ptype := 16, tag := 7, data := List.replicate 64 5 } })] });
       let k := ({ dst := 0, src := 3, ptype := 0x11, tag := 7, job := 7, offset := 0, data := [] } : Pkt); let h := k.offset % 8;
       let key := h * 16 + bits k.offset 6 3; let x := d.rxq key; let e := if x.accept = 2 then d.step1 else d;
       let fits := d.rxAdmits h x.accept k && decide (64 + k.data.length ≤ 2 ^ x.slotLog2);
       (d.live && k.dst == d.ownChip && d.portUp 0 && pktOk k) &&
       (match d.remoteOf k.src k.tag with | some (n, r) => n == 7 && r.kind == 3 && k.offset % 256 == 0 | none => false)) &&
     (let d : Device := (let x := boardRole 2; x.setKlz { x.klz with remotes := [(7, { kind := 3, a := 0, b := 0, c := 0, hoop := 0, chip := 3, pkt := { dst := 3, src := 0, ptype := 16, tag := 7, data := List.replicate 64 5 } })] });
       let k := ({ dst := 0, src := 3, ptype := 0x11, tag := 7, job := 7, offset := 6, data := [] } : Pkt); let h := k.offset % 8;
       let key := h * 16 + bits k.offset 6 3; let x := d.rxq key; let e := if x.accept = 2 then d.step1 else d;
       let fits := d.rxAdmits h x.accept k && decide (64 + k.data.length ≤ 2 ^ x.slotLog2);
       (d.live && k.dst == d.ownChip && d.portUp 0 && pktOk k) &&
       (match d.remoteOf k.src k.tag with | some (n, r) => n == 7 && r.kind == 3 && k.offset % 256 == 6 | none => false)) &&
     (let d : Device := (let z := (let x := boardRole 2; x.setKlz { x.klz with remotes := [(7, { kind := 3, a := 0, b := 0, c := 0, hoop := 0, chip := 3, pkt := { dst := 3, src := 0, ptype := 16, tag := 7, data := List.replicate 64 5 } })] }); { z with clock := { z.clock with now := 1000000 } });
       let k := ({ dst := 0, src := 3, ptype := 0x11, tag := 7, job := 7, offset := 5, data := [] } : Pkt); let h := k.offset % 8;
       let key := h * 16 + bits k.offset 6 3; let x := d.rxq key; let e := if x.accept = 2 then d.step1 else d;
       let fits := d.rxAdmits h x.accept k && decide (64 + k.data.length ≤ 2 ^ x.slotLog2);
       (d.live && k.dst == d.ownChip && d.portUp 0 && pktOk k) &&
       (match d.remoteOf k.src k.tag with | some (n, r) => n == 7 && r.kind == 3 && r.sent + 1000000 ≤ d.clock.now | none => false)) &&
     (let d : Device := (let z := (let x := boardRole 2; x.setKlz { x.klz with remotes := [(7, { kind := 3, a := 0, b := 0, c := 0, hoop := 0, chip := 3, pkt := { dst := 3, src := 0, ptype := 16, tag := 7, data := List.replicate 64 5 } })] }); { z with clock := { z.clock with now := 999999 } });
       let k := ({ dst := 0, src := 3, ptype := 0x11, tag := 7, job := 7, offset := 5, data := [] } : Pkt); let h := k.offset % 8;
       let key := h * 16 + bits k.offset 6 3; let x := d.rxq key; let e := if x.accept = 2 then d.step1 else d;
       let fits := d.rxAdmits h x.accept k && decide (64 + k.data.length ≤ 2 ^ x.slotLog2);
       (d.live && k.dst == d.ownChip && d.portUp 0 && pktOk k) &&
       (match d.remoteOf k.src k.tag with | some (n, r) => n == 7 && r.kind == 3 && decide (d.clock.now < r.sent + 1000000) | none => false)) &&
     (let d : Device := ((let x := boardRole 2; x.setKlz { x.klz with remotes := [(7, { kind := 3, a := 0, b := 0, c := 0, hoop := 0, chip := 3, resend := true, pkt := { dst := 3, src := 0, ptype := 16, tag := 7, data := List.replicate 64 5 } })] })).wr Reg.KLZ_RT_PRIMARY 3 0;
       d.live &&
       (match Tab.find? d.klz.remotes 7 with | some r => r.resend && decide (d.clock.now < r.sent + 1000000) && ((d.setKlz { d.klz with remotes := Tab.insert d.klz.remotes 7 { r with resend := false } }).sendPkt r.pkt).isSome | none => false)) &&
     (let d : Device := ((let x := boardRole 2; x.setKlz { x.klz with remotes := [(7, { kind := 3, a := 0, b := 0, c := 0, hoop := 0, chip := 3, resend := true, pkt := { dst := 3, src := 0, ptype := 16, tag := 7, data := List.replicate 64 5 } })] })).wr Reg.KLZ_RT_PRIMARY 3 9;
       d.live &&
       (match Tab.find? d.klz.remotes 7 with | some r => r.resend && decide (d.clock.now < r.sent + 1000000) && ((d.setKlz { d.klz with remotes := Tab.insert d.klz.remotes 7 { r with resend := false } }).sendPkt r.pkt) == none | none => false)) &&
     (let d : Device := (let x := (let x := boardRole 2; x.setKlz { x.klz with remotes := [(7, { kind := 3, a := 0, b := 0, c := 0, hoop := 0, chip := 3, resend := true, pkt := { dst := 3, src := 0, ptype := 16, tag := 7, data := List.replicate 64 5 } })] }); { x with clock := { x.clock with now := 1000000 } });
       d.live && (match Tab.find? d.klz.remotes 7 with | some r => r.resend && decide (r.sent + 1000000 ≤ d.clock.now) | none => false))) = true := by decide +kernel

set_option maxRecDepth 100000 in
theorem witness_BoardAndPorts :
    ((let d : Device := (boardRole 1);
       let k := ({ dst := 0, src := 3, ptype := 0x20, tag := 7, job := 7, offset := 0, data := be 8 1 ++ be 4 500 ++ be 4 100 ++ le 16 0 } : Pkt);
       (d.live && k.dst == d.ownChip && d.portUp 0 && pktOk k) && true) &&
     (let d : Device := (boardRole 1);
       let k := ({ dst := 0, src := 3, ptype := 0x28, tag := 7, job := 7, offset := 0, data := be 2 1 ++ be 2 0 ++ be 4 16 ++ be 8 0 ++ be 2 3 ++ be 2 0 ++ le 12 0 } : Pkt);
       (d.live && k.dst == d.ownChip && d.portUp 0 && pktOk k) && fieldBe k.data 0 2 == 1) &&
     (let d : Device := (boardRole 2);
       let k := ({ dst := 0, src := 3, ptype := 0x28, tag := 7, job := 7, offset := 0, data := be 2 2 ++ be 2 0 ++ be 4 16 ++ be 8 0 ++ be 2 3 ++ le 8 4 ++ le 6 0 } : Pkt);
       (d.live && k.dst == d.ownChip && d.portUp 0 && pktOk k) && fieldBe k.data 0 2 == 2 && d.role == 2 &&
       fieldBe k.data 16 2 / 8 == d.rd Reg.KLZ_ID_BOARD) &&
     (let d : Device := (boardRole 2);
       let k := ({ dst := 0, src := 3, ptype := 0x28, tag := 7, job := 7, offset := 0, data := be 2 3 ++ be 2 0 ++ be 4 16 ++ be 8 0 ++ List.replicate 256 1 } : Pkt);
       (d.live && k.dst == d.ownChip && d.portUp 0 && pktOk k) && fieldBe k.data 0 2 == 3 && d.role == 2 &&
       k.src / 8 == d.rd Reg.KLZ_ID_BOARD) &&
     (let d : Device := (boardRole 2);
       let k := ({ dst := 0, src := 3, ptype := 0x30, tag := 7, job := 7, offset := 0, data := be 2 3 ++ be 2 0 ++ be 4 5 ++ le 32 0 ++ le 8 0 } : Pkt);
       (d.live && k.dst == d.ownChip && d.portUp 0 && pktOk k) && fieldBe k.data 0 2 != d.ownChip &&
       (match Tab.find? d.klz.db (fieldBe k.data 0 2) with | some r => decide (0 < ringDiff 32 (fieldBe k.data 4 4) r.seq ∧ ringDiff 32 (fieldBe k.data 4 4) r.seq < 2 ^ 31) | none => true)) &&
     (let d : Device := (let x := boardRole 2; x.setKlz { x.klz with db := [(3, ⟨4, []⟩)] });
       let k := ({ dst := 0, src := 3, ptype := 0x30, tag := 7, job := 7, offset := 0, data := be 2 3 ++ be 2 0 ++ be 4 5 ++ le 32 0 ++ le 8 0 } : Pkt);
       (d.live && k.dst == d.ownChip && d.portUp 0 && pktOk k) && fieldBe k.data 0 2 != d.ownChip &&
       (match Tab.find? d.klz.db (fieldBe k.data 0 2) with | some r => decide (0 < ringDiff 32 (fieldBe k.data 4 4) r.seq ∧ ringDiff 32 (fieldBe k.data 4 4) r.seq < 2 ^ 31) | none => true)) &&
     (let d : Device := (let x := boardRole 1; x.setKlz { x.klz with ticked := true }); d.live && d.role == 1 && d.klz.ticked && !d.klz.lost) &&
     (let d : Device := (let x := boardRole 2; x.setKlz { x.klz with stale := true }); d.live && d.klz.stale) &&
     (let d : Device := (((boardRole 2).wr Reg.KLZ_PORT_STATUS_STATE 1 1)); d.live && d.portState 1 == 1) &&
     (let d : Device := (boardRole 1); let k := ({ dst := 0, src := 3, ptype := 0x21, tag := 7, job := 7, offset := 0, data := be 8 1 } : Pkt);
       (d.live && k.dst == d.ownChip && d.portUp 0 && pktOk k) && true) &&
     (let d : Device := (let x := boardRole 1; ({ x with clock := { x.clock with now := 900 } }).setPort 0 { x.port 0 with t1 := some 100 });
       let k := ({ dst := 0, src := 3, ptype := 0x22, tag := 7, job := 7, offset := 0, data := be 8 100 ++ be 8 400 ++ be 8 500 } : Pkt);
       (d.live && k.dst == d.ownChip && d.portUp 0 && pktOk k) && (d.port 0).t1 == some (fieldBe k.data 0 8) && (d.port 0).ds == []) &&
     (let d : Device := (let x := boardRole 1; ({ x with clock := { x.clock with now := 900 } }).setPort 0 { x.port 0 with t1 := some 800 });
       let k := ({ dst := 0, src := 3, ptype := 0x22, tag := 7, job := 7, offset := 0, data := be 8 800 ++ be 8 400 ++ be 8 503 } : Pkt);
       (d.live && k.dst == d.ownChip && d.portUp 0 && pktOk k) && (d.port 0).t1 == some (fieldBe k.data 0 8) && (d.port 0).ds == []) &&
     (let d : Device := (boardRole 2);
       let k := ({ dst := 0, src := 3, ptype := 0x23, tag := 7, job := 7, offset := 0, data := be 8 5 ++ be 4 500 ++ le 20 0 } : Pkt);
       (d.live && k.dst == d.ownChip && d.portUp 0 && pktOk k) && k.src != d.ownChip && !(d.timesOf k.src).contains (fieldBe k.data 0 8)) &&
     (let d : Device := (let x := boardRole 2; x.setKlz { x.klz with times := [(3, [9, 8, 7, 6, 4, 3, 2, 1])] });
       let k := ({ dst := 0, src := 3, ptype := 0x23, tag := 7, job := 7, offset := 0, data := be 8 5 ++ be 4 500 ++ le 20 0 } : Pkt);
       (d.live && k.dst == d.ownChip && d.portUp 0 && pktOk k) && k.src != d.ownChip && !(d.timesOf k.src).contains (fieldBe k.data 0 8)) &&
     (let d : Device := (let x := boardRole 2; x.setKlz { x.klz with times := [(3, [9, 5])] });
       let k := ({ dst := 0, src := 3, ptype := 0x23, tag := 7, job := 7, offset := 0, data := be 8 5 ++ be 4 500 ++ le 20 0 } : Pkt);
       (d.live && k.dst == d.ownChip && d.portUp 0 && pktOk k) && (d.timesOf k.src).contains (fieldBe k.data 0 8)) &&
     (let d : Device := (boardRole 2);
       let k := ({ dst := 0, src := 0, ptype := 0x23, tag := 7, job := 7, offset := 0, data := be 8 5 ++ be 4 500 ++ le 20 0 } : Pkt);
       (d.live && k.dst == d.ownChip && d.portUp 0 && pktOk k) && k.src == d.ownChip) &&
     (let d : Device := (let x := (boardRole 2).wr Reg.KLZ_TICK_TM_PRESENT 0 1; x.setKlz { x.klz with master := some 9 }); d.live &&
       d.role == 2 && (match d.klz.master with | some m => m != d.ownChip | none => false) && d.rd Reg.KLZ_TICK_TM_PRESENT == 1) &&
     (let d : Device := (let x := (((boardRole 2).wr Reg.KLZ_PORT_STATUS_STATE 7 0)); x.setPort 7 { x.port 7 with trainFailed := true });
       d.live && d.portState 7 == 0 && (d.port 7).trainFailed) &&
     (let d : Device := (((boardRole 2).wr Reg.KLZ_PORT_STATUS_STATE 1 5)); d.live && d.portState 1 == 5 &&
       d.rd Reg.KLZ_PORT_STATUS_DISABLED 1 == 0) &&
     (let d : Device := (((boardRole 2).wr Reg.KLZ_PORT_STATUS_STATE 1 4)); d.live && d.portState 1 == 4) &&
     (let d : Device := (((boardRole 2).wr Reg.KLZ_PORT_STATUS_STATE 1 3)); d.live && d.portState 1 == 3) &&
     (let d : Device := (((boardRole 2).wr Reg.KLZ_PORT_STATUS_STATE 1 2)); d.live && d.portState 1 == 2) &&
     (let d : Device := (((boardRole 2).wr Reg.KLZ_PORT_STATUS_STATE 1 2)); let x : Partner := ⟨3, 0, 2, false, 5⟩;
       let d2 := ((d.wr Reg.KLZ_PORT_STATUS_PARTNER_CHIP 1 x.chip).wr Reg.KLZ_PORT_STATUS_PARTNER_PORT 1 x.port).wr Reg.KLZ_PORT_STATUS_PARTNER_MGR 1 (b2n x.mgr);
       let c := decide (1 < 7) && x.mgr && x.board == d2.rd Reg.KLZ_ID_BOARD && d2.rd Reg.KLZ_ID_MGR_EN == 1 && d2.role != 3;
       let d3 := if c then d2.managerConflict x.chip else d2; d.live && d.portState 1 == 2 && c == false && d3.wired 1 x == true) &&
     (let d : Device := (((boardRole 2).wr Reg.KLZ_PORT_STATUS_STATE 1 2)); let x : Partner := ⟨3, 0, 3, false, 5⟩;
       let d2 := ((d.wr Reg.KLZ_PORT_STATUS_PARTNER_CHIP 1 x.chip).wr Reg.KLZ_PORT_STATUS_PARTNER_PORT 1 x.port).wr Reg.KLZ_PORT_STATUS_PARTNER_MGR 1 (b2n x.mgr);
       let c := decide (1 < 7) && x.mgr && x.board == d2.rd Reg.KLZ_ID_BOARD && d2.rd Reg.KLZ_ID_MGR_EN == 1 && d2.role != 3;
       let d3 := if c then d2.managerConflict x.chip else d2; d.live && d.portState 1 == 2 && c == false && d3.wired 1 x == false) &&
     (let d : Device := (((boardRole 2).wr Reg.KLZ_PORT_STATUS_STATE 1 2)); let x : Partner := ⟨3, 0, 2, true, 5⟩;
       let d2 := ((d.wr Reg.KLZ_PORT_STATUS_PARTNER_CHIP 1 x.chip).wr Reg.KLZ_PORT_STATUS_PARTNER_PORT 1 x.port).wr Reg.KLZ_PORT_STATUS_PARTNER_MGR 1 (b2n x.mgr);
       let c := decide (1 < 7) && x.mgr && x.board == d2.rd Reg.KLZ_ID_BOARD && d2.rd Reg.KLZ_ID_MGR_EN == 1 && d2.role != 3;
       let d3 := if c then d2.managerConflict x.chip else d2; d.live && d.portState 1 == 2 && c == false && d3.wired 1 x == true) &&
     (let d : Device := (((((boardRole 2).wr Reg.KLZ_PORT_STATUS_STATE 1 2))).wr Reg.KLZ_ID_MGR_EN 0 1); let x : Partner := ⟨3, 0, 2, true, 5⟩;
       let d2 := ((d.wr Reg.KLZ_PORT_STATUS_PARTNER_CHIP 1 x.chip).wr Reg.KLZ_PORT_STATUS_PARTNER_PORT 1 x.port).wr Reg.KLZ_PORT_STATUS_PARTNER_MGR 1 (b2n x.mgr);
       let c := decide (1 < 7) && x.mgr && x.board == d2.rd Reg.KLZ_ID_BOARD && d2.rd Reg.KLZ_ID_MGR_EN == 1 && d2.role != 3;
       let d3 := if c then d2.managerConflict x.chip else d2; d.live && d.portState 1 == 2 && c == true && d3.wired 1 x == true) &&
     (let d : Device := (((((boardRole 2).wr Reg.KLZ_PORT_STATUS_STATE 1 2))).wr Reg.KLZ_ID_MGR_EN 0 1); let x : Partner := ⟨0, 0, 2, true, 5⟩;
       let d2 := ((d.wr Reg.KLZ_PORT_STATUS_PARTNER_CHIP 1 x.chip).wr Reg.KLZ_PORT_STATUS_PARTNER_PORT 1 x.port).wr Reg.KLZ_PORT_STATUS_PARTNER_MGR 1 (b2n x.mgr);
       let c := decide (1 < 7) && x.mgr && x.board == d2.rd Reg.KLZ_ID_BOARD && d2.rd Reg.KLZ_ID_MGR_EN == 1 && d2.role != 3;
       let d3 := if c then d2.managerConflict x.chip else d2; d.live && d.portState 1 == 2 && c == true && d3.wired 1 x == false) &&
     (let d : Device := (((boardRole 2).wr Reg.KLZ_PORT_STATUS_STATE 7 2)); let x : Partner := ⟨9, 1, 0, true, 7⟩;
       let d2 := ((d.wr Reg.KLZ_PORT_STATUS_PARTNER_CHIP 7 x.chip).wr Reg.KLZ_PORT_STATUS_PARTNER_PORT 7 x.port).wr Reg.KLZ_PORT_STATUS_PARTNER_MGR 7 (b2n x.mgr);
       let c := decide (7 < 7) && x.mgr && x.board == d2.rd Reg.KLZ_ID_BOARD && d2.rd Reg.KLZ_ID_MGR_EN == 1 && d2.role != 3;
       let d3 := if c then d2.managerConflict x.chip else d2; d.live && d.portState 7 == 2 && c == false && d3.wired 7 x == true) &&
     (let d : Device := (((boardRole 2).wr Reg.KLZ_PORT_STATUS_STATE 7 2)); let x : Partner := ⟨9, 0, 0, true, 7⟩;
       let d2 := ((d.wr Reg.KLZ_PORT_STATUS_PARTNER_CHIP 7 x.chip).wr Reg.KLZ_PORT_STATUS_PARTNER_PORT 7 x.port).wr Reg.KLZ_PORT_STATUS_PARTNER_MGR 7 (b2n x.mgr);
       let c := decide (7 < 7) && x.mgr && x.board == d2.rd Reg.KLZ_ID_BOARD && d2.rd Reg.KLZ_ID_MGR_EN == 1 && d2.role != 3;
       let d3 := if c then d2.managerConflict x.chip else d2; d.live && d.portState 7 == 2 && c == false && d3.wired 7 x == false) &&
     (let d : Device := (boardRole 2); d.live && d.portState 0 == 4)) = true := by decide +kernel

set_option maxRecDepth 100000 in
theorem witness_Sideband :
    ((let d : Device := boardRole 2; d.sbOpen && (1 : Byte) != 0 && (1 : Byte) != 0xFF) &&
     (let d : Device := boardRole 2; d.sbOpen && (254 : Byte) != 0 && (254 : Byte) != 0xFF) &&
     (let d : Device := boardRole 2; d.sbOpen) &&
     (let d : Device := (let x := boardRole 2; { x with pins := { x.pins with alert := true, flowOk := true, straps := { x.pins.straps with sbMode := true } } });
       d.life.powered && d.pins.flowOk && d.pins.alert && d.pins.straps.sbMode) &&
     (let d : Device := (let x := boardRole 2; { x with pins := { x.pins with alert := true, flowOk := false } }); !d.pins.flowOk) &&
     (let d : Device := managed; d.doeOpen && !d.chain.isEmpty) &&
     (let d : Device := managed; d.doeOpen && (2 : Nat) != 0 && [0, 4, 0xFF].all (fun i => decide (i ≤ 4) || i == 0xFF) &&
       [0x85, 0xFF].all (fun c => !([0x84, 0xE1, 0xE3, 0x81, 0x82, 0x83, 0xE0].contains c)))) = true := by decide +kernel

theorem witness_SpecialValues :
    ((List.range 8).all (fun k => runs busy (0x50 + k) { d := 2 } { d := .v 1, a := .vu 1, ok := modIn { d := 2 } 0x500 }) &&
      decide (0x7F800000 < 0x7FC00001 % 2 ^ 31 ∧ 0x80000000 < 0xBF800000 ∧ 0xBF800000 < 0xFF800000) &&
      [(0x40400000, false, 3), (0xC0400000, true, 3), (0xC3020000, true, 130)].all (fun (x : Nat × Bool × Nat) => match fp32.decode x.1 with
        | .fin s m e => s == x.2.1 && (decide (0 ≤ e ∧ x.2.2 = m * 2 ^ e.toNat) || decide (e < 0 ∧ m = x.2.2 * 2 ^ (-e).toNat))
        | _ => false)) = true := by decide +kernel

/-- Whether a command answers a next state. -/
def goesOn (c : Instr) (s : State) : Bool := match exec c s with | .next _ => true | _ => false

theorem witness_QueueKept : goesOn .wheelTick (st (boardRole 2)) = true := by decide +kernel

theorem witness_FlashAndFusesFrame : (goesOn .ageingCounter (st ready) && goesOn .fwProgramDone (st ready)) = true := by decide +kernel

theorem witness_FusesOnlyRise : State.reset.nv.Ok ∧ ∃ t, step State.reset = .next t := ⟨by unfold NonVol.Ok; decide +kernel, _, rfl⟩

theorem witness_MemoryKept : State.reset.MemOk ∧ (st ready).MemOk ∧ ∃ t, step (st ready) = .next t :=
  ⟨by unfold State.MemOk; decide +kernel, by unfold State.MemOk; decide +kernel, _, rfl⟩

/-- A register write of 1 to a reserved bit stops: the case that OnlyReservedBitsStop leaves. -/
theorem witness_OnlyReservedBitsStop : 
    (match exec (.mgmtRingEnable 0 2) (st managed) with | .fault .reservedBitWritten => true | _ => false) = true := by decide +kernel

/-- An image of one body byte whose digest field agrees. -/
def image : Bytes :=
  le 4 0x54484657 ++ le 2 1 ++ le 6 0 ++ le 4 1 ++ le 8 0 ++ digestBytes (Config.sha384 [0]) ++ List.replicate 4025 0

/-- Fuses that hold the digests of the image's keys. -/
def keyed : Fuses :=
  { ecdsaDigests := [(Config.sha384 (slice image 72 96)).toNat], lmsDigests := [(Config.sha384 (slice image 168 56)).toNat] }

theorem ofLe_le (n v : Nat) : ofLe (le n v) = v % 256 ^ n := by
  induction n generalizing v with
  | zero => simp [le, ofLe, Nat.mod_one]
  | succ n ih => rw [Nat.pow_succ', Nat.mod_mul]; simp [le, ofLe, ih]

set_option maxRecDepth 100000 in
set_option exponentiation.threshold 400 in
/-- Where the signatures verify, the image passes: premises of StartUp, RecoveryAndFuses and ManagementFirmware that read imageCause. -/
theorem witness_image (hv : ∀ k s d, Config.ecdsaVerify k s d = true) (hl : ∀ k s d, Config.lmsVerify k s d = true) :
    imageCause keyed image = 0 := by
  have h1 : slice image 24 48 = le 48 (Config.sha384 [0]).toNat := by rfl
  have h2 : image.drop 4096 = [0] := by rfl
  have h3 : (Config.sha384 [0]).toNat < 2 ^ 384 := (Config.sha384 [0]).isLt
  have h4 : fieldLe image 24 48 = (Config.sha384 [0]).toNat := by
    rw [fieldLe, h1, ofLe_le]; exact Nat.mod_eq_of_lt (Nat.lt_of_lt_of_eq h3 (by decide +kernel))
  have h5 : (fieldLe image 0 4 == 0x54484657 && fieldLe image 4 2 == 1 && fieldLe image 7 1 < 16 && zeroAt image 224 32 && zeroAt image 3020 1076
      && imgSvn image ≤ 128 && 1 ≤ imgBodyLen image && imgBodyLen image ≤ 58716160 && image.length == 4096 + imgBodyLen image) = true := by
    decide +kernel
  have h6 : imgKeyIndex image = 0 := by decide +kernel
  have h7 : imgSvn image = 0 := by decide +kernel
  simpa [imageCause, h6, h7, hv, hl, h2, h4, keyed, Nat.one_le_iff_ne_zero] using h5

/-- A token of the debug key: NONCE of ones, serial numbers 0, RIGHTS 1, LIFETIME 5. -/
def token : Bytes := List.replicate 32 1 ++ le 32 0 ++ le 4 1 ++ le 4 5 ++ le 192 0

/-- Where the signature verifies, a token unlocks: the premise of DEBUG_UNLOCK's success in ManagementStatistics. -/
theorem witness_token (hv : ∀ k s d, Config.ecdsaVerify k s d = true) :
    ({ managed with stat := { managed.stat with nonce := some (List.replicate 32 1) } } : Device).tokenOk
      { debugDigest := (Config.sha384 (slice token 72 96)).toNat } token = true := by
  have h1 : slice token 0 32 = List.replicate 32 1 := by decide +kernel
  have h2 : (List.range 4).all (fun i => fieldLe token (32 + 8 * i) 8 == Tab.get 0 (({} : Fuses).serials) i) = true := by decide +kernel
  simp only [Device.tokenOk, h1, hv, Bool.and_true, beq_self_eq_true, Bool.true_and]
  exact h2

/-- The part of the chain that GET_CERTIFICATE returns exists: the premise of Sideband. -/
theorem witness_chain (d : Device) : 0 < d.chain.length := by
  simp only [Device.chain, List.length_append, le, List.length_cons]; omega

/-- WellFormed refuses an operand out of range, one for each check. -/
theorem test_ill_formed :
    [Instr.nop 4096, .settlementWaitDone 65536, .slotFetch 128, .entryRetire 0 1024, .qdbWptr 9 0 0, .blockCredit 256, .blockRetire 0 32,
      .overrunDebtRepaid 0 16, .flipDrained 8, .nodeComplete 0 65535, .kernelWatchdog (2 ^ 64), .registerWrite 0 (.bar 6 0) 4 0,
      .registerWrite 0 (.bar 0 (2 ^ 64)) 4 0, .registerWrite 0 (.bar 0 0) 3 0, .fadd ⟨256, 0⟩ {}, .fadd ⟨0, 2240⟩ {},
      .fwQuery { ring := 10 } [], .fwQuery { ring := 0, hoop := 256 } [], .fwQuery { ring := 0, replyCap := 65536 } [],
      .rdReq 0 { dst := 4096, src := 0, ptype := 1 }, .rdReq 0 { dst := 0, src := 4096, ptype := 1 }, .rdReq 0 { dst := 0, src := 0, ptype := 64 },
      .rdReq 0 { dst := 0, src := 0, ptype := 1, tag := 65536 }, .rdReq 0 { dst := 0, src := 0, ptype := 1, job := 65536 },
      .rdReq 0 { dst := 0, src := 0, ptype := 1, win := 16 }, .rdReq 0 { dst := 0, src := 0, ptype := 1, offset := 2 ^ 48 },
      .flitReceive 0 { bytes := [] }, .flitReceive 8 { bytes := List.replicate 256 0 }, .abortFlit 0 { bytes := List.replicate 257 0 }, .identifyDone 0 ⟨4096, 0, 0, false, 0⟩,
      .identifyDone 0 ⟨0, 512, 0, false, 0⟩, .identifyDone 0 ⟨0, 0, 8, false, 0⟩, .identifyDone 0 ⟨0, 0, 0, false, 8⟩,
      .startup (some (256, 0))].all (fun c => !c.wf) = true := by decide +kernel

/-! Results that the manual gives or that follow from its tables by hand -/

/-- v2 of thread 0 after an instruction of lane 0 that lies in memory, with v0 and v1 given. -/
def v2 (a b op : Nat) (c : Ent → IWord → Instr) (w : IWord := alu 10) : Option Nat :=
  match exec (c e0 w) (st (holding (busyWith { blk with v := [(0, a), (1, b)] } 1) op w)) with
  | .next t => (t.dev.block? 0 0).map (fun x => x.vreg 0 2)
  | _ => none

/-- 1.0 + 2.0 is 3.0. -/
theorem test_fadd : v2 0x3F800000 0x40000000 0x00 .fadd (alu 0) = some 0x40400000 := by decide +kernel

/-- A sum wraps (R152). -/
theorem test_iadd_wraps : v2 0xFFFFFFFF 1 0x08 .iadd = some 0 := by decide +kernel

theorem test_isub_order : v2 3 5 0x09 .isub = some 0xFFFFFFFE := by decide +kernel

theorem test_andn : v2 0xFF 0x0F 0x23 .andn = some 0xF0 := by decide +kernel

/-- A signed shift by more than the width leaves copies of the sign. -/
theorem test_shr_sign : v2 0x80000000 40 0x25 .shr = some 0xFFFFFFFF := by decide +kernel

theorem test_clz : v2 1 0 0x27 .clz { alu 10 with b := 0 } = some 31 := by decide +kernel

theorem test_brev : v2 1 0 0x28 .brev { alu 10 with b := 0 } = some 0x80000000 := by decide +kernel

/-- The example of R201: the block of a largest magnitude 5.3 has scale 0x79, and its element 5.3 becomes 352, which is 0x7B in E4M3. -/
theorem test_block_scale : (blockScale 3 [fp32.decode 0x40A9999A]).1 = 0x79 := by decide +kernel

theorem test_block_element : (convertScaled 3 0 true 0 0x40A9999A 0x79).1 = 0x7B := by decide +kernel

/-- The example of the stochastic rounding: two draws on either side of the fraction. -/
theorem test_stochastic :
    ((convert 0 1 4 false 0x5FFFFFFF 0x3F806000).1, (convert 0 1 4 false 0x60000000 0x3F806000).1) = (0x3F81, 0x3F80) := by decide +kernel

/-- Table 7-9: the pairs and flags. -/
theorem test_resplit :
    [0x3DCCCCCD, 0x3F7FFFFF, 0x3F808000, 5].map resplit = [(0x3DCD, 0xCCCD, 0), (0x3F80, 0, 4), (0x3F80, 0x7FFF, 4), (0, 5, 0)] := by decide +kernel

/-- Table 7-9: the reconstructions. -/
theorem test_unsplit :
    [(0x3DCD, 0xCCCD), (0x3F80, 0), (0x3F80, 0x7FFF), (0, 5)].map (fun x => unsplit x.1 x.2) = [0x3DCCCCCD, 0x3F800000, 0x3F807FFF, 5] := by
  decide +kernel

/-- Table 10-9. -/
theorem test_translation :
    (parseSeg (segBytes 0xF9 16 0x80000000 (2 ^ 35) (2 ^ 24 + 2 ^ 25 + 2 ^ 30 + 2 ^ 31))).place 0x123456780 = .dev 0x001CC8D16780 := by decide +kernel

/-- The example of chapter 8: the slice and the set of a line. -/
theorem test_line : (sliceOf (0x400003A80 / 128), l2Set (0x400003A80 / 128)) = (18, 1027) := by decide +kernel

/-- Table 9-3: SNP_INV takes a modified line, whose data go to the requester of RD_OWN and home for ATOMIC; SNP_SHARED makes an exclusive one the
keeper's. -/
theorem test_snoop : (snoop 1 4, snoop 7 4, snoop 0 3, snoop 5 1) = ((0, 2), (0, 3), (2, 2), (1, 1)) := by decide +kernel

/-- Table 14-3: DST lies in the header's top 12 bits, SRC next. -/
theorem test_header : (pktHeader { dst := 1, src := 2, ptype := 0x10 }).take 4 = [0x00, 0x10, 0x02, 0x40] := by decide +kernel

/-- Table 14-2. -/
theorem test_credits : [0, 1, 2, 3].map creditLimit = [128, 64, 16, 16] := by decide +kernel

/-- An idle step lets 1 ns pass. -/
theorem test_idle : (match step (st ready) with | .next t => t.dev.clock.now | _ => 0) = 1 := by decide +kernel

/-- A fetched command is the next step's; a word spells none. -/
theorem test_no_words : decodeTableWord 64 5 = none := rfl

end Sys2Proof.Machine.Tests
end

/-! Faults of instructions (R134, R175), and the checks of an arrival at a barrier (R125). -/

namespace Sys2Proof.Machine

/-- An instruction whose effect is a fault with a code faults its block at once, where no earlier access of its lanes is open (R134). -/
theorem IC.gives_blockFault {s : State} {c : Instr} {e : Ent} {op : Nat} {w : IWord} {sp : OpSpec} {f : IC → Device → Eff} {i : IC}
    {d d2 : Device} {g : FaultArgs} (hc : exec c s = ixfen e op w sp f s) (h : s.dev.executes e op w sp = some (i, d))
    (ha : i.alone d = true) (hf : f i d = .fault d2 g) (hg : g.code ≠ 0) :
    Gives c s (d2.blockFault e.core i.place i.x.group i.x.mask i.x.pc g) := by
  have ho : i.open_ d = false := by simpa [IC.alone] using ha
  obtain ⟨-, hcore, -⟩ := Device.executes_w h
  unfold Gives
  rw [hc, ixfen, Device.issue_executes h f _ rfl, hf, ← hcore]
  simp [ho, IC.apply, hg, IC.raise]

/-- What the checks of R125 refuse, they refuse with BARRIER_STATE, whatever the arrival would have done. -/
theorem IC.barrier_fault {i : IC} {d : Device} (k : Nat → Eff) (hguard : i.guard ≠ 0) (ha : i.alone d = true)
    (hbad : 15 < i.w.a.toNat ∨ Tab.get 0 i.b.arrived (i.w.a.toNat * 32 + i.x.group) &&& i.guard ≠ 0) :
    i.barrier d k = .fault d { code := 0x41, arg2 := i.w.a.toNat } := by
  have ho : i.open_ d = false := by simpa [IC.alone] using ha
  have hcheck : i.w.a.toNat ≥ 16 ∨ Tab.get 0 i.b.arrived (i.w.a.toNat * 32 + i.x.group) &&& i.guard ≠ 0 := hbad
  simp only [IC.barrier, hguard, ho, hcheck, if_true, if_false, Bool.false_eq_true]

/-- Settles O24: both instructions share the checks of `IC.barrier`, which fault before either arrives. -/
theorem barrierState : Obligations.BarrierState := by
  intro e w s i d hguard ha hbad
  refine ⟨fun h => ?_, fun h => ?_⟩ <;> obtain ⟨rfl, -⟩ := Device.executes_w h
  · exact IC.gives_blockFault rfl h ha (by simp only [ixBar, IC.barrier_fault _ hguard ha hbad]) (by simp)
  · exact IC.gives_blockFault rfl h ha (by simp only [ixArrive, IC.barrier_fault _ hguard ha hbad]) (by simp)

end Sys2Proof.Machine

/-! Grids (R101), and the values of DISP_CFG that govern a kernel on a die (R111). -/

namespace Sys2Proof.Machine

/-! The blocks of a grid -/

/-- A linear block index and the block's coordinates determine each other (R101). -/
theorem Kernel.block_coordinates (k : Kernel) (ki b core epoch : Nat) (quarters : List Nat) (hb : b < k.gx * k.gy * k.gz) :
    let x := k.block ki b core epoch quarters
    x.lin = b ∧ b = x.x + k.gx * (x.y + k.gy * x.z) ∧ x.x < k.gx ∧ x.y < k.gy ∧ x.z < k.gz := by
  have hpos : 0 < k.gx * k.gy * k.gz := by omega
  have hxy : 0 < k.gx * k.gy := Nat.pos_of_mul_pos_right hpos
  refine ⟨rfl, ?_, Nat.mod_lt _ (Nat.pos_of_mul_pos_right hxy), Nat.mod_lt _ (Nat.pos_of_mul_pos_left hxy), Nat.div_lt_of_lt_mul hb⟩
  calc b = b % k.gx + k.gx * (b / k.gx) := (Nat.mod_add_div ..).symm
    _ = b % k.gx + k.gx * (b / k.gx % k.gy + k.gy * (b / k.gx / k.gy)) := by rw [Nat.mod_add_div (b / k.gx)]
    _ = b % k.gx + k.gx * (b / k.gx % k.gy + k.gy * (b / (k.gx * k.gy))) := by rw [Nat.div_div_eq_div_mul]

/-! Grids beyond 2^32 blocks -/

/-- A kernel of more than 2^32 blocks breaks the rules of R101. -/
theorem Kernel.ok_of_large_grid (k : Kernel) (h : 2 ^ 32 < k.gx * k.gy * k.gz) : k.ok = false := by
  have hblocks : ¬ k.blocks ≤ 2 ^ 32 := Nat.not_le.mpr h
  simp only [Kernel.ok, hblocks, decide_false, Bool.and_false, Bool.false_and]

/-- A kernel whose grid is too large is not started: its descriptor is read, and that is all. -/
theorem Device.kernelStart_large_grid {d d2 : Device} {q id : Nat} {p b : Bytes} (ptr map : Nat) (inst : Option (Nat × Nat)) (early : Bool)
    (hread : d.entRead q id (fieldLe p 0 8) 64 = (d2, .ok (some b)))
    (hgrid : 2 ^ 32 < fieldLe p 16 4 * fieldLe p 20 2 * fieldLe p 22 2) :
    d.kernelStart q id ptr map inst early p = (d2, .error 3) := by
  have hok : (kernelOf b p (d2.queue q).hoop q id ptr map inst early).ok = false := Kernel.ok_of_large_grid _ hgrid
  simp only [Device.kernelStart, hread, hok, Bool.not_false, Bool.or_true, if_true]

/-- A LAUNCH whose grid is too large counts as a kernel that retired, and its entry ends with INVALID_PARAMETER. -/
theorem launch_large_grid {q : Nat} {s : State} {e : Entry} {d2 : Device} {b : Bytes} (he : s.dev.startable q 0x01 = some e)
    (hread : (s.dev.begin_ q e.id).entRead q e.id (fieldLe (slice e.bytes 8 24) 0 8) 64 = (d2, .ok (some b)))
    (hgrid : 2 ^ 32 < fieldLe (slice e.bytes 8 24) 16 4 * fieldLe (slice e.bytes 8 24) 20 2 * fieldLe (slice e.bytes 8 24) 22 2) :
    Gives (.launch q) s (((d2.countKernel (d2.queue q).hoop (d2.queue q).cls).finish q e.id 3).settleSlot q).serveCredits := by
  show execLaunch q s = _
  simp only [execLaunch, Device.onEntry, he, Device.beginBy, Device.kernelStart_large_grid _ _ _ _ hread hgrid, State.done_eq]

/-- A kernel node whose predecessors have completed and whose grid is too large ends with INVALID_PARAMETER. -/
theorem Device.startNode_large_grid {d d2 : Device} {i n : Nat} {x : Inst} {r : RNode} {y : INode} {b : Bytes} (hx : d.inst? i = some x)
    (hr : d.rnode? x n = some r) (hy : Tab.find? x.nodes n = some y) (htype : r.type = 1) (hcounter : y.counter = 0)
    (hread : d.entRead x.queue x.entry (fieldLe y.params 0 8) 64 = (d2, .ok (some b)))
    (hgrid : 2 ^ 32 < fieldLe y.params 16 4 * fieldLe y.params 20 2 * fieldLe y.params 22 2) :
    d.startNode i n = ((d2.modNode i n (fun y => { y with started := true, since := d2.stamp x.hoop })).countKernel x.hoop
      (d.queue x.queue).cls).nodeDone i n 3 0 := by
  simp only [Device.startNode, hx, hr, hy, htype, Device.kernelStart_large_grid _ _ _ _ hread hgrid, hcounter, if_true]

/-! The values that govern a kernel on a die -/

theorem Device.dispCfg_of_find?_some (d : Device) {k : Kernel} {die : Nat} {c : Nat × Nat} (h : Tab.find? k.cfg die = some c) :
    d.dispCfg k die = c := by simp only [Device.dispCfg, h]

theorem Device.dispCfg_of_find?_none (d : Device) {k : Kernel} {die : Nat} (h : Tab.find? k.cfg die = none) :
    d.dispCfg k die = (d.rd Reg.DISP_CFG_STAGGER_FC die, d.rd Reg.DISP_CFG_RUN_BLOCKS die) := by simp only [Device.dispCfg, h]

@[simp] theorem Device.ringCtl_cores (d : Device) (a b : Nat) : (d.ringCtl a b).cores = d.cores := rfl

/-- The messages of claims leave the cores as they are. -/
@[simp] theorem Device.claimTraffic_cores (d : Device) (k k' : Kernel) : (d.claimTraffic k k').cores = d.cores :=
  List.foldlRecOn (motive := fun z : Device => z.cores = d.cores) _ _ rfl fun _ hz _ _ =>
    List.foldlRecOn (motive := fun z : Device => z.cores = d.cores) _ _ hz fun _ hy _ _ => hy

@[simp] theorem Device.claimTraffic_core (d : Device) (k k' : Kernel) (c : Nat) : (d.claimTraffic k k').core c = d.core c := by
  simp only [Device.core, Device.claimTraffic_cores]

@[simp] theorem Device.freeCore_work (d : Device) (c : Nat) : (d.freeCore c).work = d.work := rfl

/-- Cores that become free leave the work tables as they are. -/
@[simp] theorem Device.freeIdle_work (d : Device) (ki : Nat) : (d.freeIdle ki).work = d.work := by
  unfold Device.freeIdle
  split
  · rfl
  · refine List.foldlRecOn (motive := fun z : Device => z.work = d.work) _ _ rfl fun z hz c _ => ?_
    split
    · rwa [Device.freeCore_work]
    · exact hz

/-- A kernel of a LAUNCH that a core is given a block of keeps, for the core's die, the values that governed it there until then (R111): they are
read before anything else, the kernel is stored with them, and only cores that become free come after that. -/
theorem Device.giveBlock_keeps_dispCfg {d : Device} {core ki b p : Nat} {k k2 : Kernel} {c2 : Core} (htake : k.take (coreDie core) = some (b, k2))
    (hplace : (d.core core).freePlace k.resident = some p)
    (hents : (d.core core).takeEnts p k.code k.threads
      ((placeGroups k.groups ((List.range 4).map ((d.core core).placesFree k))).mapIdx (fun g q => (g, q))) = some c2) (hinst : k.inst = none) :
    ((d.giveBlock core ki k).kernel? ki).bind (fun k => Tab.find? k.cfg (coreDie core)) = some (d.dispCfg k (coreDie core)) := by
  simp [Device.giveBlock, htake, hplace, hents, hinst, Device.kernel?, Device.setKernel]

/-! Writes of DISP_CFG -/

/-- The register of Table 15-3 that holds both fields (R110). -/
def dispCfgReg : RegD := ⟨"DISP_CFG", 0x21000, 0x8, 4, 64, [Reg.DISP_CFG_STAGGER_FC] ++ [Reg.DISP_CFG_RUN_BLOCKS]⟩

theorem findReg_dispCfg {die : Nat} (h : die < 4) : findReg (0x21000 + 8 * die) = some (dispCfgReg, die, 0) := by
  interval_cases die <;> rfl

/-- A write of all bits of an RW field gives it the value's bits. -/
theorem Fld.written_of_covered (f : Fld) (locked : Bool) (old mask v : Nat) (hacc : f.acc = .rw)
    (hmask : bits mask (f.lo + f.width - 1) f.lo = 2 ^ f.width - 1) (hw : 0 < f.width) :
    f.written locked old mask v % 2 ^ f.width = bits v (f.lo + f.width - 1) f.lo := by
  have hwidth : f.lo + f.width - 1 + 1 - f.lo = f.width := by omega
  have hbits : bits v (f.lo + f.width - 1) f.lo < 2 ^ f.width := by
    simp only [bits, hwidth]; exact Nat.mod_lt _ (Nat.two_pow_pos _)
  have hold : old - old % 2 ^ f.width = 2 ^ f.width * (old / 2 ^ f.width) := by have := Nat.mod_add_div old (2 ^ f.width); omega
  simp [Fld.written, hacc, hmask, Acc.apply, Nat.and_two_pow_sub_one_eq_mod, hold, Nat.mod_eq_of_lt hbits]

/-- The fields that a write of DISP_CFG reaches: a RUN_BLOCKS of 0 or above 64 is left out (R111). -/
def dispCfgWritten (v : Nat) : List Fld :=
  if v / 256 = 0 ∨ 64 < v / 256 then [Reg.DISP_CFG_STAGGER_FC] else [Reg.DISP_CFG_STAGGER_FC, Reg.DISP_CFG_RUN_BLOCKS]

theorem Device.regWrite_dispCfg (d : Device) (die : Nat) {v : Nat} (hv : v < 2 ^ 15) :
    d.regWrite dispCfgReg die (2 ^ 64 - 1) v = d.writeFields (dispCfgWritten v) false die (2 ^ 64 - 1) v := by
  have hrun : bits v 14 8 = v / 256 := by simp only [bits]; omega
  have hstep : d.regWrite dispCfgReg die (2 ^ 64 - 1) v = if bits v 14 8 == 0 || bits v 14 8 > 64
      then d.writeFields [Reg.DISP_CFG_STAGGER_FC] false die (2 ^ 64 - 1) v
      else d.writeFields [Reg.DISP_CFG_STAGGER_FC, Reg.DISP_CFG_RUN_BLOCKS] false die (2 ^ 64 - 1) v := rfl
  rw [hstep, hrun, dispCfgWritten]
  simp only [gt_iff_lt, Bool.or_eq_true, beq_iff_eq, decide_eq_true_eq]
  split <;> rfl

/-- A value below 2^15 sets no reserved bit of DISP_CFG, and the write of a whole register is one piece (R11, R384). -/
theorem Device.placeWrite_dispCfg (d : Device) {die v : Nat} (hdie : die < 4) (hv : v < 2 ^ 15) :
    d.placeWrite (0x21000 + 8 * die) 8 v = some (d.writeFields (dispCfgWritten v) false die (2 ^ 64 - 1) v) := by
  have hpieces : pieces (0x21000 + 8 * die) 8 = [(0, 0x21000 + 8 * die, 8)] := by
    simp [pieces, findReg_dispCfg hdie, dispCfgReg]
  have hreached : dispCfgReg.reached (0x21000 + 8 * die) 8 = true := by
    simp [RegD.reached, dispCfgReg]
  have hcovered : v &&& dispCfgReg.covered = v := by
    rw [show dispCfgReg.covered = 2 ^ 15 - 1 from rfl, Nat.and_two_pow_sub_one_eq_mod, Nat.mod_eq_of_lt hv]
  rw [← d.regWrite_dispCfg die hv]
  simp (disch := omega) [Device.placeWrite, hpieces, findReg_dispCfg hdie, hreached, Nat.mod_eq_of_lt, hcovered]

/-- A write of DISP_CFG by the PF of a module in READY writes its fields and does nothing else. -/
theorem registerWrite_dispCfg {s : State} {die : Nat} {v : W64} (hopen : s.dev.regOpen 0 = true) (hstage : s.dev.stage = 4) (hdie : die < 4)
    (hv : v.toNat < 2 ^ 15) :
    Gives (.registerWrite 0 (.bar 0 (0x21000 + 8 * die)) 8 v) s
      (s.dev.writeFields (dispCfgWritten v.toNat) false die (2 ^ 64 - 1) v.toNat) := by
  have hvectors : ¬ 0x21000 + 8 * die < 0x10000 + 16 * 256 := by omega
  have hplace : barPlace 0 (0x21000 + 8 * die) = some (0x21000 + 8 * die) := by
    rw [barPlace, if_pos rfl, if_neg (by omega), if_pos (by omega)]
  have hdecodes : s.dev.decodes (0x21000 + 8 * die) = true := by
    simp only [Device.decodes, hstage, if_true, Bool.or_eq_true, decide_eq_true_eq]; omega
  have hwrite : s.writeAt 0 (0x21000 + 8 * die) 8 v.toNat
      = s.done (s.dev.writeFields (dispCfgWritten v.toNat) false die (2 ^ 64 - 1) v.toNat) := by
    simp only [State.writeAt, hopen, hdecodes, Bool.and_self, if_true, Device.placeWrite_dispCfg _ hdie hv, State.ofWrite]
  show execRegisterWrite 0 (.bar 0 (0x21000 + 8 * die)) 8 v s = _
  simp (disch := omega) [execRegisterWrite, State.barWrite, hvectors, hplace, Nat.mod_eq_of_lt, hwrite, hstage]

theorem Device.writeFields_cons (d : Device) (f : Fld) (l : List Fld) (locked : Bool) (i mask v : Nat) :
    d.writeFields (f :: l) locked i mask v = (if bits mask (f.lo + f.width - 1) f.lo = 0 then d
      else d.wr f i (f.written locked (d.rd f i) mask v)).writeFields l locked i mask v := rfl

/-- A write of some fields leaves one with another place as it was. -/
theorem Device.rd_writeFields_of_ne (d : Device) (g : Fld) (l : List Fld) (locked : Bool) (i j mask v : Nat) (h : ∀ f ∈ l, g.key j ≠ f.key i) :
    (d.writeFields l locked i mask v).rd g j = d.rd g j := by
  induction l generalizing d with
  | nil => rfl
  | cons f l ih =>
    rw [Device.writeFields_cons, ih _ fun x hx => h x (List.mem_cons_of_mem _ hx)]
    split
    · rfl
    · exact d.rd_wr_ne f g i j _ (h f (List.mem_cons_self ..))

/-- A write of all bits of an RW field that comes first, and whose place no later field shares, leaves the value's bits in it. -/
theorem Device.rd_writeFields_head (d : Device) (f : Fld) (l : List Fld) (locked : Bool) (i mask v : Nat) (hacc : f.acc = .rw)
    (hmask : bits mask (f.lo + f.width - 1) f.lo = 2 ^ f.width - 1) (hw : 0 < f.width) (hl : ∀ g ∈ l, f.key i ≠ g.key i) :
    (d.writeFields (f :: l) locked i mask v).rd f i = bits v (f.lo + f.width - 1) f.lo := by
  have hpos : 2 ^ f.width - 1 ≠ 0 := by have := Nat.one_lt_two_pow hw.ne'; omega
  rw [Device.writeFields_cons, Device.rd_writeFields_of_ne _ _ _ _ _ _ _ _ hl, hmask, if_neg hpos, Device.rd_wr_same,
    Fld.written_of_covered f locked _ mask v hacc hmask hw]

/-- The two fields of DISP_CFG have places of their own. -/
theorem dispCfg_key_ne (die : Nat) : Reg.DISP_CFG_RUN_BLOCKS.key die ≠ Reg.DISP_CFG_STAGGER_FC.key die := by
  simp only [Fld.key, Reg.DISP_CFG_RUN_BLOCKS, Reg.DISP_CFG_STAGGER_FC]; omega

/-- STAGGER_FC takes bits 7:0 of a write of DISP_CFG, whatever RUN_BLOCKS is. -/
theorem Device.rd_stagger_dispCfgWritten (d : Device) (die v : Nat) :
    (d.writeFields (dispCfgWritten v) false die (2 ^ 64 - 1) v).rd Reg.DISP_CFG_STAGGER_FC die = v % 256 := by
  have hbits : bits v 7 0 = v % 256 := by simp only [bits]; omega
  rw [dispCfgWritten]
  split
  · exact (d.rd_writeFields_head Reg.DISP_CFG_STAGGER_FC [] false die _ v rfl rfl (by decide) (by simp)).trans hbits
  · exact (d.rd_writeFields_head Reg.DISP_CFG_STAGGER_FC [Reg.DISP_CFG_RUN_BLOCKS] false die _ v rfl rfl (by decide)
      (by simpa using (dispCfg_key_ne die).symm)).trans hbits

/-- RUN_BLOCKS takes bits 14:8 of a write of DISP_CFG, unless they are 0 or above 64 (R111). -/
theorem Device.rd_run_dispCfgWritten (d : Device) (die : Nat) {v : Nat} (hv : v < 2 ^ 15) :
    (d.writeFields (dispCfgWritten v) false die (2 ^ 64 - 1) v).rd Reg.DISP_CFG_RUN_BLOCKS die
      = if v / 256 = 0 ∨ 64 < v / 256 then d.rd Reg.DISP_CFG_RUN_BLOCKS die else v / 256 := by
  have hbits : bits v 14 8 = v / 256 := by simp only [bits]; omega
  rw [dispCfgWritten]
  split
  · exact d.rd_writeFields_of_ne _ _ _ _ _ _ _ (by simpa using dispCfg_key_ne die)
  · rw [Device.writeFields_cons]
    exact (Device.rd_writeFields_head _ Reg.DISP_CFG_RUN_BLOCKS [] false die _ v rfl rfl (by decide) (by simp)).trans hbits

/-- Settles O47: the coordinates of a block by division, the refused grids by the rules a descriptor must keep (R65), and DISP_CFG by what a kernel
holds for a die and by the fields that a write reaches. -/
theorem gridAndDispatch : Obligations.GridAndDispatch := by
  unfold Obligations.GridAndDispatch
  refine ⟨Kernel.block_coordinates, ?largeGrid, ?launch, ?node, ?governed, ?kept, ?written⟩
  case largeGrid => exact fun _ _ _ _ ptr map inst early _ _ hread hgrid => Device.kernelStart_large_grid ptr map inst early hread hgrid
  case launch => exact fun _ _ _ _ _ he hread hgrid => launch_large_grid he hread hgrid
  case node => exact fun _ _ _ _ _ _ _ _ hx hr hy ht hc hread hgrid => Device.startNode_large_grid hx hr hy ht hc hread hgrid
  case governed => exact fun d _ _ => ⟨fun _ => d.dispCfg_of_find?_some, d.dispCfg_of_find?_none⟩
  case kept => exact fun _ _ _ _ _ _ _ _ ht hp he hi => Device.giveBlock_keeps_dispCfg ht hp he hi
  case written => exact fun s die v ho hs hd hv =>
    ⟨_, registerWrite_dispCfg ho hs hd hv, s.dev.rd_stagger_dispCfgWritten die _, s.dev.rd_run_dispCfgWritten die hv⟩

end Sys2Proof.Machine

/-! Special functions (R154, R155): what their operands decode to, the exact powers of two, and the exact values of Table 5-10. -/

namespace Sys2Proof.Machine

/-! FP32 encodings (R194, Table 7-1) -/

/-- The three fields of an FP32 encoding, in numbers. -/
theorem fp32_decode (v : Nat) : fp32.decode v =
    if v / 2 ^ 23 % 256 = 255 then (if v % 2 ^ 23 = 0 then .inf (v.testBit 31) else .nan)
    else if v / 2 ^ 23 % 256 = 0 then .fin (v.testBit 31) (v % 2 ^ 23) (-149)
    else .fin (v.testBit 31) (2 ^ 23 + v % 2 ^ 23) ((v / 2 ^ 23 % 256 : Nat) - 150) := by
  split_ifs with hspecial hfrac hsub <;> simp_all [Fmt.decode, fp32, bits, sub_sub]

/-- The sign bit added to an encoding without one negates the value. -/
theorem fp32_decode_add_sign {v : Nat} (h : v < 2 ^ 31) : fp32.decode (v + 2 ^ 31) = (fp32.decode v).neg := by
  have hfrac : (v + 2 ^ 31) % 2 ^ 23 = v % 2 ^ 23 := by omega
  have hexp : (v + 2 ^ 31) / 2 ^ 23 % 256 = v / 2 ^ 23 % 256 := by omega
  have hsign : (v + 2 ^ 31).testBit 31 = true := by rw [Nat.add_comm, Nat.testBit_two_pow_add_eq, Nat.testBit_lt_two_pow h]; rfl
  rw [fp32_decode, fp32_decode, hfrac, hexp, hsign, Nat.testBit_lt_two_pow h]
  split_ifs <;> rfl

/-- An encoding whose magnitude lies above that of infinity is a NaN. -/
theorem fp32_decode_nan {v : Nat} (h : 0x7F800000 < v % 2 ^ 31) : fp32.decode v = .nan := by
  have hexp : v / 2 ^ 23 % 256 = 255 := by omega
  have hfrac : v % 2 ^ 23 ≠ 0 := by omega
  rw [fp32_decode, if_pos hexp, if_neg hfrac]

/-- An encoding below infinity is a finite value without a sign. -/
theorem fp32_decode_finite {v : Nat} (h : v < 0x7F800000) : ∃ m e, fp32.decode v = .fin false m e ∧ (m = 0 → v = 0) := by
  have hexp : v / 2 ^ 23 % 256 ≠ 255 := by omega
  rw [fp32_decode, if_neg hexp, Nat.testBit_lt_two_pow (x := v) (i := 31) (by omega)]
  split_ifs
  · exact ⟨_, _, rfl, by omega⟩
  · exact ⟨_, _, rfl, by omega⟩

/-- No finite FP32 value has an exponent above that of the largest. -/
theorem fp32_decode_exp_le {v m : Nat} {s : Bool} {e : Int} (h : fp32.decode v = .fin s m e) : e ≤ 104 := by
  rw [fp32_decode] at h
  split_ifs at h <;> simp only [FVal.fin.injEq] at h <;> omega

/-! Powers of two, rounded to FP32 (R203) -/

theorem dyLt_eq_false {a b : Nat} {e g : Int} (hexp : g ≤ e) (h : b ≤ a) : dyLt a e b g = false := by
  have hb : b ≤ a * 2 ^ (e - g).toNat := h.trans (Nat.le_mul_of_pos_right a (Nat.two_pow_pos _))
  simp [dyLt, min_eq_right hexp, hb]

/-- A power of two up to 2^127 does not reach the halfway point above the largest finite value. -/
theorem dyLt_two_pow_overflow {k : Int} (h : k ≤ 127) : dyLt 1 k (2 * (2 ^ 24 - 1) + 1) (104 - 1) = true := by
  rw [show (104 - 1 : Int) = 103 from rfl]
  rcases le_total k 103 with hk | hk
  · have : 0 < 2 ^ (103 - k).toNat := Nat.two_pow_pos _
    simp only [dyLt, min_eq_left hk, sub_self, Int.toNat_zero, decide_eq_true_eq]
    omega
  · have : 2 ^ (k - 103).toNat ≤ 2 ^ 24 := Nat.pow_le_pow_right two_pos (by omega)
    simp only [dyLt, min_eq_right hk, sub_self, Int.toNat_zero, decide_eq_true_eq]
    omega

/-- Rounding takes 2^k as it is where it is a multiple of the last place. -/
theorem roundMag_two_pow (draw : Nat) {k q : Int} (h : q ≤ k) : roundMag 0 draw false 1 k q false = (2 ^ (k - q).toNat, false) := by
  simp [roundMag, h]

/-- How 2^k comes out of rounding: as the multiple n of the last place 2^q that it is. -/
theorem fp32_round_two_pow {k q : Int} {n : Nat} (hk : k ≤ 127) (hq : q = max k (-126) - 23) (hqk : q ≤ k) (hn : n = 2 ^ (k - q).toNat)
    (hlast : n ≤ 2 ^ 24 - 1) : (fp32.round 0 false 0 false 1 k).1
      = if q = -149 ∧ n < 2 ^ 23 then n else (q + Nat.log2 n + 127).toNat * 2 ^ 23 + (n * 2 ^ 23 / 2 ^ Nat.log2 n - 2 ^ 23) := by
  have htop : max (k + (Nat.log2 1 : Nat)) (1 - (fp32.bias : Int)) - (fp32.mb : Int) = q := by
    rw [hq, show Nat.log2 1 = 0 from rfl]; simp [fp32]
  have hpos : n ≠ 0 := hn ▸ (Nat.two_pow_pos _).ne'
  have hover : dyLt (2 ^ 24 - 1) 104 n q = false := dyLt_eq_false (by omega) hlast
  have hhalf := dyLt_two_pow_overflow hk
  have hmaxN : 2 ^ fp32.mb + fp32.maxCode % 2 ^ fp32.mb = 2 ^ 24 - 1 := rfl
  have hmaxQ : ((fp32.maxCode / 2 ^ fp32.mb : Nat) : Int) - fp32.bias - fp32.mb = 104 := by decide
  have hmin : 1 - (fp32.bias : Int) - fp32.mb = -149 := rfl
  have hmb : fp32.mb = 23 := rfl
  have hbias : fp32.bias = 127 := rfl
  simp only [Fmt.round, htop, roundMag_two_pow 0 hqk, ← hn, hmaxN, hmaxQ, hover, hhalf, one_ne_zero, hpos, hmin, Fmt.sign]
  simp [hmb, hbias]

/-- 2^k in the normal range is the exponent field alone. -/
theorem fp32_round_two_pow_normal {k : Int} (hlo : -126 ≤ k) (hhi : k ≤ 127) :
    (fp32.round 0 false 0 false 1 k).1 = (k + 127).toNat * 2 ^ 23 := by
  have hn : 2 ^ 23 = 2 ^ (k - (k - 23)).toNat := by rw [sub_sub_cancel]; rfl
  have hlog : Nat.log2 (2 ^ 23) = 23 := Nat.log2_two_pow
  rw [fp32_round_two_pow hhi (q := k - 23) (by omega) (by omega) hn (by norm_num), if_neg (by omega), hlog,
    Nat.mul_div_cancel _ (Nat.two_pow_pos 23), Nat.sub_self]
  rw [show k - 23 + (23 : Nat) + 127 = k + 127 by omega, Nat.add_zero]

/-- 2^k below the normal range is one bit of the fraction. -/
theorem fp32_round_two_pow_subnormal {k : Int} (hlo : -149 ≤ k) (hhi : k < -126) :
    (fp32.round 0 false 0 false 1 k).1 = 2 ^ (k + 149).toNat := by
  have hn : 2 ^ (k + 149).toNat < 2 ^ 23 := Nat.pow_lt_pow_right one_lt_two (by omega)
  rw [fp32_round_two_pow (by omega) (q := -149) (by omega) hlo rfl (by rw [sub_neg_eq_add]; omega), sub_neg_eq_add, if_pos ⟨rfl, hn⟩]

/-! The exact values of Table 5-10 -/

/-- What a special function delivers where Table 5-10 fixes it. -/
theorem sfu_of_exact {k a r : Nat} (h : sfuExact k (fp32.decode a) = some r) : (sfu k a).1 = r := by
  simp only [sfu, h]

/-- A NaN gives the canonical NaN. -/
theorem sfu_nan {k v : Nat} (h : 0x7F800000 < v % 2 ^ 31) : (sfu k v).1 = 0x7FC00000 :=
  sfu_of_exact (by rw [fp32_decode_nan h]; rfl)

/-- RSQ, SQRT and LOG2 have no value for a finite operand below 0. -/
theorem sfu_negative {k v : Nat} (hlo : 2 ^ 31 < v) (hhi : v < 2 ^ 31 + 0x7F800000) (hk : k = 1 ∨ k = 2 ∨ k = 4) :
    (sfu k v).1 = 0x7FC00000 := by
  obtain ⟨u, rfl⟩ := Nat.exists_eq_add_of_lt hlo
  obtain ⟨m, e, hdec, hzero⟩ := fp32_decode_finite (v := u + 1) (by omega)
  have hm : m ≠ 0 := fun h => absurd (hzero h) (by omega)
  apply sfu_of_exact
  rw [show 2 ^ 31 + u + 1 = u + 1 + 2 ^ 31 by omega, fp32_decode_add_sign (by omega), hdec]
  simp only [sfuExact, FVal.neg, hm, if_false, hk, Bool.not_false, and_self, if_true]
  rfl

/-- The magnitude m × 2^e of an operand where it is an integer. The model cuts the exponent at 300, which no FP32 value reaches. -/
def integerOf (m : Nat) (e : Int) : Option Nat :=
  if 0 ≤ e then some (m * 2 ^ (min e 300).toNat) else if m % 2 ^ (-e).toNat = 0 then some (m / 2 ^ (-e).toNat) else none

theorem integerOf_eq_some {m n : Nat} {e : Int} (he : e ≤ 300)
    (h : (0 ≤ e ∧ n = m * 2 ^ e.toNat) ∨ (e < 0 ∧ m = n * 2 ^ (-e).toNat)) : integerOf m e = some n := by
  rcases h with ⟨hpos, rfl⟩ | ⟨hneg, rfl⟩
  · rw [integerOf, if_pos hpos, min_eq_left he]
  · rw [integerOf, if_neg (by omega), if_pos (Nat.mul_mod_left ..), Nat.mul_div_cancel _ (Nat.two_pow_pos _)]

theorem ne_zero_of_integerOf {m n : Nat} {e : Int} (h : integerOf m e = some n) (hn : n ≠ 0) : m ≠ 0 := by
  rintro rfl
  have hzero : integerOf 0 e = some 0 := by simp [integerOf]
  exact hn (Option.some.inj (h.symm.trans hzero))

/-- Of a finite operand other than 0, SINPI is exact at the integers. -/
theorem sfuExact_sinpi {m : Nat} (hm : m ≠ 0) (s : Bool) (e : Int) :
    sfuExact 5 (.fin s m e) = (integerOf m e).map (fun n => fp32.sign (s != (n % 2 == 1))) := by
  by_cases he : 0 ≤ e <;> by_cases hd : m % 2 ^ (-e).toNat = 0 <;> simp [sfuExact, integerOf, hm, he, hd]

/-- So is COSPI. -/
theorem sfuExact_cospi {m : Nat} (hm : m ≠ 0) (s : Bool) (e : Int) :
    sfuExact 6 (.fin s m e) = (integerOf m e).map (fun n => if n % 2 = 1 then 0x80000000 + 0x3F800000 else 0x3F800000) := by
  by_cases he : 0 ≤ e <;> by_cases hd : m % 2 ^ (-e).toNat = 0 <;> simp [sfuExact, integerOf, hm, he, hd]

/-- EXP2 is exact at the integers j for which FP32 has a value 2^j. -/
theorem sfu_exp2_integer {v m n : Nat} {s : Bool} {e j : Int} (hdec : fp32.decode v = .fin s m e) (hm : m ≠ 0) (hint : integerOf m e = some n)
    (hj : j = if s then -(n : Int) else n) (hlo : -149 ≤ j) (hhi : j ≤ 127) : (sfu 3 v).1 = (fp32.round 0 false 0 false 1 j).1 := by
  apply sfu_of_exact
  subst hj
  rw [hdec]
  by_cases he : 0 ≤ e
  · simp only [integerOf, he, if_true, Option.some.injEq] at hint
    simp [sfuExact, hm, he, hint, hlo, hhi]
  · by_cases hd : m % 2 ^ (-e).toNat = 0 <;> simp only [integerOf, he, hd, if_true, if_false, Option.some.injEq, reduceCtorEq] at hint
    simp [sfuExact, hm, he, hd, hint, hlo, hhi]

/-- What a special function delivers where the manual gives a bound only (R154). -/
theorem sfu_of_bounded {k a m : Nat} {s : Bool} {e : Int} (hdec : fp32.decode a = .fin s m e) (h : sfuExact k (.fin s m e) = none) :
    (sfu k a).1 = (let fold := k = 5 ∨ k = 6
      let r := sfuPick k (if fold then a % 2 ^ 31 else a) m e (sfuTrue k (s && !fold) m e)
      if k = 5 ∧ s then (r + 2 ^ 31) % 2 ^ 32 else r) := by
  simp only [sfu, hdec, h]

/-- Turning the sign of a zero flips its top bit. -/
theorem fp32_sign_flip (b : Bool) : fp32.sign (true != b) = (fp32.sign (false != b) + 2 ^ 31) % 2 ^ 32 := by
  cases b <;> decide

/-- The exact values of SINPI are odd. -/
theorem sfuExact_sinpi_neg (m : Nat) (e : Int) :
    sfuExact 5 (.fin true m e) = (sfuExact 5 (.fin false m e)).map (fun r => (r + 2 ^ 31) % 2 ^ 32) := by
  by_cases hm : m = 0
  · subst hm
    exact congrArg some (fp32_sign_flip false)
  · rw [sfuExact_sinpi hm, sfuExact_sinpi hm]
    cases integerOf m e with
    | none => simp only [Option.map_none]
    | some n => simp only [Option.map_some, fp32_sign_flip]

/-- The exact values of COSPI are even. -/
theorem sfuExact_cospi_neg (a : FVal) : sfuExact 6 a.neg = sfuExact 6 a := by
  cases a with
  | nan => rw [FVal.neg]
  | inf s => simp only [FVal.neg, sfuExact]
  | fin s m e => simp [FVal.neg, sfuExact]

/-- SINPI is odd (R155). -/
theorem sfu_sinpi_neg {v : Nat} (h : v < 0x7F800000) : (sfu 5 (v + 2 ^ 31)).1 = ((sfu 5 v).1 + 2 ^ 31) % 2 ^ 32 := by
  obtain ⟨m, e, hdec, -⟩ := fp32_decode_finite h
  have hneg : fp32.decode (v + 2 ^ 31) = .fin true m e := by rw [fp32_decode_add_sign (by omega), hdec]; rfl
  have hodd := sfuExact_sinpi_neg m e
  cases hex : sfuExact 5 (.fin false m e) with
  | some r =>
    rw [sfu_of_exact (hdec.symm ▸ hex : sfuExact 5 (fp32.decode v) = some r),
      sfu_of_exact (by rw [hneg, hodd, hex]; rfl : sfuExact 5 (fp32.decode (v + 2 ^ 31)) = some ((r + 2 ^ 31) % 2 ^ 32))]
  | none =>
    rw [sfu_of_bounded hdec hex, sfu_of_bounded hneg (by rw [hodd, hex]; rfl)]
    simp

/-- COSPI is even (R155). -/
theorem sfu_cospi_neg {v : Nat} (h : v < 2 ^ 31) : (sfu 6 (v + 2 ^ 31)).1 = (sfu 6 v).1 := by
  have hneg := fp32_decode_add_sign h
  have heven := sfuExact_cospi_neg (fp32.decode v)
  cases hex : sfuExact 6 (fp32.decode v) with
  | some r => rw [sfu_of_exact hex, sfu_of_exact (hneg ▸ heven.trans hex)]
  | none =>
    cases hdec : fp32.decode v with
    | nan => rw [hdec] at hex; cases hex
    | inf s => rw [hdec] at hex; cases hex
    | fin s m e =>
      rw [hdec] at hneg hex heven
      rw [sfu_of_bounded hdec hex, sfu_of_bounded hneg (heven.trans hex)]
      simp

/-- The instructions of Table 5-9 in the order of their opcodes. -/
def specialInstrs (e : Ent) (w : IWord) : List Instr :=
  [.rcp e w, .rsq e w, .sqrt e w, .exp2 e w, .log2 e w, .sinpi e w, .cospi e w, .tanh e w]

theorem exec_specialInstrs (e : Ent) (w : IWord) {k : Nat} (hk : k < 8) :
    ∃ c, (specialInstrs e w)[k]? = some c ∧ ∀ s, exec c s = special e w k s := by
  interval_cases k <;> exact ⟨_, rfl, fun _ => rfl⟩

/-- Each of them gives its lanes `sfu` of the operand. -/
theorem special_result {e : Ent} {w : IWord} {s : State} {i : IC} {d : Device} {k : Nat} (hk : k < 8)
    (h : s.dev.executes e (0x50 + k) w { d := .v 1, a := .vu 1, ok := modIn w 0x500 } = some (i, d)) :
    ∃ c, (specialInstrs e w)[k]? = some c ∧ i.RoundedResult c s d 1 0 (fun l _ => sfu k (i.fa l)) := by
  obtain ⟨c, hc, hexec⟩ := exec_specialInstrs e w hk
  exact ⟨c, hc, IC.rounded_result (hexec s) h rfl (i.lanewise_eq d 1 _)⟩

/-- Settles O13: the function is `sfu`, whose exact values come before every value that the manual only bounds. -/
theorem specialValues : Obligations.SpecialValues := by
  unfold Obligations.SpecialValues
  refine ⟨sfu, fun _ _ _ _ _ _ hk h => special_result hk h, ?zeroPos, ?zeroNeg, ?infPos, ?infNeg, ?nan, ?negative, ?integer, ?odd, ?even⟩
  case zeroPos => rfl
  case zeroNeg => rfl
  case infPos => rfl
  case infNeg => rfl
  case nan => exact fun _ _ _ _ h => sfu_nan h
  case negative => exact fun _ _ hlo hhi hk => sfu_negative hlo hhi hk
  case integer =>
    intro v n minus m e hdec hn hwhole
    have hint : integerOf m e = some n := integerOf_eq_some ((fp32_decode_exp_le hdec).trans (by norm_num)) hwhole
    have hm : m ≠ 0 := ne_zero_of_integerOf hint hn
    refine ⟨?sinpi, ?cospi, ?exp2, ?exp2Neg, ?exp2Tiny⟩
    case sinpi =>
      have hsign : ∀ p q : Bool, fp32.sign (p != q) = if p = q then 0 else 0x80000000 := by decide
      rw [← hsign]
      exact sfu_of_exact (by rw [hdec, sfuExact_sinpi hm, hint]; rfl)
    case cospi => exact sfu_of_exact (by rw [hdec, sfuExact_cospi hm, hint]; rfl)
    case exp2 =>
      rintro rfl hhi
      rw [sfu_exp2_integer (j := n) hdec hm hint rfl (by omega) (by omega), fp32_round_two_pow_normal (by omega) (by omega)]
      rfl
    case exp2Neg =>
      rintro rfl hhi
      rw [sfu_exp2_integer (j := -n) hdec hm hint rfl (by omega) (by omega), fp32_round_two_pow_normal (by omega) (by omega)]
      congr 1; omega
    case exp2Tiny =>
      rintro rfl hlo hhi
      rw [sfu_exp2_integer (j := -n) hdec hm hint rfl (by omega) (by omega), fp32_round_two_pow_subnormal (by omega) (by omega)]
      congr 1; omega
  case odd => exact fun _ h => sfu_sinpi_neg h
  case even => exact fun _ h => sfu_cospi_neg h

end Sys2Proof.Machine

/-! Ixfen arithmetic: what the shared shapes of effects write, and the statements of Tables 5-5, 5-6 and 5-16 that follow from them. -/

namespace Sys2Proof.Machine

/-! Integer arithmetic -/

/-- An encoded word of a spec that names one type has that type. -/
theorem typeOf_of_intSpec {d d' : Device} {e : Ent} {op t : Nat} {w : IWord} {i : IC} {third : Bool}
    (h : d.executes e op w (intSpec w [t] third) = some (i, d')) : typeOf w = t := by
  have he := (Device.executes_w h).2.2.2.2
  simp only [OpSpec.encoded, intSpec, aluSpec, Bool.and_eq_true] at he
  simpa using he.1.2.1.1

/-- The same for an instruction with one source. -/
theorem typeOf_of_unSpec {d d' : Device} {e : Ent} {op t mask : Nat} {w : IWord} {i : IC}
    (h : d.executes e op w (unSpec w [t] mask) = some (i, d')) : typeOf w = t := by
  have he := (Device.executes_w h).2.2.2.2
  simp only [OpSpec.encoded, unSpec, Bool.and_eq_true] at he
  simpa using he.1.2.1

/-- An integer operation on two sources gives its result in each lane. -/
theorem IC.int2_result {s : State} {c : Instr} {e : Ent} {op : Nat} {w : IWord} {sp : OpSpec} {g : Nat → Nat → Nat} {i : IC}
    {d : Device} (hc : exec c s = ixfen e op w sp (fun i d => i.int2 d g) s)
    (h : s.dev.executes e op w sp = some (i, d)) (hd : sp.d = .v (typeRegs (typeOf w))) :
    i.LaneResult c s d (typeRegs (typeOf w)) (fun l => g (i.a (typeRegs (typeOf w)) l) (i.b_ (typeRegs (typeOf w)) l)) := by
  obtain ⟨rfl, -⟩ := Device.executes_w h
  exact IC.lane_result hc h hd rfl

/-- Settles O8: the five instructions are lane-wise, IMUL to IMAD in one register. -/
theorem integerArithmetic : Obligations.IntegerArithmetic := by
  intro e w s i d
  refine ⟨fun h => IC.int2_result rfl h rfl, fun h => ?isub, fun h => IC.int2_result rfl h rfl, fun h => ?imulhi, fun h => ?imad⟩
  all_goals obtain ⟨rfl, -⟩ := Device.executes_w h
  case isub => exact IC.lane_result rfl h rfl rfl
  case imulhi => exact IC.lane_result rfl h rfl rfl
  case imad =>
    have hd : (intSpec i.w [10] true).d = .v 1 := by simp [intSpec, aluSpec, typeOf_of_intSpec h, typeRegs]
    exact IC.lane_result rfl h hd rfl

/-- A one-register integer operation on two sources gives its result in each lane. -/
theorem IC.int2_result_one {s : State} {c : Instr} {e : Ent} {op : Nat} {w : IWord} {g : Nat → Nat → Nat} {i : IC} {d : Device}
    (hc : exec c s = ixfen e op w (intSpec w [10]) (fun i d => i.int2 d g) s)
    (h : s.dev.executes e op w (intSpec w [10]) = some (i, d)) : i.LaneResult c s d 1 (fun l => g (i.a 1 l) (i.b_ 1 l)) := by
  have hr := IC.int2_result hc h rfl
  rwa [typeOf_of_intSpec h] at hr

/-- A one-register operation on one source gives its result in each lane. -/
theorem IC.un_result_one {s : State} {c : Instr} {e : Ent} {op mask : Nat} {w : IWord} {g : IC → Nat → Nat} {i : IC} {d : Device}
    (hc : exec c s = ixfen e op w (unSpec w [10] mask) (fun i d => i.lanewise d 1 (fun l => (g i l, 0))) s)
    (h : s.dev.executes e op w (unSpec w [10] mask) = some (i, d)) : i.LaneResult c s d 1 (g i) :=
  IC.lane_result hc h (by simp [unSpec, typeOf_of_unSpec h, typeRegs]) rfl

/-- Settles O9: each operation is lane-wise in one register; SHR takes its sign extension from UNS. -/
theorem bitwiseAndShift : Obligations.BitwiseAndShift := by
  intro e w s i d
  refine ⟨IC.int2_result_one rfl, IC.int2_result_one rfl, IC.int2_result_one rfl, IC.int2_result_one (g := andn) rfl, IC.int2_result_one (g := shiftLeft) rfl,
    fun h => ?shr, IC.un_result_one (g := fun i l => popcount 32 (i.a 1 l)) rfl,
    IC.un_result_one (g := fun i l => if i.a 1 l = 0 then 32 else 31 - Nat.log2 (i.a 1 l)) rfl,
    IC.un_result_one (g := fun i l => revBits 32 (i.a 1 l)) rfl⟩
  case shr =>
    obtain ⟨rfl, -⟩ := Device.executes_w h
    have hd : (intSpec i.w [10]).d = .v 1 := by simp [intSpec, aluSpec, typeOf_of_intSpec h, typeRegs]
    refine IC.lane_result rfl h hd ?_
    have hn : i.n = 1 := by rw [IC.n, IC.mod]; exact congrArg typeRegs (typeOf_of_intSpec h)
    have hshift : ∀ a b, shiftRight (!i.flag 8) a b = if i.w.mod.toNat.testBit 8 then (if b < 32 then a / 2 ^ b else 0)
        else unsigned 32 (signed 32 a / 2 ^ Nat.min b 32) := by
      intro a b; rw [IC.flag, shiftRight]; cases i.w.mod.toNat.testBit 8 <;> rfl
    simp only [IC.int2, hn, hshift]

/-- Settles O10: each instruction is lane-wise, and its result in a lane is the chosen operand. -/
theorem selectAndMove : Obligations.SelectAndMove := by
  intro e w s i d
  refine ⟨fun h => ?imin, fun h => ?imax, fun h => ?fmin, fun h => ?fmax, fun h => ?sel, fun h => ?mov, fun h => ?xlane, fun h => ?rdsys⟩
  all_goals obtain ⟨rfl, -⟩ := Device.executes_w h
  case xlane =>
    have he := (Device.executes_w h).2.2.2.2
    simp only [OpSpec.encoded, aluSpec, Bool.and_eq_true] at he
    have ht : typeOf i.w = 10 := by simpa using he.1.2.1.1
    exact IC.lane_result rfl h (by simp [aluSpec, ht, typeRegs]) rfl
  all_goals exact IC.lane_result rfl h rfl rfl

/-! Floating point -/

/-- Settles O11: each operation rounds an exact result of its operands. -/
theorem floatArithmetic : Obligations.FloatArithmetic := by
  intro e w s i d
  refine ⟨fun h => ?fadd, fun h => ?fsub, fun h => ?fmul, fun h => ?fma⟩
  all_goals obtain ⟨rfl, -⟩ := Device.executes_w h
  all_goals exact IC.rounded_result rfl h rfl rfl

/-- Settles O12: the instructions of Table 5-9 deliver `sfu` (the lemma that O13 rests on, too). -/
theorem specialFunctions : Obligations.SpecialFunctions := fun _ _ _ _ _ _ hk h => special_result hk h

/-- Whether an instruction executes does not depend on whether it reads its destination: it touches that register anyway. -/
theorem Device.executes_rd (d : Device) (e : Ent) (op : Nat) (w : IWord) (sp : OpSpec) (r : Bool) :
    d.executes e op w { sp with rd := r } = d.executes e op w sp := rfl

/-- Settles O14: both conversions round into the element that DPOS names. -/
theorem converts : Obligations.Converts := by
  intro e w s i d
  refine ⟨fun h => ?cvt, fun h => ?cvts⟩
  all_goals obtain ⟨rfl, -⟩ := Device.executes_w h
  case cvt =>
    rw [← Device.executes_rd _ _ _ _ _ (decide (1 < positions (typeOf i.w)))] at h
    exact IC.rounded_result rfl h rfl rfl
  case cvts => exact IC.rounded_result rfl h rfl rfl

/-! Predicates -/

/-- The bits of a number without those of a mask. -/
theorem testBit_sub_and (a m l : Nat) : (a - (a &&& m)).testBit l = (a.testBit l && !m.testBit l) := by
  have hle : a &&& m ≤ a := Nat.and_le_left
  have hlow := Nat.and_mod_two_eq_one (a := a) (b := m)
  induction l generalizing a m with
  | zero =>
    have hbit : (a - (a &&& m)) % 2 = 1 ↔ a % 2 = 1 ∧ ¬ m % 2 = 1 := by omega
    simp only [Nat.testBit_zero, hbit]
    by_cases ha : a % 2 = 1 <;> by_cases hm : m % 2 = 1 <;> simp [ha, hm]
  | succ l ih =>
    have hhalf : (a - (a &&& m)) / 2 = a / 2 - (a / 2 &&& m / 2) := by
      rw [← Nat.and_div_two]; omega
    rw [Nat.testBit_succ, Nat.testBit_succ, Nat.testBit_succ, hhalf]
    exact ih (a / 2) (m / 2) Nat.and_le_left Nat.and_mod_two_eq_one

theorem Block.setPred_rest (b : Block) (g n mask val : Nat) : ∃ x, b.setPred g n mask val = { b with p := x } := by
  unfold Block.setPred
  split
  · exact ⟨b.p, rfl⟩
  · exact ⟨_, rfl⟩

/-- A written predicate has the written bits in the lanes of the mask, its own elsewhere. -/
theorem Block.pred_setPred_same (b : Block) {g n : Nat} (mask val l : Nat) (hn : n ≠ 0) :
    ((b.setPred g n mask val).pred g n).testBit l = if mask.testBit l then val.testBit l else (b.pred g n).testBit l := by
  have hval : (b.setPred g n mask val).pred g n = (b.pred g n - (b.pred g n &&& mask)) ||| (val &&& mask) := by
    simp [Block.pred, Block.setPred, hn]
  rw [hval, Nat.testBit_or, testBit_sub_and, Nat.testBit_and]
  cases mask.testBit l <;> simp

/-- Every other predicate stays. -/
theorem Block.pred_setPred_ne (b : Block) {g n x m : Nat} (mask val : Nat) (hn : n < 8) (hm : m < 8) (h : x ≠ g ∨ m ≠ n ∨ m = 0) :
    (b.setPred g n mask val).pred x m = b.pred x m := by
  unfold Block.setPred
  split
  · rfl
  · by_cases hz : m = 0
    · simp [Block.pred, hz]
    · simp only [Block.pred, hz, if_false]
      exact Tab.get_put_ne _ _ _ _ (by omega)

/-- An instruction that writes a predicate completes, and that is all it does. -/
theorem IC.pred_result {s : State} {c : Instr} {e : Ent} {op : Nat} {w : IWord} {sp : OpSpec} {f : IC → Device → Eff} {i : IC}
    {d : Device} {mask val : Nat} (hc : exec c s = ixfen e op w sp f s) (h : s.dev.executes e op w sp = some (i, d))
    (hd : sp.d = .p) (hf : f i d = i.setPred d mask val) : i.PredResult c s d mask val := by
  obtain ⟨hw, -, -, -, he⟩ := Device.executes_w h
  have hn : i.w.d.toNat < 8 := by
    rw [← hw] at he
    simp only [OpSpec.encoded, hd, DK.ok, Bool.and_eq_true, decide_eq_true_eq] at he
    exact he.1.1.1.1.1.1.1
  refine ⟨i.b.setPred i.x.group i.w.d.toNat mask val, IC.completes_go hc h hf, ?rest, fun hz l => i.b.pred_setPred_same mask val l hz,
    fun g n hm hne => i.b.pred_setPred_ne mask val hn hm hne⟩
  case rest =>
    obtain ⟨x, hx⟩ := i.b.setPred_rest i.x.group i.w.d.toNat mask val
    rw [hx]

/-! A ballot -/

theorem IC.foldl_setD_rest (i : IC) (n v : Nat) (L : List Nat) (b : Block) :
    ∃ x, L.foldl (fun b l => i.setD b n l v) b = { b with v := x } := by
  induction L generalizing b with
  | nil => exact ⟨b.v, rfl⟩
  | cons l t ih =>
    obtain ⟨x, hx⟩ := i.setD_rest b n l v
    obtain ⟨y, hy⟩ := ih (i.setD b n l v)
    exact ⟨y, by rw [List.foldl_cons, hy, hx]⟩

/-- One value written in the destination of several lanes leaves every other register. -/
theorem IC.foldl_setD_vreg_out (i : IC) (v : Nat) (L : List Nat) (b : Block) {t r : Nat} (hr : r < 256)
    (hD : i.w.dz = false → i.w.d.toNat + 1 ≤ 255) (h : i.w.dz = true ∨ r ≠ i.w.d.toNat ∨ ∀ l ∈ L, t ≠ i.thread l) :
    (L.foldl (fun b l => i.setD b 1 l v) b).vreg t r = b.vreg t r := by
  induction L generalizing b with
  | nil => rfl
  | cons l m ih =>
    rw [List.foldl_cons, ih _ (h.imp id (Or.imp id fun hl x hx => hl x (List.mem_cons_of_mem _ hx)))]
    refine i.setD_vreg_out b 1 l v t r hr hD ?_
    rcases h with hz | hne | hl
    · exact .inl hz
    · rcases Nat.lt_or_gt_of_ne hne with hlt | hgt
      · exact .inr (.inl hlt)
      · exact .inr (.inr (.inl hgt))
    · exact .inr (.inr (.inr (hl l (List.mem_cons_self ..))))

/-- In those lanes the destination holds the value. -/
theorem IC.foldl_setD_vreg_in (i : IC) (v : Nat) (L : List Nat) (b : Block) {l : Nat} (hn : L.Nodup) (hl : l ∈ L)
    (hz : i.w.dz = false) (hD : i.w.d.toNat + 1 ≤ 255) :
    (L.foldl (fun b l => i.setD b 1 l v) b).vreg (i.thread l) i.w.d.toNat = v % 2 ^ 32 := by
  induction L generalizing b with
  | nil => simp at hl
  | cons k m ih =>
    obtain ⟨hk, hm⟩ := List.nodup_cons.mp hn
    rw [List.foldl_cons]
    rcases List.mem_cons.mp hl with rfl | hl
    · have hother : ∀ x ∈ m, i.thread l ≠ i.thread x := fun x hx heq => hk (i.thread_inj heq ▸ hx)
      rw [i.foldl_setD_vreg_out v m _ (by omega) (fun _ => hD) (.inr (.inr hother))]
      simp only [IC.setD, hz, Bool.false_eq_true, if_false, Block.setVs]
      exact Block.vreg_setV_same ..
    · exact ih _ hm hl

/-- Settles O15: the four instructions write one predicate, but for the ballot of LVOTE, which writes a register of every active lane. -/
theorem predicates : Obligations.Predicates := by
  intro e w s i d
  refine ⟨fun h => ?setp, fun h => ?lvote, fun h => ?usetp, fun h => ?plop⟩
  all_goals obtain ⟨hw, -⟩ := Device.executes_w h
  case setp => subst hw; exact IC.pred_result rfl h rfl rfl
  case usetp => subst hw; exact IC.pred_result rfl h rfl rfl
  case plop => subst hw; exact IC.pred_result rfl h rfl rfl
  case lvote =>
    subst hw
    refine ⟨fun hm => ?ballot, fun hm => ?vote⟩
    case vote =>
      have hm2 : bits i.w.mod.toNat 1 0 ≠ 2 := by omega
      exact IC.pred_result rfl h (if_neg hm2) (if_neg hm2)
    case ballot =>
      obtain ⟨-, -, -, -, he⟩ := Device.executes_w h
      have hD : i.w.dz = false → i.w.d.toNat + 1 ≤ 255 := by
        intro hz
        simp only [OpSpec.encoded, hm, if_true, DK.ok, hz, Bool.false_eq_true, if_false, regFits, Bool.and_eq_true, decide_eq_true_eq] at he
        exact he.1.1.1.1.1.1.2
      refine ⟨_, IC.completes_go rfl h (if_pos hm), ?rest, fun hz l hl => ?inside, fun t r hr hout => ?outside⟩
      case rest =>
        obtain ⟨x, hx⟩ := i.foldl_setD_rest 1 (i.guard &&& i.b.pred i.x.group i.w.a.toNat) (setBits 32 i.x.mask) i.b
        rw [hx]
      case inside => exact i.foldl_setD_vreg_in _ _ _ (List.Nodup.filter _ List.nodup_range) hl hz (hD hz)
      case outside => exact i.foldl_setD_vreg_out _ _ _ hr hD hout

/-! Uniform registers -/

theorem Block.setUs_rest (b : Block) (g n v m : Nat) : ∃ x, b.setUs g n v m = { b with u := x } := by
  induction m generalizing b n v with
  | zero => exact ⟨b.u, rfl⟩
  | succ m ih =>
    obtain ⟨x, hx⟩ := ih (b.setU g n v) (n + 1) (v / 2 ^ 32)
    exact ⟨x, by rw [Block.setUs, hx]; rfl⟩

theorem Block.ureg_setUs_out (b : Block) (g n v x r m : Nat) (h : ∀ j, j < m → x * 64 + r ≠ g * 64 + (n + j)) :
    (b.setUs g n v m).ureg x r = b.ureg x r := by
  induction m generalizing b n v with
  | zero => rfl
  | succ m ih =>
    rw [Block.setUs, ih _ _ _ (fun j hj => by have := h (j + 1) (by omega); omega)]
    exact Tab.get_put_ne _ _ _ _ (by simpa using h 0 (by omega))

theorem Block.uregs_setUs (b : Block) (g n v m : Nat) : (b.setUs g n v m).uregs g n m = v % 2 ^ (32 * m) := by
  induction m generalizing b n v with
  | zero => simp [Block.uregs, Nat.mod_one]
  | succ m ih =>
    rw [Block.setUs, Block.uregs, ih, Block.ureg_setUs_out _ _ _ _ _ _ _ (fun j _ => by omega)]
    rw [show (b.setU g n v).ureg g n = v % 2 ^ 32 from Tab.get_put_same ..]
    rw [show 32 * (m + 1) = 32 + 32 * m by ring, pow_add, Nat.mod_mul]

/-- An instruction that writes a uniform destination completes, and that is all it does. -/
theorem IC.uniform_result {s : State} {c : Instr} {e : Ent} {op : Nat} {w : IWord} {sp : OpSpec} {f : IC → Device → Eff} {i : IC}
    {d : Device} {n v : Nat} (hc : exec c s = ixfen e op w sp f s) (h : s.dev.executes e op w sp = some (i, d))
    (hd : sp.d = .u n) (hf : f i d = .go (i.put d (i.setU i.b n v))) : i.UniformResult c s d n v := by
  obtain ⟨hw, -, -, -, he⟩ := Device.executes_w h
  have hD : i.w.dz = false → i.w.d.toNat + n ≤ 63 := by
    intro hz
    rw [← hw] at he
    simp only [OpSpec.encoded, hd, DK.ok, hz, Bool.false_eq_true, if_false, regFits, Bool.and_eq_true, decide_eq_true_eq] at he
    exact he.1.1.1.1.1.1.2
  refine ⟨i.setU i.b n v, IC.completes_go hc h hf, ?rest, fun hz => ?value, fun g r hr hout => ?frame⟩
  all_goals unfold IC.setU
  case rest =>
    split
    · rfl
    · obtain ⟨x, hx⟩ := i.b.setUs_rest i.x.group i.w.d.toNat v n
      rw [hx]
  case value => rw [hz, if_neg Bool.false_ne_true]; exact Block.uregs_setUs ..
  case frame =>
    split
    · rfl
    · rename_i hz
      have hz : i.w.dz = false := by simpa using hz
      have := hD hz
      refine Block.ureg_setUs_out _ _ _ _ _ _ _ (fun j hj => ?_)
      rcases hout with h | h | h | h
      · simp [hz] at h
      · omega
      · omega
      · omega

/-- Settles O16: each instruction writes one value in its uniform destination. -/
theorem uniformArithmetic : Obligations.UniformArithmetic := by
  intro e w s i d
  refine ⟨fun h => ?umov, fun h => ?uadd, fun h => ?usub, fun h => ?umul, fun h => ?ulop, fun h => ?ushf, fun h => ?v2u⟩
  all_goals obtain ⟨rfl, -⟩ := Device.executes_w h
  all_goals exact IC.uniform_result rfl h rfl rfl

end Sys2Proof.Machine

/-! Register writes at a place (R9, R11, R384): the one piece that a write of one register makes, and how a write can end. -/

namespace Sys2Proof.Machine

/-- A write reaches a register of 16 bits at its own width, or any other register, as one piece. -/
theorem pieces_of_findReg {a w i b : Nat} {g : RegD} (hfind : findReg a = some (g, i, b)) (hbits : g.bits ≠ 16 ∨ w = 2) :
    pieces a w = [(0, a, w)] := by
  unfold pieces
  rw [hfind]
  rcases hbits with hne | rfl
  · simp [hne]
  · by_cases h16 : g.bits = 16 <;> simp [h16]

/-- A write that reaches one register is that register's write, unless it sets a reserved bit (R11). -/
theorem Device.placeWrite_of_findReg (d : Device) {a w i b : Nat} {g : RegD} (v : Nat) (hfind : findReg a = some (g, i, b))
    (hbits : g.bits ≠ 16 ∨ w = 2) (hreached : g.reached a w = true) :
    let x := v % 2 ^ (8 * w) * 2 ^ (8 * b)
    d.placeWrite a w v = if x - (x &&& g.covered) ≠ 0 then none else some (d.regWrite g i ((2 ^ (8 * w) - 1) * 2 ^ (8 * b)) x) := by
  simp [Device.placeWrite, pieces_of_findReg hfind hbits, hfind, hreached]

/-- A number has no bit outside a mask when the mask leaves it as it is. -/
theorem sub_and_eq_zero_iff (x m : Nat) : x - (x &&& m) = 0 ↔ x &&& m = x := by
  have := @Nat.and_le_left x m
  omega

/-- A write at a place answers a state with another device, or stops at a reserved bit. -/
theorem State.writeAt_cases (s : State) (fn a w v : Nat) :
    (∃ d, s.writeAt fn a w v = s.done d) ∨ s.writeAt fn a w v = .fault .reservedBitWritten := by
  unfold State.writeAt State.ofWrite
  split
  · split
    · exact .inl ⟨_, rfl⟩
    · exact .inr rfl
  · exact .inl ⟨_, rfl⟩

/-- A write within a hoop window ends as a write at its place. -/
theorem State.writeHoop_cases (s : State) (fn h o w v : Nat) :
    (∃ d, s.writeHoop fn h o w v = s.done d) ∨ s.writeHoop fn h o w v = .fault .reservedBitWritten := by
  unfold State.writeHoop
  split
  · exact s.writeAt_cases ..
  · exact .inl ⟨_, rfl⟩

/-- A write at a place goes on where no bit that it sets is reserved. -/
theorem State.writeAt_of_findReg (s : State) {fn a w i b : Nat} {g : RegD} (v : Nat) (hfind : findReg a = some (g, i, b))
    (hbits : g.bits ≠ 16 ∨ w = 2) (hreached : g.reached a w = true)
    (hv : (v % 2 ^ (8 * w) * 2 ^ (8 * b)) &&& g.covered = v % 2 ^ (8 * w) * 2 ^ (8 * b)) : ∃ d, s.writeAt fn a w v = s.done d := by
  unfold State.writeAt
  rw [s.dev.placeWrite_of_findReg v hfind hbits hreached, (sub_and_eq_zero_iff _ _).mpr hv]
  split <;> exact ⟨_, rfl⟩

end Sys2Proof.Machine

/-! Every command: what it can change of the state beside the device, and where it can stop (R11). -/

namespace Sys2Proof.Machine

/-- Settles O1: `step` is defined by its front command. -/
theorem stepRunsFrontCommand : Obligations.StepRunsFrontCommand := fun _ _ _ => rfl

/-! The fates of a command -/

/-- Only the device and the flash may differ. -/
def State.SameButFlash (s t : State) : Prop := t.pending = s.pending ∧ t.nv.fuses = s.nv.fuses ∧ t.nv.otp = s.nv.otp

theorem State.SameButFlash.refl (s : State) : s.SameButFlash s := ⟨rfl, rfl, rfl⟩

theorem State.SameButFlash.trans {s t u : State} (h : s.SameButFlash t) (k : t.SameButFlash u) : s.SameButFlash u :=
  ⟨k.1.trans h.1, k.2.1.trans h.2.1, k.2.2.trans h.2.2⟩

/-- The register writes that can set a reserved bit. -/
def WritesRegister (c : Instr) : Prop :=
  (∃ fn bar o width value, c = .registerWrite fn (.bar bar o) width value) ∨ (∃ fn w, c = .mgmtRingEnable fn w)
    ∨ (∃ fn v, c = .mgmtTail fn v) ∨ (∃ v, c = .errqPtrHead v) ∨ (∃ fn h w, c = .hoopErrqEnable fn h w)
    ∨ (∃ fn h v, c = .hoopErrqPtrHead fn h v) ∨ (∃ fn h v, c = .hoopTracePtrHead fn h v)
    ∨ (∃ fn h v, c = .hoopRelqPtrHead fn h v)

/-- The commands that can program the flash. -/
def MayWriteFlash (c : Instr) : Prop :=
  (∃ h p, c = .fwUpdate h p) ∨ (∃ tag st b, c = .pcieReadCompletion tag st b) ∨ (∃ tag, c = .pcieCompletionTimeout tag) ∨ c = .fwProgramDone
    ∨ c = .recoveryGo ∨ (∃ b, c = .recoveryResult b) ∨ ∃ fn tgt w v, c = .registerWrite fn tgt w v

/-- What a command can come to: a new device and nothing else; a stop at a reserved bit; a new device and flash; blown fuses. -/
inductive Fate (c : Instr) (s : State) : Prop
  | device (d : Device) (next : exec c s = s.done d)
  | stop (stopped : exec c s = .fault .reservedBitWritten) (which : WritesRegister c)
  | flash (t : State) (next : exec c s = .next t) (frame : s.SameButFlash t) (which : MayWriteFlash c)
  | fuses (t : State) (next : exec c s = .next t) (queue : t.pending = s.pending) (otp : t.nv.otp = s.nv.otp)
      (flash : t.nv.flash = s.nv.flash) (blown : s.nv.Ok → t.nv.Ok ∧ s.nv.Le t.nv) (which : c = .rollbackRaise ∨ c = .ageingCounter)

/-- The command has an effect on the device alone, whatever the state: all but the eight that change the flash or the fuses, the two
completions with which such a command may take its turn, and the register writes, which can stop. -/
def deviceOnly : Instr → Bool
  | .rollbackRaise | .ageingCounter | .fwProgramDone | .recoveryGo => false
  | .fwUpdate _ _ | .recoveryResult _ | .pcieReadCompletion _ _ _ | .pcieCompletionTimeout _ => false
  | .registerWrite _ _ _ _ | .mgmtRingEnable _ _ | .mgmtTail _ _ | .errqPtrHead _ => false
  | .hoopErrqEnable _ _ _ | .hoopErrqPtrHead _ _ _ | .hoopTracePtrHead _ _ _ | .hoopRelqPtrHead _ _ _ => false
  | _ => true

/-- The register that holds TABLES_LOCK, in each hoop window: bit 4 of the word at 0x10 is not reserved. -/
theorem execHoopCfgTablesLock_device (fn h : Nat) (s : State) : ∃ d, execHoopCfgTablesLock fn h s = s.done d := by
  unfold execHoopCfgTablesLock State.writeHoop
  split
  case isFalse => exact ⟨_, rfl⟩
  case isTrue hr =>
    have hh : h < 8 := by simp only [reaches, Bool.and_eq_true, decide_eq_true_eq] at hr; exact hr.1
    obtain ⟨g, i, b, hfind, hbits, hreached, hcovered⟩ : ∃ g i b, findReg (0x100000 + 0x10000 * h + 0x10) = some (g, i, b) ∧ g.bits ≠ 16
        ∧ g.reached (0x100000 + 0x10000 * h + 0x10) 4 = true ∧ (16 % 2 ^ (8 * 4) * 2 ^ (8 * b)) &&& g.covered = 16 % 2 ^ (8 * 4) * 2 ^ (8 * b) := by
      interval_cases h <;> exact ⟨_, _, _, rfl, by decide, by decide, by decide⟩
    exact s.writeAt_of_findReg 16 hfind (.inl hbits) hreached hcovered

/-- The same for STOPPED, bit 0 of the word at 0x13C. -/
theorem execHoopWatchStopped_device (fn h : Nat) (s : State) : ∃ d, execHoopWatchStopped fn h s = s.done d := by
  unfold execHoopWatchStopped State.writeHoop
  split
  case isFalse => exact ⟨_, rfl⟩
  case isTrue hr =>
    have hh : h < 8 := by simp only [reaches, Bool.and_eq_true, decide_eq_true_eq] at hr; exact hr.1
    obtain ⟨g, i, b, hfind, hbits, hreached, hcovered⟩ : ∃ g i b, findReg (0x100000 + 0x10000 * h + 0x13C) = some (g, i, b) ∧ g.bits ≠ 16
        ∧ g.reached (0x100000 + 0x10000 * h + 0x13C) 4 = true ∧ (1 % 2 ^ (8 * 4) * 2 ^ (8 * b)) &&& g.covered = 1 % 2 ^ (8 * 4) * 2 ^ (8 * b) := by
      interval_cases h <;> exact ⟨_, _, _, rfl, by decide, by decide, by decide⟩
    exact s.writeAt_of_findReg 1 hfind (.inl hbits) hreached hcovered

theorem exec_of_deviceOnly (c : Instr) (s : State) (h : deviceOnly c = true) : ∃ d, exec c s = s.done d := by
  cases c with
  | rollbackRaise | ageingCounter | fwProgramDone | recoveryGo | fwUpdate | recoveryResult | pcieReadCompletion | pcieCompletionTimeout
  | registerWrite | mgmtRingEnable | mgmtTail | errqPtrHead | hoopErrqEnable | hoopErrqPtrHead | hoopTracePtrHead | hoopRelqPtrHead => cases h
  | hoopCfgTablesLock fn hoop => exact execHoopCfgTablesLock_device fn hoop s
  | hoopWatchStopped fn hoop => exact execHoopWatchStopped_device fn hoop s
  | illegalOpcode e op => exact ⟨_, (apply_ite (s.done ·) ..).symm⟩
  | _ => exact ⟨_, rfl⟩

/-! The commands that change more than the device -/

/-- A write that goes through a place is a new device or a stop. -/
theorem Fate.of_write {c : Instr} {s : State} {o : DevOut} (hc : exec c s = o) (which : WritesRegister c)
    (h : (∃ d, o = s.done d) ∨ o = .fault .reservedBitWritten) : Fate c s := by
  rcases h with ⟨d, h⟩ | h
  · exact .device d (hc.trans h)
  · exact .stop (hc.trans h) which

theorem execRecoveryGo_frame (s : State) : ∃ t, execRecoveryGo s = .next t ∧ s.SameButFlash t := by
  unfold execRecoveryGo
  dsimp only
  split
  · refine ⟨_, rfl, rfl, ?_, ?_⟩ <;> (simp only [Device.recoveryStart]; split <;> rfl)
  · exact ⟨_, rfl, .refl s⟩

theorem execFwUpdate_frame (h : MHdr) (p : Bytes) (s : State) : ∃ t, execFwUpdate h p s = .next t ∧ s.SameButFlash t := by
  refine ⟨_, rfl, rfl, ?_, ?_⟩ <;> (dsimp only; split <;> rfl)

theorem execFwProgramDone_frame (s : State) : ∃ t, execFwProgramDone s = .next t ∧ s.SameButFlash t := by
  unfold execFwProgramDone
  dsimp only
  split
  · exact ⟨_, rfl, rfl, rfl, rfl⟩
  · exact ⟨_, rfl, .refl s⟩

theorem execRecoveryResult_frame (ok : Bool) (s : State) : ∃ t, execRecoveryResult ok s = .next t ∧ s.SameButFlash t := by
  unfold execRecoveryResult
  dsimp only
  split
  · refine ⟨_, rfl, rfl, ?_, ?_⟩ <;> (dsimp only; split <;> rfl)
  · exact ⟨_, rfl, .refl s⟩

/-- A management command that takes its turn changes the device, or, an FW_UPDATE, the flash too. -/
theorem mgmtExec_frame (op : Nat) (h : MHdr) (p : Bytes) (s : State) : ∃ t, mgmtExec op h p s = .next t ∧ s.SameButFlash t := by
  by_cases hfw : op = 0x61
  · subst hfw; exact execFwUpdate_frame h p s
  · obtain ⟨d, hd⟩ : ∃ d, mgmtExec op h p s = s.done d := by
      unfold mgmtExec
      split
      case h_33 => split <;> [skip; split] <;> exact ⟨_, rfl⟩
      case h_36 => exact absurd rfl hfw
      all_goals exact ⟨_, rfl⟩
    exact ⟨_, hd, .refl s⟩

theorem State.mgmtTurn_frame (s : State) (c : MCmd) : s.SameButFlash (s.mgmtTurn c) := by
  unfold State.mgmtTurn
  dsimp only
  split
  · split <;> exact .refl s
  · rename_i p _
    obtain ⟨t, ht, hframe⟩ := mgmtExec_frame c.op c.hdr p
      { s with dev := (s.dev.setCmds (s.dev.boot.cmds.erase c)).setBoot { (s.dev.setCmds (s.dev.boot.cmds.erase c)).boot with turn := true } }
    simp only [ht]
    exact hframe

theorem State.mgmtTurns_frame (n : Nat) (s : State) : s.SameButFlash (s.mgmtTurns n) := by
  induction n generalizing s with
  | zero => exact .refl s
  | succ n ih =>
    unfold State.mgmtTurns
    split
    · exact .refl s
    · rename_i c _; exact (s.mgmtTurn_frame c).trans (ih _)

theorem State.mgmtGo_frame (s : State) : s.SameButFlash s.mgmtGo := s.mgmtTurns_frame _

/-- A write of a BAR is a write of a register, which may start a recovery, or of a doorbell, a vector or an aperture. -/
theorem State.barWrite_cases (s : State) (fn bar o w v : Nat) :
    (∃ t, s.barWrite fn bar o w v = .next t ∧ s.SameButFlash t) ∨ s.barWrite fn bar o w v = .fault .reservedBitWritten := by
  unfold State.barWrite
  dsimp only
  generalize (if fn = 0 then (0x10000, 256) else (0x8000, 224) : Nat × Nat) = msix
  split
  · split
    · exact .inl ⟨_, rfl, .refl s⟩
    · split
      · exact .inl ⟨_, rfl, .refl s⟩
      · rename_i a _
        rcases s.writeAt_cases fn a w v with ⟨d, h⟩ | h
        · simp only [h, State.done_eq]
          split
          · obtain ⟨t, ht, hframe⟩ := execRecoveryGo_frame { s with dev := d }
            exact .inl ⟨t, ht, hframe⟩
          · exact .inl ⟨_, rfl, .refl s⟩
        · exact .inr (by simp only [h])
  · split
    · split
      · exact .inl ⟨_, rfl, .refl s⟩
      · exact .inl ⟨_, rfl, .refl s⟩
    · split <;> exact .inl ⟨_, rfl, .refl s⟩

theorem fate_registerWrite (fn : Nat) (tgt : RegTarget) (w : Nat) (v : W64) (s : State) : Fate (.registerWrite fn tgt w v) s := by
  cases tgt with
  | cfg f => exact .device _ rfl
  | bar bar o =>
    by_cases hw : w = 1 ∨ w = 2 ∨ w = 4 ∨ w = 8
    · have hexec : exec (.registerWrite fn (.bar bar o) w v) s = s.barWrite fn bar o w (v.toNat % 2 ^ (8 * w)) := if_pos hw
      rcases s.barWrite_cases fn bar o w (v.toNat % 2 ^ (8 * w)) with ⟨t, ht, hframe⟩ | h
      · exact .flash t (hexec.trans ht) hframe (.inr (.inr (.inr (.inr (.inr (.inr ⟨_, _, _, _, rfl⟩))))))
      · exact .stop (hexec.trans h) (.inl ⟨_, _, _, _, _, rfl⟩)
    · exact .device s.dev (if_neg hw)

/-- Clearing a bit does not enlarge a number. -/
theorem setBit_false_le (v n : Nat) : setBit v n false ≤ v := by
  unfold setBit; split <;> simp

theorem and_or_self_left (a b : Nat) : a &&& (a ||| b) = a := by
  apply Nat.eq_of_testBit_eq
  intro k
  rw [Nat.testBit_and, Nat.testBit_or]
  cases a.testBit k <;> rfl

/-- ROLLBACK_RAISE takes the greater of the counters and adds to the revoked keys (R478). -/
theorem fate_rollbackRaise (s : State) : Fate .rollbackRaise s := by
  by_cases h : (s.dev.live && !s.dev.boot.header.isEmpty) = true
  · refine .fuses _ (if_pos h) rfl rfl rfl (fun ⟨hroll, hhours, hrev⟩ => ⟨⟨?_, hhours, ?_⟩, Nat.le_max_left .., le_rfl, ?_⟩) (.inl rfl)
    · exact Nat.max_le.mpr ⟨hroll, Nat.min_le_left ..⟩
    · refine Nat.or_lt_two_pow (n := 4) hrev (lt_of_le_of_lt (setBit_false_le ..) ?_)
      exact Nat.mod_lt _ (by decide)
    · exact and_or_self_left ..
  · exact .device s.dev (if_neg h)

/-- AGEING_COUNTER blows one more bit of at most 512 (R468). -/
theorem fate_ageingCounter (s : State) : Fate .ageingCounter s := by
  by_cases h : (s.dev.live && decide (s.nv.fuses.hours < 512)) = true
  · have hlt : s.nv.fuses.hours < 512 := of_decide_eq_true ((Bool.and_eq_true ..).mp h).2
    refine .fuses _ (if_pos h) rfl rfl rfl (fun ⟨hroll, _, hrev⟩ => ⟨⟨hroll, Nat.min_le_left .., hrev⟩, le_rfl, ?_, Nat.and_self _⟩) (.inr rfl)
    exact Nat.le_min.mpr ⟨hlt.le, Nat.le_succ _⟩
  · exact .device s.dev (if_neg h)

/-- Every command has one of the fates. -/
theorem fate (c : Instr) (s : State) : Fate c s := by
  by_cases h : deviceOnly c = true
  · obtain ⟨d, hd⟩ := exec_of_deviceOnly c s h
    exact .device d hd
  cases c with
  | rollbackRaise => exact fate_rollbackRaise s
  | ageingCounter => exact fate_ageingCounter s
  | registerWrite fn tgt w v => exact fate_registerWrite fn tgt w v s
  | fwUpdate hdr p => obtain ⟨t, ht, hf⟩ := execFwUpdate_frame hdr p s; exact .flash t ht hf (.inl ⟨_, _, rfl⟩)
  | pcieReadCompletion tag st b => exact .flash _ rfl (State.mgmtGo_frame _) (.inr (.inl ⟨_, _, _, rfl⟩))
  | pcieCompletionTimeout tag => exact .flash _ rfl (State.mgmtGo_frame _) (.inr (.inr (.inl ⟨_, rfl⟩)))
  | fwProgramDone => obtain ⟨t, ht, hf⟩ := execFwProgramDone_frame s; exact .flash t ht hf (.inr (.inr (.inr (.inl rfl))))
  | recoveryGo => obtain ⟨t, ht, hf⟩ := execRecoveryGo_frame s; exact .flash t ht hf (.inr (.inr (.inr (.inr (.inl rfl)))))
  | recoveryResult ok =>
    obtain ⟨t, ht, hf⟩ := execRecoveryResult_frame ok s
    exact .flash t ht hf (.inr (.inr (.inr (.inr (.inr (.inl ⟨_, rfl⟩))))))
  | mgmtRingEnable fn w => exact .of_write rfl (.inr (.inl ⟨_, _, rfl⟩)) (s.writeAt_cases ..)
  | mgmtTail fn v => exact .of_write rfl (.inr (.inr (.inl ⟨_, _, rfl⟩))) (s.writeAt_cases ..)
  | errqPtrHead v => exact .of_write rfl (.inr (.inr (.inr (.inl ⟨_, rfl⟩)))) (s.writeAt_cases ..)
  | hoopErrqEnable fn h w => exact .of_write rfl (.inr (.inr (.inr (.inr (.inl ⟨_, _, _, rfl⟩))))) (s.writeHoop_cases ..)
  | hoopErrqPtrHead fn h v => exact .of_write rfl (.inr (.inr (.inr (.inr (.inr (.inl ⟨_, _, _, rfl⟩)))))) (s.writeHoop_cases ..)
  | hoopTracePtrHead fn h v => exact .of_write rfl (.inr (.inr (.inr (.inr (.inr (.inr (.inl ⟨_, _, _, rfl⟩))))))) (s.writeHoop_cases ..)
  | hoopRelqPtrHead fn h v => exact .of_write rfl (.inr (.inr (.inr (.inr (.inr (.inr (.inr ⟨_, _, _, rfl⟩))))))) (s.writeHoop_cases ..)
  | _ => exact absurd rfl h

/-! The statements -/

/-- Settles O2: of its fates a command has one, and only a stop is a fault. -/
theorem onlyReservedBitsStop : Obligations.OnlyReservedBitsStop := by
  intro c s
  cases fate c s with
  | stop h which => exact ⟨fun r hr => by simp [h] at hr, fun f hf => ⟨rfl, which⟩⟩
  | device _ h | flash _ h | fuses _ h => exact ⟨fun r hr => by simp [h] at hr, fun f hf => by simp [h] at hf⟩

/-- Settles O3: the queue stays under every fate. -/
theorem queueKept : Obligations.QueueKept := by
  intro c s t ht
  cases fate c s with
  | device _ h => rw [h] at ht; cases ht; rfl
  | stop h => rw [h] at ht; cases ht
  | flash _ h frame => rw [h] at ht; cases ht; exact frame.1
  | fuses _ h queue => rw [h] at ht; cases ht; exact queue

/-- Settles O6: the fates name what each changes. -/
theorem flashAndFusesFrame : Obligations.FlashAndFusesFrame := by
  intro c s t ht
  cases fate c s with
  | device _ h => rw [h] at ht; cases ht; exact ⟨.inl rfl, rfl, .inl rfl⟩
  | stop h => rw [h] at ht; cases ht
  | flash _ h frame which => rw [h] at ht; cases ht; exact ⟨.inl frame.2.1, frame.2.2, .inr which⟩
  | fuses _ h _ otp flash _ which => rw [h] at ht; cases ht; exact ⟨.inr which, otp, .inl flash⟩

theorem NonVol.Le.of_fuses_eq {a b : NonVol} (h : b.fuses = a.fuses) : a.Le b := by
  simp only [NonVol.Le, h, le_refl, Nat.and_self, and_self]

/-- The counters stay in range where the fuses stay. -/
theorem NonVol.Ok.of_fuses_eq {a b : NonVol} (ha : a.Ok) (h : b.fuses = a.fuses) : b.Ok := by
  simpa only [NonVol.Ok, h] using ha

theorem State.idle_frame (s : State) : s.SameButFlash s.idle := by
  unfold State.idle
  dsimp only
  split
  · exact .refl s
  · exact State.mgmtGo_frame { s with dev := s.dev.idle }

/-- Settles O4: only ROLLBACK_RAISE and AGEING_COUNTER blow fuses; an idle step does not. -/
theorem fusesOnlyRise : Obligations.FusesOnlyRise := by
  intro s t hok hstep
  unfold step at hstep
  split at hstep
  · cases hstep
    exact ⟨hok.of_fuses_eq s.idle_frame.2.1, .of_fuses_eq s.idle_frame.2.1⟩
  · rename_i c rest _
    cases fate c { s with pending := rest } with
    | device _ h => rw [h] at hstep; cases hstep; exact ⟨hok, .of_fuses_eq rfl⟩
    | stop h => rw [h] at hstep; cases hstep
    | flash _ h frame => rw [h] at hstep; cases hstep; exact ⟨hok.of_fuses_eq frame.2.1, .of_fuses_eq frame.2.1⟩
    | fuses _ h _ _ _ blown => rw [h] at hstep; cases hstep; exact blown hok

end Sys2Proof.Machine

/-! Ixfen control flow, barriers, traps and fences (R118 to R126, R134, R150, R161 to R166). -/

namespace Sys2Proof.Machine

/-! Cores: what a change of one table of a core leaves in the others -/

section
variable (d : Device) (k p e q : Nat)

@[simp] theorem Device.core_modCore (f : Core → Core) : (d.modCore k f).core k = f (d.core k) := by
  simp [Device.core, Device.modCore, Device.setCore]

@[simp] theorem Device.block?_setEnt (x : SEnt) : (d.setEnt k e x).block? k p = d.block? k p := by
  simp [Device.block?, Device.setEnt, Core.block?]

@[simp] theorem Device.ent?_setEnt_same (x : SEnt) : (d.setEnt k e x).ent? k e = some x := by
  simp [Device.ent?, Device.setEnt]

theorem Device.ent?_setEnt_ne (x : SEnt) (h : q ≠ e) : (d.setEnt k e x).ent? k q = d.ent? k q := by
  simp [Device.ent?, Device.setEnt, Tab.find?_insert_ne _ _ h]

@[simp] theorem Device.block?_modEnt (f : SEnt → SEnt) : (d.modEnt k e f).block? k p = d.block? k p := by
  simp only [Device.block?, Device.modEnt, Core.block?, Device.core_modCore]
  split <;> rfl

@[simp] theorem Device.ent?_modEnt (f : SEnt → SEnt) : (d.modEnt k e f).ent? k e = (d.ent? k e).map f := by
  simp only [Device.ent?, Device.modEnt, Device.core_modCore]
  cases h : Tab.find? (d.core k).ents e <;> simp [h]

@[simp] theorem Device.ents_modBlock (f : Block → Block) : ((d.modBlock k p f).core k).ents = (d.core k).ents := by
  simp only [Device.modBlock, Device.core_modCore]
  split <;> rfl

@[simp] theorem Device.ent?_modBlock (f : Block → Block) : (d.modBlock k p f).ent? k e = d.ent? k e := by
  simp [Device.ent?]

@[simp] theorem Device.freeEntry_modBlock (f : Block → Block) (b : Block) (g : Nat) : (d.modBlock k p f).freeEntry k b g = d.freeEntry k b g := by
  simp [Device.freeEntry, Core.freeEnt]

theorem Device.block?_modBlock (f : Block → Block) : (d.modBlock k p f).block? k p = (d.block? k p).map f := by
  simp only [Device.block?, Device.modBlock, Core.block?, Device.core_modCore]
  cases h : Tab.find? (d.core k).blocks p <;> simp [h]

end

/-! Effects -/

/-- An effect that has moved the entry itself is all the instruction does. -/
theorem IC.gives_jump {s : State} {c : Instr} {e : Ent} {op : Nat} {w : IWord} {sp : OpSpec} {f : IC → Device → Eff} {i : IC}
    {d d2 : Device} (hc : exec c s = ixfen e op w sp f s) (h : s.dev.executes e op w sp = some (i, d)) (hf : f i d = .jump d2) :
    Gives c s d2 := by
  unfold Gives
  rw [hc, ixfen, Device.issue_executes h f _ rfl, hf]
  rfl

/-- What passes the checks of R125 arrives. -/
theorem IC.barrier_arrives {i : IC} {d : Device} (k : Nat → Eff) (hguard : i.guard ≠ 0) (ho : i.open_ d = false) (hn : i.w.a.toNat < 16)
    (harr : Tab.get 0 i.b.arrived (i.w.a.toNat * 32 + i.x.group) &&& i.guard = 0) : i.barrier d k = k i.w.a.toNat := by
  have hcheck : ¬ (i.w.a.toNat ≥ 16 ∨ Tab.get 0 i.b.arrived (i.w.a.toNat * 32 + i.x.group) &&& i.guard ≠ 0) := by
    rintro (hge | hne)
    · omega
    · exact hne harr
  simp only [IC.barrier, hguard, ho, hcheck, if_false, Bool.false_eq_true]

theorem IC.barrier_unguarded {i : IC} {d : Device} (k : Nat → Eff) (hguard : i.guard = 0) : i.barrier d k = .go d := by
  simp [IC.barrier, hguard]

/-- The device of `IC.arriveAndPark` before its block settles. -/
def IC.parked (i : IC) (d : Device) (w : Nat) : Device :=
  let rest := without i.x.mask i.guard
  let key := w * 32 + i.x.group
  let d := d.modBlock i.core i.place (fun b => { b with arrived := Tab.insert b.arrived key (Tab.get 0 b.arrived key ||| i.guard) })
  let wait : Wait := ⟨d.stamp i.hoop, 1, w, i.guard⟩
  let parked : SEnt := { i.x with mask := i.guard, park := .wait w, since := some wait, await := none }
  if rest = 0 then d.setEnt i.core i.entry parked
  else
    let next : SEnt := { i.x with mask := rest, pc := i.x.pc + 8, park := .ready, stack := [], since := none, await := none }
    match d.freeEntry i.core i.b i.x.group with
    | some e => (d.setEnt i.core i.entry parked).setEnt i.core e next
    | none => (d.setEnt i.core i.entry { next with stack := i.x.stack }).setEnt i.core (d.sharedEntry i.core) { parked with stack := [] }

theorem IC.arriveAndPark_eq (i : IC) (d : Device) (w : Nat) : i.arriveAndPark d w = .jump ((i.parked d w).settle i.core i.place) := rfl

/-- The lanes are recorded as arrived. -/
theorem IC.block?_parked {i : IC} {d : Device} {b : Block} (w : Nat) (hb : d.block? i.core i.place = some b) :
    (i.parked d w).block? i.core i.place =
      some { b with arrived := Tab.insert b.arrived (w * 32 + i.x.group) (Tab.get 0 b.arrived (w * 32 + i.x.group) ||| i.guard) } := by
  unfold IC.parked
  dsimp only
  split
  · simp [Device.block?_modBlock, hb]
  · split <;> simp [Device.block?_modBlock, hb]

/-- Where every active lane arrives the entry parks. -/
theorem IC.ent?_parked_all {i : IC} {d : Device} (w : Nat) (hrest : without i.x.mask i.guard = 0) :
    ((i.parked d w).ent? i.core i.entry).map (fun y => (y.mask, y.park, y.pc)) = some (i.guard, Park.wait w, i.x.pc) := by
  simp [IC.parked, hrest]

/-- Where others go on they take the free entry. -/
theorem IC.ent?_parked_some {i : IC} {d : Device} {f : Nat} (w : Nat) (hrest : without i.x.mask i.guard ≠ 0)
    (hf : d.freeEntry i.core i.b i.x.group = some f) (hne : f ≠ i.entry) :
    ((i.parked d w).ent? i.core i.entry).map (fun y => (y.mask, y.park, y.pc)) = some (i.guard, Park.wait w, i.x.pc) ∧
    ((i.parked d w).ent? i.core f).map (fun y => (y.mask, y.park, y.pc)) = some (without i.x.mask i.guard, Park.ready, i.x.pc + 8) := by
  simp [IC.parked, hrest, hf, Device.ent?_setEnt_ne _ _ _ _ _ hne.symm]

/-- Settles O23: the three instructions by their effects, each before its block settles. -/
theorem barriers : Obligations.Barriers := by
  intro e w s i d b key rest hb
  refine ⟨fun h => ⟨?bar0, ?bar⟩, fun h => ⟨?arrive0, ?arrive⟩, fun h => ⟨?exit0, ?exit⟩⟩
  all_goals obtain ⟨rfl, hcore, hentry, -, -⟩ := Device.executes_w h
  all_goals rw [← hcore] at hb
  case bar0 => intro hg; exact IC.completes_go rfl h (by simp only [ixBar, IC.barrier_unguarded _ hg])
  case arrive0 => intro hg; exact IC.completes_go rfl h (by simp only [ixArrive, IC.barrier_unguarded _ hg])
  case exit0 => intro hg; exact IC.completes_go rfl h (by simp only [ixExit, hg, if_true])
  case bar =>
    intro hg ho hn harr
    rw [← hcore, ← hentry]
    refine ⟨i.parked d i.w.a.toNat, IC.gives_jump rfl h (by simp only [ixBar, IC.barrier_arrives _ hg ho hn harr, IC.arriveAndPark_eq]), ?_, IC.ent?_parked_all _,
      fun f hrest hf hne => IC.ent?_parked_some _ hrest hf hne⟩
    simp [IC.block?_parked _ hb, key]
  case arrive =>
    intro hg ho hn harr
    rw [← hcore]
    refine ⟨d.modBlock i.core i.place (fun b => { b with arrived := Tab.insert b.arrived key (Tab.get 0 b.arrived key ||| i.guard) }),
      IC.completes_go rfl h (by simp only [ixArrive, IC.barrier_arrives _ hg ho hn harr, key]), by rw [Device.block?_modBlock, hb, Option.map_some]⟩
  case exit =>
    intro hg hr
    rw [← hcore, ← hentry]
    let gone : Block → Block := fun b => { b with
      exited := Tab.insert b.exited i.x.group (Tab.get 0 b.exited i.x.group ||| i.guard), last := (i.x.pc, i.x.group, i.x.mask) }
    refine ⟨(d.modBlock i.core i.place gone).modEnt i.core i.entry
      (fun x => { x with mask := without x.mask i.guard, pc := x.pc + 8, park := .ready, since := none }), ?_, ?_, ?_⟩
    · exact IC.gives_jump rfl h (by simp only [ixExit, hg, hr, if_false, Bool.false_eq_true, IC.exitLanes, gone])
    · simp [Device.block?_modBlock, hb, gone]
    · simp only [Device.ent?_modEnt, Device.ent?_modBlock, Option.map_map]; rfl

/-! Branches -/

/-- An instruction that a test finds executing. -/
theorem exists_of_runs {d : Device} {op : Nat} {w : IWord} {sp : OpSpec} {f : IC → Device → Bool} (h : Tests.runs d op w sp f = true) :
    ∃ i d', (Tests.holding d op w).executes Tests.e0 op w sp = some (i, d') ∧ f i d' = true := by
  unfold Tests.runs at h
  split at h
  · exact ⟨_, _, ‹_›, h⟩
  · cases h

/-- A BRA 32 bytes ahead under p0. -/
def strayBra : IWord := { pg := 1, imm := true, immw := 0x0000004000000020 }

/-- Entry 0 of core 0 has the mask 2^32 and p0 the same value: the guard is not 0, and none of the 32 lanes is in it. -/
def strayLane : Device := Tests.busyWith { Tests.jumps with p := [(1, 2 ^ 32)] } (2 ^ 32)

/-- The pc of entry 0 of core 0. -/
def pcOfEntry0 (d : Device) : Option Nat := (d.ent? 0 0).map (fun x => x.pc)

set_option maxRecDepth 100000 in
theorem strayBra_runs : Tests.runs strayLane 0x80 strayBra (ixBra strayBra).1 (fun i d =>
    i.guard != 0 && i.offset 0x20 % 8 == 0 && i.point % 8 == 0 && i.stay.isEmpty
      && pcOfEntry0 (d.goTo_ 0 0 (i.offset 0x20)) == some (Tests.pc0 + 0x20)) = true := by
  decide +kernel

set_option maxRecDepth 100000 in
theorem strayBra_goes_on : (match exec (.bra Tests.e0 strayBra) (Tests.st (Tests.holding strayLane 0x80 strayBra)) with
    | .next t => pcOfEntry0 t.dev
    | _ => none) = some (Tests.pc0 + 16) := by
  decide +kernel

/-- Refutes O22: the entry of `strayLane` has a guard that is not 0 and no lane that stays, so its BRA should go to the target, 32 bytes ahead; but
no lane of the group names a target, and the entry goes on 16 bytes ahead. -/
theorem not_branches : ¬ Obligations.Branches := by
  intro h
  obtain ⟨i, d, hx, hc⟩ := exists_of_runs strayBra_runs
  simp only [Bool.and_eq_true, bne_iff_ne, beq_iff_eq, List.isEmpty_iff] at hc
  obtain ⟨⟨⟨⟨hguard, htarget⟩, hpoint⟩, hstay⟩, hpc⟩ := hc
  have hgoes := (((h Tests.e0 strayBra (Tests.st (Tests.holding strayLane 0x80 strayBra)) i d).1 hx).2 hguard htarget hpoint).1 hstay
  have hon := strayBra_goes_on
  rw [show exec _ _ = _ from hgoes] at hon
  have hsame := hpc.symm.trans hon
  exact absurd hsame (by decide)

/-! Traps, and the encoding (R140) -/

/-- An instruction's words spell its opcode and fields. -/
theorem readWord_wordBits {op : Nat} {w : IWord} (hop : op < 2 ^ 8) (h : w.imm = false → w.immw = 0) :
    readWord (wordBits op w) w.immw.toNat = (op, w) := by
  obtain ⟨pg, pn, d, a, b, c, mod, ak, bk, ck, dz, imm, immw⟩ := w
  have flag : ∀ x, b2n x < 2 := by decide
  have testBit_of : ∀ (x n : Nat) (v : Bool), x / 2 ^ n % 2 = b2n v → x.testBit n = v := by
    intro x n v hx
    rw [Nat.testBit_eq_decide_div_mod_eq, hx]; cases v <;> rfl
  have hpg := pg.isLt; have hpn := flag pn; have hd := d.isLt; have ha := a.isLt; have hb := b.isLt; have hc := c.isLt
  have hmod := mod.isLt; have hak := ak.isLt; have hbk := bk.isLt; have hck := ck.isLt; have hdz := flag dz; have himm := flag imm
  have hpresent : (wordBits op ⟨pg, pn, d, a, b, c, mod, ak, bk, ck, dz, imm, immw⟩).testBit 63 = imm :=
    testBit_of _ _ _ (by simp only [wordBits]; omega)
  simp only [readWord, hpresent, Prod.mk.injEq, IWord.mk.injEq, true_and]
  simp only [wordBits]
  refine ⟨by simp only [bits]; omega, ?pg, testBit_of _ _ _ (by omega), ?d, ?a, ?b, ?c, ?mod, ?ak, ?bk, ?ck, testBit_of _ _ _ (by omega), ?word⟩
  case word =>
    cases imm with
    | false => simpa using (h rfl).symm
    | true => simp
  all_goals
    apply BitVec.eq_of_toNat_eq
    rw [BitVec.toNat_ofNat]
    omega

/-- Aligned targets pass the check of BRANCH_ALIGN. -/
theorem unaligned_eq_none {l : List Nat} (h : ∀ a ∈ l, a % 8 = 0) : unaligned l = none := by
  rw [unaligned, List.find?_eq_none]
  intro a ha
  simp [h a ha]

/-- A BRX that declares that it does not diverge, and whose lanes have aligned targets that differ or leave lanes behind, faults (R165). -/
theorem IC.brx_fault {i : IC} {d : Device} (hstraight : i.w.immw.toNat / 2 ^ 32 = 0) (hguard : i.guard ≠ 0) (hpoint : i.point % 8 = 0)
    (halign : ∀ l ∈ i.lanes, i.a 2 l % 8 = 0) (hdiv : i.stay ≠ [] ∨ ∃ l ∈ i.lanes, ∃ m ∈ i.lanes, i.a 2 l ≠ i.a 2 m) :
    (ixBrx i.w).2 i d = .fault d { code := 0x09, arg0 := i.guard, arg1 := ((i.lanes.head?).map (i.a 2)).getD 0 } := by
  let first := ((i.lanes.head?).map (i.a 2)).getD 0
  have hal : unaligned ((i.lanes.map (fun l => (l, i.a 2 l))).map (·.2) ++ [i.point]) = none := by
    refine unaligned_eq_none (fun a ha => ?_)
    simp only [List.map_map, List.mem_append, List.mem_map, Function.comp_apply, List.mem_singleton] at ha
    obtain ⟨l, hl, rfl⟩ | rfl := ha
    · exact halign l hl
    · exact hpoint
  have hhead : (((i.lanes.map (fun l => (l, i.a 2 l))).head?).map (·.2)).getD 0 = first := by
    rw [List.head?_map, Option.map_map]; rfl
  have hapart : (!i.stay.isEmpty || (i.lanes.map (fun l => (l, i.a 2 l))).any (fun x => x.2 != first)) = true := by
    obtain hstay | ⟨l, hl, m, hm, hne⟩ := hdiv
    · simp [hstay]
    · simp only [Bool.or_eq_true, List.any_map, List.any_eq_true, Function.comp_apply, bne_iff_ne]
      by_cases hfirst : i.a 2 l = first
      · exact .inr ⟨m, hm, fun hmf => hne (hfirst.trans hmf.symm)⟩
      · exact .inr ⟨l, hl, hfirst⟩
  simp only [ixBrx, hguard, if_false, hal, hhead, hstraight, hapart, beq_self_eq_true, and_self, if_true, first]

/-- An opcode that no table lists, where memory holds it, faults its block (R141). -/
theorem Device.issue_illegal {d d' : Device} {e : Ent} {op : Nat} {i : IC} {y : Nat × IWord} (f : IC → Device → Eff) (hlive : d.live = true)
    (hctx : d.context e.core e.entry op {} = some i) (hcode : i.x.code = []) (hfetch : d.fetchCode e.core e.entry i.x i.k = (d', .got y))
    (hop : y.1 = op) (halone : i.alone d' = true) :
    d.issue e op {} {} f (fun _ => true) false
      = d'.blockFault e.core i.place i.x.group i.x.mask i.x.pc { code := 0x01, arg2 := op } := by
  have hi : i.core = e.core ∧ i.entry = e.entry ∧ i.op = op := by
    unfold Device.context at hctx
    split at hctx <;> try cases hctx
    split at hctx <;> try cases hctx
    split at hctx <;> cases hctx
    exact ⟨rfl, rfl, rfl⟩
  obtain ⟨hcore, hentry, hiop⟩ := hi
  have hopen : i.open_ d' = false := by simpa [IC.alone] using halone
  unfold Device.issue
  rw [← hcore, ← hentry] at hfetch
  simp only [hctx, hlive, hfetch, hop, hcode, IC.run, IC.precise, hopen, hiop, IC.raise, Bool.not_true, Bool.false_eq_true, if_false, if_true, true_or,
    and_self]
  rw [hcore]

/-- Settles O25: each is a fault of its block once no earlier access is open. -/
theorem traps : Obligations.Traps := by
  intro e w op s i d
  refine ⟨fun h => ⟨?pass, ?trap⟩, fun h hstraight ha hg hp hal hdiv => ?brx, fun y hlive hlist hctx hcode hf hop ha => ?illegal, ?words⟩
  case pass =>
    intro hg
    exact IC.completes_go rfl h (by simp only [ixTrap, hg, if_true])
  case trap =>
    intro hg ha
    obtain ⟨rfl, -⟩ := Device.executes_w h
    exact IC.gives_blockFault rfl h ha (by simp only [ixTrap, hg, if_false]) (by simp)
  case brx =>
    obtain ⟨rfl, -⟩ := Device.executes_w h
    exact IC.gives_blockFault rfl h ha (IC.brx_fault hstraight hg hp hal hdiv) (by simp)
  case illegal =>
    have hexec : exec (.illegalOpcode e op) s = s.done (s.dev.issue e op.toNat {} {} (fun _ d => .go d) (fun _ => true) false) :=
      if_neg (by simp [hlist])
    rw [Gives, hexec, Device.issue_illegal _ hlive hctx hcode hf hop ha]
    rfl
  case words => exact readWord_wordBits op.isLt

/-! Fences -/

/-- A release that waits for nothing more goes on with the device that `IC.released` names. -/
theorem IC.release_of_released {i : IC} {d d2 : Device} (h : i.released d = some d2) (k : Device → Eff) : i.release d k = k d2 := by
  unfold IC.released IC.release at h
  unfold IC.release
  dsimp only at h ⊢
  repeat' split at h
  all_goals simp_all [Eff.passed, IC.await]

/-- Settles O21: each instruction by its effect; the word that FSIGNAL reads decides what it writes. -/
theorem fencesAndDoorbells : Obligations.FencesAndDoorbells := by
  intro e w s i d
  refine ⟨fun d2 h hg hk ho hr => ?fence, fun a word h hdep hg hk ho hv hn => ?fsignal, fun h hk ho hq hs hh => ?doorbell⟩
  case fence =>
    obtain ⟨rfl, hcore, -⟩ := Device.executes_w h
    rw [← hcore]
    have hheld : ¬ (i.k.early = true ∧ 4 ≤ i.scope) := by
      rintro ⟨hearly, hscope⟩
      obtain hk | hk := hk
      · simp [hk] at hearly
      · omega
    exact IC.completes_go rfl h (by simp only [ixFence, hg, hheld, ho, if_false, Bool.false_eq_true, IC.release_of_released hr, IC.acquire])
  case fsignal =>
    intro x y hx hbad hword hbit
    obtain ⟨rfl, -⟩ := Device.executes_w h
    have hdep : (s.dev.rd Reg.HOOP_CFG_DEP_MODEL i.hoop == 1) = false := by simpa using hdep
    have heff : (ixFsignal i.w).2 i d = .go (y.setWord i.hoop (y.fenceVa i.hoop (i.a 1 0)) (Nat.max word (i.bReg 2 0))) := by
      simp only [x] at hx hbad
      simp only [ixFsignal, hg, hk, ho, hv, if_false, Bool.false_eq_true, Nat.not_le.mpr hn, hx, hbad, Device.fenceSignal]
      rw [show ((d.xlate i.core i.hoop i.k.map (d.fenceVa i.hoop (i.a 1 0)) 8 [3, 4] false).1.seenVa i.hoop
        ((d.xlate i.core i.hoop i.k.map (d.fenceVa i.hoop (i.a 1 0)) 8 [3, 4] false).1.fenceVa i.hoop (i.a 1 0)) 8) = y from rfl, hword]
      simp only [hbit, Bool.false_eq_true, if_false]
    show Gives _ _ _
    rw [Gives, show exec (.fsignal e i.w) s = s.done (s.dev.issue e 0x79 i.w (ixFsignal i.w).1 (ixFsignal i.w).2
      (fun h => s.dev.rd Reg.HOOP_CFG_DEP_MODEL h == 1)) from rfl, Device.issue_executes h _ _ hdep, heff]
    rfl
  case doorbell =>
    have hbad : ¬ (i.a 1 0 ≥ 4096 ∨ (d.queue (i.a 1 0)).state = 0 ∨ (d.queue (i.a 1 0)).hoop ≠ i.hoop) := by
      rintro (hge | h0 | hne)
      · omega
      · exact hs h0
      · exact hne hh
    exact IC.completes_go rfl h (by simp only [ixDoorbell, hk, ho, hbad, if_false, Bool.false_eq_true])

end Sys2Proof.Machine

/-! The coherent domain at work: what it leaves alone whatever it meets, and what it leaves alone while it has no other request to perform
(R230 to R248). -/

namespace Sys2Proof.Machine

/-- The keys of the L2_ECC registers, which count what the domain meets. -/
def L2EccKey (k : Nat) : Prop := 0x32100 * 1024 ≤ k ∧ k < 0x32120 * 1024

/-- The keys of the registers of the wheel, the links, power, temperature and start-up, which neither the domain nor an error record writes. -/
def UnitKey (k : Nat) : Prop :=
  k < 0x32000 * 1024 ∨ (0x40000 * 1024 ≤ k ∧ k < 0x60000 * 1024) ∨ (0x70000 * 1024 ≤ k ∧ k < 0x100000 * 1024)

/-- The keys of the registers that the domain leaves alone also where it ends in a fatal event: those of the units, and those of hoop
windows but HOOP_CFG, which a fatal event writes. -/
def WindowKey (k : Nat) : Prop := (0x100000 * 1024 ≤ k ∧ k / 1024 % 0x10000 ≠ 0x10) ∨ UnitKey k

/-- Two devices whose hoop windows, HOOP_CFG apart, and whose registers of the units read alike. -/
structure Device.SameWindow (d d' : Device) : Prop where
  same : ∀ z k, WindowKey k → Tab.get z d'.regs k = Tab.get z d.regs k

theorem Device.SameWindow.of_regs {d d' : Device} (h : d'.regs = d.regs) : d.SameWindow d' := ⟨fun _ _ _ => by rw [h]⟩

theorem Device.SameWindow.trans {d e f : Device} (h : d.SameWindow e) (g : e.SameWindow f) : d.SameWindow f :=
  ⟨fun z k hk => (g.same z k hk).trans (h.same z k hk)⟩

/-- A device without the parts that the domain's work and a fatal event change. -/
def Device.rest (d : Device) : Device :=
  { d with regs := [], mem := Memory.zeroed, bad := [], fresh := 0, out := [], life := {}, pins := {}, stat := {}, coh := {} }

theorem Device.flow_eq_of_rest {d d' : Device} (h : d'.rest = d.rest) : d'.flow = d.flow := by
  change d'.rest.flow = d.rest.flow
  rw [h]

/-- The work of the domain leads from a device to another: unless a fatal event happens only the domain, its memory's bytes and their errors, its
counts and what it sends differ. Hoop windows, HOOP_CFG apart, and the registers of the units stay whatever happens. -/
structure Device.Works (d d' : Device) : Prop where
  rest : d'.rest = d.rest
  wf : d.mem.wf = true → d'.mem.wf = true
  window : d.SameWindow d'
  alive : d'.life.fatal = false →
    d'.life = d.life ∧ d'.mem.lost = d.mem.lost ∧ ∀ z k, ¬ L2EccKey k → Tab.get z d'.regs k = Tab.get z d.regs k

/-- The same work, which moves no byte of memory and leaves the domain at rest where it rests. -/
structure Device.Calm (d d' : Device) : Prop extends Device.Works d d' where
  calm : d.rests → d'.rests ∧ (d'.life.fatal = false → d'.mem = d.mem)

/-- Two states of the domain with the same requests open, waiting and due to be reported. -/
structure Coh.SameWork (c c' : Coh) : Prop where
  opened : c'.opened = c.opened
  waiting : c'.waiting = c.waiting
  failed : c'.failed = c.failed
  lost : c'.lost = c.lost

/-! Both relations compose -/

theorem Device.Works.refl (d : Device) : d.Works d := ⟨rfl, id, .of_regs rfl, fun _ => ⟨rfl, rfl, fun _ _ _ => rfl⟩⟩

theorem Device.Works.fatal {d d' : Device} (h : d.Works d') (hf : d'.life.fatal = false) : d.life.fatal = false := by
  rw [← (h.alive hf).1]; exact hf

theorem Device.Works.trans {d e f : Device} (h : d.Works e) (g : e.Works f) : d.Works f := by
  refine ⟨g.rest.trans h.rest, g.wf ∘ h.wf, h.window.trans g.window, fun hf => ?_⟩
  obtain ⟨hlife, hlost, hregs⟩ := g.alive hf
  obtain ⟨glife, glost, gregs⟩ := h.alive (g.fatal hf)
  exact ⟨hlife.trans glife, hlost.trans glost, fun z k hk => (hregs z k hk).trans (gregs z k hk)⟩

theorem Device.Calm.refl (d : Device) : d.Calm d := ⟨.refl d, fun hr => ⟨hr, fun _ => rfl⟩⟩

theorem Device.Calm.trans {d e f : Device} (h : d.Calm e) (g : e.Calm f) : d.Calm f := by
  refine ⟨h.toWorks.trans g.toWorks, fun hr => ?_⟩
  obtain ⟨hrest, hmem⟩ := h.calm hr
  obtain ⟨grest, gmem⟩ := g.calm hrest
  exact ⟨grest, fun hf => (gmem hf).trans (hmem (g.fatal hf))⟩

theorem Device.Works.foldl {α : Type} {f : Device → α → Device} (l : List α) (hf : ∀ d : Device, ∀ x ∈ l, d.Works (f d x)) (d : Device) :
    d.Works (l.foldl f d) := by
  induction l generalizing d with
  | nil => exact .refl d
  | cons x t ih => exact (hf d x (by simp)).trans (ih (fun d y hy => hf d y (by simp [hy])) _)

theorem Device.Calm.foldl {α : Type} {f : Device → α → Device} (l : List α) (hf : ∀ d : Device, ∀ x ∈ l, d.Calm (f d x)) (d : Device) :
    d.Calm (l.foldl f d) := by
  induction l generalizing d with
  | nil => exact .refl d
  | cons x t ih => exact (hf d x (by simp)).trans (ih (fun d y hy => hf d y (by simp [hy])) _)

theorem Coh.SameWork.refl (c : Coh) : c.SameWork c := ⟨rfl, rfl, rfl, rfl⟩

theorem Coh.SameWork.trans {b c e : Coh} (h : b.SameWork c) (g : c.SameWork e) : b.SameWork e :=
  ⟨g.opened.trans h.opened, g.waiting.trans h.waiting, g.failed.trans h.failed, g.lost.trans h.lost⟩

theorem Coh.SameWork.foldl {α : Type} {f : Coh → α → Coh} (hf : ∀ (c : Coh) x, c.SameWork (f c x)) (l : List α) (c : Coh) : c.SameWork (l.foldl f c) := by
  induction l generalizing c with
  | nil => exact .refl c
  | cons x t ih => exact (hf c x).trans (ih _)

/-! Steps of work -/

/-- A change of the counts, the errors of memory, the domain or what is sent. -/
theorem Device.Works.of_same {d d' : Device} (rest : d'.rest = d.rest) (regs : d'.regs = d.regs) (mem : d'.mem = d.mem) (life : d'.life = d.life) :
    d.Works d' :=
  ⟨rest, by rw [mem]; exact id, .of_regs regs, fun _ => ⟨life, by rw [mem], fun _ _ _ => by rw [regs]⟩⟩

theorem Device.Calm.of_same {d d' : Device} (rest : d'.rest = d.rest) (regs : d'.regs = d.regs) (mem : d'.mem = d.mem) (life : d'.life = d.life)
    (work : d.coh.SameWork d'.coh) : d.Calm d' := by
  refine ⟨.of_same rest regs mem life, fun hr => ⟨?_, fun _ => mem⟩⟩
  obtain ⟨hopened, hwaiting, hfailed, hlost⟩ := hr
  exact ⟨work.opened.trans hopened, work.waiting.trans hwaiting, work.failed.trans hfailed, work.lost.trans hlost⟩

theorem Device.setCoh_works (d : Device) (c : Coh) : d.Works (d.setCoh c) := .of_same rfl rfl rfl rfl

theorem Device.setCoh_calm (d : Device) {c : Coh} (h : d.coh.SameWork c) : d.Calm (d.setCoh c) := .of_same rfl rfl rfl rfl h

theorem Device.emit_calm (d : Device) (o : Out) : d.Calm (d.emit o) := .of_same rfl rfl rfl rfl (.refl _)

theorem Device.ringAdd_calm (d : Device) (hops : List Nat) (n : Nat) : d.Calm (d.ringAdd hops n) := .of_same rfl rfl rfl rfl (.refl _)

theorem Device.cnt_calm (d : Device) (h i n : Nat) : d.Calm (d.cnt h i n) := by
  unfold Device.cnt
  split
  · exact .of_same rfl rfl rfl rfl (.refl _)
  · split
    · exact .refl d
    · exact .of_same rfl rfl rfl rfl (.refl _)

theorem Device.setBad_calm (d : Device) (l : List Nat) : d.Calm { d with bad := l } := .of_same rfl rfl rfl rfl (.refl _)

theorem not_windowKey_of_l2EccKey {k : Nat} (h : L2EccKey k) : ¬ WindowKey k := by
  simp only [L2EccKey, WindowKey, UnitKey] at *
  omega

/-- A write of an L2_ECC register. -/
theorem Device.wr_calm (d : Device) {f : Fld} {i : Nat} (v : Nat) (hf : L2EccKey (f.key i)) : d.Calm (d.wr f i v) := by
  refine ⟨⟨rfl, id, ⟨fun z k hk => ?_⟩, fun _ => ⟨rfl, rfl, fun z k hk => ?_⟩⟩, fun hr => ⟨hr, fun _ => rfl⟩⟩
  · exact Tab.get_put_ne z _ _ _ (fun he => not_windowKey_of_l2EccKey hf (he ▸ hk))
  · exact Tab.get_put_ne z _ _ _ (fun he => hk (he ▸ hf))

theorem Device.countSat_calm (d : Device) {f : Fld} {i : Nat} (n : Nat) (hf : L2EccKey (f.key i)) : d.Calm (d.countSat f i n) := d.wr_calm _ hf

theorem l2EccKey_corr {a : Nat} (h : a < 4) : L2EccKey (Reg.L2_ECC_CORR.key a) := by
  simp only [L2EccKey, Fld.key, Reg.L2_ECC_CORR]; omega
theorem l2EccKey_uncorr {a : Nat} (h : a < 4) : L2EccKey (Reg.L2_ECC_UNCORR.key a) := by
  simp only [L2EccKey, Fld.key, Reg.L2_ECC_UNCORR]; omega
theorem l2EccKey_pinned {a : Nat} (h : a < 4) : L2EccKey (Reg.L2_ECC_PINNED.key a) := by
  simp only [L2EccKey, Fld.key, Reg.L2_ECC_PINNED]; omega

/-! A fatal event -/

@[simp] theorem Device.rest_wr (d : Device) (f : Fld) (i v : Nat) : (d.wr f i v).rest = d.rest := rfl

theorem Device.foldl_wr_eq {α : Type} (f : Fld) (i v : α → Nat) (l : List α) (d : Device) :
    ∃ r, l.foldl (fun d x => d.wr f (i x) (v x)) d = { d with regs := r } := by
  induction l generalizing d with
  | nil => exact ⟨d.regs, rfl⟩
  | cons x t ih =>
    obtain ⟨r, hr⟩ := ih (d.wr f (i x) (v x))
    exact ⟨r, by rw [List.foldl_cons, hr]; rfl⟩

/-- Registers, pins and messages apart, two devices agree in what a fatal event is told by. -/
def Device.Told (d d' : Device) : Prop := d'.rest = d.rest ∧ d'.mem = d.mem ∧ d'.life = d.life ∧ d'.coh = d.coh

theorem Device.Told.trans {d e f : Device} (h : d.Told e) (g : e.Told f) : d.Told f :=
  ⟨g.1.trans h.1, g.2.1.trans h.2.1, g.2.2.1.trans h.2.2.1, g.2.2.2.trans h.2.2.2⟩

theorem Device.wr_told (d : Device) (f : Fld) (i v : Nat) : d.Told (d.wr f i v) := ⟨rfl, rfl, rfl, rfl⟩

theorem Device.alert_told (d : Device) : d.Told d.alert := by
  unfold Device.alert
  dsimp only
  split <;> exact ⟨rfl, rfl, rfl, rfl⟩

theorem Device.errBit_told (d : Device) (r c : Nat) (dropped : Bool) : d.Told (d.errBit r c dropped) := by
  unfold Device.errBit
  split <;> exact ⟨rfl, rfl, rfl, rfl⟩

/-- A fatal event takes memory and the domain, and leaves what no fatal event touches. -/
theorem Device.moduleFatal_told (d : Device) (cause reporter suspect slice line : Nat) (hd : d.life.fatal = false) :
    Device.Told { d with life := { d.life with fatal := true, rindDead := suspect = 4 }, mem := Memory.undefinedSince d.fresh, coh := {} }
      (d.moduleFatal cause reporter suspect slice line) := by
  unfold Device.moduleFatal
  obtain ⟨r, hr⟩ := Device.foldl_wr_eq Reg.HOOP_CFG_STATE (fun h => h) (fun _ => 5) (List.range 8) d
  rw [if_neg (by simp [hd]), hr]
  extract_lets life dead started life' fatal valid withCause withReporter withSuspect withSlice withTime withLine word occ recorded shown alerted record
  split
  · exact ⟨rfl, rfl, rfl, rfl⟩
  · have hrecorded : fatal.Told recorded := by
      unfold recorded
      split
      · exact ⟨rfl, rfl, rfl, rfl⟩
      · have hcause := (fatal.wr_told Reg.COH_FATAL_VALID 0 1).trans (valid.wr_told Reg.COH_FATAL_CAUSE 0 cause)
        have hsuspect := (hcause.trans (withCause.wr_told Reg.COH_FATAL_REPORTER 0 reporter)).trans (withReporter.wr_told Reg.COH_FATAL_SUSPECT 0 suspect)
        have htime := (hsuspect.trans (withSuspect.wr_told Reg.COH_FATAL_SLICE 0 slice)).trans
          (withSlice.wr_told Reg.COH_FATAL_TIME_US 0 (withSlice.clock.now / 1000))
        exact (htime.trans (withTime.wr_told Reg.COH_FATAL_ADDR_LINE 0 line)).trans (withLine.wr_told Reg.FATAL_RECORD_RECORD 0 _)
    have halerted := (hrecorded.trans (recorded.errBit_told 8 14 false)).trans shown.alert_told
    exact halerted.trans ⟨rfl, rfl, rfl, rfl⟩

theorem Device.wr_sameWindow (d : Device) {f : Fld} {i : Nat} (v : Nat) (hf : ¬ WindowKey (f.key i)) : d.SameWindow (d.wr f i v) :=
  ⟨fun z _ hk => Tab.get_put_ne z _ _ _ (fun he => hf (he ▸ hk))⟩

theorem not_windowKey_of_base {f : Fld} (hf : (0x32000 ≤ f.base ∧ f.base < 0x40000) ∨ (0x60000 ≤ f.base ∧ f.base < 0x70000)) (hlo : f.lo < 1024) :
    ¬ WindowKey (f.key 0) := by
  simp only [WindowKey, UnitKey, Fld.key, Nat.mul_zero]
  omega

theorem Device.errBit_sameWindow (d : Device) (c : Nat) : d.SameWindow (d.errBit 8 c false) := by
  unfold Device.errBit
  rw [if_pos rfl, if_neg Bool.false_ne_true]
  exact d.wr_sameWindow _ (not_windowKey_of_base (f := Reg.ERR_SUMMARY_CLASS) (by decide) (by decide))

theorem Device.alert_sameWindow (d : Device) : d.SameWindow d.alert := by
  unfold Device.alert
  dsimp only
  split <;> exact .of_regs rfl

theorem Device.emit_sameWindow (d : Device) (o : Out) : d.SameWindow (d.emit o) := .of_regs rfl

/-- A fatal event writes HOOP_CFG of every hoop and registers below those of power. -/
theorem Device.moduleFatal_window (d : Device) (cause reporter suspect slice line : Nat) : d.SameWindow (d.moduleFatal cause reporter suspect slice line) := by
  unfold Device.moduleFatal
  extract_lets dead started life' fatal valid withCause withReporter withSuspect withSlice withTime withLine word occ recorded shown alerted record
  have hstarted : d.SameWindow started := List.foldlRecOn (motive := fun e : Device => d.SameWindow e) (List.range 8) _ (.of_regs rfl) fun e he h _ =>
    he.trans (e.wr_sameWindow 5 (by
      simp only [WindowKey, UnitKey, Fld.key, Reg.HOOP_CFG_STATE]
      omega))
  have hrecorded : fatal.SameWindow recorded := by
    unfold recorded
    split
    · exact .of_regs rfl
    · have hcause := (fatal.wr_sameWindow 1 (not_windowKey_of_base (f := Reg.COH_FATAL_VALID) (by decide) (by decide))).trans
        (valid.wr_sameWindow cause (not_windowKey_of_base (f := Reg.COH_FATAL_CAUSE) (by decide) (by decide)))
      have hsuspect := (hcause.trans (withCause.wr_sameWindow reporter (not_windowKey_of_base (f := Reg.COH_FATAL_REPORTER) (by decide) (by decide)))).trans
        (withReporter.wr_sameWindow suspect (not_windowKey_of_base (f := Reg.COH_FATAL_SUSPECT) (by decide) (by decide)))
      have htime := (hsuspect.trans (withSuspect.wr_sameWindow slice (not_windowKey_of_base (f := Reg.COH_FATAL_SLICE) (by decide) (by decide)))).trans
        (withSlice.wr_sameWindow (withSlice.clock.now / 1000) (not_windowKey_of_base (f := Reg.COH_FATAL_TIME_US) (by decide) (by decide)))
      exact (htime.trans (withTime.wr_sameWindow line (not_windowKey_of_base (f := Reg.COH_FATAL_ADDR_LINE) (by decide) (by decide)))).trans
        (withLine.wr_sameWindow _ (not_windowKey_of_base (f := Reg.FATAL_RECORD_RECORD) (by decide) (by decide)))
  split
  · exact .of_regs rfl
  · have hfatal : d.SameWindow fatal := hstarted.trans (.of_regs rfl)
    split
    · exact hfatal
    · exact (((hfatal.trans hrecorded).trans (recorded.errBit_sameWindow 14)).trans shown.alert_sameWindow).trans ((alerted.emit_sameWindow _).trans (Device.emit_sameWindow ..))

/-- After a fatal event, unless it is none, nothing need be as it was. -/
theorem Device.moduleFatal_calm (d : Device) (cause reporter suspect slice line : Nat) : d.Calm (d.moduleFatal cause reporter suspect slice line) := by
  by_cases hd : d.life.fatal = true
  · rw [show d.moduleFatal cause reporter suspect slice line = d by simp [Device.moduleFatal, hd]]
    exact .refl d
  · obtain ⟨hrest, hmem, hlife, hcoh⟩ := d.moduleFatal_told cause reporter suspect slice line (by simpa using hd)
    have hfatal : (d.moduleFatal cause reporter suspect slice line).life.fatal ≠ false := by rw [hlife]; simp
    exact ⟨⟨hrest, fun _ => by rw [hmem]; rfl, d.moduleFatal_window .., fun hf => absurd hf hfatal⟩, fun _ => ⟨by simp [Device.rests, hcoh], fun hf => absurd hf hfatal⟩⟩

/-! The domain as data -/

theorem Coh.setCache_work (c : Coh) (a : Nat) (t : Tab CLine) : c.SameWork (c.setCache a t) := ⟨rfl, rfl, rfl, rfl⟩

theorem Coh.modLine_work (c : Coh) (a n : Nat) (f : CLine → CLine) : c.SameWork (c.modLine a n f) := by
  unfold Coh.modLine
  dsimp only
  split
  · exact .refl c
  · exact c.setCache_work ..

theorem Coh.setState_work (c : Coh) (a n st : Nat) : c.SameWork (c.setState a n st) := by
  unfold Coh.setState
  dsimp only
  split
  · exact .refl c
  · split
    · exact .refl c
    · exact c.setCache_work ..

theorem Coh.touch_work (c : Coh) (a n : Nat) : c.SameWork (c.touch a n) := c.modLine_work ..

theorem Coh.renew_work (c : Coh) (n : Nat) : c.SameWork (c.renew n) := .foldl (fun c a => c.modLine_work a n _) _ c

theorem Coh.alloc_work (c : Coh) (a n hoop mask st : Nat) (used : Bool) : c.SameWork (c.alloc a n hoop mask st used) := by
  unfold Coh.alloc
  dsimp only
  split
  · exact c.setCache_work ..
  · split
    · exact .refl c
    · split
      · exact ⟨rfl, rfl, rfl, rfl⟩
      · split
        · exact .refl c
        · exact c.setCache_work ..

theorem Coh.shortened_work (c : Coh) (kind a n hoop mask : Nat) (used : Bool) : c.SameWork (c.shortened kind a n hoop mask used) := by
  have hhome := (c.touch_work (homeDie (n * 128)) n).trans
    (Coh.setState_work _ (homeDie (n * 128)) n (shortcutResult kind (c.state (homeDie (n * 128)) n)).1)
  unfold Coh.shortened
  dsimp only
  split
  · exact hhome.trans (Coh.alloc_work ..)
  · split
    · exact hhome
    · exact hhome.trans (Coh.setState_work ..)

theorem Coh.granted_work (c : Coh) (kind a n hoop mask : Nat) (rsps : List Nat) (used : Bool) : c.SameWork (c.granted kind a n hoop mask rsps used) := by
  unfold Coh.granted
  dsimp only
  split
  · exact c.alloc_work ..
  · split
    · exact .refl c
    · exact c.setState_work ..

theorem Coh.tx_work (c : Coh) (kind a n hoop mask : Nat) (used : Bool) : c.SameWork (c.tx kind a n hoop mask used) := by
  unfold Coh.tx
  split
  · exact c.shortened_work ..
  · exact ((c.touch_work ..).trans (.foldl (fun c' x => c'.setState_work x n _) _ _)).trans (Coh.granted_work ..)

theorem Coh.read_work (c : Coh) (a n hoop mask : Nat) (allocate used : Bool) : c.SameWork (c.read a n hoop mask allocate used) := by
  unfold Coh.read
  split
  · exact c.touch_work ..
  · exact c.tx_work ..

theorem Coh.writeLine_work (c : Coh) (a n hoop mask : Nat) (whole allocate used : Bool) :
    c.SameWork (c.writeLine a n hoop mask whole allocate used) := by
  have hrenew : c.SameWork (if whole then c.renew n else c) := by
    split
    · exact c.renew_work n
    · exact .refl c
  unfold Coh.writeLine
  dsimp only
  split
  · exact (hrenew.trans (Coh.setState_work ..)).trans (Coh.touch_work ..)
  · exact hrenew.trans (Coh.tx_work ..)

/-! Errors in the domain's SRAMs -/

theorem Device.pinsNow_calm (d : Device) : d.Calm d.pinsNow :=
  .foldl _ (fun d _ ha => d.wr_calm _ (l2EccKey_pinned (by simpa using ha))) d

theorem Device.pinLine_calm (d : Device) (n : Nat) : d.Calm (d.pinLine n) := by
  refine .foldl _ (fun d a ha => ?_) d
  split
  · exact .refl d
  · split
    · exact .refl d
    · split
      · exact d.moduleFatal_calm ..
      · exact ((d.setCoh_calm (Coh.modLine_work ..)).trans (Device.countSat_calm _ _ (l2EccKey_uncorr (by simpa using ha)))).trans (Device.pinsNow_calm _)

theorem Device.renewed_calm (d : Device) (n : Nat) : d.Calm (d.renewed n) := by
  have h : d.Calm (d.setCoh (d.coh.renew n)) := d.setCoh_calm (Coh.renew_work ..)
  unfold Device.renewed
  dsimp only
  split
  · exact h
  · exact h.trans (Device.pinsNow_calm _)

theorem Device.pinVictims_calm (d : Device) (a n mask fuel : Nat) : d.Calm (d.pinVictims a n mask fuel) := by
  induction fuel generalizing d with
  | zero => exact .refl d
  | succ fuel ih =>
    unfold Device.pinVictims
    split
    · exact .refl d
    · dsimp only
      split
      · split
        · exact (d.pinLine_calm _).trans (ih _)
        · exact .refl d
      · exact .refl d

theorem Device.lookedUp_calm (d : Device) (a n : Nat) (consumes : Bool) : d.Calm (d.lookedUp a n consumes) := by
  unfold Device.lookedUp
  split
  · exact d.moduleFatal_calm ..
  · have hsoft : d.Calm (if d.coh.soft.contains (a, n) then
        let d := d.setCoh { d.coh with soft := d.coh.soft.erase (a, n) }
        if a < 4 then d.countSat Reg.L2_ECC_CORR a else d
      else d) := by
      split
      · have hcorrected : d.Calm (d.setCoh { d.coh with soft := d.coh.soft.erase (a, n) }) := d.setCoh_calm ⟨rfl, rfl, rfl, rfl⟩
        dsimp only
        split
        · exact hcorrected.trans (Device.countSat_calm _ _ (l2EccKey_corr ‹_›))
        · exact hcorrected
      · exact .refl d
    refine hsoft.trans ?_
    generalize (if d.coh.soft.contains (a, n) then _ else d) = e
    dsimp only
    split
    · exact .refl e
    · split
      · exact .refl e
      · split
        · exact (e.setCoh_calm (Coh.setState_work ..)).trans (Device.countSat_calm _ _ (l2EccKey_uncorr ‹_›))
        · exact e.setCoh_calm (Coh.setState_work ..)

theorem Device.transact_calm (d : Device) (kind agent n : Nat) : d.Calm (d.transact kind agent n) := by
  unfold Device.transact
  dsimp only
  split
  · exact d.moduleFatal_calm ..
  · exact .foldl _ (fun d x _ => d.lookedUp_calm ..) d

/-! Counts and messages -/

theorem Device.cxlSend_calm (d : Device) (line w mask : Nat) : d.Calm (d.cxlSend line w mask) := by
  unfold Device.cxlSend
  split
  · exact .refl d
  · refine .foldl _ (fun d x _ => ?_) d
    split
    · exact .refl d
    · exact d.emit_calm _

theorem Device.memBytes_calm (d : Device) (h line w n mask : Nat) : d.Calm (d.memBytes h line w n mask) := by
  unfold Device.memBytes
  extract_lets cxl counted moved coh written
  have hmoved : d.Calm moved := by
    have hcounted : d.Calm counted := d.cnt_calm ..
    unfold moved
    split
    · exact hcounted
    · split
      · exact ((hcounted.trans (counted.ringAdd_calm ..)).trans (Device.ringAdd_calm ..)).trans (Device.cxlSend_calm ..)
      · exact (hcounted.trans (counted.ringAdd_calm ..)).trans (Device.cxlSend_calm ..)
  have hwritten : d.Calm written := by
    unfold written
    split
    · exact hmoved.trans (moved.setCoh_calm ⟨rfl, rfl, rfl, rfl⟩)
    · exact hmoved
  split
  · exact hwritten.trans (written.setBad_calm _)
  · exact hwritten

theorem Device.answerTraffic_calm (d : Device) (kind a n : Nat) (brings : Bool) (rs : List (Nat × Nat)) : d.Calm (d.answerTraffic kind a n brings rs) := by
  unfold Device.answerTraffic
  extract_lets home
  split
  · exact d.ringAdd_calm ..
  · split
    · exact d.ringAdd_calm ..
    · split
      · exact d.ringAdd_calm ..
      · exact (d.ringAdd_calm ..).trans (Device.ringAdd_calm ..)

theorem Device.answerMemory_calm (d : Device) (kind n bytes hoop : Nat) (brings : Bool) (rs : List (Nat × Nat)) (m : Nat) :
    d.Calm (d.answerMemory kind n bytes hoop brings rs m) := by
  unfold Device.answerMemory
  extract_lets dirty read
  have hread : d.Calm read := by
    unfold read
    split
    · exact d.memBytes_calm ..
    · exact .refl d
  split
  · split
    · exact hread.trans (Device.memBytes_calm ..)
    · exact hread.trans (Device.memBytes_calm ..)
  · exact hread

theorem Device.cleaned_calm (d : Device) (kind a n : Nat) : d.Calm (d.cleaned kind a n) := by
  unfold Device.cleaned
  split
  · split
    · exact d.memBytes_calm ..
    · exact .refl d
  · exact .refl d

theorem Device.txCost_calm (d : Device) (kind a n bytes hoop m : Nat) : d.Calm (d.txCost kind a n bytes hoop m) := by
  unfold Device.txCost
  extract_lets c home asked rs cleaned snooped answered
  have hasked : d.Calm asked := d.ringAdd_calm ..
  split
  · refine Device.Calm.trans ?_ (Device.ringAdd_calm ..)
    split
    · exact hasked.trans (asked.cleaned_calm ..)
    · exact hasked
  · have hcleaned : d.Calm cleaned := hasked.trans (.foldl _ (fun d x _ => d.cleaned_calm ..) asked)
    have hanswered : d.Calm answered := (hcleaned.trans (cleaned.ringAdd_calm ..)).trans (.foldl _ (fun d x _ => d.ringAdd_calm ..) _)
    exact (hanswered.trans (answered.answerTraffic_calm ..)).trans (Device.answerMemory_calm ..)

theorem Device.lookup_calm (d : Device) (agent h n : Nat) : d.Calm (d.lookup agent h n) := by
  unfold Device.lookup
  extract_lets hit home looked
  have hlooked : d.Calm looked := by
    unfold looked
    split
    · exact .refl d
    · exact d.cnt_calm ..
  split
  · exact hlooked
  · exact hlooked.trans (looked.cnt_calm ..)

theorem Device.ringMsg_calm (d : Device) (src dst kind line n : Nat) : d.Calm (d.ringMsg src dst kind line n) := by
  unfold Device.ringMsg
  extract_lets sent
  have hsent : d.Calm sent := d.emit_calm _
  split
  · exact hsent.trans (sent.ringAdd_calm ..)
  · split
    · exact hsent
    · exact hsent.trans (sent.ringAdd_calm ..)

/-! Write-backs -/

theorem Device.takeWb_calm (d : Device) (n : Nat) (t : Track) : d.Calm (d.takeWb n t) := by
  unfold Device.takeWb
  extract_lets c
  split
  · have herased : d.coh.SameWork { c with wbs := c.wbs.erase (t.agent, n) } := ⟨rfl, rfl, rfl, rfl⟩
    have hdropped : d.Calm (d.setCoh ({ c with wbs := c.wbs.erase (t.agent, n) }.setState t.agent n 0)) :=
      d.setCoh_calm (herased.trans (Coh.setState_work ..))
    exact (hdropped.trans (Device.emit_calm ..)).trans (Device.memBytes_calm ..)
  · exact .refl d

theorem Device.not_busy_of_rests {d : Device} (h : d.rests) (n : Nat) : (d.coh.busy n || Decidable.decide (48 ≤ d.coh.openAt n)) = false := by
  obtain ⟨hopened, hwaiting, -, -⟩ := h
  simp [Coh.busy, Coh.openAt, hopened, hwaiting]

/-- A domain at rest takes a write-back at once. -/
theorem Device.settleCoh_calm (d : Device) (agent n : Nat) {c : Coh} (h : d.coh.SameWork c) : d.Calm (d.settleCoh agent n c) := by
  refine (d.setCoh_calm h).trans (.foldl _ (fun d l _ => ?_) _)
  extract_lets t coh sent
  have hwbs : d.Calm (d.setCoh { d.coh with wbs := d.coh.wbs ++ [(agent, l.1)] }) := d.setCoh_calm ⟨rfl, rfl, rfl, rfl⟩
  have hsent : d.Calm sent := hwbs.trans (Device.ringMsg_calm ..)
  split
  · have hwork : sent.Works (sent.setCoh { sent.coh with waiting := sent.coh.waiting ++ [(l.1, t)] }) := Device.setCoh_works ..
    refine ⟨hsent.toWorks.trans hwork, fun hr => ?_⟩
    have hfree := sent.not_busy_of_rests (hsent.calm hr).1 l.1
    simp_all
  · exact hsent.trans (sent.takeWb_calm ..)

theorem Device.settleCoh_works (d : Device) (agent n : Nat) (c : Coh) : d.Works (d.settleCoh agent n c) := by
  refine (d.setCoh_works c).trans (.foldl _ (fun d l _ => ?_) _)
  extract_lets t coh sent
  have hsent : d.Works sent := (d.setCoh_works _).trans (Device.ringMsg_calm ..).toWorks
  split
  · exact hsent.trans (sent.setCoh_works _)
  · exact hsent.trans (sent.takeWb_calm ..).toWorks

/-! What a home performs -/

theorem Device.writeDev_works (d : Device) (a : Nat) (data : Bytes) : d.Works (d.writeDev a data) := by
  unfold Device.writeDev
  split
  · exact .refl d
  · exact ⟨rfl, fun h => Memory.write_wf h a data, .of_regs rfl, fun _ => ⟨rfl, Memory.write_lost .., fun _ _ _ => rfl⟩⟩

theorem Device.perform_works (d : Device) (n : Nat) (t : Track) : d.Works (d.perform n t) := by
  unfold Device.perform
  extract_lets a
  split
  · split
    · exact d.writeDev_works ..
    · exact .refl d
  · extract_lets w
    split
    · exact d.setCoh_works _
    · exact (d.writeDev_works ..).trans (Device.emit_calm ..).toWorks

theorem Device.takeRequest_works (d : Device) (n : Nat) (t : Track) : d.Works (d.take_ n t) := by
  unfold Device.take_
  extract_lets home whole renewed looked pinned c brings cleaned c' hs own moved c1 c2 t'
  split
  · exact (d.moduleFatal_calm ..).toWorks
  · split
    · exact (d.takeWb_calm ..).toWorks
    · have hrenewed : d.Calm renewed := by
        unfold renewed
        split
        · exact d.renewed_calm n
        · exact d.pinLine_calm n
      have hpinned : d.Works pinned := ((hrenewed.trans (renewed.lookedUp_calm ..)).trans (looked.pinVictims_calm ..)).toWorks
      split
      · exact hpinned
      · split
        · have hcleaned : d.Works cleaned := by
            unfold cleaned
            split
            · exact hpinned.trans (pinned.cleaned_calm ..).toWorks
            · exact hpinned
          exact (((hcleaned.trans (cleaned.settleCoh_works ..)).trans (Device.perform_works ..)).trans (Device.ringMsg_calm ..).toWorks).trans
            (Device.ringAdd_calm ..).toWorks
        · have hmoved : d.Works moved := by
            unfold moved
            split
            · exact hpinned
            · exact hpinned.trans (pinned.cleaned_calm ..).toWorks
          exact ((hmoved.trans (moved.setCoh_works _)).trans (Device.ringAdd_calm ..).toWorks).trans
            (.foldl _ (fun d x _ => (d.ringMsg_calm ..).toWorks) _)

theorem Device.takeNext_works (d : Device) (n fuel : Nat) : d.Works (d.takeNext n fuel) := by
  induction fuel generalizing d with
  | zero => exact .refl d
  | succ fuel ih =>
    unfold Device.takeNext
    extract_lets here
    split
    · exact .refl d
    · split
      · exact .refl d
      · exact ((d.setCoh_works _).trans (Device.takeRequest_works ..)).trans (ih _)

theorem Device.snooped_works (d : Device) (agent n : Nat) : d.Works (d.snooped agent n) := by
  unfold Device.snooped
  split
  · exact .refl d
  · exact (d.moduleFatal_calm ..).toWorks
  · extract_lets looked c st inWb r tag cleaned c1 c2 c3
    have hlooked : d.Works looked := ((d.pinLine_calm n).trans (Device.lookedUp_calm ..)).toWorks
    split
    · exact hlooked
    · have hcleaned : d.Works cleaned := by
        unfold cleaned
        split
        · exact hlooked
        · split
          · exact hlooked.trans (looked.memBytes_calm ..).toWorks
          · exact hlooked.trans (looked.cleaned_calm ..).toWorks
      exact (hcleaned.trans (cleaned.setCoh_works _)).trans (Device.ringMsg_calm ..).toWorks

theorem Device.responded_works (d : Device) (rsp agent n : Nat) : d.Works (d.responded rsp agent n) := by
  unfold Device.responded
  extract_lets c
  split
  · exact .refl d
  · exact (d.moduleFatal_calm ..).toWorks
  · exact d.setCoh_works _

theorem Device.completed_works (d : Device) (n : Nat) : d.Works (d.completed n) := by
  unfold Device.completed
  extract_lets c
  split
  · exact .refl d
  · split
    · exact .refl d
    · split
      · exact (d.moduleFatal_calm ..).toWorks
      · extract_lets rs brings memory answered pinned granted
        have hanswered : d.Works answered :=
          ((d.setCoh_works { d.coh with opened := Tab.erase d.coh.opened n }).trans (Device.answerTraffic_calm ..).toWorks).trans (Device.answerMemory_calm ..).toWorks
        have hgranted : d.Works granted := by
          unfold granted
          split
          · exact hanswered
          · exact (hanswered.trans (answered.pinVictims_calm ..).toWorks).trans (pinned.settleCoh_works ..)
        split
        · exact hgranted
        · exact (hgranted.trans (granted.perform_works ..)).trans (Device.takeNext_works ..)

theorem Device.runLine_works (d : Device) (n fuel : Nat) : d.Works (d.runLine n fuel) := by
  induction fuel generalizing d with
  | zero => exact .refl d
  | succ fuel ih =>
    unfold Device.runLine
    split
    · exact .refl d
    · extract_lets here m due snooped responded
      have hsnooped : d.Works snooped := .foldl _ (fun d x _ => d.snooped_works ..) d
      have hresponded : d.Works responded := hsnooped.trans (.foldl _ (fun d r _ => d.responded_works ..) snooped)
      exact (hresponded.trans (responded.completed_works m)).trans (ih _)

theorem Device.settled_calm (d : Device) (n : Nat) : d.Calm (d.settled n) := by
  refine ⟨d.runLine_works n _, fun hr => ?_⟩
  obtain ⟨hopened, hwaiting, hfailed, hlost⟩ := hr
  have hsame : d.settled n = d := by simp [Device.settled, hopened, hwaiting, Device.runLine]
  rw [hsame]
  exact ⟨⟨hopened, hwaiting, hfailed, hlost⟩, fun _ => rfl⟩

/-! Accesses of a line -/

theorem Device.cxlFailed_works (d : Device) (n : Nat) (write : Bool) : d.Works (d.cxlFailed n write) := by
  unfold Device.cxlFailed
  split
  · exact .refl d
  · split
    · exact .refl d
    · exact d.setCoh_works _

theorem Device.looked_calm (d : Device) (agent n : Nat) (consumes whole : Bool) : d.Calm (d.looked agent n consumes whole) := by
  unfold Device.looked
  extract_lets settled pinned looked
  have hpinned : d.Calm pinned := by
    unfold pinned
    split
    · exact d.settled_calm n
    · exact (d.settled_calm n).trans (settled.pinLine_calm n)
  have hlooked : d.Calm looked := by
    unfold looked
    split
    · exact hpinned
    · exact hpinned.trans (pinned.lookedUp_calm ..)
  split
  · exact hlooked
  · exact hlooked.trans (looked.lookedUp_calm ..)

/-- What a line's read does after the record of a failed CXL request. -/
theorem Device.lineRead_calm_from (d : Device) (agent hoop : Nat) (allocate used : Bool) (n : Nat) :
    (d.cxlFailed n false).Calm (d.lineRead agent hoop allocate used n) := by
  unfold Device.lineRead
  extract_lets looked mask met pinned allocate' counted paid
  have hlooked : (d.cxlFailed n false).Calm looked := Device.looked_calm ..
  have hmet : (d.cxlFailed n false).Calm met := by
    unfold met
    split
    · exact hlooked.trans (looked.transact_calm ..)
    · exact hlooked
  have hpinned : (d.cxlFailed n false).Calm pinned := by
    unfold pinned
    split
    · exact hmet.trans (met.pinVictims_calm ..)
    · exact hmet
  split
  · exact hpinned
  · have hpaid : (d.cxlFailed n false).Calm paid := by
      have hcounted := hpinned.trans (pinned.lookup_calm agent hoop n)
      unfold paid
      split
      · exact hcounted.trans (Device.txCost_calm ..)
      · exact hcounted
    exact hpaid.trans (paid.settleCoh_calm _ _ (Coh.read_work ..))

theorem Device.lineWrite_calm_from (d : Device) (agent hoop : Nat) (allocate used : Bool) (n len m : Nat) :
    (d.cxlFailed n true).Calm (d.lineWrite agent hoop allocate used n len m) := by
  unfold Device.lineWrite
  extract_lets whole looked renewed mask met pinned allocate' counted paid
  have hrenewed : (d.cxlFailed n true).Calm renewed := by
    have hlooked : (d.cxlFailed n true).Calm looked := Device.looked_calm ..
    unfold renewed
    split
    · exact hlooked.trans (looked.renewed_calm n)
    · exact hlooked
  have hmet : (d.cxlFailed n true).Calm met := by
    unfold met
    split
    · exact hrenewed.trans (renewed.transact_calm ..)
    · exact hrenewed
  have hpinned : (d.cxlFailed n true).Calm pinned := by
    unfold pinned
    split
    · exact hmet.trans (met.pinVictims_calm ..)
    · exact hmet
  split
  · exact hpinned
  · have hpaid : (d.cxlFailed n true).Calm paid := by
      have hcounted := hpinned.trans (pinned.lookup_calm agent hoop n)
      unfold paid
      split
      · exact hcounted.trans (Device.txCost_calm ..)
      · exact hcounted
    exact hpaid.trans (paid.settleCoh_calm _ _ (Coh.writeLine_work ..))

theorem Device.lineRead_works (d : Device) (agent hoop : Nat) (allocate used : Bool) (n : Nat) : d.Works (d.lineRead agent hoop allocate used n) :=
  (d.cxlFailed_works n false).trans (d.lineRead_calm_from agent hoop allocate used n).toWorks

theorem Device.lineWrite_works (d : Device) (agent hoop : Nat) (allocate used : Bool) (n len m : Nat) :
    d.Works (d.lineWrite agent hoop allocate used n len m) :=
  (d.cxlFailed_works n true).trans (d.lineWrite_calm_from agent hoop allocate used n len m).toWorks

theorem Device.ownWrite_works (d : Device) (agent hoop a : Nat) (data : Bytes) : d.Works (d.ownWrite agent hoop a data) :=
  (Device.Works.foldl _ (fun d _ _ => d.lineWrite_works ..) d).trans (Device.writeDev_works ..)

theorem Device.ownRead_works (d : Device) (agent hoop a n : Nat) : d.Works (d.ownRead agent hoop a n) :=
  .foldl _ (fun d _ _ => d.lineRead_works ..) d

end Sys2Proof.Machine

/-! Accesses of cores to the coherent domain: what a store writes (R157), and two accesses that leave more than the manual says (R401). -/

namespace Sys2Proof.Machine

/-! Registers that the domain leaves alone -/

/-- Unless a fatal event happens, the module's life and its registers outside L2_ECC stay. -/
structure Device.Tame (d d' : Device) : Prop where
  life : d'.life.fatal = false → d'.life = d.life
  regs : d'.life.fatal = false → ∀ z k, ¬ L2EccKey k → Tab.get z d'.regs k = Tab.get z d.regs k

theorem Device.Works.tame {d d' : Device} (h : d.Works d') : d.Tame d' := ⟨fun hf => (h.alive hf).1, fun hf => (h.alive hf).2.2⟩

theorem Device.Tame.trans {d e f : Device} (h : d.Tame e) (g : e.Tame f) : d.Tame f := by
  have hfatal : f.life.fatal = false → e.life.fatal = false := fun hf => by rw [← g.life hf]; exact hf
  exact ⟨fun hf => (g.life hf).trans (h.life (hfatal hf)), fun hf z k hk => (g.regs hf z k hk).trans (h.regs (hfatal hf) z k hk)⟩

theorem Device.Tame.of_same {d d' : Device} (life : d'.life = d.life) (regs : d'.regs = d.regs) : d.Tame d' :=
  ⟨fun _ => life, fun _ _ _ _ => by rw [regs]⟩

theorem Device.Tame.rd_eq {d d' : Device} (h : d.Tame d') (hf : d'.life.fatal = false) {f : Fld} {i : Nat} (hk : ¬ L2EccKey (f.key i)) :
    d'.rd f i = d.rd f i := h.regs hf _ _ hk

/-- A field at an address beyond L2_ECC is none of its fields. -/
theorem not_l2EccKey_of_base {f : Fld} (h : 0x32120 ≤ f.base) (i : Nat) : ¬ L2EccKey (f.key i) := by
  have hkey : 0x32120 * 1024 ≤ (f.base + f.stride * i) * 1024 := Nat.mul_le_mul_right 1024 (h.trans (Nat.le_add_right ..))
  rintro ⟨-, hlt⟩
  simp only [Fld.key] at hlt
  omega

/-- The work of the domain changes no route to the CXL tier. -/
theorem Device.Works.cxlRoute_eq {d d' : Device} (h : d.Works d') (hf : d'.life.fatal = false) (a : Nat) : d'.cxlRoute a = d.cxlRoute a := by
  have hflow : d'.flow = d.flow := Device.flow_eq_of_rest h.rest
  have hrd : ∀ {f : Fld}, 0x32120 ≤ f.base → ∀ i, d'.rd f i = d.rd f i := fun hb i => h.tame.rd_eq hf (not_l2EccKey_of_base hb i)
  simp only [Device.cxlRoute, Device.cxlPlace, hflow, hrd (f := Reg.CXL_HDM_CTRL_COMMITTED) (by decide), hrd (f := Reg.CXL_HDM_RANGE_BASE) (by decide),
    hrd (f := Reg.CXL_HDM_RANGE_SIZE) (by decide), hrd (f := Reg.CXL_HDM_RANGE_DPA_BASE) (by decide), hrd (f := Reg.CXL_HDM_CTRL_WAYS) (by decide),
    hrd (f := Reg.CXL_HDM_CTRL_T0) (by decide), hrd (f := Reg.CXL_HDM_CTRL_T1) (by decide), hrd (f := Reg.CXL_LINK_STATUS_STATE) (by decide)]

/-! An entry that goes on -/

theorem Device.hostWrite_tame (d : Device) (fn addr : Nat) (data : Bytes) : d.Tame (d.hostWrite fn addr data) := by
  unfold Device.hostWrite
  split
  · exact (Device.Works.foldl _ (fun d x _ => (d.emit_calm _).toWorks) d).tame
  · exact .of_same rfl rfl

theorem Device.writeSeg_works (d : Device) (agent who : Nat) (s : Seg) (o : Nat) (data : Bytes) : d.Works (d.writeSeg agent who s o data) := by
  refine .foldl _ (fun d p _ => ?_) d
  split
  · exact d.ownWrite_works ..
  · exact .refl d

theorem Device.writeVa_tame {d e : Device} {h va : Nat} {data : Bytes} {session : Bool} {who : Nat} (he : d.writeVa h va data session who = some e) :
    d.Tame e := by
  unfold Device.writeVa Device.storeVa at he
  split at he
  · cases he
  · dsimp only at he
    split at he
    · cases he
    · split at he
      · cases he
      · split at he
        · cases he
          exact Device.Tame.trans (d.hostWrite_tame ..) (Device.cnt_calm ..).tame
        · cases he
          exact (d.writeSeg_works ..).tame

/-- A trace record that is written where the trace is off afterwards has changed no byte of memory. -/
theorem Device.trace_mem (d : Device) (h kind outcome : Nat) (w : Waiter) (object detail : Nat) (start : Stamp) :
    (d.trace h kind outcome w object detail start).life.fatal = false →
    (d.trace h kind outcome w object detail start).rd Reg.HOOP_TRACE_ENABLE h = 0 →
    (d.trace h kind outcome w object detail start).mem = d.mem ∧ d.life.fatal = false := by
  unfold Device.trace
  extract_lets x long t n stamp bytes
  split
  · exact fun hf _ => ⟨rfl, hf⟩
  · rename_i hon
    split
    · exact fun hf _ => ⟨rfl, hf⟩
    · split
      · rename_i e he
        intro hf hoff
        have hne : Reg.HOOP_TRACE_ENABLE.key h ≠ Reg.HOOP_TRACE_PTR_TAIL.key h := by
          simp only [Fld.key, Reg.HOOP_TRACE_ENABLE, Reg.HOOP_TRACE_PTR_TAIL]; omega
        have hen : e.rd Reg.HOOP_TRACE_ENABLE h = d.rd Reg.HOOP_TRACE_ENABLE h :=
          (Device.writeVa_tame he).rd_eq hf (not_l2EccKey_of_base (by decide) h)
        rw [Device.rd_wr_ne _ _ _ _ _ _ hne, hen] at hoff
        exact absurd (.inl hoff) hon
      · exact fun hf _ => ⟨rfl, hf⟩

/-- Where no hoop traces after it, an entry that goes on changes no byte of memory. -/
theorem Device.mem_goTo {d : Device} {core e pc : Nat} (hf : (d.goTo_ core e pc).life.fatal = false)
    (hoff : ∀ h, (d.goTo_ core e pc).rd Reg.HOOP_TRACE_ENABLE h = 0) : (d.goTo_ core e pc).mem = d.mem ∧ d.life.fatal = false := by
  have hun : (d.unwait core e).life.fatal = false → (∀ h, (d.unwait core e).rd Reg.HOOP_TRACE_ENABLE h = 0) →
      (d.unwait core e).mem = d.mem ∧ d.life.fatal = false := by
    unfold Device.unwait
    split
    · exact fun hf _ => ⟨rfl, hf⟩
    · split
      · exact fun hf _ => ⟨rfl, hf⟩
      · unfold Device.waitEnds
        split
        · exact fun hf _ => ⟨rfl, hf⟩
        · exact fun hf hoff => d.trace_mem _ _ _ _ _ _ _ hf (hoff _)
  exact hun hf hoff

end Sys2Proof.Machine

/-! Two lanes in one line of the CXL tier whose memory holds an error (Table 8-3, R234, R401): what the first lane does to the caches makes the
second lane meet the error, and its record, in the module reserve, is a write that the statements of loads and atomics do not have. -/

namespace Sys2Proof.Machine

@[simp] theorem IC.put_mem (i : IC) (d : Device) (b : Block) : (i.put d b).mem = d.mem := rfl
@[simp] theorem IC.put_life (i : IC) (d : Device) (b : Block) : (i.put d b).life = d.life := rfl

@[simp] theorem IC.acquire_mem (i : IC) (d : Device) : (i.acquire d).mem = d.mem := by unfold IC.acquire; split <;> rfl
@[simp] theorem IC.acquire_life (i : IC) (d : Device) : (i.acquire d).life = d.life := by unfold IC.acquire; split <;> rfl

theorem IC.noted_of_no_hits {i : IC} {kind n : Nat} {d1 : Device} {l : List LaneAcc} (h : i.hits kind n d1 l = []) (d : Device) :
    i.noted kind n d1 l d = d := if_pos h

/-- The line at 0x1000 of the CXL tier. -/
def cxlLine : Nat := (cxlBase + 0x1000) / 128

/-- A running module that maps the CXL tier by descriptor slot 2; link 0 is UP, and the memory of `cxlLine` holds an uncorrectable unit, beneath a clean
copy that an agent holds in E. Lanes 0 and 1 name two offsets of the segment. -/
def cxlModule (agent offset0 offset1 : Nat) : Device :=
  let b := { Tests.blk with v := [(0, 3), (1, 4), (4, offset0), (5, 8192), (256, 7), (257, 5), (260, offset1), (261, 8192)] }
  let d := Tests.busyWith b 3
  let d := { d with mem := d.mem.write 64 (Tests.segBytes 0xFB 0 0 (2 ^ 28) 0), bad := [(cxlBase + 0x1000) / 32]
                    coh := { d.coh with caches := [(agent, [(cxlLine, { state := 3 })])] } }
  ((d.wr Reg.CXL_HDM_CTRL_COMMITTED 0 1).wr Reg.CXL_HDM_RANGE_SIZE 0 1).wr Reg.CXL_LINK_STATUS_STATE 0 2

/-- No trace register of any hoop has been written. -/
def Device.untraced (d : Device) : Bool := d.regs.all (fun c => c.1 % 0x4000000 != 0x4A000)

theorem Device.rd_trace_of_untraced {d : Device} (h : d.untraced = true) (hoop : Nat) : d.rd Reg.HOOP_TRACE_ENABLE hoop = 0 := by
  have absent : ∀ (t : Tab Nat) k, (∀ c ∈ t, c.1 ≠ k) → Tab.get 0 t k = 0 := by
    intro t k hk
    induction t with
    | nil => rfl
    | cons c t ih =>
      rw [Tab.get, if_neg (hk c (by simp))]
      exact ih (fun c hc => hk c (by simp [hc]))
  refine absent _ _ (fun c hc hk => ?_)
  have hne := List.all_eq_true.mp h c hc
  simp only [hk, Fld.key, Reg.HOOP_TRACE_ENABLE, bne_iff_ne] at hne
  omega

/-- The first byte of the module reserve in the next state, if it is one without a fatal event and without a trace. -/
def reserveByteAfter (o : Host.Outcome State Fault Refusal) : Option Byte := match o with
  | .next t => if t.dev.life.fatal || !t.dev.untraced then none else some (t.dev.mem.get (reserveAddr false))
  | _ => none

/-- An instruction that completes has left this byte itself. -/
theorem IC.mem_of_completes {i : IC} {c : Instr} {s : State} {d : Device} {b : Byte} (h : i.Completes c s d)
    (hb : reserveByteAfter (exec c s) = some b) : d.mem.get (reserveAddr false) = b ∧ d.life.fatal = false := by
  rw [show exec c s = _ from h] at hb
  simp only [reserveByteAfter, Option.ite_none_left_eq_some, Bool.or_eq_true, Bool.not_eq_true', not_or, Bool.not_eq_true, Bool.not_eq_false,
    Option.some.injEq] at hb
  obtain ⟨⟨hf, hoff⟩, hget⟩ := hb
  obtain ⟨hmem, hlive⟩ := Device.mem_goTo hf (fun h => Device.rd_trace_of_untraced hoff h)
  exact ⟨by rw [← hmem]; exact hget, hlive⟩

/-! Atomics -/

/-- Lanes 0 and 1 add v1 to the first two words of `cxlLine`, of which agent 2 holds the copy. -/
def cxlAtom : IWord := { d := 2, a := 4, b := 1, ck := 2 }
def cxlAtomModule : Device := cxlModule 2 0x1000 0x1004

set_option maxRecDepth 100000 in
theorem cxlAtom_runs : Tests.runs cxlAtomModule 0x70 cxlAtom (ixAtom cxlAtom).1 (fun i d =>
    !i.k.early && i.aw == 1 && match i.reach d 2 4 [5] false with
      | some (d1, l) => (i.released d1).any (fun d2 => decide (i.hits 2 4 d1 l = []) && (devLanes l).all (fun y => !d2.badAt y.2 4)
          && decide (d2.block? 0 i.place = some i.b) && l.all (fun x => x.host.isNone)
          && Tests.resting d2 && (devLanes l).all (fun y => !d2.badAt (y.2 / 128 * 128) 128 && y.2 / 128 == cxlLine && decide (y.2 % 128 + 4 ≤ 128))
          && (List.range 128).all (fun j => (d2.cxlRoute (cxlLine * 128 + j)).isSome)
          && (atomicSeq i.newWord 4 (devLanes l) d2.mem.get).1 (reserveAddr false) == 0)
      | none => false) = true := by
  decide +kernel

set_option maxRecDepth 100000 in
theorem cxlAtom_reports : reserveByteAfter (exec (.atom Tests.e0 cxlAtom) (Tests.st (Tests.holding cxlAtomModule 0x70 cxlAtom))) = some 0x40 := by
  decide +kernel

/-- Refutes O19: the atomic of lane 0 takes the copy of `cxlLine` that agent 2 holds, so that of lane 1 reads memory and meets its error; the record
of the CXL event is written in the module reserve, which no lane's word covers. -/
theorem not_atomics : ¬ Obligations.Atomics := by
  intro h
  obtain ⟨i, d, hx, hc⟩ := exists_of_runs cxlAtom_runs
  simp only [Bool.and_eq_true, Bool.not_eq_true', beq_iff_eq] at hc
  obtain ⟨⟨hearly, haw⟩, hc⟩ := hc
  split at hc
  case h_2 => cases hc
  rename_i d1 l hreach
  simp only [Option.any_eq_true, Bool.and_eq_true, List.all_eq_true, Bool.not_eq_true', beq_iff_eq, decide_eq_true_eq, Option.isNone_iff_eq_none] at hc
  obtain ⟨d2, hreleased, ⟨⟨⟨⟨⟨⟨hhits, hgood⟩, hblock⟩, hdev⟩, hrests⟩, hread⟩, hroute⟩, hold⟩ := hc
  have hn : 4 * i.aw = 4 := by rw [haw]
  have hat := (h Tests.e0 cxlAtom (Tests.st (Tests.holding cxlAtomModule 0x70 cxlAtom)) i d).1 d1 l d2 hx hearly
  rw [hn] at hat
  obtain ⟨d3, b, hcompletes, hmem⟩ := (hat hreach hreleased hgood hblock).1 hdev
  rw [IC.noted_of_no_hits hhits] at hcompletes
  obtain ⟨hbyte, halive⟩ := IC.mem_of_completes hcompletes cxlAtom_reports
  rw [IC.acquire_mem, IC.put_mem] at hbyte
  rw [IC.acquire_life, IC.put_life] at halive
  have hwhole : d2.rests ∧ d2.readable (devLanes l) ∧ ∀ y ∈ devLanes l, ∀ j < 4, d2.holds (y.2 + j) := by
    refine ⟨?_, fun y hy => (hread y hy).1.1, ?_⟩
    · simpa [Device.rests, Tests.resting, and_assoc] using hrests
    · intro y hy j hj b hb _
      obtain ⟨⟨-, hline⟩, hin⟩ := hread y hy
      have hbyte : b = cxlLine * 128 + b % 128 := by rw [← hline]; omega
      rw [hbyte]
      exact hroute _ (List.mem_range.mpr (by omega))
  have hkept := (hmem hwhole halive).1 (reserveAddr false)
  rw [hbyte, hold] at hkept
  exact absurd hkept (by decide)

/-! Prefetches -/

/-- Lane 0 prefetches a line of the set of `cxlLine`, lane 1 that line itself, of which the lanes' own die holds the copy in the only way of its hoop. -/
def cxlPrf : IWord := { a := 4, ck := 2, mod := 2 }
def cxlPrfModule : Device := (cxlModule 0 0x8401000 0x1000).wr (Reg.HOOP_WAYS_WAYS 0) 0 1

set_option maxRecDepth 100000 in
theorem cxlPrf_runs : Tests.runs cxlPrfModule 0x65 cxlPrf (ixPrf cxlPrf).1 (fun i d =>
    let t := i.translate d 4 [3] (i.targets 2 4 false)
    decide (misaligned (i.targets 2 4 false) 4 = []) && t.2.2.isEmpty && decide (i.hits 0 4 t.1 t.2.1 = []) && Tests.resting t.1
      && (devLanes t.2.1).all (fun y => !t.1.badAt (y.2 / 128 * 128) 128) && t.1.mem.get (reserveAddr false) == 0) = true := by
  decide +kernel

set_option maxRecDepth 100000 in
theorem cxlPrf_reports : reserveByteAfter (exec (.prf Tests.e0 cxlPrf) (Tests.st (Tests.holding cxlPrfModule 0x65 cxlPrf))) = some 0x40 := by
  decide +kernel

/-- Refutes O17: the prefetch of lane 0 takes the way in which the copy of `cxlLine` lies, so that of lane 1 reads memory and meets its error; the
record of the CXL event is written in the module reserve, and a PRF should change no byte. -/
theorem not_loads : ¬ Obligations.Loads := by
  intro h
  obtain ⟨i, d, hx, hc⟩ := exists_of_runs cxlPrf_runs
  simp only [Bool.and_eq_true, Bool.not_eq_true', beq_iff_eq, decide_eq_true_eq, List.isEmpty_iff, List.all_eq_true] at hc
  obtain ⟨⟨⟨⟨⟨halign, hgood⟩, hhits⟩, hrests⟩, hread⟩, hold⟩ := hc
  obtain ⟨-, -, -, -, hprf⟩ := h Tests.e0 cxlPrf (Tests.st (Tests.holding cxlPrfModule 0x65 cxlPrf)) i d
  have hn : widthOf cxlPrf = 4 := by decide
  have hsc : cxlPrf.mod.toNat.testBit 9 = false := by decide
  rw [hn, hsc] at hprf
  obtain ⟨d2, hcompletes, hmem, -⟩ := hprf hx halign (by simp [hgood]) (by rw [hhits]; rfl)
  rw [IC.noted_of_no_hits hhits] at hcompletes
  obtain ⟨hbyte, halive⟩ := IC.mem_of_completes hcompletes cxlPrf_reports
  have hkept := congrArg (fun m => m.get (reserveAddr false))
    (hmem (by simpa [Device.rests, Tests.resting, and_assoc] using hrests) (fun y hy => hread y hy) halive)
  rw [show _ = _ from hbyte, show _ = _ from hold] at hkept
  exact absurd hkept (by decide)

end Sys2Proof.Machine

/-! Bytes of stores: the runs of a table of bytes, their pieces within a line, and what writing them makes of memory (R157). -/

namespace Sys2Proof.Machine

theorem le_length (n v : Nat) : (le n v).length = n := by
  induction n generalizing v with
  | zero => rfl
  | succ n ih => simp [le, ih]

theorem slice_length (b : Bytes) (o n : Nat) : (slice b o n).length = n := by
  simp [slice]

theorem slice_getElem? {b : Bytes} {o n j : Nat} (hj : j < n) (hin : o + j < b.length) : (slice b o n)[j]? = b[o + j]? := by
  have hlt : j < ((b.drop o).take n).length := by simp; omega
  simp only [slice]
  rw [List.getElem?_append_left hlt, List.getElem?_take_of_lt hj, List.getElem?_drop]

/-! Tables of bytes -/

theorem Tab.find?_of_mem {α : Type} {t : Tab α} (h : Tab.sorted t = true) {k : Nat} {v : α} (hm : (k, v) ∈ t) : Tab.find? t k = some v := by
  induction t with
  | nil => cases hm
  | cons c t ih =>
    obtain ⟨habove, hsorted⟩ := (Tab.sorted_cons c.1 c.2 t).mp h
    rcases List.mem_cons.mp hm with rfl | hm
    · simp [Tab.find?]
    · have hne : c.1 ≠ k := Nat.ne_of_lt (habove _ hm)
      simp [Tab.find?, hne, ih hsorted hm]

theorem Tab.mem_of_find? {α : Type} {t : Tab α} {k : Nat} {v : α} (h : Tab.find? t k = some v) : (k, v) ∈ t := by
  induction t with
  | nil => cases h
  | cons c t ih =>
    simp only [Tab.find?] at h
    split at h
    · rename_i hk; cases h; simp [← hk]
    · exact List.mem_cons_of_mem _ (ih h)

/-- The bytes `v` put in a table from an address up. -/
def putBytes (t : Tab Byte) (a : Nat) (v : Bytes) : Tab Byte :=
  (v.mapIdx (fun j b => (a + j, b))).foldl (fun t (y : Nat × Byte) => Tab.insert t y.1 y.2) t

theorem putBytes_cons (t : Tab Byte) (a : Nat) (b : Byte) (v : Bytes) : putBytes t a (b :: v) = putBytes (Tab.insert t a b) (a + 1) v := by
  simp only [putBytes, List.mapIdx_cons, List.foldl_cons, Nat.add_zero]
  congr 2
  funext j b
  rw [Nat.add_right_comm, Nat.add_assoc a j 1, Nat.add_comm a]

theorem sorted_putBytes {t : Tab Byte} (h : Tab.sorted t = true) (a : Nat) (v : Bytes) : Tab.sorted (putBytes t a v) = true := by
  induction v generalizing t a with
  | nil => exact h
  | cons b v ih => rw [putBytes_cons]; exact ih (Tab.sorted_insert h a b) (a + 1)

theorem find?_putBytes (t : Tab Byte) (a : Nat) (v : Bytes) (x : Nat) :
    Tab.find? (putBytes t a v) x = if a ≤ x ∧ x < a + v.length then some (v.getD (x - a) 0) else Tab.find? t x := by
  induction v generalizing t a with
  | nil => rw [if_neg (by simp)]; rfl
  | cons b v ih =>
    rw [putBytes_cons, ih]
    rcases Nat.lt_trichotomy x a with hx | rfl | hx
    · rw [if_neg (by omega), if_neg (by omega), Tab.find?_insert_ne _ _ (by omega)]
    · rw [if_neg (by omega), if_pos (by simp), Tab.find?_insert_same]
      simp
    · rw [Tab.find?_insert_ne _ _ (by omega)]
      have hidx : x - a = (x - (a + 1)) + 1 := by omega
      simp only [List.length_cons, hidx, List.getD_cons_succ]
      by_cases hin : x < a + 1 + v.length
      · rw [if_pos (by omega), if_pos (by omega)]
      · rw [if_neg (by omega), if_neg (by omega)]

/-- What lanes write with `n` bytes each at their addresses, one after the other. -/
def laneTable (l : List (Nat × Nat)) (v : Nat → Bytes) (t : Tab Byte) : Tab Byte := l.foldl (fun t x => putBytes t x.2 (v x.1)) t

theorem sorted_laneTable {t : Tab Byte} (h : Tab.sorted t = true) (l : List (Nat × Nat)) (v : Nat → Bytes) : Tab.sorted (laneTable l v t) = true := by
  induction l generalizing t with
  | nil => exact h
  | cons x l ih => exact ih (sorted_putBytes h x.2 (v x.1))

/-- Where a lane's bytes cover an address, the last lane's stand. -/
theorem lastCover_cons (x : Nat × Nat) (l : List (Nat × Nat)) (n a : Nat) :
    lastCover (x :: l) n a = (lastCover l n a).or (if x.2 ≤ a ∧ a < x.2 + n then some x else none) := by
  unfold lastCover
  by_cases hx : x.2 ≤ a ∧ a < x.2 + n
  · rw [List.filter_cons_of_pos (by simpa using hx), if_pos hx, List.getLast?_cons]
    cases (l.filter (fun x => x.2 ≤ a && a < x.2 + n)).getLast? <;> rfl
  · rw [List.filter_cons_of_neg (by simpa using hx), if_neg hx, Option.or_none]

theorem find?_laneTable {l : List (Nat × Nat)} {v : Nat → Bytes} {n : Nat} (hv : ∀ lane, (v lane).length = n) (t : Tab Byte) (a : Nat) :
    Tab.find? (laneTable l v t) a = ((lastCover l n a).map (fun y => (v y.1).getD (a - y.2) 0)).or (Tab.find? t a) := by
  induction l generalizing t with
  | nil => rfl
  | cons x l ih =>
    rw [show laneTable (x :: l) v t = laneTable l v (putBytes t x.2 (v x.1)) from rfl, ih, find?_putBytes, hv, lastCover_cons]
    cases lastCover l n a <;> by_cases hx : x.2 ≤ a ∧ a < x.2 + n <;> simp [hx]

/-! Runs and pieces -/

/-- The runs of a table with one more entry before them. -/
theorem byteRuns_cons (x : Nat × Byte) (t : Tab Byte) :
    (byteRuns t = [] ∧ byteRuns (x :: t) = [(x.1, [x.2])]) ∨
    (∃ s rest, byteRuns t = (x.1 + 1, s) :: rest ∧ byteRuns (x :: t) = (x.1, x.2 :: s) :: rest) ∨
    byteRuns (x :: t) = (x.1, [x.2]) :: byteRuns t := by
  have hcons : byteRuns (x :: t) = match byteRuns t with
      | [] => [(x.1, [x.2])]
      | (o, b) :: r => if o = x.1 + 1 then (x.1, x.2 :: b) :: r else (x.1, [x.2]) :: (o, b) :: r := rfl
  cases ht : byteRuns t with
  | nil => left; rw [hcons, ht]; exact ⟨rfl, rfl⟩
  | cons r rest =>
    obtain ⟨o, s⟩ := r
    right
    rw [hcons, ht]
    by_cases ho : o = x.1 + 1
    · subst ho; left; exact ⟨s, rest, rfl, by simp⟩
    · right; simp [ho]

/-- The runs of a table hold its bytes and no others. -/
theorem mem_of_byteRuns {t : Tab Byte} {r : Nat × Bytes} (hr : r ∈ byteRuns t) {j : Nat} {b : Byte} (hj : r.2[j]? = some b) : (r.1 + j, b) ∈ t := by
  induction t generalizing r j b with
  | nil => cases hr
  | cons x t ih =>
    have hsingle : ∀ {j : Nat} {b : Byte}, [x.2][j]? = some b → (x.1 + j, b) ∈ x :: t := by
      intro j b hj
      cases j with
      | zero => cases hj; exact List.mem_cons_self ..
      | succ j => cases hj
    rcases byteRuns_cons x t with ⟨-, heq⟩ | ⟨s, rest, ht, heq⟩ | heq
    all_goals rw [heq] at hr
    · obtain rfl := List.mem_singleton.mp hr
      exact hsingle hj
    · rcases List.mem_cons.mp hr with rfl | hr
      · cases j with
        | zero => cases hj; exact List.mem_cons_self ..
        | succ j =>
          have htail := ih (by rw [ht]; exact List.mem_cons_self ..) (j := j) (b := b) hj
          rw [Nat.add_assoc, Nat.add_comm 1 j] at htail
          exact List.mem_cons_of_mem _ htail
      · exact List.mem_cons_of_mem _ (ih (by rw [ht]; exact List.mem_cons_of_mem _ hr) hj)
    · rcases List.mem_cons.mp hr with rfl | hr
      · exact hsingle hj
      · exact List.mem_cons_of_mem _ (ih hr hj)

theorem exists_byteRuns {t : Tab Byte} {a : Nat} {b : Byte} (h : (a, b) ∈ t) : ∃ r ∈ byteRuns t, r.1 ≤ a ∧ a < r.1 + r.2.length := by
  induction t with
  | nil => cases h
  | cons x t ih =>
    rcases byteRuns_cons x t with ⟨ht, heq⟩ | ⟨s, rest, ht, heq⟩ | heq
    all_goals rw [heq]; rcases List.mem_cons.mp h with rfl | h
    · exact ⟨_, List.mem_cons_self .., by simp, by simp⟩
    · obtain ⟨r, hr, -⟩ := ih h
      rw [ht] at hr; cases hr
    · exact ⟨_, List.mem_cons_self .., by simp, by simp⟩
    · obtain ⟨r, hr, hle, hlt⟩ := ih h
      rw [ht] at hr
      rcases List.mem_cons.mp hr with rfl | hr
      · exact ⟨_, List.mem_cons_self .., by simp only at hle ⊢; omega, by simp only [List.length_cons] at hlt ⊢; omega⟩
      · exact ⟨r, List.mem_cons_of_mem _ hr, hle, hlt⟩
    · exact ⟨_, List.mem_cons_self .., by simp, by simp⟩
    · obtain ⟨r, hr, hin⟩ := ih h
      exact ⟨r, List.mem_cons_of_mem _ hr, hin⟩

theorem mem_linesOf {a n l : Nat} : l ∈ linesOf a n ↔ n ≠ 0 ∧ a / 128 ≤ l ∧ l ≤ (a + n - 1) / 128 := by
  simp only [linesOf, List.mem_map, List.mem_range]
  constructor
  · rintro ⟨k, hk, rfl⟩
    split at hk <;> omega
  · rintro ⟨hn, hlo, hhi⟩
    exact ⟨l - a / 128, by rw [if_neg hn]; omega, by omega⟩

/-- A piece is not empty, lies in the range and in one line. -/
theorem linePieces_spec {a n : Nat} {p : Nat × Nat} (hp : p ∈ linePieces a n) :
    0 < p.2 ∧ a ≤ p.1 ∧ p.1 + p.2 ≤ a + n ∧ p.1 % 128 + p.2 ≤ 128 := by
  obtain ⟨l, hl, rfl⟩ := List.mem_map.mp hp
  obtain ⟨hn, hlo, hhi⟩ := mem_linesOf.mp hl
  simp only [inLine, Nat.max_def, Nat.min_def]
  split <;> split <;> omega

theorem exists_linePieces {a n x : Nat} (hlo : a ≤ x) (hhi : x < a + n) : ∃ p ∈ linePieces a n, p.1 ≤ x ∧ x < p.1 + p.2 := by
  have hline : x / 128 ∈ linesOf a n := mem_linesOf.mpr ⟨by omega, by omega, by omega⟩
  refine ⟨_, List.mem_map_of_mem hline, ?_⟩
  simp only [inLine, Nat.max_def, Nat.min_def]
  split <;> split <;> omega

/-! Writes of several pieces -/

/-- The pieces of a table's runs: address and bytes. -/
def tablePieces (t : Tab Byte) : List (Nat × Bytes) :=
  (byteRuns t).flatMap (fun r => (linePieces r.1 r.2.length).map (fun p => (p.1, slice r.2 (p.1 - r.1) p.2)))

/-- Every piece lies within a line and holds the table's bytes. -/
theorem tablePieces_spec {t : Tab Byte} {w : Nat × Bytes} (hw : w ∈ tablePieces t) :
    0 < w.2.length ∧ w.1 % 128 + w.2.length ≤ 128 ∧ ∀ j b, w.2[j]? = some b → (w.1 + j, b) ∈ t := by
  obtain ⟨r, hr, hw⟩ := List.mem_flatMap.mp hw
  obtain ⟨p, hp, rfl⟩ := List.mem_map.mp hw
  obtain ⟨hpos, hlo, hhi, hline⟩ := linePieces_spec hp
  refine ⟨by rwa [slice_length], by rwa [slice_length], fun j b hj => ?_⟩
  have hlt : j < p.2 := by
    have := (List.getElem?_eq_some_iff.mp hj).1
    rwa [slice_length] at this
  rw [slice_getElem? hlt (by omega)] at hj
  have := mem_of_byteRuns hr hj
  rwa [← Nat.add_assoc, Nat.add_sub_cancel' hlo] at this

theorem exists_tablePieces {t : Tab Byte} {a : Nat} {b : Byte} (h : (a, b) ∈ t) : ∃ w ∈ tablePieces t, w.1 ≤ a ∧ a < w.1 + w.2.length := by
  obtain ⟨r, hr, hlo, hhi⟩ := exists_byteRuns h
  obtain ⟨p, hp, hple, hplt⟩ := exists_linePieces hlo hhi
  exact ⟨_, List.mem_flatMap.mpr ⟨r, hr, List.mem_map_of_mem hp⟩, hple, by simpa [slice_length] using hplt⟩

theorem Memory.get_write (m : Memory) (a x : Nat) (v : Bytes) :
    (m.write a v).get x = if a ≤ x ∧ x < a + v.length then v.getD (x - a) 0 else m.get x := by
  split
  · rename_i hin
    have h := m.get_write_inside a (x - a) v (by omega)
    rw [Nat.add_sub_cancel' hin.1] at h
    rw [h, List.getD_eq_getElem _ _ (by omega)]
  · exact m.get_write_outside a x v (by omega)

/-- Pieces that agree with a function write it where one of them lies, and nothing elsewhere. -/
theorem Memory.get_foldl_write (f : Nat → Byte) {l : List (Nat × Bytes)} (hl : ∀ w ∈ l, ∀ j b, w.2[j]? = some b → b = f (w.1 + j)) (m : Memory) (x : Nat) :
    (l.foldl (fun m w => m.write w.1 w.2) m).get x = if ∃ w ∈ l, w.1 ≤ x ∧ x < w.1 + w.2.length then f x else m.get x := by
  induction l generalizing m with
  | nil => simp
  | cons w l ih =>
    rw [List.foldl_cons, ih (fun w hw => hl w (List.mem_cons_of_mem _ hw)), Memory.get_write]
    by_cases hrest : ∃ w ∈ l, w.1 ≤ x ∧ x < w.1 + w.2.length
    · obtain ⟨y, hy, hin⟩ := hrest
      rw [if_pos ⟨y, hy, hin⟩, if_pos ⟨y, List.mem_cons_of_mem _ hy, hin⟩]
    · rw [if_neg hrest]
      by_cases hw : w.1 ≤ x ∧ x < w.1 + w.2.length
      · rw [if_pos hw, if_pos ⟨w, List.mem_cons_self .., hw⟩, List.getD_eq_getElem _ _ (by omega),
          hl w (List.mem_cons_self ..) (x - w.1) _ (List.getElem?_eq_getElem (by omega)), Nat.add_sub_cancel' hw.1]
      · rw [if_neg hw, if_neg]
        rintro ⟨y, hy, hin⟩
        rcases List.mem_cons.mp hy with rfl | hy
        · exact hw hin
        · exact hrest ⟨y, hy, hin⟩

/-- Writing the pieces of a sorted table puts its bytes in memory. -/
theorem Memory.get_tablePieces {t : Tab Byte} (h : Tab.sorted t = true) (m : Memory) (x : Nat) :
    ((tablePieces t).foldl (fun m w => m.write w.1 w.2) m).get x = (Tab.find? t x).getD (m.get x) := by
  rw [Memory.get_foldl_write (fun a => (Tab.find? t a).getD 0) (fun w hw j b hj => by
    rw [Tab.find?_of_mem h ((tablePieces_spec hw).2.2 j b hj)]; rfl)]
  cases hx : Tab.find? t x with
  | some b =>
    rw [if_pos (exists_tablePieces (Tab.mem_of_find? hx))]; rfl
  | none =>
    rw [if_neg]; · rfl
    rintro ⟨w, hw, hlo, hhi⟩
    have hmem := (tablePieces_spec hw).2.2 (x - w.1) _ (List.getElem?_eq_getElem (by omega))
    rw [Nat.add_sub_cancel' hlo] at hmem
    rw [Tab.find?_of_mem h hmem] at hx
    cases hx

end Sys2Proof.Machine

/-! Stores: what the checks of an access leave to it, the bytes that a store writes (R157, R226, R311). -/

namespace Sys2Proof.Machine

/-! Checks -/

theorem firstFault_nil : firstFault [] = none := rfl

/-- Where no check stops an access its own effect follows, and its watchpoint hits are recorded. -/
theorem IC.checked_of_reached {i : IC} {kind n : Nat} {r : Device × List LaneAcc × List (Nat × FaultArgs)} {k : Device → List LaneAcc → Eff}
    {session : Bool} {d1 d3 : Device} {l : List LaneAcc} (h : i.reached kind n r = some (d1, l)) (hk : k d1 l = .go d3) :
    i.checked kind n r k session = .go (i.noted kind n d1 l d3) := by
  obtain ⟨d0, l0, faults⟩ := r
  unfold IC.reached at h
  split at h
  case isFalse => cases h
  rename_i hpass
  simp only [Bool.and_eq_true, Bool.not_eq_true', Option.isNone_iff_eq_none] at hpass
  obtain ⟨⟨hfault, hcollides⟩, hstop⟩ := hpass
  cases h
  simp only [IC.checked, hfault, List.map_map]
  rw [if_neg (by simpa [Function.comp_def] using hcollides)]
  simp only [IC.watched, List.map_map, Function.comp_def, IC.noted, IC.hits] at hstop ⊢
  by_cases hres : i.isResumed = true
  · simp [hres, hk]
  · simp only [hres, if_false, Bool.false_eq_true, or_false] at hstop ⊢
    split
    · rw [hk]
    · simp only [hk, hstop]

theorem firstFault_of_isEmpty {l : List (Nat × FaultArgs)} (h : l.isEmpty = true) : firstFault l = none := by
  rw [List.isEmpty_iff.mp h]; rfl

/-- The same for a global access. -/
theorem IC.global_of_reach {i : IC} {d : Device} {kind n : Nat} {need : List Nat} {scaled : Bool} {k : Device → List LaneAcc → Eff}
    {d1 d3 : Device} {l : List LaneAcc} (h : i.reach d kind n need scaled = some (d1, l)) (hk : k d1 l = .go d3) :
    i.global d kind n need scaled k = .go (i.noted kind n d1 l d3) := by
  unfold IC.reach at h
  split at h
  case isFalse => cases h
  rename_i haligned
  simp only [IC.global]
  rw [show i.lanes.map (fun l => (l, i.address 2 l n scaled)) = i.targets 2 n scaled from rfl, firstFault_of_isEmpty haligned]
  exact IC.checked_of_reached h hk

/-! A fatal event is final: error records -/

/-- A device that has met no fatal event after it had none before. -/
structure Device.Mortal (d d' : Device) : Prop where
  fatal : d'.life.fatal = false → d.life.fatal = false

theorem Device.Mortal.refl (d : Device) : d.Mortal d := ⟨id⟩

theorem Device.Mortal.trans {d e f : Device} (h : d.Mortal e) (g : e.Mortal f) : d.Mortal f := ⟨h.fatal ∘ g.fatal⟩

theorem Device.Mortal.of_life {d d' : Device} (h : d'.life = d.life) : d.Mortal d' := ⟨fun hf => by rw [← h]; exact hf⟩

theorem Device.Tame.mortal {d d' : Device} (h : d.Tame d') : d.Mortal d' := ⟨fun hf => by rw [← h.life hf]; exact hf⟩

theorem Device.Works.mortal {d d' : Device} (h : d.Works d') : d.Mortal d' := ⟨h.fatal⟩

theorem Device.Mortal.foldl {α : Type} {f : Device → α → Device} (l : List α) (hf : ∀ (d : Device) x, d.Mortal (f d x)) (d : Device) :
    d.Mortal (l.foldl f d) := by
  induction l generalizing d with
  | nil => exact .refl d
  | cons x t ih => exact (hf d x).trans (ih _)

theorem Device.errBit_life (d : Device) (r c : Nat) (dropped : Bool) : (d.errBit r c dropped).life = d.life := by
  unfold Device.errBit
  split <;> rfl

theorem Device.sendVector_life (d : Device) (fn v : Nat) : (d.sendVector fn v).life = d.life := by
  unfold Device.sendVector
  split
  · rfl
  · split <;> rfl

theorem Device.errVector_life (d : Device) (r : Nat) : (d.errVector r).life = d.life := by
  unfold Device.errVector
  extract_lets x on
  split
  · rfl
  · split
    · exact Device.sendVector_life ..
    · rfl

theorem Device.errCount_life (d : Device) (o : Occ) : (d.errCount o).life = d.life := by
  unfold Device.errCount
  extract_lets c global stat counted hooped
  have hcounted : counted.life = d.life := d.errBit_life 8 c false
  have hhooped : hooped.life = d.life := by
    unfold hooped
    split <;> exact hcounted
  split
  · exact (Device.errBit_life ..).trans hhooped
  · exact hhooped

theorem Device.errPut_mortal (d : Device) (r : Nat) (o : Occ) (count time : Nat) (rep : Bool) : d.Mortal (d.errPut r o count time rep) := by
  unfold Device.errPut
  extract_lets t n bytes
  have hring : ∀ (e : Device) (f : Fld) (i v q : Nat), e.Mortal ((e.wr f i v).errVector q) := fun e f i v q =>
    .of_life ((e.wr f i v).errVector_life q)
  split
  · exact (d.ownWrite_works ..).mortal.trans (hring ..)
  · split
    · rename_i hwrite
      exact (Device.writeVa_tame hwrite).mortal.trans (hring ..)
    · exact .of_life (Device.errBit_life ..)

theorem Device.errOverflow_mortal (d : Device) (r : Nat) : d.Mortal (d.errOverflow r) := by
  unfold Device.errOverflow
  extract_lets x detail total cleared o counted
  have hcounted : d.Mortal counted := .of_life (cleared.errCount_life o)
  split
  · exact .refl d
  · exact hcounted.trans (counted.errPut_mortal ..)

theorem Device.errWrite_mortal (d : Device) (r : Nat) (o : Occ) (count time : Nat) (rep : Bool) : d.Mortal (d.errWrite r o count time rep) := by
  unfold Device.errWrite
  extract_lets ready
  have hready : d.Mortal ready := d.errOverflow_mortal r
  split
  · exact .refl d
  · split
    · exact hready.trans (.of_life (Device.errBit_life ..))
    · exact hready.trans (ready.errPut_mortal ..)

theorem Device.errOne_mortal (d : Device) (r : Nat) (o : Occ) : d.Mortal (d.errOne r o) := by
  unfold Device.errOne
  extract_lets time x sigs
  split
  · exact Device.errWrite_mortal ..
  · split
    · exact .of_life rfl
    · refine Device.Mortal.trans ?_ (Device.errWrite_mortal ..)
      unfold sigs
      split <;> exact .of_life rfl

/-- Reporting an occurrence ends no fatal event. -/
theorem Device.post_mortal (d : Device) (o : Occ) : d.Mortal (d.post o) := by
  unfold Device.post
  extract_lets reported
  have hcounted : d.Mortal (d.errCount o) := .of_life (d.errCount_life o)
  have hreported : d.Mortal reported := hcounted.trans ((d.errCount o).errOne_mortal 8 o)
  split
  · exact hreported.trans (Device.errOne_mortal ..)
  · exact hreported

theorem Device.reportFailed_mortal (d : Device) : d.Mortal d.reportFailed := by
  unfold Device.reportFailed
  extract_lets coh cleared failed
  have hcleared : d.Mortal cleared := .of_life rfl
  have hfailed : d.Mortal failed := hcleared.trans (.foldl _ (fun d _ => d.post_mortal _) cleared)
  split
  · exact .refl d
  · exact hfailed.trans (.foldl _ (fun d _ => d.post_mortal _) failed)

/-! Writes of device memory at rest -/

/-- A write whose line is in HBM3E, or in the CXL tier with its link there, leaves no request to report. -/
theorem Device.cxlFailed_of_holds {d : Device} {n : Nat} (h : d.holds (n * 128)) : d.cxlFailed n true = d := by
  unfold Device.cxlFailed
  split
  · rfl
  · rename_i hplace
    have hcxl : isCxl (n * 128) = true := by
      by_contra hno
      simp [hno] at hplace
    simp [h (n * 128) rfl hcxl]

theorem Device.reportFailed_of_rests {d : Device} (h : d.rests) : d.reportFailed = d := by
  obtain ⟨-, -, hfailed, hlost⟩ := h
  simp [Device.reportFailed, hfailed, hlost]

/-- Stores of pieces lead from a device to another: unless the device meets a fatal event, a domain at rest rests on and the pieces are all that
memory gains, where it holds their lines. -/
structure Device.Writes (d d' : Device) (ws : List (Nat × Bytes)) : Prop where
  mortal : d.Mortal d'
  rests : d.rests → d'.life.fatal = false → (∀ w ∈ ws, d.holds w.1) →
    d'.rests ∧ d'.mem = ws.foldl (fun m w => m.write w.1 w.2) d.mem ∧ ∀ a, d'.cxlRoute a = d.cxlRoute a

theorem Device.holds_of_route {d d' : Device} (h : ∀ a, d'.cxlRoute a = d.cxlRoute a) {a : Nat} (hold : d.holds a) : d'.holds a := by
  intro b hb hcxl
  rw [h b]
  exact hold b hb hcxl

theorem Device.Writes.refl (d : Device) : d.Writes d [] := ⟨.refl d, fun hr _ _ => ⟨hr, rfl, fun _ => rfl⟩⟩

theorem Device.Writes.trans {d e f : Device} {ws xs : List (Nat × Bytes)} (h : d.Writes e ws) (g : e.Writes f xs) : d.Writes f (ws ++ xs) := by
  refine ⟨h.mortal.trans g.mortal, fun hr hf hold => ?_⟩
  obtain ⟨erests, emem, eroute⟩ := h.rests hr (g.mortal.fatal hf) (fun w hw => hold w (List.mem_append_left _ hw))
  obtain ⟨frests, fmem, froute⟩ := g.rests erests hf
    (fun w hw => Device.holds_of_route eroute (hold w (List.mem_append_right _ hw)))
  exact ⟨frests, by rw [List.foldl_append, ← emem, fmem], fun a => (froute a).trans (eroute a)⟩

theorem Device.l1Store_writes (d : Device) (k a : Nat) (data : Bytes) : d.Writes (d.l1Store k a data) [] :=
  ⟨.of_life rfl, fun hr _ _ => ⟨hr, rfl, fun _ => rfl⟩⟩

theorem linesOf_piece {a n : Nat} (hpos : 0 < n) (hline : a % 128 + n ≤ 128) : linesOf a n = [a / 128] := by
  have hone : (a + n - 1) / 128 + 1 - a / 128 = 1 := by omega
  simp [linesOf, Nat.ne_of_gt hpos, hone]

theorem Device.cohWrite_mortal (d : Device) (agent hoop a n : Nat) (allocate used : Bool) : d.Mortal (d.cohWrite agent hoop a n allocate used) :=
  .foldl _ (fun d _ => (d.lineWrite_works ..).mortal.trans (Device.reportFailed_mortal _)) d

theorem Device.writeDev_rests {d : Device} (h : d.rests) (a : Nat) (data : Bytes) : (d.writeDev a data).rests := by
  unfold Device.writeDev
  split
  · exact h
  · simp only [Device.rests]
    split <;> exact h

theorem Device.writeDev_writes (d : Device) (a : Nat) (data : Bytes) : d.Writes (d.writeDev a data) [(a, data)] := by
  have hworks := d.writeDev_works a data
  refine ⟨hworks.mortal, fun hr hf hold => ⟨d.writeDev_rests hr a data, ?_, fun x => hworks.cxlRoute_eq hf x⟩⟩
  unfold Device.writeDev
  split
  · rename_i hlink
    simp only [Bool.and_eq_true, Option.isNone_iff_eq_none] at hlink
    have hroute := hold (a, data) (List.mem_singleton_self _) a rfl hlink.1.1
    rw [hlink.1.2] at hroute
    cases hroute
  · rfl

/-- A store of bytes within one line. -/
theorem Device.agentWrite_writes (d : Device) {a : Nat} {data : Bytes} (hpos : 0 < data.length) (hline : a % 128 + data.length ≤ 128)
    (agent hoop : Nat) (allocate used : Bool) : d.Writes (d.agentWrite agent hoop a data allocate used) [(a, data)] := by
  unfold Device.agentWrite
  have hdev := (d.cohWrite agent hoop a data.length allocate used).writeDev_writes a data
  refine ⟨(d.cohWrite_mortal ..).trans hdev.mortal, fun hr hf hold => ?_⟩
  have ha : d.holds a := hold (a, data) (List.mem_singleton_self _)
  have hline' : d.holds (a / 128 * 128) := fun b hb => ha b (by omega)
  have hcoh : (d.cohWrite agent hoop a data.length allocate used).rests ∧ (d.cohWrite agent hoop a data.length allocate used).mem = d.mem ∧
      ∀ x, (d.cohWrite agent hoop a data.length allocate used).cxlRoute x = d.cxlRoute x := by
    have halive := hdev.mortal.fatal hf
    unfold Device.cohWrite at halive ⊢
    rw [linesOf_piece hpos hline] at halive ⊢
    simp only [List.foldl_cons, List.foldl_nil, Device.cohWrite1] at halive ⊢
    have hcalm := d.lineWrite_calm_from agent hoop allocate used (a / 128) (inLine a data.length (a / 128))
      (lineMask (Nat.max a (a / 128 * 128) - a / 128 * 128) (inLine a data.length (a / 128)))
    rw [Device.cxlFailed_of_holds hline'] at hcalm
    obtain ⟨hrests, hmem⟩ := hcalm.calm hr
    rw [Device.reportFailed_of_rests hrests] at halive ⊢
    exact ⟨hrests, hmem halive, fun x => hcalm.cxlRoute_eq halive x⟩
  obtain ⟨hrests, hmem, hroute⟩ := hcoh
  obtain ⟨frests, fmem, froute⟩ := hdev.rests hrests hf (fun w hw => by
    obtain rfl := List.mem_singleton.mp hw
    exact Device.holds_of_route hroute ha)
  exact ⟨frests, by rw [fmem, hmem], fun x => (froute x).trans (hroute x)⟩

theorem Device.Writes.foldl {f : Device → Nat × Bytes → Device} (l : List (Nat × Bytes)) (hf : ∀ d : Device, ∀ w ∈ l, d.Writes (f d w) [w]) (d : Device) :
    d.Writes (l.foldl f d) l := by
  induction l generalizing d with
  | nil => exact .refl d
  | cons w l ih =>
    exact (hf d w (List.mem_cons_self ..)).trans (ih (fun d x hx => hf d x (List.mem_cons_of_mem _ hx)) _)

/-- A store of the bytes of a table writes its pieces. -/
theorem Device.storeRuns_writes (d : Device) (k h : Nat) (t : Tab Byte) (allocate : Bool) : d.Writes (d.storeRuns k h t allocate) (tablePieces t) := by
  have hfold : d.storeRuns k h t allocate =
      (tablePieces t).foldl (fun d w => (d.l1Store k w.1 w.2).agentWrite (coreDie k) h w.1 w.2 allocate) d := by
    simp only [Device.storeRuns, tablePieces, List.foldl_flatMap, List.foldl_map]
  rw [hfold]
  refine .foldl _ (fun d w hw => ?_) d
  obtain ⟨hpos, hline, -⟩ := tablePieces_spec hw
  exact (d.l1Store_writes ..).trans (Device.agentWrite_writes _ hpos hline ..)

/-! Stores of lanes -/

theorem Device.hostWriteBy_same (d : Device) (die fn a : Nat) (data : Bytes) :
    (d.hostWriteBy die fn a data).mem = d.mem ∧ (d.hostWriteBy die fn a data).life = d.life := by
  have hwrite : ∀ d : Device, (d.hostWrite fn a data).mem = d.mem ∧ (d.hostWrite fn a data).life = d.life := by
    intro d
    unfold Device.hostWrite
    split
    · exact List.foldlRecOn (motive := fun e : Device => e.mem = d.mem ∧ e.life = d.life) _ _ ⟨rfl, rfl⟩ (fun _ he _ _ => he)
    · exact ⟨rfl, rfl⟩
  unfold Device.hostWriteBy
  split <;> exact hwrite _

theorem Device.cnt_same (d : Device) (h i n : Nat) : (d.cnt h i n).mem = d.mem ∧ (d.cnt h i n).life = d.life := by
  unfold Device.cnt
  split
  · exact ⟨rfl, rfl⟩
  · split <;> exact ⟨rfl, rfl⟩

/-- The posted writes of a store's lanes in the host tier. -/
def IC.hostStores (i : IC) (n : Nat) (l : List LaneAcc) (d : Device) : Device :=
  l.foldl (fun d x => match x.loc with
    | .host a => (d.hostWriteBy i.die (d.ownerFn i.hoop) a (le n (i.bReg (widthRegs n) x.lane))).cnt i.hoop 8 n
    | .dev _ => d) d

theorem IC.hostStores_same (i : IC) (n : Nat) (l : List LaneAcc) (d : Device) :
    (i.hostStores n l d).mem = d.mem ∧ (i.hostStores n l d).life = d.life := by
  refine List.foldlRecOn (motive := fun e : Device => e.mem = d.mem ∧ e.life = d.life) l _ ⟨rfl, rfl⟩ (fun e he x _ => ?_)
  split
  · rw [(Device.cnt_same ..).1, (Device.cnt_same ..).2, (Device.hostWriteBy_same ..).1, (Device.hostWriteBy_same ..).2]
    exact he
  · exact he

/-- The bytes that a store's lanes put in device memory, in one table. -/
theorem IC.laneTable_eq (i : IC) (n : Nat) (l : List LaneAcc) (t : Tab Byte) :
    l.foldl (fun (t : Tab Byte) x => match x.loc with
      | .dev a => ((le n (i.bReg (widthRegs n) x.lane)).mapIdx (fun j b => (a + j, b))).foldl (fun t (y : Nat × Byte) => Tab.insert t y.1 y.2) t
      | .host _ => t) t = laneTable (devLanes l) (fun lane => le n (i.bReg (widthRegs n) lane)) t := by
  induction l generalizing t with
  | nil => rfl
  | cons x l ih =>
    rw [List.foldl_cons, ih]
    cases hloc : x.loc <;> simp [devLanes, LaneAcc.dev, hloc, laneTable, putBytes]

theorem IC.store_eq (i : IC) (d : Device) (n : Nat) (l : List LaneAcc) : i.store d n l =
    .go (i.hostStores n l (d.storeRuns i.core i.hoop (laneTable (devLanes l) (fun lane => le n (i.bReg (widthRegs n) lane)) []) true)) :=
  congrArg (fun t => Eff.go (i.hostStores n l (d.storeRuns i.core i.hoop t true))) (i.laneTable_eq n l [])

/-- A store goes on, and its lanes' bytes stand in device memory. -/
theorem IC.store_stored (i : IC) (d : Device) (n : Nat) (l : List LaneAcc) :
    ∃ d2, i.store d n l = .go d2 ∧ Stored d d2 (devLanes l) n (fun lane => le n (i.bReg (widthRegs n) lane)) := by
  refine ⟨_, i.store_eq d n l, fun hrests hhold halive a => ?_⟩
  rw [(i.hostStores_same ..).2] at halive
  rw [(i.hostStores_same ..).1]
  have hlength : ∀ lane, (le n (i.bReg (widthRegs n) lane)).length = n := fun lane => le_length ..
  have hfind := find?_laneTable (l := devLanes l) hlength []
  obtain ⟨-, hmem, -⟩ := (d.storeRuns_writes ..).rests hrests halive (by
    intro w hw
    obtain ⟨hpos, -, hbytes⟩ := tablePieces_spec hw
    have hfirst := Tab.find?_of_mem (sorted_laneTable rfl _ _) (hbytes 0 _ (List.getElem?_eq_getElem hpos))
    rw [hfind, Nat.add_zero] at hfirst
    cases hcover : lastCover (devLanes l) n w.1 with
    | none => rw [hcover] at hfirst; cases hfirst
    | some y =>
      have hy := List.mem_of_getLast? hcover
      simp only [List.mem_filter, Bool.and_eq_true, decide_eq_true_eq] at hy
      have := hhold y hy.1 (w.1 - y.2) (by omega)
      rwa [Nat.add_sub_cancel' hy.2.1] at this)
  rw [hmem, Memory.get_tablePieces (sorted_laneTable rfl _ _), hfind]
  cases lastCover (devLanes l) n a <;> rfl

/-! Stores of local store -/

theorem get_putLoc (z : Byte) (t : Tab Byte) (a : Nat) (v : Bytes) (x : Nat) :
    Tab.get z (putLoc t a v) x = if a ≤ x ∧ x < a + v.length then v.getD (x - a) 0 else Tab.get z t x := by
  induction v generalizing t a with
  | nil => rw [if_neg (by simp)]; rfl
  | cons b v ih =>
    rw [putLoc, ih]
    rcases Nat.lt_trichotomy x a with hx | rfl | hx
    · rw [if_neg (by omega), if_neg (by omega), Tab.get_insert_ne _ _ _ (by omega)]
    · rw [if_neg (by omega), if_pos (by simp), Tab.get_insert_same]
      simp
    · rw [Tab.get_insert_ne _ _ _ (by omega)]
      have hidx : x - a = (x - (a + 1)) + 1 := by omega
      simp only [List.length_cons, hidx, List.getD_cons_succ]
      by_cases hin : x < a + 1 + v.length
      · rw [if_pos (by omega), if_pos (by omega)]
      · rw [if_neg (by omega), if_neg (by omega)]

/-- Writes of local store at a list of addresses, one after the other. -/
def Device.localWrites (d : Device) (k p : Nat) (v : Nat → Bytes) (l : List (Nat × Nat)) : Device := l.foldl (fun d x => d.localWrite k p x.2 (v x.1)) d

theorem Device.localByte_localWrite (d : Device) (k p a : Nat) (v : Bytes) (x : Nat) :
    (d.localWrite k p a v).localByte k p x = if a ≤ x ∧ x < a + v.length then v.getD (x - a) 0 else d.localByte k p x := by
  have hbase : (d.localWrite k p a v).localBase k p = d.localBase k p := by
    simp [Device.localBase, Device.localSize, Device.coreKernel, Device.localWrite, Device.kernel?, Device.modCore, Device.setCore, Device.core]
  have hblock : (d.localWrite k p a v).block? k p = d.block? k p := by simp [Device.localWrite, Device.block?, Core.block?]
  have hloc : ((d.localWrite k p a v).core k).loc = putLoc (d.core k).loc (d.localBase k p + a) v := by simp [Device.localWrite]
  have hidx : d.localBase k p + x - (d.localBase k p + a) = x - a := by omega
  simp only [Device.localByte, hbase, hblock, hloc, get_putLoc, hidx]
  by_cases hin : a ≤ x ∧ x < a + v.length
  · rw [if_pos hin, if_pos (by omega)]
  · rw [if_neg hin, if_neg (by omega)]

theorem Device.localWrites_same (d : Device) (k p : Nat) (v : Nat → Bytes) (l : List (Nat × Nat)) :
    (d.localWrites k p v l).mem = d.mem ∧ (d.localWrites k p v l).regs = d.regs ∧ (d.localWrites k p v l).out = d.out ∧
    (d.localWrites k p v l).block? k p = d.block? k p := by
  refine List.foldlRecOn (motive := fun e : Device => e.mem = d.mem ∧ e.regs = d.regs ∧ e.out = d.out ∧ e.block? k p = d.block? k p) l _
    ⟨rfl, rfl, rfl, rfl⟩ (fun e he x _ => ?_)
  obtain ⟨hmem, hregs, hout, hblock⟩ := he
  exact ⟨hmem, hregs, hout, by rw [← hblock]; simp [Device.localWrite, Device.block?, Core.block?]⟩

theorem Device.localByte_localWrites {v : Nat → Bytes} {n : Nat} (hv : ∀ lane, (v lane).length = n) (d : Device) (k p : Nat) (l : List (Nat × Nat)) (x : Nat) :
    (d.localWrites k p v l).localByte k p x = match lastCover l n x with
      | none => d.localByte k p x
      | some y => (v y.1).getD (x - y.2) 0 := by
  induction l generalizing d with
  | nil => rfl
  | cons y l ih =>
    rw [show d.localWrites k p v (y :: l) = (d.localWrite k p y.2 (v y.1)).localWrites k p v l from rfl, ih, lastCover_cons]
    cases lastCover l n x with
    | some z => rfl
    | none =>
      rw [Device.localByte_localWrite, hv]
      by_cases hy : y.2 ≤ x ∧ x < y.2 + n
      · simp [hy]
      · simp [hy]

theorem misaligned_eq_nil {l : List (Nat × Nat)} {n : Nat} (h : ∀ x ∈ l, x.2 % n = 0) : misaligned l n = [] := by
  have : l.filter (fun x => x.2 % n != 0) = [] := List.filter_eq_nil_iff.mpr (fun x hx => by simp [h x hx])
  simp [misaligned, this]

/-- Lanes whose addresses are aligned and in the block's allocation access local store. -/
theorem IC.localAcc_of_localIn {i : IC} {d : Device} {n : Nat} {scaled : Bool} (k : List (Nat × Nat) → Eff)
    (h : ∀ x ∈ i.targets 1 n scaled, x.2 % n = 0 ∧ d.localIn i.core x.2 n = true) : i.localAcc d n scaled k = k (i.targets 1 n scaled) := by
  have hout : (i.targets 1 n scaled).filter (fun x => !d.localIn i.core x.2 n) = [] :=
    List.filter_eq_nil_iff.mpr (fun x hx => by simp [(h x hx).2])
  simp only [IC.localAcc]
  rw [show i.lanes.map (fun l => (l, i.address 1 l n scaled)) = i.targets 1 n scaled from rfl, misaligned_eq_nil (fun x hx => (h x hx).1), hout]
  rfl

/-! PROVISIONAL -/

theorem Device.freshToken_flow (d : Device) (s : Sess) (t : Nat) : (d.freshToken s t).flow = d.flow := by
  unfold Device.freshToken
  split
  · rfl
  · extract_lets data g
    split
    · rfl
    · exact Device.flow_eq_of_rest (d.step1.writeSeg_works ..).rest

/-- A write raises PROVISIONAL of its session and of no other (R311). -/
theorem Device.raiseProv_prov (d : Device) (si n y : Nat) :
    ((d.raiseProv si n).sess y).prov = if si = y then Nat.max (d.sess y).prov n else (d.sess y).prov := by
  unfold Device.raiseProv
  extract_lets s raised
  have hraised : raised.flow = d.flow :=
    List.foldlRecOn (motive := fun e : Device => e.flow = d.flow) _ _ rfl (fun e he j _ => (e.freshToken_flow s (s.prov + j)).trans he)
  split
  · rename_i hn
    split
    · rename_i hy
      subst hy
      exact (Nat.max_eq_left hn).symm
    · rfl
  · rename_i hn
    split
    · rename_i hy
      subst hy
      simp only [Device.modSess, Device.setSess, Device.sess, Tab.get_put_same]
      exact (Nat.max_eq_right (Nat.le_of_not_le hn)).symm
    · rename_i hy
      simp only [Device.modSess, Device.setSess, Device.sess]
      rw [Tab.get_put_ne _ _ _ _ (Ne.symm hy), hraised]

theorem Device.foldl_raiseProv_prov (l : List (Nat × Nat × Int × Nat)) (d : Device) (y : Nat) :
    ((l.foldl (fun d x => d.raiseProv x.2.1 (x.2.2.1.toNat + 1)) d).sess y).prov =
      (l.filter (fun x => x.2.1 == y)).foldl (fun m x => Nat.max m (x.2.2.1.toNat + 1)) (d.sess y).prov := by
  induction l generalizing d with
  | nil => rfl
  | cons x l ih =>
    rw [List.foldl_cons, ih, Device.raiseProv_prov]
    by_cases hx : x.2.1 = y <;> simp [hx]

/-- An instruction that waits gives its entry to the wait. -/
theorem IC.gives_retry {s : State} {c : Instr} {e : Ent} {op : Nat} {w : IWord} {sp : OpSpec} {f : IC → Device → Eff} {i : IC} {d : Device}
    (hc : exec c s = ixfen e op w sp f s) (h : s.dev.executes e op w sp = some (i, d)) (hf : f i d = i.held d) : Gives c s (i.apply (i.held d)) := by
  unfold Gives
  rw [hc, ixfen, Device.issue_executes h f _ rfl, hf]
  rfl

/-- Settles O18: each store by its effect, the bytes by the runs that it writes. -/
theorem stores : Obligations.Stores := by
  intro e w s i d n sc value
  refine ⟨fun d2 h hr hin => ?stl, fun d1 l d2 h hk hreach hr => ?st, fun d1 l d2 h hk halign hfree hreach hr => ?sst, fun h hk => ?heldSt, fun h hk => ?heldSst⟩
  all_goals obtain ⟨rfl, hcore, -⟩ := Device.executes_w h
  case stl =>
    rw [← hcore] at hin
    have hlocal := IC.localAcc_of_localIn (d := d) (fun l => i.release d (fun d => .go (d.localWrites i.core i.place value l))) hin
    obtain ⟨hmem, hregs, hout, hblock⟩ := d2.localWrites_same i.core i.place value (i.targets 1 n sc)
    rw [← hcore]
    refine ⟨d2.localWrites i.core i.place value (i.targets 1 n sc), IC.completes_go rfl h ?_, hmem, hregs, hout, hblock,
      Device.localByte_localWrites (fun lane => le_length ..) d2 i.core i.place _⟩
    exact hlocal.trans (IC.release_of_released hr _)
  case st =>
    obtain ⟨d3, hstore, hstored⟩ := i.store_stored d2 n l
    refine ⟨d3, IC.completes_go rfl h ?_, hstore, hstored⟩
    simp only [ixSt, hk, Bool.false_eq_true, if_false]
    exact IC.global_of_reach hreach ((IC.release_of_released hr _).trans hstore)
  case sst =>
    obtain ⟨d4, hstore, hstored⟩ := i.store_stored (i.tokens.foldl (fun d x => d.raiseProv x.2.1 (x.2.2.1.toNat + 1)) d2) n l
    refine ⟨_, d4, rfl, hstore, IC.completes_go rfl h ?_, hstored, Device.foldl_raiseProv_prov i.tokens d2⟩
    have hwaits : i.tokens.any (fun x => d.sessIn i.hoop x.2.1 && (d.settling x.2.1 || ((d.sess x.2.1).state == 1 && d.tokenMoves x.2.1 x.2.2.1.toNat))) = false := by
      rw [List.any_eq_false]
      intro x hx hwait
      simp only [Bool.and_eq_true, Bool.or_eq_true, beq_iff_eq] at hwait
      obtain ⟨hsettle, hmoves⟩ := hfree x hx hwait.1
      rcases hwait.2 with hs | hm
      · rw [hsettle] at hs; cases hs
      · rw [hmoves hm.1] at hm; cases hm.2
    simp only [ixSst, hk, hwaits, Bool.false_eq_true, if_false]
    rw [show i.tokenAlign (widthOf i.w) = [] from halign, firstFault_nil]
    exact IC.checked_of_reached hreach ((IC.release_of_released hr _).trans hstore)
  case heldSt => exact IC.gives_retry rfl h (by simp only [ixSt, hk, if_true])
  case heldSst => exact IC.gives_retry rfl h (by simp only [ixSst, hk, if_true])

end Sys2Proof.Machine

/-! Device memory over every step (R249, R472). -/

namespace Sys2Proof.Machine

/-- A kernel that has a block for die 160. -/
def strayKernel : Kernel :=
  { hoop := 0, queue := 0, entry := 0, ptr := 0, code := 0, regs := 8, split := 4, local_ := 0, bx := 1, byy := 1, bz := 1, seed := 0, params := 0,
    gx := 1, gy := 1, gz := 1, started := true, runs := [(160, [(0, 1)])] }

/-- A module that has not started, with undefined memory; the credit of core 0x2800 waits, whose cluster hoop 0 owns. -/
def strayCredit : Device :=
  { life := { powered := true }, mem := Memory.undefinedSince 0, work := { credits := [0x2800], kernels := [(0, strayKernel)] },
    regs := Tab.insert [(Reg.HOOP_CFG_STATE.key 0, 1)] (Reg.HOOP_CLUSTERS_CLUSTERS.key 0) (2 ^ 1280) }

def strayLaunch : State := { Tests.st strayCredit with pending := [.launch 0] }

theorem strayLaunch_memOk : strayLaunch.MemOk := by
  constructor
  · decide
  · intro hlive
    exact absurd hlive (by decide +kernel)

/-- The credit is served: the curd split 4 of core 0x2800 is written at the address of BOOT_STATUS, whose STAGE 4 is READY. -/
theorem strayLaunch_runs : (match step strayLaunch with
    | .next t => t.dev.live && t.dev.mem.lost.isSome
    | _ => false) = true := by
  decide +kernel

/-- Refutes O5: CORE_CURD of core 0x2800 lies at the address of BOOT_STATUS, and a LAUNCH serves a waiting credit whatever its core, so a module
whose memory is undefined reads READY. -/
theorem not_memoryKept : ¬ Obligations.MemoryKept := by
  intro h
  have hruns := strayLaunch_runs
  split at hruns
  case h_2 => cases hruns
  rename_i t hstep
  simp only [Bool.and_eq_true] at hruns
  obtain ⟨hlive, hlost⟩ := hruns
  rw [(h strayLaunch t strayLaunch_memOk hstep).2 hlive] at hlost
  cases hlost

end Sys2Proof.Machine

/-! Matrix instructions and the press (R128 to R133, R176 to R192). -/

namespace Sys2Proof.Machine

/-! Tables and cores written twice -/

theorem Tab.insert_insert_same {α : Type} (t : Tab α) (k : Nat) (v u : α) : Tab.insert (Tab.insert t k v) k u = Tab.insert t k u := by
  induction t with
  | nil => simp [Tab.insert]
  | cons c t ih =>
    obtain ⟨k', v'⟩ := c
    simp only [Tab.insert]
    split
    · simp [Tab.insert]
    · split
      · simp [Tab.insert]
      · rename_i hlt hne
        simp [Tab.insert, hlt, hne, ih]

theorem Tab.erase_of_find? {α : Type} {t : Tab α} {k : Nat} (h : Tab.find? t k = none) : Tab.erase t k = t := by
  induction t with
  | nil => rfl
  | cons c t ih =>
    obtain ⟨k', v'⟩ := c
    simp only [Tab.find?] at h
    split at h
    · cases h
    · rename_i hne
      simp only [Tab.erase, if_neg hne, ih h]

theorem Tab.find?_erase_same {α : Type} (t : Tab α) (k : Nat) : Tab.find? (Tab.erase t k) k = none := by
  induction t with
  | nil => rfl
  | cons c t ih =>
    obtain ⟨k', v'⟩ := c
    simp only [Tab.erase]
    split
    · exact ih
    · rename_i hne
      simp [Tab.find?, hne, ih]

/-- A value put where the same value was put changes nothing. -/
theorem Tab.put_put_same {α : Type} [DecidableEq α] (z : α) (t : Tab α) (k : Nat) (v : α) : Tab.put z (Tab.put z t k v) k v = Tab.put z t k v := by
  unfold Tab.put
  split
  · exact Tab.erase_of_find? (Tab.find?_erase_same t k)
  · exact Tab.insert_insert_same t k v v

theorem Device.modPress_id (d : Device) (k : Nat) (f : Press → Press) : (d.modPress k f).modPress k id = d.modPress k f := by
  simp only [Device.modPress, Device.modCore, Device.setCore, Device.core, Tab.get_put_same, id_eq, Tab.put_put_same]

@[simp] theorem Device.press_modPress (d : Device) (k : Nat) (f : Press → Press) : (d.modPress k f).press k = f (d.press k) := by
  simp [Device.press, Device.modPress]

@[simp] theorem Device.block?_modPress (d : Device) (k p : Nat) (f : Press → Press) : (d.modPress k f).block? k p = d.block? k p := by
  simp [Device.block?, Device.modPress, Core.block?]

/-! The checks of matrix instructions -/

section
variable {i : IC} {d : Device}

theorem IC.matrix_of_full {open_ : Bool} {reason : Nat} {k : Unit → Eff} (hfull : i.x.mask = 2 ^ 32 - 1) (hregion : i.b.region = open_) :
    i.matrix d open_ reason k = k () := by
  rw [IC.matrix, if_neg (by simp [hregion]), if_neg (by simp [hfull])]

/-- An operation that finds room is sent to the end of the press queue. -/
theorem IC.queueOp_of_room {f : Device → MxOp → Device} {o : MxOp} (hroom : ((d.press i.core).ops.filter (fun x => !x.started)).length < 8) :
    i.queueOp d f o = .go (f ((d.step1).modPress i.core (fun p => { p with ops := p.ops ++ [{ o with seq := d.fresh, place := i.place, group := i.x.group }] }))
      { o with seq := d.fresh, place := i.place, group := i.x.group }) := by
  rw [IC.queueOp, if_neg (Nat.not_le.mpr hroom)]

/-- An access whose hits no STOP watchpoint makes faults, has its hits recorded. -/
theorem IC.watched_of_go {kind n : Nat} {l : List LaneAcc} {k : Device → Eff} {d3 : Device} (hk : k d = .go d3)
    (hstop : d.watchStop i.hoop (i.hits kind n d l) = none) :
    i.watched d kind n (l.map (fun x => (x.lane, x.va))) k = .go (i.noted kind n d l d3) := by
  simp only [IC.watched, List.map_map, Function.comp_def, IC.noted, IC.hits] at hstop ⊢
  by_cases hres : i.isResumed = true
  · simp [hres, hk]
  · simp only [hres, if_false, Bool.false_eq_true, or_false] at hstop ⊢
    split
    · rw [hk]
    · simp only [hk, hstop]

end

/-- Settles O26: each instruction past its checks sends its operation, parks or goes on. -/
theorem matrixInstructions : Obligations.MatrixInstructions := by
  intro e w s i d
  dsimp only
  refine ⟨?begin, ?end_, ?ldin, ?stream, ?acc, ?drain, ?wait⟩
  case begin =>
    intro h hfull hregion
    refine ⟨_, IC.arriveAndPark_eq .., IC.gives_jump rfl h ?_⟩
    dsimp only
    rw [IC.matrix_of_full hfull hregion, IC.arriveAndPark_eq]
  case end_ =>
    intro h hfull hregion
    refine ⟨_, IC.arriveAndPark_eq .., IC.gives_jump rfl h ?_⟩
    dsimp only
    rw [IC.matrix_of_full hfull hregion, IC.arriveAndPark_eq]
  case ldin =>
    intro h hfull hregion hroom hranges
    obtain ⟨rfl, hcore, -⟩ := Device.executes_w h
    rw [← hcore] at hroom ⊢
    refine IC.completes_go rfl h ?_
    dsimp only
    rw [IC.matrix_of_full hfull hregion]
    split
    · rename_i hfault
      exact absurd (hfault.symm.trans hranges) (by simp)
    · exact IC.queueOp_of_room hroom
  case stream =>
    intro a h hfull hregion hroom hcur htile hpos hmax hsrc hranges
    obtain ⟨rfl, hcore, -⟩ := Device.executes_w h
    rw [← hcore] at hroom hcur htile ⊢
    refine IC.completes_go rfl h ?_
    dsimp only
    rw [IC.matrix_of_full hfull hregion]
    have hchecked : (if i.w.mod.toNat.testBit 10 = true then none else i.pressRanges d ([(i.a 1 0, i.bReg 1 0 * pressRb (i.mod 3 0), 128)] ++
        (if bits i.w.mod.toNat 9 8 = 0 then [] else [(i.c 1 0, i.bReg 1 0 * pressSb (i.mod 3 0) (bits i.w.mod.toNat 9 8), 8)]))) = none := by
      split
      · rfl
      · rename_i hlocal
        exact hranges (by simpa using hlocal)
    rw [hchecked, hcur]
    dsimp only
    rw [if_neg (by rintro ⟨hs, hlt⟩; exact absurd (hsrc hs) (by omega)), if_neg (by omega), if_neg (by rw [htile]; simp [typeOf, IC.mod])]
    exact IC.queueOp_of_room hroom
  case acc =>
    intro h hfull hregion hroom hpos hmax
    obtain ⟨rfl, hcore, -⟩ := Device.executes_w h
    rw [← hcore] at hroom ⊢
    refine IC.completes_go rfl h ?_
    dsimp only
    rw [IC.matrix_of_full hfull hregion, if_neg (by omega)]
    exact IC.queueOp_of_room hroom
  case drain =>
    intro r h hfull hregion hr hbits hranges
    obtain ⟨rfl, hcore, -⟩ := Device.executes_w h
    rw [← hcore] at hr ⊢
    have hmod : i.mod 3 0 = typeOf i.w := rfl
    refine ⟨fun hlocal hroom => ?_, fun hglobal hearly halign hseg hroom hstop => ?_⟩
    all_goals refine IC.completes_go rfl h ?_; dsimp only
    · rw [if_neg (by simp [hlocal]), IC.matrix_of_full hfull hregion, hr]
      dsimp only [Option.map_some, Option.getD_some]
      split
      · rename_i hfault
        exact absurd (hfault.symm.trans hranges) (by simp)
      · rw [Device.modPress_id]
        simp only [hmod, hlocal, hbits, Bool.false_eq_true, false_and, if_false, ne_eq, not_true_eq_false]
        exact IC.queueOp_of_room hroom
    · rw [if_neg (by simp [hearly]), IC.matrix_of_full hfull hregion, hr]
      dsimp only [Option.map_some, Option.getD_some]
      split
      · rename_i hfault
        exact absurd (hfault.symm.trans hranges) (by simp)
      · simp only [hglobal, if_true] at halign hseg hroom hstop
        simp only [hmod, hglobal, halign, hbits, hseg, true_and, Option.isSome_some, if_true, ne_eq, not_true_eq_false, if_false]
        exact IC.watched_of_go ((IC.queueOp_of_room hroom).trans (by rw [Device.modPress_id]; rfl)) hstop
  case wait =>
    intro h hfull hregion hnamed herror
    obtain ⟨rfl, hcore, -⟩ := Device.executes_w h
    rw [← hcore] at hnamed herror
    refine IC.completes_go rfl h ?_
    dsimp only
    rw [IC.matrix_of_full hfull hregion, show i.mod 3 0 = typeOf i.w from rfl, if_neg (by rw [hnamed]; simp), herror]

end Sys2Proof.Machine

/-! The press: grant, release, start and end of operations, tile loads (R129, R133, R182 to R191). -/

namespace Sys2Proof.Machine

@[simp] theorem Device.press_modBlock (d : Device) (k p : Nat) (f : Block → Block) : (d.modBlock k p f).press k = d.press k := by
  simp only [Device.press, Device.modBlock, Device.core_modCore]
  split <;> rfl

theorem Device.press_modCore_softLoc (d : Device) (k : Nat) (f : Core → List Nat) :
    (d.modCore k (fun c => { c with softLoc := f c })).press k = d.press k := by
  rw [Device.press, Device.core_modCore]
  rfl

theorem Device.press_localMet (d : Device) (k p x n : Nat) : (d.localMet k p x n).press k = d.press k := by
  unfold Device.localMet
  extract_lets a hit soft met
  have hmet : met.press k = d.press k := by
    unfold met
    split
    · rfl
    · rw [← d.press_modCore_softLoc k (fun c => c.softLoc.filter (fun w => !hit w))]
      rfl
  split <;> exact hmet

/-- A table of the rows of a press reads as the function that made it. -/
theorem Tab.get_map_range {n i : Nat} (hi : i < n) (z : Nat) (f : Nat → Nat) : Tab.get z ((List.range n).map (fun r => (r, f r))) i = f i := by
  have hget : ∀ l : List Nat, i ∈ l → Tab.get z (l.map (fun r => (r, f r))) i = f i := by
    intro l hl
    induction l with
    | nil => cases hl
    | cons a l ih =>
      by_cases ha : a = i
      · simp [Tab.get, ha]
      · simp [Tab.get, ha, ih (by simpa [Ne.symm ha] using hl)]
  exact hget _ (List.mem_range.mpr hi)

theorem Device.press_grant (d : Device) (k p : Nat) (q : Press) (f : Block → Block) :
    ((d.modCore k (fun c => { c with press := q })).modBlock k p f).press k = q := by
  rw [Device.press_modBlock, Device.press, Device.core_modCore]

theorem Device.block?_grant (d : Device) (k p : Nat) (q : Press) (f : Block → Block) :
    ((d.modCore k (fun c => { c with press := q })).modBlock k p f).block? k p = (d.block? k p).map f := by
  rw [Device.block?_modBlock]
  simp only [Device.block?, Device.core_modCore, Core.block?]

theorem Gives.of_done {c : Instr} {s : State} {d e : Device} (h : exec c s = s.done e) (he : e = d) : Gives c s d := he ▸ h

section
variable {core p : Nat} {b : Block} {s : State}

/-- PRESS_GRANT of a free press to a block that waits. -/
theorem gives_pressGrant {k : Kernel} {r : Nat} (hlive : s.dev.live = true) (hfree : (s.dev.core core).press.owner = none)
    (hnext : (minOf (((s.dev.core core).blocks.filterMap (fun (x : Nat × Block) => x.2.ready.map (fun y => (y, x.1)))).map (·.1))).bind (fun r =>
      List.find? (fun (x : Nat × Nat) => x.1 == r) ((s.dev.core core).blocks.filterMap (fun (x : Nat × Block) => x.2.ready.map (fun y => (y, x.1))))) = some (r, p))
    (hb : s.dev.block? core p = some b) (hk : s.dev.coreKernel core = some k) :
    Gives (.pressGrant core) s ((((s.dev.step1).modCore core (fun y => { y with press :=
      { owner := some p, epoch := s.dev.fresh, clean := (s.dev.core core).clean && (Tab.vals (s.dev.core core).blocks).all (fun (y : Block) => y.grants == 0),
        gens := (List.range 128).map (fun r => (r, mix k.seed b.lin (1024 + 128 * b.grants + r))) } })).modBlock core p
          (fun b => { b with region := true, ready := none, grants := b.grants + 1 })).resumeAt core p 16) := by
  refine .of_done (by rw [exec]; rfl) ?_
  simp only [hnext, hlive, hfree, hb, hk]

/-- PRESS_RELEASE without an error. -/
theorem gives_pressRelease (hlive : s.dev.live = true) (howner : (s.dev.core core).press.owner = some p) (hb : s.dev.block? core p = some b)
    (hend : b.ending = true) (hops : (s.dev.core core).press.ops = []) (herr : (s.dev.core core).press.error 0 = none) :
    Gives (.pressRelease core) s (((((s.dev.leaveGroup core).modCore core (fun c => { c with press := {} })).modBlock core p
      (fun b => { b with region := false, ending := false })).resumeAt core p 17).settle core p) := by
  refine .of_done (by rw [exec]; rfl) ?_
  simp [howner, hb, hlive, hend, hops, herr]

/-- PRESS_RELEASE after an error, where one group is parked at the MXEND. -/
theorem gives_pressRelease_fault {f : FaultArgs} {e : Nat} {x : SEnt} (hlive : s.dev.live = true) (howner : (s.dev.core core).press.owner = some p)
    (hb : s.dev.block? core p = some b) (hend : b.ending = true) (hops : (s.dev.core core).press.ops = [])
    (herr : (s.dev.core core).press.error 0 = some f)
    (hat : (s.dev.core core).ents.filter (fun (y : Nat × SEnt) => y.2.place == p && y.2.park == .wait 17) = [(e, x)]) :
    Gives (.pressRelease core) s (s.dev.blockFault core p x.group x.mask x.pc { f with arg0 := x.mask }) := by
  refine .of_done (by rw [exec]; rfl) ?_
  simp only [howner, hb, hlive, hend, hops, herr, hat, minOf, Option.bind_some, Option.map_some, List.isEmpty_nil, Bool.not_true, Bool.or_self,
    Bool.false_eq_true, if_false, List.map_cons, List.map_nil, List.foldl_nil, Option.getD_some, List.find?_cons, beq_self_eq_true]

end

/-! Operations -/

theorem Device.opStart_of_canStart {d : Device} {k : Nat} {o : MxOp} (hfind : (d.press k).ops.find? (fun o => !o.started) = some o)
    (hcan : o.canStart ((d.press k).ops.takeWhile (fun x => x.started)) = true) :
    d.opStart k = if o.kind = 2 then d.opDone k o.seq
      else d.modOp k o.seq (fun o => { o with
        started := true, snap := if o.kind = 3 then (d.press k).acc else [], badSnap := if o.kind = 3 then (d.press k).badAcc else [] }) := by
  simp only [Device.opStart, hfind, hcan, Bool.not_true, Bool.false_eq_true, if_false]

theorem Device.opEnd_of_ended {d : Device} {k : Nat} {o : MxOp} (hfind : (d.press k).ops.find? MxOp.ended = some o) : d.opEnd k = d.opDone k o.seq := by
  simp only [Device.opEnd, hfind]

/-- A row of a tile load whose local store is good. -/
theorem Device.tile_loadRow {d : Device} {k : Nat} {o : MxOp} (hload : (d.press k).loading = some o) (hscale : o.scale = 0)
    (hgood : d.localBad k o.place (o.a + o.taken * pressRb o.type) (pressRb o.type) = false) :
    ((d.loadRow k).press k).tile = (d.press k).tile.take o.taken
      ++ [(d.localRead k o.place (o.a + o.taken * pressRb o.type) (pressRb o.type), [])] ++ (d.press k).tile.drop (o.taken + 1) := by
  have hsb : pressSb o.type 0 = 0 := rfl
  simp only [Device.loadRow, hload, hscale, hsb, hgood, bne_self_eq_false, Bool.false_and, Bool.or_false, Bool.false_eq_true, if_false, if_true]
  rw [Device.modOp, Device.press_modPress, Device.press_modPress, Device.press_localMet]

/-- Settles O27: each event of the press by the state that it changes. -/
theorem press : Obligations.Press := by
  intro core s hlive hcore c press waiting
  have hgo : (s.dev.live && Decidable.decide (core < 256)) = true := by simp [hlive, hcore]
  have hstart : exec (.matrixOpStart core) s = s.done (if s.dev.live && Decidable.decide (core < 256) then s.dev.opStart core else s.dev) := rfl
  have hdone : exec (.matrixOpDone core) s = s.done (if s.dev.live && Decidable.decide (core < 256) then s.dev.opEnd core else s.dev) := rfl
  rw [hgo, if_pos rfl] at hstart hdone
  refine ⟨fun p b k r hfree hmin hfind hb hk => ?grant, fun p b howner hb hend hops => ⟨fun hnone => ?release, fun f e x herr hat => ?fault⟩,
    fun o hfind hcan => ⟨fun hkind => ?acc, fun hkind => ?start⟩, fun o hfind => ?done,
    fun o hload hscale hgood => Device.tile_loadRow hload hscale hgood⟩
  case grant =>
    refine ⟨_, gives_pressGrant (r := r) hlive hfree ?_ hb hk, ?_⟩
    · exact (congrArg (fun m => Option.bind m _) hmin).trans hfind
    · rw [Device.press_grant]
      exact ⟨rfl, rfl, by rw [Device.block?_grant, show s.dev.step1.block? core p = some b from hb]; rfl, fun row hrow => Tab.get_map_range hrow 1 _⟩
  case release =>
    refine ⟨_, gives_pressRelease hlive howner hb hend hops hnone, ?_⟩
    rw [Device.press_modBlock, Device.press, Device.core_modCore]
  case fault => exact gives_pressRelease_fault hlive howner hb hend hops herr hat
  case acc => exact .of_done hstart (by rw [Device.opStart_of_canStart hfind hcan, if_pos hkind])
  case start =>
    have hnext := Device.opStart_of_canStart hfind hcan
    rw [if_neg hkind] at hnext
    refine ⟨_, .of_done hstart hnext, rfl, ?_⟩
    rw [Device.modOp, Device.press_modPress]
  case done => exact .of_done hdone (Device.opEnd_of_ended hfind)

end Sys2Proof.Machine

/-! Stream, message and update instructions (R170 to R173, R278, R329, R353). -/

namespace Sys2Proof.Machine

/-! Structures that an instruction reads -/

/-- Host reads that wait for nothing more go on with the device that they pass. -/
theorem IC.withHost_of_passed {i : IC} {d d2 : Device} {l : List LaneAcc} {o : Device → LaneAcc → Nat → Device}
    (h : (i.withHost d l o .go).passed = some d2) (k : Device → Eff) : i.withHost d l o k = k d2 := by
  unfold IC.withHost at h ⊢
  dsimp only at h ⊢
  split at h
  · rename_i hdue
    rw [if_pos hdue]
    split at h
    · cases h
    · cases h
      rfl
  · rename_i hdue
    rw [if_neg hdue]
    split at h
    · rename_i hpath
      rw [if_pos hpath]
      split at h
      · cases h
      · cases h
        rfl
    · cases h

/-- Bytes that are read are given to what goes on with them, and it meets no fault. -/
theorem IC.goes_of_read {i : IC} {e d3 : Device} {va : Nat} {b : Bytes} {o : Option Bytes} {k : Device → Bytes → Eff} (ho : o = some b)
    (hk : k e b = .go d3) :
    (match (match o with
        | some b => k e b
        | none => Eff.fault e { code := 0x60, arg1 := va }) with
      | .fault d f => Eff.fault d { f with arg0 := i.guard }
      | r => r) = .go d3 := by
  subst ho
  dsimp only
  rw [hk]

/-- A structure whose bytes can be read is given to what goes on with them. -/
theorem IC.struct_of_structBytes {i : IC} {d d2 d3 : Device} {lane va n : Nat} {b : Bytes} {k : Device → Bytes → Eff}
    (h : i.structBytes d lane va n = some (d2, b)) (hk : k d2 b = .go d3) : i.struct d lane va n k = .go d3 := by
  unfold IC.structBytes at h
  unfold IC.struct
  dsimp only at h ⊢
  split at h
  case h_2 => cases h
  rename_i x rest hfault hlanes
  split at h
  case h_1 => cases h
  rename_i d1 hpassed
  rw [hfault, hlanes]
  dsimp only
  rw [IC.withHost_of_passed hpassed]
  revert h
  cases x.loc with
  | host a =>
    intro h
    obtain ⟨c, hcame, heq⟩ := Option.map_eq_some_iff.mp h
    cases heq
    have hgoes := IC.goes_of_read (i := i) (va := va) hcame hk
    exact hgoes
  | dev a =>
    intro h
    obtain ⟨c, hread, heq⟩ := Option.map_eq_some_iff.mp h
    cases heq
    have hgoes := IC.goes_of_read (i := i) (va := va) hread hk
    exact hgoes

theorem IC.descAt_of_structBytes {i : IC} {d d2 d3 : Device} {lane va : Nat} {b : Bytes} {bad : Device → Eff} {k : Device → Bytes → Eff}
    (halign : va % 128 = 0) (h : i.structBytes d lane va 128 = some (d2, b)) (hk : k d2 b = .go d3) : i.descAt d lane va bad k = .go d3 := by
  rw [IC.descAt, if_neg (by simp [halign])]
  exact IC.struct_of_structBytes h hk

/-- A structure that can be read has passed its checks. -/
theorem IC.firstFault_of_structBytes {i : IC} {d : Device} {lane va n : Nat} {r : Device × Bytes} (h : i.structBytes d lane va n = some r) :
    firstFault (i.translate d n [3] [(lane, va)]).2.2 = none := by
  unfold IC.structBytes at h
  dsimp only at h
  split at h
  · assumption
  · cases h

/-! Handles -/

section
variable {i : IC} {d : Device} {h : Handle}

theorem IC.withHandle_of_found {k : Nat → Handle → Eff} (hfind : Tab.find? i.b.handles (i.a 1 0) = some h) (hnew : h.awaited = false) :
    i.withHandle d k = k (i.a 1 0) h := by
  simp only [IC.withHandle, hfind, hnew, Bool.false_eq_true, if_false]

theorem IC.await_of_ok {n : Nat} {k : Device → Eff} (hok : h.fault = none) :
    i.await_ d n h k = k (if h.wide
      then (d.modBlock i.core i.place (fun b => { b with handles := Tab.insert b.handles n { h with awaited := true } })).dropL1 i.core
      else d.modBlock i.core i.place (fun b => { b with handles := Tab.insert b.handles n { h with awaited := true } })) := by
  simp only [IC.await_, hok]

/-- The uniform register that names a message's handle. -/
theorem IC.ureg_setU {b : Block} {v : Nat} (hz : i.w.dz = false) : (i.setU b 1 v).ureg i.x.group i.w.d.toNat = v % 2 ^ 32 := by
  simp [IC.setU, hz, Block.setUs, Block.setU, Block.ureg]

end

/-- The message that MSEND keeps for its answer. -/
def IC.message (i : IC) (d : Device) (data : Bytes) : Remote :=
  { kind := 3, a := i.core, b := i.place + (if i.w.dz then 192 else 0), c := d.fresh % 2 ^ 32, hoop := i.hoop, chip := i.c 1 0 % 4096,
    pkt := { dst := i.c 1 0 % 4096, src := d.ownChip, ptype := 0x10, job := i.hoop, offset := bits (i.c 1 0) 14 12 + bits (i.c 1 0) 18 15 * 8, data := data } }

/-- The device in which MSEND's block holds the message's handle, and D names it. -/
def IC.messageHandle (i : IC) (d : Device) : Device :=
  (d.step1).modBlock i.core i.place (fun b =>
    i.setU { b with handles := Tab.insert b.handles (d.fresh % 2 ^ 32) { kind := 1, op := d.step1.klz.nextTag, detail := i.c 1 0, awaited := i.w.dz } } 1
      (d.fresh % 2 ^ 32))

theorem IC.messageHandle_ureg {i : IC} {d : Device} (hz : i.w.dz = false) (hb : ((i.messageHandle d).block? i.core i.place).isSome = true) :
    ((i.messageHandle d).block? i.core i.place).map (fun b => b.ureg i.x.group i.w.d.toNat) = some (d.fresh % 2 ^ 32) := by
  rw [IC.messageHandle, Device.block?_modBlock] at hb ⊢
  rw [Option.map_map]
  cases hfound : d.step1.block? i.core i.place with
  | none => rw [hfound] at hb; cases hb
  | some b => simp [IC.ureg_setU hz]

/-- MSEND of a block with room for a handle, past its checks. -/
theorem IC.msend_local {i : IC} {d : Device} (hearly : i.k.early = false) (hflag : i.flag 0 = true) (hmin : 64 ≤ i.bReg 1 0) (hmax : i.bReg 1 0 ≤ 4096)
    (hword : i.c 1 0 < 2 ^ 19) (hin : d.localIn i.core (i.a 2 0 % 2 ^ 32) (i.bReg 1 0) = true)
    (hgood : d.localBad i.core i.place (i.a 2 0 % 2 ^ 32) (i.bReg 1 0) = false)
    (hheld : ((d.localMet i.core i.place (i.a 2 0 % 2 ^ 32) (i.bReg 1 0)).core i.core).held i.place < 16) :
    let d1 := d.localMet i.core i.place (i.a 2 0 % 2 ^ 32) (i.bReg 1 0)
    let r := i.message d1 (d.localRead i.core i.place (i.a 2 0 % 2 ^ 32) (i.bReg 1 0))
    (ixMsend i.w).2 i d = .go (((i.messageHandle d1).openRemote r).getD ((i.messageHandle d1).keepRemote r)) := by
  have hsize : ¬ (i.bReg 1 0 < 64 ∨ 4096 < i.bReg 1 0) := by omega
  dsimp only [ixMsend]
  rw [if_neg (by simp [hearly]), if_pos hflag, if_neg (by rw [hin]; simp), if_neg hsize, if_neg (Nat.not_le.mpr hword)]
  dsimp only
  rw [if_neg (by rw [hgood]; simp), if_neg (Nat.not_le.mpr hheld)]
  rfl

/-- The same from global memory, where the bytes can be read. -/
theorem IC.msend_global {i : IC} {d d1 : Device} {b : Bytes} (hearly : i.k.early = false) (hflag : i.flag 0 = false) (hmin : 64 ≤ i.bReg 1 0)
    (hmax : i.bReg 1 0 ≤ 4096) (hword : i.c 1 0 < 2 ^ 19) (hbytes : i.structBytes d 0 (i.a 2 0) (i.bReg 1 0) = some (d1, b))
    (hheld : (d1.core i.core).held i.place < 16) :
    (ixMsend i.w).2 i d = .go (((i.messageHandle d1).openRemote (i.message d1 b)).getD ((i.messageHandle d1).keepRemote (i.message d1 b))) := by
  have hsize : ¬ (i.bReg 1 0 < 64 ∨ 4096 < i.bReg 1 0) := by omega
  dsimp only [ixMsend]
  rw [if_neg (by simp [hearly]), if_neg (by simp [hflag]), IC.firstFault_of_structBytes hbytes, if_neg hsize, if_neg (Nat.not_le.mpr hword)]
  refine IC.struct_of_structBytes hbytes ?_
  rw [if_neg (Nat.not_le.mpr hheld)]
  rfl

/-- Settles O28: each instruction past its checks by the device that it leaves. -/
theorem streamsAndMessages : Obligations.StreamsAndMessages := by
  intro e w s i d n pg
  refine ⟨fun d2 d3 d4 b ub h halign hbytes hearly hvalid hmode hupd => ?start, fun x h hfind hnew hdone hok => ?wait,
    fun x h hfind hnew => ⟨fun hdone => ?pending, fun hdone hok => ⟨fun hpolled => ?polled, fun st hpolled => ?traced⟩⟩,
    fun h hearly hmin hmax hword => ?send⟩
  all_goals obtain ⟨rfl, -⟩ := Device.executes_w h
  case start =>
    intro eng hcheck hheld hroom x
    refine IC.completes_go rfl h ?_
    have hlate : ¬ (i.k.early = true ∧ (!(parseSd b).dstLocal) = true) := by
      rintro ⟨hk, hno⟩
      simp [hearly hk] at hno
    have hlast : ¬ ((d4.core i.core).held i.place ≥ 16 ∨ (!d4.engineRoom eng) = true) := by
      simp only [hroom, Bool.not_true, Bool.false_eq_true, or_false]
      omega
    dsimp only [ixSstart]
    refine IC.descAt_of_structBytes halign hbytes ?_
    rw [if_neg hlate, if_neg (by simp [hvalid])]
    by_cases hsix : (parseSd b).mode = 6
    · rw [if_pos hsix] at hmode ⊢
      refine IC.struct_of_structBytes hmode ?_
      rw [if_neg (by simp [hupd]), show i.mod 4 0 = bits i.w.mod.toNat 4 0 from rfl, hcheck]
      exact if_neg hlast
    · rw [if_neg hsix] at hmode ⊢
      obtain ⟨rfl, rfl⟩ := hmode
      rw [if_neg (by simp [hupd]), show i.mod 4 0 = bits i.w.mod.toNat 4 0 from rfl, hcheck]
      exact if_neg hlast
  case wait =>
    refine IC.completes_go rfl h ?_
    dsimp only [ixSwait]
    rw [IC.withHandle_of_found hfind hnew]
    rw [if_neg (by simp [hdone])]
    exact IC.await_of_ok hok
  case pending =>
    refine IC.completes_go rfl h ?_
    dsimp only [ixSpoll]
    rw [IC.withHandle_of_found hfind hnew]
    simp only [hdone, Bool.not_false, if_true]
    rfl
  case polled =>
    refine IC.completes_go rfl h ?_
    dsimp only [ixSpoll]
    rw [IC.withHandle_of_found hfind hnew]
    simp only [hdone, Bool.not_true, Bool.false_eq_true, if_false, IC.await_of_ok hok, hpolled]
    rfl
  case traced =>
    refine IC.completes_go rfl h ?_
    dsimp only [ixSpoll]
    rw [IC.withHandle_of_found hfind hnew]
    simp only [hdone, Bool.not_true, Bool.false_eq_true, if_false, IC.await_of_ok hok, hpolled]
    rfl
  case send =>
    intro a sends
    exact ⟨fun hflag hin hgood hheld => ⟨_, _, IC.completes_go rfl h (IC.msend_local hearly hflag hmin hmax hword hin hgood hheld), rfl, rfl, rfl,
        fun hz _ hb => IC.messageHandle_ureg hz hb⟩,
      fun d1 b hflag hbytes hheld => ⟨_, _, IC.completes_go rfl h (IC.msend_global hearly hflag hmin hmax hword hbytes hheld), rfl, rfl, rfl,
        fun hz _ hb => IC.messageHandle_ureg hz hb⟩⟩

/-! Updates -/

theorem Device.openRead_mem (d : Device) (r : HRead) (n : Nat) : (d.openRead r n).mem = d.mem := by
  have hsend : ∀ d : Device, d.sendAsks.mem = d.mem := fun d =>
    List.foldlRecOn (motive := fun e : Device => e.mem = d.mem) _ _ rfl (fun e he a _ => by split <;> exact he)
  unfold Device.openRead
  extract_lets id die parts
  refine (hsend _).trans ?_
  unfold die
  split <;> rfl

/-- The translated accesses of an update's elements, their reads, and the faults that they meet. -/
def IC.updReads (i : IC) (d : Device) (acc : List (Nat × Nat × Nat × Nat)) : Device × List LaneAcc × List (Nat × FaultArgs) :=
  acc.foldl (fun m x =>
    let y := i.translate m.1 x.2.2.1 [x.2.2.2] [(x.1, x.2.1)]
    (y.1, m.2.1 ++ (if x.2.2.2 = 3 then y.2.1 else []), m.2.2 ++ y.2.2)) (d, [], [])

/-- The device after the lookups of the elements that lie in device memory. -/
def IC.updLooked (i : IC) (r : Device × List LaneAcc × List (Nat × FaultArgs)) (acc : List (Nat × Nat × Nat × Nat)) : Device :=
  r.2.1.foldl (fun d x => match x.loc with
    | .dev a => d.cohRead i.die i.hoop a 2 true
    | .host _ => d) (r.1.updWatch i.hoop (r.1.groupWaiter i.core i.x) acc)

/-- The reads of the elements in the host tier, and the numbers under which their bytes come. -/
def IC.updAsks (i : IC) (d : Device) (l : List LaneAcc) (acc : List (Nat × Nat × Nat × Nat)) : Device × List (Nat × Nat × Nat) :=
  l.foldl (fun (m : Device × List (Nat × Nat × Nat)) x => match x.loc with
    | .dev _ => m
    | .host a =>
      let size := ((acc.find? (fun y => y.1 == x.lane && y.2.1 == x.va)).map (fun y => y.2.2.1)).getD 2
      (m.1.openRead { kind := 10, a := i.core, b := d.fresh, c := 0, fn := d.ownerFn i.hoop, addr := a } size, m.2 ++ [(m.1.fresh, x.lane, x.va)]))
    (d.step1, [])

theorem IC.updAsks_mem (i : IC) (d : Device) (l : List LaneAcc) (acc : List (Nat × Nat × Nat × Nat)) : (i.updAsks d l acc).1.mem = d.mem := by
  refine List.foldlRecOn (motive := fun m : Device × List (Nat × Nat × Nat) => m.1.mem = d.mem) l _ rfl (fun m hm x _ => ?_)
  split
  · exact hm
  · exact (Device.openRead_mem ..).trans hm

/-- Nothing is awaited where every element lies in device memory. -/
theorem IC.updAsks_none (i : IC) (d : Device) {l : List LaneAcc} (acc : List (Nat × Nat × Nat × Nat)) (h : ∀ x ∈ l, x.host = none) :
    (i.updAsks d l acc).2 = [] := by
  refine List.foldlRecOn (motive := fun m : Device × List (Nat × Nat × Nat) => m.2 = []) l _ rfl (fun m hm x hx => ?_)
  split
  · exact hm
  · rename_i a hloc
    have hnone := h x hx
    rw [LaneAcc.host, hloc] at hnone
    cases hnone

theorem IC.updAsks_some (i : IC) (d : Device) {l : List LaneAcc} (acc : List (Nat × Nat × Nat × Nat)) (h : ∃ x ∈ l, x.host.isSome = true) :
    (i.updAsks d l acc).2 ≠ [] := by
  obtain ⟨x, hx, hhost⟩ := h
  obtain ⟨s, t, rfl⟩ := List.append_of_mem hx
  cases hloc : x.loc with
  | dev a => rw [LaneAcc.host, hloc] at hhost; cases hhost
  | host a =>
    rw [IC.updAsks, List.foldl_append, List.foldl_cons, hloc]
    refine List.foldlRecOn (motive := fun m : Device × List (Nat × Nat × Nat) => m.2 ≠ []) t _ (by simp) (fun m hm y _ => ?_)
    split
    · exact hm
    · simp

/-- An SMUPD with what it awaits. -/
def IC.updOp (i : IC) (b : Bytes) (due : List (Nat × Nat × Nat)) : UpdOp :=
  { place := some i.place, hoop := i.hoop, map := i.k.map, group := i.x.group, mask := i.x.mask, pc := i.x.pc, desc := b,
    idx := i.lanes.map (fun l => (l, i.bReg 1 l)), due := due }

section
variable {i : IC} {d d2 d4 : Device} {b : Bytes}

/-- SMUPD past its checks: the elements in the host tier are awaited, or all of them are performed. -/
theorem IC.smupd_go {r : Device × List LaneAcc × List (Nat × FaultArgs)} {acc : List (Nat × Nat × Nat × Nat)}
    (hacc : updAccesses (parseUpd b) (i.lanes.map (fun l => (l, i.bReg 1 l))) = acc) (hr : i.updReads d2 acc = r)
    (hearly : i.k.early = false) (hguard : i.guard ≠ 0) (halign : i.a 2 0 % 128 = 0) (hbytes : i.structBytes d 64 (i.a 2 0) 128 = some (d2, b))
    (hvalid : updValid b = true) (hform : (parseUpd b).form = bits i.w.mod.toNat 1 0) (hcount : ∀ l ∈ i.lanes, i.bReg 1 l < (parseUpd b).count)
    (hgood : r.2.2 = []) (hheld : (r.1.core i.core).held i.place < 16) (hpath : i.noHost r.1 r.2.1 = [])
    (hfree : i.collides r.1 (acc.map (fun x => (x.1, x.2.1, x.2.2.1, x.2.2.2 == 4))) = false)
    (hlast : (if (i.updAsks (i.updLooked r acc) r.2.1 acc).2 ≠ [] then
        .go ((i.updAsks (i.updLooked r acc) r.2.1 acc).1.modCore i.core (fun c => { c with
          upds := Tab.insert c.upds (i.updLooked r acc).fresh (i.updOp b (i.updAsks (i.updLooked r acc) r.2.1 acc).2) }))
      else match firstFault ((i.updOp b (i.updAsks (i.updLooked r acc) r.2.1 acc).2).failures (i.updLooked r acc) (parseUpd b)) with
        | some f => .fault (i.updLooked r acc) f
        | none => .go ((i.updLooked r acc).updRun i.core (i.updOp b (i.updAsks (i.updLooked r acc) r.2.1 acc).2))) = Eff.go d4) :
    (ixSmupd i.w).2 i d = .go d4 := by
  have hout : (i.lanes.map (fun l => (l, i.bReg 1 l))).filter (fun x => Decidable.decide ((parseUpd b).count ≤ x.2)) = [] := by
    rw [List.filter_eq_nil_iff]
    intro x hx
    obtain ⟨l, hl, rfl⟩ := List.mem_map.mp hx
    simpa using hcount l hl
  have hfull : ¬ ((r.1.core i.core).held i.place ≥ 16 ∨ i.collides r.1 (acc.map (fun x => (x.1, x.2.1, x.2.2.1, x.2.2.2 == 4))) = true) := by
    rw [hfree]
    simp only [Bool.false_eq_true, or_false]
    omega
  dsimp only [ixSmupd]
  rw [if_neg (by simp [hearly]), if_neg hguard]
  refine IC.descAt_of_structBytes halign hbytes ?_
  rw [hout, hacc]
  simp only [List.any_nil, Bool.not_false, List.filter_true]
  dsimp only [IC.updReads] at hr
  rw [hr, hgood, if_neg (by simp [hvalid, hform, IC.mod]), if_neg hfull, hpath]
  exact hlast

end

/-- Settles O29: SMUPD past its checks performs its elements, or awaits those that lie in the host tier. -/
theorem update : Obligations.Update := by
  intro e w s i d h hearly
  obtain ⟨rfl, hcore, -⟩ := Device.executes_w h
  refine ⟨fun hguard => ?unguarded, fun d2 b hguard halign hbytes hvalid hform hcount => ?guarded⟩
  case unguarded => exact IC.completes_go rfl h (by dsimp only [ixSmupd]; rw [if_neg (by simp [hearly]), if_pos hguard])
  case guarded =>
    intro u idx acc r hgood hheld hpath hfree d3 o
    have hgo := fun {d4 : Device} => IC.smupd_go (d4 := d4) (r := r) (acc := acc) rfl rfl hearly hguard halign hbytes hvalid hform hcount hgood hheld hpath hfree
    refine ⟨fun hdev herr => IC.completes_go rfl h (hgo ?_), fun hhost => ?_⟩
    · have hnone := i.updAsks_none (i.updLooked r acc) acc hdev
      rw [hnone, if_neg (by simp), show (i.updOp b []).failures (i.updLooked r acc) (parseUpd b) = [] from herr, hcore]
      rfl
    · have hsome := i.updAsks_some (i.updLooked r acc) acc hhost
      refine ⟨_, (i.updLooked r acc).fresh, _, IC.completes_go rfl h (hgo (if_pos hsome)), hsome, ?_, i.updAsks_mem ..⟩
      rw [← hcore, Device.core_modCore]
      exact Tab.find?_insert_same ..

end Sys2Proof.Machine

/-! A fatal event (R248, R249): what it does to the hoops and to memory, what it records, and whom it tells. -/

namespace Sys2Proof.Machine

/-- What a fatal event does whoever reports it: every hoop is DEAD, device memory and the coherent domain are lost. -/
def Device.fatalDown (d : Device) (dead : Bool) : Device :=
  let d := (List.range 8).foldl (fun d h => d.wr Reg.HOOP_CFG_STATE h 5) d
  { d with life := { d.life with fatal := true, rindDead := dead }, mem := Memory.undefinedSince d.fresh, fresh := d.fresh + 1, coh := {} }

/-- The first event in the fatal registers. -/
def Device.fatalFields (d : Device) (cause reporter suspect slice line : Nat) : Device :=
  ((((((d.wr Reg.COH_FATAL_VALID 0 1).wr Reg.COH_FATAL_CAUSE 0 cause).wr Reg.COH_FATAL_REPORTER 0 reporter).wr Reg.COH_FATAL_SUSPECT 0 suspect).wr
    Reg.COH_FATAL_SLICE 0 slice).wr Reg.COH_FATAL_TIME_US 0 (d.clock.now / 1000)).wr Reg.COH_FATAL_ADDR_LINE 0 line

/-- The first event in the fatal registers, and in the record that they hold. -/
def Device.fatalNote (d : Device) (cause reporter suspect slice line : Nat) : Device :=
  let d := d.fatalFields cause reporter suspect slice line
  let word := 1 + cause * 2 ^ 4 + reporter * 2 ^ 8 + suspect * 2 ^ 12 + slice * 2 ^ 16 + d.clock.now / 1000 % 2 ^ 32 * 2 ^ 32
  let o : Occ := { code := 0x70, detail := le 8 word ++ le 8 (line * 128) }
  d.wr Reg.FATAL_RECORD_RECORD 0 (ofLe (recordBytes o 1 (d.time 0) false false))

/-- The BMC and the host are told, with the record as it stands. -/
def Device.fatalTell (d : Device) : Device :=
  let d := (d.errBit 8 14 false).alert
  (d.emit (vendorMsg (le 1 0x79 ++ le 3 0 ++ le 4 0xFFFFFFFF ++ le 64 (d.rd Reg.FATAL_RECORD_RECORD)))).emit .aer

/-- A fatal event takes the module down; unless the rind die is the dead one, it is noted once and told. -/
theorem Device.moduleFatal_eq (d : Device) (cause reporter suspect slice line : Nat) (hd : d.life.fatal = false) :
    d.moduleFatal cause reporter suspect slice line =
      let down := d.fatalDown (suspect = 4)
      if suspect = 4 then down
      else (if down.rd Reg.COH_FATAL_VALID = 1 then down else down.fatalNote cause reporter suspect slice line).fatalTell := by
  unfold Device.moduleFatal
  rw [if_neg (by simp [hd])]
  rfl

/-- After a fatal event there is no second one. -/
theorem Device.moduleFatal_of_fatal (d : Device) (cause reporter suspect slice line : Nat) (hd : d.life.fatal = true) :
    d.moduleFatal cause reporter suspect slice line = d := by
  simp [Device.moduleFatal, hd]

/-! Registers -/

/-- Registers written one after the other leave a field at another place as it is. -/
theorem Device.rd_foldl_wr_of_ne {α : Type} (d : Device) (f g : Fld) (j : Nat) (i v : α → Nat) (l : List α) (h : ∀ x ∈ l, g.key j ≠ f.key (i x)) :
    (l.foldl (fun d x => d.wr f (i x) (v x)) d).rd g j = d.rd g j :=
  List.foldlRecOn (motive := fun e : Device => e.rd g j = d.rd g j) l _ rfl fun e he x hx => (e.rd_wr_ne f g (i x) j (v x) (h x hx)).trans he

theorem hoopState_key_ne {i j : Nat} (h : i ≠ j) : Reg.HOOP_CFG_STATE.key i ≠ Reg.HOOP_CFG_STATE.key j := by
  simp only [Fld.key, Reg.HOOP_CFG_STATE]
  omega

/-- A field whose register lies below the hoop windows keeps its value when every hoop becomes DEAD. -/
theorem Device.rd_fatalDown (d : Device) (dead : Bool) (f : Fld) (hf : f.key 0 < 0x100000 * 1024) : (d.fatalDown dead).rd f 0 = d.rd f 0 :=
  d.rd_foldl_wr_of_ne Reg.HOOP_CFG_STATE f 0 (fun h => h) (fun _ => 5) (List.range 8) fun h _ => by
    simp only [Fld.key, Reg.HOOP_CFG_STATE] at hf ⊢
    omega

theorem Device.hoopState_fatalDown (d : Device) (dead : Bool) {h : Nat} (hh : h < 8) : (d.fatalDown dead).hoopState h = 5 := by
  show ((List.range 8).foldl (fun d h => d.wr Reg.HOOP_CFG_STATE h 5) d).rd Reg.HOOP_CFG_STATE h = 5
  have hsplit : List.range 8 = List.range h ++ h :: (List.range (7 - h)).map (h + 1 + ·) := by
    interval_cases h <;> rfl
  rw [hsplit, List.foldl_append, List.foldl_cons, Device.rd_foldl_wr_of_ne _ _ _ h (fun h => h) (fun _ => 5), Device.rd_wr_same]
  · rfl
  · intro x hx
    obtain ⟨k, -, rfl⟩ := List.mem_map.mp hx
    exact hoopState_key_ne (by omega)

@[simp] theorem Device.rd_alert (d : Device) (f : Fld) (i : Nat) : d.alert.rd f i = d.rd f i := by
  unfold Device.alert
  dsimp only
  split <;> rfl

/-- Telling of the event writes only the class bit of its record. -/
theorem Device.rd_fatalTell (d : Device) (f : Fld) (i : Nat) (hf : f.key i ≠ Reg.ERR_SUMMARY_CLASS.key 0) : d.fatalTell.rd f i = d.rd f i := by
  show (d.errBit 8 14 false).alert.rd f i = _
  rw [Device.rd_alert]
  exact d.rd_wr_ne _ _ _ _ _ hf

theorem Device.hoopState_fatalTell (d : Device) (h : Nat) : d.fatalTell.hoopState h = d.hoopState h :=
  d.rd_fatalTell _ _ (by
    simp only [Fld.key, Reg.HOOP_CFG_STATE, Reg.ERR_SUMMARY_CLASS]
    omega)

/-- Noting the event writes no hoop's window. -/
theorem Device.hoopState_fatalNote (d : Device) (cause reporter suspect slice line h : Nat) :
    (d.fatalNote cause reporter suspect slice line).hoopState h = d.hoopState h := by
  have hne : ∀ f : Fld, f.key 0 < 0x100000 * 1024 → Reg.HOOP_CFG_STATE.key h ≠ f.key 0 := by
    intro f hf
    simp only [Fld.key, Reg.HOOP_CFG_STATE] at hf ⊢
    omega
  simp only [Device.hoopState, Device.fatalNote, Device.fatalFields]
  repeat rw [Device.rd_wr_ne _ _ _ _ _ _ (hne _ (by decide))]

/-- The event that is noted shows its cause and its suspect. -/
theorem Device.rd_fatalNote (d : Device) (cause reporter suspect slice line : Nat) :
    let e := d.fatalNote cause reporter suspect slice line
    e.rd Reg.COH_FATAL_VALID = 1 ∧ e.rd Reg.COH_FATAL_CAUSE = cause % 2 ^ Reg.COH_FATAL_CAUSE.width ∧
      e.rd Reg.COH_FATAL_SUSPECT = suspect % 2 ^ Reg.COH_FATAL_SUSPECT.width := by
  refine ⟨?_, ?_, ?_⟩
  all_goals
    simp only [Device.fatalNote, Device.fatalFields]
    repeat rw [Device.rd_wr_ne _ _ _ _ _ _ (by decide)]
    rw [Device.rd_wr_same]
  rfl

/-! The obligation -/

/-- What is sent where the event is told: the interrupt of ALERT_N when it asserts, the record to the BMC, and AER to the host. -/
theorem Device.out_fatalTell (d : Device) :
    d.fatalTell.out = d.out ++ (if !d.pins.alert && !d.pins.straps.sbMode then [.inBand d.sbAddress] else [])
      ++ [vendorMsg (le 1 0x79 ++ le 3 0 ++ le 4 0xFFFFFFFF ++ le 64 (d.fatalTell.rd Reg.FATAL_RECORD_RECORD))] ++ [.aer] := by
  have hrecord : d.fatalTell.rd Reg.FATAL_RECORD_RECORD = (d.errBit 8 14 false).alert.rd Reg.FATAL_RECORD_RECORD := rfl
  have halert : (d.errBit 8 14 false).alert.out = d.out ++ (if !d.pins.alert && !d.pins.straps.sbMode then [.inBand d.sbAddress] else []) := by
    unfold Device.alert
    dsimp only
    split
    · rename_i hfresh
      exact congrArg (d.out ++ ·) (if_pos hfresh).symm
    · rename_i hfresh
      exact (List.append_nil _).symm.trans (congrArg (d.out ++ ·) (if_neg hfresh).symm)
  rw [hrecord, ← halert]
  rfl

theorem Device.alert_fatalTell (d : Device) : d.fatalTell.pins.alert = true := by
  show (d.errBit 8 14 false).alert.pins.alert = true
  unfold Device.alert
  dsimp only
  split <;> rfl

/-- The device that is told of: the event is noted unless another is. -/
def Device.fatalShown (d : Device) (cause reporter suspect slice line : Nat) : Device :=
  if d.rd Reg.COH_FATAL_VALID = 1 then d else d.fatalNote cause reporter suspect slice line

theorem Device.hoopState_fatalShown (d : Device) (cause reporter suspect slice line h : Nat) :
    (d.fatalShown cause reporter suspect slice line).hoopState h = d.hoopState h := by
  unfold Device.fatalShown
  split
  · rfl
  · exact d.hoopState_fatalNote ..

theorem Device.out_fatalNote (d : Device) (cause reporter suspect slice line : Nat) :
    (d.fatalNote cause reporter suspect slice line).out = d.out ∧ (d.fatalNote cause reporter suspect slice line).pins = d.pins := by
  simp only [Device.fatalNote]
  rw [Device.wr_out, Device.wr_pins]
  simp only [Device.fatalFields, Device.wr_out, Device.wr_pins, and_self]

theorem Device.out_fatalShown (d : Device) (cause reporter suspect slice line : Nat) :
    (d.fatalShown cause reporter suspect slice line).out = d.out ∧ (d.fatalShown cause reporter suspect slice line).pins = d.pins := by
  unfold Device.fatalShown
  split
  · exact ⟨rfl, rfl⟩
  · exact d.out_fatalNote ..

theorem Device.out_fatalDown (d : Device) (dead : Bool) : (d.fatalDown dead).out = d.out ∧ (d.fatalDown dead).pins = d.pins := by
  obtain ⟨r, hr⟩ := Device.foldl_wr_eq Reg.HOOP_CFG_STATE (fun h => h) (fun _ => 5) (List.range 8) d
  simp [Device.fatalDown, hr]

/-- After a fatal event every hoop is DEAD. -/
theorem Device.hoopState_moduleFatal (d : Device) (cause reporter suspect slice line : Nat) (hd : d.life.fatal = false) {h : Nat} (hh : h < 8) :
    (d.moduleFatal cause reporter suspect slice line).hoopState h = 5 := by
  rw [d.moduleFatal_eq cause reporter suspect slice line hd]
  dsimp only
  split
  · exact d.hoopState_fatalDown _ hh
  · rw [Device.hoopState_fatalTell, ← Device.fatalShown, Device.hoopState_fatalShown, d.hoopState_fatalDown _ hh]

/-- Settles O55: a fatal event takes the module down, and is noted and told where the rind die still works. -/
theorem fatalEvent : Obligations.FatalEvent := by
  intro d cause reporter suspect slice line hd
  dsimp only
  obtain ⟨hrest, hmem, hlife, hcoh⟩ := d.moduleFatal_told cause reporter suspect slice line hd
  refine ⟨fun h hh => d.hoopState_moduleFatal cause reporter suspect slice line hd hh, hmem, hcoh, by rw [hlife],
    fun x y z u v => Device.moduleFatal_of_fatal _ x y z u v (by rw [hlife]), fun hsuspect => ?_, fun hsuspect => ?_⟩
  · have heq : d.moduleFatal cause reporter suspect slice line
        = ((d.fatalDown (suspect = 4)).fatalShown cause reporter suspect slice line).fatalTell := by
      rw [d.moduleFatal_eq cause reporter suspect slice line hd]
      exact if_neg hsuspect
    have hvalid : (d.fatalDown (suspect = 4)).rd Reg.COH_FATAL_VALID = d.rd Reg.COH_FATAL_VALID := d.rd_fatalDown _ _ (by decide)
    refine ⟨by rw [heq]; exact Device.alert_fatalTell _, ⟨_, ?_, rfl⟩, fun hfree => ?_, fun hheld => ?_⟩
    · have hshown := (d.fatalDown (suspect = 4)).out_fatalShown cause reporter suspect slice line
      have hdown := d.out_fatalDown (suspect = 4)
      rw [heq, Device.out_fatalTell, hshown.1, hshown.2, hdown.1, hdown.2]
      simp only [Device.sbAddress, hshown.2, hdown.2]
    · rw [heq, Device.fatalShown, hvalid, if_neg hfree, Device.rd_fatalTell _ _ _ (by decide), Device.rd_fatalTell _ _ _ (by decide),
        Device.rd_fatalTell _ _ _ (by decide)]
      exact Device.rd_fatalNote ..
    · rw [heq, Device.fatalShown, hvalid, if_pos hheld, Device.rd_fatalTell _ _ _ (by decide), Device.rd_fatalTell _ _ _ (by decide)]
      exact ⟨d.rd_fatalDown _ _ (by decide), d.rd_fatalDown _ _ (by decide)⟩
  · have heq : d.moduleFatal cause reporter suspect slice line = d.fatalDown (suspect = 4) := by
      rw [d.moduleFatal_eq cause reporter suspect slice line hd]
      exact if_pos hsuspect
    exact ⟨by rw [heq]; exact (d.out_fatalDown _).1, by rw [hlife]; simp [hsuspect]⟩

end Sys2Proof.Machine

/-! Requests of the coherent domain (R239 to R246, Table 9-2): what an agent sends, and what the home does with it. -/

namespace Sys2Proof.Machine

/-- The hoop that a request is counted for: a write-back's is the one of its line's tag. -/
def Device.requestHoop (d : Device) (n : Nat) (t : Track) : Nat :=
  if t.kind = 4 then (((Tab.find? (Tab.get [] d.coh.caches t.agent) n).map (fun (l : CLine) => l.hoop)).getD 0) else t.hoop

/-- The domain with a request that leaves its agent: a write-back's line is on its way. -/
def Coh.sending (c : Coh) (n : Nat) (t : Track) : Coh := if t.kind = 4 then { c with wbs := c.wbs ++ [(t.agent, n)] } else c

/-- A request of an agent that may send one reaches the home. -/
theorem Device.request_of_maySend (d : Device) {n : Nat} {t : Track} (hlive : d.live = true) (hagent : t.agent ≤ 4) (hhoop : d.requestHoop n t < 8)
    (hline : d.isLine n = true) (hwf : t.wf = true) (hasked : d.coh.asked t.agent n = false)
    (hmay : d.coh.maySend t.kind t.agent n (d.wayMask (d.requestHoop n t) t.agent) = true) :
    d.request n t = (d.setCoh (d.coh.sending n t)).arrives n { t with hoop := d.requestHoop n t } := by
  unfold requestHoop at hhoop hmay
  unfold Device.request Coh.sending requestHoop
  have hhoop' := Nat.not_lt.mpr (Nat.le_of_lt_succ hhoop)
  simp [hlive, hline, hwf, hasked, hmay, Nat.not_lt.mpr hagent, hhoop']

/-- An agent that has asked for the line, or whose state sends nothing, sends nothing. -/
theorem Device.request_of_not_maySend (d : Device) {n : Nat} {t : Track}
    (h : d.coh.asked t.agent n = true ∨ d.coh.maySend t.kind t.agent n (d.wayMask (d.requestHoop n t) t.agent) = false) : d.request n t = d := by
  unfold requestHoop at h
  unfold Device.request
  rcases h with h | h <;> simp [h]

/-- A request whose line nobody uses and whose slice has room is taken at once. -/
theorem Device.arrives_of_free (d : Device) {n : Nat} {t : Track} (hbusy : d.coh.busy n = false) (hroom : d.coh.openAt n < 48) :
    d.arrives n t = (d.ringMsg t.agent (homeDie (n * 128)) t.kind n t.bytes).take_ n t := by
  unfold Device.arrives
  simp [hbusy, Nat.not_le.mpr hroom]

/-- Any other request waits at the home. -/
theorem Device.arrives_of_busy (d : Device) {n : Nat} {t : Track} (h : d.coh.busy n = true ∨ 48 ≤ d.coh.openAt n) :
    d.arrives n t = (d.ringMsg t.agent (homeDie (n * 128)) t.kind n t.bytes).setCoh { d.coh with waiting := d.coh.waiting ++ [(n, t)] } := by
  unfold Device.arrives
  rcases h with h | h <;> simp [h]

/-- A line is as busy, and its slice as full, while a request is on its way. -/
theorem Coh.busy_sending (c : Coh) (n : Nat) (t : Track) : (c.sending n t).busy n = c.busy n ∧ (c.sending n t).openAt n = c.openAt n := by
  unfold Coh.sending
  split <;> exact ⟨rfl, rfl⟩

/-- The request that an instruction of a kind makes. -/
def requestOf (kind a h off : Nat) (data : Bytes) (op : AtomOp) : Track :=
  { kind := kind, agent := a, hoop := if kind = 4 then 0 else h, off := if kind = 6 ∨ kind = 7 then off else 0,
    data := if kind = 3 ∨ kind = 6 then data else [], op := if kind = 7 then some op else none }

/-- A request whose data are as its kind needs them is well formed. -/
theorem wf_requestOf {kind : Nat} (a h : Nat) {off : Nat} {data : Bytes} {op : AtomOp} (hkind : kind < 8) (hwhole : kind = 3 → data.length = 128)
    (hpart : kind = 6 → data ≠ [] ∧ off + data.length ≤ 128)
    (hword : kind = 7 → op.aop ≤ 10 ∧ (op.w64 = true → op.aop < 8) ∧ off % (if op.w64 then 8 else 4) = 0 ∧ off < 128) :
    (requestOf kind a h off data op).wf = true := by
  match kind, hkind, hwhole, hpart, hword with
  | 0, _, _, _, _ | 1, _, _, _, _ | 2, _, _, _, _ | 4, _, _, _, _ | 5, _, _, _, _ => rfl
  | 3, _, hwhole, _, _ => simp [requestOf, Track.wf, hwhole rfl]
  | 6, _, _, hpart, _ => simpa [requestOf, Track.wf] using hpart rfl
  | 7, _, _, _, hword =>
    obtain ⟨haop, hw64, halign, hoff⟩ := hword rfl
    cases hw : op.w64 <;> simp_all [requestOf, Track.wf]

/-- Each request instruction makes the request of its kind; what the domain has met is reported. -/
theorem exec_requestOf (kind a n h off : Nat) (data : Bytes) (op : AtomOp) (s : State) : kind < 8 →
    exec (match kind with
      | 0 => .rdShared a n h
      | 1 => .rdOwn a n h
      | 2 => .invOwn a n h
      | 3 => .wrLine a n { hoop := h, data := data }
      | 4 => .wb a n
      | 5 => .rdCur a n h
      | 6 => .wrCur a n { hoop := h, off := off, data := data }
      | _ => .atomic a n { hoop := h, off := off, op := op }) s = s.done (s.dev.request n (requestOf kind a h off data op)).reportFailed := by
  intro hkind
  interval_cases kind <;> rfl

/-- A write-back is counted for the hoop of its line's tag, any other request for its own. -/
theorem requestHoop_requestOf (d : Device) (kind a n h off : Nat) (data : Bytes) (op : AtomOp) :
    (if kind = 4 then ((Tab.find? (Tab.get [] d.coh.caches a) n).map (fun (l : CLine) => l.hoop)).getD 0 else h)
      = d.requestHoop n (requestOf kind a h off data op) := by
  by_cases h4 : kind = 4 <;> simp [requestOf, Device.requestHoop, h4]

/-- Settles O53: each request instruction is the request of its kind, which the home takes, keeps waiting, or never sees. -/
theorem coherenceRequests : Obligations.CoherenceRequests := by
  intro kind a n h off data op s
  dsimp only
  intro hkind hlive hagent hline hhoop hwhole hpart hword
  have hexec := exec_requestOf kind a n h off data op s hkind
  have hwf := wf_requestOf a h hkind hwhole hpart hword
  rw [requestHoop_requestOf s.dev kind a n h off data op] at hhoop ⊢
  refine ⟨fun hasked hmay hbusy hroom => .of_done hexec ?_, fun hasked hmay hwait => .of_done hexec ?_, fun hnone => .of_done hexec ?_,
    fun e hfailed hlost => by simp [Device.reportFailed, hfailed, hlost]⟩
  · rw [s.dev.request_of_maySend hlive hagent hhoop hline hwf hasked hmay, Device.arrives_of_free _ ((Coh.busy_sending ..).1.trans hbusy)
      ((Coh.busy_sending ..).2.trans_lt hroom)]
    rfl
  · rw [s.dev.request_of_maySend hlive hagent hhoop hline hwf hasked hmay, Device.arrives_of_busy]
    · rfl
    · exact hwait.imp (Coh.busy_sending ..).1.trans (Coh.busy_sending ..).2.ge.trans'
  · rw [s.dev.request_of_not_maySend hnone]

/-! Snoops, responses and completions (Tables 9-3 and 9-4) -/

/-- A change of a line that leaves its state shows in no agent's state. -/
theorem Coh.state_modLine (c : Coh) (a n : Nat) (f : CLine → CLine) (hf : ∀ l, (f l).state = l.state) (x m : Nat) :
    (c.modLine a n f).state x m = c.state x m := by
  unfold Coh.modLine
  dsimp only
  split
  next => rfl
  next l hl =>
    by_cases hx : x = a
    · subst hx
      by_cases hm : m = n
      · subst hm
        simp [Coh.state, Coh.setCache, hl, hf]
      · simp [Coh.state, Coh.setCache, Tab.find?_insert_ne _ _ hm]
    · simp [Coh.state, Coh.setCache, Tab.get_put_ne _ _ _ _ hx]

@[simp] theorem Device.coh_pinsNow (d : Device) : d.pinsNow.coh = d.coh :=
  List.foldlRecOn (motive := fun e : Device => e.coh = d.coh) (List.range 4) _ rfl fun _ he _ _ => he

/-- After a line is pinned every agent's state is what it was, unless a fatal event has taken the domain. -/
theorem Device.coh_pinLine (d : Device) (n : Nat) : (d.pinLine n).coh = {} ∨ ∀ a, (d.pinLine n).coh.state a n = d.coh.state a n := by
  refine List.foldlRecOn (motive := fun e : Device => e.coh = {} ∨ ∀ a, e.coh.state a n = d.coh.state a n) (List.range 4) _ (.inr fun _ => rfl) ?_
  intro e he x _
  split
  next => exact he
  next l hl =>
    split
    · exact he
    · split
      · by_cases hf : e.life.fatal = true
        · rw [e.moduleFatal_of_fatal _ _ _ _ _ hf]
          exact he
        · exact .inl (e.moduleFatal_told 6 x 7 (sliceOf n) n (by simpa using hf)).2.2.2
      · rcases he with he | he
        · simp [he] at hl
        · right
          intro a
          rw [Device.coh_pinsNow]
          exact (Coh.state_modLine e.coh x n (fun l => { l with pin := true }) (fun _ => rfl) a n).trans (he a)

/-- In a domain that has been lost nothing is looked up. -/
theorem Device.lookedUp_of_lost {d : Device} (h : d.coh = {}) (a n : Nat) (consumes : Bool) : d.lookedUp a n consumes = d := by
  unfold Device.lookedUp Device.met
  simp [h]

/-- A snooped line after its lookup, as an agent that answers finds it (R233 to R235). -/
def Device.snoopLook (d : Device) (a n : Nat) (t : Track) : Device :=
  (d.pinLine n).lookedUp a n (a != t.agent && supplies t.kind ((d.pinLine n).coh.state a n))

/-- The answer of a snooped agent: the domain then, with its response on the ring. -/
def Device.snoopAnswer (d : Device) (a n : Nat) (t : Track) (c : Coh) (r : Nat) : Device :=
  (d.setCoh { c with opened := Tab.insert c.opened n { t with due := t.due.erase a }, ring := c.ring ++ [(a, n, r)] }).ringMsg a (homeDie (n * 128)) (11 + r) n

/-- How an agent answers a snoop once it has looked the line up: from its write-back on the way, as the requester itself, or by Table 9-3. -/
def Device.snoopReply (e : Device) (a n : Nat) (t : Track) : Device :=
  let c := e.coh
  let st := c.state a n
  let inWb := c.wbs.contains (a, n)
  let r : Nat × Nat :=
    if inWb then (0, (Sys2Proof.Machine.snoop t.kind 4).2)
    else if a = t.agent then (st, if st = 0 then 0 else 1)
    else c.snoopAt t.kind a n
  let tag := ((Tab.find? (Tab.get [] c.caches a) n).map (fun (l : CLine) => l.hoop)).getD
    (((c.waiting.find? (fun w => w.1 == n && w.2.agent == a && w.2.kind == 4)).map (fun w => w.2.hoop)).getD t.hoop)
  let e := if a = t.agent ∧ !inWb then e else if inWb ∧ (t.kind = 0 ∨ t.kind = 5) then e.memBytes tag n 1 128 else e.cleaned t.kind a n
  let c := e.coh.setState a n r.1
  let c := if inWb then { c with wbs := c.wbs.erase (a, n),
                                 waiting := c.waiting.filter (fun w => !(w.1 == n && w.2.agent == a && w.2.kind == 4)) } else c
  e.snoopAnswer a n t c r.2

theorem Device.snoopReply_of_other (e : Device) {a n : Nat} {t : Track} (hwb : e.coh.wbs.contains (a, n) = false) (hne : a ≠ t.agent) :
    e.snoopReply a n t = (e.cleaned t.kind a n).snoopAnswer a n t ((e.cleaned t.kind a n).coh.setState a n (e.coh.snoopAt t.kind a n).1)
      (e.coh.snoopAt t.kind a n).2 := by
  simp only [Device.snoopReply, hwb, hne, Bool.false_eq_true, false_and, if_false]

theorem Device.snoopReply_of_self (e : Device) {a n : Nat} {t : Track} (hwb : e.coh.wbs.contains (a, n) = false) (hself : a = t.agent) :
    e.snoopReply a n t = e.snoopAnswer a n t (e.coh.setState a n (e.coh.state a n)) (if e.coh.state a n = 0 then 0 else 1) := by
  subst hself
  simp only [Device.snoopReply, hwb, Bool.false_eq_true, Bool.not_false, and_self, if_true, if_false]

theorem Device.snoopReply_of_wb (e : Device) {a n : Nat} {t : Track} (hwb : e.coh.wbs.contains (a, n) = true) :
    e.snoopReply a n t =
      let tag := ((Tab.find? (Tab.get [] e.coh.caches a) n).map (fun (l : CLine) => l.hoop)).getD
        (((e.coh.waiting.find? (fun w => w.1 == n && w.2.agent == a && w.2.kind == 4)).map (fun w => w.2.hoop)).getD t.hoop)
      let e := if t.kind = 0 ∨ t.kind = 5 then e.memBytes tag n 1 128 else e.cleaned t.kind a n
      let c := e.coh.setState a n 0
      e.snoopAnswer a n t
        { c with wbs := c.wbs.erase (a, n), waiting := c.waiting.filter (fun w => !(w.1 == n && w.2.agent == a && w.2.kind == 4)) }
        (Sys2Proof.Machine.snoop t.kind 4).2 := by
  simp only [Device.snoopReply, hwb, Bool.not_true, Bool.false_eq_true, and_false, true_and, if_true, if_false]

/-- A snoop of a request that is open is looked up, and answered unless the lookup is fatal. -/
theorem Device.snooped_of_open (d : Device) {a n : Nat} {t : Track} (hfind : Tab.find? d.coh.opened n = some t) (hmet : d.met a n [3, 5, 7] = none) :
    d.snooped a n = if (d.snoopLook a n t).life.fatal then d.snoopLook a n t else (d.snoopLook a n t).snoopReply a n t := by
  have hlook : (d.pinLine n).lookedUp a n (a != t.agent && supplies t.kind (d.coh.state a n)) = d.snoopLook a n t := by
    unfold Device.snoopLook
    rcases d.coh_pinLine n with hlost | hstate
    · rw [Device.lookedUp_of_lost hlost, Device.lookedUp_of_lost hlost]
    · rw [hstate]
  unfold Device.snooped
  rw [hfind, hmet]
  dsimp only
  rw [hlook]
  rfl

/-- A snoop that a home has sent reaches its agent; any other is fatal (Table 9-6). -/
theorem Device.snoop_eq (d : Device) {group a n : Nat} (hlive : d.live = true) (ha : a ≤ 4) (hline : d.isLine n = true) :
    d.snoop group a n = if d.coh.snoopOk group a n then d.snooped a n else d.moduleFatal 8 a 7 0x1F n := by
  simp [Device.snoop, hlive, hline, Nat.not_lt.mpr ha]

theorem Device.response_eq (d : Device) {rsp a n : Nat} (hlive : d.live = true) (ha : a ≤ 4) (hline : d.isLine n = true) :
    d.response rsp a n = if d.rspOk rsp a n then d.responded rsp a n else d.moduleFatal 8 (homeDie (n * 128)) 7 (sliceOf n) n := by
  simp [Device.response, hlive, hline, Nat.not_lt.mpr ha]

theorem Device.completion_of_open (d : Device) {a n : Nat} {t : Track} (hlive : d.live = true) (ha : a ≤ 4) (hline : d.isLine n = true)
    (hfind : Tab.find? d.coh.opened n = some t) (hagent : t.agent = a) : d.completion a n = (d.completed n).reportFailed := by
  simp [Device.completion, hlive, hline, Nat.not_lt.mpr ha, hfind, hagent]

theorem Device.completion_of_none (d : Device) {a n : Nat} (hlive : d.live = true) (ha : a ≤ 4) (hline : d.isLine n = true)
    (hnone : ∀ x, Tab.find? d.coh.opened n = some x → x.agent ≠ a) : d.completion a n = d.moduleFatal 8 a 7 0x1F n := by
  unfold Device.completion
  cases hfind : Tab.find? d.coh.opened n with
  | none => simp [hlive, hline, Nat.not_lt.mpr ha]
  | some t => simp [hlive, hline, Nat.not_lt.mpr ha, hnone t hfind]

/-- Settles O54: each message that is waited for has its effect, and each other message, error or timeout is fatal. -/
theorem coherenceMessages : Obligations.CoherenceMessages := by
  intro a n rsp group suspect t s
  dsimp only
  intro hlive ha hline
  have hsnp : group < 3 → exec (match group with
      | 0 => .snpShared a n
      | 1 => .snpInv a n
      | _ => .snpCur a n) s = s.done (s.dev.snoop group a n) := by
    intro hgroup
    interval_cases group <;> rfl
  have hrsp : rsp < 4 → exec (match rsp with
      | 0 => .rspI a n
      | 1 => .rspS a n
      | 2 => .rspFwd a n
      | _ => .rspDirty a n) s = s.done (s.dev.response rsp a n) := by
    intro hrsp
    interval_cases rsp <;> rfl
  refine ⟨fun hgroup hno => .of_done (hsnp hgroup) ?_, fun hfind hdue hgroup => ?_, fun hr hno => .of_done (hrsp hr) ?_, fun hr hfind hring => ?_,
    fun hnone => .of_done (by rw [exec]; rfl) (s.dev.completion_of_none hlive ha hline hnone), fun hfind hagent => ?_, fun hfind hdue => ?_⟩
  · rw [s.dev.snoop_eq hlive ha hline, if_neg (by simp [hno])]
  · have hok : s.dev.coh.snoopOk group a n = true := by simp [Coh.snoopOk, hfind, hgroup, List.mem_of_elem_eq_true hdue]
    have hlt : group < 3 := by
      rw [hgroup, snoopGroup]
      split
      · omega
      · split <;> omega
    have hexec := hsnp hlt
    rw [s.dev.snoop_eq hlive ha hline, if_pos hok] at hexec
    have hlook : (s.dev.pinLine n).lookedUp a n (a != t.agent && supplies t.kind ((s.dev.pinLine n).coh.state a n)) = s.dev.snoopLook a n t := rfl
    rw [hlook]
    refine ⟨fun cause hmet => .of_done hexec ?_, fun hmet hfatal => .of_done hexec ?_, fun hmet halive => ?_⟩
    · simp [Device.snooped, hfind, hmet]
    · rw [s.dev.snooped_of_open hfind hmet, if_pos hfatal]
    · rw [s.dev.snooped_of_open hfind hmet, if_neg (by simp [halive])] at hexec
      refine ⟨fun hne hwb => .of_done hexec ?_, fun hself hwb => .of_done hexec ?_, fun hwb => .of_done hexec ?_⟩
      · rw [Device.snoopReply_of_other _ hwb hne]
        rfl
      · rw [Device.snoopReply_of_self _ hwb hself]
        rfl
      · rw [Device.snoopReply_of_wb _ hwb]
        rfl
  · rw [s.dev.response_eq hlive ha hline, if_neg (by simp [hno])]
  · have hok : s.dev.rspOk rsp a n = true := by simp [Device.rspOk, hfind, List.mem_of_elem_eq_true hring]
    have hexec := hrsp hr
    rw [s.dev.response_eq hlive ha hline, if_pos hok] at hexec
    exact ⟨fun cause hmet => .of_done hexec (by simp [Device.responded, hfind, hmet]),
      fun hmet => .of_done hexec (by simp [Device.responded, hfind, hmet])⟩
  · have hexec : exec (.cmp a n) s = s.done (s.dev.completed n).reportFailed := by
      rw [exec, execCmp, s.dev.completion_of_open hlive ha hline hfind hagent]
    have hanswered : t.due = [] → (∀ r ∈ s.dev.coh.ring, r.2.1 ≠ n) → (!t.due.isEmpty || s.dev.coh.ring.any (fun r => r.2.1 == n)) = false := by
      intro hdue hring
      rw [hdue, List.any_eq_false.mpr fun r hr => by simpa using hring r hr]
      rfl
    refine ⟨fun hopen => .of_done hexec ?_, fun hdue hring => ⟨fun cause hmet => .of_done hexec ?_, fun hmet => .of_done hexec ?_⟩, fun hs => .of_done (by rw [exec]; rfl) ?_⟩
    · have hpending : (!t.due.isEmpty || s.dev.coh.ring.any (fun r => r.2.1 == n)) = true := by
        rcases hopen with hopen | ⟨r, hr, hn⟩
        · simp [hopen]
        · rw [List.any_eq_true.mpr ⟨r, hr, by simp [hn]⟩]
          exact Bool.or_true _
      simp only [Device.completed, hfind, hpending, if_true]
    · simp only [Device.completed, hfind, hanswered hdue hring, hagent, hmet, Bool.false_eq_true, if_false]
    · simp only [Device.completed, hfind, hanswered hdue hring, hagent, hmet, Bool.false_eq_true, if_false]
    · simp [hfind, hagent, hlive, hs]
  · have hany : (t.due.contains suspect || s.dev.coh.ring.any (fun r => r.1 == suspect && r.2.1 == n)) = true := by
      rcases hdue with hdue | ⟨r, hr, h1, h2⟩
      · rw [hdue]
        rfl
      · rw [List.any_eq_true.mpr ⟨r, hr, by simp [h1, h2]⟩]
        exact Bool.or_true _
    refine .of_done (by rw [exec]; rfl) ?_
    simp only [hfind, hany, hlive, beq_self_eq_true, Bool.and_self, if_true]

end Sys2Proof.Machine

/-! Recovery and the fuses (R468, R478, R480). -/

namespace Sys2Proof.Machine

/-- With no command that waits, the end of a kind of wait changes nothing. -/
theorem Device.endWaits_of_nil {d : Device} (h : d.boot.waits = []) (kind status : Nat) : d.endWaits kind status = d := by
  simp [Device.endWaits, h]

/-- RESULT in the recovery registers, while no command waits for the load. -/
theorem Device.recoveryResult_shows {d : Device} (hwaits : d.boot.waits = []) (hbusy : d.rd Reg.RECOVERY_CTRL_BUSY = 0) {r : Nat} (hr : r < 4)
    (kind status : Nat) :
    let e := (d.wr Reg.RECOVERY_CTRL_RESULT 0 r).endWaits kind status
    e.rd Reg.RECOVERY_CTRL_BUSY = 0 ∧ e.boot = d.boot ∧ e.rd Reg.RECOVERY_CTRL_RESULT = r := by
  dsimp only
  rw [Device.endWaits_of_nil (by exact hwaits), Device.rd_wr_ne _ _ _ _ _ _ (by decide), Device.rd_wr_same]
  exact ⟨hbusy, rfl, Nat.mod_eq_of_lt hr⟩

/-- The recovery load is over: the device that shows its RESULT. -/
def Device.recoveryIdle (d : Device) (ok : Bool) : Device :=
  (d.wr Reg.RECOVERY_CTRL_BUSY 0 0).setBoot { d.boot with programming := none, recovered := d.boot.lastCause == 0 && ok }

theorem Device.rd_recoveryIdle (d : Device) (ok : Bool) : (d.recoveryIdle ok).rd Reg.RECOVERY_CTRL_BUSY = 0 :=
  d.rd_wr_same Reg.RECOVERY_CTRL_BUSY 0 0

/-- The end of a recovery load shows its RESULT, and no load is under way. -/
theorem Device.recoveryEnd_shows {d : Device} (h : d.boot.waits = []) (ok : Bool) :
    (d.recoveryEnd ok).rd Reg.RECOVERY_CTRL_BUSY = 0 ∧ (d.recoveryEnd ok).boot.programming = none ∧
      (d.recoveryEnd ok).rd Reg.RECOVERY_CTRL_RESULT = if d.boot.lastCause ≠ 0 then 2 else if ok then 1 else 3 := by
  have heq : d.recoveryEnd ok =
      if d.boot.lastCause ≠ 0 then (((d.recoveryIdle ok).setCause d.boot.lastCause 0).wr Reg.RECOVERY_CTRL_RESULT 0 2).endWaits 5 0x102
      else if ok then ((d.recoveryIdle ok).wr Reg.RECOVERY_CTRL_RESULT 0 1).endWaits 5 0
      else ((d.recoveryIdle ok).wr Reg.RECOVERY_CTRL_RESULT 0 3).endWaits 5 0xA := rfl
  rw [heq]
  by_cases hc : d.boot.lastCause ≠ 0
  · have hcause : ((d.recoveryIdle ok).setCause d.boot.lastCause 0).rd Reg.RECOVERY_CTRL_BUSY = 0 := by
      exact ((Device.rd_wr_ne _ Reg.BOOT_STATUS_DETAIL Reg.RECOVERY_CTRL_BUSY 0 0 0 (by decide)).trans
        (Device.rd_wr_ne _ Reg.BOOT_STATUS_CAUSE Reg.RECOVERY_CTRL_BUSY 0 0 _ (by decide))).trans (d.rd_recoveryIdle ok)
    obtain ⟨hbusy, hboot, hresult⟩ := Device.recoveryResult_shows (by exact h) hcause (r := 2) (by decide) 5 0x102
    rw [if_pos hc, if_pos hc]
    exact ⟨hbusy, by rw [hboot]; rfl, hresult⟩
  · rw [if_neg hc, if_neg hc]
    cases ok
    · obtain ⟨hbusy, hboot, hresult⟩ := Device.recoveryResult_shows (d := d.recoveryIdle false) (by exact h) (d.rd_recoveryIdle false) (r := 3) (by decide) 5 0xA
      exact ⟨hbusy, by rw [if_neg (by decide), hboot]; rfl, hresult⟩
    · obtain ⟨hbusy, hboot, hresult⟩ := Device.recoveryResult_shows (d := d.recoveryIdle true) (by exact h) (d.rd_recoveryIdle true) (r := 1) (by decide) 5 0
      exact ⟨hbusy, by rw [if_pos rfl, hboot]; rfl, hresult⟩

/-- One rail's AGEING register as the fuses give it (R468, R470). -/
def Device.ageRail (f : Fuses) (d : Device) (r : Nat) : Device :=
  let t := (f.trim.drop r).headD 0
  let d := d.wr Reg.AGEING_BASELINE_MV r ((f.baseline.drop r).headD 0)
  let d := d.wr Reg.AGEING_HOURS r (200 * f.hours + d.life.age / hourNs)
  (d.wr Reg.AGEING_TRIM_MV r t).wr Reg.AGEING_LIMIT r (b2n (t ≥ 48))

/-- A rail's register shows 200 hours for each counter bit, and what has passed since the last. -/
theorem Device.rd_ageRail_same (f : Fuses) (d : Device) (r : Nat) :
    (d.ageRail f r).rd Reg.AGEING_HOURS r = (200 * f.hours + d.life.age / hourNs) % 2 ^ Reg.AGEING_HOURS.width := by
  have hne : ∀ g : Fld, g.base = Reg.AGEING_HOURS.base → g.stride = Reg.AGEING_HOURS.stride → g.lo ≠ Reg.AGEING_HOURS.lo →
      Reg.AGEING_HOURS.key r ≠ g.key r := by
    intro g hbase hstride hlo
    simp only [Fld.key, hbase, hstride]
    omega
  unfold Device.ageRail
  dsimp only
  rw [Device.rd_wr_ne _ _ _ _ _ _ (hne Reg.AGEING_LIMIT rfl rfl (by decide)), Device.rd_wr_ne _ _ _ _ _ _ (hne Reg.AGEING_TRIM_MV rfl rfl (by decide)),
    Device.rd_wr_same]
  rfl

/-- It leaves the other rails' hours. -/
theorem Device.rd_ageRail_ne (f : Fuses) (d : Device) {r x : Nat} (h : r ≠ x) : (d.ageRail f x).rd Reg.AGEING_HOURS r = d.rd Reg.AGEING_HOURS r := by
  have hne : ∀ g : Fld, g.base = Reg.AGEING_HOURS.base → g.stride = Reg.AGEING_HOURS.stride → g.lo < 64 → Reg.AGEING_HOURS.key r ≠ g.key x := by
    intro g hbase hstride hlo
    simp only [Fld.key, hbase, hstride]
    simp only [Reg.AGEING_HOURS]
    omega
  unfold Device.ageRail
  dsimp only
  rw [Device.rd_wr_ne _ _ _ _ _ _ (hne Reg.AGEING_LIMIT rfl rfl (by decide)), Device.rd_wr_ne _ _ _ _ _ _ (hne Reg.AGEING_TRIM_MV rfl rfl (by decide)),
    Device.rd_wr_ne _ _ _ _ _ _ (hne Reg.AGEING_HOURS rfl rfl (by decide)), Device.rd_wr_ne _ _ _ _ _ _ (hne Reg.AGEING_BASELINE_MV rfl rfl (by decide))]

theorem Device.life_ageRail (f : Fuses) (d : Device) (r : Nat) : (d.ageRail f r).life = d.life := rfl

theorem Device.mem_ageRail (f : Fuses) (d : Device) (r : Nat) : (d.ageRail f r).mem = d.mem := rfl

/-- The registers of the five rails, and the mark of the limit. -/
theorem Device.loadAgeing_eq (d : Device) (f : Fuses) :
    d.loadAgeing f = (((((d.ageRail f 0).ageRail f 1).ageRail f 2).ageRail f 3).ageRail f 4).wr Reg.POWER_STATUS_AGEING_LIMIT 0
      (b2n (f.trim.any (· ≥ 48))) := rfl

/-- The AGEING registers show the hours of the fuses (R468). -/
theorem Device.rd_loadAgeing (d : Device) (f : Fuses) {r : Nat} (hr : r < 5) :
    (d.loadAgeing f).rd Reg.AGEING_HOURS r = (200 * f.hours + d.life.age / hourNs) % 2 ^ Reg.AGEING_HOURS.width := by
  have hlimit : Reg.AGEING_HOURS.key r ≠ Reg.POWER_STATUS_AGEING_LIMIT.key 0 := by
    simp only [Fld.key, Reg.AGEING_HOURS, Reg.POWER_STATUS_AGEING_LIMIT]
    omega
  rw [Device.loadAgeing_eq, Device.rd_wr_ne _ _ _ _ _ _ hlimit]
  interval_cases r
  all_goals simp [Device.rd_ageRail_ne, Device.rd_ageRail_same, Device.life_ageRail]

theorem Device.mem_loadAgeing (d : Device) (f : Fuses) : (d.loadAgeing f).mem = d.mem := by
  simp only [Device.loadAgeing_eq, Device.wr_mem, Device.mem_ageRail]

/-! The commands, where they act -/

theorem exec_recoveryGo {s : State} (hawake : s.dev.awake = true) (hstage : s.dev.stage = 5) (hbusy : s.dev.rd Reg.RECOVERY_CTRL_BUSY = 0) :
    exec .recoveryGo s = .next { s with nv := (s.dev.recoveryStart s.nv (s.dev.rd Reg.RECOVERY_CTRL_LENGTH)).2,
                                        dev := (s.dev.recoveryStart s.nv (s.dev.rd Reg.RECOVERY_CTRL_LENGTH)).1 } := by
  simp [exec, execRecoveryGo, hawake, hstage, hbusy]

theorem exec_recoveryResult {s : State} (ok : Bool) (hawake : s.dev.awake = true) (hstage : s.dev.stage = 5) (hprog : s.dev.boot.programming = some true) :
    exec (.recoveryResult ok) s = .next { s with
      nv := if s.dev.boot.lastCause = 0 && ok then s.nv.program (s.dev.stagedImage s.dev.boot.checking) else s.nv, dev := s.dev.recoveryEnd ok } := by
  simp [exec, execRecoveryResult, hawake, hstage, hprog]

theorem exec_rollbackRaise {s : State} (hlive : s.dev.live = true) (hheader : s.dev.boot.header ≠ []) :
    exec .rollbackRaise s = .next { s with nv := { s.nv with fuses := { s.nv.fuses with
      rollback := Nat.max s.nv.fuses.rollback (Nat.min 128 (imgSvn s.dev.boot.header)),
      revoked := s.nv.fuses.revoked ||| setBit (fieldLe s.dev.boot.header 7 1 % 16) (imgKeyIndex s.dev.boot.header) false } } } := by
  simp [exec, execRollbackRaise, hlive, hheader]

theorem exec_ageingCounter {s : State} (hlive : s.dev.live = true) (hhours : s.nv.fuses.hours < 512) :
    ∃ short, exec .ageingCounter s = .next { s with
      nv := { s.nv with fuses := s.nv.fuses.age }
      dev := Device.loadAgeing { s.dev with life := { s.dev.life with age := 0, short := short } } s.nv.fuses.age } := by
  rw [exec, execAgeingCounter, if_pos (by simp [hlive, hhours])]
  exact ⟨_, rfl⟩

/-- Settles O49: recovery takes, programs and restarts as R480 says, and the fuses rise as R468 and R478 say. -/
theorem recoveryAndFuses : Obligations.RecoveryAndFuses := by
  intro s ok
  dsimp only
  refine ⟨fun hawake hstage hbusy => ?_, fun hawake hstage hprog hwaits => ?_, fun hawake hrec => .of_done (by rw [exec]; rfl) (by simp [hawake, hrec]),
    fun hlive hheader => ?_, fun hlive hhours => ?_⟩
  · refine ⟨_, exec_recoveryGo hawake hstage hbusy, s.dev.rd_wr_same Reg.RECOVERY_CTRL_BUSY 0 1, rfl, rfl, rfl, ?_, rfl⟩
    simp only [Device.recoveryStart]
    split <;> rfl
  · obtain ⟨hidle, hended, hresult⟩ := Device.recoveryEnd_shows hwaits ok
    exact ⟨_, exec_recoveryResult ok hawake hstage hprog, hidle, hended, hresult, by simp⟩
  · exact ⟨_, exec_rollbackRaise hlive hheader, rfl, rfl, rfl, rfl, rfl, rfl⟩
  · obtain ⟨short, hrun⟩ := exec_ageingCounter hlive hhours
    have hage : s.nv.fuses.age.hours = s.nv.fuses.hours + 1 := Nat.min_eq_right (by omega)
    refine ⟨_, hrun, hage, rfl, rfl, Device.mem_loadAgeing .., fun r hr => ?_⟩
    rw [Device.rd_loadAgeing _ _ hr, hage, Nat.zero_div, Nat.add_zero]

end Sys2Proof.Machine

/-! Register writes by BAR and offset (R382 to R385, R391). -/

namespace Sys2Proof.Machine

/-- Whether an offset of BAR0 lies in the function's MSI-X table (R382). -/
def inVectors (fn o : Nat) : Prop := if fn = 0 then 0x10000 ≤ o ∧ o < 0x11000 else 0x8000 ≤ o ∧ o < 0x8E00

/-- Whether a write of RECOVERY_CTRL sets GO (R480). -/
def setsGo (a w v : Nat) : Bool := (a == 0x80008 && w == 8 && v.testBit 32) || (a == 0x8000C && w == 4 && v % 2 == 1)

/-- A register write of a legal width is a write of its BAR. -/
theorem exec_barWrite {w : Nat} (hw : w = 1 ∨ w = 2 ∨ w = 4 ∨ w = 8) (s : State) (fn bar o : Nat) (value : W64) :
    exec (.registerWrite fn (.bar bar o) w value) s = s.barWrite fn bar o w (value.toNat % 2 ^ (8 * w)) := by
  rw [exec, execRegisterWrite, if_pos hw]

/-- A write of BAR0 within the MSI-X table. -/
theorem State.barWrite_vectors (s : State) {fn o : Nat} (w v : Nat) (h : inVectors fn o) :
    s.barWrite fn 0 o w v =
      s.done (if s.dev.regOpen fn && s.dev.stage == 4 && o % w == 0 then
        if w = 4 then s.dev.msixWrite fn (o - if fn = 0 then 0x10000 else 0x8000) (v % 2 ^ 32)
        else if w = 8 then (s.dev.msixWrite fn (o - if fn = 0 then 0x10000 else 0x8000) (v % 2 ^ 32)).msixWrite fn
          (o - (if fn = 0 then 0x10000 else 0x8000) + 4) (v / 2 ^ 32 % 2 ^ 32)
        else s.dev
      else s.dev) := by
  unfold inVectors at h
  by_cases hfn : fn = 0
  · subst hfn
    simp only [if_true] at h
    simp [State.barWrite, h]
  · simp only [hfn, if_false] at h
    simp [State.barWrite, hfn, h]

/-- A write of BAR0 outside the MSI-X table reaches the place of its offset, or none; one that sets GO in RECOVERY starts the load. -/
theorem State.barWrite_registers (s : State) {fn o : Nat} (w v : Nat) (h : ¬ inVectors fn o) :
    s.barWrite fn 0 o w v = match barPlace fn o with
      | none => s.done s.dev
      | some a => match s.writeAt fn a w v with
        | .next t => if setsGo a w v && s.dev.stage == 5 && s.dev.regOpen fn then execRecoveryGo t else .next t
        | r => r := by
  unfold inVectors at h
  by_cases hfn : fn = 0
  · subst hfn
    simp only [if_true, not_and, Nat.not_lt] at h
    have hno : (0x10000 ≤ o && o < 0x10000 + 16 * 256) = false := by simpa using h
    simp only [State.barWrite, if_true, hno, Bool.false_eq_true, if_false]
    rfl
  · simp only [hfn, if_false, not_and, Nat.not_lt] at h
    have hno : (0x8000 ≤ o && o < 0x8000 + 16 * 224) = false := by simpa using h
    simp only [State.barWrite, hfn, if_true, hno, Bool.false_eq_true, if_false]
    rfl

/-- A write of BAR0 that comes to a register ends as the write at its place; where that sets GO in RECOVERY the load starts. -/
theorem State.barWrite_of_placed {s : State} {fn o a w v : Nat} (hplace : barPlace fn o = some a) (hvec : ¬ inVectors fn o)
    (hopen : s.dev.regOpen fn = true) (hdec : s.dev.decodes a = true) {d : Device} (hd : s.dev.placeWrite a w v = some d) :
    s.barWrite fn 0 o w v = if setsGo a w v && s.dev.stage == 5 then execRecoveryGo { s with dev := d } else s.done d := by
  have hwrite : s.writeAt fn a w v = .next { s with dev := d } := by simp [State.writeAt, State.ofWrite, hopen, hdec, hd, State.done]
  simp only [s.barWrite_registers w v hvec, hplace, hwrite, hopen, Bool.and_true]
  rfl

/-- A place that the module's stage does not decode takes no write, and starts no load. -/
theorem State.barWrite_of_closed {s : State} {fn o a : Nat} (w v : Nat) (hplace : barPlace fn o = some a) (hvec : ¬ inVectors fn o)
    (hclosed : s.dev.regOpen fn = false ∨ s.dev.decodes a = false) : s.barWrite fn 0 o w v = s.done s.dev := by
  have hwrite : s.writeAt fn a w v = .next s := by
    rcases hclosed with h | h <;> simp [State.writeAt, h, State.done]
  have hgo : (setsGo a w v && s.dev.stage == 5 && s.dev.regOpen fn) = false := by
    rcases hclosed with h | h
    · simp [h]
    · by_contra hne
      simp only [Bool.not_eq_false, Bool.and_eq_true, beq_iff_eq] at hne
      obtain ⟨⟨hgo, hstage⟩, -⟩ := hne
      have ha : a = 0x80008 ∨ a = 0x8000C := by
        simp only [setsGo, Bool.or_eq_true, Bool.and_eq_true, beq_iff_eq] at hgo
        exact hgo.imp (·.1.1) (·.1.1)
      rcases ha with rfl | rfl <;> simp [Device.decodes, hstage] at h
  simp only [s.barWrite_registers w v hvec, hplace, hwrite, hgo, Bool.false_eq_true, if_false]
  rfl

/-- A write of the doorbell BAR of a function, at its one width and place, is the doorbell (R385). -/
theorem State.barWrite_doorbell {s : State} {fn o : Nat} (v : Nat) (hopen : s.dev.regOpen fn = true) (hstage : s.dev.stage = 4) (hoff : o < 2 ^ 24)
    (hpage : o % 4096 = 0) : s.barWrite fn (if fn = 0 then 4 else 2) o 4 v = execQdbWptr fn (o / 4096) (BitVec.ofNat 32 v) s := by
  have hall : (s.dev.regOpen fn && s.dev.stage == 4 && o < 2 ^ 24 && o % 4096 == 0 && (4 : Nat) == 4) = true := by
    simp only [hopen, hstage, hoff, hpage, beq_self_eq_true, decide_true, Bool.and_self]
  unfold State.barWrite
  dsimp only
  rw [hall]
  by_cases hfn : fn = 0 <;> simp [hfn]

/-- A write of the aperture BAR of a function is a write of its aperture (R386, R387). -/
theorem State.barWrite_aperture (s : State) (fn o w v : Nat) :
    s.barWrite fn (if fn = 0 then 2 else 4) o w v = s.done (s.dev.hostStore fn o (le w v)) := by
  by_cases hfn : fn = 0 <;> simp [State.barWrite, hfn]

/-- Settles O38: a register write is the write that its BAR and offset name, and stops at a reserved bit alone. -/
theorem registerWrites : Obligations.RegisterWrites := by
  intro s fn o a w value g i b
  dsimp only
  intro hw
  have hexec := fun bar => exec_barWrite hw s fn bar o value
  generalize hv : value.toNat % 2 ^ (8 * w) = v at hexec ⊢
  have hlt : v < 2 ^ (8 * w) := hv ▸ Nat.mod_lt _ (Nat.two_pow_pos _)
  refine ⟨fun hplace hvec => ⟨fun hopen hdec => ⟨fun hnone => ?_, fun d hd => ⟨fun hgo => ?_, fun hgo hstage => ?_⟩, fun hfind hbits hreached =>
    ⟨fun hx => ?_, fun hx => ?_⟩⟩, fun hclosed => ?_⟩, fun hplace hvec => ?_, fun hvec hopen hstage halign => ⟨fun hsmall => ?_, fun h4 => ?_, fun h8 => ?_⟩,
    fun hopen hstage hoff hpage h4 => ?_, ?_, fun f => ?_⟩
  · have hwrite : s.writeAt fn a w v = .fault .reservedBitWritten := by simp [State.writeAt, State.ofWrite, hopen, hdec, hnone]
    rw [hexec, s.barWrite_registers w v hvec, hplace]
    simp only [hwrite]
  · refine .of_done ((hexec 0).trans (State.barWrite_of_placed hplace hvec hopen hdec hd) |>.trans (if_neg ?_)) rfl
    simpa [setsGo, and_assoc] using hgo
  · refine (hexec 0).trans (State.barWrite_of_placed hplace hvec hopen hdec hd) |>.trans (if_pos ?_)
    simpa [setsGo, and_assoc, hstage] using hgo
  · rw [s.dev.placeWrite_of_findReg v hfind hbits hreached, if_neg (by simpa using (sub_and_eq_zero_iff _ _).mpr hx)]
  · rw [s.dev.placeWrite_of_findReg v hfind hbits hreached, if_pos (by simpa using mt (sub_and_eq_zero_iff _ _).mp hx)]
  · exact .of_done ((hexec 0).trans (State.barWrite_of_closed w v hplace hvec hclosed)) rfl
  · refine .of_done ((hexec 0).trans ((s.barWrite_registers w v hvec).trans ?_)) rfl
    rw [hplace]
  · refine .of_done ((hexec 0).trans (s.barWrite_vectors w v hvec)) ?_
    rw [if_neg (show ¬ w = 4 by omega), if_neg (show ¬ w = 8 by omega), ite_self]
  · refine .of_done ((hexec 0).trans (s.barWrite_vectors w v hvec)) ?_
    subst h4
    rw [if_pos (by simp [hopen, hstage, halign]), if_pos rfl, Nat.mod_eq_of_lt hlt]
  · refine .of_done ((hexec 0).trans (s.barWrite_vectors w v hvec)) ?_
    subst h8
    rw [if_pos (by simp [hopen, hstage, halign]), if_neg (by decide), if_pos rfl, Nat.mod_eq_of_lt (show v / 2 ^ 32 < 2 ^ 32 by omega)]
  · rw [hexec]
    subst h4
    exact State.barWrite_doorbell v hopen hstage hoff hpage
  · exact .of_done ((hexec _).trans (s.barWrite_aperture fn o w v)) rfl
  · refine ⟨fun hno => .of_done (by rw [exec]; rfl) ?_, fun hreached hretry => .of_done (by rw [exec]; rfl) ?_, fun hreached hno => .of_done (by rw [exec]; rfl) ?_⟩
    · have hclosed : (s.dev.awake && s.dev.pcie.up && s.dev.fnExists fn && !s.dev.life.rindDead) = false :=
        Bool.eq_false_iff.mpr fun hall => hno (by simpa [and_assoc] using hall)
      exact if_pos (by rw [hclosed]; rfl)
    · refine (if_neg ?_).trans (if_pos ?_)
      · simpa [and_assoc] using hreached
      · simpa using hretry
    · refine (if_neg ?_).trans (if_neg ?_)
      · simpa [and_assoc] using hreached
      · simpa using hno

end Sys2Proof.Machine

/-! Remote accesses at their target and their answers, and messages (R268, R270, R276, R350 to R355, Tables 10-8, 14-5). -/

namespace Sys2Proof.Machine

/-! A store at the home -/

/-- What one line's write does to a domain at rest, where memory holds the line. -/
theorem Device.cohWrite1_rests {d : Device} (hr : d.rests) {n : Nat} (hn : d.holds (n * 128)) (agent hoop : Nat) (allocate used : Bool) (len m : Nat)
    (hf : (d.cohWrite1 agent hoop allocate used n len m).life.fatal = false) :
    (d.cohWrite1 agent hoop allocate used n len m).rests ∧ (d.cohWrite1 agent hoop allocate used n len m).mem = d.mem ∧
      ∀ x, (d.cohWrite1 agent hoop allocate used n len m).cxlRoute x = d.cxlRoute x := by
  unfold Device.cohWrite1 at hf ⊢
  have hcalm := d.lineWrite_calm_from agent hoop allocate used n len m
  rw [Device.cxlFailed_of_holds hn] at hcalm
  obtain ⟨hrests, hmem⟩ := hcalm.calm hr
  rw [Device.reportFailed_of_rests hrests] at hf ⊢
  exact ⟨hrests, hmem hf, fun x => hcalm.cxlRoute_eq hf x⟩

/-- The writes of several lines, each of which memory holds. -/
theorem Device.foldl_cohWrite1_rests (agent hoop : Nat) (allocate used : Bool) (len m : Nat → Nat) (l : List Nat) {d : Device} (hr : d.rests)
    (hl : ∀ n ∈ l, d.holds (n * 128)) (hf : (l.foldl (fun d n => d.cohWrite1 agent hoop allocate used n (len n) (m n)) d).life.fatal = false) :
    let e := l.foldl (fun d n => d.cohWrite1 agent hoop allocate used n (len n) (m n)) d
    e.rests ∧ e.mem = d.mem ∧ ∀ x, e.cxlRoute x = d.cxlRoute x := by
  induction l generalizing d with
  | nil => exact ⟨hr, rfl, fun _ => rfl⟩
  | cons n l ih =>
    rw [List.foldl_cons] at hf ⊢
    have hmortal : ∀ e : Device, e.Mortal (l.foldl (fun d n => d.cohWrite1 agent hoop allocate used n (len n) (m n)) e) := fun e =>
      .foldl _ (fun d _ => (d.lineWrite_works ..).mortal.trans (Device.reportFailed_mortal _)) e
    obtain ⟨hrests, hmem, hroute⟩ := d.cohWrite1_rests hr (hl n (List.mem_cons_self ..)) agent hoop allocate used (len n) (m n) ((hmortal _).fatal hf)
    obtain ⟨erests, emem, eroute⟩ := ih hrests (fun x hx => Device.holds_of_route hroute (hl x (List.mem_cons_of_mem _ hx))) hf
    exact ⟨erests, emem.trans hmem, fun x => (eroute x).trans (hroute x)⟩

/-- A line of a range holds a byte of it. -/
theorem exists_of_linesOf {a n l : Nat} (h : l ∈ linesOf a n) : ∃ j < n, (a + j) / 128 = l := by
  obtain ⟨i, hi, rfl⟩ := List.mem_map.mp h
  rw [List.mem_range] at hi
  split at hi
  · omega
  · by_cases h0 : i = 0
    · exact ⟨0, by omega, by omega⟩
    · exact ⟨(i + a / 128) * 128 - a, by omega, by omega⟩

/-- What an agent writes is what memory then holds, also across lines. -/
theorem Device.agentWrite_stored (d : Device) (agent hoop a lane : Nat) (data : Bytes) (allocate used : Bool) (hpos : 0 < data.length) :
    Stored d (d.agentWrite agent hoop a data allocate used) [(lane, a)] data.length (fun _ => data) := by
  intro hrests hhold halive x
  unfold Device.agentWrite at halive ⊢
  have hdev := (d.cohWrite agent hoop a data.length allocate used).writeDev_writes a data
  have hlines : ∀ l ∈ linesOf a data.length, d.holds (l * 128) := by
    intro l hl
    obtain ⟨j, hj, rfl⟩ := exists_of_linesOf hl
    exact fun b hb => hhold (lane, a) (List.mem_singleton_self _) j hj b (by omega)
  obtain ⟨crests, cmem, croute⟩ := Device.foldl_cohWrite1_rests agent hoop allocate used (fun l => inLine a data.length l)
    (fun l => lineMask (Nat.max a (l * 128) - l * 128) (inLine a data.length l)) _ hrests hlines (hdev.mortal.fatal halive)
  obtain ⟨-, hmem, -⟩ := hdev.rests crests halive (fun w hw => by
    obtain rfl := List.mem_singleton.mp hw
    exact Device.holds_of_route croute (hhold (lane, a) (List.mem_singleton_self _) 0 hpos))
  have hcoh : (d.cohWrite agent hoop a data.length allocate used).mem = d.mem := cmem
  rw [hmem, List.foldl_cons, List.foldl_nil, Memory.get_write, hcoh, lastCover_cons]
  split <;> rfl

/-! Packets as they arrive -/

/-- A packet that the chip receives is handled. -/
theorem Device.onPacket_of_receives {d : Device} {p t : Nat} {k : Pkt} (h : d.receives p t k) (f : Device → Device) : d.onPacket p t k f = f d := by
  obtain ⟨hlive, htype, hdst, hp, hup, hok⟩ := h
  have hp8 : p ≠ 8 := Nat.ne_of_lt hp
  simp [Device.onPacket, hlive, htype, hdst, hp8, hup, hok]

/-- A packet that the module sent to itself is handled once. -/
theorem Device.onPacket_loop {d : Device} {k : Pkt} (hlive : d.live = true) (hdst : k.dst = d.ownChip) (hloop : d.klz.loop.contains k = true)
    (f : Device → Device) : d.onPacket 8 k.ptype k f = f (d.setKlz { d.klz with loop := d.klz.loop.erase k }) := by
  simp only [Device.onPacket, hlive, hdst, hloop, Bool.not_true, bne_self_eq_false, Bool.or_self, Bool.false_eq_true, if_false, if_true]

/-! The target of a remote access (Table 10-8) -/

/-- A request for a JOB that no hoop holds is refused (check 4). -/
theorem Device.serve_of_noJob {d : Device} {k : Pkt} (h : d.jobHoop k.job = none) (need n : Nat) (reads : Bool) (f : Device → Nat → Nat → Device) :
    d.serve need n reads k f = d.respond k 0x07 1 [] := by
  simp [Device.serve, h]

section
variable {d : Device} {k : Pkt} {h : Nat} (hjob : d.jobHoop k.job = some h)
include hjob

/-- A request whose window or segment is being replaced is held (R270). -/
theorem Device.serve_of_closed (hclosed : (d.winClosed h k.win || d.segClosed h (d.win h k.win).seg) = true) (need n : Nat) (reads : Bool)
    (f : Device → Nat → Nat → Device) : d.serve need n reads k f = { d with boot := { d.boot with held := d.boot.held ++ [.remote k] } } := by
  simp [Device.serve, hjob, hclosed]

variable {need n : Nat} {d2 : Device} (hclosed : (d.winClosed h k.win || d.segClosed h (d.win h k.win).seg) = false)
include hclosed

/-- A request that fails a check is refused with its RSTATUS. -/
theorem Device.serve_of_error {st : Nat} (hat : d.remoteAt h need n k = (d2, .error st)) (reads : Bool) (f : Device → Nat → Nat → Device) :
    d.serve need n reads k f = d2.refuseFor h k st := by
  simp only [Device.serve, hjob, hclosed, hat, Bool.false_eq_true, if_false]

/-- An admitted request of readable bytes, or one that reads none, is served. -/
theorem Device.serve_of_ok {a : Nat} (hat : d.remoteAt h need n k = (d2, .ok a)) {reads : Bool} (hread : (reads && d2.badAt a n) = false)
    (f : Device → Nat → Nat → Device) : d.serve need n reads k f = f d2 h a := by
  simp only [Device.serve, hjob, hclosed, hat, hread, Bool.false_eq_true, if_false]

/-- A request that would read uncorrectable bytes is refused with RSTATUS 3. -/
theorem Device.serve_of_bad {a : Nat} (hat : d.remoteAt h need n k = (d2, .ok a)) (hbad : d2.badAt a n = true) (f : Device → Nat → Nat → Device) :
    d.serve need n true k f = d2.refuseFor h k 3 := by
  simp only [Device.serve, hjob, hclosed, hat, hbad, Bool.and_self, Bool.false_eq_true, if_false, if_true]

end

/-! Its source -/

/-- An answer ends the open request that its source and TAG name. -/
theorem Device.answered_of_open {d : Device} {k : Pkt} {n : Nat} {r : Remote} (h : d.remoteOf k.src k.tag = some (n, r))
    (hroute : ¬ (k.ptype = 0x07 ∧ k.offset % 256 = 4)) {reqs : List Nat} (hreq : reqs.contains r.pkt.ptype = true) (come : Remote → Except Nat Bytes) :
    d.answered reqs k come = ((d.dropRemote n).countAnswer r k).settleRemote n r (come r) := by
  simp only [Device.answered, if_neg hroute, h, hreq, if_true]

/-- A refusal by a module on the way ends the open request that its TAG names (R357). -/
theorem Device.answered_of_noRoute {d : Device} {k : Pkt} {n : Nat} {r : Remote} (h : d.remoteTag k.tag = some (n, r))
    (hroute : k.ptype = 0x07 ∧ k.offset % 256 = 4) {reqs : List Nat} (hreq : reqs.contains r.pkt.ptype = true) (come : Remote → Except Nat Bytes) :
    d.answered reqs k come = ((d.dropRemote n).countAnswer r k).settleRemote n r (come r) := by
  simp only [Device.answered, if_pos hroute, h, hreq, if_true]

/-- A write that the chip receives carries bytes (Table 14-4). -/
theorem Device.receives_data_pos {d : Device} {p : Nat} {k : Pkt} (h : d.receives p 0x03 k) : 0 < k.data.length := by
  obtain ⟨-, htype, -, -, -, hok⟩ := h
  simp only [pktOk, pktHeadOk, htype, lenOk, Bool.and_eq_true, decide_eq_true_eq] at hok
  exact hok.1.1.2.1

/-- Settles O57: a remote request is served, refused or held by what its checks say, and each answer ends its request. -/
theorem remotePackets : Obligations.RemotePackets := by
  intro p h a n k r d2 s
  dsimp only
  have hreq : r.pkt.ptype = 0x01 ∨ r.pkt.ptype = 0x03 ∨ r.pkt.ptype = 0x05 → [0x01, 0x03, 0x05].contains r.pkt.ptype = true := by
    rintro (h | h | h) <;> rw [h] <;> rfl
  refine ⟨fun hrec hjob hclosed => ⟨fun hat => ⟨fun hgood => .of_done (by rw [exec]; rfl) ?_, fun hbad => .of_done (by rw [exec]; rfl) ?_⟩,
      fun st hat => .of_done (by rw [exec]; rfl) ?_⟩,
    fun hrec hjob hclosed => ⟨fun hat => ⟨.of_done (by rw [exec]; rfl) ?_, d2.agentWrite_stored 4 h a 0 k.data false true (Device.receives_data_pos hrec)⟩,
      fun st hat => .of_done (by rw [exec]; rfl) ?_⟩,
    fun hrec hjob hclosed => ⟨fun hat => ⟨fun hgood => .of_done (by rw [exec]; rfl) ?_, fun hbad => .of_done (by rw [exec]; rfl) ?_⟩,
      fun st hat => .of_done (by rw [exec]; rfl) ?_⟩,
    fun hrec => ?_, fun hof => ⟨fun hrec ht => .of_done (by rw [exec]; rfl) ?_, fun hrec ht => .of_done (by rw [exec]; rfl) ?_,
      fun hrec ht => .of_done (by rw [exec]; rfl) ?_, fun hrec hst ht => .of_done (by rw [exec]; rfl) ?_⟩,
    fun hrec hst htag ht => .of_done (by rw [exec]; rfl) ?_, fun hlive hfind => ⟨fun hk => .of_done (by rw [exec]; rfl) ?_,
      fun hk => .of_done (by rw [exec]; rfl) ?_⟩, fun hlive hdst hloop => ?_⟩
  · rw [Device.onPacket_of_receives hrec, Device.serveRead]
    exact Device.serve_of_ok hjob hclosed hat (by simp [hgood]) _
  · rw [Device.onPacket_of_receives hrec, Device.serveRead]
    exact Device.serve_of_bad hjob hclosed hat hbad _
  · rw [Device.onPacket_of_receives hrec, Device.serveRead]
    exact Device.serve_of_error hjob hclosed hat ..
  · rw [Device.onPacket_of_receives hrec, Device.serveWrite]
    exact Device.serve_of_ok hjob hclosed hat rfl _
  · rw [Device.onPacket_of_receives hrec, Device.serveWrite]
    exact Device.serve_of_error hjob hclosed hat ..
  · rw [Device.onPacket_of_receives hrec, Device.serveAtomic]
    exact Device.serve_of_ok hjob hclosed hat (by simp [hgood]) _
  · rw [Device.onPacket_of_receives hrec, Device.serveAtomic]
    exact Device.serve_of_bad hjob hclosed hat hbad _
  · rw [Device.onPacket_of_receives hrec, Device.serveAtomic]
    exact Device.serve_of_error hjob hclosed hat ..
  · have hserved : ∃ need m reads f, exec (if k.ptype = 0x01 then .rdReq p k else if k.ptype = 0x03 then .wr p k else .atomPacket p k) s
        = s.done (s.dev.serve need m reads k f) := by
      rcases hrec with hrec | hrec | hrec
      · exact ⟨_, _, _, _, by rw [if_pos hrec.2.1, exec, execRdReq, Device.onPacket_of_receives hrec, Device.serveRead]⟩
      · exact ⟨_, _, _, _, by rw [if_neg (by simp [hrec.2.1]), if_pos hrec.2.1, exec, execWr, Device.onPacket_of_receives hrec, Device.serveWrite]⟩
      · exact ⟨_, _, _, _, by
          rw [if_neg (by simp [hrec.2.1]), if_neg (by simp [hrec.2.1]), exec, execAtomPacket, Device.onPacket_of_receives hrec, Device.serveAtomic]⟩
    obtain ⟨need, m, reads, f, hrun⟩ := hserved
    exact ⟨fun hjob => .of_done hrun (Device.serve_of_noJob hjob ..), fun hjob hclosed => .of_done hrun (Device.serve_of_closed hjob hclosed ..)⟩
  · rw [Device.onPacket_of_receives hrec]
    exact Device.answered_of_open hof (by simp [hrec.2.1]) (by rw [ht]; rfl) _
  · rw [Device.onPacket_of_receives hrec]
    exact Device.answered_of_open hof (by simp [hrec.2.1]) (by rw [ht]; rfl) _
  · rw [Device.onPacket_of_receives hrec]
    exact Device.answered_of_open hof (by simp [hrec.2.1]) (by rw [ht]; rfl) _
  · rw [Device.onPacket_of_receives hrec]
    exact Device.answered_of_open hof (by simp [hst]) (hreq ht) _
  · rw [Device.onPacket_of_receives hrec]
    refine (Device.answered_of_noRoute htag ⟨hrec.2.1, hst⟩ (hreq ht) _).trans ?_
    rw [hst]
    rfl
  · simp [hlive, Device.remoteTimeout, hfind, hk]
  · simp [hlive, Device.remoteTimeout, hfind, hk]
  · have hrun := fun f => Device.onPacket_loop hlive hdst hloop f
    refine ⟨fun ht => .of_done (by rw [exec]; rfl) ?_, fun ht => .of_done (by rw [exec]; rfl) ?_, fun ht => .of_done (by rw [exec]; rfl) ?_,
      fun ht => .of_done (by rw [exec]; rfl) ?_, fun ht => .of_done (by rw [exec]; rfl) ?_⟩
    all_goals
      rw [ht] at hrun
      exact hrun _

end Sys2Proof.Machine

/-! Messages at their queue and at their sender (R353 to R355). -/

namespace Sys2Proof.Machine

/-- The queue that a message names: its hoop and the queue's number. -/
def rxKey (k : Pkt) : Nat := k.offset % 8 * 16 + bits k.offset 6 3

theorem rxKey_hoop (k : Pkt) : rxKey k / 16 = k.offset % 8 := by
  have hlt : bits k.offset 6 3 < 16 := Nat.mod_lt _ (by decide)
  unfold rxKey
  omega

/-- The device that checks a message: whether the sender's JOB admits it is free where it is not seen here (log entry 32). -/
def Device.rxChecked (d : Device) (k : Pkt) : Device := if (d.rxq (rxKey k)).accept = 2 then d.step1 else d

/-- Whether a message's queue admits it and its slots hold it. -/
def Device.rxFits (d : Device) (k : Pkt) : Bool :=
  d.rxAdmits (k.offset % 8) (d.rxq (rxKey k)).accept k && Decidable.decide (64 + k.data.length ≤ 2 ^ (d.rxq (rxKey k)).slotLog2)

@[simp] theorem Device.rxq_rxChecked (d : Device) (k : Pkt) (key : Nat) : (d.rxChecked k).rxq key = d.rxq key := by
  unfold Device.rxChecked
  split <;> rfl

/-- A message for a hoop that does not exist, or that is not ACTIVE, is refused. -/
theorem Device.msgArrives_of_idle {d : Device} {k : Pkt} (h : d.hoopState (k.offset % 8) ≠ 1) :
    d.msgArrives k = if d.hoopState (k.offset % 8) = 0 then d.respond k 0x11 2 [] else d.msgAck (k.offset % 8) k 2 := by
  simp only [Device.msgArrives, if_pos h]

/-- A message for an ACTIVE hoop comes to its queue, unless that does not take it. -/
theorem Device.msgArrives_of_active {d : Device} {k : Pkt} (h : d.hoopState (k.offset % 8) = 1) :
    d.msgArrives k = if d.rxFits k then (d.rxChecked k).msgQueue (rxKey k) k else (d.rxChecked k).msgAck (k.offset % 8) k 6 := by
  have hfits : (!d.rxAdmits (k.offset % 8) (d.rxq (rxKey k)).accept k ∨ 2 ^ (d.rxq (rxKey k)).slotLog2 < 64 + k.data.length) ↔ ¬ d.rxFits k = true := by
    simp only [Device.rxFits, Bool.and_eq_true, decide_eq_true_eq, not_and_or, Nat.not_le, Bool.not_eq_true, Bool.not_eq_true']
  unfold Device.msgArrives
  rw [if_neg (not_not.mpr h)]
  by_cases hf : d.rxFits k = true
  · rw [if_pos hf]
    exact if_neg (mt hfits.mp (not_not.mpr hf))
  · rw [if_neg hf]
    exact if_pos (hfits.mpr hf)

/-- A queue that admits no message, or only its own module's, refuses the others. -/
theorem Device.rxFits_of_closed {d : Device} {k : Pkt} (h : (d.rxq (rxKey k)).accept = 0 ∨ ((d.rxq (rxKey k)).accept = 3 ∧ k.src ≠ d.ownChip)) :
    d.rxFits k = false := by
  rcases h with h | ⟨h, hsrc⟩ <;> simp [Device.rxFits, Device.rxAdmits, h]
  simp [hsrc]

/-- A queue with a free slot takes the message. -/
theorem Device.msgQueue_of_free {d : Device} {key : Nat} (h : (d.rxq key).full = false) (k : Pkt) : d.msgQueue key k = d.msgTake key k := by
  simp only [Device.msgQueue, h, Bool.not_false, if_true]

section
variable {d d2 : Device} {key : Nat} (h : (d.rxq key).full = true)
include h

/-- A full queue whose HEAD cannot be read refuses the message. -/
theorem Device.msgQueue_of_headError {st : Nat} (hread : d.readHead key = (d2, .error st)) (k : Pkt) : d.msgQueue key k = d2.msgAck (key / 16) k 5 := by
  simp only [Device.msgQueue, h, hread, Bool.not_true, Bool.false_eq_true, if_false]

/-- While the host is read for HEAD the message is held. -/
theorem Device.msgQueue_of_headOpen (hread : d.readHead key = (d2, .ok none)) (k : Pkt) :
    d.msgQueue key k = d2.setRxq key { d2.rxq key with held := (d2.rxq key).held ++ [(k.tag, k)] } := by
  simp only [Device.msgQueue, h, hread, Bool.not_true, Bool.false_eq_true, if_false]

/-- A full queue goes by the HEAD that it reads. -/
theorem Device.msgQueue_of_head {v : Nat} (hread : d.readHead key = (d2, .ok (some v))) (k : Pkt) :
    d.msgQueue key k =
      let d3 := d2.setRxq key { d2.rxq key with head := v }
      if (d3.rxq key).full then d3.msgAck (key / 16) k 5 else d3.msgTake key k := by
  simp only [Device.msgQueue, h, hread, Bool.not_true, Bool.false_eq_true, if_false]

end

/-- Where the record of a message is written. -/
def RxQueue.place (x : RxQueue) : Nat := x.ring + x.seq % 2 ^ x.countLog2 * 2 ^ x.slotLog2

section
variable {d : Device} {k : Pkt}

/-- A message whose record cannot be written is refused. -/
theorem Device.msgTake_of_noRecord
    (h : d.writeVa (k.offset % 8) (d.rxq (rxKey k)).place (d.rxHeader (k.offset % 8) (d.rxq (rxKey k)).seq k ++ k.data) (who := k.offset % 8) = none) :
    d.msgTake (rxKey k) k = d.msgLost (k.offset % 8) k := by
  unfold RxQueue.place at h
  simp only [Device.msgTake, rxKey_hoop, h]

variable {d2 : Device}
  (hput : d.writeVa (k.offset % 8) (d.rxq (rxKey k)).place (d.rxHeader (k.offset % 8) (d.rxq (rxKey k)).seq k ++ k.data) (who := k.offset % 8) = some d2)
include hput

/-- A message whose TAIL cannot be written is refused. -/
theorem Device.msgTake_of_noTail (h : d2.writeVa (k.offset % 8) (d.rxq (rxKey k)).ctrl (le 4 ((d.rxq (rxKey k)).seq + 1)) (who := k.offset % 8) = none) :
    d.msgTake (rxKey k) k = d2.msgLost (k.offset % 8) k := by
  unfold RxQueue.place at hput
  simp only [Device.msgTake, rxKey_hoop, hput, h]

/-- A message whose record and TAIL are written is acknowledged. -/
theorem Device.msgTake_of_tail {d3 : Device}
    (h : d2.writeVa (k.offset % 8) (d.rxq (rxKey k)).ctrl (le 4 ((d.rxq (rxKey k)).seq + 1)) (who := k.offset % 8) = some d3) :
    d.msgTake (rxKey k) k = (d3.setRxq (rxKey k) { d.rxq (rxKey k) with seq := (d.rxq (rxKey k)).seq + 1 }).msgAck (k.offset % 8) k 0 := by
  unfold RxQueue.place at hput
  simp only [Device.msgTake, rxKey_hoop, hput, h]

end

/-- Settles O58: a message is written, refused or held at its queue, and its acknowledgement ends it or has it sent again. -/
theorem messages : Obligations.Messages := by
  intro p n k r s
  dsimp only
  refine ⟨fun hrec => ?_, fun hrec hof hkind => ?_, fun hlive hfind hresend => ?_⟩
  · have hexec : exec (.msg p k) s = s.done (s.dev.msgArrives k) := by rw [exec, execMsg, Device.onPacket_of_receives hrec]
    refine ⟨fun hactive hfits => ?_, fun hnone => .of_done hexec ?_, fun hidle => .of_done hexec ?_, fun hactive hfits => .of_done hexec ?_,
      fun hclosed => Device.rxFits_of_closed hclosed⟩
    · have hqueue : s.dev.msgArrives k = (s.dev.rxChecked k).msgQueue (rxKey k) k := (Device.msgArrives_of_active hactive).trans (if_pos hfits)
      rw [hqueue] at hexec
      have hq := s.dev.rxq_rxChecked k (rxKey k)
      have hkept : ∀ {b}, (s.dev.rxq (rxKey k)).full = b → ((s.dev.rxChecked k).rxq (rxKey k)).full = b := fun hb => by rw [hq, hb]
      refine ⟨fun hfree => ⟨fun hput => .of_done hexec ?_, fun d2 hput => ⟨fun htail => .of_done hexec ?_, fun d3 htail => .of_done hexec ?_⟩⟩,
        fun hfull => ⟨fun d2 st hread => .of_done hexec ?_, fun d2 hread => .of_done hexec ?_, fun d2 v hread => .of_done hexec ?_⟩⟩
      · rw [Device.msgQueue_of_free (hkept hfree)]
        exact Device.msgTake_of_noRecord (by rw [hq]; exact hput)
      · rw [Device.msgQueue_of_free (hkept hfree)]
        exact Device.msgTake_of_noTail (by rw [hq]; exact hput) (by rw [hq]; exact htail)
      · rw [Device.msgQueue_of_free (hkept hfree)]
        refine (Device.msgTake_of_tail (by rw [hq]; exact hput) (by rw [hq]; exact htail)).trans ?_
        rw [hq]
        rfl
      · exact (Device.msgQueue_of_headError (d := s.dev.rxChecked k) (key := rxKey k) (hkept hfull) hread k).trans (by rw [rxKey_hoop])
      · exact Device.msgQueue_of_headOpen (d := s.dev.rxChecked k) (key := rxKey k) (hkept hfull) hread k
      · refine (Device.msgQueue_of_head (d := s.dev.rxChecked k) (key := rxKey k) (hkept hfull) hread k).trans ?_
        rw [rxKey_hoop]
        rfl
    · rw [Device.msgArrives_of_idle (by simp [hnone]), if_pos hnone]
    · rw [Device.msgArrives_of_idle (by omega), if_neg (by omega)]
    · exact (Device.msgArrives_of_active hactive).trans (if_neg (by rw [Bool.not_eq_true]; exact hfits))
  · have hexec : exec (.msgAck p k) s = s.done (s.dev.msgAcked k) := by rw [exec, execMsgAck, Device.onPacket_of_receives hrec]
    refine ⟨fun hend => .of_done hexec ?_, fun hst hnow => .of_done hexec ?_⟩
    · have hno : ¬ (k.offset % 256 = 5 ∧ s.dev.clock.now < r.sent + 1000000) := by omega
      simp only [Device.msgAcked, hof, hkind, hno, ne_eq, not_true_eq_false, if_false]
    · simp only [Device.msgAcked, hof, hkind, hst, hnow, ne_eq, not_true_eq_false, and_self, if_true, if_false]
  · have hexec : exec (.msgResend n) s = s.done (s.dev.msgResend n) := by rw [exec, execMsgResend, if_pos hlive]
    refine ⟨fun hlate => .of_done hexec ?_, fun hnow => ⟨fun hsend => .of_done hexec ?_, fun d2 hsend => .of_done hexec ?_⟩⟩
    · simp only [Device.msgResend, hfind, hresend, hlate, Bool.not_true, Bool.false_eq_true, if_true, if_false]
    · simp only [Device.msgResend, hfind, hresend, Nat.not_le.mpr hnow, hsend, Bool.not_true, Bool.false_eq_true, if_false]
    · simp only [Device.msgResend, hfind, hresend, Nat.not_le.mpr hnow, hsend, Bool.not_true, Bool.false_eq_true, if_false]

end Sys2Proof.Machine

/-! Flits and packets as bytes, and flits at their port (R345 to R348, R356, R357, Tables 14-1, 14-3). -/

namespace Sys2Proof.Machine

/-! Fields of byte strings -/

theorem be_length (n v : Nat) : (be n v).length = n := by rw [be, List.length_reverse, le_length]

theorem ofBe_be (n v : Nat) : ofBe (be n v) = v % 256 ^ n := by
  rw [ofBe, be, List.reverse_reverse, Tests.ofLe_le]

/-- A slice that lies behind other bytes. -/
theorem slice_append_of_length_le {a b : Bytes} {o : Nat} (h : a.length ≤ o) (n : Nat) : slice (a ++ b) o n = slice b (o - a.length) n := by
  unfold slice
  rw [List.drop_append, List.drop_eq_nil_of_le h, List.nil_append]

/-- A slice at the beginning. -/
theorem slice_append_left {a b : Bytes} {n : Nat} (h : a.length = n) : slice (a ++ b) 0 n = a := by
  unfold slice
  rw [List.drop_zero, List.take_append_of_le_length (by omega), ← h, List.take_length]
  simp

theorem slice_self {a : Bytes} {n : Nat} (h : a.length = n) : slice a 0 n = a := by
  have := slice_append_left (b := []) h
  rwa [List.append_nil] at this

/-! Packets -/

/-- The number that a packet's header spells (Table 14-3). -/
theorem ofBe_pktHeader (k : Pkt) (hdst : k.dst < 4096) (hsrc : k.src < 4096) (htype : k.ptype < 64) (hlen : k.data.length < 8192)
    (htag : k.tag < 65536) (hjob : k.job < 65536) (hwin : k.win < 16) (hoff : k.offset < 2 ^ 48) :
    ofBe (pktHeader k) = k.dst * 2 ^ 116 + k.src * 2 ^ 104 + k.ptype * 2 ^ 98 + k.data.length * 2 ^ 85 + b2n k.rsvd * 2 ^ 84 + k.tag * 2 ^ 68
      + k.job * 2 ^ 52 + k.win * 2 ^ 48 + k.offset := by
  have hbit : b2n k.rsvd < 2 := by cases k.rsvd <;> decide
  rw [pktHeader, ofBe_be, Nat.mod_eq_of_lt hdst, Nat.mod_eq_of_lt hsrc, Nat.mod_eq_of_lt htype, Nat.mod_eq_of_lt hlen, Nat.mod_eq_of_lt htag,
    Nat.mod_eq_of_lt hjob, Nat.mod_eq_of_lt hwin, Nat.mod_eq_of_lt hoff]
  exact Nat.mod_eq_of_lt (by omega)

/-- A packet's header and data spell the packet. -/
theorem pktOf_pktHeader (k : Pkt) (hdst : k.dst < 4096) (hsrc : k.src < 4096) (htype : k.ptype < 64) (hlen : k.data.length < 8192)
    (htag : k.tag < 65536) (hjob : k.job < 65536) (hwin : k.win < 16) (hoff : k.offset < 2 ^ 48) :
    pktOf (pktHeader k) k.data = k ∧ pktLen (pktHeader k) = k.data.length := by
  have hbit : b2n k.rsvd < 2 := by cases k.rsvd <;> decide
  have hrsvd : ∀ v : Nat, v / 2 ^ 84 % 2 = b2n k.rsvd → v.testBit 84 = k.rsvd := by
    intro v hv
    rw [Nat.testBit_eq_decide_div_mod_eq, hv]
    cases k.rsvd <;> rfl
  have hspell := ofBe_pktHeader k hdst hsrc htype hlen htag hjob hwin hoff
  obtain ⟨dst, src, ptype, rsvd, tag, job, win, offset, data⟩ := k
  dsimp only at hdst hsrc htype hlen htag hjob hwin hoff hbit hrsvd hspell
  simp only [pktOf, pktLen, hspell, Pkt.mk.injEq, and_true, bits]
  refine ⟨⟨?_, ?_, ?_, hrsvd _ ?_, ?_, ?_, ?_, ?_⟩, ?_⟩ <;> omega

/-! Flits -/

/-- A big-endian field behind other bytes reads as the number that was put there. -/
theorem fieldBe_append {a : Bytes} {o : Nat} (h : a.length = o) (n v : Nat) (c : Bytes) : fieldBe (a ++ (be n v ++ c)) o n = v % 256 ^ n := by
  rw [fieldBe, slice_append_of_length_le (by omega), h, Nat.sub_self, slice_append_left (be_length n v), ofBe_be]

/-- A CRC has 32 bits. -/
theorem crc32_lt (b : Bytes) : crc32 b < 2 ^ 32 := by
  have hbit : ∀ c v, crcBit c v < 2 ^ 32 := by
    intro c v
    unfold crcBit
    split
    · exact Nat.xor_lt_two_pow (Nat.mod_lt _ (by decide)) (by decide)
    · exact Nat.mod_lt _ (by decide)
  refine Nat.xor_lt_two_pow ?_ (by decide)
  refine List.foldlRecOn (motive := fun c : Nat => c < 2 ^ 32) b _ (by decide) fun c hc x _ => ?_
  exact List.foldlRecOn (motive := fun c : Nat => c < 2 ^ 32) (List.range 8) _ hc fun c _ i _ => hbit _ _

section
variable {f : Flit} (hpay : f.payload.length = 242)
include hpay

theorem Flit.head_length : f.head.length = 252 := by
  simp [Flit.head, be_length, slice_self hpay, hpay]

/-- The bytes of a flit, field by field (Table 14-1). -/
theorem Flit.bytes_eq : f.bytes =
    be 1 (f.ftype % 4 + f.vc % 4 * 4 + f.cls % 4 * 16) ++ (be 1 f.pstart ++ (be 2 (f.seq % 4096) ++ (be 2 (f.ack % 4096 + b2n f.nak * 4096)
      ++ (f.payload ++ (be 4 (f.cvc % 4 + f.ccls % 4 * 4 + f.ccount % 64 * 16) ++ be 4 (crc32 f.head)))))) := by
  rw [Flit.bytes]
  generalize crc32 f.head = crc
  rw [Flit.head, slice_self hpay]
  simp only [List.append_assoc]

/-- The CRC of a flit covers its other bytes. -/
theorem flitGood_bytes : flitGood f.bytes = true := by
  have hcrc : fieldBe f.bytes 252 4 = crc32 f.head % 256 ^ 4 := by
    have := fieldBe_append (Flit.head_length hpay) 4 (crc32 f.head) []
    rwa [List.append_nil] at this
  have hhead : slice f.bytes 0 252 = f.head := slice_append_left (Flit.head_length hpay)
  rw [flitGood, hcrc, hhead, Nat.mod_eq_of_lt (show crc32 f.head < 256 ^ 4 from crc32_lt _)]
  exact beq_self_eq_true _

/-- What the fields of a flit's bytes read as. -/
theorem Flit.fields_bytes :
    fieldBe f.bytes 0 1 = (f.ftype % 4 + f.vc % 4 * 4 + f.cls % 4 * 16) % 256 ^ 1 ∧ fieldBe f.bytes 1 1 = f.pstart % 256 ^ 1 ∧
      fieldBe f.bytes 2 2 = (f.seq % 4096) % 256 ^ 2 ∧ fieldBe f.bytes 4 2 = (f.ack % 4096 + b2n f.nak * 4096) % 256 ^ 2 ∧
      slice f.bytes 6 242 = f.payload ∧ fieldBe f.bytes 248 4 = (f.cvc % 4 + f.ccls % 4 * 4 + f.ccount % 64 * 16) % 256 ^ 4 := by
  rw [Flit.bytes_eq hpay]
  generalize be 4 (crc32 f.head) = crc
  refine ⟨fieldBe_append (a := []) rfl 1 _ _, fieldBe_append (be_length 1 _) 1 _ _, ?_, ?_, ?_, ?_⟩
  · rw [← List.append_assoc]
    exact fieldBe_append (by simp [be_length]) 2 _ _
  · rw [← List.append_assoc, ← List.append_assoc]
    exact fieldBe_append (by simp [be_length]) 2 _ _
  · rw [← List.append_assoc, ← List.append_assoc, ← List.append_assoc, slice_append_of_length_le (by simp [be_length])]
    simp only [List.length_append, be_length]
    exact slice_append_left hpay
  · rw [← List.append_assoc, ← List.append_assoc, ← List.append_assoc, ← List.append_assoc]
    exact fieldBe_append (by simp [be_length, hpay]) 4 _ _

/-- A flit's bytes spell its fields. -/
theorem flitOf_bytes (htype : f.ftype < 4) (hvc : f.vc < 4) (hcls : f.cls < 4) (hpstart : f.pstart < 256) (hseq : f.seq < 4096) (hack : f.ack < 4096)
    (hcvc : f.cvc < 4) (hccls : f.ccls < 4) (hccount : f.ccount < 64) : flitOf f.bytes = f := by
  obtain ⟨h0, h1, h2, h4, h6, h248⟩ := Flit.fields_bytes hpay
  have hbit : b2n f.nak < 2 := by cases f.nak <;> decide
  have hnak : ∀ v : Nat, v / 2 ^ 12 % 2 = b2n f.nak → v.testBit 12 = f.nak := by
    intro v hv
    rw [Nat.testBit_eq_decide_div_mod_eq, hv]
    cases f.nak <;> rfl
  rw [flitOf, h0, h1, h2, h4, h6, h248]
  obtain ⟨ftype, vc, cls, pstart, seq, ack, nak, payload, cvc, ccls, ccount⟩ := f
  dsimp only at htype hvc hcls hpstart hseq hack hcvc hccls hccount hbit hnak ⊢
  simp only [Flit.mk.injEq, bits, true_and]
  refine ⟨?_, ?_, ?_, ?_, ?_, ?_, hnak _ ?_, ?_, ?_, ?_⟩ <;> omega

end

/-! Flits at their port -/

/-- Settles O56: a flit is taken, discarded or asked for again by what FEC, CRC and SEQ say, and a packet for another chip goes on. -/
theorem flitsAndForwarding : Obligations.FlitsAndForwarding := by
  refine ⟨fun f htype hvc hcls hpstart hseq hack hpay hcvc hccls hccount => ⟨?_, flitOf_bytes hpay htype hvc hcls hpstart hseq hack hcvc hccls hccount,
    flitGood_bytes hpay⟩, pktOf_pktHeader, ?_⟩
  · rw [Flit.bytes, List.length_append, Flit.head_length hpay, be_length]
  · intro p cls fec b k s
    dsimp only
    intro hlive hup
    have hreceive : exec (.flitReceive p { fec := fec, bytes := b }) s =
        s.done ((s.dev.fecSeen p fec).flitIn p (fec.good && flitGood b) (flitOf b)) := by
      rw [exec, execFlitReceive, if_pos (by simp [hlive, hup])]
    have habort : (flitOf b).ftype = 2 → exec (.abortFlit p { fec := fec, bytes := b }) s =
        s.done ((s.dev.fecSeen p fec).flitIn p (fec.good && flitGood b) (flitOf b)) := by
      intro htype
      rw [exec, execAbortFlit, if_pos (by simp [hlive, hup, htype])]
    refine ⟨fun hdown => .of_done hreceive ?_, fun heup => ⟨fun hbad => ?_, fun hgood ht => .of_done hreceive ?_, fun hgood ht => .of_done hreceive ?_,
      fun hgood ht hseq => .of_done hreceive ?_, fun hgood hseq => ⟨fun ht => .of_done hreceive ?_, fun ht => .of_done (habort ht) ?_⟩⟩,
      fun hcls hdst => ⟨fun hok => ?_, fun hok => ⟨fun q hroute => ?_, fun hroute ht => ?_, fun hroute ht => ?_⟩⟩⟩
    · simp [Device.flitIn, hdown]
    · have hnak : (s.dev.fecSeen p fec).flitIn p (fec.good && flitGood b) (flitOf b) = (s.dev.fecSeen p fec).nak p := by
        simp [Device.flitIn, heup, hbad]
      exact ⟨.of_done hreceive hnak, fun ht => .of_done (habort ht) hnak⟩
    · simp [Device.flitIn, heup, hgood, ht]
    · simp [Device.flitIn, heup, hgood, ht]
    · rcases ht with ht | ht <;> simp [Device.flitIn, heup, hgood, ht, hseq]
    · by_cases hstill : ((s.dev.fecSeen p fec).flitControl p (flitOf b)).portUp p = true <;> simp [Device.flitIn, heup, hgood, ht, hseq, hstill]
    · by_cases hstill : ((s.dev.fecSeen p fec).flitControl p (flitOf b)).portUp p = true <;> simp [Device.flitIn, heup, hgood, ht, hseq, hstill]
    · have hp : p < 8 := by
        simp only [Device.portUp, Bool.and_eq_true, decide_eq_true_eq] at hup
        exact hup.1
      exact .of_done (by rw [exec]; rfl) (by simp [hlive, hup, Nat.not_lt.mpr hcls, hdst, hok, Device.discardPkt, hp])
    · exact .of_done (by rw [exec]; rfl) (by simp [hlive, hup, Nat.not_lt.mpr hcls, hdst, hok, Device.forward, hroute])
    · exact .of_done (by rw [exec]; rfl) (by simp [hlive, hup, Nat.not_lt.mpr hcls, hdst, hok, Device.forward, hroute, ht])
    · exact .of_done (by rw [exec]; rfl) (by simp [hlive, hup, Nat.not_lt.mpr hcls, hdst, hok, Device.forward, hroute, ht])

end Sys2Proof.Machine

/-! Power-up, reset and start-up (R344, R414, R467, R471 to R474, R481, R491 to R493). -/

namespace Sys2Proof.Machine

/-! Registers written one after the other -/

/-- Steps that each write one field at one place leave the places that none of them names. -/
theorem Device.rd_foldl_of_notMem {f : Fld} {step : Device → Nat → Device} (hne : ∀ d i j, i ≠ j → (step d j).rd f i = d.rd f i) {i : Nat} (l : List Nat)
    (hi : i ∉ l) (d : Device) : (l.foldl step d).rd f i = d.rd f i :=
  List.foldlRecOn (motive := fun e : Device => e.rd f i = d.rd f i) l _ rfl fun e he x hx => (hne e i x fun h => hi (h ▸ hx)).trans he

/-- Steps that each give one field a value at one place give it to every place that they name. -/
theorem Device.rd_foldl_of_mem {f : Fld} {step : Device → Nat → Device} {v : Nat} (hsame : ∀ d i, (step d i).rd f i = v)
    (hne : ∀ d i j, i ≠ j → (step d j).rd f i = d.rd f i) {i : Nat} {l : List Nat} (hi : i ∈ l) (d : Device) : (l.foldl step d).rd f i = v := by
  induction l generalizing d with
  | nil => cases hi
  | cons x l ih =>
    rw [List.foldl_cons]
    by_cases hl : i ∈ l
    · exact ih hl _
    · rw [Device.rd_foldl_of_notMem hne l hl]
      rcases List.mem_cons.mp hi with rfl | hi
      · exact hsame d i
      · exact absurd hi hl

/-! The end of start-up -/

theorem Device.stage_endStartup (d : Device) (n : Nat) : (d.endStartup n).stage = n % 16 := by
  show ((d.wr Reg.BOOT_STATUS_STAGE 0 n).wr Reg.BOOT_STATUS_BOOT_MS 0 _).rd Reg.BOOT_STATUS_STAGE = _
  rw [Device.rd_wr_ne _ _ _ _ _ _ (by decide), Device.rd_wr_same]
  rfl

theorem Device.rd_endStartup (d : Device) (n : Nat) (f : Fld) (i : Nat) (hstage : f.key i ≠ Reg.BOOT_STATUS_STAGE.key 0)
    (hms : f.key i ≠ Reg.BOOT_STATUS_BOOT_MS.key 0) : (d.endStartup n).rd f i = d.rd f i := by
  show ((d.wr Reg.BOOT_STATUS_STAGE 0 n).wr Reg.BOOT_STATUS_BOOT_MS 0 _).rd f i = _
  rw [Device.rd_wr_ne _ _ _ _ _ _ hms, Device.rd_wr_ne _ _ _ _ _ _ hstage]

/-- Start-up that ends with a CAUSE shows it. -/
theorem Device.cause_endStartup (d : Device) (c x n : Nat) : ((d.setCause c x).endStartup n).rd Reg.BOOT_STATUS_CAUSE = c % 256 := by
  rw [Device.rd_endStartup _ _ _ _ (by decide) (by decide)]
  show ((d.wr Reg.BOOT_STATUS_CAUSE 0 c).wr Reg.BOOT_STATUS_DETAIL 0 x).rd Reg.BOOT_STATUS_CAUSE = _
  rw [Device.rd_wr_ne _ _ _ _ _ _ (by decide), Device.rd_wr_same]
  rfl

/-- The checks of an image have the CAUSEs 0 to 6 (Table 19-3). -/
theorem imageCause_le (f : Fuses) (b : Bytes) : imageCause f b ≤ 6 := by
  unfold imageCause
  dsimp only
  repeat' split
  all_goals decide

/-! READY -/

/-- Every Klozar port trains from its preset. -/
def Device.portsTrain (d : Device) : Device := (List.range 8).foldl (fun d p => (d.presetEq p).wr Reg.KLZ_PORT_STATUS_STATE p 1) d

theorem Device.portState_portsTrain (d : Device) {p : Nat} (hp : p < 8) : d.portsTrain.portState p = 1 := by
  refine Device.rd_foldl_of_mem (f := Reg.KLZ_PORT_STATUS_STATE) (fun d i => Device.rd_wr_same ..) (fun d i j hij => ?_) (List.mem_range.mpr hp) d
  refine (Device.rd_wr_ne _ _ _ _ _ _ ?_).trans rfl
  simp only [Fld.key, Reg.KLZ_PORT_STATUS_STATE]
  omega

theorem Device.rd_portsTrain (d : Device) (f : Fld) (i : Nat) (hf : ∀ p < 8, f.key i ≠ Reg.KLZ_PORT_STATUS_STATE.key p) : d.portsTrain.rd f i = d.rd f i :=
  List.foldlRecOn (motive := fun e : Device => e.rd f i = d.rd f i) (List.range 8) _ rfl fun _ he p hp =>
    (Device.rd_wr_ne _ _ _ _ _ _ (hf p (List.mem_range.mp hp))).trans he

theorem Device.portsTrain_same (d : Device) : d.portsTrain.mem = d.mem ∧ d.portsTrain.boot = d.boot :=
  List.foldlRecOn (motive := fun e : Device => e.mem = d.mem ∧ e.boot = d.boot) (List.range 8) _ ⟨rfl, rfl⟩ fun _ he _ _ => he

/-- Memory and header of a module that becomes READY. -/
def Device.readyMem (d : Device) (f : Fuses) (flash : Flash) : Device :=
  let d := { d with mem := Memory.zeroed
                    cores := (List.range 256).map (fun k => (k, { gen := l1Seed (Tab.get 0 f.serials (k / 64)) (k % 64) : Core })) }
  d.setBoot { d.boot with header := slice flash.image 0 4096 }

/-- The role of a module that becomes READY: a manager knows its board. -/
def Device.takeRole (d : Device) : Device :=
  let mgr := d.pins.straps.mgrEn
  let d := d.wr Reg.KLZ_ID_ROLE 0 (if mgr then 2 else 1)
  if mgr then d.setKlz { d.klz with boardUp := some d.ownChip, faultMap := [(d.rd Reg.KLZ_ID_SLOT, List.replicate 8 1)] } else d

/-- What a module that becomes READY has before its ports train. -/
def Device.readyCore (d : Device) (f : Fuses) (flash : Flash) : Device :=
  let e := (d.readyMem f flash).deriveAlias.setHstat 0 (d.readyMem f flash).newHstat
  e.takeRole.loadPresets flash

/-- READY with the operating point OP8 (Table 19-7). -/
def Device.readyEnd (d : Device) : Device :=
  let d := (d.wr Reg.POWER_STATUS_POINT 0 8).setPower { goal := 8 }
  (d.wr Reg.POWER_STATUS_CEILING 0 (d.rd Reg.POWER_STATUS_OP_MAX)).endStartup 4

theorem Device.becomeReady_eq (d : Device) (f : Fuses) (flash : Flash) : d.becomeReady f flash = (d.readyCore f flash).portsTrain.readyEnd := rfl

theorem Device.point_readyEnd (d : Device) : d.readyEnd.point = 8 := by
  unfold Device.readyEnd Device.point
  rw [Device.rd_endStartup _ _ _ _ (by decide) (by decide), Device.rd_wr_ne _ _ _ _ _ _ (by decide)]
  exact d.rd_wr_same Reg.POWER_STATUS_POINT 0 8

/-- A field below the power registers is as it was. -/
theorem Device.rd_readyEnd (d : Device) (f : Fld) (i : Nat) (hf : f.key i < 0x70000 * 1024) : d.readyEnd.rd f i = d.rd f i := by
  have hne : ∀ g : Fld, 0x70000 * 1024 ≤ g.key 0 → f.key i ≠ g.key 0 := fun g hg => by omega
  unfold Device.readyEnd
  rw [Device.rd_endStartup _ _ _ _ (hne Reg.BOOT_STATUS_STAGE (by decide)) (hne Reg.BOOT_STATUS_BOOT_MS (by decide)),
    Device.rd_wr_ne _ _ _ _ _ _ (hne Reg.POWER_STATUS_CEILING (by decide))]
  show (d.wr Reg.POWER_STATUS_POINT 0 8).rd f i = _
  exact d.rd_wr_ne _ _ _ _ _ (hne Reg.POWER_STATUS_POINT (by decide))

theorem Device.readyEnd_same (d : Device) : d.readyEnd.mem = d.mem ∧ d.readyEnd.boot = { d.boot with starting := false } ∧ d.readyEnd.stage = 4 :=
  ⟨rfl, rfl, Device.stage_endStartup _ 4⟩

/-- Taking a role changes neither memory nor what start-up derives. -/
theorem Device.takeRole_same (d : Device) : d.takeRole.mem = d.mem ∧ d.takeRole.boot = d.boot ∧
    d.takeRole.role = (if d.pins.straps.mgrEn then 2 else 1) := by
  unfold Device.takeRole
  cases hmgr : d.pins.straps.mgrEn
  · exact ⟨rfl, rfl, d.rd_wr_same Reg.KLZ_ID_ROLE 0 1⟩
  · exact ⟨rfl, rfl, d.rd_wr_same Reg.KLZ_ID_ROLE 0 2⟩

/-- The certification that a module has once its device key has been derived (R481). -/
theorem Device.deriveAlias_of_derived {d : Device} {x k : BitVec 384} (hsecret : d.boot.engine.secret = some x) (hdevice : d.boot.engine.device = some k) :
    ∃ (a : BitVec 384) (pub cert : Bytes), d.deriveAlias = d.setBoot { d.boot with
      engine := { d.boot.engine with secret := none, device := none, alias_ := some a, aliasPub := pub }
      certs := d.boot.certs ++ [cert] } := by
  rw [Device.deriveAlias, hsecret, hdevice]
  exact ⟨_, _, _, rfl⟩

/-- What a module that becomes READY has before its ports train. -/
theorem Device.readyCore_spec {d : Device} {x k : BitVec 384} (hsecret : d.boot.engine.secret = some x) (hdevice : d.boot.engine.device = some k)
    (f : Fuses) (flash : Flash) :
    let e := d.readyCore f flash
    e.mem = Memory.zeroed ∧ e.role = (if d.pins.straps.mgrEn then 2 else 1) ∧ e.boot.engine.secret = none ∧ e.boot.engine.device = none ∧
      e.boot.engine.alias_.isSome = true ∧ e.boot.certs.length = d.boot.certs.length + 1 ∧ e.boot.header = slice flash.image 0 4096 := by
  obtain ⟨a, pub, cert, halias⟩ := Device.deriveAlias_of_derived (d := d.readyMem f flash) hsecret hdevice
  obtain ⟨hmem, hboot, hrole⟩ := ((d.readyMem f flash).deriveAlias.setHstat 0 (d.readyMem f flash).newHstat).takeRole_same
  rw [halias] at hmem hboot hrole
  have hcore : (d.readyCore f flash).mem = ((d.readyMem f flash).deriveAlias.setHstat 0 (d.readyMem f flash).newHstat).takeRole.mem := rfl
  have hcoreBoot : (d.readyCore f flash).boot = ((d.readyMem f flash).deriveAlias.setHstat 0 (d.readyMem f flash).newHstat).takeRole.boot := rfl
  have hcoreRole : (d.readyCore f flash).role = ((d.readyMem f flash).deriveAlias.setHstat 0 (d.readyMem f flash).newHstat).takeRole.role := rfl
  dsimp only
  rw [hcore, hcoreBoot, hcoreRole, halias, hmem, hboot, hrole]
  exact ⟨rfl, rfl, rfl, rfl, rfl, List.length_append, rfl⟩

/-- A module that becomes READY (R472, R473, R481). -/
theorem Device.becomeReady_spec {d : Device} {x k : BitVec 384} (hsecret : d.boot.engine.secret = some x) (hdevice : d.boot.engine.device = some k)
    (f : Fuses) (flash : Flash) :
    let e := d.becomeReady f flash
    e.stage = 4 ∧ e.mem = Memory.zeroed ∧ e.boot.engine.secret = none ∧ e.boot.engine.device = none ∧ e.boot.engine.alias_.isSome = true ∧
      e.boot.certs.length = d.boot.certs.length + 1 ∧ e.boot.header = slice flash.image 0 4096 ∧ e.role = (if d.pins.straps.mgrEn then 2 else 1) ∧
      e.point = 8 ∧ (∀ p < 8, e.portState p = 1) ∧ e.boot.starting = false := by
  obtain ⟨hmem, hrole, hsec, hdev, halias, hcerts, hheader⟩ := Device.readyCore_spec hsecret hdevice f flash
  obtain ⟨htrainMem, htrainBoot⟩ := (d.readyCore f flash).portsTrain_same
  rw [d.becomeReady_eq f flash]
  generalize d.readyCore f flash = core at *
  obtain ⟨hendMem, hboot, hstage⟩ := core.portsTrain.readyEnd_same
  have hrole' : core.portsTrain.readyEnd.role = core.role := by
    refine (core.portsTrain.rd_readyEnd Reg.KLZ_ID_ROLE 0 (by decide)).trans (core.rd_portsTrain Reg.KLZ_ID_ROLE 0 fun p hp => ?_)
    simp only [Fld.key, Reg.KLZ_ID_ROLE, Reg.KLZ_PORT_STATUS_STATE]
    omega
  have hports : ∀ p < 8, core.portsTrain.readyEnd.portState p = 1 := fun p hp => by
    refine (core.portsTrain.rd_readyEnd Reg.KLZ_PORT_STATUS_STATE p ?_).trans (core.portState_portsTrain hp)
    simp only [Fld.key, Reg.KLZ_PORT_STATUS_STATE]
    omega
  dsimp only
  rw [hboot, hendMem, htrainBoot, htrainMem]
  exact ⟨hstage, hmem, hsec, hdev, halias, hcerts, hheader, hrole'.trans hrole, Device.point_readyEnd _, hports, rfl⟩

/-! What comes before -/

/-- A device that differs from another in its registers alone. -/
structure Device.RegsOf (d e : Device) : Prop where
  eq : ∃ r, e = { d with regs := r }

namespace Device.RegsOf

theorem refl (d : Device) : d.RegsOf d := ⟨d.regs, rfl⟩

theorem trans {d e f : Device} (h : d.RegsOf e) (g : e.RegsOf f) : d.RegsOf f := by
  obtain ⟨r, rfl⟩ := h.eq
  obtain ⟨r', rfl⟩ := g.eq
  exact ⟨r', rfl⟩

theorem wr (d : Device) (f : Fld) (i v : Nat) : d.RegsOf (d.wr f i v) := ⟨_, rfl⟩

theorem foldl {α : Type} {step : Device → α → Device} (hstep : ∀ d x, Device.RegsOf d (step d x)) (l : List α) (d : Device) : d.RegsOf (l.foldl step d) :=
  List.foldlRecOn (motive := fun e => d.RegsOf e) l _ (.refl d) fun e he x _ => he.trans (hstep e x)

end Device.RegsOf

/-- What the fuses say of ageing and repair is put in registers alone. -/
theorem Device.loadAgeing_regs (d : Device) (f : Fuses) : d.RegsOf (d.loadAgeing f) := by
  refine Device.RegsOf.trans (.foldl (fun d r => ?_) _ d) (.wr ..)
  exact (((Device.RegsOf.wr d _ _ _).trans (.wr ..)).trans (.wr ..)).trans (.wr ..)

theorem Device.loadRepair_regs (d : Device) (f : Fuses) : d.RegsOf (d.loadRepair f) := by
  refine Device.RegsOf.trans (.foldl (fun d x => ?_) f.off d) (.foldl (fun d x => ?_) f.spare _)
  · exact ((Device.RegsOf.wr d _ _ _).trans (.wr ..)).trans (.foldl (fun d c => .wr ..) _ _)
  · exact ((((Device.RegsOf.wr d _ _ _).trans (.wr ..)).trans (.wr ..)).trans (.wr ..)).trans ((Device.RegsOf.wr _ _ _ _).trans (.wr ..))

/-- Start-up before it is decided how it ends: the fuses are in the registers, and the device key is derived. -/
theorem Device.startup_eq (d : Device) (nv : NonVol) (fault : Option (Nat × Nat)) : ∃ r,
    let e := ({ d with regs := r } : Device).deriveDevice nv
    d.startup nv fault =
      match (match d.life.failed with | some x => some x | none => fault) with
      | some x => if 0x13 ≤ x.1 ∨ imageCause nv.fuses nv.flash.image = 0 then e.failStartup x
          else (e.setCause (imageCause nv.fuses nv.flash.image) 0).endStartup 5
      | none => if imageCause nv.fuses nv.flash.image = 0 then e.becomeReady nv.fuses nv.flash
          else (e.setCause (imageCause nv.fuses nv.flash.image) 0).endStartup 5 := by
  obtain ⟨r, hr⟩ := ((d.loadAgeing_regs nv.fuses).trans (Device.loadRepair_regs _ nv.fuses)).eq
  refine ⟨r, ?_⟩
  unfold Device.startup
  rw [hr]
  rfl

/-! The straps -/

/-- What the module shows once its straps are sampled (R344). -/
theorem Device.sampleStraps_spec (d : Device) (s : Straps) :
    let e := (d.sampleStraps s).partRegs
    e.life = d.life ∧ e.pins = { d.pins with straps := s } ∧ e.mem = d.mem ∧ e.clock = d.clock ∧ e.stage = d.stage ∧
      e.rd Reg.KLZ_ID_CHIP = (s.board.toNat * 8 + s.slot.toNat) % 2 ^ Reg.KLZ_ID_CHIP.width := by
  have hroute : ∀ f : Fld, f.key 0 < 0x48000 * 1024 ∨ 0x80000 * 1024 ≤ f.key 0 → f.key 0 ≠ Reg.KLZ_RT_PRIMARY.key (s.board.toNat * 8 + s.slot.toNat) := by
    intro f hf
    have hboard := s.board.isLt
    have hslot := s.slot.isLt
    simp only [Fld.key, Reg.KLZ_RT_PRIMARY] at hf ⊢
    omega
  have hpart : ∀ (e : Device) (f : Fld), f.key 0 ≠ Reg.HOOP_MEMQ_HBM_QUOTA.key 0 → f.key 0 ≠ Reg.ERRQ_BASE_ADDR.key 0 → e.partRegs.rd f 0 = e.rd f 0 := by
    intro e f hquota hbase
    unfold Device.partRegs
    split
    · rw [Device.rd_wr_ne _ _ _ _ _ _ hbase, Device.rd_wr_ne _ _ _ _ _ _ hquota]
    · rfl
  have hsame : ∀ e : Device, e.partRegs.life = e.life ∧ e.partRegs.pins = e.pins ∧ e.partRegs.mem = e.mem ∧ e.partRegs.clock = e.clock := by
    intro e
    unfold Device.partRegs
    split <;> exact ⟨rfl, rfl, rfl, rfl⟩
  obtain ⟨hlife, hpins, hmem, hclock⟩ := hsame (d.sampleStraps s)
  refine ⟨hlife, hpins, hmem, hclock, ?_, ?_⟩
  · refine (hpart _ Reg.BOOT_STATUS_STAGE (by decide) (by decide)).trans ?_
    unfold Device.sampleStraps
    dsimp only
    rw [Device.rd_wr_ne _ _ _ _ _ _ (hroute Reg.BOOT_STATUS_STAGE (by decide)), Device.rd_wr_ne _ _ _ _ _ _ (by decide),
      Device.rd_wr_ne _ _ _ _ _ _ (by decide), Device.rd_wr_ne _ _ _ _ _ _ (by decide), Device.rd_wr_ne _ _ _ _ _ _ (by decide)]
    rfl
  · refine (hpart _ Reg.KLZ_ID_CHIP (by decide) (by decide)).trans ?_
    unfold Device.sampleStraps
    dsimp only
    rw [Device.rd_wr_ne _ _ _ _ _ _ (hroute Reg.KLZ_ID_CHIP (by decide)), Device.rd_wr_same]

/-- A key that a table's filter drops reads as the table's default. -/
theorem Tab.get_filter_of_not {α : Type} (z : α) (t : Tab α) {k : Nat} {p : Nat × α → Bool} (h : ∀ v, p (k, v) = false) :
    Tab.get z (t.filter p : Tab α) k = z := by
  induction t with
  | nil => rfl
  | cons c t ih =>
    rw [List.filter_cons]
    split
    next hp =>
      have hne : c.1 ≠ k := by
        rintro rfl
        exact absurd hp (by rw [h c.2]; decide)
      simpa [Tab.get, hne] using ih
    next => exact ih

/-- What a reset leaves (R414, R471). -/
theorem Device.reset_spec (d : Device) (s : Straps) : (d.reset s).stage = 0 ∧ (d.reset s).mem.cells = [] ∧ (d.reset s).clock.now = d.clock.now := by
  unfold Device.reset
  dsimp only
  obtain ⟨-, -, hmem, hclock, hstage, -⟩ := Device.sampleStraps_spec
    { ms := d.ms
      regs := d.regs.filter (fun x => keptKeys.contains x.1)
      mem := Memory.undefinedSince d.fresh, fresh := d.fresh + 1
      out := d.out
      life := { powered := d.life.powered, rails := d.life.rails, stopped := d.life.stopped, age := d.life.age, short := d.life.short, failed := d.life.failed }
      clock := { now := d.clock.now, tickAt := d.clock.now }
      pins := { d.pins with alert := false, alertAt := none }
      boot := { startAt := d.clock.now, pulse := d.boot.pulse } } s
  rw [hmem, hclock, hstage]
  have hdropped : keptKeys.contains (Reg.BOOT_STATUS_STAGE.key 0) = false := by decide
  exact ⟨Tab.get_filter_of_not _ _ fun _ => hdropped, rfl, rfl⟩

/-! The obligation -/

/-- A start-up that ends in FAILED (R474). -/
theorem Device.failStartup_spec (d : Device) {f x : Nat} (hf : f < 0x20) :
    (d.failStartup (f, x)).stage = 6 ∧ (d.failStartup (f, x)).rd Reg.BOOT_STATUS_CAUSE = f ∧ (d.failStartup (f, x)).life.failed = some (f, x) ∧
      (d.failStartup (f, x)).mem = d.mem :=
  ⟨Device.stage_endStartup _ 6, (d.cause_endStartup f x 6).trans (Nat.mod_eq_of_lt (by omega)), rfl, rfl⟩

/-- A start-up whose image fails a check ends in RECOVERY (R479). -/
theorem Device.recoveryStartup_spec (d : Device) (f : Fuses) (b : Bytes) :
    let e := (d.setCause (imageCause f b) 0).endStartup 5
    e.stage = 5 ∧ e.rd Reg.BOOT_STATUS_CAUSE = imageCause f b ∧ e.mem = d.mem :=
  ⟨Device.stage_endStartup _ 5, (d.cause_endStartup _ 0 5).trans (Nat.mod_eq_of_lt (by have := imageCause_le f b; omega)), rfl⟩

theorem bootFault_lt {f x : Nat} (h : bootFault f x = true) : f < 0x20 := by
  simp only [bootFault, Bool.or_eq_true, Bool.and_eq_true, beq_iff_eq] at h
  omega

/-- A module that has just come up, before its straps are sampled: every register has its power-on value. -/
def Device.standby (d : Device) (straps : Straps) : Device :=
  { ms := d.ms, out := d.out, fresh := d.fresh, life := { powered := true, stopped := true },
    pins := { perstN := d.pins.perstN, flowOk := d.pins.flowOk, levels := straps } }

/-- POWER_ON of a module without power: standby with the straps sampled. -/
theorem exec_powerOn_off {s : State} (straps : Straps) (hoff : s.dev.life.powered = false) :
    Gives (.powerOn straps) s ((s.dev.standby straps).sampleStraps straps).partRegs := by
  refine .of_done (by rw [exec]; rfl) ?_
  exact if_neg (by simp [Device.setLevels, hoff])

/-- STARTUP of a module that awaits it. -/
theorem exec_startup {s : State} {fault : Option (Nat × Nat)} (hawake : s.dev.awake = true) (hstart : s.dev.boot.starting = true)
    (hknown : ∀ f x, fault = some (f, x) → bootFault f x = true) : exec (.startup fault) s = s.done (s.dev.startup s.nv fault) := by
  cases fault with
  | none => simp [exec, execStartup, hawake, hstart]
  | some y => simp [exec, execStartup, hawake, hstart, hknown y.1 y.2 rfl]

/-- A module that is not up, in the terms of its commands. -/
theorem Life.down_of {l : Life} (h : l.powered = false ∨ l.rails = false ∨ l.stopped = true) : (l.powered && l.rails && !l.stopped) = false := by
  rcases h with h | h | h <;> simp [h]

/-- STARTUP of a module that awaits it, by what shows before and after the image is read (Table 19-1). -/
theorem startup_outcomes {s : State} (hawake : s.dev.awake = true) (hstart : s.dev.boot.starting = true) :
    let d := s.dev
    let c := imageCause s.nv.fuses s.nv.flash.image
    (d.life.failed = none → c = 0 → ∃ d2 : Device, Gives (.startup none) s d2 ∧ d2.stage = 4 ∧ d2.mem = Memory.zeroed ∧
      d2.boot.engine.secret = none ∧ d2.boot.engine.device = none ∧ d2.boot.engine.alias_.isSome = true ∧ d2.boot.certs.length = 4 ∧
      d2.boot.header = slice s.nv.flash.image 0 4096 ∧ d2.role = (if d.pins.straps.mgrEn then 2 else 1) ∧ d2.point = 8 ∧
      (∀ p < 8, d2.portState p = 1) ∧ d2.boot.starting = false) ∧
    (d.life.failed = none → c ≠ 0 → ∃ d2 : Device, Gives (.startup none) s d2 ∧ d2.stage = 5 ∧ d2.rd Reg.BOOT_STATUS_CAUSE = c ∧ d2.mem = d.mem) ∧
    (∀ f x given, (d.life.failed = some (f, x) ∧ f < 0x20 ∧ given = none) ∨ (d.life.failed = none ∧ given = some (f, x) ∧ bootFault f x = true) →
      (0x13 ≤ f ∨ c = 0 → ∃ d2 : Device, Gives (.startup given) s d2 ∧ d2.stage = 6 ∧ d2.rd Reg.BOOT_STATUS_CAUSE = f ∧
        d2.life.failed = some (f, x) ∧ d2.mem = d.mem) ∧
      (f < 0x13 → c ≠ 0 → ∃ d2 : Device, Gives (.startup given) s d2 ∧ d2.stage = 5 ∧ d2.rd Reg.BOOT_STATUS_CAUSE = c ∧ d2.mem = d.mem)) := by
  dsimp only
  refine ⟨fun hfailed hc => ?_, fun hfailed hc => ?_, fun f x given hfault => ?_⟩
  · obtain ⟨r, hr⟩ := s.dev.startup_eq s.nv none
    simp only [hfailed, hc, if_true] at hr
    obtain ⟨hstage, hmem, hsec, hdev, halias, hcerts, hrest⟩ := Device.becomeReady_spec (d := ({ s.dev with regs := r } : Device).deriveDevice s.nv) rfl rfl
      s.nv.fuses s.nv.flash
    exact ⟨_, .of_done (exec_startup hawake hstart (by simp)) hr, hstage, hmem, hsec, hdev, halias, hcerts, hrest⟩
  · obtain ⟨r, hr⟩ := s.dev.startup_eq s.nv none
    simp only [hfailed, hc, if_false] at hr
    obtain ⟨hstage, hcause, hmem⟩ := (({ s.dev with regs := r } : Device).deriveDevice s.nv).recoveryStartup_spec s.nv.fuses s.nv.flash.image
    exact ⟨_, .of_done (exec_startup hawake hstart (by simp)) hr, hstage, hcause, hmem⟩
  · obtain ⟨r, hr⟩ := s.dev.startup_eq s.nv given
    have hshows : (match s.dev.life.failed with | some y => some y | none => given) = some (f, x) := by
      rcases hfault with ⟨hfailed, -, -⟩ | ⟨hfailed, hgiven, -⟩
      · rw [hfailed]
      · rw [hfailed]
        exact hgiven
    have hknown : ∀ f' x', given = some (f', x') → bootFault f' x' = true := by
      intro f' x' hgiven
      rcases hfault with ⟨-, -, hnone⟩ | ⟨-, hsome, hboot⟩
      · rw [hnone] at hgiven
        cases hgiven
      · rw [hsome] at hgiven
        cases hgiven
        exact hboot
    have hlt : f < 0x20 := by
      rcases hfault with ⟨-, hlt, -⟩ | ⟨-, -, hboot⟩
      · exact hlt
      · exact bootFault_lt hboot
    rw [hshows] at hr
    dsimp only at hr
    refine ⟨fun hearly => ?_, fun hlate hc => ?_⟩
    · rw [if_pos hearly] at hr
      obtain ⟨hstage, hcause, hfailed, hmem⟩ := (({ s.dev with regs := r } : Device).deriveDevice s.nv).failStartup_spec (x := x) hlt
      exact ⟨_, .of_done (exec_startup hawake hstart hknown) hr, hstage, hcause, hfailed, hmem⟩
    · rw [if_neg (by omega)] at hr
      obtain ⟨hstage, hcause, hmem⟩ := (({ s.dev with regs := r } : Device).deriveDevice s.nv).recoveryStartup_spec s.nv.fuses s.nv.flash.image
      exact ⟨_, .of_done (exec_startup hawake hstart hknown) hr, hstage, hcause, hmem⟩

/-- Settles O48: power, pins and start-up bring the module to the stage that the straps, the image and the faults say. -/
theorem startUp : Obligations.StartUp := by
  intro s straps
  dsimp only
  refine ⟨fun hoff => ?_, fun hon => .of_done (by rw [exec]; rfl) ?_, fun hn => .of_done (by rw [exec]; rfl) ?_, fun hon hrails htrip => ⟨fun hn => .of_done (by rw [exec]; rfl) ?_,
    fun hn => .of_done (by rw [exec]; rfl) ?_⟩, fun hn hdown => .of_done (by rw [exec]; rfl) ?_, fun hn hon hrails hstop => .of_done (by rw [exec]; rfl) ?_,
    fun hn hon hrails hstop => ?_, fun hn hdown => ⟨fun hon hflow => .of_done (by rw [exec]; rfl) ?_, fun hoff => .of_done (by rw [exec]; rfl) ?_⟩,
    fun hawake hstart => startup_outcomes hawake hstart,
    fun hon => .of_done (by rw [exec]; rfl) ?_, ⟨fun hon hrails => .of_done (by rw [exec]; rfl) ?_, fun hoff => ⟨fun t i htrip ht => .of_done (by rw [exec]; rfl) ?_,
    fun htrip => .of_done (by rw [exec]; rfl) ?_⟩⟩, fun hpulse => .of_done (by rw [exec]; rfl) ?_⟩
  · obtain ⟨hlife, hpins, -, -, hstage, hchip⟩ := (s.dev.standby straps).sampleStraps_spec straps
    exact ⟨_, exec_powerOn_off straps hoff, hlife, by rw [hpins], by rw [hpins]; rfl, hchip, hstage⟩
  · simp [Device.setLevels, hon]
  · simp [Device.setLevels, hn]
  · simp [hon, hrails, htrip, hn]
  · simp [hon, hrails, htrip, hn]
  · simp [Device.setLevels, hn, Life.down_of hdown]
  · simp [Device.setLevels, hn, hon, hrails, hstop]
  · exact ⟨.of_done (by rw [exec]; rfl) (by simp [hn, hon, hrails, hstop]), Device.reset_spec ..⟩
  · simp only [hn, Bool.not_true, Bool.false_eq_true, if_false, Life.down_of hdown]
    exact if_pos (by simp [hon, hflow])
  · have hno : (s.dev.life.powered && s.dev.pins.flowOk) = false := by rcases hoff with h | h <;> simp [h]
    simp [hn, Life.down_of hdown, hno]
  · simp [hon]
  · simp [hon, hrails]
  · have hno : (s.dev.life.powered && s.dev.life.rails) = false := by rcases hoff with h | h <;> simp [h]
    simp only [hno, Bool.false_eq_true, if_false, Device.tripRenamed, htrip, ht, if_true]
    rfl
  · have hno : (s.dev.life.powered && s.dev.life.rails) = false := by rcases hoff with h | h <;> simp [h]
    simp only [hno, Bool.false_eq_true, if_false, Device.tripRenamed, htrip]
  · simp [hpulse]

end Sys2Proof.Machine

/-! Management commands (R404 to R416): acceptance, the checks of R408 in their order, and how a command ends. -/

namespace Sys2Proof.Machine

/-! The checks of R408 -/

/-- Who may send a command. -/
def MSpec.may (sp : MSpec) (h : MHdr) : Prop := ((1 ≤ h.ring ∧ h.ring ≤ 8) → sp.hoopScope = true ∧ h.hoop + 1 = h.ring) ∧ (h.ring = 9 → sp.sb = true)

/-- Where the parameters and the reply of a command may lie. -/
def bufferPlaced (h : MHdr) (p : Bytes) : Prop :=
  if h.ring = 9 then h.paramAddr = 0 ∧ h.replyAddr = 0
  else h.paramAddr % 8 = 0 ∧ h.replyAddr % 8 = 0 ∧ (p ≠ [] ∨ h.paramAddr = 0) ∧ (h.replyCap ≠ 0 ∨ h.replyAddr = 0)

/-- Whether the header and the length of a command lie in their ranges. -/
def MSpec.well (sp : MSpec) (h : MHdr) (p : Bytes) : Prop :=
  h.rsvd = false ∧ h.hoop ≤ 7 ∧ h.replyCap ≤ 4096 ∧ bufferPlaced h p ∧ sp.len p.length = true ∧ (sp.names = true ∨ h.hoop = 0)

section
variable (sp : MSpec) (h : MHdr) (p : Bytes)

theorem sender_refused_iff :
    ((1 ≤ h.ring && h.ring ≤ 8 && !(sp.hoopScope && h.hoop + 1 == h.ring)) || (h.ring == 9 && !sp.sb)) = true ↔ ¬ sp.may h := by
  simp only [MSpec.may, Bool.or_eq_true, Bool.and_eq_true, Bool.not_eq_true', decide_eq_true_eq, beq_iff_eq, Bool.and_eq_false_iff, beq_eq_false_iff_ne]
  cases sp.hoopScope <;> cases sp.sb <;> simp <;> omega

theorem bufferPlaced_iff :
    (if h.ring = 9 then h.paramAddr == 0 && h.replyAddr == 0
      else h.paramAddr % 8 == 0 && h.replyAddr % 8 == 0 && (p.length != 0 || h.paramAddr == 0) && (h.replyCap != 0 || h.replyAddr == 0)) = true ↔
    bufferPlaced h p := by
  unfold bufferPlaced
  split <;> simp [and_assoc]

theorem header_refused_iff :
    (h.rsvd || h.hoop > 7 || h.replyCap > 4096 || !(if h.ring = 9 then h.paramAddr == 0 && h.replyAddr == 0
      else h.paramAddr % 8 == 0 && h.replyAddr % 8 == 0 && (p.length != 0 || h.paramAddr == 0) && (h.replyCap != 0 || h.replyAddr == 0))
      || !sp.len p.length || (!sp.names && h.hoop != 0)) = true ↔ ¬ sp.well h p := by
  simp only [MSpec.well, ← bufferPlaced_iff]
  generalize (if h.ring = 9 then h.paramAddr == 0 && h.replyAddr == 0
      else h.paramAddr % 8 == 0 && h.replyAddr % 8 == 0 && (p.length != 0 || h.paramAddr == 0) && (h.replyCap != 0 || h.replyAddr == 0)) = b
  cases h.rsvd <;> cases b <;> cases sp.len p.length <;> cases sp.names <;> simp <;> omega

variable {sp h p}

/-- Checks 2 and 3 of R408. -/
theorem headCheck_of_not_may (hmay : ¬ sp.may h) : headCheck sp h p.length = some 0x0101 := if_pos ((sender_refused_iff sp h).mpr hmay)

theorem headCheck_of_not_well (hmay : sp.may h) (hwell : ¬ sp.well h p) : headCheck sp h p.length = some 3 :=
  (if_neg (mt (sender_refused_iff sp h).mp (not_not.mpr hmay))).trans (if_pos ((header_refused_iff sp h p).mpr hwell))

theorem headCheck_of_well (hmay : sp.may h) (hwell : sp.well h p) : headCheck sp h p.length = none :=
  (if_neg (mt (sender_refused_iff sp h).mp (not_not.mpr hmay))).trans (if_neg (mt (header_refused_iff sp h p).mp (not_not.mpr hwell)))

end

/-- A command whose header holds is checked by the module's stage, a fatal event and its hoop's state. -/
theorem Device.mgmtCheck_of_well (d : Device) {sp : MSpec} {h : MHdr} {p : Bytes} (hmay : sp.may h) (hwell : sp.well h p)
    (hfits : sp.reply ≤ h.replyCap) :
    d.mgmtCheck sp h p =
      if d.stage ≠ 4 then (if sp.starter then none else some 0x0100)
      else if d.life.fatal then
        (if 1 ≤ h.ring && h.ring ≤ 8 then some 0x0100
         else if sp.names && d.hoopState h.hoop == 0 && !sp.create then some 3
         else if sp.afterFatal then none else some 0x0100)
      else if !sp.names then none
      else if d.hoopState h.hoop = 0 then (if sp.create then none else some 3)
      else if sp.create then some 0x0100
      else if d.hoopState h.hoop = 1 ∨ (d.hoopState h.hoop = 2 ∧ sp.hold) ∨ ((d.hoopState h.hoop = 3 ∨ d.hoopState h.hoop = 4) ∧ sp.read) then none
      else some 0x0100 := by
  rw [Device.mgmtCheck, headCheck_of_well hmay hwell, Option.none_or]
  exact if_neg (Nat.not_lt.mpr hfits)

/-! How a command ends -/

section
variable {s : State} {sp : MSpec} {h : MHdr} {p : Bytes}

/-- A command that earlier ones hold back waits, and one that is not there changes nothing (R407). -/
theorem Device.mgmt_of_not_ready {d : Device} (hready : d.mgmtReady sp h = false) (f : Device → MRes) : d.mgmt sp h p f = d.mgmtHold sp h p := by
  simp [Device.mgmt, hready]

variable {d : Device} (hready : d.mgmtReady sp h = true)
include hready

/-- A command that fails a check of R408 is refused. -/
theorem Device.mgmt_of_check {st : Nat} (hcheck : (d.mgmtAccept h).mgmtCheck sp h p = some st) (f : Device → MRes) :
    d.mgmt sp h p f = (d.mgmtAccept h).reply h sp.op st 0 0 [] := by
  simp [Device.mgmt, hready, hcheck]

variable (hcheck : (d.mgmtAccept h).mgmtCheck sp h p = none)
include hcheck

/-- A command whose parameters could not be read ends with DATA_ERROR. -/
theorem Device.mgmt_of_unread (hunread : h.unread = true) (hring : h.ring < 9) (hp : p ≠ []) (f : Device → MRes) :
    d.mgmt sp h p f = (d.mgmtAccept h).reply h sp.op 0xA 0 0 [] := by
  simp [Device.mgmt, hready, hcheck, hunread, hring, List.length_pos_of_ne_nil hp]

end

section
variable {s : State} {sp : MSpec} {h : MHdr} {p : Bytes}

/-- What a command that is carried out leaves once its own rules have decided. -/
def Device.closed (h : MHdr) (op : Nat) (d : Device) : MRes → Device
  | .refuse st detail => d.reply h op st (if st = 3 then detail else 0) 0 []
  | .fail d st => d.reply h op st 0 0 []
  | .done d result data => d.reply h op 0 0 result data
  | .wait d kind a b data =>
    let d := d.setBoot { d.boot with waits := d.boot.waits ++ [⟨h, op, kind, a, b, data⟩] }
    if h.ring < 9 then (d.wr Reg.MGMT_STATUS_BUSY h.ring 1).wr Reg.MGMT_STATUS_OPCODE h.ring op else d

/-- A command that is carried out was accepted. -/
theorem Device.carries_eq_some {d d2 : Device} (hcarries : d.carries sp h p = some d2) : d2 = d.mgmtAccept h := by
  rw [Device.carries] at hcarries
  split at hcarries
  · exact (Option.some.inj hcarries).symm
  · simp at hcarries

/-- A command that is carried out is decided by its own rules. -/
theorem Device.mgmt_of_carries {d d2 : Device} (hcarries : d.carries sp h p = some d2) (f : Device → MRes) :
    d.mgmt sp h p f = d2.closed h sp.op (f d2) := by
  obtain rfl := carries_eq_some hcarries
  rw [Device.carries] at hcarries
  obtain ⟨hall, -⟩ := (Option.ite_none_right_eq_some ..).mp hcarries
  simp only [Bool.and_eq_true, Option.isNone_iff_eq_none, Bool.not_eq_true'] at hall
  obtain ⟨⟨hready, hcheck⟩, hread⟩ := hall
  rw [Device.mgmt, hready, Bool.not_true, if_neg Bool.false_ne_true]
  dsimp only
  rw [hcheck, hread]
  dsimp only
  rw [if_neg Bool.false_ne_true]
  cases f (d.mgmtAccept h) <;> rfl

section
variable {c : Instr} {d d2 : Device} {f : Device → MRes} (hcarries : s.dev.carries sp h p = some d) (hexec : exec c s = s.done (s.dev.mgmt sp h p f))
include hcarries hexec

theorem gives_of_carries : Gives c s (d.closed h sp.op (f d)) := .of_done hexec (Device.mgmt_of_carries hcarries f)

theorem answers_of_carries {result : Nat} {data : Bytes} (hdone : f d = .done d2 result data) : Answers c s h sp.op d2 result data := by
  have hgives := gives_of_carries hcarries hexec
  rwa [hdone] at hgives

theorem refuses_of_fail {st : Nat} (hfail : f d = .fail d2 st) : Refuses c s h sp.op d2 st := by
  have hgives := gives_of_carries hcarries hexec
  rwa [hfail] at hgives

/-- A parameter out of range is named in DETAIL, which other refusals leave 0. -/
theorem refuses_of_rule {st detail : Nat} (hrefuse : f d = .refuse st detail) : Refuses c s h sp.op d st (if st = 3 then detail else 0) := by
  have hgives := gives_of_carries hcarries hexec
  rwa [hrefuse] at hgives

theorem refuses_of_param {detail : Nat} (hbad : f d = .refuse 3 detail) : Refuses c s h sp.op d 3 detail :=
  refuses_of_rule hcarries hexec hbad

theorem refuses_of_refuse {st detail : Nat} (hrefuse : f d = .refuse st detail) (hst : st ≠ 3) : Refuses c s h sp.op d st := by
  have hrule := refuses_of_rule hcarries hexec hrefuse
  rwa [if_neg hst] at hrule

/-- A refusal without DETAIL. -/
theorem refuses_of_bare {st : Nat} (hrefuse : f d = .refuse st 0) : Refuses c s h sp.op d st := by
  have hrule := refuses_of_rule hcarries hexec hrefuse
  rwa [ite_self] at hrule

theorem waitsFor_of_carries {kind a b : Nat} {data : Bytes} (hwait : f d = .wait d2 kind a b data) : WaitsFor c s h sp.op d2 kind a b data := by
  have hgives := gives_of_carries hcarries hexec
  rwa [hwait] at hgives

end

/-- A command whose effect follows its reply (R414): held, refused by a check of R408, or replied to and done. -/
theorem Device.mgmtThen_of_not_ready {d : Device} (hready : d.mgmtReady sp h = false) (f : Device → Device) :
    d.mgmtThen sp h p f = d.mgmtHold sp h p := by
  simp [Device.mgmtThen, hready]

theorem Device.mgmtThen_of_check {d : Device} (hready : d.mgmtReady sp h = true) {st : Nat}
    (hcheck : (d.mgmtAccept h).mgmtCheck sp h p = some st) (f : Device → Device) :
    d.mgmtThen sp h p f = (d.mgmtAccept h).reply h sp.op st 0 0 [] := by
  simp [Device.mgmtThen, hready, hcheck]

theorem Device.mgmtThen_of_pass {d : Device} (hready : d.mgmtReady sp h = true)
    (hcheck : (d.mgmtAccept h).mgmtCheck sp h p = none) (f : Device → Device) :
    d.mgmtThen sp h p f = f ((d.mgmtAccept h).reply h sp.op 0 0 0 []) := by
  simp [Device.mgmtThen, hready, hcheck]

end

/-! Which commands these are -/

/-- A command of Table 16-4 that answers by its own rules once R408 admits it. -/
def IsMgmt (s : State) (h : MHdr) (p : Bytes) (x : Instr × MSpec) : Prop := ∃ f, exec x.1 s = s.done (s.dev.mgmt x.2 h p f)

/-- Every row of the table is such a command. -/
theorem isMgmt_of_mgmtRows (s : State) (h : MHdr) (p : Bytes) : ∀ x ∈ mgmtRows s.dev h p, IsMgmt s h p x := by
  unfold mgmtRows
  refine List.forall_mem_append.mpr ⟨List.forall_mem_append.mpr ⟨List.forall_mem_append.mpr ⟨List.forall_mem_append.mpr ⟨?_, ?_⟩, ?_⟩, ?_⟩, ?_⟩
  · simp only [List.forall_mem_cons]
    exact ⟨⟨_, rfl⟩, ⟨_, rfl⟩, ⟨_, rfl⟩, ⟨_, rfl⟩, ⟨_, rfl⟩, ⟨_, rfl⟩, ⟨_, rfl⟩, ⟨_, rfl⟩, ⟨_, rfl⟩, ⟨_, rfl⟩, ⟨_, rfl⟩, by simp⟩
  · simp only [List.forall_mem_cons]
    exact ⟨⟨_, rfl⟩, ⟨_, rfl⟩, ⟨_, rfl⟩, ⟨_, rfl⟩, ⟨_, rfl⟩, ⟨_, rfl⟩, ⟨_, rfl⟩, ⟨_, rfl⟩, ⟨_, rfl⟩, ⟨_, rfl⟩, ⟨_, rfl⟩, ⟨_, rfl⟩, by simp⟩
  · simp only [List.forall_mem_cons]
    exact ⟨⟨_, rfl⟩, ⟨_, rfl⟩, ⟨_, rfl⟩, ⟨_, rfl⟩, ⟨_, rfl⟩, ⟨_, rfl⟩, ⟨_, rfl⟩, ⟨_, rfl⟩, ⟨_, rfl⟩, ⟨_, rfl⟩, by simp⟩
  · simp only [List.forall_mem_cons]
    exact ⟨⟨_, rfl⟩, ⟨_, rfl⟩, ⟨_, rfl⟩, by simp⟩
  · have hdebug (mode : Nat) (hmode : fieldLe p 0 1 = mode) : s.debug mode h p =
        s.done (s.dev.mgmt { op := 0x58, len := fun n => if mode = 1 then n == 272 else n == 1, reply := if mode = 0 then 32 else 0 } h p
          (fun d => d.debugCmd s.nv.fuses p)) := by
      rw [State.debug, hmode, if_pos (.inl rfl)]
      rfl
    split
    next hmode => simpa using ⟨_, hdebug 0 hmode⟩
    next hmode => simpa using ⟨_, hdebug 1 hmode⟩
    next hmode => simpa using ⟨_, hdebug 2 hmode⟩
    next => simp

/-- Settles O46: the checks of R408 in their order, for every command of the table. -/
theorem managementRefusals : Obligations.ManagementRefusals := by
  refine ⟨fun h p s x hx => ?_, fun h p d sp => ⟨fun hno => if_neg (by simp [hno]), fun hcomes => ?_⟩, fun h p d sp => ?_⟩
  · obtain ⟨f, hexec⟩ := isMgmt_of_mgmtRows s h p x hx
    exact ⟨fun hready => .of_done hexec (Device.mgmt_of_not_ready hready f), fun hready => ⟨fun st hcheck => .of_done hexec (Device.mgmt_of_check hready hcheck f),
      fun hcheck hunread hring hp => .of_done hexec (Device.mgmt_of_unread hready hcheck hunread hring hp f)⟩⟩
  · rw [Device.mgmtHold, if_pos hcomes]
    rfl
  · dsimp only
    refine ⟨fun hmay => ?_, fun hmay hwell => ?_, fun hmay hwell hfits => ?_, fun hmay hwell hfits hstage => ?_, fun hmay hwell hfits hstage hfatal => ?_,
      fun hmay hwell hfits hstage halive => ?_⟩
    · rw [Device.mgmtCheck, headCheck_of_not_may hmay]
      rfl
    · exact (Option.or_eq_some_iff ..).mpr (.inl (headCheck_of_not_well hmay hwell))
    · exact (Option.or_eq_some_iff ..).mpr (.inr ⟨headCheck_of_well hmay hwell, if_pos (Nat.lt_of_not_le hfits)⟩)
    all_goals rw [d.mgmtCheck_of_well hmay hwell hfits]
    · rw [if_pos hstage]
    · rw [if_neg (not_not.mpr hstage), if_pos hfatal]
      refine ⟨fun hvf => if_pos (by simpa using hvf), fun hvf hnames hst hcreate => ?_, fun hvf hadmits => ?_⟩
      · rw [if_neg (by simpa using hvf), if_pos (by simp [hnames, hst, hcreate])]
      · rw [if_neg (by simpa using hvf), if_neg ?_]
        rcases hadmits with hno | hno | hno <;> simp [hno]
    · rw [if_neg (not_not.mpr hstage), if_neg (by simp [halive])]
      refine ⟨fun hnames => if_pos (by simp [hnames]), fun hnames hst => ?_, fun hnames hst hcreate => ?_, fun hnames hcreate => ?_⟩
      · rw [if_neg (by simp [hnames]), if_pos hst]
      · rw [if_neg (by simp [hnames]), if_neg hst, if_pos hcreate]
      · rw [if_neg (by simp [hnames])]
        refine ⟨fun hst => ?_, fun hst => ?_, fun hst => ?_, fun hst => ?_⟩
        · simp [hst, hcreate]
        · simp [hst, hcreate]
        · rcases hst with hst | hst <;> simp [hst, hcreate]
        · have hfar : d.hoopState h.hoop ≠ 0 ∧ d.hoopState h.hoop ≠ 1 ∧ d.hoopState h.hoop ≠ 2 ∧ d.hoopState h.hoop ≠ 3 ∧ d.hoopState h.hoop ≠ 4 := by omega
          simp [hfar, hcreate]

end Sys2Proof.Machine

/-! The commands of firmware and identity, of resets and of the error summary (R410, R413, R414, R480, R483). -/

namespace Sys2Proof.Machine

/-! What accepting and answering a command leaves of the starter's state -/

theorem Device.sendAsks_boot (d : Device) : d.sendAsks.boot = d.boot :=
  List.foldlRecOn (motive := fun e : Device => e.boot = d.boot) _ _ rfl (fun e he a _ => by split <;> exact he)

theorem Device.openRead_boot (d : Device) (r : HRead) (n : Nat) : (d.openRead r n).boot = d.boot := by
  unfold Device.openRead
  extract_lets id die parts
  refine (Device.sendAsks_boot _).trans ?_
  unfold die
  split <;> rfl

theorem Device.ringFetch_boot (d : Device) (r : Nat) : (d.ringFetch r).boot = d.boot := by
  unfold Device.ringFetch
  extract_lets reading busy
  split
  · exact d.openRead_boot ..
  · rfl

theorem Device.hostWrite_boot (d : Device) (fn addr : Nat) (data : Bytes) : (d.hostWrite fn addr data).boot = d.boot := by
  unfold Device.hostWrite
  split
  · exact List.foldlRecOn (motive := fun e : Device => e.boot = d.boot) _ _ rfl (fun e he a _ => he)
  · rfl

theorem Device.sendVector_boot (d : Device) (fn v : Nat) : (d.sendVector fn v).boot = d.boot := by
  unfold Device.sendVector
  split
  · rfl
  · split <;> rfl

theorem Device.reply_boot (d : Device) (h : MHdr) (op status detail result : Nat) (data : Bytes) :
    (d.reply h op status detail result data).boot = d.boot := by
  unfold Device.reply
  extract_lets hd sent headed headCounted ended told
  split
  · have hsent : sent.boot = d.boot := by
      unfold sent
      split
      · rfl
      · exact d.hostWrite_boot ..
    have hended : ended.boot = d.boot := (sent.hostWrite_boot ..).trans hsent
    refine (Device.ringFetch_boot ..).trans ?_
    unfold told
    split
    · exact (Device.sendVector_boot ..).trans hended
    · exact hended
  · split <;> rfl

theorem Device.mgmtTraffic_boot (d : Device) : d.mgmtTraffic.boot = d.boot := by
  unfold Device.mgmtTraffic
  refine List.foldlRecOn (motive := fun e : Device => e.boot = d.boot) _ _ rfl (fun e he a _ => ?_)
  exact he

theorem Device.mgmtAccept_boot (d : Device) (h : MHdr) : (d.mgmtAccept h).boot = d.boot := by
  unfold Device.mgmtAccept
  have htraffic := d.mgmtTraffic_boot
  generalize d.mgmtTraffic = d2 at htraffic
  dsimp only
  split <;> exact htraffic

section
variable {h : MHdr} {p : Bytes} {s : State} {d : Device}

/-- The device after FW_UPDATE staged its bytes. -/
def Device.stageBytes (d : Device) (p : Bytes) : Device :=
  d.setBoot { d.boot with staging := stageAt d.boot.staging (fieldLe p 0 4) (p.drop 8), staged := fieldLe p 0 4 + (p.drop 8).length }

/-- The device after FINAL had the staged image checked. -/
def Device.checkStaged (d : Device) (f : Fuses) (n : Nat) : Device :=
  d.setBoot { d.boot with lastCause := imageCause f (d.stagedImage n), checking := n }

/-- The device after an image that passed begins to be programmed. -/
def Device.beginProgramming (d : Device) : Device := d.setBoot { d.boot with programming := some false }

theorem fwUpdate_of_programming (nv : NonVol) (hprog : d.boot.programming ≠ none) : d.fwUpdate nv p = .refuse 0x100 0 :=
  if_pos (Option.isSome_iff_ne_none.mpr hprog)

theorem fwUpdate_of_idle (nv : NonVol) (hidle : d.boot.programming = none) : d.fwUpdate nv p =
    if fieldLe p 0 4 ≠ d.boot.staged ∧ fieldLe p 0 4 ≠ 0 then .refuse 3 0
    else if fieldLe p 4 4 > 1 then .refuse 3 4
    else
      let n := fieldLe p 0 4 + (p.drop 8).length
      let d2 := d.stageBytes p
      if fieldLe p 4 4 = 0 then .done d2 0 []
      else if d2.stage = 5 then .wait (d2.recoveryStart nv n).1 5 0 0 []
      else
        let d3 := d2.checkStaged nv.fuses n
        if imageCause nv.fuses (d2.stagedImage n) = 0 then .wait d3.beginProgramming 0 0 0 []
        else .fail d3 0x102 :=
  if_neg (by simp [hidle])

/-- The row of FW_UPDATE in Table 16-4. -/
abbrev fwUpdateRow : MSpec := { op := 0x61, sb := true, starter := true, len := fun n => 8 ≤ n && n ≤ 4096 }

/-- Whether an FW_UPDATE that leaves this device has begun to program the slot. -/
def programBegun (d d2 : Device) : Bool := d.boot.programming.isNone && d2.boot.programming.isSome && d2.boot.lastCause == 0

theorem exec_fwUpdate (hcarries : s.dev.carries fwUpdateRow h p = some d) :
    let d2 := d.closed h 0x61 (d.fwUpdate s.nv p)
    exec (.fwUpdate h p) s = .next { s with nv := if programBegun s.dev d2 then s.nv.slotOpen else s.nv, dev := d2 } := by
  have hmgmt := Device.mgmt_of_carries hcarries (fun d => d.fwUpdate s.nv p)
  dsimp only
  rw [← hmgmt]
  rfl

/-- An FW_UPDATE that begins no programming leaves the flash as it is. -/
theorem gives_fwUpdate (hcarries : s.dev.carries fwUpdateRow h p = some d) {r : MRes} {d2 : Device} (hr : d.fwUpdate s.nv p = r)
    (hd2 : d.closed h 0x61 r = d2) (hnot : programBegun s.dev d2 = false) : Gives (.fwUpdate h p) s d2 := by
  subst hr hd2
  refine (exec_fwUpdate hcarries).trans ?_
  rw [hnot]
  rfl

theorem programBegun_of_programming (d2 : Device) (hprog : s.dev.boot.programming ≠ none) : programBegun s.dev d2 = false := by
  simp [programBegun, Option.isNone_eq_false_iff.mpr (Option.isSome_iff_ne_none.mpr hprog)]

theorem programBegun_of_idle (d d2 : Device) (hidle : d2.boot.programming = none) : programBegun d d2 = false := by
  simp [programBegun, hidle]

/-- A command that waits keeps the starter's state but for the wait. -/
theorem Device.closed_wait_boot (d d2 : Device) (h : MHdr) (op kind a b : Nat) (data : Bytes) :
    (d.closed h op (.wait d2 kind a b data)).boot = { d2.boot with waits := d2.boot.waits ++ [⟨h, op, kind, a, b, data⟩] } := by
  simp only [Device.closed]
  split <;> rfl

/-- Settles O45: FW_QUERY, IDENTITY_GET and ERR_SUMMARY_READ reply, FW_UPDATE stages, checks and programs, and the resets reply, then act. -/
theorem managementFirmware : Obligations.ManagementFirmware := by
  intro h p s d
  dsimp only
  refine ⟨fun hc => answers_of_carries hc rfl rfl, fun hc => answers_of_carries hc rfl rfl, fun hc => ?_, fun hc => ⟨fun hprog => ?_, fun hidle hidle' => ?_⟩,
    fun hawake hprog => ?_, fun hno => ?_, ⟨fun hready => .of_done rfl (Device.mgmtThen_of_not_ready hready _), fun hready =>
      ⟨fun st hcheck => .of_done rfl (Device.mgmtThen_of_check hready hcheck _), fun hcheck => .of_done rfl (Device.mgmtThen_of_pass hready hcheck _)⟩⟩,
    ⟨fun hready => .of_done rfl (Device.mgmtThen_of_not_ready hready _), fun hready =>
      ⟨fun st hcheck => .of_done rfl (Device.mgmtThen_of_check hready hcheck _), fun hcheck => .of_done rfl (Device.mgmtThen_of_pass hready hcheck _)⟩⟩⟩
  · have hanswers := answers_of_carries (c := .errSummaryRead h p) hc rfl rfl
    simpa using hanswers
  · have hsame : d.boot = s.dev.boot := by
      rw [Device.carries_eq_some hc, Device.mgmtAccept_boot]
    exact gives_fwUpdate hc (fwUpdate_of_programming s.nv hprog) rfl (programBegun_of_programming _ (hsame ▸ hprog))
  · have hrules := fwUpdate_of_idle (p := p) s.nv hidle
    have hreply (d2 : Device) (st detail : Nat) (hd2 : d2.boot.programming = none) : (d2.reply h 0x61 st detail 0 []).boot.programming = none := by
      rw [Device.reply_boot, hd2]
    refine ⟨fun hno => ?_, fun hseq hflags => ?_, fun hseq hflags => ?_, fun hseq hflags hstage => ?_, fun hseq hflags hstage => ?_⟩
    · rw [if_pos (by tauto)] at hrules
      exact gives_fwUpdate hc hrules rfl (programBegun_of_idle _ _ (hreply d _ _ hidle))
    all_goals rw [if_neg (by tauto)] at hrules
    · rw [if_pos hflags] at hrules
      exact gives_fwUpdate hc hrules rfl (programBegun_of_idle _ _ (hreply d _ _ hidle))
    all_goals rw [if_neg (by omega)] at hrules; dsimp only at hrules
    · rw [if_pos hflags] at hrules
      exact gives_fwUpdate hc hrules rfl (programBegun_of_idle _ _ (hreply _ _ _ hidle))
    · rw [if_neg (by omega), if_neg (show ¬ (d.stageBytes p).stage = 5 from hstage)] at hrules
      refine ⟨fun hcause => ?_, fun hcause => ?_⟩
      · rw [if_neg (show ¬ imageCause s.nv.fuses ((d.stageBytes p).stagedImage _) = 0 from hcause)] at hrules
        exact gives_fwUpdate hc hrules rfl (programBegun_of_idle _ _ (hreply _ _ _ hidle))
      · rw [if_pos (show imageCause s.nv.fuses ((d.stageBytes p).stagedImage _) = 0 from hcause)] at hrules
        have hboot := d.closed_wait_boot ((d.stageBytes p).checkStaged s.nv.fuses (fieldLe p 0 4 + (p.drop 8).length)).beginProgramming h 0x61 0 0 0 []
        have hexec := exec_fwUpdate hc
        rw [hrules] at hexec
        refine ⟨_, hexec, ?_, ?_, ?_, ?_⟩
        · refine if_pos ?_
          rw [programBegun, hboot, hidle']
          exact beq_iff_eq.mpr hcause
        all_goals rw [hboot]; rfl
    · rw [if_neg (by omega), if_pos (show (d.stageBytes p).stage = 5 from hstage)] at hrules
      have hexec := exec_fwUpdate hc
      rw [hrules] at hexec
      refine ⟨_, hexec, ?_, ?_⟩
      all_goals rw [Device.closed_wait_boot]; rfl
  · exact if_pos (by simp [hawake, hprog])
  · exact .of_done (if_neg (by simp [hno])) rfl

end

end Sys2Proof.Machine

/-! The management commands of hoops and queues (R36 to R40, R56, R96, R406, R411, R412). -/

namespace Sys2Proof.Machine

section
variable {d : Device} {n q : Nat} {h : MHdr} {p : Bytes}

/-! What each command's own rules decide -/

theorem hoopCreate_of_bad {o : Nat} (hbad : firstBad (d.hoopChecks n p) = some o) : d.hoopCreate n p = .refuse 3 o := by
  simp only [Device.hoopCreate, hbad]

/-- A hoop once HOOP_CREATE has made it: its parameters assigned, its table 0, in HOLD. -/
def Device.hoopMade (d : Device) (n : Nat) (p : Bytes) : Device :=
  let d1 := (d.clearRegs Reg.hoopTable n []).setHx n {}
  let d2 := (((d1.setHstat n d1.newHstat).assign n p).ownCores (fieldLe p 0 4) n).wr Reg.HOOP_CFG_HOOP n n
  let d3 := d2.wr Reg.HOOP_CHGROUPS_RESERVE_GROUP n (lowBit 48 (fieldLe p 8 8))
  (d3.ownWrite 4 9 (d3.tableAddr n) (List.replicate 1600 0)).wr Reg.HOOP_CFG_STATE n 2

theorem hoopCreate_of_fits (hbad : firstBad (d.hoopChecks n p) = none) (hfits : d.storeFits p = true) :
    d.hoopCreate n p = .done (d.hoopMade n p) 0 [] := by
  rw [Device.hoopCreate, hbad, hfits]
  rfl

theorem hoopResize_eq : d.hoopResize n p =
    match minOf (((d.hoopChecks n p ++ [(41, fieldLe p 41 1 == d.rd Reg.HOOP_CFG_DEP_MODEL n), (42, fieldLe p 42 2 == d.rd Reg.HOOP_RECIPES_STORE_MIB n),
      (44, fieldLe p 44 2 == d.rd Reg.HOOP_FENCES_FENCES n), (46, fieldLe p 46 2 == d.rd Reg.HOOP_EVENTS_EVENTS n)]).filter (fun (x : Nat × Bool) => !x.2)).map (fun (x : Nat × Bool) => x.1)) with
    | some o => .refuse 3 o
    | none =>
      if d.removedInUse n p then .refuse 0x100 0
      else
        let rc := without (d.rd Reg.HOOP_CLUSTERS_CLUSTERS n) (fieldLe p 0 4)
        let rg := without (d.rd Reg.HOOP_CHGROUPS_GROUPS n) (fieldLe p 8 8)
        let d := ((((d.assign n p).ownCores rc 0).ownCores (fieldLe p 0 4) n).zeroGroups rg).zeroClusters rc
        .done (((d.emptyL1 (fieldLe p 0 4)).overQuota n).claimHoop n) 0 [] := rfl

/-- HOOP_QUERY reads the hoop's window. -/
def hoopQueryRes (n : Nat) (d : Device) : MRes := .done d 0 (d.windowBytes n 256)

/-- A queue that no entry of is left to give up takes its new settings, or is gone. -/
theorem endQueue_eq : d.endQueue q =
    (d.leaveSlot q).setQueue q (if (d.queue q).lost = [] ∧ (d.queue q).recs = [] then {}
      else { hoop := (d.queue q).hoop, lost := (d.queue q).lost, recs := (d.queue q).recs }) := by
  simp only [Device.endQueue, Bool.and_eq_true, List.isEmpty_iff]

end

theorem exec_queueCreate (h : MHdr) (p : Bytes) (s : State) :
    exec (.queueCreate h p) s = s.done (s.dev.mgmt { op := 0x10, hoopScope := true, names := true, len := (· == 24) } h p (fun d => d.queueCreate h p)) :=
  rfl

/-- Settles O41: each command of hoops and queues makes its change, waits, or is refused by its own rules. -/
theorem managementHoopsQueues : Obligations.ManagementHoopsQueues := by
  intro h p s d
  dsimp only
  refine ⟨fun hc => answers_of_carries hc rfl rfl, fun hc => ⟨fun o hbad => ?_, fun hbad hfits => ?_, fun hbad hfits => ?_⟩,
    fun hc => ⟨fun o hbad => ?_, fun hbad hused => ?_, fun hbad hused => ?_⟩, fun hc => ⟨fun hn => ?_, fun hn hused => ?_, fun hn hused => ?_⟩,
    fun hc => answers_of_carries (f := hoopQueryRes h.hoop) hc rfl rfl, fun hc => ⟨fun hno => ?_, fun j hfree hlock => ⟨fun o hbad => ?_, fun hbad => ?_⟩⟩,
    fun hc => ⟨fun o hbad => ?_, fun hbad hbusy => ?_, fun hbad hbusy => ⟨fun hgone => ?_, fun hgone => ?_⟩⟩,
    fun hc => ⟨fun hsized => ?_, fun o hsized hbad => ?_, fun hsized hbad hdone => ?_, fun hsized hbad hdone => ?_⟩,
    fun hc => ⟨fun hno => ?_, fun hown hbusy => ?_, fun hown hbusy => ⟨fun hgone => ?_, fun hgone => ?_⟩⟩⟩
  · exact refuses_of_param hc rfl (hoopCreate_of_bad hbad)
  · exact refuses_of_param hc rfl (by simp only [Device.hoopCreate, hbad, hfits, Bool.not_false, if_true])
  · exact answers_of_carries (d2 := d.hoopMade h.hoop p) hc rfl (hoopCreate_of_fits hbad hfits)
  · exact refuses_of_param hc rfl (by rw [hoopResize_eq, hbad])
  · exact refuses_of_refuse hc rfl (by rw [hoopResize_eq, hbad]; exact if_pos hused) (by decide)
  · exact answers_of_carries hc rfl (by rw [hoopResize_eq, hbad]; exact if_neg (by simp [hused]))
  · exact refuses_of_param hc rfl (if_pos hn)
  · exact refuses_of_refuse hc rfl ((if_neg hn).trans (if_pos hused)) (by decide)
  · exact waitsFor_of_carries hc rfl ((if_neg hn).trans (if_neg (by rw [hused]; decide)))
  · refine refuses_of_refuse (detail := 0) hc (exec_queueCreate h p s) ?_ (by decide)
    delta Device.queueCreate
    dsimp only
    rcases hno with hfree | hlock
    · rw [hfree]
    · split
      · rfl
      · exact if_pos hlock
  · exact refuses_of_param hc (exec_queueCreate h p s) (by delta Device.queueCreate; dsimp only; rw [hfree]; exact (if_neg hlock).trans (by rw [hbad]))
  · exact answers_of_carries hc (exec_queueCreate h p s) (by delta Device.queueCreate; dsimp only; rw [hfree]; exact (if_neg hlock).trans (by rw [hbad]))
  · exact refuses_of_param hc rfl (by simp only [Device.queueReset, hbad])
  · exact refuses_of_refuse hc rfl (by rw [Device.queueReset, hbad]; exact if_pos hbusy) (by decide)
  · exact waitsFor_of_carries hc rfl (by simp only [Device.queueReset, hbad, hbusy, Bool.false_eq_true, if_false, List.isEmpty_iff, if_neg hgone])
  · exact answers_of_carries hc rfl (by simp only [Device.queueReset, hbad, hbusy, Bool.false_eq_true, if_false, List.isEmpty_iff, if_pos hgone]; rfl)
  · exact refuses_of_param hc rfl (if_pos (by omega))
  · exact refuses_of_param hc rfl ((if_neg (by omega)).trans (by rw [hbad]))
  · exact answers_of_carries hc rfl ((if_neg (by omega)).trans (by rw [hbad]; exact if_pos hdone))
  · exact waitsFor_of_carries hc rfl ((if_neg (by omega)).trans (by rw [hbad]; exact if_neg (by simp [hdone])))
  · exact refuses_of_param hc rfl (if_pos (by simp [hno]))
  · exact refuses_of_refuse hc rfl ((if_neg (by simp [hown])).trans (if_pos hbusy)) (by decide)
  · exact waitsFor_of_carries hc rfl ((if_neg (by simp [hown])).trans ((if_neg (by simp [hbusy])).trans (if_neg (by simpa using hgone))))
  · rw [← endQueue_eq]
    exact answers_of_carries hc rfl ((if_neg (by simp [hown])).trans ((if_neg (by simp [hbusy])).trans (if_pos (by simpa using hgone))))

end Sys2Proof.Machine

/-! The management commands of segments, pools, sessions, recipes, receive queues and routes (R78, R270, R272, R302 to R309, R320, R339, R355, R373). -/

namespace Sys2Proof.Machine

/-! Memory that KV_POOL_SET clears -/

/-- A key whose entries a filter keeps reads as before. -/
theorem Tab.get_filter_of_kept {α : Type} (z : α) (t : Tab α) {k : Nat} {p : Nat × α → Bool} (h : ∀ v, p (k, v) = true) :
    Tab.get z (t.filter p : Tab α) k = Tab.get z t k := by
  induction t with
  | nil => rfl
  | cons c t ih =>
    obtain ⟨k', v⟩ := c
    rw [List.filter_cons]
    by_cases hk : k' = k
    · subst hk
      rw [if_pos (h v)]
      simp [Tab.get]
    · split
      · simpa [Tab.get, hk] using ih
      · simpa [Tab.get, hk] using ih

theorem Memory.get_clear_of_mem {m : Memory} (hlost : m.lost = none) {p : Nat → Bool} {a : Nat} (ha : p a = true) : (m.clear p).get a = 0 := by
  simp only [Memory.get, Memory.clear, hlost, Memory.dflt]
  exact Tab.get_filter_of_not _ _ fun _ => by simp [ha]

theorem Memory.get_clear_of_notMem {m : Memory} (hlost : m.lost = none) {p : Nat → Bool} {a : Nat} (ha : p a = false) : (m.clear p).get a = m.get a := by
  simp only [Memory.get, Memory.clear, hlost, Memory.dflt]
  exact Tab.get_filter_of_kept _ _ fun _ => by simp [ha]

section
variable {d : Device} {n : Nat} {p : Bytes}

/-! KV_POOL_SET -/

/-- Whether a pool's bitmap of so many bytes, at the start of a segment, holds a byte. -/
def inBitmap (s : Seg) (cover a : Nat) : Bool := match s.offsetOf a with
  | some o => o < cover
  | none => false

/-- The device once the bitmap of the pools is 0. -/
def Device.clearBitmap (d : Device) (n : Nat) (p : Bytes) : Device :=
  let inMap := inBitmap (d.segOwn n (fieldLe p 0 1)) (cdiv (fieldLe p 4 4) 8 + cdiv (fieldLe p 8 4) 8)
  if fieldLe p 4 4 = 0 then d else { d with mem := d.mem.clear inMap, bad := d.bad.filter (fun u => !(inMap (u * 32) && inMap (u * 32 + 31))) }

theorem clearBitmap_mem (hblocks : fieldLe p 4 4 ≠ 0) :
    (d.clearBitmap n p).mem = d.mem.clear (inBitmap (d.segOwn n (fieldLe p 0 1)) (cdiv (fieldLe p 4 4) 8 + cdiv (fieldLe p 8 4) 8)) := by
  unfold Device.clearBitmap
  dsimp only
  rw [if_neg hblocks]

/-- The registers of R322 that KV_POOL_SET loads. -/
def poolRegs (p : Bytes) : List (Fld × Nat) :=
  let f := fieldLe p
  [(Reg.HOOP_KVPOOL_HBM_VALID, b2n (f 4 4 != 0)), (Reg.HOOP_KVPOOL_HBM_SEG, f 0 1), (Reg.HOOP_KVPOOL_HBM_BLOCK_LOG2, f 2 1),
    (Reg.HOOP_KVPOOL_HBM_BLOCKS, f 4 4), (Reg.HOOP_KVPOOL_CXL_VALID, b2n (f 8 4 != 0)), (Reg.HOOP_KVPOOL_CXL_SEG, f 1 1),
    (Reg.HOOP_KVPOOL_CXL_BLOCK_LOG2, f 2 1), (Reg.HOOP_KVPOOL_CXL_BLOCKS, f 8 4), (Reg.HOOP_KVFREE_HBM_FREE, f 4 4),
    (Reg.HOOP_KVFREE_CXL_FREE, f 8 4)]

/-- Whether sessions or flips keep a hoop's pools as they are (R304, R339). -/
def Device.poolBusy (d : Device) (n : Nat) (p : Bytes) : Bool :=
  let flips := fun (blocks slot : Nat) => blocks != 0 && (d.hx n).flipSlots.contains slot
  d.flow.sessions.any (fun (x : Nat × Sess) => x.2.state != 0 && d.sessIn n x.1) || flips (fieldLe p 4 4) (fieldLe p 0 1) || flips (fieldLe p 8 4) (fieldLe p 1 1)

theorem kvPoolSet_of_busy (hbusy : d.poolBusy n p = true) : d.kvPoolSet n p = .refuse 0x100 0 := if_pos hbusy

theorem kvPoolSet_of_idle (hbusy : d.poolBusy n p = false) : d.kvPoolSet n p =
    match firstBad (d.poolChecks n p) with
    | some o => .refuse 3 o
    | none => .done ((poolRegs p).foldl (fun (d : Device) (x : Fld × Nat) => d.wr x.1 n x.2) (d.clearBitmap n p)) 0 [] :=
  if_neg fun hbusy' => Bool.false_ne_true (hbusy.symm.trans hbusy')

/-! SESSION_ALLOC -/

/-- What SESSION_ALLOC does once its parameters hold, in the device after the object table was seen. -/
def Device.allocate (d : Device) (n : Nat) (p : Bytes) : MRes :=
  let f := fieldLe p
  let need := cdiv (Nat.min (f 12 4) 4096) (f 6 2)
  if d.rd Reg.HOOP_STATUS_OVER_QUOTA n = 1 ∨ d.rd Reg.HOOP_SESSIONS_QUOTA n ≤ d.rd Reg.HOOP_KVUSE_LIVE n ∨ d.rd Reg.HOOP_KVFREE_HBM_FREE n < need then .refuse 8 0
  else match Tab.lowestFree d.flow.sessions (d.rd Reg.HOOP_SESSIONS_BASE n) (d.rd Reg.HOOP_SESSIONS_COUNT n) with
    | none => .refuse 0x100 0
    | some i =>
      let d := d.setSess i { state := 1, hoop := n, bsize := f 4 1, tpb := f 6 2, record := f 8 4, blist := f 16 8, maxlen := f 12 4, handle := f 0 4 }
      match d.growSess i need with
      | .error o => .fail ((d.setSess i {}).poolError n o 1) 0xA
      | .ok d => .done ((((d.objWrite n (f 0 4) 1 3 i).count Reg.HOOP_KVUSE_LIVE n)).overQuota n) i []

theorem sessionAlloc_of_locked (hlocked : d.rd Reg.HOOP_CFG_TABLES_LOCK n ≠ 0) : d.sessionAlloc n p =
    match (d.objSeen n (fieldLe p 0 4)).handleFree n (fieldLe p 0 4), firstBad ((d.objSeen n (fieldLe p 0 4)).allocChecks n p) with
    | some st, _ => .refuse st 0
    | none, some o => .refuse 3 o
    | none, none => (d.objSeen n (fieldLe p 0 4)).allocate n p :=
  if_neg hlocked

section
variable (hlocked : d.rd Reg.HOOP_CFG_TABLES_LOCK n ≠ 0) (hfree : (d.objSeen n (fieldLe p 0 4)).handleFree n (fieldLe p 0 4) = none)
include hlocked hfree

theorem sessionAlloc_of_bad {o : Nat} (hbad : firstBad ((d.objSeen n (fieldLe p 0 4)).allocChecks n p) = some o) : d.sessionAlloc n p = .refuse 3 o := by
  rw [sessionAlloc_of_locked hlocked, hfree, hbad]

theorem sessionAlloc_of_good (hbad : firstBad ((d.objSeen n (fieldLe p 0 4)).allocChecks n p) = none) :
    d.sessionAlloc n p = (d.objSeen n (fieldLe p 0 4)).allocate n p := by
  rw [sessionAlloc_of_locked hlocked, hfree, hbad]

end

/-- ROUTE_QUERY reads the routes of the hoop's slice. -/
def routeQueryRes (n : Nat) (d : Device) : MRes := .done d 0 (d.routes n)

/-! RECIPE_LOAD -/

/-- How RECIPE_LOAD ends where its binary cannot be read at once. -/
def Device.recipeUnread (d : Device) (h : MHdr) (p : Bytes) (e : Nat) : MRes :=
  if e = 0xA then .refuse 0xA 0
  else if e ≠ hostTier then .refuse 3 8
  else if !d.mayMaster (d.ownerFn h.hoop) then .refuse 0xA 0
  else
    let s := d.seg h.hoop (d.slotOf h.hoop (d.curMap h.hoop) (bits (fieldLe p 8 8) 47 44))
    .wait (d.openRead { kind := 7, a := h.ring, b := h.hoop, c := 0, fn := d.ownerFn h.hoop, addr := s.base + fieldLe p 8 8 % 2 ^ 44 } (fieldLe p 4 4)) 6
      (fieldLe p 0 4) (fieldLe p 4 4) []

section
variable {h : MHdr} (hlocked : d.rd Reg.HOOP_CFG_TABLES_LOCK h.hoop ≠ 0) (hsized : 64 ≤ fieldLe p 4 4 ∧ fieldLe p 4 4 ≤ 364608)
include hlocked hsized

theorem recipeLoad_of_sized : d.recipeLoad h p =
    match (d.seenVa h.hoop (fieldLe p 8 8) (fieldLe p 4 4)).readVa h.hoop (fieldLe p 8 8) (fieldLe p 4 4) with
    | .ok b => (d.seenVa h.hoop (fieldLe p 8 8) (fieldLe p 4 4)).recipeStore h.hoop (fieldLe p 0 4) (fieldLe p 4 4) b
    | .error e => (d.seenVa h.hoop (fieldLe p 8 8) (fieldLe p 4 4)).recipeUnread h p e :=
  (if_neg hlocked).trans (if_neg (by omega))

theorem recipeLoad_of_error {e : Nat}
    (he : (d.seenVa h.hoop (fieldLe p 8 8) (fieldLe p 4 4)).readVa h.hoop (fieldLe p 8 8) (fieldLe p 4 4) = .error e) :
    d.recipeLoad h p = (d.seenVa h.hoop (fieldLe p 8 8) (fieldLe p 4 4)).recipeUnread h p e := by
  rw [recipeLoad_of_sized hlocked hsized, he]

theorem recipeLoad_of_read {b : Bytes}
    (hb : (d.seenVa h.hoop (fieldLe p 8 8) (fieldLe p 4 4)).readVa h.hoop (fieldLe p 8 8) (fieldLe p 4 4) = .ok b) :
    d.recipeLoad h p = (d.seenVa h.hoop (fieldLe p 8 8) (fieldLe p 4 4)).recipeStore h.hoop (fieldLe p 0 4) (fieldLe p 4 4) b := by
  rw [recipeLoad_of_sized hlocked hsized, hb]

end

/-- The objects that a recipe names, and its own handle, have been read. -/
def Device.recipeSeen (d : Device) (n handle : Nat) (r : Recipe) : Device := (handle :: r.objects).foldl (fun d x => d.objSeen n x) d

/-- The recipes of a hoop, and the bytes that they take. -/
def Device.hoopRecipes (d : Device) (n : Nat) : List (Nat × Recipe) := d.work.recipes.filter (fun x => x.1 / 1024 == n)
def Device.storeUsed (d : Device) (n : Nat) : Nat := (d.hoopRecipes n).foldl (fun n (x : Nat × Recipe) => n + x.2.size) 0

/-- The lowest free recipe of a hoop. -/
def Device.freeRecipe (d : Device) (n : Nat) : Option Nat := (List.range 1024).find? (fun i => (d.recipe? n i).isNone)

/-- The device once a recipe lies in the store, as recipe `i`. -/
def Device.recipeStored (d : Device) (n handle i : Nat) (b : Bytes) (r : Recipe) : Device :=
  let held := (d.hoopRecipes n).flatMap (fun (x : Nat × Recipe) => x.2.parts)
  let r := { r with parts := freeParts held (held.length + 1) 0 r.size }
  let d := (r.objects.foldl (fun d x => d.objAdd n x) d).storeWrite n b r.parts
  let d := { d with work := { d.work with recipes := Tab.insert d.work.recipes (n * 1024 + i) r } }
  (d.objWrite n handle 1 2 i).count Reg.HOOP_RECIPES_LOADED n

theorem recipeStore_of_unparsed {handle len : Nat} {b : Bytes} (hparse : parseRecipe b len (d.rd Reg.HOOP_CFG_DEP_MODEL n == 1) = none) :
    d.recipeStore n handle len b = .refuse 3 8 := by
  delta Device.recipeStore
  dsimp only
  rw [hparse]

section
variable {handle len : Nat} {b : Bytes} {r : Recipe} (hparse : parseRecipe b len (d.rd Reg.HOOP_CFG_DEP_MODEL n == 1) = some r)
include hparse

theorem recipeStore_of_taken {st : Nat} (hst : (d.recipeSeen n handle r).handleFree n handle = some st) :
    d.recipeStore n handle len b = .refuse st 0 := by
  delta Device.recipeSeen at hst
  delta Device.recipeStore
  dsimp only
  rw [hparse]
  dsimp only
  rw [hst]

variable (hfree : (d.recipeSeen n handle r).handleFree n handle = none)
include hfree

theorem recipeStore_of_bad_object {st : Nat} (hst : r.objects.findSome? (fun x => (d.recipeSeen n handle r).objCheck n x) = some st) :
    d.recipeStore n handle len b = .refuse (if st = 0xB then 3 else st) 8 := by
  delta Device.recipeSeen at hst hfree
  delta Device.recipeStore
  dsimp only
  rw [hparse]
  dsimp only
  rw [hfree, hst]

variable (hobjects : r.objects.findSome? (fun x => (d.recipeSeen n handle r).objCheck n x) = none)
include hobjects

theorem recipeStore_of_full (hnone : (d.recipeSeen n handle r).freeRecipe n = none) : d.recipeStore n handle len b = .refuse 8 0 := by
  delta Device.recipeSeen at hfree hobjects hnone
  delta Device.freeRecipe at hnone
  delta Device.recipeStore
  dsimp only
  rw [hparse]
  dsimp only
  rw [hfree, hobjects]
  dsimp only
  rw [hnone]

variable {i : Nat} (hi : (d.recipeSeen n handle r).freeRecipe n = some i)
include hi

theorem recipeStore_of_free : d.recipeStore n handle len b =
    if (d.recipeSeen n handle r).rd Reg.HOOP_RECIPES_STORE_MIB n * 2 ^ 20 < (d.recipeSeen n handle r).storeUsed n + r.size then .refuse 8 0
    else .done ((d.recipeSeen n handle r).recipeStored n handle i b r) i [] := by
  delta Device.recipeSeen at hfree hobjects hi
  delta Device.freeRecipe at hi
  delta Device.recipeStore Device.recipeSeen Device.storeUsed Device.recipeStored Device.hoopRecipes
  dsimp only
  rw [hparse]
  dsimp only
  rw [hfree, hobjects]
  dsimp only
  rw [hi]

end

end

/-- Settles O42: each command of segments, pools, sessions, recipes, receive queues and routes makes its change, waits, or is refused by its own rules. -/
theorem managementMemory : Obligations.ManagementMemory := by
  intro h p s d
  dsimp only
  refine ⟨fun hc => ⟨fun st o hbad => ?_, fun hgood => ?_⟩, fun hc => ⟨fun hno => ?_, fun b hb => ?_⟩,
    fun hc => ⟨fun hbusy => ?_, fun o hbusy hbad => ?_, fun hbusy hbad => ?_⟩,
    fun hc => ⟨fun hno => ?_, fun st hlocked hst => ?_, fun o hlocked hfree hbad => ?_, fun hlocked hfree hbad => ?_⟩,
    fun hc => ⟨fun e he => ?_, fun x t y hx => ⟨fun ht => ?_, fun ht => ?_⟩⟩, fun hc => ⟨fun hin => ?_, fun hin => ?_⟩,
    fun hc => ⟨fun hno => ?_, fun hlocked hno => ?_, fun e hlocked hsized he => ?_, fun b hlocked hsized hb => ?_⟩,
    fun hc => ⟨fun hoff => ?_, fun o hon hbad => ?_, fun hon hbad hx => ?_, fun hon hbad hx => ?_⟩, fun hc => ?_⟩
  · exact refuses_of_rule hc rfl (by rw [hbad])
  · exact waitsFor_of_carries hc rfl (by rw [hgood])
  · exact refuses_of_bare hc rfl (by dsimp only; rw [hno])
  · exact answers_of_carries hc rfl (by dsimp only; rw [hb])
  · exact refuses_of_refuse hc rfl (kvPoolSet_of_busy hbusy) (by decide)
  · exact refuses_of_param hc rfl ((kvPoolSet_of_idle hbusy).trans (by rw [hbad]))
  · refine ⟨d.clearBitmap h.hoop p, answers_of_carries hc rfl ((kvPoolSet_of_idle hbusy).trans (by rw [hbad]; rfl)), fun hblocks => if_pos hblocks,
      fun hblocks hlost => ⟨fun o a ho hoff => ?_, fun a hoff => ?_⟩⟩
    · rw [clearBitmap_mem hblocks]
      exact Memory.get_clear_of_mem hlost (by simp [inBitmap, hoff, ho])
    · rw [clearBitmap_mem hblocks]
      exact Memory.get_clear_of_notMem hlost (by simp [inBitmap, hoff])
  · exact refuses_of_refuse hc rfl (if_pos (not_not.mp hno)) (by decide)
  · exact refuses_of_bare hc rfl ((sessionAlloc_of_locked hlocked).trans (by rw [hst]))
  · exact refuses_of_param hc rfl (sessionAlloc_of_bad hlocked hfree hbad)
  · refine ⟨fun hroom => ?_, fun hroom hfull => ?_, fun i hroom hi => ⟨fun o hgrow => ?_, fun d2 hgrow => ?_⟩⟩
    · exact refuses_of_refuse hc rfl ((sessionAlloc_of_good hlocked hfree hbad).trans (if_pos (by omega))) (by decide)
    · exact refuses_of_refuse hc rfl ((sessionAlloc_of_good hlocked hfree hbad).trans ((if_neg (by omega)).trans (by rw [hfull]))) (by decide)
    · exact refuses_of_fail hc rfl ((sessionAlloc_of_good hlocked hfree hbad).trans ((if_neg (by omega)).trans (by rw [hi]; dsimp only; rw [hgrow])))
    · exact answers_of_carries hc rfl ((sessionAlloc_of_good hlocked hfree hbad).trans ((if_neg (by omega)).trans (by rw [hi]; dsimp only; rw [hgrow])))
  · exact refuses_of_bare hc rfl (by simp only [Device.sessionFree, he])
  · exact refuses_of_param hc rfl (by simp only [Device.sessionFree, hx, if_pos ht])
  · exact answers_of_carries hc rfl (by simp only [Device.sessionFree, hx, if_neg (not_not.mpr ht)])
  · exact answers_of_carries hc rfl (if_pos hin)
  · exact refuses_of_param hc rfl (if_neg (by simp [hin]))
  · exact refuses_of_refuse hc rfl (if_pos (not_not.mp hno)) (by decide)
  · exact refuses_of_param hc rfl ((if_neg hlocked).trans (if_pos (by omega)))
  · have hfar {r1 r2 r3 : MRes} (hhost : e = hostTier) : (if e = 0xA then r1 else if e ≠ hostTier then r2 else r3) = r3 := by
      subst hhost
      rw [if_neg (by decide), if_neg (not_not.mpr rfl)]
    refine ⟨fun h10 => ?_, fun h10 hno => ?_, fun hhost hmaster => ?_, fun hhost hmaster => ?_⟩
    · exact refuses_of_bare hc rfl ((recipeLoad_of_error hlocked hsized he).trans (if_pos h10))
    · exact refuses_of_param hc rfl ((recipeLoad_of_error hlocked hsized he).trans ((if_neg h10).trans (if_pos hno)))
    · exact refuses_of_bare hc rfl ((recipeLoad_of_error hlocked hsized he).trans ((hfar hhost).trans (if_pos (by simp [hmaster]))))
    · exact waitsFor_of_carries hc rfl ((recipeLoad_of_error hlocked hsized he).trans ((hfar hhost).trans (if_neg (by simp [hmaster]))))
  · refine ⟨fun hz => ?_, fun z hz => ⟨fun st hst => ?_, fun st hfree hst => ?_, fun hfree hobjects => ⟨fun hfull => ?_, fun i hi hroom => ?_⟩⟩⟩
    · exact refuses_of_param hc rfl ((recipeLoad_of_read hlocked hsized hb).trans (recipeStore_of_unparsed hz))
    · exact refuses_of_bare hc rfl ((recipeLoad_of_read hlocked hsized hb).trans (recipeStore_of_taken hz hst))
    · exact refuses_of_rule hc rfl ((recipeLoad_of_read hlocked hsized hb).trans (recipeStore_of_bad_object hz hfree hst))
    · have hseen := recipeLoad_of_read hlocked hsized hb
      rcases hi : ((d.seenVa h.hoop (fieldLe p 8 8) (fieldLe p 4 4)).recipeSeen h.hoop (fieldLe p 0 4) z).freeRecipe h.hoop with _ | i
      · exact refuses_of_bare hc rfl (hseen.trans (recipeStore_of_full hz hfree hobjects hi))
      · exact refuses_of_bare hc rfl (hseen.trans ((recipeStore_of_free hz hfree hobjects hi).trans (if_pos (hfull.resolve_left fun hnone =>
          Option.some_ne_none i (hi.symm.trans hnone)))))
    · exact answers_of_carries (d2 := ((d.seenVa h.hoop (fieldLe p 8 8) (fieldLe p 4 4)).recipeSeen h.hoop (fieldLe p 0 4) z).recipeStored h.hoop (fieldLe p 0 4) i b z)
        hc rfl ((recipeLoad_of_read hlocked hsized hb).trans ((recipeStore_of_free hz hfree hobjects hi).trans (if_neg (Nat.not_lt.mpr hroom))))
  · exact answers_of_carries hc rfl (if_pos hoff)
  · exact refuses_of_param hc rfl ((if_neg hon).trans (by rw [hbad]))
  · exact refuses_of_refuse hc rfl ((if_neg hon).trans (by rw [hbad]; exact if_pos hx)) (by decide)
  · exact answers_of_carries hc rfl ((if_neg hon).trans (by rw [hbad]; exact if_neg (not_not.mpr hx)))
  · exact answers_of_carries (f := routeQueryRes h.hoop) hc rfl rfl

end Sys2Proof.Machine

/-! The management commands of wheel, time, board and power (R44, R361, R368, R369, R371, R455, R456, R470). -/

namespace Sys2Proof.Machine

section
variable {d : Device} {p : Bytes}

theorem wheelLoad_of_sized (hsized : 1 ≤ fieldLe p 0 2 ∧ fieldLe p 0 2 ≤ 256 ∧ p.length = 8 + 320 * fieldLe p 0 2) (hzero : zeroAt p 2 6 = true) :
    d.wheelLoad p =
      let rows := (List.range (fieldLe p 0 2)).map (fun i => parseRow (slice p (8 + 320 * i) 320))
      match rows.findIdx? (fun r => !r.2) with
      | some i => .refuse 3 (8 + 320 * i)
      | none => .done { d with wheel := { d.wheel with pending := some (rows.map (·.1)) } } 0 [] :=
  (if_neg (by omega)).trans (if_neg (by simp [hzero]))

end

/-- POWER_QUERY reads the power registers and the hottest reading of each zone. -/
def powerQueryRes (d : Device) : MRes := .done d 0 d.powerReply

/-- Settles O43: each command of the wheel, time, board and power makes its change, or is refused by its own rules. -/
theorem managementModule : Obligations.ManagementModule := by
  intro h p s d
  dsimp only
  refine ⟨?_, fun hc => ⟨fun hno => ?_, fun hown hv => ?_, fun hown hlo hhi => ?_⟩,
    fun hc => ⟨fun hrole => ?_, fun hrole hb => ?_, fun hrole hb => ?_, fun hrole hb => ?_⟩, fun hc => ⟨fun hrole => ?_, fun hrole => ?_⟩,
    fun hc => ⟨fun hb => ?_, fun hb => ?_⟩, fun hc => ⟨fun hlo hhi => ?_, fun hv => ?_⟩, fun hc => answers_of_carries (f := powerQueryRes) hc rfl rfl,
    fun hc => ⟨fun hb => ?_, fun hb hk => ?_, fun hb hk => ?_⟩⟩
  · rintro n rfl hc
    refine ⟨fun hno => ?_, fun hsized hzero => ?_, fun i hsized hzero hi => ?_, fun hsized hzero hall => ?_⟩
    · exact refuses_of_param hc rfl (if_pos (by omega))
    · exact refuses_of_param hc rfl ((if_neg (by omega)).trans (if_pos (by simp [hzero])))
    · exact refuses_of_param hc rfl ((wheelLoad_of_sized hsized hzero).trans (by dsimp only; rw [hi]))
    · have hnone : ((List.range (fieldLe p 0 2)).map (fun i => parseRow (slice p (8 + 320 * i) 320))).findIdx? (fun r => !r.2) = none :=
        List.findIdx?_eq_none_iff.mpr fun r hr => by simp [hall r hr]
      exact answers_of_carries hc rfl ((wheelLoad_of_sized hsized hzero).trans (by dsimp only; rw [hnone]))
  · exact refuses_of_bare hc rfl (if_pos (by simpa [imp_iff_not_or] using hno))
  · exact refuses_of_param hc rfl ((if_neg (by simpa using hown)).trans (if_pos hv))
  · exact answers_of_carries hc rfl ((if_neg (by simpa using hown)).trans (if_neg (by omega)))
  · exact refuses_of_bare hc rfl (if_pos hrole)
  · exact refuses_of_param hc rfl ((if_neg (not_not.mpr hrole)).trans (if_pos hb))
  · refine answers_of_carries hc rfl ((if_neg (not_not.mpr hrole)).trans ((if_neg (by omega)).trans ?_))
    rw [hb]
    rfl
  · refine answers_of_carries hc rfl ((if_neg (not_not.mpr hrole)).trans ((if_neg (by omega)).trans ?_))
    rw [hb]
    rfl
  · exact answers_of_carries hc rfl (if_pos hrole)
  · exact refuses_of_bare hc rfl (if_neg hrole)
  · exact refuses_of_param hc rfl (if_pos hb)
  · exact answers_of_carries hc rfl (if_neg (by omega))
  · exact answers_of_carries hc rfl (if_neg (by omega))
  · exact refuses_of_param hc rfl (if_pos hv)
  · exact refuses_of_param hc rfl (if_pos hb)
  · exact refuses_of_param hc rfl ((if_neg (by omega)).trans (if_pos hk))
  · exact answers_of_carries hc rfl ((if_neg (by omega)).trans (if_neg (by omega)))

end Sys2Proof.Machine

/-! The management commands of statistics, trace, watchpoints, debug and perturbation (R434 to R448). -/

namespace Sys2Proof.Machine

/-- A field of `n` bytes is below 256 to the `n`. -/
theorem ofLe_lt (b : Bytes) : ofLe b < 256 ^ b.length := by
  induction b with
  | nil => simp [ofLe]
  | cons x t ih =>
    have hx := x.isLt
    rw [ofLe, List.length_cons, Nat.pow_succ]
    omega

theorem fieldLe_lt (b : Bytes) (o n : Nat) : fieldLe b o n < 256 ^ n := by
  have h := ofLe_lt (slice b o n)
  rwa [slice_length] at h

theorem firstBad_cons (o : Nat) (b : Bool) (l : List (Nat × Bool)) : firstBad ((o, b) :: l) = if b then firstBad l else some o := by
  cases b <;> simp [firstBad]

theorem firstBad_eq_none_iff (l : List (Nat × Bool)) : firstBad l = none ↔ ∀ x ∈ l, x.2 = true := by
  simp [firstBad]

section
variable {d : Device} {h : MHdr} {p : Bytes} {n : Nat}

/-! HISTOGRAM_CONFIG -/

/-- The parameters of HISTOGRAM_CONFIG that break a rule. -/
def histBad (p : Bytes) : Option Nat :=
  firstBad [(0, fieldLe p 0 1 ≤ 4 || (8 ≤ fieldLe p 0 1 && fieldLe p 0 1 ≤ 14)), (1, fieldLe p 1 1 ≤ 31),
    (2, if fieldLe p 0 1 = 1 then fieldLe p 2 1 ≤ 10 else fieldLe p 2 1 == 0)]

/-- The conditions on TYPE, SHIFT and RATE_LOG2. -/
def histKnown (p : Bytes) : Prop := fieldLe p 0 1 ≤ 4 ∨ (8 ≤ fieldLe p 0 1 ∧ fieldLe p 0 1 ≤ 14)
def histRated (p : Bytes) : Prop := if fieldLe p 0 1 = 1 then fieldLe p 2 1 ≤ 10 else fieldLe p 2 1 = 0

theorem histKnown_iff (p : Bytes) : (decide (fieldLe p 0 1 ≤ 4) || (decide (8 ≤ fieldLe p 0 1) && decide (fieldLe p 0 1 ≤ 14))) = true ↔ histKnown p := by
  simp [histKnown]

theorem histRated_iff (p : Bytes) : (if fieldLe p 0 1 = 1 then decide (fieldLe p 2 1 ≤ 10) else fieldLe p 2 1 == 0) = true ↔ histRated p := by
  unfold histRated
  split <;> simp

theorem histBad_of_unknown (hk : ¬ histKnown p) : histBad p = some 0 :=
  (firstBad_cons ..).trans (if_neg (mt (histKnown_iff p).mp hk))

section
variable (hk : histKnown p)
include hk

theorem histBad_of_shift (hshift : 31 < fieldLe p 1 1) : histBad p = some 1 :=
  ((firstBad_cons ..).trans (if_pos ((histKnown_iff p).mpr hk))).trans ((firstBad_cons ..).trans (if_neg (by simpa using hshift)))

theorem histBad_of_known (hshift : fieldLe p 1 1 ≤ 31) :
    histBad p = firstBad [(2, if fieldLe p 0 1 = 1 then fieldLe p 2 1 ≤ 10 else fieldLe p 2 1 == 0)] :=
  ((firstBad_cons ..).trans (if_pos ((histKnown_iff p).mpr hk))).trans ((firstBad_cons ..).trans (if_pos (by simpa using hshift)))

theorem histBad_of_rate (hshift : fieldLe p 1 1 ≤ 31) (hrate : ¬ histRated p) : histBad p = some 2 :=
  (histBad_of_known hk hshift).trans ((firstBad_cons ..).trans (if_neg (mt (histRated_iff p).mp hrate)))

theorem histBad_of_rated (hshift : fieldLe p 1 1 ≤ 31) (hrate : histRated p) : histBad p = none :=
  (histBad_of_known hk hshift).trans ((firstBad_cons ..).trans (if_pos ((histRated_iff p).mpr hrate)))

end

theorem histConfig_of_bad {o : Nat} (hmay : ¬ (8 ≤ fieldLe p 0 1 ∧ fieldLe p 0 1 ≤ 14 ∧ h.ring ≠ 0)) (hbad : histBad p = some o) :
    d.histConfig h p = .refuse 3 o :=
  (if_neg hmay).trans (by rw [show firstBad _ = some o from hbad])

theorem histConfig_of_good (hmay : ¬ (8 ≤ fieldLe p 0 1 ∧ fieldLe p 0 1 ≤ 14 ∧ h.ring ≠ 0)) (hgood : histBad p = none) :
    d.histConfig h p =
      if fieldLe p 0 1 ≤ 4 then
        .done (d.modHstat h.hoop (fun x => { x with
          hists := Tab.put (histNew (fieldLe p 0 1)) x.hists (fieldLe p 0 1) { x.hist (fieldLe p 0 1) with next := some (fieldLe p 1 1, fieldLe p 2 1) } })) 0 []
      else
        let x := Tab.get (histNew (fieldLe p 0 1)) d.stat.hists (fieldLe p 0 1)
        .done { d with stat := { d.stat with
          hists := Tab.put (histNew (fieldLe p 0 1)) d.stat.hists (fieldLe p 0 1) { x with next := some (fieldLe p 1 1, x.rate) } } } 0 [] :=
  (if_neg hmay).trans (by rw [show firstBad _ = none from hgood])

/-! COUNTER_READ -/

theorem counterRead_page (hk : fieldLe p 0 1 = 0) : d.counterRead p = .done d 0 (slice d.stat.page 0 4096) := by
  rw [Device.counterRead, hk]
  rfl

theorem counterRead_summaries (hk : fieldLe p 0 1 = 1) :
    d.counterRead p = if d.role = 2 then .done d 0 d.summaries else .refuse 0x100 0 := by
  rw [Device.counterRead, hk]
  rfl

theorem counterRead_other (hk : 1 < fieldLe p 0 1) : d.counterRead p = .refuse 3 0 := by
  unfold Device.counterRead
  split
  · omega
  · omega
  · rfl

/-- WATCH_CLEAR clears the watchpoints of a mask. -/
def watchClearRes (n : Nat) (p : Bytes) (d : Device) : MRes := .done (d.watchClear n p) 0 []

/-! Debug -/

/-- What DEBUG_UNLOCK does by its MODE. -/
theorem exec_debug {s : State} {mode : Nat} (hmode : fieldLe p 0 1 = mode ∨ 2 < fieldLe p 0 1) :
    s.debug mode h p = s.done (s.dev.mgmt { op := 0x58, len := fun n => if fieldLe p 0 1 = 1 then n == 272 else n == 1, reply := if fieldLe p 0 1 = 0 then 32 else 0 } h p
      (fun d => d.debugCmd s.nv.fuses p)) :=
  congrArg s.done (if_pos hmode)

theorem exec_unlock {s : State} (hk : fieldLe p 0 1 = 1) :
    exec (.debugUnlock h p) s = s.done (s.dev.mgmt { op := 0x58, len := fun n => n == 272 } h p (fun d => d.debugCmd s.nv.fuses p)) :=
  (exec_debug (.inl hk)).trans (by rw [hk]; rfl)

/-- The packets of other MODEs have one byte and no reply. -/
theorem exec_other {s : State} {mode : Nat} (hmode : fieldLe p 0 1 = mode ∨ 2 < fieldLe p 0 1) (hk : 2 ≤ fieldLe p 0 1) :
    s.debug mode h p = s.done (s.dev.mgmt { op := 0x58, len := fun n => n == 1 } h p (fun d => d.debugCmd s.nv.fuses p)) :=
  (exec_debug hmode).trans (by
    have hne : fieldLe p 0 1 ≠ 1 ∧ fieldLe p 0 1 ≠ 0 := by omega
    simp only [if_neg hne.1, if_neg hne.2])

theorem debugCmd_nonce {f : Fuses} (hk : fieldLe p 0 1 = 0) : d.debugCmd f p = d.debugNonce := by
  rw [Device.debugCmd, hk]
  rfl

theorem debugCmd_unlock {f : Fuses} (hk : fieldLe p 0 1 = 1) : d.debugCmd f p = d.debugUnlock f p := by
  rw [Device.debugCmd, hk]
  rfl

theorem debugCmd_relock {f : Fuses} (hk : fieldLe p 0 1 = 2) : d.debugCmd f p = .done d.relock 0 [] := by
  rw [Device.debugCmd, hk]
  rfl

theorem debugCmd_other {f : Fuses} (hk : 2 < fieldLe p 0 1) : d.debugCmd f p = .refuse 3 0 := by
  unfold Device.debugCmd
  split
  · omega
  · omega
  · omega
  · rfl

theorem debugUnlock_of_token {f : Fuses} (hzero : zeroAt p 1 7 = true) (hrights : fieldLe (p.drop 8) 64 4 ≤ 1) :
    d.debugUnlock f p =
      let t := p.drop 8
      let d2 : Device := { d with stat := { d.stat with nonce := none } }
      if !d.tokenOk f t then .fail d2 0x102
      else
        let d3 := (d2.wr Reg.DEBUG_STATUS_UNLOCKED 0 1).wr Reg.DEBUG_STATUS_REMAINING 0 (fieldLe t 68 4)
        .done (Device.post { d3 with stat := { d3.stat with rights := fieldLe t 64 4, expires := fieldLe t 68 4 != 0 } } { code := 0x60 }) 0 [] :=
  (if_neg (by simp [hzero])).trans (if_neg (Nat.not_lt.mpr hrights))

/-- Every perturbation entry is disabled. -/
def Device.perturbOff (d : Device) : Device := (List.range 8).foldl (fun d n => d.wr Reg.PERTURB_CFG_TARGET n 0) d

theorem perturbOff_target (d : Device) {i : Nat} (hi : i < 8) : d.perturbOff.rd Reg.PERTURB_CFG_TARGET i = 0 :=
  Device.rd_foldl_of_mem (fun d i => Device.rd_wr_same ..) (fun d i j hij => Device.rd_wr_ne _ _ _ _ _ _ (by
    simp only [Fld.key, Reg.PERTURB_CFG_TARGET]
    omega)) (List.mem_range.mpr hi) d

theorem perturbOff_rd (d : Device) {f : Fld} (hf : f.key 0 < Reg.PERTURB_CFG_TARGET.key 0) : d.perturbOff.rd f 0 = d.rd f 0 :=
  d.rd_foldl_wr_of_ne Reg.PERTURB_CFG_TARGET f 0 (fun n => n) (fun _ => 0) (List.range 8) fun n _ => by
    simp only [Fld.key, Reg.PERTURB_CFG_TARGET] at hf ⊢
    omega

theorem perturbOff_mem (d : Device) : d.perturbOff.mem = d.mem :=
  List.foldlRecOn (motive := fun e : Device => e.mem = d.mem) _ _ rfl fun _ he _ _ => he

/-- The registers of DEBUG_STATUS after an unlock has ended. -/
def Device.unlockEnded (d : Device) : Device :=
  ((d.wr Reg.DEBUG_STATUS_UNLOCKED 0 0).wr Reg.DEBUG_STATUS_PERTURB_ACTIVE 0 0).wr Reg.DEBUG_STATUS_REMAINING 0 0

theorem relock_rd (d : Device) (f : Fld) (i : Nat) : d.relock.rd f i = d.unlockEnded.perturbOff.rd f i := rfl

theorem unlockEnded_unlocked (d : Device) : d.unlockEnded.rd Reg.DEBUG_STATUS_UNLOCKED = 0 := by
  rw [Device.unlockEnded, Device.rd_wr_ne _ _ _ _ _ _ (by decide), Device.rd_wr_ne _ _ _ _ _ _ (by decide), Device.rd_wr_same, Nat.zero_mod]

theorem unlockEnded_active (d : Device) : d.unlockEnded.rd Reg.DEBUG_STATUS_PERTURB_ACTIVE = 0 := by
  rw [Device.unlockEnded, Device.rd_wr_ne _ _ _ _ _ _ (by decide), Device.rd_wr_same, Nat.zero_mod]

/-! PERTURB_SET -/

/-- The parameters of PERTURB_SET that break a rule. -/
def perturbBad (p : Bytes) : Option Nat :=
  firstBad [(0, fieldLe p 0 1 ≤ 7), (1, fieldLe p 1 1 ≤ 5), (2, fieldLe p 2 1 ≤ selectMax (fieldLe p 1 1)), (3, fieldLe p 3 1 ≤ 15),
    (4, fieldLe p 1 1 != 5 || fieldLe p 4 2 == 0)]

/-- The registers and the generator of a perturbation entry are set. -/
def Device.perturbRegs (d : Device) (p : Bytes) : Device :=
  let n := fieldLe p 0 1
  let d := ((d.wr Reg.PERTURB_CFG_TARGET n (fieldLe p 1 1)).wr Reg.PERTURB_CFG_SELECT n (fieldLe p 2 1)).wr Reg.PERTURB_CFG_RATE_LOG2 n (fieldLe p 3 1)
  ((d.wr Reg.PERTURB_CFG_DELAY n (fieldLe p 4 2)).wr Reg.PERTURB_CFG_SEED n (fieldLe p 6 2)).wr Reg.PERTURB_HITS_HITS n 0

def Device.perturbGen (d : Device) (p : Bytes) : Device :=
  { d with stat := { d.stat with gens := Tab.put 1 d.stat.gens (fieldLe p 0 1) (if fieldLe p 6 2 = 0 then 1 else fieldLe p 6 2) } }

/-- PERTURB_ACTIVE and the sticky marks of the module and its hoops follow the entries. -/
def Device.perturbShown (d : Device) : Device :=
  let on := d.perturbing
  let d := d.wr Reg.DEBUG_STATUS_PERTURB_ACTIVE 0 (b2n on)
  let d := { d with stat := { d.stat with perturbed := d.stat.perturbed || on } }
  if on then (List.range 8).foldl (fun d h => if d.hoopState h = 0 then d else d.modHstat h (fun x => { x with perturbed := true })) d else d

theorem perturbSet_of_allowed (hallowed : d.rd Reg.DEBUG_STATUS_UNLOCKED ≠ 0 ∧ d.stat.rights % 2 = 1) : d.perturbSet p =
    match perturbBad p with
    | some o => .refuse 3 o
    | none => .done ((d.perturbRegs p).perturbGen p).perturbShown 0 [] :=
  if_neg (by omega)

/-- What shows that perturbation is on leaves the entries and memory as they are. -/
theorem perturbShown_kept (d : Device) : d.perturbShown.regs = (d.wr Reg.DEBUG_STATUS_PERTURB_ACTIVE 0 (b2n d.perturbing)).regs ∧
    d.perturbShown.mem = d.mem ∧ d.perturbShown.stat.gens = d.stat.gens := by
  unfold Device.perturbShown
  dsimp only
  split
  · refine List.foldlRecOn (motive := fun e : Device => e.regs = (d.wr Reg.DEBUG_STATUS_PERTURB_ACTIVE 0 (b2n d.perturbing)).regs ∧ e.mem = d.mem ∧
      e.stat.gens = d.stat.gens) _ _ ⟨rfl, rfl, rfl⟩ fun e he x _ => ?_
    split
    · exact he
    · exact he
  · exact ⟨rfl, rfl, rfl⟩

theorem perturbShown_rd (d : Device) (f : Fld) (i : Nat) (hf : f.key i ≠ Reg.DEBUG_STATUS_PERTURB_ACTIVE.key 0) : d.perturbShown.rd f i = d.rd f i := by
  have hregs : d.perturbShown.rd f i = (d.wr Reg.DEBUG_STATUS_PERTURB_ACTIVE 0 (b2n d.perturbing)).rd f i := by
    simp only [Device.rd, (perturbShown_kept d).1]
  rw [hregs, Device.rd_wr_ne _ _ _ _ _ _ hf]

/-- A perturbation entry's registers read as they were set, where its parameters hold. -/
theorem perturbRegs_rd (hgood : perturbBad p = none) :
    (d.perturbRegs p).rd Reg.PERTURB_CFG_TARGET (fieldLe p 0 1) = fieldLe p 1 1 ∧ (d.perturbRegs p).rd Reg.PERTURB_CFG_SELECT (fieldLe p 0 1) = fieldLe p 2 1 ∧
    (d.perturbRegs p).rd Reg.PERTURB_CFG_RATE_LOG2 (fieldLe p 0 1) = fieldLe p 3 1 ∧ (d.perturbRegs p).rd Reg.PERTURB_CFG_DELAY (fieldLe p 0 1) = fieldLe p 4 2 ∧
    (d.perturbRegs p).rd Reg.PERTURB_CFG_SEED (fieldLe p 0 1) = fieldLe p 6 2 ∧ (d.perturbRegs p).rd Reg.PERTURB_HITS_HITS (fieldLe p 0 1) = 0 := by
  have hall := (firstBad_eq_none_iff _).mp hgood
  simp only [List.forall_mem_cons, decide_eq_true_eq] at hall
  obtain ⟨-, htarget, hselect, hrate, -⟩ := hall
  have hmax : selectMax (fieldLe p 1 1) ≤ 7 := by
    unfold selectMax
    split <;> decide
  have hdelay := fieldLe_lt p 4 2
  have hseed := fieldLe_lt p 6 2
  unfold Device.perturbRegs
  refine ⟨?_, ?_, ?_, ?_, ?_, Device.rd_wr_same ..⟩
  all_goals
    simp (disch := (simp only [Fld.key, Reg.PERTURB_CFG_TARGET, Reg.PERTURB_CFG_SELECT, Reg.PERTURB_CFG_RATE_LOG2, Reg.PERTURB_CFG_DELAY, Reg.PERTURB_CFG_SEED, Reg.PERTURB_HITS_HITS]; omega)) only [Device.rd_wr_ne, Device.rd_wr_same]
    refine Nat.mod_eq_of_lt ?_
    simp only [Reg.PERTURB_CFG_TARGET, Reg.PERTURB_CFG_SELECT, Reg.PERTURB_CFG_RATE_LOG2, Reg.PERTURB_CFG_DELAY, Reg.PERTURB_CFG_SEED]
    omega

end

/-- Settles O44: each command of statistics, trace, watchpoints, debug and perturbation makes its change, or is refused by its own rules. -/
theorem managementStatistics : Obligations.ManagementStatistics := by
  intro h p s d
  dsimp only
  refine ⟨fun hc => ⟨fun o hbad => ?_, fun hbad => ?_⟩,
    fun hc => ⟨fun hlo hhi hring => ?_, fun hmay => ⟨fun hk => ?_, fun hk hshift => ?_, fun hk hshift hrate => ?_, fun hk hshift hrate => ?_, fun hlo hhi hshift hrate => ?_⟩⟩,
    fun hc => ⟨fun hbusy => ?_, fun o hbusy hbad => ?_, fun hbusy hbad => ?_⟩,
    fun hc => ⟨fun hk => ?_, fun hk hrole => ?_, fun hk hrole => ?_, fun hk => ?_⟩, fun hc => ⟨fun o hbad => ?_, fun hbad => ?_⟩,
    fun hc => answers_of_carries (f := watchClearRes h.hoop p) hc rfl rfl, fun hk hc => ?_,
    fun hk hc => ⟨fun hzero => ?_, fun hzero hrights => ?_, fun hzero hrights => ⟨fun htoken => ?_, fun htoken => ?_⟩⟩, fun hk hc => ?_, fun hk hc => ?_,
    fun hlive hunlocked hexpires hremaining => .of_done rfl (if_pos (by simp [hlive, hunlocked, hexpires, hremaining])),
    ⟨?_, ?_, fun i hi => perturbOff_target _ hi, perturbOff_mem _⟩, fun hc => ⟨fun hno => ?_, fun o hallowed hbad => ?_, fun hallowed hbad => ?_⟩⟩
  · exact refuses_of_param hc rfl (by rw [Device.statsConfig, hbad])
  · exact answers_of_carries hc rfl (by rw [Device.statsConfig, hbad])
  · exact refuses_of_bare hc rfl (if_pos ⟨hlo, hhi, hring⟩)
  · exact refuses_of_param hc rfl (histConfig_of_bad hmay (histBad_of_unknown hk))
  · exact refuses_of_param hc rfl (histConfig_of_bad hmay (histBad_of_shift hk hshift))
  · refine refuses_of_param hc rfl (histConfig_of_bad hmay (histBad_of_rate hk hshift fun hrated => ?_))
    unfold histRated at hrated
    split at hrate
    next hone => exact Nat.not_lt.mpr (by simpa [hone] using hrated) hrate
    next hone => exact hrate (by simpa [hone] using hrated)
  · exact answers_of_carries hc rfl ((histConfig_of_good hmay (histBad_of_rated (.inl hk) hshift hrate)).trans (if_pos hk))
  · have hrated : histRated p := by
      rw [histRated, if_neg (by omega)]
      exact hrate
    exact answers_of_carries hc rfl ((histConfig_of_good hmay (histBad_of_rated (.inr ⟨hlo, hhi⟩) hshift hrated)).trans (if_neg (by omega)))
  · exact refuses_of_bare hc rfl (if_pos hbusy)
  · exact refuses_of_param hc rfl ((if_neg hbusy).trans (by rw [hbad]))
  · exact answers_of_carries hc rfl ((if_neg hbusy).trans (by rw [hbad]))
  · exact answers_of_carries hc rfl (counterRead_page hk)
  · exact answers_of_carries hc rfl ((counterRead_summaries hk).trans (if_pos hrole))
  · exact refuses_of_bare hc rfl ((counterRead_summaries hk).trans (if_neg hrole))
  · exact refuses_of_param hc rfl (counterRead_other hk)
  · exact refuses_of_param hc rfl (by rw [Device.watchSet, hbad])
  · exact answers_of_carries hc rfl (by rw [Device.watchSet, hbad])
  · have hexec : exec (.debugNonce h p) s = s.done (s.dev.mgmt { op := 0x58, len := fun n => n == 1, reply := 32 } h p (fun d => d.debugCmd s.nv.fuses p)) :=
      (exec_debug (.inl hk)).trans (by rw [hk]; rfl)
    exact answers_of_carries hc hexec (by rw [debugCmd_nonce hk]; rfl)
  · exact refuses_of_param hc (exec_unlock hk) ((debugCmd_unlock hk).trans (if_pos (by simp [hzero])))
  · exact refuses_of_param hc (exec_unlock hk) ((debugCmd_unlock hk).trans ((if_neg (by simp [hzero])).trans (if_pos hrights)))
  · exact refuses_of_fail hc (exec_unlock hk) ((debugCmd_unlock hk).trans ((debugUnlock_of_token hzero hrights).trans (if_pos (by simp [htoken]))))
  · exact answers_of_carries hc (exec_unlock hk) ((debugCmd_unlock hk).trans ((debugUnlock_of_token hzero hrights).trans (if_neg (by simp [htoken]))))
  · exact answers_of_carries (c := .debugRelock h p) hc (exec_other (.inl hk) (by omega)) (debugCmd_relock hk)
  · exact ⟨refuses_of_param (c := .debugNonce h p) hc (exec_other (.inr hk) (by omega)) (debugCmd_other hk), refuses_of_param (c := .debugUnlock h p) hc (exec_other (.inr hk) (by omega)) (debugCmd_other hk),
      refuses_of_param (c := .debugRelock h p) hc (exec_other (.inr hk) (by omega)) (debugCmd_other hk)⟩
  · exact (relock_rd ..).trans ((perturbOff_rd _ (by decide)).trans (unlockEnded_unlocked d))
  · exact (relock_rd ..).trans ((perturbOff_rd _ (by decide)).trans (unlockEnded_active d))
  · exact refuses_of_bare hc rfl (if_pos (by omega))
  · exact refuses_of_param hc rfl ((perturbSet_of_allowed hallowed).trans (by rw [show perturbBad p = some o from hbad]))
  · have hshown (f : Fld) (hf : f.key (fieldLe p 0 1) ≠ Reg.DEBUG_STATUS_PERTURB_ACTIVE.key 0) :
        ((d.perturbRegs p).perturbGen p).perturbShown.rd f (fieldLe p 0 1) = (d.perturbRegs p).rd f (fieldLe p 0 1) := (perturbShown_rd _ f _ hf).trans rfl
    have hkept := perturbShown_kept ((d.perturbRegs p).perturbGen p)
    obtain ⟨htarget, hselect, hrate, hdelay, hseed, hhits⟩ := perturbRegs_rd (d := d) (p := p) hbad
    refine ⟨((d.perturbRegs p).perturbGen p).perturbShown, answers_of_carries hc rfl ((perturbSet_of_allowed hallowed).trans (by rw [show perturbBad p = none from hbad])),
      (hshown _ ?_).trans htarget, (hshown _ ?_).trans hselect, (hshown _ ?_).trans hrate, (hshown _ ?_).trans hdelay, (hshown _ ?_).trans hseed,
      (hshown _ ?_).trans hhits, ?_, hkept.2.1⟩
    case refine_7 =>
      rw [hkept.2.2]
      exact Tab.get_put_same ..
    all_goals
      simp only [Fld.key, Reg.PERTURB_CFG_TARGET, Reg.PERTURB_CFG_SELECT, Reg.PERTURB_CFG_RATE_LOG2, Reg.PERTURB_CFG_DELAY, Reg.PERTURB_CFG_SEED, Reg.PERTURB_HITS_HITS,
        Reg.DEBUG_STATUS_PERTURB_ACTIVE]
      omega

end Sys2Proof.Machine

/-! Settlements, flips and chains (R28, R66, R308, R309, R315 to R320, R335 to R339). -/

namespace Sys2Proof.Machine

/-- A session of hoop 0, with a handle outside every segment, whose descriptor is uncorrectable and whose count has reached 0. -/
def releasedSess : Sess := { state := 3, handle := 2 ^ 48, rel := true, err := true }

/-- A running module with that session and a full release ring, where the ring has failed for the line of the error queue's next record. -/
def brokenReport : Device :=
  { flow := { sessions := [(0, releasedSess)] }, coh := { faults := [(3, 4, reserveAddr false / 128)] }, life := { powered := true }
    regs := Tab.insert (Tab.insert [(Reg.BOOT_STATUS_STAGE.key 0, 4)] (Reg.HOOP_SESSIONS_COUNT.key 0) 1) (Reg.HOOP_RELQ_PTR_TAIL.key 0) 1 }

/-- The record of the damaged session meets the failed ring, so the module's fatal event comes first and the session is not released. -/
theorem brokenReport_runs : (match exec (.sessionRelease 0) (Tests.st brokenReport) with
    | .next t => t.dev.life.fatal && (t.dev.sess 0).rel
    | _ => false) = true := by
  decide +kernel

/-- The device after the release of a damaged session. -/
def releasedDevice : Device :=
  let d := brokenReport.sessMet 0 0
  ((((d.wr Reg.HOOP_KVUSE_DAMAGED 0 (d.rd Reg.HOOP_KVUSE_DAMAGED 0 - 1)).setSess 0 {}).objWrite 0 (2 ^ 48) 0 0 0).relPost 0 (2 ^ 48) 3).overQuota 0

theorem releasedDevice_freed : (releasedDevice.sess 0).rel = false := by
  decide +kernel

theorem brokenReport_live : brokenReport.live = true ∧ (brokenReport.sess 0).rel = true ∧ (brokenReport.sess 0).hoop = 0 := by
  decide +kernel

/-- Once the record is posted the session can be released: it has no access under way, and its count has reached 0. -/
theorem brokenReport_met : (brokenReport.sessMet 0 0).sess 0 = { releasedSess with err := false } ∧ (brokenReport.sessMet 0 0).sessBusy 0 = false := by
  decide +kernel

/-- Refutes O32: a SESSION_RELEASE first reports the session's uncorrectable descriptor, and where that report ends in a fatal event the session is not
released. -/
theorem not_settlementsFlipsChains : ¬ Obligations.SettlementsFlipsChains := by
  intro h
  obtain ⟨hlive, hrel, hhoop⟩ := brokenReport_live
  obtain ⟨hsess, hidle⟩ := brokenReport_met
  obtain ⟨-, -, hrest⟩ := h.1 0 0 (Tests.st brokenReport) { bytes := [], ptr := 0 }
  obtain ⟨-, -, -, hrelease⟩ := hrest hlive
  have hgives := (hrelease hrel).2
  simp only [Tests.st, hhoop, hsess, hidle, releasedSess] at hgives
  have hreleased : Gives (.sessionRelease 0) (Tests.st brokenReport) releasedDevice := hgives trivial trivial
  have hruns := brokenReport_runs
  rw [show exec (.sessionRelease 0) (Tests.st brokenReport) = _ from hreleased] at hruns
  simp only [Bool.and_eq_true, releasedDevice_freed] at hruns
  exact absurd hruns.2 (by decide)

end Sys2Proof.Machine

/-! Ring entries at their start, and the entries that wait on fences and events (R50, R57, R69, R70). -/

namespace Sys2Proof.Machine

/-! Entries at their start -/

theorem Device.onEntry_of_startable {d : Device} {q op : Nat} {e : Entry} (hstart : d.startable q op = some e) (f : Device → Entry → Device) :
    d.onEntry q op f = (f d e).settleSlot q := by
  rw [Device.onEntry, hstart]

/-- A command that starts an entry leaves what it makes of the entry, with the slot settled. -/
theorem gives_of_start {c : Instr} {s : State} {q op : Nat} {e : Entry} {f : Device → Entry → Device} (hstart : s.dev.startable q op = some e)
    (hexec : exec c s = s.done (s.dev.onEntry q op f)) {d : Device} (hf : f s.dev e = d) : Gives c s (d.settleSlot q) :=
  .of_done hexec ((Device.onEntry_of_startable hstart f).trans (by rw [hf]))

/-! What a wait meets -/

section
variable {d : Device} {h i v w st : Nat}

theorem fenceTry_of_error (hword : d.word h (d.fenceVa h i) = .error st) : d.fenceTry h i v = some (st, 0) := by
  rw [Device.fenceTry, hword]

theorem fenceTry_of_word (hword : d.word h (d.fenceVa h i) = .ok w) :
    d.fenceTry h i v = if w.testBit 63 then some (5, w) else if v ≤ w then some (0, w) else none := by
  rw [Device.fenceTry, hword]

theorem eventTry_of_error (hword : d.word h (d.eventVa h i) = .error st) : d.eventTry h i v = some st := by
  rw [Device.eventTry, hword]

theorem eventTry_of_word (hword : d.word h (d.eventVa h i) = .ok w) :
    d.eventTry h i v = if w.testBit 63 then some 6 else if ringDiff 31 w v < 2 ^ 30 then some 0 else none := by
  rw [Device.eventTry, hword]

end

/-! How a wait goes on -/

/-- A wait on a fence: it waits, ends with what it met, or ends every waiter on a word that cannot be read. -/
def Device.fenceMeet (d : Device) (q h : Nat) (who : Nat × Nat) (i : Nat) (ends : Nat → Nat → Device) : Option (Nat × Nat) → Device
  | none => d
  | some (st, w) => if st = 0 ∨ st = 5 then ends st w else (d.wordError h q who (d.fenceVa h i) st).failWaiters h 0x05 i st

/-- A wait on an event. -/
def Device.eventMeet (d : Device) (q h : Nat) (who : Nat × Nat) (i : Nat) (ends : Nat → Device) : Option Nat → Device
  | none => d
  | some st => if st = 0 ∨ st = 6 then ends st else d.eventBad h q who i st

theorem fenceMeet_ends {d : Device} {q h i st w : Nat} {who : Nat × Nat} {ends : Nat → Nat → Device} (hst : st = 0 ∨ st = 5) :
    d.fenceMeet q h who i ends (some (st, w)) = ends st w := if_pos hst

theorem fenceMeet_fails {d : Device} {q h i st w : Nat} {who : Nat × Nat} {ends : Nat → Nat → Device} (h0 : st ≠ 0) (h5 : st ≠ 5) :
    d.fenceMeet q h who i ends (some (st, w)) = (d.wordError h q who (d.fenceVa h i) st).failWaiters h 0x05 i st := if_neg (by omega)

theorem eventMeet_ends {d : Device} {q h i st : Nat} {who : Nat × Nat} {ends : Nat → Device} (hst : st = 0 ∨ st = 6) :
    d.eventMeet q h who i ends (some st) = ends st := if_pos hst

theorem eventMeet_fails {d : Device} {q h i st : Nat} {who : Nat × Nat} {ends : Nat → Device} (h0 : st ≠ 0) (h6 : st ≠ 6) :
    d.eventMeet q h who i ends (some st) = d.eventBad h q who i st := if_neg (by omega)

section
variable {s : State} {q : Nat} {e : Entry} {d : Device}

theorem gives_fenceWait (hstart : s.dev.startable q 0x05 = some e) {r : Option (Nat × Nat)}
    (hr : (s.dev.begin_ q e.id).fenceTry (s.dev.queue q).hoop (fieldLe e.bytes 8 4) (fieldLe e.bytes 16 8) = r)
    (hd : (s.dev.begin_ q e.id).fenceMeet q (s.dev.queue q).hoop e.who (fieldLe e.bytes 8 4) (fun st w => (s.dev.begin_ q e.id).endWaiter q e st w) r = d) :
    Gives (.fenceWait q) s (d.settleSlot q) := by
  subst hr hd
  refine gives_of_start hstart rfl ?_
  unfold Device.fenceMeet
  rfl

theorem gives_eventWait (hstart : s.dev.startable q 0x08 = some e) {r : Option Nat}
    (hr : (s.dev.begin_ q e.id).eventTry (s.dev.queue q).hoop (fieldLe e.bytes 8 4) e.target = r)
    (hd : (s.dev.begin_ q e.id).eventMeet q (s.dev.queue q).hoop e.who (fieldLe e.bytes 8 4) (fun st => (s.dev.begin_ q e.id).endWaiter q e st 0) r = d) :
    Gives (.eventWait q) s (d.settleSlot q) := by
  subst hr hd
  refine gives_of_start hstart rfl ?_
  unfold Device.eventMeet
  rfl

end

section
variable {c : Device} {q : Nat} {e : Entry}

/-- The one entry that waits on a fence. -/
theorem fencesSatisfied_of_entry (hwaiters : c.waiters (fun n _ => n == q) 0x05 = [(q, e)]) (hwaits : c.entryWaits q e.id = true)
    (hnodes : c.waitNodes (fun x => x.queue == q) 3 = []) {d : Device}
    (hd : c.seenVa (c.queue q).hoop (c.fenceVa (c.queue q).hoop (fieldLe e.bytes 8 4)) 8 = d) {r : Option (Nat × Nat)}
    (hr : d.fenceTry (c.queue q).hoop (fieldLe e.bytes 8 4) (fieldLe e.bytes 16 8) = r) :
    c.fencesSatisfied q = d.fenceMeet q (c.queue q).hoop e.who (fieldLe e.bytes 8 4) (fun st w => d.endWaiter q e st w) r := by
  subst hd hr
  unfold Device.fencesSatisfied
  dsimp only
  rw [hwaiters, hnodes, List.foldl_nil, List.foldl_cons, List.foldl_nil, if_pos hwaits]
  rfl

theorem eventsSatisfied_of_entry (hwaiters : c.waiters (fun n _ => n == q) 0x08 = [(q, e)]) (hwaits : c.entryWaits q e.id = true)
    (hnodes : c.waitNodes (fun x => x.queue == q) 6 = []) {d : Device}
    (hd : c.seenVa (c.queue q).hoop (c.eventVa (c.queue q).hoop (fieldLe e.bytes 8 4)) 8 = d) {r : Option Nat}
    (hr : d.eventTry (c.queue q).hoop (fieldLe e.bytes 8 4) e.target = r) :
    c.eventsSatisfied q = d.eventMeet q (c.queue q).hoop e.who (fieldLe e.bytes 8 4) (fun st => d.endWaiter q e st 0) r := by
  subst hd hr
  unfold Device.eventsSatisfied
  dsimp only
  rw [hwaiters, hnodes, List.foldl_nil, List.foldl_cons, List.foldl_nil, if_pos hwaits]
  rfl

variable {a n : Nat} {y : INode} (hwaits : c.nodeWaits a n = true)
include hwaits

/-- The one node that waits on a fence. -/
theorem fencesSatisfied_of_node (hwaiters : c.waiters (fun n _ => n == q) 0x05 = []) (hnodes : c.waitNodes (fun x => x.queue == q) 3 = [(a, n, y)])
    {d : Device} (hd : c.seenVa (c.queue q).hoop (c.fenceVa (c.queue q).hoop (fieldLe y.params 0 4)) 8 = d) {r : Option (Nat × Nat)}
    (hr : d.fenceTry (c.queue q).hoop (fieldLe y.params 0 4) (fieldLe y.params 8 8) = r) :
    c.fencesSatisfied q = d.fenceMeet q (c.queue q).hoop (c.nodeWho a) (fieldLe y.params 0 4) (fun st w => d.endWaitNode a n st w) r := by
  subst hd hr
  unfold Device.fencesSatisfied
  dsimp only
  rw [hwaiters, hnodes, List.foldl_nil, List.foldl_cons, List.foldl_nil, if_pos hwaits]
  rfl

theorem eventsSatisfied_of_node (hwaiters : c.waiters (fun n _ => n == q) 0x08 = []) (hnodes : c.waitNodes (fun x => x.queue == q) 6 = [(a, n, y)])
    {d : Device} (hd : c.seenVa (c.queue q).hoop (c.eventVa (c.queue q).hoop (fieldLe y.params 0 4)) 8 = d) {r : Option Nat}
    (hr : d.eventTry (c.queue q).hoop (fieldLe y.params 0 4) y.target = r) :
    c.eventsSatisfied q = d.eventMeet q (c.queue q).hoop (c.nodeWho a) (fieldLe y.params 0 4) (fun st => d.endWaitNode a n st 0) r := by
  subst hd hr
  unfold Device.eventsSatisfied
  dsimp only
  rw [hwaiters, hnodes, List.foldl_nil, List.foldl_cons, List.foldl_nil, if_pos hwaits]
  rfl

end

/-! FENCE_SIGNAL -/

section
variable {s : State} {q : Nat} {e : Entry} (hstart : s.dev.startable q 0x06 = some e)
include hstart

/-- A signal outside the pool is refused. -/
theorem gives_fenceSignal_of_outside (hout : s.dev.rd Reg.HOOP_FENCES_FENCES (s.dev.queue q).hoop ≤ fieldLe e.bytes 8 4) :
    Gives (.fenceSignal q) s ((s.dev.beginEnd q e 3).settleSlot q) :=
  gives_of_start hstart rfl (if_pos hout)

theorem gives_fenceSignal (hin : fieldLe e.bytes 8 4 < s.dev.rd Reg.HOOP_FENCES_FENCES (s.dev.queue q).hoop) {d : Device} {st : Nat}
    (hr : s.dev.fenceSignal (s.dev.queue q).hoop q e.who (fieldLe e.bytes 8 4) (fieldLe e.bytes 16 8) = (d, st)) :
    Gives (.fenceSignal q) s ((d.beginEnd q e st).settleSlot q) :=
  gives_of_start hstart rfl ((if_neg (Nat.not_le.mpr hin)).trans (by rw [hr]))

end

section
variable {d : Device} {h q i v : Nat} {who : Nat × Nat}

theorem fenceSignal_of_bad (hv : v.testBit 63 = true) : d.fenceSignal h q who i v = (d, 3) := if_pos hv

/-- A read by the device itself leaves the hoop windows, HOOP_CFG apart, as they are. -/
theorem Device.seenVa_works (d : Device) (h va n : Nat) : d.Works (d.seenVa h va n) := by
  unfold Device.seenVa
  extract_lets slot
  split
  · exact .refl d
  · split
    · exact .refl d
    · split
      · exact .refl d
      · refine .foldl _ (fun e x _ => ?_) d
        split
        · exact e.ownRead_works ..
        · exact .refl e

theorem Device.fenceVa_seenVa (d : Device) (h i h2 va n : Nat) : (d.seenVa h2 va n).fenceVa h i = d.fenceVa h i := by
  have hkey : WindowKey (Reg.HOOP_FENCES_BASE.key h) := by
    refine .inl ?_
    simp only [Fld.key, Reg.HOOP_FENCES_BASE]
    omega
  have hrd : (d.seenVa h2 va n).rd Reg.HOOP_FENCES_BASE h = d.rd Reg.HOOP_FENCES_BASE h := (d.seenVa_works ..).window.same _ _ hkey
  rw [Device.fenceVa, hrd, Device.fenceVa]

section
variable (hv : v.testBit 63 = false) {d2 : Device} (hd2 : d.seenVa h (d.fenceVa h i) 8 = d2)
include hv hd2

theorem fenceSignal_of_error {st : Nat} (hword : d2.word h (d.fenceVa h i) = .error st) :
    d.fenceSignal h q who i v = ((d2.wordError h q who (d.fenceVa h i) st).failWaiters h 0x05 i st, st) := by
  subst hd2
  refine (if_neg (by simp [hv])).trans ?_
  dsimp only
  rw [Device.fenceVa_seenVa, hword]

theorem fenceSignal_of_word {w : Nat} (hword : d2.word h (d.fenceVa h i) = .ok w) :
    d.fenceSignal h q who i v = if w.testBit 63 then (d2, 5) else (d2.setWord h (d.fenceVa h i) (Nat.max w v), 0) := by
  subst hd2
  refine (if_neg (by simp [hv])).trans ?_
  dsimp only
  rw [Device.fenceVa_seenVa, hword]

end

end

/-- Settles O31: fence and event entries, and the ends of those that wait. -/
theorem fencesAndEvents : Obligations.FencesAndEvents := by
  intro q s e w st
  dsimp only
  refine ⟨fun hstart => ⟨fun hword => ⟨fun hgone => ?_, fun hlive hw => ?_, fun hlive hw => ?_⟩, fun hword h0 h5 => ?_⟩,
    fun hstart => ⟨fun hword => ⟨fun hgone => ?_, fun hlive hw => ?_, fun hlive hw => ?_⟩, fun hword h0 h6 => ?_⟩,
    fun hstart => ⟨fun hbad => ?_, fun hin hv => ⟨fun w hword => ⟨fun hgone => ?_, fun hlive => ?_⟩, fun hword => ?_⟩⟩,
    fun hlive => ⟨.of_done rfl (if_pos hlive), .of_done rfl (if_pos hlive)⟩,
    fun hwaiters hwaits hnodes => ⟨fun htry => ?_, fun htry => ⟨fun hst => ?_, fun h0 h5 => ?_⟩⟩,
    fun hwaiters hwaits hnodes => ⟨fun htry => ?_, fun htry => ⟨fun hst => ?_, fun h0 h6 => ?_⟩⟩,
    fun a n y hwaits => ⟨fun hwaiters hnodes htry => ?_, fun hwaiters hnodes htry => ?_⟩⟩
  · exact gives_fenceWait hstart ((fenceTry_of_word hword).trans (if_pos hgone)) (fenceMeet_ends (.inr rfl))
  · exact gives_fenceWait hstart ((fenceTry_of_word hword).trans ((if_neg (by simp [hlive])).trans (if_pos hw))) (fenceMeet_ends (.inl rfl))
  · exact gives_fenceWait hstart ((fenceTry_of_word hword).trans ((if_neg (by simp [hlive])).trans (if_neg (Nat.not_le.mpr hw)))) rfl
  · exact gives_fenceWait hstart (fenceTry_of_error hword) (fenceMeet_fails h0 h5)
  · exact gives_eventWait hstart ((eventTry_of_word hword).trans (if_pos hgone)) (eventMeet_ends (.inr rfl))
  · exact gives_eventWait hstart ((eventTry_of_word hword).trans ((if_neg (by simp [hlive])).trans (if_pos hw))) (eventMeet_ends (.inl rfl))
  · exact gives_eventWait hstart ((eventTry_of_word hword).trans ((if_neg (by simp [hlive])).trans (if_neg (Nat.not_lt.mpr hw)))) rfl
  · exact gives_eventWait hstart (eventTry_of_error hword) (eventMeet_fails h0 h6)
  · rcases Nat.lt_or_ge (fieldLe e.bytes 8 4) (s.dev.rd Reg.HOOP_FENCES_FENCES (s.dev.queue q).hoop) with hin | hout
    · exact gives_fenceSignal hstart hin (fenceSignal_of_bad (hbad.resolve_left (Nat.not_le.mpr hin)))
    · exact gives_fenceSignal_of_outside hstart hout
  · exact gives_fenceSignal hstart hin ((fenceSignal_of_word hv rfl hword).trans (if_pos hgone))
  · exact gives_fenceSignal hstart hin ((fenceSignal_of_word hv rfl hword).trans (if_neg (by simp [hlive])))
  · exact gives_fenceSignal hstart hin (fenceSignal_of_error hv rfl hword)
  · exact fencesSatisfied_of_entry hwaiters hwaits hnodes rfl htry
  · exact (fencesSatisfied_of_entry hwaiters hwaits hnodes rfl htry).trans (fenceMeet_ends hst)
  · exact (fencesSatisfied_of_entry hwaiters hwaits hnodes rfl htry).trans (fenceMeet_fails h0 h5)
  · exact eventsSatisfied_of_entry hwaiters hwaits hnodes rfl htry
  · exact (eventsSatisfied_of_entry hwaiters hwaits hnodes rfl htry).trans (eventMeet_ends hst)
  · exact (eventsSatisfied_of_entry hwaiters hwaits hnodes rfl htry).trans (eventMeet_fails h0 h6)
  · exact (fencesSatisfied_of_node hwaits hwaiters hnodes rfl htry).trans (fenceMeet_ends (.inl rfl))
  · exact (eventsSatisfied_of_node hwaits hwaiters hnodes rfl htry).trans (eventMeet_ends (.inl rfl))

end Sys2Proof.Machine

/-! Ring entries at their start: kernels, recipes, copies and whey descriptors (R64, R65, R68, R70, R82, R278, R299). -/

namespace Sys2Proof.Machine

/-! What a start answers -/

section
variable {d d2 : Device} {q st : Nat} {e : Entry} {f : Device → Device × Except Nat Bool} {failed : Device → Device}

theorem beginBy_of_ready (hf : f (d.begin_ q e.id) = (d2, .ok true)) : d.beginBy q e f failed = d2 := by
  rw [Device.beginBy, hf]

theorem beginBy_of_waits (hf : f (d.begin_ q e.id) = (d2, .ok false)) : d.beginBy q e f failed = d2.unbegin q e.id := by
  rw [Device.beginBy, hf]

theorem beginBy_of_error (hf : f (d.begin_ q e.id) = (d2, .error st)) : d.beginBy q e f failed = (failed d2).finish q e.id st := by
  rw [Device.beginBy, hf]

end

/-! Kernels (R65) -/

section
variable {d d2 : Device} {q id ptr map : Nat} {inst : Option (Nat × Nat)} {early : Bool} {p b : Bytes}

theorem kernelStart_of_error {st : Nat} (hread : d.entRead q id (fieldLe p 0 8) 64 = (d2, .error st)) :
    d.kernelStart q id ptr map inst early p = (d2, .error st) := by
  rw [Device.kernelStart, hread]

theorem kernelStart_of_waits (hread : d.entRead q id (fieldLe p 0 8) 64 = (d2, .ok none)) :
    d.kernelStart q id ptr map inst early p = (d2, .ok false) := by
  rw [Device.kernelStart, hread]

/-- The descriptor of a kernel keeps the rules of R65 and has its reserved bytes 0. -/
def Kernel.good (k : Kernel) (b : Bytes) : Bool := kdescGaps.all (fun g => zeroAt b g.1 g.2) && k.ok

variable (hread : d.entRead q id (fieldLe p 0 8) 64 = (d2, .ok (some b)))
include hread

theorem kernelStart_of_bad (hbad : (kernelOf b p (d2.queue q).hoop q id ptr map inst early).good b = false) :
    d.kernelStart q id ptr map inst early p = (d2, .error 3) := by
  rw [Device.kernelStart, hread]
  refine if_pos ?_
  rwa [← Bool.not_and, Bool.not_eq_true']

theorem kernelStart_of_good (hgood : (kernelOf b p (d2.queue q).hoop q id ptr map inst early).good b = true) :
    d.kernelStart q id ptr map inst early p =
      (((d2.setKernel d2.fresh (kernelOf b p (d2.queue q).hoop q id ptr map inst early)).step1.ringCtl 4
        (kernelOf b p (d2.queue q).hoop q id ptr map inst early).home).admitKernels, .ok true) := by
  rw [Device.kernelStart, hread]
  refine if_neg ?_
  rwa [← Bool.not_and, Bool.not_eq_true', Bool.not_eq_false]

end

/-! Instances of recipes (R64, R82) -/

section
variable {d : Device} {q : Nat} {e : Entry}

theorem newInst_of_noHandle (hn : entNobj e.bytes = 0) : d.newInst q e = (d, .error 3) := by
  rw [Device.newInst, if_pos hn, if_pos hn]

variable (hn : entNobj e.bytes ≠ 0) {c : Device} (hc : d.objSeen (d.queue q).hoop (fieldLe e.bytes 32 4) = c)
include hn hc

theorem newInst_of_error {st : Nat} (hobj : c.objRead (d.queue q).hoop (fieldLe e.bytes 32 4) = .error st) : d.newInst q e = (c, .error st) := by
  unfold Device.newInst
  dsimp only
  rw [if_neg hn, hc, if_neg hn, hobj]

variable {x t ref : Nat} (hobj : c.objRead (d.queue q).hoop (fieldLe e.bytes 32 4) = .ok (x, t, ref))
include hobj

theorem newInst_of_noRecipe (hno : t ≠ 2 ∨ c.recipe? (d.queue q).hoop (ref % 1024) = none) : d.newInst q e = (c, .error 3) := by
  have hnone : (if t = 2 then c.recipe? (d.queue q).hoop (ref % 1024) else none) = none := by
    split
    next ht => exact hno.resolve_left (not_not_intro ht)
    next => rfl
  unfold Device.newInst
  dsimp only
  rw [if_neg hn, hc, if_neg hn, hobj]
  dsimp only
  rw [hnone]

variable (ht : t = 2) {r : Recipe} (hr : c.recipe? (d.queue q).hoop (ref % 1024) = some r)
include ht hr

theorem newInst_of_length (hlen : r.paramLen ≠ fieldLe e.bytes 16 2) : d.newInst q e = (c, .error 3) := by
  unfold Device.newInst
  dsimp only
  rw [if_neg hn, hc, if_neg hn, hobj]
  dsimp only
  rw [if_pos ht, hr]
  exact if_pos hlen

variable (hlen : r.paramLen = fieldLe e.bytes 16 2)
include hlen

theorem newInst_of_bad {a : Nat} (hbad : c.storeBad (d.queue q).hoop r = some a) :
    d.newInst q e = (c.dataError (d.queue q).hoop q (fieldLe e.bytes 32 4) e.ptr a, .error 0xA) := by
  unfold Device.newInst
  dsimp only
  rw [if_neg hn, hc, if_neg hn, hobj]
  dsimp only
  rw [if_pos ht, hr]
  refine (if_neg (not_not_intro hlen)).trans ?_
  rw [hbad]
  rfl

variable (hgood : c.storeBad (d.queue q).hoop r = none)
include hgood

theorem newInst_of_full (hfull : 32 ≤ c.rd Reg.HOOP_RECIPES_LIVE (d.queue q).hoop
      ∨ 8 ≤ (c.work.insts.filter (fun (x : Nat × Inst) => x.2.hoop == (d.queue q).hoop && x.2.recipe == ref % 1024)).length) :
    d.newInst q e = (c, .ok false) := by
  unfold Device.newInst
  dsimp only
  rw [if_neg hn, hc, if_neg hn, hobj]
  dsimp only
  rw [if_pos ht, hr]
  refine (if_neg (not_not_intro hlen)).trans ?_
  rw [hgood]
  exact (if_neg Bool.false_ne_true).trans (if_pos hfull)

/-- What becomes of the read of a run's parameters. -/
def Device.instOf (d : Device) (h ref : Nat) (r : Recipe) (q : Nat) (e : Entry) : Except Nat (Option Bytes) → Device × Except Nat Bool
  | .error st => (d, .error st)
  | .ok none => (d, .ok false)
  | .ok (some block) =>
    let node := fun (n : Nat) (x : RNode) =>
      ({ params := patched r n x.params block, counter := x.inDeg,
         dispatch := ((r.preds n).filter (fun m => match r.nodes[m]? with | some y => y.isKernel | none => false)).length } : INode)
    (((((d.storeSeen h r.parts).setInst d.fresh
        { hoop := h, recipe := ref % 1024, queue := q, entry := e.id, ptr := e.ptr, nodes := r.nodes.mapIdx (fun n x => (n, node n x)) }).step1).wr
      Reg.HOOP_RECIPES_LIVE h (d.rd Reg.HOOP_RECIPES_LIVE h + 1)).startNodes d.fresh, .ok true)

theorem newInst_of_read (hroom : c.rd Reg.HOOP_RECIPES_LIVE (d.queue q).hoop < 32)
    (hlive : (c.work.insts.filter (fun (x : Nat × Inst) => x.2.hoop == (d.queue q).hoop && x.2.recipe == ref % 1024)).length < 8)
    {d2 : Device} {b : Except Nat (Option Bytes)}
    (hread : (if r.paramLen = 0 then (c, Except.ok (some [])) else c.entRead q e.id (fieldLe e.bytes 8 8) r.paramLen) = (d2, b)) :
    d.newInst q e = d2.instOf (d.queue q).hoop ref r q e b := by
  rw [hlen] at hread
  unfold Device.newInst
  dsimp only
  rw [if_neg hn, hc, if_neg hn, hobj]
  dsimp only
  rw [if_pos ht, hr]
  refine (if_neg (not_not_intro hlen)).trans ?_
  rw [hgood]
  refine (if_neg Bool.false_ne_true).trans ((if_neg (by omega)).trans ?_)
  rw [hread]
  unfold Device.instOf
  rfl

end

/-! Copies (R278) -/

section
variable {d : Device} {q id map die : Nat} {owner : Nat → DOwner} {nodes : Option Nat} {p : Bytes}

theorem copyStart_of_count (hn : fieldLe p 8 2 < 1 ∨ 256 < fieldLe p 8 2) : d.copyStart q id map die owner nodes p = (d, .error 3) := if_pos hn

variable (h1 : 1 ≤ fieldLe p 8 2) (h256 : fieldLe p 8 2 ≤ 256) {d2 : Device}
include h1 h256

theorem copyStart_of_error {st : Nat} (hread : d.entRead q id (fieldLe p 0 8) (128 * fieldLe p 8 2) = (d2, .error st)) :
    d.copyStart q id map die owner nodes p = (d2, .error st) := by
  refine (if_neg (by omega)).trans ?_
  rw [hread]

theorem copyStart_of_waits (hread : d.entRead q id (fieldLe p 0 8) (128 * fieldLe p 8 2) = (d2, .ok none)) :
    d.copyStart q id map die owner nodes p = (d2, .ok false) := by
  refine (if_neg (by omega)).trans ?_
  rw [hread]

variable {b : Bytes} (hread : d.entRead q id (fieldLe p 0 8) (128 * fieldLe p 8 2) = (d2, .ok (some b))) {d3 : Device}
include hread

/-- The descriptors of a copy, in their order. -/
def copyList (b : Bytes) (n : Nat) : List (Nat × Bytes) := ((List.range n).map (fun i => slice b (128 * i) 128)).mapIdx (fun i b => (i, b))

/-- Whether a SEGMENT_WRITE holds a segment that a descriptor of a copy names (R270). -/
def Device.copyHeld (d : Device) (q id h map die : Nat) (nodes : Option Nat) (base : Nat) (l : List (Nat × Bytes)) : Bool :=
  l.any (fun (x : Nat × Bytes) =>
    d.sdValid x.2 { hoop := h, die := die, sstart := false, index := x.1, nodes := nodes, addr := base + 128 * x.1 }
    && ((d.issueCheck (512 + d.lightest die) h map (parseSd x.2) (((d.copyUpd q id (parseSd x.2)).2.toOption.getD none).getD [])).2.map (·.1)) == some 0)

/-- The descriptors of a copy are handed to the die. -/
def Device.copyAll (d : Device) (q id h map die : Nat) (owner : Nat → DOwner) (nodes : Option Nat) (base : Nat) (l : List (Nat × Bytes)) : Device :=
  l.foldl (fun d (x : Nat × Bytes) =>
    let s := parseSd x.2
    let v := d.sdValid x.2 { hoop := h, die := die, sstart := false, index := x.1, nodes := nodes, addr := base + 128 * x.1 }
    let r := if v then d.copyUpd q id s else (d, .ok (some []))
    match r.2 with
    | .error e => r.1.copyOne h map die (owner x.1) x.2 [] (some e) v
    | .ok ub => r.1.copyOne h map die (owner x.1) x.2 (ub.getD []) none (v && s.updOk (ub.getD []))) d

theorem copyStart_of_unread (hupds : d2.copyUpds q id ((List.range (fieldLe p 8 2)).map (fun i => slice b (128 * i) 128)) = (d3, false)) :
    d.copyStart q id map die owner nodes p = (d3, .ok false) := by
  refine (if_neg (by omega)).trans ?_
  rw [hread]
  dsimp only
  rw [hupds]
  exact if_pos rfl

variable (hupds : d2.copyUpds q id ((List.range (fieldLe p 8 2)).map (fun i => slice b (128 * i) 128)) = (d3, true))
include hupds

theorem copyStart_of_held (hheld : d3.copyHeld q id (d.queue q).hoop map die nodes (fieldLe p 0 8) (copyList b (fieldLe p 8 2)) = true) :
    d.copyStart q id map die owner nodes p = (d3, .ok false) := by
  refine (if_neg (by omega)).trans ?_
  rw [hread]
  dsimp only
  rw [hupds]
  exact if_pos hheld

theorem copyStart_of_free (hheld : d3.copyHeld q id (d.queue q).hoop map die nodes (fieldLe p 0 8) (copyList b (fieldLe p 8 2)) = false) :
    d.copyStart q id map die owner nodes p =
      ((d3.copyAll q id (d.queue q).hoop map die owner nodes (fieldLe p 0 8) (copyList b (fieldLe p 8 2))).tellOwner (owner 0), .ok true) := by
  refine (if_neg (by omega)).trans ?_
  rw [hread]
  dsimp only
  rw [hupds]
  exact if_neg (ne_true_of_eq_false hheld)

end

/-! Whey descriptors (R299) -/

section
variable {d : Device} {q : Nat} {e : Entry}

theorem wheyStart_of_count (hn : fieldLe e.bytes 16 2 < 1 ∨ 64 < fieldLe e.bytes 16 2) : d.wheyStart q e = (d, .error 3) := if_pos hn

variable (h1 : 1 ≤ fieldLe e.bytes 16 2) (h64 : fieldLe e.bytes 16 2 ≤ 64)
include h1 h64

theorem wheyStart_of_full (hfull : 256 < (d.hx (d.queue q).hoop).whey.length + fieldLe e.bytes 16 2) : d.wheyStart q e = (d, .ok false) :=
  (if_neg (by omega)).trans (if_pos hfull)

variable (hroom : (d.hx (d.queue q).hoop).whey.length + fieldLe e.bytes 16 2 ≤ 256) {d2 : Device}
include hroom

theorem wheyStart_of_error {st : Nat} (hread : d.entRead q e.id (fieldLe e.bytes 8 8) (64 * fieldLe e.bytes 16 2) = (d2, .error st)) :
    d.wheyStart q e = (d2, .error st) := by
  refine (if_neg (by omega)).trans ((if_neg (Nat.not_lt.mpr hroom)).trans ?_)
  rw [hread]

theorem wheyStart_of_waits (hread : d.entRead q e.id (fieldLe e.bytes 8 8) (64 * fieldLe e.bytes 16 2) = (d2, .ok none)) :
    d.wheyStart q e = (d2, .ok false) := by
  refine (if_neg (by omega)).trans ((if_neg (Nat.not_lt.mpr hroom)).trans ?_)
  rw [hread]

theorem wheyStart_of_read {b : Bytes} (hread : d.entRead q e.id (fieldLe e.bytes 8 8) (64 * fieldLe e.bytes 16 2) = (d2, .ok (some b))) :
    d.wheyStart q e = (((d2.setHx (d.queue q).hoop { d2.hx (d.queue q).hoop with
      whey := (d2.hx (d.queue q).hoop).whey ++ (List.range (fieldLe e.bytes 16 2)).map (fun i =>
        (⟨q, e.id, i + 1 == fieldLe e.bytes 16 2, slice b (64 * i) 64⟩ : Whey)) }).wheyCount (d.queue q).hoop false).modQueue q (fun x =>
        { x with entries := x.entries.map (fun y => if y.id = e.id then { y with buf := [] } else y) }), .ok true) := by
  refine (if_neg (by omega)).trans ((if_neg (Nat.not_lt.mpr hroom)).trans ?_)
  rw [hread]

end

/-- A command that starts an entry and then serves the waiting credits. -/
theorem gives_of_startServed {c : Instr} {s : State} {q op : Nat} {e : Entry} {f : Device → Entry → Device} (hstart : s.dev.startable q op = some e)
    (hexec : exec c s = s.done (s.dev.onEntry q op f).serveCredits) {d : Device} (hf : f s.dev e = d) :
    Gives c s (d.settleSlot q).serveCredits :=
  .of_done hexec (congrArg Device.serveCredits ((Device.onEntry_of_startable hstart f).trans (by rw [hf])))

/-- Settles O30: each ring entry at its start, by what its read brings. -/
theorem ringEntries : Obligations.RingEntries := by
  intro q s e
  dsimp only
  refine ⟨fun hstart => gives_of_start hstart rfl rfl, fun hstart => gives_of_start hstart rfl rfl,
    fun d2 r hstart hread => ⟨fun st hr => ?_, fun hr => ?_, fun b hr => ⟨fun hbad => ?_, fun hgood => ?_⟩⟩,
    fun hstart => ⟨fun hn => ?_, fun st hn hobj => ?_, fun x t ref hn hobj => ⟨fun hno => ?_, fun r ht hr => ⟨fun hlen => ?_, fun a hlen hbad => ?_,
      fun hlen hgood hfull => ?_, fun d2 b hlen hgood hroom hlive hread => ⟨fun st hb => ?_, fun hb => ?_, fun block hb => ?_⟩⟩⟩⟩,
    fun hstart => ⟨fun hn => ?_, fun d2 r h1 h256 hread => ⟨fun st hr => ?_, fun hr => ?_, fun d3 b hr => ⟨fun hupds => ?_,
      fun held hupds hdef => ⟨fun hheld => ?_, fun hheld => ?_⟩⟩⟩⟩,
    fun hstart => ⟨fun hn => ?_, fun h1 h64 hfull => ?_, fun d2 r h1 h64 hroom hread => ⟨fun st hr => ?_, fun hr => ?_, fun b hr => ?_⟩⟩⟩
  · exact gives_of_startServed hstart rfl (beginBy_of_error (kernelStart_of_error (hr ▸ hread)))
  · exact gives_of_startServed hstart rfl (beginBy_of_waits (kernelStart_of_waits (hr ▸ hread)))
  · exact gives_of_startServed hstart rfl (beginBy_of_error (kernelStart_of_bad (hr ▸ hread) hbad))
  · exact gives_of_startServed hstart rfl (beginBy_of_ready (kernelStart_of_good (hr ▸ hread) hgood))
  · exact gives_of_startServed hstart rfl (beginBy_of_error (newInst_of_noHandle hn))
  · exact gives_of_startServed hstart rfl (beginBy_of_error (newInst_of_error hn rfl hobj))
  · exact gives_of_startServed hstart rfl (beginBy_of_error (newInst_of_noRecipe hn rfl hobj hno))
  · exact gives_of_startServed hstart rfl (beginBy_of_error (newInst_of_length hn rfl hobj ht hr hlen))
  · exact gives_of_startServed hstart rfl (beginBy_of_error (newInst_of_bad hn rfl hobj ht hr hlen hbad))
  · exact gives_of_startServed hstart rfl (beginBy_of_waits (newInst_of_full hn rfl hobj ht hr hlen hgood hfull))
  · exact gives_of_startServed hstart rfl (beginBy_of_error (newInst_of_read hn rfl hobj ht hr hlen hgood hroom hlive (hb ▸ hread)))
  · exact gives_of_startServed hstart rfl (beginBy_of_waits (newInst_of_read hn rfl hobj ht hr hlen hgood hroom hlive (hb ▸ hread)))
  · exact gives_of_startServed hstart rfl (beginBy_of_ready (newInst_of_read hn rfl hobj ht hr hlen hgood hroom hlive (hb ▸ hread)))
  · exact gives_of_start hstart rfl (beginBy_of_error (copyStart_of_count hn))
  · exact gives_of_start hstart rfl (beginBy_of_error (copyStart_of_error h1 h256 (hr ▸ hread)))
  · exact gives_of_start hstart rfl (beginBy_of_waits (copyStart_of_waits h1 h256 (hr ▸ hread)))
  · exact gives_of_start hstart rfl (beginBy_of_waits (copyStart_of_unread h1 h256 (hr ▸ hread) hupds))
  · exact gives_of_start hstart rfl (beginBy_of_waits (copyStart_of_held h1 h256 (hr ▸ hread) hupds (hdef.symm.trans hheld)))
  · exact gives_of_start hstart rfl (beginBy_of_ready (copyStart_of_free h1 h256 (hr ▸ hread) hupds (hdef.symm.trans hheld)))
  · exact gives_of_start hstart rfl (beginBy_of_error (wheyStart_of_count hn))
  · exact gives_of_start hstart rfl (beginBy_of_waits (wheyStart_of_full h1 h64 hfull))
  · exact gives_of_start hstart rfl (beginBy_of_error (wheyStart_of_error h1 h64 hroom (hr ▸ hread)))
  · exact gives_of_start hstart rfl (beginBy_of_waits (wheyStart_of_waits h1 h64 hroom (hr ▸ hread)))
  · exact gives_of_start hstart rfl (beginBy_of_ready (wheyStart_of_read h1 h64 hroom (hr ▸ hread)))

end Sys2Proof.Machine

/-! Ticks and the wheel (R28, R41, R44 to R46, R363, R365, R366, R368, R497). -/

namespace Sys2Proof.Machine

/-! The row of the wheel -/

/-- The wheel goes to row 0, with the rows that wait for it (R41, R42). -/
def Device.firstRow (d : Device) (pending : Option (List WRow)) : Device :=
  let d := match pending with
    | some rows => ({ d with wheel := { d.wheel with rows := rows, pending := none } }).wr Reg.WHEEL_STATUS_ROWS 0 (rows.length - 1)
    | none => d
  ((d.wr Reg.WHEEL_STATUS_ROW 0 0).wr Reg.WHEEL_STATUS_SUBSLOT 0 0).count Reg.WHEEL_STATUS_REVOLUTIONS 0

/-- The wheel goes to a further row. -/
def Device.toRow (d : Device) (row : Nat) : Device := (d.wr Reg.WHEEL_STATUS_ROW 0 row).wr Reg.WHEEL_STATUS_SUBSLOT 0 0

section
variable (d : Device) (pending : Option (List WRow))

theorem rd_row_firstRow : (d.firstRow pending).rd Reg.WHEEL_STATUS_ROW = 0 := by
  simp (disch := (simp only [Fld.key, Reg.WHEEL_STATUS_ROW, Reg.WHEEL_STATUS_SUBSLOT, Reg.WHEEL_STATUS_REVOLUTIONS]; omega)) only
    [Device.firstRow, Device.count, Device.rd_wr_ne, Device.rd_wr_same, Nat.zero_mod]

theorem rd_subslot_firstRow : (d.firstRow pending).rd Reg.WHEEL_STATUS_SUBSLOT = 0 := by
  simp (disch := (simp only [Fld.key, Reg.WHEEL_STATUS_SUBSLOT, Reg.WHEEL_STATUS_REVOLUTIONS]; omega)) only
    [Device.firstRow, Device.count, Device.rd_wr_ne, Device.rd_wr_same, Nat.zero_mod]

theorem rd_period_firstRow : (d.firstRow pending).rd Reg.WHEEL_STATUS_PERIOD_US = d.rd Reg.WHEEL_STATUS_PERIOD_US := by
  simp (disch := (simp only [Fld.key, Reg.WHEEL_STATUS_PERIOD_US, Reg.WHEEL_STATUS_ROW, Reg.WHEEL_STATUS_SUBSLOT, Reg.WHEEL_STATUS_REVOLUTIONS]; omega))
    only [Device.firstRow, Device.count, Device.rd_wr_ne]
  split
  · exact Device.rd_wr_ne _ _ _ _ _ _ (by simp only [Fld.key, Reg.WHEEL_STATUS_PERIOD_US, Reg.WHEEL_STATUS_ROWS]; omega)
  · rfl

theorem rd_row_toRow (row : Nat) : (d.toRow row).rd Reg.WHEEL_STATUS_ROW = row % 256 := by
  simp (disch := (simp only [Fld.key, Reg.WHEEL_STATUS_ROW, Reg.WHEEL_STATUS_SUBSLOT]; omega)) only [Device.toRow, Device.rd_wr_ne, Device.rd_wr_same]
  rfl

theorem rd_subslot_toRow (row : Nat) : (d.toRow row).rd Reg.WHEEL_STATUS_SUBSLOT = 0 := by
  rw [Device.toRow, Device.rd_wr_same, Nat.zero_mod]

end

/-- Whether a tick is tick E of a period change, or a later one. -/
def Device.changesAt (d : Device) (n : Nat) : Bool :=
  match d.wheel.period with
  | some (_, e) => e ≤ n
  | none => false

/-- The period that a period change brings at a tick (R368). -/
def Device.newPeriod (d : Device) (n : Nat) : Device :=
  match d.wheel.period with
  | some (p, e) => if e ≤ n then { d.wr Reg.WHEEL_STATUS_PERIOD_US 0 p with wheel := { d.wheel with period := none } } else d
  | none => d

/-- The wheel's move at a tick: to row 0, at once or after the last of its rows, or to the next row. -/
def Device.nextRow (d : Device) (w : Wheel) (first : Bool) : Device :=
  if first ∨ d.rd Reg.WHEEL_STATUS_ROW + 1 ≥ w.rows.length then d.firstRow w.pending else d.toRow (d.rd Reg.WHEEL_STATUS_ROW + 1)

theorem tickRow_eq (d : Device) (n : Nat) : d.tickRow n = (d.newPeriod n).nextRow d.wheel (d.changesAt n) := by
  unfold Device.nextRow Device.firstRow Device.newPeriod Device.changesAt
  rfl

section
variable {d : Device} {n : Nat}

/-- Outside a period change the wheel goes on a row, or to row 0 after the last. -/
theorem tickRow_of_before (hbefore : ∀ p e, d.wheel.period = some (p, e) → n < e) :
    d.tickRow n = d.nextRow d.wheel false := by
  rw [tickRow_eq, Device.newPeriod, Device.changesAt]
  cases hperiod : d.wheel.period with
  | none => rfl
  | some x =>
    have hn : ¬ x.2 ≤ n := Nat.not_le.mpr (hbefore x.1 x.2 hperiod)
    exact congrArg₂ (fun (e : Device) b => e.nextRow d.wheel b) (if_neg hn) (decide_eq_false hn)

/-- At tick E of a period change the wheel goes to row 0 with the new period. -/
theorem tickRow_of_change {p e : Nat} (hperiod : d.wheel.period = some (p, e)) (he : e ≤ n) :
    d.tickRow n = ({ d.wr Reg.WHEEL_STATUS_PERIOD_US 0 p with wheel := { d.wheel with period := none } } : Device).firstRow d.wheel.pending := by
  rw [tickRow_eq, Device.newPeriod, Device.changesAt, hperiod]
  exact (congrArg₂ (fun (e : Device) b => e.nextRow d.wheel b) (if_pos he) (decide_eq_true he)).trans (if_pos (.inl rfl))

theorem rd_row_nextRow (d : Device) (w : Wheel) :
    (d.nextRow w false).rd Reg.WHEEL_STATUS_ROW
      = if d.rd Reg.WHEEL_STATUS_ROW + 1 < w.rows.length then (d.rd Reg.WHEEL_STATUS_ROW + 1) % 256 else 0 := by
  unfold Device.nextRow
  by_cases hlast : d.rd Reg.WHEEL_STATUS_ROW + 1 < w.rows.length
  · rw [if_neg (by simp; omega), if_pos hlast, rd_row_toRow]
  · rw [if_pos (.inr (Nat.not_lt.mp hlast)), if_neg hlast, rd_row_firstRow]

theorem rd_subslot_nextRow (d : Device) (w : Wheel) (first : Bool) : (d.nextRow w first).rd Reg.WHEEL_STATUS_SUBSLOT = 0 := by
  unfold Device.nextRow
  split
  · exact rd_subslot_firstRow ..
  · exact rd_subslot_toRow ..

end

/-! Ticks from the module's own timer and from its sources -/

/-- The manager's tick, with the source that it shows (R365, R366, R369). -/
def Device.managerTickOf (d : Device) (source : Nat) : Device :=
  let d1 : Device := { d with pins := { d.pins with tickOut := d.pins.tickOut + 1 }, klz := { d.klz with ticked := true, adjust := 0 } }
  let d2 := ((d1.wr Reg.KLZ_TICK_SOURCE 0 source).wr Reg.KLZ_TICK_MGR_PRESENT 0 1).tickAll (d.klz.number + 1) true false
  if d2.rd Reg.KLZ_ID_TIME_MASTER = 1 then
    d2.upPorts.foldl (fun e p => e.sendOn p 0 (e.ownPkt p 0x23 (e.tickPayload (d.klz.number + 2) (e.nextTickAt - e.clock.now).toNat 1))) d2
  else d2

/-- Its source is the time master that the module follows, else its own timer. -/
theorem managerTick_eq (d : Device) :
    d.managerTick = d.managerTickOf (if d.rd Reg.KLZ_TICK_TM_PRESENT = 1 ∧ d.rd Reg.KLZ_ID_TIME_MASTER = 0 then 2 else 1) := by
  have hsource : (if d.rd Reg.KLZ_TICK_TM_PRESENT = 1 ∧ d.rd Reg.KLZ_ID_TIME_MASTER = 0 then 2 else 1)
      = if (d.rd Reg.KLZ_TICK_TM_PRESENT == 1 && d.rd Reg.KLZ_ID_TIME_MASTER == 0) = true then 2 else 1 := by simp
  rw [hsource]
  rfl

section
variable {s : State} (hlive : s.dev.live = true)
include hlive

section
variable (hrole : s.dev.role = 2)
include hrole

theorem gives_wheelTick_of_manager : Gives .wheelTick s (s.dev.managerTickOf
      (if s.dev.rd Reg.KLZ_TICK_TM_PRESENT = 1 ∧ s.dev.rd Reg.KLZ_ID_TIME_MASTER = 0 then 2 else 1)) :=
  .of_done rfl ((if_neg (by simp [hlive])).trans ((if_pos hrole).trans (managerTick_eq _)))

theorem gives_managerTick : Gives .managerTick s (s.dev.managerTickOf
      (if s.dev.rd Reg.KLZ_TICK_TM_PRESENT = 1 ∧ s.dev.rd Reg.KLZ_ID_TIME_MASTER = 0 then 2 else 1)) :=
  .of_done rfl ((if_pos (by simp [hlive, hrole])).trans (managerTick_eq _))

end

/-- A worker's tick comes from the best source it has (R365). -/
theorem gives_wheelTick_of_worker (hrole : s.dev.role = 1) (hconflict : s.dev.klz.conflict = false) :
    Gives .wheelTick s s.dev.workerTick :=
  .of_done rfl ((if_neg (by simp [hlive])).trans ((if_neg (by omega)).trans (if_pos ⟨hrole, hconflict⟩)))

theorem gives_tickIn {low : Nat} (hrole : s.dev.role = 1) (hen : s.dev.rd Reg.KLZ_TICK_IN_TICK_IN_EN = 1) (hlow : 500 ≤ low)
    (hspaced : ∀ t, s.dev.klz.tickIn = some t → t + 200000 ≤ s.dev.clock.now) : Gives (.tickIn low) s s.dev.tickInEdge := by
  refine .of_done rfl (if_pos ?_)
  have hlow2 : decide (low ≥ 500) = true := decide_eq_true hlow
  rw [hlive, hrole, hen, hlow2]
  cases ht : s.dev.klz.tickIn with
  | none => rfl
  | some t => exact decide_eq_true (hspaced t ht)

end

theorem gives_tickIn_of_short {s : State} {low : Nat} (hlow : low < 500) : Gives (.tickIn low) s s.dev := by
  have hlow2 : decide (low ≥ 500) = false := decide_eq_false (Nat.not_le.mpr hlow)
  refine .of_done rfl (if_neg ?_)
  simp [hlow2]

/-- Settles O35: the row of the wheel by the period change, and each tick's command by the module's role. -/
theorem ticks : Obligations.Ticks := by
  intro s n h c low
  dsimp only
  refine ⟨fun hbefore => ?_, fun p e hperiod he => ?_, fun hlive => ⟨fun hrole => ⟨?_, ?_, ?_⟩, fun hrole => ⟨?_, ?_⟩, fun x hrole hconflict hsrc => ?_,
    fun hrole hticked hlost hsrcs => ?_, fun hrole hlost => ?_, fun hrole hen hlow hspaced => ⟨fun hfed => ?_, fun hfed => ?_⟩, fun hlow => ?_,
    fun hsub => ?_, fun hh hc hadmits hheld => ?_⟩⟩
  · rw [tickRow_of_before hbefore]
    exact ⟨rd_row_nextRow .., rd_subslot_nextRow ..⟩
  · rw [tickRow_of_change hperiod he]
    exact ⟨rd_row_firstRow .., (rd_period_firstRow ..).trans (Device.rd_wr_same ..)⟩
  · exact gives_wheelTick_of_manager hlive hrole
  · exact gives_managerTick hlive hrole
  · exact .of_done rfl (if_pos (by simp [hlive, hrole]))
  · exact .of_done rfl (if_neg (by simp [hrole]))
  · exact .of_done rfl (if_neg (by simp [hrole]))
  · have hgives := gives_wheelTick_of_worker hlive hrole hconflict
    rw [Device.workerTick, hsrc] at hgives
    exact hgives
  · exact .of_done rfl (if_pos (by simp [hlive, hrole, hticked, hlost, hsrcs]))
  · exact .of_done rfl (if_pos (by simp [hlive, hrole, hlost]))
  · have hgives := gives_tickIn hlive hrole hen hlow hspaced
    rw [Device.tickInEdge] at hgives
    exact Eq.mp (congrArg (Gives (.tickIn low) s) (if_pos hfed)) hgives
  · have hgives := gives_tickIn hlive hrole hen hlow hspaced
    rw [Device.tickInEdge] at hgives
    exact Eq.mp (congrArg (Gives (.tickIn low) s) (if_neg (ne_true_of_eq_false hfed))) hgives
  · exact gives_tickIn_of_short hlow
  · exact .of_done rfl (if_pos (by simp [hlive, hsub]))
  · exact .of_done rfl (if_pos (by simp [hlive, hh, hc, hadmits, hheld]))

end Sys2Proof.Machine

/-! A hoop that drains, that is scrubbed, and whose segments are written (R36, R38, R270, R409). -/

namespace Sys2Proof.Machine

/-- A scrub ends: resets that awaited it end, and so do the commands that waited for the hoop (R391, R409). -/
def Device.scrubEnds (d : Device) (h : Nat) : Device :=
  (d.boot.waits.filter (fun w => (w.wait == 1 || w.wait == 2 || w.wait == 3 || w.wait == 4 || w.wait == 6) && w.hdr.hoop == h)).foldl
    (fun d w => d.endWait w 0 0) (d.flrEnds h)

/-- A hoop that HOOP_DESTROY ended loses its ways, cores and registers (R37, R38). -/
def Device.freeHoop (d : Device) (h : Nat) : Device :=
  ((((((List.range 4).foldl (fun d die => d.setWays h die 0) d).disown h).clearRegs Reg.hoopTable h []).setHx h {}).wr Reg.HOOP_CFG_STATE h 0)

section
variable {d : Device} {h : Nat}

theorem scrubDone_of_other (hstate : d.hoopState h ≠ 4) : d.scrubDone h = d := if_pos hstate

variable (hstate : d.hoopState h = 4)
include hstate

theorem scrubDone_of_kept (hkept : (d.hx h).purpose ≠ 1) : d.scrubDone h = ((d.scrub h).wr Reg.HOOP_CFG_STATE h 2).scrubEnds h := by
  have hpurpose : ((d.hx h).purpose == 1) = false := beq_eq_false_iff_ne.mpr hkept
  refine (if_neg (not_not_intro hstate)).trans ?_
  dsimp only
  rw [hpurpose]
  rfl

theorem scrubDone_of_destroyed (hgone : (d.hx h).purpose = 1) : d.scrubDone h = ((d.scrub h).freeHoop h).scrubEnds h := by
  have hpurpose : ((d.hx h).purpose == 1) = true := beq_iff_eq.mpr hgone
  refine (if_neg (not_not_intro hstate)).trans ?_
  dsimp only
  rw [hpurpose]
  rfl

end

section
variable (d : Device) (h : Nat)

theorem setWays_regsOf (die mask : Nat) : d.RegsOf (d.setWays h die mask) := by
  refine (Device.RegsOf.wr d ..).trans (.foldl (fun e w => ?_) _ _)
  split
  · exact .wr e ..
  · split
    · exact .wr e ..
    · exact .refl e

theorem disown_regsOf : d.RegsOf (d.disown h) := by
  refine .foldl (fun e k => ?_) _ _
  split
  · exact .wr e ..
  · exact .refl e

theorem clearRegs_regsOf (t : List RegD) (keep : List Fld) : d.RegsOf (d.clearRegs t h keep) := ⟨_, rfl⟩

/-- The device with the registers of a hoop as they are when it is free. -/
theorem freed_spec (e : Device) : let d := (e.setHx h {}).wr Reg.HOOP_CFG_STATE h 0
    d.hoopState h = 0 ∧ d.mem = e.mem ∧ d.hx h = {} ∧ d.boot = e.boot :=
  ⟨Device.rd_wr_same .., rfl, by exact Tab.get_put_same {} e.work.hoops h {}, rfl⟩

/-- What a hoop that is freed loses lies in the registers, and in what is kept beside them. -/
theorem freeHoop_spec : (d.freeHoop h).hoopState h = 0 ∧ (d.freeHoop h).mem = d.mem ∧ (d.freeHoop h).hx h = {} ∧ (d.freeHoop h).boot = d.boot := by
  obtain ⟨r, hr⟩ := ((Device.RegsOf.foldl (fun e die => setWays_regsOf e h die 0) (List.range 4) d).trans
    ((disown_regsOf _ h).trans (clearRegs_regsOf _ h Reg.hoopTable []))).eq
  rw [Device.freeHoop, hr]
  exact freed_spec h _

theorem zeroClusters_boot (clusters : Nat) : (d.zeroClusters clusters).boot = d.boot := by
  refine List.foldlRecOn (motive := fun e : Device => e.boot = d.boot) _ _ rfl fun e he k _ => ?_
  split <;> exact he

theorem pinsNow_regsOf : d.RegsOf d.pinsNow := .foldl (fun e _ => .wr e ..) _ _

theorem zeroGroups_boot (groups : Nat) : (d.zeroGroups groups).boot = d.boot := by
  rw [Device.zeroGroups]
  obtain ⟨r, hr⟩ := (pinsNow_regsOf _).eq
  rw [hr]
  rfl

theorem scrub_boot : (d.scrub h).boot = d.boot := by
  delta Device.scrub
  extract_lets d1 ways d2 d3 mine d4 d5 d6 d7 d8 d9 d10 x
  have hzero : d3.boot = d.boot := (zeroClusters_boot ..).trans (zeroGroups_boot ..)
  clear_value d3
  exact hzero

/-- The end of a function reset lies beside the registers, device memory and what is kept of hoops. -/
theorem flrEnds_frame : (d.flrEnds h).hoopState h = d.hoopState h ∧ (d.flrEnds h).mem = d.mem ∧ (d.flrEnds h).hx h = d.hx h := ⟨rfl, rfl, rfl⟩

theorem scrubEnds_of_nil (hwaits : d.boot.waits = []) : d.scrubEnds h = d.flrEnds h := by
  rw [Device.scrubEnds, hwaits, List.filter_nil, List.foldl_nil]

end

/-- Settles O36: a hoop drains, is scrubbed and is freed, and a segment write waits for the accesses in flight. -/
theorem hoopLife : Obligations.HoopLife := by
  intro s h
  dsimp only
  refine fun hlive hh => ⟨fun hstate hblocks hslots => ?_, fun hbusy => ?_, fun hstate => ?_,
    fun hstate => ⟨fun hkept => ?_, fun hgone => ⟨?_, fun hwaits => ?_⟩⟩, fun w hw => ⟨fun hdone => ?_, fun hflight => ?_⟩⟩
  · refine .of_done rfl ((if_pos (by simp [hlive, hh])).trans (if_pos ⟨hstate, ?_, hslots⟩))
    rw [hblocks]
    rfl
  · refine .of_done rfl ((if_pos (by simp [hlive, hh])).trans (if_neg fun hidle => ?_))
    obtain ⟨hstate, hblocks, hslots⟩ := hidle
    rcases hbusy with hother | hrun | hheld
    · exact hother hstate
    · rw [hrun] at hblocks
      exact Bool.false_ne_true hblocks
    · exact hheld hslots
  · exact .of_done rfl ((if_pos (by simp [hlive, hh])).trans (scrubDone_of_other hstate))
  · exact .of_done rfl ((if_pos (by simp [hlive, hh])).trans (scrubDone_of_kept hstate hkept))
  · exact .of_done rfl ((if_pos (by simp [hlive, hh])).trans (scrubDone_of_destroyed hstate hgone))
  · obtain ⟨hfree, hmem, hhx, hboot⟩ := freeHoop_spec (s.dev.scrub h) h
    have hnone : ((s.dev.scrub h).freeHoop h).boot.waits = [] := by rw [hboot, scrub_boot, hwaits]
    obtain ⟨fstate, fmem, fhx⟩ := flrEnds_frame ((s.dev.scrub h).freeHoop h) h
    exact ⟨_, .of_done rfl ((if_pos (by simp [hlive, hh])).trans ((scrubDone_of_destroyed hstate hgone).trans (scrubEnds_of_nil _ h hnone))),
      fstate.trans hfree, fmem.trans hmem, fhx.trans hhx⟩
  · refine .of_done rfl ?_
    rw [hw]
    exact if_pos (by simp [hlive, hdone])
  · refine .of_done rfl ?_
    rw [hw]
    exact if_neg (by simp [hflight])

end Sys2Proof.Machine

/-! Resets of functions, the link, and their vectors (R380, R389 to R394, R396). -/

namespace Sys2Proof.Machine

/-! Configuration requests -/

section
variable {d : Device} {n : Nat} {f : Device → Device}

theorem cfgReq_of_closed (hclosed : ¬ (d.awake = true ∧ d.pcie.up = true ∧ d.fnExists n = true ∧ d.life.rindDead = false)) : d.cfgReq n f = d := by
  refine if_pos ?_
  rw [Bool.not_eq_true', ← Bool.not_eq_true]
  simpa [and_assoc] using hclosed

variable (hopen : d.awake = true ∧ d.pcie.up = true ∧ d.fnExists n = true ∧ d.life.rindDead = false)
include hopen

theorem cfgReq_of_retry (hretry : d.pcie.crs = true ∨ d.inReset n = true) : d.cfgReq n f = d.emit (.completion n .rrs []) := by
  obtain ⟨hawake, hup, hfn, hrind⟩ := hopen
  exact (if_neg (by simp [hawake, hup, hfn, hrind])).trans (if_pos (by simpa using hretry))

theorem cfgReq_of_served (hserved : ¬ (d.pcie.crs = true ∨ d.inReset n = true)) : d.cfgReq n f = f d := by
  obtain ⟨hawake, hup, hfn, hrind⟩ := hopen
  exact (if_neg (by simp [hawake, hup, hfn, hrind])).trans (if_neg (by simpa using hserved))

end

/-- A configuration request is lost, answered with Request Retry Status, or has its effect (R391, R394). -/
theorem asks_of_cfgReq {c : Instr} {s : State} {n : Nat} {f : Device → Device} (hexec : exec c s = s.done (s.dev.cfgReq n f)) :
    let reached := s.dev.awake = true ∧ s.dev.pcie.up = true ∧ s.dev.fnExists n = true ∧ s.dev.life.rindDead = false
    let retry := s.dev.pcie.crs = true ∨ s.dev.inReset n = true
    (¬ reached → Gives c s s.dev) ∧ (reached → retry → Gives c s (s.dev.emit (.completion n .rrs []))) ∧ (reached → ¬ retry → Gives c s (f s.dev)) :=
  ⟨fun hclosed => .of_done hexec (cfgReq_of_closed hclosed), fun hopen hretry => .of_done hexec (cfgReq_of_retry hopen hretry),
    fun hopen hserved => .of_done hexec (cfgReq_of_served hopen hserved)⟩

/-- After a reset of the PF no VF exists, and no function masters the bus or has a vector (R393). -/
theorem pfReset_spec (d : Device) :
    d.pfReset.vfs = 0 ∧ d.pfReset.pcie.busMaster = 0 ∧ d.pfReset.pcie.entries = [] ∧ d.pfReset.pcie.pend = [] := by
  delta Device.pfReset
  exact ⟨rfl, rfl, rfl, rfl⟩

theorem getD_mem_pcieWidths (i : Fin 5) : pcieWidths.getD i.val 0 ∈ pcieWidths := by
  revert i; decide

theorem getD_mem_pcieRates (i : Fin 6) : pcieRates.getD i.val 0 ∈ pcieRates := by
  revert i; decide

/-- VF_DISABLE of a VF, and those above it, as a change of the configuration (R380). -/
def Device.vfsFrom (d : Device) (v : Nat) : Device :=
  Device.vfsGone { d with pcie := { d.pcie with vfEnable := v != 1, numVfs := v - 1 } } d.vfs

/-- BUS_MASTER_ENABLE, and what goes on with it (R390). -/
def Device.setMaster (d : Device) (fn : Nat) (on : Bool) : Device :=
  (({ d with pcie := { d.pcie with busMaster := setBit d.pcie.busMaster fn on } } : Device).flushVectors fn).ringFetch fn

/-- Settles O37: the resets of functions as configuration requests, and the link's own changes. -/
theorem functions : Obligations.Functions := by
  intro s fn v on
  dsimp only
  obtain ⟨hvfs, hmaster, hentries, hpend⟩ := pfReset_spec s.dev
  refine ⟨fun hv => asks_of_cfgReq (f := fun d => d.vfReset v 0) (congrArg s.done (if_pos hv)),
    fun hv hvfs => asks_of_cfgReq (f := fun d => d.vfsFrom v) (congrArg s.done (if_pos (by simp [hv, hvfs]))),
    fun hv => .of_done rfl (if_neg (by omega)), fun hv => .of_done rfl (if_neg (by simp; omega)),
    asks_of_cfgReq (f := fun d => d.pfReset) rfl, hvfs, hmaster, hentries, hpend, asks_of_cfgReq (f := fun d => d.setMaster fn on) rfl,
    fun hawake hup => .of_done rfl (if_pos (by simp [hawake, hup])), fun hdown => .of_done rfl (if_neg ?_),
    fun hawake hup => ⟨_, _, getD_mem_pcieWidths _, getD_mem_pcieRates _, .of_done rfl (if_pos (by simp [hawake, hup]))⟩,
    fun hdown => .of_done rfl (if_neg ?_), fun hopen hstage hv => .of_done rfl (if_pos (by simp [hopen, hstage, hv]))⟩
  · rcases hdown with hawake | hup <;> simp [*]
  · rcases hdown with hawake | hup <;> simp [*]

end Sys2Proof.Machine

/-! Register writes with effects of their own: pointers, rings and locks (R55, R59, R404, R405, R422, R424, R442, R445). -/

namespace Sys2Proof.Machine

/-! A write at a place is the write of its register -/

theorem decodes_of_ready {d : Device} {a : Nat} (hstage : d.stage = 4) (ha : a < 0x80008 ∨ 0x80010 ≤ a) : d.decodes a = true := by
  rw [Device.decodes, if_pos hstage]
  simpa using ha

section
variable {s : State} {c : Instr} {fn a w v i b : Nat} {g : RegD} (hopen : s.dev.regOpen fn = true) (hstage : s.dev.stage = 4)
  (hbits : g.bits ≠ 16) (hcovered : (v % 2 ^ (8 * w) * 2 ^ (8 * b)) &&& g.covered = v % 2 ^ (8 * w) * 2 ^ (8 * b))
include hopen hstage hbits hcovered

/-- A write at a place, of bits that are not reserved, is the write of the register there. -/
theorem gives_writeAt (hexec : exec c s = s.writeAt fn a w v) (ha : a < 0x80008 ∨ 0x80010 ≤ a) (hfind : findReg a = some (g, i, b))
    (hreached : g.reached a w = true) {d : Device}
    (hd : s.dev.regWrite g i ((2 ^ (8 * w) - 1) * 2 ^ (8 * b)) (v % 2 ^ (8 * w) * 2 ^ (8 * b)) = d) : Gives c s d := by
  refine hexec.trans ?_
  subst hd
  rw [State.writeAt, hopen, decodes_of_ready hstage ha, s.dev.placeWrite_of_findReg v hfind (.inl hbits) hreached,
    if_neg (not_not_intro ((sub_and_eq_zero_iff _ _).mpr hcovered))]
  rfl

theorem gives_writeHoop {h o : Nat} (hexec : exec c s = s.writeHoop fn h o w v) (hreaches : reaches fn h = true)
    (hfind : findReg (0x100000 + 0x10000 * h + o) = some (g, i, b)) (hreached : g.reached (0x100000 + 0x10000 * h + o) w = true) {d : Device}
    (hd : s.dev.regWrite g i ((2 ^ (8 * w) - 1) * 2 ^ (8 * b)) (v % 2 ^ (8 * w) * 2 ^ (8 * b)) = d) : Gives c s d :=
  gives_writeAt hopen hstage hbits hcovered (hexec.trans (if_pos hreaches)) (.inr (by omega)) hfind hreached hd

end

/-! The upper word of a register -/

/-- A write of the upper 4 bytes of a register that is covered throughout sets no reserved bit. -/
theorem upper_covered (v : W32) : (v.toNat % 2 ^ (8 * 4) * 2 ^ (8 * 4)) &&& (2 ^ 64 - 1) = v.toNat % 2 ^ (8 * 4) * 2 ^ (8 * 4) := by
  rw [Nat.and_two_pow_sub_one_eq_mod]
  omega

/-- Such a write brings its value to what the upper word does. -/
theorem upper_written {α : Type} (v : W32) (f : Nat → α) (x : α) :
    (if ((2 ^ (8 * 4) - 1) * 2 ^ (8 * 4)).testBit 32 = true then f (v.toNat % 2 ^ (8 * 4) * 2 ^ (8 * 4) / 2 ^ 32 % 2 ^ 32) else x) = f v.toNat := by
  have hlt := v.isLt
  rw [if_pos (by decide), show v.toNat % 2 ^ (8 * 4) * 2 ^ (8 * 4) / 2 ^ 32 % 2 ^ 32 = v.toNat by omega]

def relqPtrReg : RegD := ⟨"HOOP_RELQ_PTR", 0x100058, 0x10000, 8, 64, [Reg.HOOP_RELQ_PTR_TAIL] ++ [Reg.HOOP_RELQ_PTR_HEAD]⟩
def viewPtrReg : RegD := ⟨"HOOP_ERRQ_PTR", 0x100108, 0x10000, 8, 64, [Reg.HOOP_ERRQ_PTR_TAIL] ++ [Reg.HOOP_ERRQ_PTR_HEAD]⟩
def tracePtrReg : RegD := ⟨"HOOP_TRACE_PTR", 0x100130, 0x10000, 8, 64, [Reg.HOOP_TRACE_PTR_TAIL] ++ [Reg.HOOP_TRACE_PTR_HEAD]⟩
def errqPtrReg : RegD := ⟨"ERRQ_PTR", 0x60008, 0x0, 1, 64, [Reg.ERRQ_PTR_TAIL] ++ [Reg.ERRQ_PTR_HEAD]⟩

theorem reaches_lt {fn h : Nat} (hreaches : reaches fn h = true) : h < 8 := by
  simp only [reaches, Bool.and_eq_true, decide_eq_true_eq] at hreaches
  exact hreaches.1

section
variable (d : Device) (i mask x : Nat)

theorem regWrite_relqPtr : d.regWrite relqPtrReg i mask x = if mask.testBit 32 = true then d.relqHead i (x / 2 ^ 32 % 2 ^ 32) else d := rfl

theorem regWrite_viewPtr : d.regWrite viewPtrReg i mask x = if mask.testBit 32 = true then d.viewHead i (x / 2 ^ 32 % 2 ^ 32) else d := rfl

theorem regWrite_tracePtr : d.regWrite tracePtrReg i mask x = if mask.testBit 32 = true then d.traceHead i (x / 2 ^ 32 % 2 ^ 32) else d := rfl

/-- The register that holds TABLES_LOCK. -/
def cfgReg : RegD :=
  ⟨"HOOP_CFG", 0x100010, 0x10000, 8, 64, [Reg.HOOP_CFG_HOOP] ++ [Reg.HOOP_CFG_DEP_MODEL] ++ [Reg.HOOP_CFG_TABLES_LOCK] ++ [Reg.HOOP_CFG_WATCHDOG]
    ++ [Reg.HOOP_CFG_STATE] ++ [Reg.HOOP_CFG_LINK_SHARE] ++ [Reg.HOOP_CFG_SLOT_MIN] ++ [Reg.HOOP_CFG_SLOT_MAX] ++ [Reg.HOOP_CFG_POWER_SHARE]⟩

theorem regWrite_cfg : d.regWrite cfgReg i mask x = if (mask &&& x).testBit 4 = true then d.tablesLock i else d := rfl

def watchReg : RegD :=
  ⟨"HOOP_WATCH", 0x100138, 0x10000, 8, 64, [Reg.HOOP_WATCH_ENABLED] ++ [Reg.HOOP_WATCH_HIT] ++ [Reg.HOOP_WATCH_STOPPED]⟩

theorem regWrite_watch : d.regWrite watchReg i mask x =
    if (mask &&& x).testBit 32 = true then (d.writeFields watchReg.fields false i mask x).watchResume i
    else d.writeFields watchReg.fields false i mask x := rfl

theorem regWrite_errqPtr : d.regWrite errqPtrReg i mask x = if mask.testBit 32 = true then d.errqHead (x / 2 ^ 32 % 2 ^ 32) else d := rfl

end

/-! Registers that a write changes in their fields -/

/-- Only the low bits of a value are written to a field. -/
theorem wr_congr {d : Device} {f : Fld} {i v w : Nat} (h : v % 2 ^ f.width = w % 2 ^ f.width) : d.wr f i v = d.wr f i w := by
  rw [Device.wr, Fld.write, h, Device.wr, Fld.write]

section
variable {d : Device} {f : Fld} {i mask x : Nat} (hacc : f.acc = .rwl)
include hacc

/-- A write of a locked field leaves it as it is. -/
theorem wr_written_of_locked (old : Nat) : d.wr f i (f.written true old mask x) = d.wr f i old := by
  simp [Fld.written, hacc, Acc.apply]

/-- A write of all bits of a field that is not locked gives it the value's bits. -/
theorem wr_written_of_open (hwidth : 0 < f.width) (hmask : bits mask (f.lo + f.width - 1) f.lo = 2 ^ f.width - 1) (old : Nat) :
    d.wr f i (f.written false old mask x) = d.wr f i (bits x (f.lo + f.width - 1) f.lo) := by
  refine wr_congr ?_
  have hold : old - old % 2 ^ f.width = 2 ^ f.width * (old / 2 ^ f.width) := by have := Nat.mod_add_div old (2 ^ f.width); omega
  have hspan : f.lo + f.width - 1 + 1 - f.lo = f.width := by omega
  have hbits : bits x (f.lo + f.width - 1) f.lo < 2 ^ f.width := by
    simp only [bits, hspan]
    exact Nat.mod_lt _ (Nat.two_pow_pos _)
  simp [Fld.written, hacc, hmask, Acc.apply, Nat.and_two_pow_sub_one_eq_mod, hold, Nat.mod_eq_of_lt hbits]

end

/-- A number whose bits lie in a mask is unchanged by it. -/
theorem and_eq_of_bits {x m : Nat} (h : ∀ i, m.testBit i = false → x.testBit i = false) : x &&& m = x := by
  refine Nat.eq_of_testBit_eq fun i => ?_
  rw [Nat.testBit_and]
  cases hm : m.testBit i with
  | true => exact Bool.and_true _
  | false => rw [h i hm, Bool.and_false]

/-- A bit of a part of a number that is 0 is not set. -/
theorem testBit_of_part {x lo n i : Nat} (h : x / 2 ^ lo % 2 ^ n = 0) (hlo : lo ≤ i) (hi : i < lo + n) : x.testBit i = false := by
  have hbit := Nat.testBit_mod_two_pow (x / 2 ^ lo) n (i - lo)
  rw [h, Nat.zero_testBit, Nat.testBit_div_two_pow, Nat.sub_add_cancel hlo] at hbit
  simpa [show i - lo < n by omega] using hbit.symm

theorem writeFields_regsOf (d : Device) (l : List Fld) (locked : Bool) (i mask x : Nat) : d.RegsOf (d.writeFields l locked i mask x) := by
  refine .foldl (fun e f => ?_) l d
  split
  · exact .refl e
  · exact .wr e ..

/-! The view's register -/

def viewReg : RegD := ⟨"HOOP_ERRQ", 0x100100, 0x10000, 8, 64, [Reg.HOOP_ERRQ_ENABLE] ++ [Reg.HOOP_ERRQ_SIZE_LOG2] ++ [Reg.HOOP_ERRQ_BASE]⟩

/-- The value sets no reserved bit of HOOP_ERRQ. -/
theorem view_covered {x : Nat} (h5 : x / 2 ^ 5 % 2 ^ 7 = 0) (h48 : x / 2 ^ 48 = 0) : x &&& viewReg.covered = x := by
  refine and_eq_of_bits fun i hi => ?_
  have hall : ∀ i < 48, viewReg.covered.testBit i = false → 5 ≤ i ∧ i < 12 := by decide
  rcases Nat.lt_or_ge i 48 with hlt | h1
  · exact testBit_of_part h5 (hall i hlt hi).1 (hall i hlt hi).2
  · exact Nat.testBit_lt_two_pow (lt_of_lt_of_le (by omega : x < 2 ^ 48) (Nat.pow_le_pow_right (by decide) h1))

/-- The place of a view after a write of HOOP_ERRQ: locked while the view is enabled (R424). -/
def Device.viewPlaced (d : Device) (h x : Nat) : Device :=
  if d.rd Reg.HOOP_ERRQ_ENABLE h = 1 then
    (d.wr Reg.HOOP_ERRQ_SIZE_LOG2 h (d.rd Reg.HOOP_ERRQ_SIZE_LOG2 h)).wr Reg.HOOP_ERRQ_BASE h (d.rd Reg.HOOP_ERRQ_BASE h)
  else (d.wr Reg.HOOP_ERRQ_SIZE_LOG2 h (x / 2 % 16)).wr Reg.HOOP_ERRQ_BASE h (x / 2 ^ 12)

theorem regWrite_view (d : Device) (h mask x : Nat) :
    d.regWrite viewReg h mask x =
      let e := d.writeFields [Reg.HOOP_ERRQ_SIZE_LOG2, Reg.HOOP_ERRQ_BASE] (d.rd Reg.HOOP_ERRQ_ENABLE h == 1) h mask x
      if (mask % 2 == 1) = true then e.viewEnable h (x % 2) else e := rfl

theorem writeFields_view (d : Device) (h : Nat) {x : Nat} (h48 : x / 2 ^ 48 = 0) :
    d.writeFields [Reg.HOOP_ERRQ_SIZE_LOG2, Reg.HOOP_ERRQ_BASE] (d.rd Reg.HOOP_ERRQ_ENABLE h == 1) h (2 ^ 64 - 1) x = d.viewPlaced h x := by
  have hsame : ∀ n, (d.wr Reg.HOOP_ERRQ_SIZE_LOG2 h n).rd Reg.HOOP_ERRQ_BASE h = d.rd Reg.HOOP_ERRQ_BASE h := fun n =>
    Device.rd_wr_ne _ _ _ _ _ _ (by simp only [Fld.key, Reg.HOOP_ERRQ_BASE, Reg.HOOP_ERRQ_SIZE_LOG2]; omega)
  have hstep : ∀ locked, d.writeFields [Reg.HOOP_ERRQ_SIZE_LOG2, Reg.HOOP_ERRQ_BASE] locked h (2 ^ 64 - 1) x =
      (d.wr Reg.HOOP_ERRQ_SIZE_LOG2 h (Reg.HOOP_ERRQ_SIZE_LOG2.written locked (d.rd Reg.HOOP_ERRQ_SIZE_LOG2 h) (2 ^ 64 - 1) x)).wr
        Reg.HOOP_ERRQ_BASE h (Reg.HOOP_ERRQ_BASE.written locked
          ((d.wr Reg.HOOP_ERRQ_SIZE_LOG2 h (Reg.HOOP_ERRQ_SIZE_LOG2.written locked (d.rd Reg.HOOP_ERRQ_SIZE_LOG2 h) (2 ^ 64 - 1) x)).rd
            Reg.HOOP_ERRQ_BASE h) (2 ^ 64 - 1) x) := fun _ => rfl
  rw [hstep, hsame, Device.viewPlaced]
  by_cases hon : d.rd Reg.HOOP_ERRQ_ENABLE h = 1
  · rw [if_pos hon, beq_iff_eq.mpr hon, wr_written_of_locked rfl, wr_written_of_locked rfl]
  · rw [if_neg hon, beq_eq_false_iff_ne.mpr hon, wr_written_of_open rfl (by decide) (by decide), wr_written_of_open rfl (by decide) (by decide)]
    have hsize : bits x (Reg.HOOP_ERRQ_SIZE_LOG2.lo + Reg.HOOP_ERRQ_SIZE_LOG2.width - 1) Reg.HOOP_ERRQ_SIZE_LOG2.lo = x / 2 % 16 := rfl
    have hbase : bits x (Reg.HOOP_ERRQ_BASE.lo + Reg.HOOP_ERRQ_BASE.width - 1) Reg.HOOP_ERRQ_BASE.lo = x / 2 ^ 12 % 2 ^ 36 := rfl
    rw [hsize, hbase, Nat.mod_eq_of_lt (show x / 2 ^ 12 < 2 ^ 36 by omega)]

/-- A field of the hoop windows that does not lie in HOOP_ERRQ. -/
def Fld.besideView (f : Fld) : Prop := f.stride = 0x10000 ∧ f.base % 0x10000 ≠ 0x100 ∧ f.lo < 1024

section
variable (d : Device) (h x : Nat)

theorem rd_viewPlaced {f : Fld} (hf : f.besideView) (i : Nat) : (d.viewPlaced h x).rd f i = d.rd f i := by
  obtain ⟨hstride, hbase, hlo⟩ := hf
  have hkey : ∀ g : Fld, g.base = 0x100100 → g.stride = 0x10000 → g.lo < 1024 → f.key i ≠ g.key h := by
    intro g gbase gstride glo
    simp only [Fld.key, hstride, gbase, gstride]
    omega
  have hsize := hkey Reg.HOOP_ERRQ_SIZE_LOG2 rfl rfl (by decide)
  have hplace := hkey Reg.HOOP_ERRQ_BASE rfl rfl (by decide)
  unfold Device.viewPlaced
  split <;> rw [Device.rd_wr_ne _ _ _ _ _ _ hplace, Device.rd_wr_ne _ _ _ _ _ _ hsize]

theorem viewPlaced_regsOf : d.RegsOf (d.viewPlaced h x) := by
  unfold Device.viewPlaced
  split <;> exact ⟨_, rfl⟩

theorem seg_viewPlaced (i slot : Nat) : (d.viewPlaced h x).seg i slot = d.seg i slot := by
  have hown : ∀ i slot, (d.viewPlaced h x).segOwn i slot = d.segOwn i slot := by
    intro i slot
    obtain ⟨r, hr⟩ := (viewPlaced_regsOf d h x).eq
    have hmem : (d.viewPlaced h x).mem = d.mem := by rw [hr]
    rw [Device.segOwn, Device.segBytes, Device.tableAddr, hmem, rd_viewPlaced d h x ⟨rfl, by decide, by decide⟩]
    rfl
  rw [Device.seg, Device.seg, hown, hown]

theorem slotOf_viewPlaced (i : Nat) {n : Nat} (hn : n < 16) :
    (d.viewPlaced h x).slotOf i ((d.viewPlaced h x).curMap i) n = d.slotOf i (d.curMap i) n := by
  have hmap : (d.viewPlaced h x).rd (Reg.HOOP_SEGMAP_MAP n) i = d.rd (Reg.HOOP_SEGMAP_MAP n) i :=
    rd_viewPlaced d h x ⟨rfl, show 0x1000d0 % 0x10000 ≠ 0x100 by decide, show 4 * n < 1024 by omega⟩ i
  rw [Device.slotOf, Device.curMap, if_pos (.inl rfl), Device.slotOf, Device.curMap, if_pos (.inl rfl), hmap]

/-- Where a hoop may write depends on its segments alone, not on its view's place. -/
theorem hbmWritable_viewPlaced (i va n : Nat) : (d.viewPlaced h x).hbmWritable i va n = d.hbmWritable i va n := by
  have hn : bits va 47 44 < 16 := Nat.mod_lt _ (by decide)
  rw [Device.hbmWritable, Device.hbmWritable, slotOf_viewPlaced d h x i hn, seg_viewPlaced, Device.isSessionSeg, Device.isSessionSeg,
    rd_viewPlaced d h x ⟨rfl, by decide, by decide⟩, rd_viewPlaced d h x ⟨rfl, by decide, by decide⟩, rd_viewPlaced d h x ⟨rfl, by decide, by decide⟩, rd_viewPlaced d h x ⟨rfl, by decide, by decide⟩]

end

/-- A view that is enabled anew is empty, and keeps the place that it was given (R424). -/
theorem viewEnable_spec {d : Device} {h x : Nat} (hoff : d.rd Reg.HOOP_ERRQ_ENABLE h = 0) (h6 : 6 ≤ x / 2 % 16) (h14 : x / 2 % 16 ≤ 14)
    (h48 : x / 2 ^ 48 = 0) (hwritable : d.hbmWritable h (x / 2 ^ 12 * 4096) 1 = true) :
    let e := (d.viewPlaced h x).viewEnable h 1
    e.rd Reg.HOOP_ERRQ_ENABLE h = 1 ∧ e.rd Reg.HOOP_ERRQ_PTR_TAIL h = 0 ∧ e.rd Reg.HOOP_ERRQ_PTR_HEAD h = 0 ∧
      e.rd Reg.HOOP_ERRQ_SIZE_LOG2 h = x / 2 % 16 ∧ e.mem = d.mem := by
  have hplaced : d.viewPlaced h x = (d.wr Reg.HOOP_ERRQ_SIZE_LOG2 h (x / 2 % 16)).wr Reg.HOOP_ERRQ_BASE h (x / 2 ^ 12) := if_neg (by omega)
  have hw := (hbmWritable_viewPlaced d h x h (x / 2 ^ 12 * 4096) 1).trans hwritable
  have hen : (d.viewPlaced h x).rd Reg.HOOP_ERRQ_ENABLE h ≠ 1 := by
    rw [hplaced]
    simp (disch := (simp only [Fld.key, Reg.HOOP_ERRQ_ENABLE, Reg.HOOP_ERRQ_SIZE_LOG2, Reg.HOOP_ERRQ_BASE]; omega)) only [Device.rd_wr_ne]
    omega
  have hsize : (d.viewPlaced h x).rd Reg.HOOP_ERRQ_SIZE_LOG2 h = x / 2 % 16 := by
    rw [hplaced]
    simp (disch := (simp only [Fld.key, Reg.HOOP_ERRQ_SIZE_LOG2, Reg.HOOP_ERRQ_BASE]; omega)) only [Device.rd_wr_ne, Device.rd_wr_same]
    exact Nat.mod_mod _ _
  have hbase : (d.viewPlaced h x).rd Reg.HOOP_ERRQ_BASE h = x / 2 ^ 12 := by
    rw [hplaced, Device.rd_wr_same]
    exact Nat.mod_eq_of_lt (show x / 2 ^ 12 < 2 ^ 36 by omega)
  have hmem : (d.viewPlaced h x).mem = d.mem := by rw [hplaced]; rfl
  have hfits : 6 ≤ (d.viewPlaced h x).rd Reg.HOOP_ERRQ_SIZE_LOG2 h ∧ (d.viewPlaced h x).rd Reg.HOOP_ERRQ_SIZE_LOG2 h ≤ 14 ∧
      (d.viewPlaced h x).hbmWritable h ((d.viewPlaced h x).rd Reg.HOOP_ERRQ_BASE h * 4096) 1 = true := by
    rw [hsize, hbase]
    exact ⟨h6, h14, hw⟩
  generalize d.viewPlaced h x = e at hen hsize hmem hfits
  have heq : e.viewEnable h 1 = (((e.wr Reg.HOOP_ERRQ_PTR_TAIL h 0).wr Reg.HOOP_ERRQ_PTR_HEAD h 0).wr Reg.HOOP_ERRQ_ENABLE h 1).setErrRing h
      { ((e.wr Reg.HOOP_ERRQ_PTR_TAIL h 0).wr Reg.HOOP_ERRQ_PTR_HEAD h 0).errRing h with sigs := [] } :=
    (if_neg (by decide)).trans ((if_neg hen).trans (if_pos hfits))
  have hregs : ∀ f : Fld, (e.viewEnable h 1).rd f h =
      (((e.wr Reg.HOOP_ERRQ_PTR_TAIL h 0).wr Reg.HOOP_ERRQ_PTR_HEAD h 0).wr Reg.HOOP_ERRQ_ENABLE h 1).rd f h := fun f => by rw [heq]; rfl
  dsimp only
  rw [hregs, hregs, hregs, hregs]
  simp (disch := (simp only [Fld.key, Reg.HOOP_ERRQ_ENABLE, Reg.HOOP_ERRQ_SIZE_LOG2, Reg.HOOP_ERRQ_PTR_TAIL, Reg.HOOP_ERRQ_PTR_HEAD]; omega)) only
    [Device.rd_wr_ne, Device.rd_wr_same, hsize]
  exact ⟨rfl, rfl, rfl, trivial, (congrArg Device.mem heq).trans hmem⟩

/-! The registers of a management ring -/

def ringReg : RegD := ⟨"MGMT_RING", 0x8000000, 0x1000, 10, 64, [Reg.MGMT_RING_ENABLE] ++ [Reg.MGMT_RING_SIZE_LOG2] ++ [Reg.MGMT_RING_BASE]⟩
def ringTailReg : RegD := ⟨"MGMT_TAIL", 0x8000008, 0x1000, 10, 32, [Reg.MGMT_TAIL_TAIL]⟩

/-- The value sets no reserved bit of MGMT_RING. -/
theorem ring_covered {x : Nat} (hx : x < 2 ^ 64) (h1 : x / 2 ^ 1 % 2 ^ 3 = 0) (h8 : x / 2 ^ 8 % 2 ^ 4 = 0) : x &&& ringReg.covered = x := by
  refine and_eq_of_bits fun i hi => ?_
  have hall : ∀ i < 64, ringReg.covered.testBit i = false → (1 ≤ i ∧ i < 4) ∨ (8 ≤ i ∧ i < 12) := by decide
  rcases Nat.lt_or_ge i 64 with hlt | h64
  · rcases hall i hlt hi with ⟨hlo, hhi⟩ | ⟨hlo, hhi⟩
    · exact testBit_of_part h1 hlo hhi
    · exact testBit_of_part h8 hlo hhi
  · exact Nat.testBit_lt_two_pow (lt_of_lt_of_le hx (Nat.pow_le_pow_right (by decide) h64))

section
variable (d : Device) (r x : Nat)

theorem regWrite_ring (mask : Nat) :
    d.regWrite ringReg r mask x =
      let e := d.writeFields [Reg.MGMT_RING_SIZE_LOG2, Reg.MGMT_RING_BASE] (d.ringOn r) r mask x
      if (mask % 2 == 1) = true then e.ringEnable r (x % 2) else e := rfl

theorem regWrite_ringTail (mask : Nat) : d.regWrite ringTailReg r mask x = d.ringTail r (x % 2 ^ 32) := by
  simp only [Device.regWrite, ringTailReg]

/-- The size and place of a ring that is not enabled are written (R404). -/
def Device.ringPlaced : Device := (d.wr Reg.MGMT_RING_SIZE_LOG2 r (x / 16 % 16)).wr Reg.MGMT_RING_BASE r (x / 2 ^ 12)

theorem writeFields_ring : d.writeFields [Reg.MGMT_RING_SIZE_LOG2, Reg.MGMT_RING_BASE] false r (2 ^ 64 - 1) x = d.ringPlaced r x := by
  have hstep : d.writeFields [Reg.MGMT_RING_SIZE_LOG2, Reg.MGMT_RING_BASE] false r (2 ^ 64 - 1) x =
      (d.wr Reg.MGMT_RING_SIZE_LOG2 r (Reg.MGMT_RING_SIZE_LOG2.written false (d.rd Reg.MGMT_RING_SIZE_LOG2 r) (2 ^ 64 - 1) x)).wr
        Reg.MGMT_RING_BASE r (Reg.MGMT_RING_BASE.written false
          ((d.wr Reg.MGMT_RING_SIZE_LOG2 r (Reg.MGMT_RING_SIZE_LOG2.written false (d.rd Reg.MGMT_RING_SIZE_LOG2 r) (2 ^ 64 - 1) x)).rd
            Reg.MGMT_RING_BASE r) (2 ^ 64 - 1) x) := rfl
  rw [hstep, wr_written_of_open rfl (by decide) (by decide), wr_written_of_open rfl (by decide) (by decide)]
  exact wr_congr (Nat.mod_mod (x / 2 ^ 12) (2 ^ 52))

/-- A ring that is enabled is empty, with the size that it was given (R404). -/
theorem ringEnable_spec (hoff : d.ringOn r = false) (h2 : 2 ≤ x / 16 % 16) (h8 : x / 16 % 16 ≤ 8) :
    let e := (d.ringPlaced r x).ringEnable r 1
    e.ringOn r = true ∧ e.ringHead r = 0 ∧ e.rd Reg.MGMT_TAIL_TAIL r = 0 ∧ e.ringLog2 r = x / 16 % 16 ∧ e.mem = d.mem := by
  have hon : (d.ringPlaced r x).ringOn r = false := by
    rw [Device.ringOn, Device.ringPlaced]
    simp (disch := (simp only [Fld.key, Reg.MGMT_RING_ENABLE, Reg.MGMT_RING_SIZE_LOG2, Reg.MGMT_RING_BASE]; omega)) only [Device.rd_wr_ne]
    exact hoff
  have hsize : (d.ringPlaced r x).rd Reg.MGMT_RING_SIZE_LOG2 r = x / 16 % 16 := by
    rw [Device.ringPlaced]
    simp (disch := (simp only [Fld.key, Reg.MGMT_RING_SIZE_LOG2, Reg.MGMT_RING_BASE]; omega)) only [Device.rd_wr_ne, Device.rd_wr_same]
    exact Nat.mod_mod _ _
  have hfits : 2 ≤ (d.ringPlaced r x).ringLog2 r ∧ (d.ringPlaced r x).ringLog2 r ≤ 8 := by
    rw [Device.ringLog2, hsize]
    exact ⟨h2, h8⟩
  have hmem : (d.ringPlaced r x).mem = d.mem := rfl
  generalize d.ringPlaced r x = e at hon hsize hfits hmem
  have heq : e.ringEnable r 1 = ((e.wr Reg.MGMT_HEAD_HEAD r 0).wr Reg.MGMT_TAIL_TAIL r 0).wr Reg.MGMT_RING_ENABLE r 1 :=
    (if_neg (by decide)).trans ((if_neg (by simp [hon])).trans (if_pos hfits))
  dsimp only
  rw [heq, Device.ringOn, Device.ringHead, Device.ringLog2]
  simp (disch := (simp only [Fld.key, Reg.MGMT_RING_ENABLE, Reg.MGMT_RING_SIZE_LOG2, Reg.MGMT_TAIL_TAIL, Reg.MGMT_HEAD_HEAD]; omega)) only
    [Device.rd_wr_ne, Device.rd_wr_same, hsize]
  exact ⟨rfl, rfl, rfl, trivial, hmem⟩

end

section
variable {s : State} {fn h : Nat} (hopen : s.dev.regOpen fn = true) (hstage : s.dev.stage = 4)
include hopen hstage

section
variable (hreaches : reaches fn h = true) (v : W32) (r : W64)
include hreaches

theorem gives_tablesLock : Gives (.hoopCfgTablesLock fn h) s (s.dev.tablesLock h) := by
  have hh := reaches_lt hreaches
  exact gives_writeHoop (g := cfgReg) (i := h) (b := 0) hopen hstage (by decide) (by decide) rfl hreaches
    (by interval_cases h <;> rfl) (by interval_cases h <;> rfl) ((regWrite_cfg ..).trans (if_pos (by decide)))

/-- A write of STOPPED changes no byte of memory before the hoop runs again (R445). -/
theorem gives_watchResume : ∃ d : Device, Gives (.hoopWatchStopped fn h) s (d.watchResume h) ∧ d.mem = s.dev.mem := by
  have hh := reaches_lt hreaches
  refine ⟨_, gives_writeHoop (g := watchReg) (i := h) (b := 4) hopen hstage (by decide) (by decide) rfl hreaches
    (by interval_cases h <;> rfl) (by interval_cases h <;> rfl) ((regWrite_watch ..).trans (if_pos (by decide))), ?_⟩
  obtain ⟨r, hr⟩ := (writeFields_regsOf s.dev watchReg.fields false h ((2 ^ (8 * 4) - 1) * 2 ^ (8 * 4)) (1 % 2 ^ (8 * 4) * 2 ^ (8 * 4))).eq
  rw [hr]

theorem gives_relqHead : Gives (.hoopRelqPtrHead fn h v) s (s.dev.relqHead h v.toNat) := by
  have hh := reaches_lt hreaches
  exact gives_writeHoop (g := relqPtrReg) (i := h) (b := 4) hopen hstage (by decide) (upper_covered v) rfl hreaches
    (by interval_cases h <;> rfl) (by interval_cases h <;> rfl) ((regWrite_relqPtr ..).trans (upper_written v (s.dev.relqHead h) s.dev))

theorem gives_viewHead : Gives (.hoopErrqPtrHead fn h v) s (s.dev.viewHead h v.toNat) := by
  have hh := reaches_lt hreaches
  exact gives_writeHoop (g := viewPtrReg) (i := h) (b := 4) hopen hstage (by decide) (upper_covered v) rfl hreaches
    (by interval_cases h <;> rfl) (by interval_cases h <;> rfl) ((regWrite_viewPtr ..).trans (upper_written v (s.dev.viewHead h) s.dev))

theorem gives_traceHead : Gives (.hoopTracePtrHead fn h v) s (s.dev.traceHead h v.toNat) := by
  have hh := reaches_lt hreaches
  exact gives_writeHoop (g := tracePtrReg) (i := h) (b := 4) hopen hstage (by decide) (upper_covered v) rfl hreaches
    (by interval_cases h <;> rfl) (by interval_cases h <;> rfl) ((regWrite_tracePtr ..).trans (upper_written v (s.dev.traceHead h) s.dev))

theorem gives_viewEnable (h5 : r.toNat / 2 ^ 5 % 2 ^ 7 = 0) (h48 : r.toNat / 2 ^ 48 = 0) :
    Gives (.hoopErrqEnable fn h r) s ((s.dev.viewPlaced h r.toNat).viewEnable h (r.toNat % 2)) := by
  have hh := reaches_lt hreaches
  have hr : r.toNat % 2 ^ (8 * 8) * 2 ^ (8 * 0) = r.toNat := by have := r.isLt; omega
  refine gives_writeHoop (g := viewReg) (i := h) (b := 0) hopen hstage (by decide) (by rw [hr]; exact view_covered h5 h48) rfl hreaches
    (by interval_cases h <;> rfl) (by interval_cases h <;> rfl) ?_
  rw [hr, regWrite_view]
  dsimp only
  rw [if_pos (by decide)]
  exact congrArg (fun e : Device => e.viewEnable h (r.toNat % 2)) (writeFields_view s.dev h h48)

end

theorem gives_ringEnable (hfn : fn < 9) (r : W64) (hoff : s.dev.ringOn fn = false) (h1 : r.toNat / 2 ^ 1 % 2 ^ 3 = 0)
    (h8 : r.toNat / 2 ^ 8 % 2 ^ 4 = 0) : Gives (.mgmtRingEnable fn r) s ((s.dev.ringPlaced fn r.toNat).ringEnable fn (r.toNat % 2)) := by
  have hr : r.toNat % 2 ^ (8 * 8) * 2 ^ (8 * 0) = r.toNat := by have := r.isLt; omega
  refine gives_writeAt (g := ringReg) (i := fn) (b := 0) hopen hstage (by decide) (by rw [hr]; exact ring_covered r.isLt h1 h8) rfl (.inr (by omega))
    (by interval_cases fn <;> rfl) (by interval_cases fn <;> rfl) ?_
  rw [hr, regWrite_ring, hoff]
  dsimp only
  rw [if_pos (by decide)]
  exact congrArg (fun e : Device => e.ringEnable fn (r.toNat % 2)) (writeFields_ring s.dev fn r.toNat)

theorem gives_ringTail (hfn : fn < 9) (v : W32) : Gives (.mgmtTail fn v) s (s.dev.ringTail fn v.toNat) := by
  have hv : v.toNat % 2 ^ (8 * 4) * 2 ^ (8 * 0) = v.toNat := by have := v.isLt; omega
  refine gives_writeAt (g := ringTailReg) (i := fn) (b := 0) hopen hstage (by decide) ?_ rfl (.inr (by omega))
    (by interval_cases fn <;> rfl) (by interval_cases fn <;> rfl) ?_
  · rw [hv, show ringTailReg.covered = 2 ^ 32 - 1 from rfl, Nat.and_two_pow_sub_one_eq_mod, Nat.mod_eq_of_lt v.isLt]
  · rw [hv, regWrite_ringTail, Nat.mod_eq_of_lt v.isLt]

end

theorem gives_errqHead {s : State} (hopen : s.dev.regOpen 0 = true) (hstage : s.dev.stage = 4) (v : W32) : Gives (.errqPtrHead v) s (s.dev.errqHead v.toNat) :=
  gives_writeAt (g := errqPtrReg) (i := 0) (b := 4) hopen hstage (by decide) (upper_covered v) rfl (.inl (by decide)) rfl rfl
    ((regWrite_errqPtr ..).trans (upper_written v s.dev.errqHead s.dev))

theorem headOk_of_within {tail v : Nat} (hin : ringDiff 32 tail v < 2 ^ 31) : headOk tail v = true := decide_eq_true hin

theorem headOk_of_beyond {tail v : Nat} (hbeyond : 2 ^ 31 ≤ ringDiff 32 tail v) : headOk tail v ≠ true :=
  ne_true_of_eq_false (decide_eq_false (Nat.not_lt.mpr hbeyond))

/-- Settles O39: the writes that have rows of their own, each as the write of its register. -/
theorem pointerWrites : Obligations.PointerWrites := by
  intro s fn h v r
  dsimp only
  refine fun hopen hstage => ⟨fun hreaches => ⟨⟨fun hfits => ?_, fun hfits => ?_⟩, fun hroom => ?_, fun hbeyond => ?_, fun hin => ?_, fun hbeyond => ?_,
    fun hin => ?_, fun hbeyond => ?_, fun hoff h5 h48 => ?_, fun hon h5 h48 hdis h6 h14 hwritable => ?_, ?_⟩, fun hopen0 => ⟨fun hin => ?_, fun hbeyond => ?_⟩,
    fun hfn hoff hon h1 h2 h8 hres => ?_, fun hfn => ⟨fun hin => ?_, fun hbeyond => ?_⟩⟩
  · have hgives := gives_tablesLock hopen hstage hreaches
    rwa [Device.tablesLock, if_pos hfits] at hgives
  · have hgives := gives_tablesLock hopen hstage hreaches
    rwa [Device.tablesLock, if_neg hfits] at hgives
  · have hgives := gives_relqHead hopen hstage hreaches v
    rwa [Device.relqHead, if_pos hroom] at hgives
  · have hgives := gives_relqHead hopen hstage hreaches v
    rwa [Device.relqHead, if_neg (Nat.not_le.mpr hbeyond)] at hgives
  · have hgives := gives_viewHead hopen hstage hreaches v
    have hsame : (s.dev.wr Reg.HOOP_ERRQ_PTR_HEAD h v.toNat).rd Reg.HOOP_ERRQ_ENABLE h = s.dev.rd Reg.HOOP_ERRQ_ENABLE h :=
      Device.rd_wr_ne _ _ _ _ _ _ (by simp only [Fld.key, Reg.HOOP_ERRQ_ENABLE, Reg.HOOP_ERRQ_PTR_HEAD]; omega)
    rw [Device.viewHead, if_pos (headOk_of_within hin)] at hgives
    dsimp only at hgives
    rwa [hsame] at hgives
  · have hgives := gives_viewHead hopen hstage hreaches v
    rwa [Device.viewHead, if_neg (headOk_of_beyond hbeyond)] at hgives
  · have hgives := gives_traceHead hopen hstage hreaches v
    rwa [Device.traceHead, if_pos (headOk_of_within hin)] at hgives
  · have hgives := gives_traceHead hopen hstage hreaches v
    rwa [Device.traceHead, if_neg (headOk_of_beyond hbeyond)] at hgives
  · have hgives := gives_viewEnable hopen hstage hreaches r h5 h48
    rw [hoff, Device.viewEnable, if_pos rfl] at hgives
    exact ⟨_, hgives, rfl⟩
  · have hgives := gives_viewEnable hopen hstage hreaches r h5 h48
    rw [hon] at hgives
    exact ⟨_, hgives, viewEnable_spec hdis h6 h14 h48 hwritable⟩
  · obtain ⟨d, hgives, hmem⟩ := gives_watchResume hopen hstage hreaches
    exact ⟨d.wr Reg.HOOP_WATCH_STOPPED h 0, hgives, Device.rd_wr_same .., hmem⟩
  · have hgives := gives_errqHead hopen0 hstage v
    rwa [Device.errqHead, if_pos (headOk_of_within hin)] at hgives
  · have hgives := gives_errqHead hopen0 hstage v
    rwa [Device.errqHead, if_neg (headOk_of_beyond hbeyond)] at hgives
  · have hgives := gives_ringEnable hopen hstage hfn r hoff h1 hres
    rw [hon] at hgives
    exact ⟨_, hgives, ringEnable_spec _ _ _ hoff h2 h8⟩
  · have hgives := gives_ringTail hopen hstage hfn v
    rwa [Device.ringTail, if_neg (Nat.not_lt.mpr hin)] at hgives
  · have hgives := gives_ringTail hopen hstage hfn v
    rwa [Device.ringTail, if_pos hbeyond] at hgives

end Sys2Proof.Machine

/-! The events of the stream engines (R279, R284 to R296, R318, R330, R448). -/

namespace Sys2Proof.Machine

/-! DESCRIPTOR_START -/

section
variable {d : Device} {i : Nat} {x : Desc}

/-- What a descriptor does at its start, by its mode (R284 to R290, R330). -/
def Device.startMode (d : Device) (i : Nat) (x : Desc) (sd : SD) : Device :=
  if sd.mode = 2 then d.modDesc i (fun x => { x with state := 1, pos := sd.runCount, members := sd.memberCores })
  else if sd.mode = 4 then d.startSpill i x sd
  else if sd.mode = 5 then d.modDesc i (fun x => { x with state := 1, pos := sd.runCount })
  else if sd.mode = 6 then d.modDesc i (fun x => { x with state := 1, pos := sd.count 0 })
  else d.startMove i x sd

theorem startDesc_of_waits (hx : d.desc? i = some x) (hwaits : d.descReady i x = false) : d.startDesc i = d := by
  rw [Device.startDesc, hx]
  exact if_pos (by simp [hwaits])

theorem startDesc_of_ready (hx : d.desc? i = some x) (hready : d.descReady i x = true) :
    d.startDesc i = (d.acquireLines x.engine).startMode i x (parseSd x.bytes) := by
  rw [Device.startDesc, hx]
  refine (if_neg (by simp [hready])).trans ?_
  unfold Device.startMode
  generalize parseSd x.bytes = sd
  split
  case h_1 h2 => rw [if_pos h2]
  case h_2 h4 => rw [if_neg (by omega), if_pos h4]
  case h_3 h5 => rw [if_neg (by omega), if_neg (by omega), if_pos h5]
  case h_4 h6 => rw [if_neg (by omega), if_neg (by omega), if_neg (by omega), if_pos h6]
  case h_5 h2 h4 h5 h6 => rw [if_neg h2, if_neg h4, if_neg h5, if_neg h6]

end

/-! DESCRIPTOR_COMPLETE -/

/-- A perturbation's event changes no descriptor (R448). -/
theorem perturb_desc? (d : Device) (target select i : Nat) : (d.perturb target select).desc? i = d.desc? i := by
  refine List.foldlRecOn (motive := fun e : Device => e.desc? i = d.desc? i) _ _ rfl fun e he n _ => ?_
  split
  · dsimp only
    split <;> exact he
  · exact he

section
variable {d : Device} {i : Nat} {x : Desc} (hx : d.desc? i = some x)
include hx

theorem descDone_of_host (hrel : x.rel = none) (hhost : x.host = true) : d.descDone i = d.descRelease i x := by
  rw [Device.descDone, hx]
  exact if_pos ⟨hhost, hrel⟩

theorem descDone_of_device (hhost : x.host = false) : d.descDone i = d.endDesc i := by
  rw [Device.descDone, hx]
  exact if_neg (by simp [hhost])

end

/-- Whether a descriptor is not complete yet, or its late completion is under way. -/
def Device.descOpen (d : Device) (i : Nat) (x : Desc) : Bool :=
  d.stat.late.any (fun y => y.2 == .descDone i) || x.state != 2 || !x.due.isEmpty || x.spillOld.isSome
    || (d.engine x.engine).wc.any (fun w => w.descs.contains i)

section
variable {s : State} {i : Nat} {x : Desc} (hlive : s.dev.live = true) (hx : s.dev.desc? i = some x)
include hlive

theorem gives_descriptorStart {d : Device} (hd : s.dev.startDesc i = d) : Gives (.descriptorStart i) s d := .of_done rfl ((if_pos hlive).trans hd)

include hx

theorem exec_descriptorComplete :
    exec (.descriptorComplete i) s = s.done (if s.dev.descOpen i x = true then s.dev else if x.rel.isSome then s.dev.endDesc i
      else (s.dev.perturb 1 (x.engine / 16)).lateOr (s.dev.perturbDelay 1 (x.engine / 16)) (.descDone i) (fun d => d.descDone i)) := by
  refine congrArg s.done ?_
  rw [hx, hlive]
  rfl

theorem gives_descriptorComplete_of_open (hopen : s.dev.descOpen i x = true) : Gives (.descriptorComplete i) s s.dev :=
  .of_done (exec_descriptorComplete hlive hx) (if_pos hopen)

variable (hdone : s.dev.descOpen i x = false)
include hdone

theorem gives_descriptorComplete_of_released (hrel : x.rel ≠ none) : Gives (.descriptorComplete i) s (s.dev.endDesc i) :=
  .of_done (exec_descriptorComplete hlive hx) ((if_neg (by simp [hdone])).trans (if_pos (Option.isSome_iff_ne_none.mpr hrel)))

theorem gives_descriptorComplete (hrel : x.rel = none) {d : Device}
    (hd : (s.dev.perturb 1 (x.engine / 16)).lateOr (s.dev.perturbDelay 1 (x.engine / 16)) (.descDone i) (fun d => d.descDone i) = d) :
    Gives (.descriptorComplete i) s d :=
  .of_done (exec_descriptorComplete hlive hx) ((if_neg (by simp [hdone])).trans ((if_neg (by simp [hrel])).trans hd))

end

/-! Write-combining buffers and spills -/

/-- The oldest buffer of an engine whose descriptors have all moved their last element (R294). -/
def Device.wcDue (d : Device) (e : Nat) : Option WcBuf :=
  (d.engine e).wc.find? (fun w => w.descs.all (fun i => match d.desc? i with | some x => Decidable.decide (2 ≤ x.state) | none => true))

section
variable {s : State} {e : Nat}

theorem exec_wcBufferIssue : exec (.wcBufferIssue e) s = s.done (match s.dev.wcDue e with
    | some w => if s.dev.live && (s.dev.pools (e / 16)).write > 0 then (s.dev.wcIssue e w).postOut e else s.dev
    | none => s.dev) := by
  unfold Device.wcDue
  rfl

theorem gives_wcBufferIssue (hlive : s.dev.live = true) {w : WcBuf} (hdue : s.dev.wcDue e = some w) (hcredit : 0 < (s.dev.pools (e / 16)).write) :
    Gives (.wcBufferIssue e) s ((s.dev.wcIssue e w).postOut e) := by
  refine .of_done exec_wcBufferIssue ?_
  rw [hdue]
  exact if_pos (by simp [hlive, hcredit])

theorem gives_wcBufferIssue_of_none (hnone : s.dev.wcDue e = none ∨ (s.dev.pools (e / 16)).write = 0) : Gives (.wcBufferIssue e) s s.dev := by
  refine .of_done exec_wcBufferIssue ?_
  cases hdue : s.dev.wcDue e with
  | none => rfl
  | some w => exact if_neg (by simp [hnone.resolve_left (by simp [hdue])])

variable {i pool n : Nat} {x : Desc} (hx : s.dev.desc? i = some x) (hspill : x.spillOld = some (pool, n))
include hx hspill

theorem gives_spillOldBlockFree_of_busy (hbusy : s.dev.oldBlockBusy x (pool == 1) n = true) : Gives (.spillOldBlockFree i) s s.dev := by
  refine .of_done rfl ?_
  rw [hx]
  dsimp only
  rw [hspill]
  exact if_pos (by simp [hbusy])

theorem gives_spillOldBlockFree (hlive : s.dev.live = true) (hidle : s.dev.oldBlockBusy x (pool == 1) n = false) :
    Gives (.spillOldBlockFree i) s ((s.dev.markBlock x.hoop (pool == 1) n false).setDesc i { x with spillOld := none }) := by
  refine .of_done rfl ?_
  rw [hx]
  dsimp only
  rw [hspill]
  exact if_neg (by simp [hlive, hidle])

end

/-- Settles O40: the events of a descriptor, of a write-combining buffer and of a spill's old block. -/
theorem streamEvents : Obligations.StreamEvents := by
  intro i x s
  dsimp only
  refine fun hlive => ⟨fun hx => ⟨fun hwaits => ?_, fun hready => ?_⟩, fun hx => ⟨fun hopen => ?_, fun hdone hrel => ?_, fun hdone hrel =>
    ⟨fun hlate hhost => ?_, fun hlate hhost => ?_, fun hlate => ?_⟩⟩, fun e => ⟨fun w hdue hcredit => ?_, fun hnone => ?_⟩,
    fun pool n hx hspill => ⟨fun hbusy => ?_, fun hidle => ?_⟩⟩
  · exact gives_descriptorStart hlive (startDesc_of_waits hx hwaits)
  · exact gives_descriptorStart hlive (startDesc_of_ready hx hready)
  · exact gives_descriptorComplete_of_open hlive hx hopen
  · exact gives_descriptorComplete_of_released hlive hx hdone hrel
  · exact gives_descriptorComplete hlive hx hdone hrel ((if_pos hlate).trans (descDone_of_host ((perturb_desc? ..).trans hx) hrel hhost))
  · exact gives_descriptorComplete hlive hx hdone hrel ((if_pos hlate).trans (descDone_of_device ((perturb_desc? ..).trans hx) hhost))
  · exact gives_descriptorComplete hlive hx hdone hrel (if_neg hlate)
  · exact gives_wcBufferIssue hlive hdue hcredit
  · exact gives_wcBufferIssue_of_none hnone
  · refine gives_spillOldBlockFree_of_busy hx hspill ?_
    simpa [Device.oldBlockBusy] using hbusy
  · refine gives_spillOldBlockFree hx hspill hlive ?_
    simpa [Device.oldBlockBusy] using hidle

end Sys2Proof.Machine

/-! CXL links and decoders (R397 to R403). -/

namespace Sys2Proof.Machine

/-! Decoders -/

section
variable {d : Device} {n : Nat}

/-- Whether a committed decoder uses a link of a port, so that the port does not retrain (R403). -/
def Device.portUsed (d : Device) (n : Nat) : Bool := (List.range 8).any (fun j => d.hdmOn j && (d.targets j (2 * n) || d.targets j (2 * n + 1)))

theorem portUsed_iff : d.portUsed n = true ↔ ∃ j < 8, d.hdmOn j = true ∧ (d.targets j (2 * n) = true ∨ d.targets j (2 * n + 1) = true) := by
  simp [Device.portUsed]

/-- The device after a commit that holds, but for the decoder that a 2-way one consumes (R399). -/
def Device.hdmCommitted (d : Device) (n : Nat) : Device :=
  let d := ((d.wr Reg.CXL_HDM_CTRL_COMMIT n 1).wr Reg.CXL_HDM_CTRL_COMMITTED n 1).wr Reg.CXL_HDM_CTRL_ERROR n 0
  { d with flow := { d.flow with lostHdm := d.flow.lostHdm.filter (· != n) } }

theorem hdmCommit_of_ok (hoff : d.hdmOn n = false) (hok : d.commitOk n = true) :
    d.hdmCommit n = if (d.hdmCommitted n).rd Reg.CXL_HDM_CTRL_WAYS n = 1 then (d.hdmCommitted n).wr Reg.CXL_HDM_CTRL_PAIRED (n + 4) 1
      else d.hdmCommitted n :=
  (if_neg (by simp [hoff])).trans (if_pos hok)

/-- A decoder that commits maps, shows no error, and is lost no more. -/
theorem hdmCommitted_spec (d : Device) (n : Nat) : (d.hdmCommitted n).hdmOn n = true ∧ (d.hdmCommitted n).rd Reg.CXL_HDM_CTRL_ERROR n = 0 ∧
    (d.hdmCommitted n).flow.lostHdm.contains n = false ∧ (d.hdmCommitted n).mem = d.mem := by
  have hregs : ∀ f : Fld, (d.hdmCommitted n).rd f n =
      (((d.wr Reg.CXL_HDM_CTRL_COMMIT n 1).wr Reg.CXL_HDM_CTRL_COMMITTED n 1).wr Reg.CXL_HDM_CTRL_ERROR n 0).rd f n := fun _ => rfl
  have hlost : (d.hdmCommitted n).flow.lostHdm = d.flow.lostHdm.filter (· != n) := rfl
  rw [Device.hdmOn, hregs, hregs, hlost]
  simp (disch := (simp only [Fld.key, Reg.CXL_HDM_CTRL_COMMITTED, Reg.CXL_HDM_CTRL_ERROR]; omega)) only [Device.rd_wr_ne, Device.rd_wr_same]
  exact ⟨rfl, rfl, by simp, rfl⟩

theorem hdmCommit_spec (hoff : d.hdmOn n = false) (hok : d.commitOk n = true) : (d.hdmCommit n).hdmOn n = true ∧
    (d.hdmCommit n).rd Reg.CXL_HDM_CTRL_ERROR n = 0 ∧ (d.hdmCommit n).flow.lostHdm.contains n = false ∧ (d.hdmCommit n).mem = d.mem := by
  obtain ⟨hon, herror, hlost, hmem⟩ := hdmCommitted_spec d n
  rw [hdmCommit_of_ok hoff hok]
  split
  · refine ⟨?_, ?_, hlost, hmem⟩
    · rw [Device.hdmOn, Device.rd_wr_ne _ _ _ _ _ _ (by simp only [Fld.key, Reg.CXL_HDM_CTRL_COMMITTED, Reg.CXL_HDM_CTRL_PAIRED]; omega)]
      exact hon
    · rw [Device.rd_wr_ne _ _ _ _ _ _ (by simp only [Fld.key, Reg.CXL_HDM_CTRL_ERROR, Reg.CXL_HDM_CTRL_PAIRED]; omega)]
      exact herror
  · exact ⟨hon, herror, hlost, hmem⟩

theorem hdmUncommit_spec (d : Device) (n : Nat) :
    (d.hdmUncommit n).hdmOn n = false ∧ (d.hdmUncommit n).rd Reg.CXL_HDM_CTRL_COMMIT n = 0 ∧ (d.hdmUncommit n).mem = d.mem := by
  have hmem : (if (d.hdmOn n && d.rd Reg.CXL_HDM_CTRL_WAYS n == 1) = true then d.wr Reg.CXL_HDM_CTRL_PAIRED (n + 4) 0 else d).mem = d.mem := by
    split <;> rfl
  rw [Device.hdmUncommit, Device.hdmOn]
  simp (disch := (simp only [Fld.key, Reg.CXL_HDM_CTRL_COMMITTED, Reg.CXL_HDM_CTRL_COMMIT]; omega)) only [Device.rd_wr_ne, Device.rd_wr_same]
  exact ⟨rfl, rfl, hmem⟩

/-! Links -/

theorem cxlDown_of_training (hstate : d.rd Reg.CXL_LINK_STATUS_STATE n = 1) : d.cxlDown n = d.setLink n 0 0 0 0 0 := if_pos hstate

theorem cxlDown_of_up (hstate : d.rd Reg.CXL_LINK_STATUS_STATE n = 2) :
    d.cxlDown n = ((((List.range 8).filter (fun j => (d.setLink n 0 0 0 0 0).hdmOn j && (d.setLink n 0 0 0 0 0).targets j n)).foldl
      Device.loseDecoder (d.setLink n 0 0 0 0 0))).post { code := 0x41, object := n } :=
  (if_neg (by omega)).trans (if_neg (not_not_intro hstate))

section
variable {width speed cap : Nat}

theorem cxlTrain_of_up (hup : 2 ≤ (d.bifurcate (n / 2)).rd Reg.CXL_LINK_STATUS_STATE n) : d.cxlTrain n width speed cap = d.bifurcate (n / 2) :=
  if_pos hup

variable (hdown : (d.bifurcate (n / 2)).rd Reg.CXL_LINK_STATUS_STATE n < 2)
include hdown

theorem cxlTrain_of_device (hwidth : cxlWidthOk ((d.bifurcate (n / 2)).rd Reg.CXL_LINK_STATUS_STATE (n / 2 * 2 + 1) != 3) width = true)
    (h1 : 1 ≤ speed) (h6 : speed ≤ 6) (hcap : 0 < cap) (hmost : cap < 65536) :
    d.cxlTrain n width speed cap = ((d.bifurcate (n / 2)).setLink n 2 width speed 1 cap).post { code := 0x42, object := n, detail := le 2 cap } :=
  (if_neg (Nat.not_le.mpr hdown)).trans (if_pos (by simp only [hwidth, h1, h6, hcap, hmost, decide_true, Bool.and_self]))

theorem cxlTrain_of_none (hcap : cap = 0) : d.cxlTrain n width speed cap = (d.bifurcate (n / 2)).setLink n 0 0 0 0 0 :=
  (if_neg (Nat.not_le.mpr hdown)).trans (if_neg (by simp [hcap]))

end

end

/-- Settles O51: the decoders' commits, and the events of the links. -/
theorem cxlPorts : Obligations.CxlPorts := by
  intro s n width speed cap dpa header
  dsimp only
  refine ⟨fun hopen hn hfree => ?_, fun hopen hn hused => ?_, fun hopen hn hoff => ⟨fun hok => ?_, fun hbad => ?_⟩, fun hopen hn => ?_,
    fun hlive hn => ⟨fun hstate => ?_, fun hstate => ⟨?_, ?_⟩, fun hdown hwidth h1 h6 hcap hmost => ?_, fun hdown hcap => ?_, fun hup => ?_⟩,
    fun link a hlive hcxl hroute => ?_⟩
  · refine .of_done rfl ((if_pos (by simp [hopen, hn])).trans (if_neg fun hused => ?_))
    obtain ⟨j, hj, hon, htargets⟩ := portUsed_iff.mp hused
    obtain ⟨h0, h1⟩ := hfree j hj hon
    rcases htargets with h | h
    · exact absurd h (by simp [h0])
    · exact absurd h (by simp [h1])
  · exact .of_done rfl ((if_pos (by simp [hopen, hn])).trans (if_pos (portUsed_iff.mpr hused)))
  · exact ⟨_, .of_done rfl (if_pos (by simp [hopen, hn])), hdmCommit_spec hoff hok⟩
  · exact .of_done rfl ((if_pos (by simp [hopen, hn])).trans ((if_neg (by simp [hoff])).trans (if_neg (by simp [hbad]))))
  · exact ⟨_, .of_done rfl (if_pos (by simp [hopen, hn])), hdmUncommit_spec ..⟩
  · exact .of_done rfl ((if_pos (by simp [hlive, hn])).trans (cxlDown_of_training hstate))
  · exact .of_done rfl ((if_pos (by simp [hlive, hn])).trans (cxlDown_of_up hstate))
  · exact .of_done rfl (if_pos (by simp [hlive, hn, hstate]))
  · exact .of_done rfl ((if_pos (by simp [hlive, hn])).trans (cxlTrain_of_device hdown hwidth h1 h6 hcap hmost))
  · exact .of_done rfl ((if_pos (by simp [hlive, hn])).trans (cxlTrain_of_none hdown hcap))
  · exact .of_done rfl ((if_pos (by simp [hlive, hn])).trans (cxlTrain_of_up hup))
  · refine .of_done rfl ?_
    dsimp only
    rw [if_pos (by simp [hlive, hcxl]), hroute]

end Sys2Proof.Machine

/-! What an error record leaves alone (R418 to R424). -/

namespace Sys2Proof.Machine

/-- A device without the parts that the domain's work and an error record change. -/
def Device.units (d : Device) : Device := { d.rest with pcie := {}, errs := {} }

/-- Two devices that differ only in what the domain's work and error records change; the registers of the units read alike. -/
structure Device.SameUnits (d d' : Device) : Prop where
  units : d'.units = d.units
  regs : ∀ z k, UnitKey k → Tab.get z d'.regs k = Tab.get z d.regs k

namespace Device.SameUnits

theorem refl (d : Device) : d.SameUnits d := ⟨rfl, fun _ _ _ => rfl⟩

theorem trans {d e f : Device} (h : d.SameUnits e) (g : e.SameUnits f) : d.SameUnits f :=
  ⟨g.units.trans h.units, fun z k hk => (g.regs z k hk).trans (h.regs z k hk)⟩

theorem of_same {d d' : Device} (units : d'.units = d.units) (regs : d'.regs = d.regs) : d.SameUnits d' := ⟨units, fun _ _ _ => by rw [regs]⟩

theorem foldl {α : Type} {f : Device → α → Device} (hf : ∀ (d : Device) x, d.SameUnits (f d x)) (l : List α) (d : Device) : d.SameUnits (l.foldl f d) :=
  List.foldlRecOn (motive := fun e : Device => d.SameUnits e) l _ (.refl d) fun e he x _ => he.trans (hf e x)

theorem of_works {d d' : Device} (h : d.Works d') : d.SameUnits d' := by
  refine ⟨?_, fun z k hk => h.window.same z k (.inr hk)⟩
  unfold Device.units
  rw [h.rest]

theorem wr (d : Device) {f : Fld} {i : Nat} (v : Nat) (hf : ¬ UnitKey (f.key i)) : d.SameUnits (d.wr f i v) :=
  ⟨rfl, fun z _ hk => Tab.get_put_ne z _ _ _ (fun he => hf (he ▸ hk))⟩

theorem rd_eq {d d' : Device} (h : d.SameUnits d') {f : Fld} {i : Nat} (hk : UnitKey (f.key i)) : d'.rd f i = d.rd f i := h.regs _ _ hk

theorem power {d d' : Device} (h : d.SameUnits d') : d'.power = d.power := congrArg (a₁ := d'.units) (a₂ := d.units) Device.power h.units

theorem klz {d d' : Device} (h : d.SameUnits d') : d'.klz = d.klz := congrArg (a₁ := d'.units) (a₂ := d.units) Device.klz h.units

theorem work {d d' : Device} (h : d.SameUnits d') : d'.work = d.work := congrArg (a₁ := d'.units) (a₂ := d.units) Device.work h.units

theorem clock {d d' : Device} (h : d.SameUnits d') : d'.clock = d.clock := congrArg (a₁ := d'.units) (a₂ := d.units) Device.clock h.units

end Device.SameUnits

theorem not_unitKey_of_window {f : Fld} (hf : 0x100000 ≤ f.base) (i : Nat) : ¬ UnitKey (f.key i) := by
  simp only [UnitKey, Fld.key]
  have := Nat.le_add_right f.base (f.stride * i)
  omega

theorem not_unitKey_of_base {f : Fld} (hf : 0x60000 ≤ f.base ∧ f.base < 0x70000) (hlo : f.lo < 1024) : ¬ UnitKey (f.key 0) := by
  simp only [UnitKey, Fld.key, Nat.mul_zero]
  omega

namespace Device

theorem setErrRing_units (d : Device) (r : Nat) (x : ErrRing) : d.SameUnits (d.setErrRing r x) := .of_same rfl rfl

theorem emit_units (d : Device) (o : Out) : d.SameUnits (d.emit o) := .of_same rfl rfl

theorem errBit_units (d : Device) (r c : Nat) (dropped : Bool) : d.SameUnits (d.errBit r c dropped) := by
  unfold Device.errBit
  split <;> cases dropped
  · exact .wr d _ (not_unitKey_of_base (f := Reg.ERR_SUMMARY_CLASS) (by decide) (by decide))
  · exact .wr d _ (not_unitKey_of_base (f := Reg.ERR_SUMMARY_DROPPED) (by decide) (by decide))
  · exact .wr d _ (not_unitKey_of_window (f := Reg.HOOP_ERR_SUMMARY_CLASS) (by decide) r)
  · exact .wr d _ (not_unitKey_of_window (f := Reg.HOOP_ERR_SUMMARY_DROPPED) (by decide) r)

theorem sendVector_units (d : Device) (fn v : Nat) : d.SameUnits (d.sendVector fn v) := by
  unfold Device.sendVector
  split
  · exact .of_same rfl rfl
  · split <;> exact .of_same rfl rfl

theorem errVector_units (d : Device) (r : Nat) : d.SameUnits (d.errVector r) := by
  unfold Device.errVector
  extract_lets x on
  split
  · exact .of_same rfl rfl
  · split
    · exact (d.setErrRing_units r _).trans (Device.sendVector_units ..)
    · exact .of_same rfl rfl

theorem errCount_units (d : Device) (o : Occ) : d.SameUnits (d.errCount o) := by
  unfold Device.errCount
  extract_lets c global stat counted hooped
  have hcounted : d.SameUnits counted := (d.errBit_units 8 c false).trans (.of_same rfl rfl)
  have hhooped : d.SameUnits hooped := by
    unfold hooped
    split
    · exact hcounted.trans (.of_same rfl rfl)
    · exact hcounted
  split
  · exact hhooped.trans (Device.errBit_units ..)
  · exact hhooped

theorem hostWrite_units (d : Device) (fn addr : Nat) (data : Bytes) : d.SameUnits (d.hostWrite fn addr data) := by
  unfold Device.hostWrite
  split
  · exact .foldl (f := fun (e : Device) (x : Nat × Nat) => e.emit (.hostWrite fn x.1 (slice data (x.1 - addr) x.2))) (fun e _ => e.emit_units _) _ d
  · exact .of_same rfl rfl

theorem writeVa_units {d e : Device} {h va : Nat} {data : Bytes} {session : Bool} {who : Nat} (he : d.writeVa h va data session who = some e) :
    d.SameUnits e := by
  unfold Device.writeVa Device.storeVa at he
  split at he
  · cases he
  · dsimp only at he
    split at he
    · cases he
    · split at he
      · cases he
      · split at he
        · cases he
          exact SameUnits.trans (d.hostWrite_units ..) (.of_works (Device.cnt_calm ..).toWorks)
        · cases he
          exact .of_works (d.writeSeg_works ..)

theorem errPut_units (d : Device) (r : Nat) (o : Occ) (count time : Nat) (rep : Bool) : d.SameUnits (d.errPut r o count time rep) := by
  unfold Device.errPut
  extract_lets t n bytes
  split
  · exact ((SameUnits.of_works (d.ownWrite_works ..)).trans (.wr _ _ (not_unitKey_of_base (f := Reg.ERRQ_PTR_TAIL) (by decide) (by decide)))).trans
      (Device.errVector_units ..)
  · split
    · rename_i hwrite
      exact ((Device.writeVa_units hwrite).trans (.wr _ _ (not_unitKey_of_window (f := Reg.HOOP_ERRQ_PTR_TAIL) (by decide) r))).trans
        (Device.errVector_units ..)
    · exact (SameUnits.wr d _ (not_unitKey_of_window (f := Reg.HOOP_ERRQ_ENABLE) (by decide) r)).trans (Device.errBit_units ..)

theorem errOverflow_units (d : Device) (r : Nat) : d.SameUnits (d.errOverflow r) := by
  unfold Device.errOverflow
  extract_lets x detail total cleared o counted
  split
  · exact .refl d
  · exact ((d.setErrRing_units r _).trans (cleared.errCount_units o)).trans (counted.errPut_units ..)

theorem errWrite_units (d : Device) (r : Nat) (o : Occ) (count time : Nat) (rep : Bool) : d.SameUnits (d.errWrite r o count time rep) := by
  unfold Device.errWrite
  extract_lets ready
  have hready : d.SameUnits ready := d.errOverflow_units r
  split
  · exact .refl d
  · split
    · exact (hready.trans (ready.setErrRing_units r _)).trans (Device.errBit_units ..)
    · exact hready.trans (ready.errPut_units ..)

theorem errOne_units (d : Device) (r : Nat) (o : Occ) : d.SameUnits (d.errOne r o) := by
  unfold Device.errOne
  extract_lets time x sigs
  split
  · exact Device.errWrite_units ..
  · split
    · exact .of_same rfl rfl
    · refine SameUnits.trans ?_ (Device.errWrite_units ..)
      unfold sigs
      split <;> exact .of_same rfl rfl

/-- An error record leaves the controller and its registers as they are. -/
theorem post_units (d : Device) (o : Occ) : d.SameUnits (d.post o) := by
  unfold Device.post
  extract_lets reported
  have hreported : d.SameUnits reported := (d.errCount_units o).trans ((d.errCount o).errOne_units 8 o)
  split
  · exact hreported.trans (Device.errOne_units ..)
  · exact hreported

theorem alert_units (d : Device) : d.SameUnits d.alert := by
  unfold Device.alert
  dsimp only
  split <;> exact .of_same rfl rfl

end Device

end Sys2Proof.Machine

/-! The power and thermal controller (R454 to R468). -/

namespace Sys2Proof.Machine

/-- Two devices with the same controller, whose registers of the units read alike. -/
structure Device.SameHeat (d d' : Device) : Prop where
  power : d'.power = d.power
  regs : ∀ z k, UnitKey k → Tab.get z d'.regs k = Tab.get z d.regs k

theorem Device.SameHeat.rd_eq {d d' : Device} (h : d.SameHeat d') {f : Fld} {i : Nat} (hk : UnitKey (f.key i)) : d'.rd f i = d.rd f i := h.regs _ _ hk

theorem Device.SameHeat.refl (d : Device) : d.SameHeat d := ⟨rfl, fun _ _ _ => rfl⟩

theorem Device.SameUnits.heat {d d' : Device} (h : d.SameUnits d') : d.SameHeat d' := ⟨h.power, h.regs⟩

namespace Device

theorem thermal_units (d : Device) (ev point : Nat) (reading threshold : Int) : d.SameUnits (d.thermal ev point reading threshold) := by
  unfold Device.thermal
  extract_lets o
  refine SameUnits.trans ?_ (Device.alert_units _)
  split
  · exact d.post_units o
  · exact d.errCount_units o

theorem shutdown_heat (d : Device) (ev point : Nat) (reading threshold : Int) : d.SameHeat (d.shutdown ev point reading threshold) := by
  unfold Device.shutdown
  extract_lets o at_ told alerted
  have htold : d.SameUnits told := ((d.errCount_units o).trans (Device.emit_units ..)).trans (Device.emit_units ..)
  have halerted : d.SameUnits alerted := htold.trans told.alert_units
  clear_value alerted
  exact ⟨halerted.power, halerted.regs⟩

/-- A thermal shutdown takes the rails off, stops the module, and raises both pins (R466). -/
theorem shutdown_spec (d : Device) (ev point : Nat) (reading threshold : Int) :
    let e := d.shutdown ev point reading threshold
    e.life.rails = false ∧ e.life.stopped = true ∧ e.pins.thermtrip = true ∧ e.pins.alert = true := by
  have halert : ∀ f : Device, f.alert.pins.alert = true := by
    intro f
    unfold Device.alert
    dsimp only
    split <;> rfl
  refine ⟨rfl, rfl, rfl, ?_⟩
  unfold Device.shutdown
  extract_lets o at_ told alerted
  exact halert told

end Device

/-! A sample of the sensors -/

/-- The keys of the registers of power and limits, and of one sensor point. -/
def RowKey (n k : Nat) : Prop := UnitKey k ∧ (k / 1024 < 0x71000 ∨ k / 1024 = 0x71000 + 4 * n)

/-- What a device holds of sensor point `n` and of the limits stays, and no point leaves the hot ones. -/
structure Device.SameRow (n : Nat) (d d' : Device) : Prop where
  regs : ∀ z k, RowKey n k → Tab.get z d'.regs k = Tab.get z d.regs k
  invalid : Tab.get 0 d'.power.invalid n = Tab.get 0 d.power.invalid n
  trips : Tab.get 0 d'.power.trips n = Tab.get 0 d.power.trips n
  hot : ∀ m ∈ d.power.hot, m ∈ d'.power.hot

namespace Device.SameRow

theorem refl (n : Nat) (d : Device) : d.SameRow n d := ⟨fun _ _ _ => rfl, rfl, rfl, fun _ h => h⟩

theorem trans {n : Nat} {d e f : Device} (h : d.SameRow n e) (g : e.SameRow n f) : d.SameRow n f :=
  ⟨fun z k hk => (g.regs z k hk).trans (h.regs z k hk), g.invalid.trans h.invalid, g.trips.trans h.trips, fun m hm => g.hot m (h.hot m hm)⟩

theorem of_units {n : Nat} {d d' : Device} (h : d.SameUnits d') : d.SameRow n d' :=
  ⟨fun z k hk => h.regs z k hk.1, by rw [h.power], by rw [h.power], by rw [h.power]; exact fun _ hm => hm⟩

theorem wr {n : Nat} (d : Device) {f : Fld} {i : Nat} (v : Nat) (hf : ¬ RowKey n (f.key i)) : d.SameRow n (d.wr f i v) :=
  ⟨fun z _ hk => Tab.get_put_ne z _ _ _ (fun he => hf (he ▸ hk)), rfl, rfl, fun _ h => h⟩

theorem wr_point {m n : Nat} (hm : m ≠ n) (d : Device) {f : Fld} (v : Nat) (hbase : f.base = 0x71000) (hstride : f.stride = 4) (hlo : f.lo < 1024) :
    d.SameRow n (d.wr f m v) := by
  refine .wr d v ?_
  simp only [RowKey, Fld.key, hbase, hstride]
  omega

theorem setPower {n : Nat} (d : Device) (p : Power) (hinvalid : Tab.get 0 p.invalid n = Tab.get 0 d.power.invalid n)
    (htrips : Tab.get 0 p.trips n = Tab.get 0 d.power.trips n) (hhot : ∀ m ∈ d.power.hot, m ∈ p.hot) : d.SameRow n (d.setPower p) :=
  ⟨fun _ _ _ => rfl, hinvalid, htrips, hhot⟩

theorem foldl {α : Type} {n : Nat} {f : Device → α → Device} (l : List α) (d : Device) (hf : ∀ x ∈ l, ∀ d : Device, d.SameRow n (f d x)) :
    d.SameRow n (l.foldl f d) :=
  List.foldlRecOn (motive := fun e : Device => d.SameRow n e) l _ (.refl n d) fun e he x hx => he.trans (hf x hx e)

theorem rd_eq {n : Nat} {d d' : Device} (h : d.SameRow n d') {f : Fld} {i : Nat} (hk : RowKey n (f.key i)) : d'.rd f i = d.rd f i := h.regs _ _ hk

end Device.SameRow

/-- A zone's limit of a sensor point. -/
def Device.limit (d : Device) (g : Fld) (n : Nat) : Int := d.rd g (zoneOf n)

/-- A point without a valid reading: the count of invalid ones in a row. -/
def Device.misses (d : Device) (n : Nat) : Device :=
  (d.setPower { d.power with invalid := Tab.put 0 d.power.invalid n (Tab.get 0 d.power.invalid n + 1), trips := Tab.erase d.power.trips n }).wr
    Reg.THERM_POINT_VALID n 0

/-- A point whose sensor is faulty: it counts as at THROTTLE. -/
def Device.faults (d : Device) (n : Nat) : Device :=
  let e := (d.wr Reg.THERM_POINT_FAULT n 1).wr Reg.THERM_POINT_THROTTLE n 1
  e.setPower { e.power with hot := if e.power.hot.contains n then e.power.hot else e.power.hot ++ [n] }

/-- The registers of a point with a reading. -/
def Device.shows (d : Device) (n : Nat) (t : Int) : Device :=
  ((((d.wr Reg.THERM_POINT_TEMP n (unsigned 16 t)).wr Reg.THERM_POINT_VALID n 1).wr Reg.THERM_POINT_FAULT n 0).wr
    Reg.THERM_POINT_WARN n (b2n (d.limit Reg.THERM_LIMITS_WARN n ≤ t))).wr
    Reg.THERM_POINT_THROTTLE n (b2n (d.limit Reg.THERM_LIMITS_THROTTLE n ≤ t))

/-- Whether a reading is a point's first at WARN. -/
def Device.warns (d : Device) (n : Nat) (t : Int) : Bool := d.limit Reg.THERM_LIMITS_WARN n ≤ t && !d.power.warned.contains n

/-- The controller's counts and lists after a reading of a point. -/
def Device.notes (d : Device) (n : Nat) (t : Int) : Power :=
  { d.power with
    invalid := Tab.erase d.power.invalid n
    trips :=
      if d.limit Reg.THERM_LIMITS_TRIP n ≤ t then Tab.insert d.power.trips n (Tab.get 0 d.power.trips n + 1) else Tab.erase d.power.trips n
    warned :=
      if t < d.limit Reg.THERM_LIMITS_WARN n - 48 then d.power.warned.filter (· != n)
      else if d.warns n t then d.power.warned ++ [n] else d.power.warned
    hot := if d.limit Reg.THERM_LIMITS_THROTTLE n ≤ t ∧ !d.power.hot.contains n then d.power.hot ++ [n] else d.power.hot }

namespace Device

theorem rd_setPower (d : Device) (p : Power) (f : Fld) (i : Nat) : (d.setPower p).rd f i = d.rd f i := rfl

theorem sensor_none (d : Device) (n : Nat) :
    d.sensor n none =
      if Tab.get 0 d.power.invalid n + 1 < 3 then d.misses n
      else if (d.misses n).rd Reg.THERM_POINT_FAULT n = 0 then
        ((d.misses n).faults n).thermal 5 n (((d.misses n).faults n).temp n) (d.limit Reg.THERM_LIMITS_THROTTLE n)
      else (d.misses n).faults n := rfl

theorem sensor_some (d : Device) (n : Nat) (t : Int) :
    d.sensor n (some t) =
      if d.warns n t then ((d.shows n t).setPower (d.notes n t)).thermal 0 n t (d.limit Reg.THERM_LIMITS_WARN n)
      else (d.shows n t).setPower (d.notes n t) := rfl

theorem misses_row {m n : Nat} (hm : m ≠ n) (d : Device) : d.SameRow n (d.misses m) :=
  ⟨(SameRow.wr_point (f := Reg.THERM_POINT_VALID) hm d 0 rfl rfl (by decide)).regs, Tab.get_put_ne 0 0 d.power.invalid (Tab.get 0 d.power.invalid m + 1) (Ne.symm hm),
    Tab.get_erase_ne _ _ (Ne.symm hm), fun _ h => h⟩

theorem faults_hot (d : Device) (n : Nat) : ∀ m ∈ d.power.hot, m ∈ (d.faults n).power.hot := by
  intro m hm
  change m ∈ if d.power.hot.contains n then d.power.hot else d.power.hot ++ [n]
  split
  · exact hm
  · exact List.mem_append_left _ hm

theorem faults_row {m n : Nat} (hm : m ≠ n) (d : Device) : d.SameRow n (d.faults m) := by
  have hregs : d.SameRow n ((d.wr Reg.THERM_POINT_FAULT m 1).wr Reg.THERM_POINT_THROTTLE m 1) :=
    .trans (.wr_point hm _ _ rfl rfl (by decide)) (.wr_point hm _ _ rfl rfl (by decide))
  exact ⟨hregs.regs, rfl, rfl, d.faults_hot m⟩

theorem shows_row {m n : Nat} (hm : m ≠ n) (d : Device) (t : Int) : d.SameRow n (d.shows m t) :=
  ((((SameRow.wr_point hm _ _ rfl rfl (by decide)).trans (.wr_point hm _ _ rfl rfl (by decide))).trans
    (.wr_point hm _ _ rfl rfl (by decide))).trans (.wr_point hm _ _ rfl rfl (by decide))).trans (.wr_point hm _ _ rfl rfl (by decide))

theorem notes_hot (d : Device) (n : Nat) (t : Int) : ∀ m ∈ d.power.hot, m ∈ (d.notes n t).hot := by
  intro m hm
  unfold Device.notes
  dsimp only
  split
  · exact List.mem_append_left _ hm
  · exact hm

theorem takes_row {m n : Nat} (hm : m ≠ n) (d : Device) (t : Int) : d.SameRow n ((d.shows m t).setPower (d.notes m t)) := by
  refine ⟨(d.shows_row hm t).regs, Tab.get_erase_ne _ _ (Ne.symm hm), ?_, d.notes_hot m t⟩
  unfold Device.notes
  dsimp only [Device.setPower]
  split
  · exact Tab.get_insert_ne _ _ _ (Ne.symm hm)
  · exact Tab.get_erase_ne _ _ (Ne.symm hm)

/-- A sensor's sample changes nothing of another point. -/
theorem sensor_row {m n : Nat} (hm : m ≠ n) (d : Device) (r : Option Int) : d.SameRow n (d.sensor m r) := by
  cases r with
  | none =>
    rw [sensor_none]
    have hfaults := (d.misses_row hm).trans ((d.misses m).faults_row hm)
    split
    · exact d.misses_row hm
    · split
      · exact hfaults.trans (.of_units (Device.thermal_units ..))
      · exact hfaults
  | some t =>
    rw [sensor_some]
    split
    · exact (d.takes_row hm t).trans (.of_units (Device.thermal_units ..))
    · exact d.takes_row hm t

/-- A reading shows in its point's registers, and counts toward a trip. -/
theorem sensor_reading (d : Device) {n : Nat} (hn : n < 168) (t : Int) :
    let e := d.sensor n (some t)
    e.rd Reg.THERM_POINT_TEMP n = unsigned 16 t ∧ e.rd Reg.THERM_POINT_VALID n = 1 ∧ e.rd Reg.THERM_POINT_FAULT n = 0 ∧
      e.rd Reg.THERM_POINT_WARN n = b2n (d.limit Reg.THERM_LIMITS_WARN n ≤ t) ∧
      e.rd Reg.THERM_POINT_THROTTLE n = b2n (d.limit Reg.THERM_LIMITS_THROTTLE n ≤ t) ∧
      (d.limit Reg.THERM_LIMITS_TRIP n ≤ t → Tab.get 0 e.power.trips n = Tab.get 0 d.power.trips n + 1) ∧
      (d.limit Reg.THERM_LIMITS_THROTTLE n ≤ t → n ∈ e.power.hot) := by
  have hbit : ∀ b : Bool, b2n b % 2 ^ 1 = b2n b := by decide
  have hkey : ∀ f : Fld, f.base = 0x71000 → f.stride = 4 → f.lo < 1024 → RowKey n (f.key n) := by
    intro f hbase hstride hlo
    simp only [RowKey, UnitKey, Fld.key, hbase, hstride]
    omega
  obtain ⟨e, he, hsame⟩ : ∃ e, e = (d.shows n t).setPower (d.notes n t) ∧ SameRow n e (d.sensor n (some t)) := by
    refine ⟨_, rfl, ?_⟩
    rw [sensor_some]
    split
    · exact .of_units (Device.thermal_units ..)
    · exact .refl n _
  have hregs : ∀ f i, e.rd f i = (d.shows n t).rd f i := by rw [he]; exact fun _ _ => rd_setPower ..
  dsimp only
  rw [hsame.rd_eq (hkey _ rfl rfl (by decide)), hsame.rd_eq (hkey _ rfl rfl (by decide)), hsame.rd_eq (hkey _ rfl rfl (by decide)),
    hsame.rd_eq (hkey _ rfl rfl (by decide)), hsame.rd_eq (hkey _ rfl rfl (by decide)), hsame.trips]
  simp only [hregs, Device.shows]
  simp (disch := (simp only [Fld.key, Reg.THERM_POINT_TEMP, Reg.THERM_POINT_VALID, Reg.THERM_POINT_FAULT, Reg.THERM_POINT_WARN,
    Reg.THERM_POINT_THROTTLE]; omega)) only [Device.rd_wr_ne, Device.rd_wr_same]
  refine ⟨?_, rfl, rfl, hbit _, hbit _, fun htrip => ?_, fun hthr => hsame.hot n ?_⟩
  · simp only [unsigned, Reg.THERM_POINT_TEMP]
    omega
  · rw [he]
    simp only [Device.setPower, Device.notes, if_pos htrip, Tab.get_insert_same]
  · rw [he]
    simp only [Device.setPower, Device.notes, hthr, true_and]
    split
    · simp
    · rename_i hin
      simpa using hin

/-- Without a valid reading a point is not VALID, and a third one in a row shows as a fault. -/
theorem sensor_missing (d : Device) {n : Nat} (hn : n < 168) :
    let e := d.sensor n none
    e.rd Reg.THERM_POINT_TEMP n = d.rd Reg.THERM_POINT_TEMP n ∧ e.rd Reg.THERM_POINT_VALID n = 0 ∧
      (Tab.get 0 d.power.invalid n < 2 → e.rd Reg.THERM_POINT_FAULT n = d.rd Reg.THERM_POINT_FAULT n ∧
        e.rd Reg.THERM_POINT_THROTTLE n = d.rd Reg.THERM_POINT_THROTTLE n) ∧
      (2 ≤ Tab.get 0 d.power.invalid n → e.rd Reg.THERM_POINT_FAULT n = 1 ∧ e.rd Reg.THERM_POINT_THROTTLE n = 1) := by
  have hkey : ∀ f : Fld, f.base = 0x71000 → f.stride = 4 → f.lo < 1024 → RowKey n (f.key n) := by
    intro f hbase hstride hlo
    simp only [RowKey, UnitKey, Fld.key, hbase, hstride]
    omega
  have hmisses : ∀ f i, f.key i ≠ Reg.THERM_POINT_VALID.key n → (d.misses n).rd f i = d.rd f i := by
    intro f i h
    unfold Device.misses
    rw [Device.rd_wr_ne _ _ _ _ _ _ h, rd_setPower]
  have hvalid : (d.misses n).rd Reg.THERM_POINT_VALID n = 0 := by
    unfold Device.misses
    exact Device.rd_wr_same ..
  dsimp only
  rw [sensor_none]
  by_cases hcount : Tab.get 0 d.power.invalid n < 2
  · rw [if_pos (by omega)]
    refine ⟨hmisses _ _ ?_, hvalid, fun _ => ⟨hmisses _ _ ?_, hmisses _ _ ?_⟩, fun h => absurd h (by omega)⟩ <;>
      simp only [Fld.key, Reg.THERM_POINT_VALID, Reg.THERM_POINT_TEMP, Reg.THERM_POINT_FAULT, Reg.THERM_POINT_THROTTLE] <;> omega
  · rw [if_neg (by omega)]
    obtain ⟨e, he, hsame⟩ : ∃ e : Device, e = (if (d.misses n).rd Reg.THERM_POINT_FAULT n = 0 then
        ((d.misses n).faults n).thermal 5 n (((d.misses n).faults n).temp n) (d.limit Reg.THERM_LIMITS_THROTTLE n)
        else (d.misses n).faults n) ∧ SameRow n ((d.misses n).faults n) e := by
      refine ⟨_, rfl, ?_⟩
      split
      · exact .of_units (Device.thermal_units ..)
      · exact .refl n _
    have hregs : ∀ f i, ((d.misses n).faults n).rd f i = (((d.misses n).wr Reg.THERM_POINT_FAULT n 1).wr Reg.THERM_POINT_THROTTLE n 1).rd f i :=
      fun _ _ => by simp only [Device.faults, rd_setPower]
    rw [← he, hsame.rd_eq (hkey _ rfl rfl (by decide)), hsame.rd_eq (hkey _ rfl rfl (by decide)), hsame.rd_eq (hkey _ rfl rfl (by decide)),
      hsame.rd_eq (hkey _ rfl rfl (by decide))]
    simp only [hregs]
    simp (disch := (simp only [Fld.key, Reg.THERM_POINT_TEMP, Reg.THERM_POINT_VALID, Reg.THERM_POINT_FAULT, Reg.THERM_POINT_WARN,
      Reg.THERM_POINT_THROTTLE]; omega)) only [Device.rd_wr_ne, Device.rd_wr_same, hmisses, hvalid]
    exact ⟨trivial, trivial, fun h => absurd h hcount, fun _ => ⟨rfl, rfl⟩⟩

end Device

/-! A whole sample: the points, then what the module makes of them -/

/-- A device whose registers of sensor points and whose counts toward trips are another's. -/
structure Device.SamePoints (d d' : Device) : Prop where
  regs : ∀ z k, UnitKey k → 0x71000 ≤ k / 1024 → Tab.get z d'.regs k = Tab.get z d.regs k
  trips : d'.power.trips = d.power.trips

namespace Device.SamePoints

theorem refl (d : Device) : d.SamePoints d := ⟨fun _ _ _ _ => rfl, rfl⟩

theorem trans {d e f : Device} (h : d.SamePoints e) (g : e.SamePoints f) : d.SamePoints f :=
  ⟨fun z k hk hp => (g.regs z k hk hp).trans (h.regs z k hk hp), g.trips.trans h.trips⟩

theorem of_heat {d d' : Device} (h : d.SameHeat d') : d.SamePoints d' := ⟨fun z k hk _ => h.regs z k hk, by rw [h.power]⟩

theorem of_units {d d' : Device} (h : d.SameUnits d') : d.SamePoints d' := .of_heat h.heat

theorem wr_throttle (d : Device) (v : Nat) : d.SamePoints (d.wr Reg.POWER_STATUS_THROTTLE 0 v) :=
  ⟨fun z k _ hp => Tab.get_put_ne z _ _ _ (by rintro rfl; simp only [Fld.key, Reg.POWER_STATUS_THROTTLE] at hp; omega), rfl⟩

theorem rd_eq {d d' : Device} (h : d.SamePoints d') {n : Nat} (hn : n < 168) {f : Fld} (hbase : f.base = 0x71000) (hstride : f.stride = 4)
    (hlo : f.lo < 1024) : d'.rd f n = d.rd f n :=
  h.regs _ _ (by simp only [UnitKey, Fld.key, hbase, hstride]; omega) (by simp only [Fld.key, hbase, hstride]; omega)

end Device.SamePoints

/-- The points after their samples. -/
def Device.sampled (d : Device) (rs : List (Option Int)) : Device := allPoints.foldl (fun d n => d.sensor n ((rs.drop n).headD none)) d

/-- No point is hot once all are cool. -/
def Device.cooled (d : Device) : Device := if d.allCool then d.setPower { d.power with hot := [] } else d

/-- THROTTLE and its records, by the points that were hot before a sample. -/
def Device.throttles (d : Device) (before : List Nat) : Device :=
  match before, d.power.hot with
  | [], n :: _ =>
    (d.wr Reg.POWER_STATUS_THROTTLE 0 1).thermal 1 n
      (if d.rd Reg.THERM_POINT_FAULT n = 1 then d.limit Reg.THERM_LIMITS_THROTTLE n else d.temp n) (d.limit Reg.THERM_LIMITS_THROTTLE n)
  | n :: _, [] => (d.wr Reg.POWER_STATUS_THROTTLE 0 0).thermal 2 n (d.temp n) (d.limit Reg.THERM_LIMITS_THROTTLE n)
  | _, _ => d

/-- The histograms of the zones. -/
def Device.zoneSamples (d : Device) : Device :=
  (List.range 6).foldl (fun d k => match d.hottest (zonePoints k) with
    | some t => d.moduleSample (8 + k) t.toNat
    | none => d) d

/-- The shutdown of a point that was at TRIP twice in a row. -/
def Device.tripShut (d : Device) : Device :=
  match List.find? (fun x => x.2 ≥ 2) d.power.trips with
  | some (n, _) => d.shutdown 3 n (d.temp n) (d.limit Reg.THERM_LIMITS_TRIP n)
  | none => d

namespace Device

theorem thermalSample_eq (d : Device) (rs : List (Option Int)) :
    d.thermalSample rs = ((((d.sampled rs).cooled).throttles d.power.hot).zoneSamples).tripShut := by
  unfold Device.thermalSample
  extract_lets before sampled kept cooled after thr throttled zoned
  have hsampled : sampled = d.sampled rs := rfl
  have hcooled : cooled = sampled.cooled := rfl
  have hthrottled : throttled = cooled.throttles before := by
    unfold throttled Device.throttles after thr
    clear_value before cooled
    rfl
  have hzoned : zoned = throttled.zoneSamples := rfl
  clear_value zoned throttled
  rw [← hsampled, ← hcooled, ← hthrottled, ← hzoned]
  rfl

/-- A sample of all points is, for one of them, its own. -/
theorem sampled_row (d : Device) (rs : List (Option Int)) {n : Nat} (hn : n < 168) :
    ∃ a : Device, d.SameRow n a ∧ (a.sensor n ((rs.drop n).headD none)).SameRow n (d.sampled rs) := by
  obtain ⟨before, after, hsplit⟩ := List.append_of_mem (List.mem_range.mpr hn)
  have hnodup : (before ++ n :: after).Nodup := hsplit ▸ List.nodup_range
  have hother : ∀ l : List Nat, n ∉ l → ∀ e : Device,
      e.SameRow n (l.foldl (fun d m => d.sensor m ((rs.drop m).headD none)) e) := fun l hl e =>
    SameRow.foldl (f := fun d m => d.sensor m ((rs.drop m).headD none)) l e fun m hm d => d.sensor_row (fun he => hl (by rwa [← he])) _
  refine ⟨_, hother before ?_ d, ?_⟩
  · exact fun hmem => (List.disjoint_of_nodup_append hnodup) hmem (List.mem_cons_self ..)
  · unfold Device.sampled allPoints
    rw [hsplit, List.foldl_append, List.foldl_cons]
    exact hother after (List.nodup_cons.mp (List.Nodup.of_append_right hnodup)).1 _

theorem cooled_points (d : Device) : d.SamePoints d.cooled := by
  unfold Device.cooled
  split
  · exact ⟨fun _ _ _ _ => rfl, rfl⟩
  · exact .refl d

theorem throttles_points (d : Device) (before : List Nat) : d.SamePoints (d.throttles before) := by
  unfold Device.throttles
  split
  · exact (SamePoints.wr_throttle d _).trans (.of_units (Device.thermal_units ..))
  · exact (SamePoints.wr_throttle d _).trans (.of_units (Device.thermal_units ..))
  · exact .refl d

theorem zoneSamples_units (d : Device) : d.SameUnits d.zoneSamples := by
  unfold Device.zoneSamples
  refine List.foldlRecOn (motive := fun e : Device => d.SameUnits e) _ _ (.refl d) fun e he k _ => ?_
  split
  · exact he.trans (.of_same rfl rfl)
  · exact he

theorem tripShut_heat (d : Device) : d.SameHeat d.tripShut := by
  unfold Device.tripShut
  split
  · exact d.shutdown_heat ..
  · exact .refl d

theorem thermalSample_points (d : Device) (rs : List (Option Int)) : (d.sampled rs).SamePoints (d.thermalSample rs) := by
  rw [thermalSample_eq]
  exact (((d.sampled rs).cooled_points.trans (Device.throttles_points ..)).trans (.of_units (Device.zoneSamples_units _))).trans
    (.of_heat (Device.tripShut_heat _))

theorem temp_eq_of_rd {d e : Device} {n : Nat} (h : e.rd Reg.THERM_POINT_TEMP n = d.rd Reg.THERM_POINT_TEMP n) : e.temp n = d.temp n := by
  unfold Device.temp
  rw [h]

theorem limit_row {n : Nat} {d e : Device} (h : d.SameRow n e) {g : Fld} (hbase : g.base = 0x70100) (hstride : g.stride = 8) (hlo : g.lo < 1024) :
    e.limit g n = d.limit g n := by
  have hzone : zoneOf n ≤ 2 := by
    unfold zoneOf
    split
    · decide
    · split <;> decide
  unfold Device.limit
  rw [h.rd_eq]
  simp only [RowKey, UnitKey, Fld.key, hbase, hstride]
  omega

theorem signed_unsigned_of_lt {t : Int} (hlow : -32768 ≤ t) (hhigh : t < 32768) : Machine.signed 16 (Machine.unsigned 16 t) = t := by
  unfold Machine.signed Machine.unsigned
  split <;> omega

end Device

/-- An entry of at least 2 is listed. -/
theorem Tab.exists_of_get {t : Tab Nat} {n : Nat} (h : 2 ≤ Tab.get 0 t n) : ∃ x ∈ t, 2 ≤ x.2 := by
  induction t with
  | nil => exact absurd h (by simp [Tab.get])
  | cons x t ih =>
    obtain ⟨k, v⟩ := x
    simp only [Tab.get] at h
    split at h
    · exact ⟨(k, v), List.mem_cons_self .., h⟩
    · obtain ⟨y, hy, hv⟩ := ih h
      exact ⟨y, List.mem_cons_of_mem _ hy, hv⟩

namespace Device

/-- A point that counts two readings at TRIP shuts the module down. -/
theorem tripShut_spec (d : Device) {n : Nat} (h : 2 ≤ Tab.get 0 d.power.trips n) :
    d.tripShut.life.rails = false ∧ d.tripShut.life.stopped = true ∧ d.tripShut.pins.thermtrip = true ∧ d.tripShut.pins.alert = true := by
  obtain ⟨x, hx, hv⟩ := Tab.exists_of_get h
  obtain ⟨⟨m, c⟩, hfind⟩ : ∃ y, List.find? (fun x : Nat × Nat => Decidable.decide (x.2 ≥ 2)) d.power.trips = some y :=
    Option.isSome_iff_exists.mp (List.find?_isSome.mpr ⟨x, hx, by simpa using hv⟩)
  have heq : d.tripShut = d.shutdown 3 m (d.temp m) (d.limit Reg.THERM_LIMITS_TRIP m) := by
    unfold Device.tripShut
    rw [hfind]
  rw [heq]
  exact d.shutdown_spec ..

/-- A point at THROTTLE among the hot ones, where none was hot before, sets THROTTLE. -/
theorem throttles_hot (d : Device) {n : Nat} (hn : n < 168) (hhot : n ∈ d.power.hot) (hthr : d.rd Reg.THERM_POINT_THROTTLE n = 1) :
    (d.cooled.throttles []).rd Reg.POWER_STATUS_THROTTLE = 1 := by
  have hwarm : d.allCool = false := by
    unfold Device.allCool
    refine List.all_eq_false.mpr ⟨n, List.mem_range.mpr hn, ?_⟩
    rw [hthr]
    simp
  obtain ⟨m, ms, hcons⟩ := List.exists_cons_of_ne_nil (List.ne_nil_of_mem hhot)
  unfold Device.cooled Device.throttles
  rw [hwarm, if_neg Bool.false_ne_true, hcons]
  rw [(Device.thermal_units ..).rd_eq (by simp only [UnitKey, Fld.key, Reg.POWER_STATUS_THROTTLE]; omega), Device.rd_wr_same]
  rfl

theorem thermalSample_reading (d : Device) (rs : List (Option Int)) {n : Nat} (hn : n < 168) {t : Int} (hread : (rs.drop n).headD none = some t)
    (hlow : -32768 ≤ t) (hhigh : t < 32768) :
    let e := d.thermalSample rs
    e.temp n = t ∧ e.rd Reg.THERM_POINT_VALID n = 1 ∧ e.rd Reg.THERM_POINT_FAULT n = 0 ∧
      e.rd Reg.THERM_POINT_WARN n = b2n (d.limit Reg.THERM_LIMITS_WARN n ≤ t) ∧
      e.rd Reg.THERM_POINT_THROTTLE n = b2n (d.limit Reg.THERM_LIMITS_THROTTLE n ≤ t) := by
  obtain ⟨a, hbefore, hafter⟩ := d.sampled_row rs hn
  rw [hread] at hafter
  obtain ⟨htemp, hvalid, hfault, hwarn, hthr, -, -⟩ := a.sensor_reading hn t
  rw [limit_row hbefore rfl rfl (by decide)] at hwarn hthr
  have hend := d.thermalSample_points rs
  have hrd : ∀ f : Fld, f.base = 0x71000 → f.stride = 4 → f.lo < 1024 → (d.thermalSample rs).rd f n = (a.sensor n (some t)).rd f n := by
    intro f hbase hstride hlo
    rw [hend.rd_eq hn hbase hstride hlo, hafter.rd_eq]
    simp only [RowKey, UnitKey, Fld.key, hbase, hstride]
    omega
  refine ⟨?_, (hrd _ rfl rfl (by decide)).trans hvalid, (hrd _ rfl rfl (by decide)).trans hfault, (hrd _ rfl rfl (by decide)).trans hwarn,
    (hrd _ rfl rfl (by decide)).trans hthr⟩
  unfold Device.temp
  rw [hrd _ rfl rfl (by decide), htemp, signed_unsigned_of_lt hlow hhigh]

theorem thermalSample_missing (d : Device) (rs : List (Option Int)) {n : Nat} (hn : n < 168) (hread : (rs.drop n).headD none = none) :
    let e := d.thermalSample rs
    e.temp n = d.temp n ∧ e.rd Reg.THERM_POINT_VALID n = 0 ∧
      (Tab.get 0 d.power.invalid n < 2 → e.rd Reg.THERM_POINT_FAULT n = d.rd Reg.THERM_POINT_FAULT n ∧
        e.rd Reg.THERM_POINT_THROTTLE n = d.rd Reg.THERM_POINT_THROTTLE n) ∧
      (2 ≤ Tab.get 0 d.power.invalid n → e.rd Reg.THERM_POINT_FAULT n = 1 ∧ e.rd Reg.THERM_POINT_THROTTLE n = 1) := by
  obtain ⟨a, hbefore, hafter⟩ := d.sampled_row rs hn
  rw [hread] at hafter
  obtain ⟨htemp, hvalid, hfew, hmany⟩ := a.sensor_missing hn
  have hkey : ∀ f : Fld, f.base = 0x71000 → f.stride = 4 → f.lo < 1024 → RowKey n (f.key n) := by
    intro f hbase hstride hlo
    simp only [RowKey, UnitKey, Fld.key, hbase, hstride]
    omega
  rw [hbefore.invalid, hbefore.rd_eq (hkey _ rfl rfl (by decide)), hbefore.rd_eq (hkey _ rfl rfl (by decide))] at hfew
  rw [hbefore.invalid] at hmany
  rw [hbefore.rd_eq (hkey _ rfl rfl (by decide))] at htemp
  have hend := d.thermalSample_points rs
  have hrd : ∀ f : Fld, f.base = 0x71000 → f.stride = 4 → f.lo < 1024 → (d.thermalSample rs).rd f n = (a.sensor n none).rd f n :=
    fun f hbase hstride hlo => (hend.rd_eq hn hbase hstride hlo).trans (hafter.rd_eq (hkey f hbase hstride hlo))
  dsimp only
  rw [temp_eq_of_rd ((hrd _ rfl rfl (by decide)).trans htemp), hrd _ rfl rfl (by decide), hrd _ rfl rfl (by decide), hrd _ rfl rfl (by decide)]
  exact ⟨rfl, hvalid, hfew, hmany⟩

theorem thermalSample_trip (d : Device) (rs : List (Option Int)) {n : Nat} (hn : n < 168) {t : Int} (hread : (rs.drop n).headD none = some t)
    (htrip : d.limit Reg.THERM_LIMITS_TRIP n ≤ t) (hcount : 1 ≤ Tab.get 0 d.power.trips n) :
    let e := d.thermalSample rs
    e.life.rails = false ∧ e.life.stopped = true ∧ e.pins.thermtrip = true ∧ e.pins.alert = true := by
  obtain ⟨a, hbefore, hafter⟩ := d.sampled_row rs hn
  rw [hread] at hafter
  obtain ⟨-, -, -, -, -, htrips, -⟩ := a.sensor_reading hn t
  rw [limit_row hbefore rfl rfl (by decide), hbefore.trips] at htrips
  dsimp only
  rw [thermalSample_eq]
  refine tripShut_spec _ (n := n) ?_
  rw [(zoneSamples_units _).power, (throttles_points ..).trips, (cooled_points _).trips, hafter.trips, htrips htrip]
  omega

theorem thermalSample_throttle (d : Device) (rs : List (Option Int)) {n : Nat} (hn : n < 168) {t : Int} (hread : (rs.drop n).headD none = some t)
    (hcold : d.power.hot = []) (hthr : d.limit Reg.THERM_LIMITS_THROTTLE n ≤ t) : (d.thermalSample rs).rd Reg.POWER_STATUS_THROTTLE = 1 := by
  obtain ⟨a, hbefore, hafter⟩ := d.sampled_row rs hn
  rw [hread] at hafter
  obtain ⟨-, -, -, -, hthrottle, -, hhot⟩ := a.sensor_reading hn t
  rw [limit_row hbefore rfl rfl (by decide)] at hthrottle hhot
  have hsampled : (d.sampled rs).rd Reg.THERM_POINT_THROTTLE n = 1 := by
    rw [hafter.rd_eq (by simp only [RowKey, UnitKey, Fld.key, Reg.THERM_POINT_THROTTLE]; omega), hthrottle]
    simp [b2n, hthr]
  have hkey : UnitKey (Reg.POWER_STATUS_THROTTLE.key 0) := by simp only [UnitKey, Fld.key, Reg.POWER_STATUS_THROTTLE]; omega
  rw [thermalSample_eq, (tripShut_heat _).rd_eq hkey, (zoneSamples_units _).rd_eq hkey, hcold]
  exact throttles_hot _ hn (hafter.hot n (hhot hthr)) hsampled

/-! The steps of the thermal ceiling -/

theorem any_throttle_iff (d : Device) : allPoints.any (fun n => d.rd Reg.THERM_POINT_THROTTLE n == 1) = true ↔ ∃ n < 168, d.rd Reg.THERM_POINT_THROTTLE n = 1 := by
  simp [allPoints, List.any_eq_true, List.mem_range]

theorem allCool_iff (d : Device) :
    d.allCool = true ↔ ∀ n < 168, d.rd Reg.THERM_POINT_THROTTLE n = 0 ∧ d.temp n < d.limit Reg.THERM_LIMITS_THROTTLE n - 48 := by
  simp [Device.allCool, Device.limit, allPoints, List.all_eq_true, List.mem_range]

/-! The decision of an operating point -/

/-- Two devices from which the controller reckons alike: they differ in no register but FLOOR_W, BELOW_FLOOR and DUTY. -/
structure Reckons (d e : Device) : Prop where
  rd : ∀ f i, f.key i ≠ Reg.POWER_MEAS_FLOOR_W.key 0 → f.key i ≠ Reg.POWER_STATUS_BELOW_FLOOR.key 0 → e.rd f i = d.rd f i
  deltas : e.power.deltas = d.power.deltas
  activity : e.power.activity = d.power.activity

namespace Reckons

variable {d e f : Device}

theorem trans (h : d.Reckons e) (g : e.Reckons f) : d.Reckons f :=
  ⟨fun k i hfloor hbelow => (g.rd k i hfloor hbelow).trans (h.rd k i hfloor hbelow), g.deltas.trans h.deltas, g.activity.trans h.activity⟩

theorem wr_floor (d : Device) (v : Nat) : d.Reckons (d.wr Reg.POWER_MEAS_FLOOR_W 0 v) :=
  ⟨fun _ _ hfloor _ => Device.rd_wr_ne d _ _ _ _ _ hfloor, rfl, rfl⟩

theorem wr_below (d : Device) (v : Nat) : d.Reckons (d.wr Reg.POWER_STATUS_BELOW_FLOOR 0 v) :=
  ⟨fun _ _ _ hbelow => Device.rd_wr_ne d _ _ _ _ _ hbelow, rfl, rfl⟩

theorem setAbove (d : Device) (b : Bool) : d.Reckons (d.setPower { d.power with above := b }) := ⟨fun _ _ _ _ => rfl, rfl, rfl⟩

section
variable (h : d.Reckons e)
include h

theorem point : e.point = d.point := h.rd _ _ (by decide) (by decide)

theorem cap : e.cap = d.cap := h.rd _ _ (by decide) (by decide)

theorem measured : e.rd Reg.POWER_MEAS_MEASURED_W = d.rd Reg.POWER_MEAS_MEASURED_W := h.rd _ _ (by decide) (by decide)

theorem deterministic : e.deterministic = d.deterministic := congrArg (· == 1) (h.rd _ _ (by decide) (by decide))

theorem distrust : e.distrust = d.distrust := congrArg (· == 1) (h.rd _ _ (by decide) (by decide))

theorem warmup : e.warmup = d.warmup := congrArg (· == 1) (h.rd _ _ (by decide) (by decide))

theorem temp (n : Nat) : e.temp n = d.temp n := by
  refine temp_eq_of_rd (h.rd _ _ ?_ ?_) <;>
    simp only [Fld.key, Reg.THERM_POINT_TEMP, Reg.POWER_MEAS_FLOOR_W, Reg.POWER_STATUS_BELOW_FLOOR] <;> omega

theorem valid (n : Nat) : e.rd Reg.THERM_POINT_VALID n = d.rd Reg.THERM_POINT_VALID n := by
  refine h.rd _ _ ?_ ?_ <;>
    simp only [Fld.key, Reg.THERM_POINT_VALID, Reg.POWER_MEAS_FLOOR_W, Reg.POWER_STATUS_BELOW_FLOOR] <;> omega

theorem hottest (points : List Nat) : e.hottest points = d.hottest points := by
  simp only [Device.hottest, h.valid, h.temp]

theorem activities : Device.activity e = Device.activity d := by
  simp only [Device.activity, h.warmup, h.point, h.activity]

theorem estimateOf (q : Nat) (acts : List Nat) : e.estimateOf q acts = d.estimateOf q acts := by
  simp only [Device.estimateOf, h.deterministic, h.hottest]

theorem estimate (q : Nat) : e.estimate q = d.estimate q := by
  rw [Device.estimate, h.activities, h.estimateOf, ← Device.estimate]

theorem scale : e.scale = d.scale := by
  rw [Device.scale, h.deltas, ← Device.scale]

theorem predict (x : Nat) : e.predict x = d.predict x := by
  rw [Device.predict, h.scale, h.deterministic, h.deltas, ← Device.predict]

theorem fits (num den q : Nat) : e.fits num den q = d.fits num den q := by
  rw [Device.fits, h.distrust, h.measured, h.cap, h.point, h.estimate, h.predict, h.scale, ← Device.fits]

theorem floorW : e.floorW = d.floorW := by
  rw [Device.floorW, h.distrust, h.measured, h.point, h.estimate, h.predict, h.scale, ← Device.floorW]

theorem holdW : e.holdW = d.holdW := by
  rw [Device.holdW, h.activities, h.estimateOf, h.predict, h.scale, ← Device.holdW]

theorem target : e.target = d.target := by
  rw [Device.target, h.distrust, h.cap, ← Device.target]

theorem dutyA : e.dutyA = d.dutyA := by
  rw [Device.dutyA, h.target, h.floorW, h.holdW, ← Device.dutyA]

end
end Reckons

/-- Where the slowest point fits, only FLOOR_W is shown. -/
theorem checkFloor_of_fits (d : Device) (h : d.fits 1 1 8 = true) :
    d.checkFloor = d.wr Reg.POWER_MEAS_FLOOR_W 0 (Nat.min d.floorW 65535) := by
  unfold Device.checkFloor
  exact if_pos (((Reckons.wr_floor d _).fits ..).trans h)

/-- In the state of R462 the tick is told that the floor is not reached. -/
theorem checkFloor_of_below (d : Device) (h : d.fits 1 1 8 = false) (hbelow : d.rd Reg.POWER_STATUS_BELOW_FLOOR = 1) :
    d.checkFloor = (d.wr Reg.POWER_MEAS_FLOOR_W 0 (Nat.min d.floorW 65535)).setPower { d.power with above := false } := by
  unfold Device.checkFloor
  refine (if_neg (by rw [(Reckons.wr_floor d _).fits, h]; exact Bool.false_ne_true)).trans (if_pos ?_)
  rw [rd_setPower, Device.rd_wr_ne _ _ _ _ _ _ (by decide), hbelow]

/-- The state of R462 is entered with the duty that the device's own reckoning gives. -/
theorem checkFloor_enters (d : Device) (h : d.fits 1 1 8 = false) (hbelow : d.rd Reg.POWER_STATUS_BELOW_FLOOR ≠ 1) :
    d.checkFloor.rd Reg.POWER_STATUS_BELOW_FLOOR = 1 ∧
      d.checkFloor.rd Reg.POWER_STATUS_DUTY = d.dutyA % 2 ^ Reg.POWER_STATUS_DUTY.width ∧ d.checkFloor.power.credit = 0 := by
  unfold Device.checkFloor
  extract_lets shown kept noted entered dutied last
  have hshown : d.Reckons shown := .wr_floor ..
  have hnoted : shown.Reckons noted := .setAbove ..
  have hentered : noted.Reckons entered := .wr_below ..
  have hbelow' : noted.rd Reg.POWER_STATUS_BELOW_FLOOR ≠ 1 := by
    rw [rd_setPower, Device.rd_wr_ne _ _ _ _ _ _ (by decide)]
    exact hbelow
  rw [if_neg (by rw [hshown.fits, h]; exact Bool.false_ne_true), if_neg hbelow']
  have hpost : (dutied.setPower { last with credit := 0 }).SameUnits ((dutied.setPower { last with credit := 0 }).postFloor true) := post_units ..
  refine ⟨?_, ?_, ?_⟩
  · rw [hpost.rd_eq (by simp only [UnitKey]; decide), rd_setPower, Device.rd_wr_ne _ _ _ _ _ _ (by decide), Device.rd_wr_same]
    rfl
  · rw [hpost.rd_eq (by simp only [UnitKey]; decide), rd_setPower, Device.rd_wr_same, hentered.dutyA, hnoted.dutyA, hshown.dutyA]
  · rw [hpost.power]
    rfl

/-! What a decision selects -/

/-- The point that a decision finds. -/
def wanted (d : Device) : Nat := (((List.range 9).filter (fun q => d.rd Reg.POWER_STATUS_CEILING ≤ q)).find? (fun q => d.fits 1 1 q)).getD 8

/-- The condition of a step up (R459). -/
def MayRise (d : Device) : Prop :=
  d.wanted < d.point ∧ d.power.holdUntil ≤ d.clock.now ∧ (∀ t, d.power.upAt = some t → t + 100000 ≤ d.clock.now) ∧ d.fits 97 100 (d.point - 1) = true

theorem decide_of_falling (d : Device) {m : Nat} (hmoving : d.power.moving = some m) (h : d.point < m) :
    d.decide = d.setPower { d.power with
      goal := if d.clock.now < d.power.holdUntil then Nat.max d.wanted d.power.goal else Nat.max d.wanted m } := by
  unfold Device.decide
  simp only [hmoving]
  exact if_pos h

theorem decide_of_rising (d : Device) {m : Nat} (hmoving : d.power.moving = some m) (h : m ≤ d.point) :
    d.decide = if d.point ≤ d.wanted then d.goTo d.wanted else d := by
  unfold Device.decide
  simp only [hmoving]
  exact if_neg (by omega)

theorem decide_of_slower (d : Device) (hmoving : d.power.moving = none) (h : d.point < d.wanted) : d.decide = d.goTo d.wanted := by
  unfold Device.decide
  simp only [hmoving]
  exact if_pos h

/-- Whether the last step up lies back far enough. -/
theorem due_iff (t? : Option Nat) (now : Nat) :
    (match t? with
      | none => true
      | some t => Decidable.decide (t + 100000 ≤ now)) = true ↔ ∀ t, t? = some t → t + 100000 ≤ now := by
  cases t? <;> simp

theorem decide_of_mayRise (d : Device) (hmoving : d.power.moving = none) (h : d.MayRise) :
    d.decide = d.setPower { d.power with goal := d.point - 1, moving := some (d.point - 1), upAt := some d.clock.now } := by
  obtain ⟨hfaster, hheld, hdue, hfits⟩ := h
  have hgo : (d.goTo (d.point - 1)).power = { d.power with goal := d.point - 1, moving := some (d.point - 1) } := by
    unfold Device.goTo
    dsimp only [Device.setPower]
    rw [if_neg (by omega), if_pos (by omega)]
  unfold Device.decide
  simp only [hmoving]
  refine (if_neg (by change ¬ d.point < d.wanted; omega)).trans ((if_pos ?_).trans ?_)
  · simp only [Bool.and_eq_true, decide_eq_true_eq]
    exact ⟨⟨⟨hfaster, hheld⟩, (due_iff ..).mpr hdue⟩, hfits⟩
  · rw [hgo]
    rfl

theorem decide_of_not_mayRise (d : Device) (hmoving : d.power.moving = none) (h : ¬ d.point < d.wanted) (hup : ¬ d.MayRise) : d.decide = d := by
  unfold Device.decide
  simp only [hmoving]
  refine (if_neg h).trans (if_neg fun hrise => hup ?_)
  simp only [Bool.and_eq_true, decide_eq_true_eq] at hrise
  obtain ⟨⟨⟨hfaster, hheld⟩, hdue⟩, hfits⟩ := hrise
  exact ⟨hfaster, hheld, (due_iff ..).mp hdue, hfits⟩

/-! A measurement -/

/-- Two devices with the same measurement on show. -/
structure SameMeas (d e : Device) : Prop where
  measured : e.rd Reg.POWER_MEAS_MEASURED_W = d.rd Reg.POWER_MEAS_MEASURED_W
  estimate : e.rd Reg.POWER_MEAS_ESTIMATE_W = d.rd Reg.POWER_MEAS_ESTIMATE_W
  estimates : e.power.estimates = d.power.estimates
  meas : e.power.meas = d.power.meas
  deltas : e.power.deltas = d.power.deltas

namespace SameMeas

variable {d e f : Device}

theorem refl (d : Device) : d.SameMeas d := ⟨rfl, rfl, rfl, rfl, rfl⟩

theorem trans (h : d.SameMeas e) (g : e.SameMeas f) : d.SameMeas f :=
  ⟨g.measured.trans h.measured, g.estimate.trans h.estimate, g.estimates.trans h.estimates, g.meas.trans h.meas, g.deltas.trans h.deltas⟩

theorem of_units (h : d.SameUnits e) : d.SameMeas e :=
  ⟨h.rd_eq (by simp only [UnitKey]; decide), h.rd_eq (by simp only [UnitKey]; decide), by rw [h.power], by rw [h.power], by rw [h.power]⟩

theorem setPower (d : Device) (p : Power) (estimates : p.estimates = d.power.estimates) (meas : p.meas = d.power.meas)
    (deltas : p.deltas = d.power.deltas) : d.SameMeas (d.setPower p) := ⟨rfl, rfl, estimates, meas, deltas⟩

theorem wr (d : Device) {f : Fld} (v : Nat) (hmeasured : Reg.POWER_MEAS_MEASURED_W.key 0 ≠ f.key 0) (hestimate : Reg.POWER_MEAS_ESTIMATE_W.key 0 ≠ f.key 0) :
    d.SameMeas (d.wr f 0 v) := ⟨Device.rd_wr_ne _ _ _ _ _ _ hmeasured, Device.rd_wr_ne _ _ _ _ _ _ hestimate, rfl, rfl, rfl⟩

end SameMeas

theorem goTo_meas (d : Device) (q : Nat) : d.SameMeas (d.goTo q) := .setPower _ _ rfl rfl rfl

theorem decide_meas (d : Device) : d.SameMeas d.decide := by
  unfold Device.decide
  extract_lets pt ceil q now due
  split
  · split
    · exact .setPower _ _ rfl rfl rfl
    · split
      · exact d.goTo_meas _
      · exact .refl d
  · split
    · exact d.goTo_meas _
    · split
      · exact (d.goTo_meas _).trans (.setPower _ _ rfl rfl rfl)
      · exact .refl d

theorem checkFloor_meas (d : Device) : d.SameMeas d.checkFloor := by
  unfold Device.checkFloor
  extract_lets shown kept noted entered dutied last
  have hshown : d.SameMeas shown := .wr _ _ (by decide) (by decide)
  have hnoted : d.SameMeas noted := hshown.trans (.setPower _ _ rfl rfl rfl)
  have hdutied : d.SameMeas dutied := (hnoted.trans (.wr _ _ (by decide) (by decide))).trans (.wr _ _ (by decide) (by decide))
  split
  · exact hshown
  · split
    · exact hnoted
    · have hpost : (dutied.setPower { last with credit := 0 }).SameUnits ((dutied.setPower { last with credit := 0 }).postFloor true) := post_units ..
      exact (hdutied.trans (.setPower dutied { last with credit := 0 } rfl rfl rfl)).trans (.of_units hpost)

theorem postMismatch_units (d : Device) (m e : Nat) (entering : Bool) : d.SameUnits (d.postMismatch m e entering) := post_units ..

theorem compare_meas (d : Device) (m k sum : Nat) : d.SameMeas (d.compare m k sum) := by
  unfold Device.compare
  split
  · exact .refl d
  · extract_lets diff far p n counted marked kept m' counted' marked' kept'
    have hcounted : d.SameMeas counted := .setPower d _ rfl rfl rfl
    have hmarked : d.SameMeas marked := (hcounted.trans (.wr _ _ (by decide) (by decide))).trans (.wr _ _ (by decide) (by decide))
    have hcounted' : d.SameMeas counted' := .setPower d _ rfl rfl rfl
    have hmarked' : d.SameMeas marked' := hcounted'.trans (.wr _ _ (by decide) (by decide))
    split
    · split
      · exact hcounted
      · exact (hmarked.trans (.setPower marked { kept with outside := 0 } rfl rfl rfl)).trans (.of_units (postMismatch_units ..))
    · split
      · exact hcounted'
      · exact (hmarked'.trans (.setPower marked' { kept' with inside := 0, outside := 0 } rfl rfl rfl)).trans (.of_units (postMismatch_units ..))

theorem sample_units (d : Device) (h k v : Nat) : d.SameUnits (d.sample h k v) := .of_same rfl rfl

theorem step1_units (d : Device) : d.SameUnits d.step1 := .of_same rfl rfl

theorem moduleSample_units (d : Device) (k v : Nat) : d.SameUnits (d.moduleSample k v) := .of_same rfl rfl

/-- The power that a measurement counts for each hoop, as a sample of the hoop (R439). -/
def hoopPowers (d : Device) (m : Nat) (acts : List (List Nat)) : Device :=
  let s := Config.powerStatic d.deterministic d.point ((d.hottest allPoints).getD 0)
  let term := fun (a : List Nat) => activityPower d.deterministic d.point a
  let tot := (acts.map term).foldl (· + ·) 0
  (List.range 8).foldl (fun d h =>
    if d.hoopState h = 0 then d
    else if tot = 0 then (d.sample h 4 (Config.freeValue d.fresh).toNat).step1
    else d.sample h 4 ((64 * (term ((acts.drop h).headD []) : Nat) * ((m : Int) - s)
      + ((d.rd Reg.HOOP_CFG_POWER_SHARE h * s * tot : Nat) : Int)) / ((64 * tot : Nat) : Int)).toNat) d

theorem hoopPowers_units (d : Device) (m : Nat) (acts : List (List Nat)) : d.SameUnits (d.hoopPowers m acts) := by
  unfold Device.hoopPowers
  extract_lets s term tot
  refine List.foldlRecOn (motive := fun e : Device => d.SameUnits e) _ _ (.refl d) fun e he h _ => ?_
  split
  · exact he
  · split
    · exact he.trans ((e.sample_units h 4 _).trans (step1_units _))
    · exact he.trans (e.sample_units ..)

/-- The device with a measurement and the mean of its estimates on show. -/
def measures (d : Device) (m : Nat) : Device :=
  let k := d.power.estimates.length
  let sum := d.power.estimates.foldl (· + ·) 0
  let e := d.wr Reg.POWER_MEAS_MEASURED_W 0 (Nat.min m 65535)
  let e := if k = 0 then e else e.wr Reg.POWER_MEAS_ESTIMATE_W 0 (Nat.min (sum / k) 65535)
  e.setPower { e.power with
    estimates := []
    meas := (m :: e.power.meas).take 10
    deltas := if k = 0 then e.power.deltas else ((((10 * m : Nat) : Int) - ((10 * sum / k : Nat) : Int)) :: e.power.deltas).take 8 }

/-- What a measurement decides, counts and attributes leaves what it shows. -/
theorem measure_meas (d : Device) (m : Nat) (acts : List (List Nat)) : (d.measures m).SameMeas (d.measure m acts) := by
  unfold Device.measure
  extract_lets k sum shown estimated p started compared decided counted stepped kept last
  have hstarted : d.measures m = started := rfl
  have hcompared : (d.measures m).SameMeas compared := by rw [hstarted]; exact compare_meas ..
  have hdecided : (d.measures m).SameMeas decided := by
    unfold decided
    split
    · exact hcompared.trans ((decide_meas _).trans (checkFloor_meas _))
    · exact hcompared
  clear_value decided
  have hcounted : (d.measures m).SameMeas counted := hdecided.trans (.wr _ _ (by decide) (by decide))
  have hstepped : (d.measures m).SameMeas stepped := by
    unfold stepped
    split
    · exact hcounted.trans (goTo_meas ..)
    · exact hcounted
  clear_value stepped
  have hlast : (d.measures m).SameMeas last := by
    unfold last
    split
    · exact hstepped.trans (.setPower stepped { kept with holdUntil := Nat.max stepped.power.holdUntil (stepped.clock.now + 1000000) } rfl rfl rfl)
    · exact hdecided
  clear_value last
  refine hlast.trans (.of_units (SameUnits.trans ?_ (moduleSample_units ..)))
  exact hoopPowers_units last m acts

theorem measures_power (d : Device) (m : Nat) :
    (d.measures m).power = { d.power with
      estimates := []
      meas := (m :: d.power.meas).take 10
      deltas := if d.power.estimates.length = 0 then d.power.deltas
        else ((((10 * m : Nat) : Int) - ((10 * d.power.estimates.foldl (· + ·) 0 / d.power.estimates.length : Nat) : Int)) :: d.power.deltas).take 8 } := by
  unfold Device.measures
  by_cases hnone : d.power.estimates.length = 0
  · simp only [hnone, if_true]
    rfl
  · simp only [hnone, if_false]
    rfl

theorem measures_measured (d : Device) (m : Nat) : (d.measures m).rd Reg.POWER_MEAS_MEASURED_W = Nat.min m 65535 := by
  have hfits : Nat.min m 65535 % 2 ^ 16 = Nat.min m 65535 := Nat.mod_eq_of_lt (Nat.lt_of_le_of_lt (Nat.min_le_right ..) (by decide))
  unfold Device.measures
  dsimp only
  rw [rd_setPower]
  split
  · exact (Device.rd_wr_same ..).trans hfits
  · rw [Device.rd_wr_ne _ _ _ _ _ _ (by decide)]
    exact (Device.rd_wr_same ..).trans hfits

theorem measures_estimate (d : Device) (m : Nat) (h : d.power.estimates.length ≠ 0) :
    (d.measures m).rd Reg.POWER_MEAS_ESTIMATE_W = Nat.min (d.power.estimates.foldl (· + ·) 0 / d.power.estimates.length) 65535 := by
  unfold Device.measures
  dsimp only
  rw [rd_setPower, if_neg h, Device.rd_wr_same]
  exact Nat.mod_eq_of_lt (Nat.lt_of_le_of_lt (Nat.min_le_right ..) (by decide))

/-! The steps of the operating point and the droops -/

theorem opStep_spec (d : Device) {m : Nat} (hmoving : d.power.moving = some m) (hm : m < 16) :
    d.opStep.point = m ∧ d.opStep.power = { d.power with moving := if m < d.power.goal then some (m + 1) else none } ∧ d.opStep.mem = d.mem := by
  have heq : d.opStep = (d.wr Reg.POWER_STATUS_POINT 0 m).setPower { d.power with moving := if m < d.power.goal then some (m + 1) else none } := by
    unfold Device.opStep
    rw [hmoving]
    rfl
  rw [heq]
  refine ⟨?_, rfl, rfl⟩
  unfold Device.point
  rw [rd_setPower, Device.rd_wr_same]
  exact Nat.mod_eq_of_lt hm

/-- The detections of the last 1 ms, with the one that is met now. -/
def droopsNow (d : Device) : List Nat := d.clock.now :: d.power.droops.filter (fun t => d.clock.now < t + 1000000)

/-- The controller after a droop is counted. -/
def droopPower (d : Device) (rail : Nat) : Power := { d.power with stretched := setBit d.power.stretched rail true, droops := d.droopsNow }

/-- The device after a droop is counted. -/
def droopCounted (d : Device) (rail : Nat) : Device := (d.countSat Reg.POWER_EVENTS_DROOPS 0).setPower (d.droopPower rail)

/-- The device whose point is stepped down for droops. -/
def droopStepped (d : Device) : Device := if d.point < 8 then d.goTo (Nat.max d.power.goal (d.point + 1)) else d

theorem droop_eq (d : Device) (rail : Nat) :
    d.droop rail = if d.droopsNow.length < 64 then d.droopCounted rail
      else (d.droopCounted rail).droopStepped.setPower { (d.droopCounted rail).droopStepped.power with
        droops := [], holdUntil := Nat.max (d.droopCounted rail).droopStepped.power.holdUntil (d.clock.now + 10000000) } := rfl

theorem droopCounted_rd (d : Device) (rail : Nat) : (d.droopCounted rail).rd Reg.POWER_EVENTS_DROOPS =
    satAdd Reg.POWER_EVENTS_DROOPS.width (d.rd Reg.POWER_EVENTS_DROOPS) 1 % 2 ^ Reg.POWER_EVENTS_DROOPS.width := by
  unfold Device.droopCounted
  rw [rd_setPower]
  exact Device.rd_wr_same ..

theorem droopCounted_point (d : Device) (rail : Nat) : (d.droopCounted rail).point = d.point := by
  unfold Device.point Device.droopCounted
  rw [rd_setPower]
  exact Device.rd_wr_ne _ _ _ _ _ _ (by decide)

theorem droopStepped_rd (d : Device) (f : Fld) (i : Nat) : d.droopStepped.rd f i = d.rd f i := by
  unfold Device.droopStepped
  split <;> rfl

theorem droopStepped_power (d : Device) :
    d.droopStepped.power = if d.point < 8 then { d.power with goal := Nat.max d.power.goal (d.point + 1), moving := some (d.point + 1) } else d.power := by
  unfold Device.droopStepped
  split
  · unfold Device.goTo
    dsimp only [Device.setPower]
    rw [if_pos (Nat.lt_of_lt_of_le (Nat.lt_succ_self _) (Nat.le_max_right ..))]
  · rfl

theorem droop_spec (d : Device) (rail : Nat) :
    (d.droop rail).rd Reg.POWER_EVENTS_DROOPS =
        satAdd Reg.POWER_EVENTS_DROOPS.width (d.rd Reg.POWER_EVENTS_DROOPS) 1 % 2 ^ Reg.POWER_EVENTS_DROOPS.width ∧
      (d.droopsNow.length < 64 → (d.droop rail).power = d.droopPower rail) ∧
      (64 ≤ d.droopsNow.length → (d.droop rail).power =
        if d.point < 8 then { d.droopPower rail with
          droops := [], holdUntil := Nat.max d.power.holdUntil (d.clock.now + 10000000), goal := Nat.max d.power.goal (d.point + 1), moving := some (d.point + 1) }
        else { d.droopPower rail with droops := [], holdUntil := Nat.max d.power.holdUntil (d.clock.now + 10000000) }) := by
  rw [droop_eq]
  by_cases hfew : d.droopsNow.length < 64
  · rw [if_pos hfew]
    exact ⟨d.droopCounted_rd rail, fun _ => rfl, fun h => absurd h (by omega)⟩
  · rw [if_neg hfew]
    refine ⟨?_, fun h => absurd h hfew, fun _ => ?_⟩
    · rw [rd_setPower, droopStepped_rd, droopCounted_rd]
    · dsimp only [Device.setPower]
      rw [droopStepped_power, droopCounted_point]
      split <;> rfl

/-- A step down that has not begun begins now: the point selected is slower. -/
theorem goTo_slower (d : Device) {q : Nat} (h : d.point < q) : d.goTo q = d.setPower { d.power with goal := q, moving := some (d.point + 1) } := by
  unfold Device.goTo
  dsimp only
  rw [if_pos h]

theorem goTo_same (d : Device) : d.goTo d.point = d.setPower { d.power with goal := d.point, moving := none } := by
  unfold Device.goTo
  dsimp only
  rw [if_neg (Nat.lt_irrefl _), if_neg (Nat.lt_irrefl _)]

theorem decide_below (d : Device) : d.decide.rd Reg.POWER_STATUS_BELOW_FLOOR = d.rd Reg.POWER_STATUS_BELOW_FLOOR := by
  unfold Device.decide
  extract_lets pt ceil q now due
  split
  · split
    · rfl
    · split <;> rfl
  · split
    · rfl
    · split <;> rfl

end Device

section
variable {s : State}

theorem gives_powerDecision (act : List Nat) (hlive : s.dev.live = true) : Gives (.powerDecision act) s (s.dev.decision act) :=
  .of_done rfl (if_pos hlive)

/-- THROTTLE_STEP where a point is at THROTTLE. -/
theorem gives_throttleStep_of_hot (hlive : s.dev.live = true) (hot : ∃ n < 168, s.dev.rd Reg.THERM_POINT_THROTTLE n = 1) :
    (s.dev.power.ceil < 8 → Gives .throttleStep s ((s.dev.setPower { s.dev.power with ceil := s.dev.power.ceil + 1 }).setCeiling)) ∧
      (8 ≤ s.dev.power.ceil → Gives .throttleStep s (s.dev.setPower { s.dev.power with
        thermalDuty := Nat.min 15 (s.dev.power.thermalDuty + 1), credit := if s.dev.effectiveA = 16 then 0 else s.dev.power.credit })) := by
  have hhot := s.dev.any_throttle_iff.mpr hot
  refine ⟨fun hceil => .of_done rfl ((if_pos hlive).trans ((if_pos hhot).trans (if_pos hceil))),
    fun hceil => .of_done rfl ((if_pos hlive).trans ((if_pos hhot).trans (if_neg (Nat.not_lt.mpr hceil))))⟩

/-- THROTTLE_STEP where no point is at THROTTLE. -/
theorem gives_throttleStep_of_not_hot (hlive : s.dev.live = true) (hot : ¬ ∃ n < 168, s.dev.rd Reg.THERM_POINT_THROTTLE n = 1) :
    (s.dev.allCool = false → Gives .throttleStep s s.dev) ∧
    (s.dev.allCool = true → 0 < s.dev.power.thermalDuty →
      Gives .throttleStep s (s.dev.setPower { s.dev.power with thermalDuty := s.dev.power.thermalDuty - 1 })) ∧
    (s.dev.allCool = true → s.dev.power.thermalDuty = 0 → 0 < s.dev.power.ceil →
      Gives .throttleStep s ((s.dev.setPower { s.dev.power with ceil := s.dev.power.ceil - 1 }).setCeiling)) ∧
    (s.dev.allCool = true → s.dev.power.thermalDuty = 0 → s.dev.power.ceil = 0 → Gives .throttleStep s s.dev) := by
  have hhot := fun h => hot (s.dev.any_throttle_iff.mp h)
  have hstart : ∀ {e}, (if (!s.dev.allCool) = true then s.dev
      else if s.dev.power.thermalDuty > 0 then s.dev.setPower { s.dev.power with thermalDuty := s.dev.power.thermalDuty - 1 }
      else if s.dev.power.ceil > 0 then (s.dev.setPower { s.dev.power with ceil := s.dev.power.ceil - 1 }).setCeiling
      else s.dev) = e → Gives .throttleStep s e := fun h => .of_done rfl ((if_pos hlive).trans ((if_neg hhot).trans h))
  refine ⟨fun hcool => hstart (if_pos (by rw [hcool]; rfl)), fun hcool hduty => hstart ?_, fun hcool hduty hceil => hstart ?_,
    fun hcool hduty hceil => hstart ?_⟩
  · rw [hcool, Bool.not_true, if_neg Bool.false_ne_true, if_pos hduty]
  · rw [hcool, Bool.not_true, if_neg Bool.false_ne_true, if_neg (by omega), if_pos hceil]
  · rw [hcool, Bool.not_true, if_neg Bool.false_ne_true, if_neg (by omega), if_neg (by omega)]

end

/-- The device at which a decision is made: the activity of the interval, and one more estimate. -/
def Device.estimated (d : Device) (act : List Nat) : Device :=
  let e := d.setPower { d.power with activity := act }
  e.setPower { e.power with estimates := d.power.estimates ++ [e.estimate e.point] }

theorem Device.decision_eq (d : Device) (act : List Nat) :
    d.decision act = if d.distrust then d.estimated act else (d.estimated act).decide.checkFloor := rfl

/-- Settles O50: each point's sample is its own, the decisions and steps are the controller's cases, and what follows them leaves what they show. -/
theorem powerAndHeat : Obligations.PowerAndHeat := by
  unfold Obligations.PowerAndHeat
  intro s readings act acts w rail
  extract_lets d p limit warn thr trip read hot cool d2 kept2 d3 pt top q up floors kept3 sum k recent p2
  refine ⟨fun q => ?_, fun hpowered hrails hstopped hrind => ?_, fun hlive => ⟨?_, ?_, ?_, ?_, ?_, ?_, ?_, ?_, ?_, ?_⟩⟩
  · have hactivity : d.activity = if d.rd Reg.POWER_STATUS_WARMUP = 1 then Config.maxActivity d.point else p.activity := by
      unfold Device.activity Device.warmup
      by_cases hwarm : d.rd Reg.POWER_STATUS_WARMUP = 1
      · rw [if_pos hwarm, if_pos (by simp [hwarm])]
      · rw [if_neg hwarm, if_neg (by simp [hwarm])]
    rw [← hactivity]
    rfl
  · have hgives : Gives (.thermalSample readings) s (d.thermalSample readings) :=
      .of_done rfl (if_pos (by simp [d, hpowered, hrails, hstopped, hrind]))
    refine ⟨_, hgives, fun n hn t hread hlow hhigh => d.thermalSample_reading readings hn hread hlow hhigh,
      fun n hn hread => d.thermalSample_missing readings hn hread, ?_, ?_⟩
    · rintro ⟨n, hn, t, hread, htrip, hcount⟩
      exact d.thermalSample_trip readings hn hread htrip hcount
    · rintro hcold ⟨n, hn, t, hread, -, -, hthr⟩
      exact d.thermalSample_throttle readings hn hread hcold hthr
  · have hcool : cool → ¬ hot := fun hc ⟨n, hn, hone⟩ => by
      have hzero := (hc n hn).1
      rw [hone] at hzero
      exact absurd hzero (by decide)
    refine ⟨fun h => (gives_throttleStep_of_hot hlive h).1, fun h => (gives_throttleStep_of_hot hlive h).2, fun h hc => ?_, fun hc => ?_, fun hc => ?_,
      fun hc => ?_⟩
    · exact (gives_throttleStep_of_not_hot hlive h).1 (Bool.eq_false_iff.mpr fun h => hc (d.allCool_iff.mp h))
    · exact (gives_throttleStep_of_not_hot hlive (hcool hc)).2.1 (d.allCool_iff.mpr hc)
    · exact (gives_throttleStep_of_not_hot hlive (hcool hc)).2.2.1 (d.allCool_iff.mpr hc)
    · exact (gives_throttleStep_of_not_hot hlive (hcool hc)).2.2.2 (d.allCool_iff.mpr hc)
  · have hgives := gives_powerDecision act hlive
    rw [Device.decision_eq] at hgives
    refine ⟨fun htrust => ?_, fun htrust => ?_⟩
    · rwa [if_pos htrust] at hgives
    · rw [if_neg (by rw [htrust]; exact Bool.false_ne_true)] at hgives
      refine ⟨d3.decide, d3.decide.checkFloor, hgives, fun hnone hslower => ?_, fun hnone hup => d3.decide_of_mayRise hnone hup,
        fun hnone hslower hup => d3.decide_of_not_mayRise hnone hslower hup, fun m hsome hm => d3.decide_of_falling hsome hm,
        fun m hsome hm hq => ?_, fun m hsome hm hq => ?_, fun m hsome hm hq => ?_, d3.decide.checkFloor_of_fits,
        fun hfits hbelow => d3.decide.checkFloor_of_below hfits (d3.decide_below.trans hbelow),
        fun hfits hbelow => d3.decide.checkFloor_enters hfits (fun h => hbelow (d3.decide_below.symm.trans h))⟩
      · exact (d3.decide_of_slower hnone hslower).trans (d3.goTo_slower hslower)
      · exact (d3.decide_of_rising hsome hm).trans ((if_pos (Nat.le_of_lt hq)).trans (d3.goTo_slower hq))
      · refine (d3.decide_of_rising hsome hm).trans ((if_pos (Nat.le_of_eq hq.symm)).trans ?_)
        have hwanted : d3.wanted = d3.point := hq
        rw [hwanted, d3.goTo_same]
        exact congrArg (fun x => d3.setPower { d3.power with goal := x, moving := none }) hq.symm
      · exact (d3.decide_of_rising hsome hm).trans (if_neg (Nat.not_le.mpr hq))
  · have hend := d.measure_meas w acts
    refine ⟨d.measure w acts, .of_done rfl (if_pos hlive), hend.measured.trans (d.measures_measured w), ?_, ?_,
      fun hsome => hend.estimate.trans (d.measures_estimate w hsome), fun hnone => ?_⟩
    · rw [hend.estimates, d.measures_power]
    · rw [hend.meas, d.measures_power]
    · rw [hend.deltas, d.measures_power]
      exact if_pos hnone
  · exact fun hwarm => .of_done rfl (if_pos (by rw [hlive]; exact Bool.and_eq_true_iff.mpr ⟨rfl, by simpa using hwarm⟩))
  · exact fun hwarm => .of_done rfl (if_neg fun h => absurd (Bool.and_eq_true_iff.mp h).2 (by simpa using hwarm))
  · intro hnone
    refine .of_done rfl ((if_pos hlive).trans ?_)
    unfold Device.opStep
    rw [show s.dev.power.moving = none from hnone]
  · intro m hsome hm
    exact ⟨d.opStep, .of_done rfl (if_pos hlive), d.opStep_spec hsome hm⟩
  · intro hrail
    exact ⟨d.droop rail, .of_done rfl (if_pos (by simp [d, hlive, hrail])), d.droop_spec rail⟩
  · exact fun hrail => .of_done rfl (if_pos (by simpa [hrail] using hlive))
  · exact fun hrail => ⟨.of_done rfl (if_neg (by simp [hrail])), .of_done rfl (if_neg (by simp [hrail]))⟩

end Sys2Proof.Machine

/-! The sideband: MCTP control messages, the alert response, and SPDM (R416, R481, R482, R496, R498). -/

namespace Sys2Proof.Machine

section
variable {s : State}

/-- The control messages of an endpoint that serves the sideband (R416). -/
theorem gives_control (hopen : s.dev.sbOpen = true) (eid mtype : Byte) :
    (eid ≠ 0 → eid ≠ 0xFF → Gives (.setEndpointId eid) s
      ((s.dev.setBoot { s.dev.boot with eid := eid.toNat }).control 1 0 (le 1 0 ++ [eid] ++ le 1 0))) ∧
      Gives .getEndpointId s (s.dev.control 2 0 (le 1 s.dev.boot.eid ++ le 2 0)) ∧
      (mtype = 0 ∨ mtype = 0xFF → Gives (.getMctpVersionSupport mtype) s (s.dev.control 4 0 (le 1 1 ++ be 4 0xF1F3F100))) ∧
      Gives .getMessageTypeSupport s (s.dev.control 5 0 (le 1 1 ++ le 1 0x7E)) := by
  have hserved : ¬ (!s.dev.sbOpen) = true := by rw [hopen]; exact Bool.false_ne_true
  refine ⟨fun hzero hall => .of_done rfl ((if_neg hserved).trans (if_neg ?_)), .of_done rfl (if_pos hopen),
    fun htype => .of_done rfl ((if_neg hserved).trans (if_pos htype.symm)), .of_done rfl (if_pos hopen)⟩
  exact not_or.mpr ⟨hzero, hall⟩

/-- The module answers an alert response while it asserts ALERT_N on SMBus (R498), and otherwise does not. -/
theorem gives_alertResponse :
    (s.dev.life.powered = true → s.dev.pins.flowOk = true → s.dev.pins.alert = true → s.dev.pins.straps.sbMode = true →
      Gives .alertResponse s (s.dev.emit (.alertAddress s.dev.sbAddress))) ∧
    (s.dev.pins.flowOk = false ∨ s.dev.pins.alert = false ∨ s.dev.pins.straps.sbMode = false → Gives .alertResponse s s.dev) := by
  refine ⟨fun hpowered hflow halert hmode => .of_done rfl (if_pos (by simp [hpowered, hflow, halert, hmode])), fun hshut => .of_done rfl (if_neg ?_)⟩
  rcases hshut with h | h | h <;> simp [h]

/-- A part of the chain of slot 0; another slot has none. -/
theorem gives_getCertificate (hopen : s.dev.doeOpen = true) (slot offset length : Nat) :
    (offset < s.dev.chain.length → Gives (.getCertificate 0 offset length) s
      (s.dev.emit (.spdm 0x02 (le 1 0 ++ le 2 ((s.dev.chain.drop offset).take length).length ++
        le 2 (s.dev.chain.length - offset - ((s.dev.chain.drop offset).take length).length) ++ (s.dev.chain.drop offset).take length)))) ∧
    (slot ≠ 0 → Gives (.getCertificate slot offset length) s (s.dev.spdmError 1 0)) := by
  constructor
  · intro hoffset
    refine .of_done rfl ((if_pos hopen).trans ?_)
    exact if_neg (not_or.mpr ⟨not_not.mpr rfl, Nat.not_le.mpr hoffset⟩)
  · intro hslot
    refine .of_done rfl ((if_pos hopen).trans ?_)
    exact if_pos (Or.inl hslot)

/-- Measurements, signed and unsigned. -/
theorem gives_getMeasurements (hopen : s.dev.doeOpen = true) {index : Nat} (hindex : index ≤ 4 ∨ index = 0xFF) (nonce : Bytes) :
    Gives (.getMeasurements index true nonce) s (s.dev.signed 0x60 nonce (s.dev.blocks s.nv.fuses index)) ∧
      Gives (.getMeasurements index false nonce) s (s.dev.nonce32.1.emit (.spdm 0x60 (s.dev.blocks s.nv.fuses index ++ s.dev.nonce32.2))) := by
  have hmeasured : ¬ (4 < index ∧ index ≠ 0xFF) := by omega
  constructor
  · refine .of_done rfl ((if_pos hopen).trans ?_)
    exact (if_neg hmeasured).trans (if_pos rfl)
  · refine .of_done rfl ((if_pos hopen).trans ?_)
    exact (if_neg hmeasured).trans (if_neg Bool.false_ne_true)

end

/-- Settles O60: each request passes its own gate, and is answered by its own branch. -/
theorem sideband : Obligations.Sideband := by
  unfold Obligations.Sideband
  intro s eid mtype code slot offset length index nonce d
  refine ⟨fun hopen => gives_control hopen eid mtype, gives_alertResponse.1, gives_alertResponse.2, fun hopen =>
    ⟨?_, ?_, ?_, ?_, (gives_getCertificate hopen slot offset length).1,
      fun hslot => ⟨(gives_getCertificate hopen slot offset length).2 hslot, ?_⟩, ?_,
      fun hindex => gives_getMeasurements hopen hindex nonce, fun hcode => ?_⟩⟩ <;> refine .of_done rfl ((if_pos hopen).trans ?_)
  · rfl
  · rfl
  · rfl
  · rfl
  · exact if_pos hslot
  · exact if_neg (not_not.mpr rfl)
  · exact if_neg (by rw [hcode]; exact Bool.false_ne_true)

end Sys2Proof.Machine

/-! Board, time, and the training of ports (R358 to R372, R440). -/

namespace Sys2Proof.Machine

/-! What sending leaves alone -/

/-- The links without the ports' own state. -/
def Klz.portless (x : Klz) : Klz := { x with ports := [], pkts := 0 }

/-- A device that has put packets on its way to ports, or taken some from them: only its output, its counts and its ports differ. -/
structure Device.Talks (d d' : Device) : Prop where
  regs : d'.regs = d.regs
  mem : d'.mem = d.mem
  klz : d'.klz.portless = d.klz.portless

namespace Device.Talks

theorem refl (d : Device) : d.Talks d := ⟨rfl, rfl, rfl⟩

theorem trans {d e f : Device} (h : d.Talks e) (g : e.Talks f) : d.Talks f := ⟨g.regs.trans h.regs, g.mem.trans h.mem, g.klz.trans h.klz⟩

theorem foldl {α : Type} {f : Device → α → Device} (hf : ∀ (d : Device) x, d.Talks (f d x)) (l : List α) (d : Device) : d.Talks (l.foldl f d) :=
  List.foldlRecOn (motive := fun e : Device => d.Talks e) l _ (.refl d) fun e he x _ => he.trans (hf e x)

theorem rd_eq {d e : Device} (h : d.Talks e) (f : Fld) (i : Nat) : e.rd f i = d.rd f i := by
  unfold Device.rd
  rw [h.regs]

theorem db {d e : Device} (h : d.Talks e) : e.klz.db = d.klz.db := congrArg (a₁ := e.klz.portless) (a₂ := d.klz.portless) Klz.db h.klz

theorem stale {d e : Device} (h : d.Talks e) : e.klz.stale = d.klz.stale := congrArg (a₁ := e.klz.portless) (a₂ := d.klz.portless) Klz.stale h.klz

theorem times {d e : Device} (h : d.Talks e) : e.klz.times = d.klz.times := congrArg (a₁ := e.klz.portless) (a₂ := d.klz.portless) Klz.times h.klz

end Device.Talks

namespace Device

theorem setPort_talks (d : Device) (p : Nat) (x : Port) : d.Talks (d.setPort p x) := ⟨rfl, rfl, rfl⟩

theorem emit_talks (d : Device) (o : Out) : d.Talks (d.emit o) := ⟨rfl, rfl, rfl⟩

theorem cnt_talks (d : Device) (h i n : Nat) : d.Talks (d.cnt h i n) := by
  unfold Device.cnt
  split
  · exact ⟨rfl, rfl, rfl⟩
  · split <;> exact ⟨rfl, rfl, rfl⟩

theorem queuePkt_talks (d : Device) (p : Nat) (y : TxPkt) : d.Talks (d.queuePkt p y) := ⟨rfl, rfl, rfl⟩

theorem sendOn_talks (d : Device) (p cls : Nat) (k : Pkt) : d.Talks (d.sendOn p cls k) :=
  ((emit_talks ..).trans (cnt_talks ..)).trans (queuePkt_talks ..)

theorem flood_talks (d : Device) (ports : List Nat) (k : Pkt) : d.Talks (d.flood ports k) :=
  .foldl (f := fun d p => d.sendOn p 0 { k with src := d.ownChip, dst := d.rd Reg.KLZ_PORT_STATUS_PARTNER_CHIP p }) (fun e _ => e.sendOn_talks ..) ports d

theorem leaveFlit_talks (d : Device) (p n : Nat) : d.Talks (d.leaveFlit p n) := by
  unfold Device.leaveFlit
  dsimp only
  split
  · exact .refl d
  · split <;> exact d.setPort_talks ..

theorem leaveFlits_talks (d : Device) (p : Nat) (ns : List Nat) : d.Talks (d.leaveFlits p ns) :=
  .foldl (f := fun d n => d.leaveFlit p n) (fun e _ => e.leaveFlit_talks ..) ns d

theorem cutPkt_talks (d : Device) (q id : Nat) : d.Talks (d.cutPkt q id) := by
  unfold Device.cutPkt
  split
  · exact .refl d
  · exact (d.setPort_talks ..).trans (leaveFlits_talks ..)

theorem toManager_talks (d : Device) (mtype : Nat) (body : Bytes) : d.Talks (d.toManager mtype body) := by
  unfold Device.toManager
  split
  · exact .refl d
  · split
    · exact .refl d
    · exact d.sendOn_talks ..

/-! The state of a port -/

theorem reportPorts_regs (d : Device) : d.reportPorts.regs = d.regs := by
  unfold Device.reportPorts
  split
  · rfl
  · split
    · exact (d.toManager_talks ..).regs
    · rfl

theorem setPortState_state (d : Device) (p : Nat) {v : Nat} (hv : v < 8) : (d.setPortState p v).portState p = v := by
  have hwr : (d.wr Reg.KLZ_PORT_STATUS_STATE p v).rd Reg.KLZ_PORT_STATUS_STATE p = v := (Device.rd_wr_same ..).trans (Nat.mod_eq_of_lt hv)
  unfold Device.portState Device.setPortState Device.rd
  rw [reportPorts_regs]
  exact hwr

/-! What a module knows of another -/

/-- The module is chip `own`; its table of routes is out of date, and its database holds the number `seq` of the chip's record. -/
structure Knows (own chip seq : Nat) (d : Device) : Prop where
  own : d.ownChip = own
  stale : d.klz.stale = true
  record : (Tab.find? d.klz.db chip).map (·.seq) = some seq

namespace Knows

variable {own chip seq : Nat} {d e : Device}

theorem of_talks (h : Knows own chip seq d) (t : d.Talks e) : Knows own chip seq e :=
  ⟨(t.rd_eq ..).trans h.own, t.stale.trans h.stale, by rw [t.db]; exact h.record⟩

theorem of_units (h : Knows own chip seq d) (u : d.SameUnits e) : Knows own chip seq e :=
  ⟨(u.rd_eq (by simp only [UnitKey]; decide)).trans h.own, by rw [u.klz]; exact h.stale, by rw [u.klz]; exact h.record⟩

theorem wr_port (h : Knows own chip seq d) {f : Fld} (p v : Nat) (hbase : f.base = 0x40100) (hlo : f.lo < 1024) : Knows own chip seq (d.wr f p v) :=
  ⟨(Device.rd_wr_ne _ _ _ _ _ _ (by simp only [Fld.key, Reg.KLZ_ID_CHIP, hbase]; omega)).trans h.own, h.stale, h.record⟩

theorem reportPorts (h : Knows own chip seq d) : Knows own chip seq d.reportPorts := by
  unfold Device.reportPorts
  split
  · exact ⟨h.own, h.stale, h.record⟩
  · split
    · exact h.of_talks (d.toManager_talks ..)
    · exact h

/-- An announcement enters the module's own record only. -/
theorem announce (h : Knows own chip seq d) (hother : chip ≠ own) : Knows own chip seq d.announce := by
  unfold Device.announce
  extract_lets seq' ports kept entered
  have hentered : Knows own chip seq entered :=
    ⟨h.own, rfl, by rw [← h.record]; exact congrArg (Option.map LinkRec.seq) (Tab.find?_insert_ne _ _ (by rw [h.own]; exact hother))⟩
  exact hentered.of_talks (.foldl (f := fun d p => d.sendOn p 0 (d.ownPkt p 0x30 (linkPayload d.ownChip seq' ports))) (fun e _ => e.sendOn_talks ..) _ _)

/-- The failure of a port announces the module's own ports. -/
theorem failPort (h : Knows own chip seq d) (hother : chip ≠ own) (p condition : Nat) : Knows own chip seq (d.failPort p condition) := by
  unfold Device.failPort
  extract_lets x now fails cleared keptStat late counted disabled failed posted left cut
  have hcleared : Knows own chip seq cleared := h.of_talks (d.setPort_talks ..)
  have hlate : Knows own chip seq late := ⟨hcleared.own, hcleared.stale, hcleared.record⟩
  have hcounted : Knows own chip seq counted := hlate.wr_port _ _ rfl (by decide)
  have hdisabled : Knows own chip seq disabled := by
    unfold disabled
    split
    · exact hcounted.wr_port _ _ rfl (by decide)
    · exact hcounted
  have hfailed : Knows own chip seq failed := (hdisabled.wr_port _ _ rfl (by decide)).wr_port _ _ rfl (by decide)
  have hposted : Knows own chip seq posted := hfailed.of_units (failed.post_units _)
  have hleft : Knows own chip seq left :=
    hposted.of_talks (.foldl (f := fun d (y : TxPkt) => d.leaveFlits y.from_ (y.segs.map (·.1))) (fun e _ => e.leaveFlits_talks ..) _ _)
  have hcut : Knows own chip seq cut := by
    refine hleft.of_talks (.foldl (fun e y => ?_) _ _)
    split
    · exact e.cutPkt_talks ..
    · exact .refl e
  exact hcut.reportPorts.announce hother

end Knows

/-- A newer record enters the database, whatever ports fail by it. -/
theorem linkState_knows (d : Device) (p : Nat) (k : Pkt) (hother : fieldBe k.data 0 2 ≠ d.ownChip)
    (hnewer : ∀ r, Tab.find? d.klz.db (fieldBe k.data 0 2) = some r →
      0 < ringDiff 32 (fieldBe k.data 4 4) r.seq ∧ ringDiff 32 (fieldBe k.data 4 4) r.seq < 2 ^ 31) :
    Knows d.ownChip (fieldBe k.data 0 2) (fieldBe k.data 4 4) (d.linkState p k) := by
  unfold Device.linkState
  extract_lets chip seq ports newer kept entered flooded
  have hnew : newer = true := by
    unfold newer
    split
    · rfl
    · rename_i r hr
      obtain ⟨hlow, hhigh⟩ := hnewer r hr
      exact Bool.and_eq_true_iff.mpr ⟨by simpa using hlow, by simpa using hhigh⟩
  rw [if_neg (by rw [hnew]; exact Bool.false_ne_true)]
  have hentered : Knows d.ownChip chip seq entered := ⟨rfl, rfl, congrArg (Option.map LinkRec.seq) (Tab.find?_insert_same ..)⟩
  have hflooded : Knows d.ownChip chip seq flooded := hentered.of_talks (entered.flood_talks ..)
  refine List.foldlRecOn (motive := fun e : Device => Knows d.ownChip chip seq e) _ _ hflooded fun e he q _ => ?_
  have heither : ∀ down : Bool, Knows d.ownChip chip seq (if down then e.failPort q 5 else e) := fun down => by
    cases down
    · exact he
    · exact he.failPort hother ..
  exact heither _

/-! Routes and time -/

/-- Two devices with the same memory and links. -/
structure SameMemKlz (d e : Device) : Prop where
  mem : e.mem = d.mem
  klz : e.klz = d.klz

theorem SameMemKlz.foldl {α : Type} {f : Device → α → Device} (hf : ∀ (d : Device) x, d.SameMemKlz (f d x)) (l : List α) (d : Device) :
    d.SameMemKlz (l.foldl f d) :=
  List.foldlRecOn (motive := fun e : Device => d.SameMemKlz e) l _ ⟨rfl, rfl⟩ fun e he x _ => ⟨(hf e x).mem.trans he.mem, (hf e x).klz.trans he.klz⟩

/-- The routes that are installed are no longer stale, and touch no memory. -/
theorem installRoutes_spec (d : Device) : d.installRoutes.klz.stale = false ∧ d.installRoutes.mem = d.mem := by
  unfold Device.installRoutes
  extract_lets own db dists chips old gone cleared routed counted shown changed kept installed
  have hrouted : cleared.SameMemKlz routed := by
    refine .foldl (fun e c => ?_) _ _
    split
    · exact ⟨rfl, rfl⟩
    · dsimp only
      split <;> exact ⟨rfl, rfl⟩
  have hinstalled : installed.klz.stale = false ∧ installed.mem = d.mem := ⟨rfl, hrouted.mem⟩
  clear_value installed
  refine List.foldlRecOn (motive := fun e : Device => e.klz.stale = false ∧ e.mem = d.mem) _ _ hinstalled fun e he h _ => ?_
  dsimp only
  split
  · exact he
  · split <;> exact he

theorem adjustTo_times (d : Device) (k : Pkt) (e : Int) : (d.adjustTo k e).klz.times = d.klz.times := by
  unfold Device.adjustTo
  extract_lets mastered lim shown np keptWheel wheeled
  have hwheeled : wheeled.klz = d.klz := by
    unfold wheeled
    split <;> rfl
  clear_value wheeled
  split
  · exact congrArg (a₁ := wheeled.klz) (a₂ := d.klz) Klz.times hwheeled
  · exact congrArg (a₁ := wheeled.klz) (a₂ := d.klz) Klz.times hwheeled

theorem follow_times (d : Device) (master : Nat) : (d.follow master).klz.times = d.klz.times := by
  unfold Device.follow
  split <;> rfl

/-- The number of a TIME that is flooded is among the newest 8 of its master. -/
theorem timePkt_times (d : Device) (p : Nat) (k : Pkt) (hother : k.src ≠ d.ownChip) (hfirst : (d.timesOf k.src).contains (fieldBe k.data 0 8) = false) :
    (d.timePkt p k).timesOf k.src = (fieldBe k.data 0 8 :: d.timesOf k.src).take 8 := by
  unfold Device.timePkt
  extract_lets number lead hops kept noted flooded kept' shown
  rw [if_neg (not_or.mpr ⟨hother, by rw [hfirst]; exact Bool.false_ne_true⟩)]
  have hnoted : noted.timesOf k.src = (number :: d.timesOf k.src).take 8 := Tab.get_insert_same ..
  have hflooded : flooded.klz.times = noted.klz.times :=
    (Talks.foldl (f := fun d q => d.sendOn q 0 { d.ownPkt q 0x23 (slice k.data 0 8 ++ be 4 lead ++ slice k.data 12 16 ++ be 1 (hops + 1) ++ be 3 0) with
      src := k.src }) (fun e _ => e.sendOn_talks ..) _ _).times
  have hend : ∀ e : Device, e.klz.times = noted.klz.times → e.timesOf k.src = (number :: d.timesOf k.src).take 8 := by
    intro e he
    unfold Device.timesOf
    rw [he]
    exact hnoted
  split
  · exact hend _ hflooded
  · split
    · exact hend _ hflooded
    · exact hend _ ((adjustTo_times ..).trans ((follow_times ..).trans hflooded))

end Device

section
variable {s : State} {p t : Nat} {k : Pkt}

/-- A packet that the chip receives does what its handler does. -/
theorem gives_of_receives {c : Instr} (f : Device → Device) {e : Device} (hc : exec c s = s.done (s.dev.onPacket p t k f)) (h : s.dev.receives p t k)
    (hf : f s.dev = e) : Gives c s e := .of_done hc ((Device.onPacket_of_receives h f).trans hf)

/-- The packets of delays, time and ticks (R364, R365, R369). -/
theorem gives_timing :
    (s.dev.receives p 0x20 k → Gives (.tick p k) s (s.dev.tickPkt p k)) ∧
    (s.dev.receives p 0x21 k →
      Gives (.delayReq p k) s (s.dev.sendOn p 0 (s.dev.ownPkt p 0x22 (slice k.data 0 8 ++ be 8 s.dev.clock.now ++ be 8 s.dev.clock.now)))) ∧
    (s.dev.receives p 0x22 k → Gives (.delayRsp p k) s (s.dev.delayRsp p k)) ∧
    (s.dev.receives p 0x23 k → Gives (.time p k) s (s.dev.timePkt p k)) :=
  ⟨fun h => gives_of_receives (fun d => d.tickPkt p k) rfl h rfl,
    fun h => gives_of_receives (fun d => d.sendOn p 0 (d.ownPkt p 0x22 (slice k.data 0 8 ++ be 8 d.clock.now ++ be 8 d.clock.now))) rfl h rfl,
    fun h => gives_of_receives (fun d => d.delayRsp p k) rfl h rfl, fun h => gives_of_receives (fun d => d.timePkt p k) rfl h rfl⟩

end

theorem median_singleton (v : Int) : median [v] = v := by
  simp [median, sortBy, insertBy]

/-- The first delay measured on a port is its delay (R364). -/
theorem Device.delayRsp_of_first {d : Device} {p : Nat} {k : Pkt} (hasked : (d.port p).t1 = some (fieldBe k.data 0 8)) (hnone : (d.port p).ds = []) :
    let v : Int := (((d.clock.now : Int) - fieldBe k.data 0 8) - ((fieldBe k.data 16 8 : Int) - fieldBe k.data 8 8)).tdiv 2
    d.delayRsp p k = (d.setPort p { d.port p with ds := [v], t1 := none }).wr Reg.KLZ_PORT_STATUS_DELAY_NS p (Nat.min 65535 v.toNat) := by
  unfold Device.delayRsp
  extract_lets v t1 v' ds
  have hds : ds = [v] := by unfold ds; rw [hnone]; rfl
  rw [if_neg (not_not.mpr hasked), hds, median_singleton]

section
variable {s : State}

/-- The messages of a board's modules and the link states (R358, R360, R361, R440). -/
theorem gives_board {p : Nat} {k : Pkt} :
    (s.dev.receives p 0x28 k → fieldBe k.data 0 2 = 1 → Gives (.boardUp p k) s (s.dev.boardUpMsg p k)) ∧
    (s.dev.receives p 0x28 k → fieldBe k.data 0 2 = 2 → Gives (.portReport p k) s (s.dev.portReport k)) ∧
    (s.dev.receives p 0x28 k → fieldBe k.data 0 2 = 3 → Gives (.statsSummary p k) s (s.dev.statsSummary k)) ∧
    (s.dev.receives p 0x30 k → Gives (.linkState p k) s (s.dev.linkState p k)) :=
  ⟨fun h hkind => gives_of_receives (fun d => if fieldBe k.data 0 2 = 1 then d.boardUpMsg p k else d) rfl h (if_pos hkind),
    fun h hkind => gives_of_receives (fun d => if fieldBe k.data 0 2 = 2 then d.portReport k else d) rfl h (if_pos hkind),
    fun h hkind => gives_of_receives (fun d => if fieldBe k.data 0 2 = 3 then d.statsSummary k else d) rfl h (if_pos hkind),
    fun h => gives_of_receives (fun d => d.linkState p k) rfl h rfl⟩

/-- The end of IDENTIFY: what it learns of the partner, a conflict of managers, the wiring check (R359 to R362). -/
theorem identified_eq (d : Device) (p : Nat) (x : Partner) :
    let d2 := ((d.wr Reg.KLZ_PORT_STATUS_PARTNER_CHIP p x.chip).wr Reg.KLZ_PORT_STATUS_PARTNER_PORT p x.port).wr Reg.KLZ_PORT_STATUS_PARTNER_MGR p (b2n x.mgr)
    let d3 := if p < 7 ∧ x.mgr = true ∧ x.board = d2.rd Reg.KLZ_ID_BOARD ∧ d2.rd Reg.KLZ_ID_MGR_EN = 1 ∧ d2.role ≠ 3 then d2.managerConflict x.chip else d2
    d.identified p x = if d3.wired p x then (d3.setPortState p 3).raisePorts
      else ((d3.wr Reg.KLZ_PORT_STATUS_DISABLED p 1).setPortState p 6).post { code := 0x31, object := p, detail := le 2 x.chip ++ le 1 x.port } := by
  intro d2 d3
  have hd3 : d3 = if p < 7 && x.mgr && x.board == d2.rd Reg.KLZ_ID_BOARD && d2.rd Reg.KLZ_ID_MGR_EN == 1 && d2.role != 3 then d2.managerConflict x.chip
      else d2 := by
    simp only [d3, Bool.and_eq_true, decide_eq_true_eq, beq_iff_eq, bne_iff_ne, and_assoc]
  rw [hd3]
  rfl

/-- The events of a port that trains, fails or is identified (R359, R364, R371). -/
theorem gives_training {p : Nat} (hlive : s.dev.live = true) (hp : p < 8) :
    (s.dev.portState p = 1 →
      Gives (.portTrained p) s ((s.dev.setPort p { s.dev.port p with eq := Config.adapted p s.dev.clock.now }).setPortState p 2) ∧
      Gives (.trainTimeout p) s ((s.dev.setPort p { s.dev.port p with trainFailed := true }).setPortState p 0)) ∧
    (s.dev.portState p = 0 → (s.dev.port p).trainFailed = true →
      Gives (.klozarTrainRetry p) s ((s.dev.setPort p { s.dev.port p with trainFailed := false }).train p)) ∧
    (s.dev.portState p = 5 → s.dev.rd Reg.KLZ_PORT_STATUS_DISABLED p = 0 → Gives (.portRetrain p) s (s.dev.train p)) ∧
    (∀ c, 2 ≤ s.dev.portState p → s.dev.portState p ≤ 4 → 1 ≤ c → c ≤ 5 → Gives (.portFailed p c) s (s.dev.failPort p c)) ∧
    (∀ x, s.dev.portState p = 2 → Gives (.identifyDone p x) s (s.dev.identified p x)) ∧
    (s.dev.portState p = 4 → Gives (.delayExchange p) s (s.dev.sendOn p 0 (s.dev.ownPkt p 0x21 (be 8 s.dev.clock.now)))) := by
  refine ⟨fun h => ⟨?_, ?_⟩, fun h hf => ?_, fun h hd => ?_, fun c hlow hhigh hc hc' => ?_, fun x h => ?_, fun h => ?_⟩
  · exact .of_done rfl (if_pos (by simp [hlive, hp, h]))
  · exact .of_done rfl (if_pos (by simp [hlive, hp, h]))
  · exact .of_done rfl (if_pos (by simp [hlive, hp, h, hf]))
  · exact .of_done rfl (if_pos (by simp [hlive, hp, h, hd]))
  · exact .of_done rfl (if_pos (by simp [hlive, hp, hlow, hhigh, hc, hc']))
  · exact .of_done rfl (if_pos (by simp [hlive, hp, h]))
  · exact .of_done rfl (if_pos (by simp [hlive, Device.portUp, hp, h]))

end

/-- Settles O59: each packet and event passes its gate to its handler, and what a handler posts or sends leaves what it set. -/
theorem boardAndPorts : Obligations.BoardAndPorts := by
  unfold Obligations.BoardAndPorts
  constructor
  · intro p k s d
    obtain ⟨htick, hreq, hrsp, htime⟩ := gives_timing (s := s) (p := p) (k := k)
    obtain ⟨hup, hreport, hsummary, hlink⟩ := gives_board (s := s) (p := p) (k := k)
    refine ⟨htick, hreq, fun h hasked hnone => ?_, fun h => ⟨fun hseen => ?_, fun hother hfirst => ⟨htime h, d.timePkt_times p k hother hfirst⟩⟩, hup,
      fun h hkind hrole hboard => ?_, fun h hkind hrole hboard => ?_, fun h hother hnewer => ?_, fun hlive hrole hticked hlost => ?_,
      fun hlive hrole hmaster htm => ?_, fun hlive hstale => ?_⟩
    · have hgives := hrsp h
      rwa [Device.delayRsp_of_first hasked hnone] at hgives
    · have hsame : s.dev.timePkt p k = s.dev := if_pos hseen
      have hgives := htime h
      rwa [hsame] at hgives
    · have heq : s.dev.portReport k = d.setKlz { d.klz with
          faultMap := Tab.insert d.klz.faultMap (fieldBe k.data 16 2 % 8) ((List.range 8).map (fun i => fieldLe k.data (18 + i) 1)) } :=
        if_pos (by simp [show s.dev.role = 2 from hrole, show fieldBe k.data 16 2 / 8 = s.dev.rd Reg.KLZ_ID_BOARD from hboard])
      rw [← heq]
      exact hreport h hkind
    · have heq : s.dev.statsSummary k = d.setKlz { d.klz with
          summaries := Tab.insert d.klz.summaries (k.src % 8) (slice k.data 16 256)
          fresh := d.klz.fresh.filter (· != k.src % 8) ++ [k.src % 8] } :=
        if_pos (by simp [show s.dev.role = 2 from hrole, show k.src / 8 = s.dev.rd Reg.KLZ_ID_BOARD from hboard])
      rw [← heq]
      exact hsummary h hkind
    · have hknows := d.linkState_knows p k hother hnewer
      exact ⟨_, hlink h, hknows.stale, hknows.record⟩
    · exact .of_done rfl (if_pos (by simp [d, hlive, hrole, hticked, hlost]))
    · obtain ⟨m, hm, hne⟩ := hmaster
      exact .of_done rfl (if_pos (by simp [d, hlive, hrole, hm, hne, htm]))
    · exact ⟨.of_done rfl (if_pos (by simp [d, hlive, hstale])), d.installRoutes_spec⟩
  · intro p c x s d hlive hp
    obtain ⟨htrain, hretry, hagain, hfail, hidentify, hdelay⟩ := gives_training (s := s) hlive hp
    refine ⟨htrain, hretry, hagain, fun v hv => d.setPortState_state p hv, (d.presetEq p).setPortState_state p (by decide), hfail c, ?_, hdelay⟩
    intro h d2 d3
    have hend := hidentify x h
    refine ⟨fun hwired => ?_, fun hwired => ?_⟩
    · have heq : s.dev.identified p x = (d3.setPortState p 3).raisePorts := (identified_eq ..).trans (if_pos hwired)
      rwa [heq] at hend
    · have heq : s.dev.identified p x = ((d3.wr Reg.KLZ_PORT_STATUS_DISABLED p 1).setPortState p 6).post
          { code := 0x31, object := p, detail := le 2 x.chip ++ le 1 x.port } :=
        (identified_eq ..).trans (if_neg (by rw [hwired]; exact Bool.false_ne_true))
      rwa [heq] at hend

end Sys2Proof.Machine

/-! Accesses of the host: the apertures, and the ends of reads of the host (R52, R249, R267, R386 to R391, R474, R479). -/

namespace Sys2Proof.Machine

namespace Device

/-! What reaches an aperture -/

section
variable {d : Device} {fn x : Nat}

theorem hostLoad_of_ready {n : Nat} (hopen : d.hostOpen fn = true) (hin : d.apertureIn fn x n = true) (hreset : d.inReset fn = false) (hstage : d.stage = 4)
    (halive : d.life.fatal = false) : d.hostLoad fn x n = d.apertureRead fn x n := by
  simp [Device.hostLoad, hopen, hin, hreset, hstage, halive]

theorem hostStore_of_ready {data : Bytes} (hopen : d.hostOpen fn = true) (hin : d.apertureIn fn x data.length = true) (hreset : d.inReset fn = false)
    (hstage : d.stage = 4) (halive : d.life.fatal = false) : d.hostStore fn x data = d.apertureWrite fn x data := by
  simp [Device.hostStore, hopen, hin, hreset, hstage, halive]

theorem inPage_of_apertureIn {n : Nat} (hin : d.apertureIn fn x n = true) : inPage x n = true := (Bool.and_eq_true_iff.mp hin).1

theorem pos_of_inPage {n : Nat} (h : inPage x n = true) : 0 < n := of_decide_eq_true (Bool.and_eq_true_iff.mp h).1

theorem hostAtomicOp_of_ready {op operand compare : Nat} {w64 : Bool} (hopen : d.hostOpen fn = true)
    (hin : d.apertureIn fn x (if w64 then 8 else 4) = true) (halign : x % (if w64 then 8 else 4) = 0) (hop : op ≤ 2) (hreset : d.inReset fn = false)
    (hstage : d.stage = 4) (halive : d.life.fatal = false) : d.hostAtomicOp fn x op w64 operand compare = d.apertureAtomic fn x op w64 operand compare := by
  simp [Device.hostAtomicOp, hopen, inPage_of_apertureIn hin, hin, halign, hop, hreset, hstage, halive]

/-- Where the module does not serve its apertures, a read has the answer of its stage (R249, R391, R474, R479). -/
theorem hostLoad_elsewhere {n : Nat} (hopen : d.hostOpen fn = true) (hin : d.apertureIn fn x n = true) :
    (d.inReset fn = true → d.hostLoad fn x n = d.emit (.completion fn .ur [])) ∧
    (d.inReset fn = false → d.stage = 4 → d.life.fatal = true → d.hostLoad fn x n = d.emit (.completion fn .sc (List.replicate n 0xFF))) ∧
    (d.inReset fn = false → d.stage = 5 → x + n ≤ 2 ^ 26 → d.hostLoad fn x n = d.emit (.completion fn .sc (slice d.boot.staging x n))) := by
  refine ⟨fun hreset => ?_, fun hreset hstage hfatal => ?_, fun hreset hstage hfits => ?_⟩
  · simp [Device.hostLoad, hopen, hin, hreset]
  · simp [Device.hostLoad, hopen, hin, hreset, hstage, hfatal]
  · have hnot : ¬ 67108864 < x + n := by omega
    simp [Device.hostLoad, hopen, hin, hreset, hstage, hnot]

/-- Where the module does not serve its apertures, a write is discarded, or reaches the staging buffer (R249, R391, R480). -/
theorem hostStore_elsewhere {data : Bytes} (hopen : d.hostOpen fn = true) (hin : d.apertureIn fn x data.length = true) :
    (d.inReset fn = true ∨ (d.stage = 4 ∧ d.life.fatal = true) → d.hostStore fn x data = d) ∧
    (d.inReset fn = false → d.stage = 5 → x + data.length ≤ 2 ^ 26 → d.rd Reg.RECOVERY_CTRL_BUSY = 0 →
      d.hostStore fn x data = d.setBoot { d.boot with staging := stageAt d.boot.staging x data }) := by
  refine ⟨fun hshut => ?_, fun hreset hstage hfits hbusy => ?_⟩
  · refine if_pos ?_
    rcases hshut with h | ⟨hstage, hfatal⟩
    · simp [h]
    · simp [hstage, hfatal]
  · have hnot : ¬ 67108864 < x + data.length := by omega
    simp [Device.hostStore, hopen, hin, hreset, hstage, hbusy, hnot]

/-- Outside READY, in a reset and outside the aperture an AtomicOp is unsupported; after a fatal event it is aborted (R249, R388, R474). -/
theorem hostAtomicOp_elsewhere {op operand compare : Nat} {w64 : Bool} (hopen : d.hostOpen fn = true)
    (hpage : inPage x (if w64 then 8 else 4) = true) (halign : x % (if w64 then 8 else 4) = 0) (hop : op ≤ 2) :
    (d.inReset fn = true ∨ d.stage ≠ 4 ∨ d.apertureIn fn x (if w64 then 8 else 4) = false →
      d.hostAtomicOp fn x op w64 operand compare = d.emit (.completion fn .ur [])) ∧
    (d.inReset fn = false → d.stage = 4 → d.apertureIn fn x (if w64 then 8 else 4) = true → d.life.fatal = true →
      d.hostAtomicOp fn x op w64 operand compare = d.emit (.completion fn .ca [])) := by
  have hasked : ¬ ((!d.hostOpen fn || !inPage x (if w64 then 8 else 4) || Decidable.decide (x % (if w64 then 8 else 4) ≠ 0) || Decidable.decide (op > 2)) = true) := by
    simp [hopen, hpage, halign, hop]
  refine ⟨fun hshut => (if_neg hasked).trans (if_pos ?_), fun hreset hstage hin hfatal => (if_neg hasked).trans ((if_neg ?_).trans (if_pos hfatal))⟩
  · rcases hshut with h | h | h <;> simp [h]
  · simp [hreset, hstage, hin]

end

/-! What an aperture access does where it reaches -/

section
variable {e d : Device} {fn x a : Nat}

/-- The PF's accesses reach device memory without a step of their own. -/
theorem apertureReach_pf (hfn : fn = 0) (n kind : Nat) : (e.apertureReach fn x n kind).1 = e := by
  rw [Device.apertureReach]
  simp only [hfn, if_true]

theorem eq_of_reach_pf {n kind : Nat} {r : Reach} (hfn : fn = 0) (h : e.apertureReach fn x n kind = (d, r)) : d = e := by
  rw [← apertureReach_pf hfn n kind (e := e) (x := x), h]

theorem apertureRead_of_reach {n : Nat} :
    (e.apertureReach fn x n 0 = (d, .held) → e.apertureRead fn x n = e.hold (.read fn x n)) ∧
    (e.apertureReach fn x n 0 = (d, .mem a) →
      e.apertureRead fn x n = (d.cohRead 4 (apertureHoop fn) a n false).emit (.completion fn .sc (d.mem.read a n))) ∧
    (e.apertureReach fn x n 0 = (d, .closed) → e.apertureRead fn x n = d.emit (.completion fn .sc (List.replicate n 0xFF))) ∧
    (e.apertureReach fn x n 0 = (d, .bad a) →
      e.apertureRead fn x n = ((d.pinRange a n).apertureError fn a).emit (.completion fn .ca [])) := by
  refine ⟨fun h => ?_, fun h => ?_, fun h => ?_, fun h => ?_⟩ <;> simp only [Device.apertureRead, h]

theorem apertureWrite_of_reach {data : Bytes} :
    (e.apertureReach fn x data.length 1 = (d, .mem a) →
      (fn = 0 ∧ d.inModuleReserve a = true → e.apertureWrite fn x data = d) ∧
      (fn ≠ 0 ∨ d.inModuleReserve a = false → e.apertureWrite fn x data = d.agentWrite 4 (apertureHoop fn) a data false)) ∧
    (e.apertureReach fn x data.length 1 = (d, .closed) → e.apertureWrite fn x data = d) ∧
    (e.apertureReach fn x data.length 1 = (d, .held) → e.apertureWrite fn x data = e.hold (.write fn x data)) := by
  refine ⟨fun h => ⟨fun hreserve => ?_, fun hreserve => ?_⟩, fun h => ?_, fun h => ?_⟩ <;> simp only [Device.apertureWrite, h]
  · exact if_pos (by rw [← eq_of_reach_pf hreserve.1 h]; simp [hreserve])
  · refine if_neg fun hclosed => ?_
    obtain ⟨hfn, hin⟩ := Bool.and_eq_true_iff.mp hclosed
    have hzero : fn = 0 := of_decide_eq_true hfn
    rw [← eq_of_reach_pf hzero h] at hin
    rcases hreserve with hne | hout
    · exact hne hzero
    · exact Bool.false_ne_true (hout.symm.trans hin)

/-- The bytes that an AtomicOp makes of what it reads. -/
def atomicBytes (d : Device) (a op k operand compare : Nat) : Nat :=
  atomicNew (atomicOpOf op) (8 * k) false (ofLe (d.mem.read a k)) (operand % 2 ^ (8 * k)) (compare % 2 ^ (8 * k))

theorem apertureAtomic_of_reach {op operand compare : Nat} {w64 : Bool} {k : Nat} (hk : k = if w64 then 8 else 4) :
    (e.apertureReach fn x k 2 = (d, .mem a) → (fn ≠ 0 ∨ d.inModuleReserve a = false) →
      e.apertureAtomic fn x op w64 operand compare =
        (((d.cohAtomic 4 (apertureHoop fn) a k).writeDev a (le k (d.atomicBytes a op k operand compare))).countTaken a op (ofLe (d.mem.read a k))
          (d.atomicBytes a op k operand compare)).emit (.completion fn .sc (le k (ofLe (d.mem.read a k))))) ∧
    (e.apertureReach fn x k 2 = (d, .closed) → e.apertureAtomic fn x op w64 operand compare = d.emit (.completion fn .ca [])) ∧
    (e.apertureReach fn x k 2 = (d, .bad a) →
      e.apertureAtomic fn x op w64 operand compare = ((d.pinRange a k).apertureError fn a).emit (.completion fn .ca [])) ∧
    (e.apertureReach fn x k 2 = (d, .held) → e.apertureAtomic fn x op w64 operand compare = e.hold (.atomic fn x op w64 operand compare)) := by
  subst hk
  refine ⟨fun h hreserve => ?_, fun h => ?_, fun h => ?_, fun h => ?_⟩ <;> simp only [Device.apertureAtomic, h]
  refine if_neg fun hclosed => ?_
  obtain ⟨hfn, hin⟩ := Bool.and_eq_true_iff.mp hclosed
  have hzero : fn = 0 := of_decide_eq_true hfn
  rw [← eq_of_reach_pf hzero h] at hin
  rcases hreserve with hne | hout
  · exact hne hzero
  · exact Bool.false_ne_true (hout.symm.trans hin)

theorem countTaken_of_not {d : Device} {a op old new : Nat} (h : op ≠ 0 ∨ old % 2 ^ 32 ≠ 1 ∨ new % 2 ^ 32 ≠ 0 ∨ d.countAt a = none) :
    d.countTaken a op old new = d := by
  unfold Device.countTaken
  split
  · rename_i hlast
    obtain ⟨hop, hold, hnew⟩ := hlast
    have hnone : d.countAt a = none :=
      ((h.resolve_left (not_not.mpr hop)).resolve_left (not_not.mpr hold)).resolve_left (not_not.mpr hnew)
    rw [hnone]
  · rfl

theorem countTaken_of_last {d : Device} {a op old new h y : Nat} (hop : op = 0) (hold : old % 2 ^ 32 = 1) (hnew : new % 2 ^ 32 = 0)
    (hat : d.countAt a = some (h, y)) : d.countTaken a op old new = d.driverSub h y := by
  unfold Device.countTaken
  rw [if_pos ⟨hop, hold, hnew⟩, hat]

end

/-! The ends of reads of the host (R267) -/

theorem sendAsks_reads (d : Device) : d.sendAsks.flow.reads = d.flow.reads :=
  List.foldlRecOn (motive := fun e : Device => e.flow.reads = d.flow.reads) _ _ rfl (fun e he a _ => by split <;> exact he)

/-- The device with other requests of reads, sent as far as there are tags. -/
def withAsks (d : Device) (l : List Ask) : Device := Device.sendAsks { d with flow := { d.flow with asks := l } }

theorem withAsks_reads (d : Device) (l : List Ask) : (d.withAsks l).flow.reads = d.flow.reads := Device.sendAsks_reads _

/-- The device where a read of so many bytes is over: they are counted, and it is open no more. -/
def readOver (d : Device) (tag : Nat) (r : HRead) (k : Nat) : Device :=
  let d := match d.readHoop r with
    | some h => d.cnt h 7 k
    | none => d
  let d := if d.readDie r = 4 then d else d.ringData 4 (d.readDie r) k
  { d with flow := { d.flow with reads := Tab.erase d.flow.reads tag } }

/-- The requests once the one that holds a tag has its bytes. -/
def answeredAsks (d : Device) (y : Ask) (data : Bytes) : List Ask :=
  d.flow.asks.map (fun z => if z = y then { y with tag := none, come := some data } else z)

section
variable {d : Device} {n : Nat} {y : Ask} {r : HRead}

theorem tagEnds_of_none (h : d.flow.asks.find? (fun z => z.tag == some n) = none) (come : Except Nat Bytes) : d.tagEnds n come = d := by
  unfold Device.tagEnds
  rw [h]

/-- A failure of a part ends its read; its requests that wait go with it. -/
theorem tagEnds_of_error (hask : d.flow.asks.find? (fun z => z.tag == some n) = some y) (hread : Tab.find? d.flow.reads y.read = some r)
    (hserved : d.live = true ∨ r.kind = 4) (st : Nat) :
    d.tagEnds n (.error st) =
      (d.withAsks ((d.flow.asks.filter (fun z => z != y)).filter (fun z => z.read != y.read || !z.waiting))).readEnds y.read (.error st) := by
  unfold Device.tagEnds
  simp only [hask, hread]
  rw [if_neg (by rcases hserved with h | h <;> simp [h])]
  rfl

/-- A part that is not the last leaves its read open. -/
theorem tagEnds_of_part (hask : d.flow.asks.find? (fun z => z.tag == some n) = some y) (hread : Tab.find? d.flow.reads y.read = some r)
    (hserved : d.live = true ∨ r.kind = 4) (data : Bytes) (hopen : ∃ z ∈ (d.answeredAsks y data).filter (fun z => z.read == y.read), z.come = none) :
    d.tagEnds n (.ok data) = d.withAsks (d.answeredAsks y data) := by
  unfold Device.tagEnds
  simp only [hask, hread]
  rw [if_neg (by rcases hserved with h | h <;> simp [h])]
  refine if_neg fun hall => ?_
  obtain ⟨z, hz, hnone⟩ := hopen
  have hsome := List.all_eq_true.mp hall z hz
  rw [hnone] at hsome
  exact Bool.false_ne_true hsome

/-- The last part ends its read with all bytes in order. -/
theorem tagEnds_of_last (hask : d.flow.asks.find? (fun z => z.tag == some n) = some y) (hread : Tab.find? d.flow.reads y.read = some r)
    (hserved : d.live = true ∨ r.kind = 4) (data : Bytes) (hall : ∀ z ∈ (d.answeredAsks y data).filter (fun z => z.read == y.read), z.come ≠ none) :
    d.tagEnds n (.ok data) =
      (d.withAsks ((d.answeredAsks y data).filter (fun z => z.read != y.read))).readEnds y.read
        (.ok (((d.answeredAsks y data).filter (fun z => z.read == y.read)).flatMap (fun z => z.come.getD []))) := by
  unfold Device.tagEnds
  simp only [hask, hread]
  rw [if_neg (by rcases hserved with h | h <;> simp [h])]
  exact if_pos (List.all_eq_true.mpr fun z hz => Option.isSome_iff_ne_none.mpr (hall z hz))

theorem readEnds_entry {e : Device} {tag : Nat} (hread : Tab.find? e.flow.reads tag = some r) (hkind : r.kind = 5) (bytes : Bytes) (st : Nat) :
    e.readEnds tag (.ok bytes) = (e.readOver tag r bytes.length).entArrived r.a r.b r.c (.ok bytes) ∧
      e.readEnds tag (.error st) = (e.readOver tag r 0).entArrived r.a r.b r.c (.error st) := by
  constructor <;>
  · unfold Device.readEnds
    simp only [hread, hkind]
    rfl

theorem readEnds_slot {e : Device} {tag : Nat} (hread : Tab.find? e.flow.reads tag = some r) (hkind : r.kind = 4) (bytes : Bytes) (st : Nat) :
    e.readEnds tag (.ok bytes) = (e.readOver tag r bytes.length).slotComes r.a (slice (bytes ++ List.replicate 64 0) 0 64) ∧
      e.readEnds tag (.error st) = (e.readOver tag r 0).fetchFault r.a r.addr := by
  constructor <;>
  · unfold Device.readEnds
    simp only [hread, hkind]
    rfl

end

end Device

section
variable {s : State}

/-- The end of a read of the host: what the read serves goes on, then the management commands that waited (R267, R407). -/
theorem exec_of_tagEnds {n : Nat} {data : Bytes} {e : Device} :
    (s.dev.tagEnds n (.ok data) = e → exec (.pcieReadCompletion n .sc data) s = .next (State.mgmtGo { s with dev := e })) ∧
    (s.dev.tagEnds n (.error 0x60) = e →
      exec (.pcieReadCompletion n .ur data) s = .next (State.mgmtGo { s with dev := e }) ∧
      exec (.pcieReadCompletion n .ca data) s = .next (State.mgmtGo { s with dev := e }) ∧
      exec (.pcieCompletionTimeout n) s = .next (State.mgmtGo { s with dev := e })) :=
  ⟨fun h => by rw [← h]; rfl, fun h => by rw [← h]; exact ⟨rfl, rfl, rfl⟩⟩

end

/-- Settles O52: an access has the answer of the module's stage, or does at the place that it reaches what its kind does; a read of the host ends with its
last part or its first failure. -/
theorem hostAccesses : Obligations.HostAccesses := by
  unfold Obligations.HostAccesses
  intro s fn x n op data w64 o c d a
  refine ⟨fun hopen hreset hstage halive => ⟨fun hin => ?_, fun hin => ?_, ?_⟩, fun hopen => ⟨?_, fun hin => ?_, fun hin => ?_⟩, ?_, fun hnone => ?_⟩
  · obtain ⟨hheld, hmem, hclosed, hbad⟩ := Device.apertureRead_of_reach (e := s.dev) (d := d) (fn := fn) (x := x) (a := a) (n := n)
    have hload := Device.hostLoad_of_ready hopen hin hreset hstage halive
    exact ⟨fun h => .of_done rfl (hload.trans (hheld h)), fun h => .of_done rfl (hload.trans (hmem h)),
      fun h => .of_done rfl (hload.trans (hclosed h)), fun h => .of_done rfl (hload.trans (hbad h))⟩
  · obtain ⟨hmem, hclosed, hheld⟩ := Device.apertureWrite_of_reach (e := s.dev) (d := d) (fn := fn) (x := x) (a := a) (data := data)
    have hstore := Device.hostStore_of_ready hopen hin hreset hstage halive
    have hpos := Device.pos_of_inPage (Device.inPage_of_apertureIn hin)
    exact ⟨fun h => ⟨fun hr => .of_done rfl (hstore.trans ((hmem h).1 hr)),
        fun hr => ⟨.of_done rfl (hstore.trans ((hmem h).2 hr)), d.agentWrite_stored 4 (apertureHoop fn) a 0 data false true hpos⟩⟩,
      fun h => .of_done rfl (hstore.trans (hclosed h)), fun h => .of_done rfl (hstore.trans (hheld h))⟩
  · intro k c2 hin halign hop
    obtain ⟨hmem, hclosed, hbad, hheld⟩ := Device.apertureAtomic_of_reach (e := s.dev) (d := d) (fn := fn) (x := x) (a := a) (op := op)
      (operand := o.toNat) (compare := c.toNat) (w64 := w64) (k := k) rfl
    have hatomic := Device.hostAtomicOp_of_ready (operand := o.toNat) (compare := c.toNat) hopen hin halign hop hreset hstage halive
    refine ⟨fun h hreserve => ?_, fun h => .of_done rfl (hatomic.trans (hclosed h)), fun h => .of_done rfl (hatomic.trans (hbad h)),
      fun h => .of_done rfl (hatomic.trans (hheld h))⟩
    intro old new e
    refine ⟨fun hnot => .of_done rfl ((hatomic.trans (hmem h hreserve)).trans ?_), fun hh y hop0 hold hnew hat =>
      .of_done rfl ((hatomic.trans (hmem h hreserve)).trans ?_)⟩
    · exact congrArg (fun z : Device => z.emit (.completion fn .sc (le k old))) (Device.countTaken_of_not hnot)
    · exact congrArg (fun z : Device => z.emit (.completion fn .sc (le k old))) (Device.countTaken_of_last hop0 hold hnew hat)
  · intro k hpage halign hop
    obtain ⟨hur, hca⟩ := Device.hostAtomicOp_elsewhere (operand := o.toNat) (compare := c.toNat) hopen hpage halign hop
    exact ⟨fun h => .of_done rfl (hur h), fun hreset hstage hin hfatal => .of_done rfl (hca hreset hstage hin hfatal)⟩
  · obtain ⟨hreset, hfatal, hstaging⟩ := Device.hostLoad_elsewhere hopen hin
    exact ⟨fun h => .of_done rfl (hreset h), fun h hs hf => .of_done rfl (hfatal h hs hf), fun h hs hf => .of_done rfl (hstaging h hs hf)⟩
  · obtain ⟨hshut, hstaging⟩ := Device.hostStore_elsewhere hopen hin
    exact ⟨fun h => .of_done rfl (hshut h), fun h hs hf hb => .of_done rfl (hstaging h hs hf hb)⟩
  · intro y r hask hread others served gives failed l mine bytes whole
    have hopen : ∀ m : List Ask, Tab.find? (s.dev.withAsks m).flow.reads y.read = some r := fun m => by rw [Device.withAsks_reads]; exact hread
    refine ⟨fun hlive hpart => exec_of_tagEnds.1 (Device.tagEnds_of_part hask hread (.inl hlive) data hpart), fun hkind hlive => ⟨fun hall => ?_, ?_⟩,
      fun hkind => ⟨fun hall => ?_, ?_⟩⟩
    · exact exec_of_tagEnds.1 ((Device.tagEnds_of_last hask hread (.inl hlive) data hall).trans (Device.readEnds_entry (hopen _) hkind _ 0).1)
    · exact exec_of_tagEnds.2 ((Device.tagEnds_of_error hask hread (.inl hlive) 0x60).trans (Device.readEnds_entry (hopen _) hkind [] 0x60).2)
    · exact exec_of_tagEnds.1 ((Device.tagEnds_of_last hask hread (.inr hkind) data hall).trans (Device.readEnds_slot (hopen _) hkind _ 0).1)
    · obtain ⟨hur, -, htimeout⟩ := (exec_of_tagEnds (data := data)).2
        ((Device.tagEnds_of_error hask hread (.inr hkind) 0x60).trans (Device.readEnds_slot (hopen _) hkind [] 0x60).2)
      exact ⟨hur, htimeout⟩
  · have hsame := fun come => Device.tagEnds_of_none hnone come
    refine ⟨?_, fun st => ?_⟩
    · exact congrArg (fun e : Device => Host.Outcome.next (State.mgmtGo { s with dev := e })) (hsame _)
    · exact congrArg (fun e : Device => Host.Outcome.next (State.mgmtGo { s with dev := e })) (hsame _)

end Sys2Proof.Machine

/-! Blocks: credits, hand-out, retirement, stranded blocks and the watchdog (R98 to R109, R126, R127, R166, R47). -/

namespace Sys2Proof.Machine

theorem Tab.insert_ne_nil {α : Type} (t : Tab α) (k : Nat) (v : α) : Tab.insert t k v ≠ [] := by
  intro h
  have hget := Tab.find?_insert_same t k v
  rw [h] at hget
  cases hget

/-- The core with a block more, in its place: its entries are there, its place in local store is empty, and it waits for no stagger. -/
def Core.withBlock (p : Nat) (k : Kernel) (ents : Tab SEnt) (b : Block) (x : Core) : Core :=
  { x with
    ents := ents
    credit := none
    blocks := Tab.insert x.blocks p b
    loc := x.loc.filter (fun (y : Nat × Byte) => !(p * k.local1k ≤ y.1 && y.1 < (p + 1) * k.local1k)) }

theorem Core.withBlock_blocks_ne_nil (p : Nat) (k : Kernel) (ents : Tab SEnt) (b : Block) (x : Core) : (Core.withBlock p k ents b x).blocks ≠ [] :=
  Tab.insert_ne_nil _ _ _

namespace Device

/-! A credit at its dispatcher -/

section
variable {d : Device} {core ki : Nat} {k : Kernel}

theorem credit_of_running (hcore : (d.core core).kernel = some ki) :
    (d.kernel? ki = none → d.credit core = d) ∧
    (d.kernel? ki = some k →
      (k.fault = none → d.wheel.held = false → d.credit core = (d.giveBlock core ki k).serveCredits) ∧
      (k.fault = none → d.wheel.held = true → d.credit core = { d with work := { d.work with credits := d.work.credits ++ [core] } }) ∧
      (k.fault ≠ none → d.credit core = d)) := by
  refine ⟨fun hk => ?_, fun hk => ⟨fun hfault hheld => ?_, fun hfault hheld => ?_, fun hfault => ?_⟩⟩
  · simp only [Device.credit, hcore, hk]
  · simp [Device.credit, hcore, hk, hfault, hheld]
  · simp [Device.credit, hcore, hk, hfault, hheld]
  · simp only [Device.credit, hcore, hk]
    exact if_pos (by cases hcode : k.fault with
      | none => exact absurd hcode hfault
      | some f => rfl)

theorem credit_of_free (hcore : (d.core core).kernel = none) :
    (d.work.credits.contains core = true → d.credit core = d.serveCredits) ∧
    (d.work.credits.contains core = false →
      d.credit core = ({ d with work := { d.work with credits := d.work.credits ++ [core] } } : Device).serveCredits) := by
  refine ⟨fun hin => ?_, fun hout => ?_⟩
  · simp only [Device.credit, hcore]
    rw [if_pos hin]
  · simp only [Device.credit, hcore]
    rw [if_neg (by rw [hout]; exact Bool.false_ne_true)]

/-- One credit that waits is served once. -/
theorem serveCredits_of_one (hone : d.work.credits = [core]) : d.serveCredits = d.serveCore core := by
  unfold Device.serveCredits Device.serveAll
  simp only [hone, List.foldl_cons, List.foldl_nil, List.length_cons, List.length_nil]
  by_cases hless : (d.serveCore core).work.credits.length < 0 + 1
  · have hnil : (d.serveCore core).work.credits = [] := List.length_eq_zero_iff.mp (by omega)
    rw [if_pos hless]
    unfold Device.serveAll
    simp [hnil]
  · exact if_neg hless

/-- The credit of a free core whose stagger does not wait: the kernel picked for it gives it a block, at once or after its stagger. -/
theorem serveCore_of_free (hcore : (d.core core).kernel = none) (hstagger : d.staggered core = none) :
    (d.pickKernel core = none → d.serveCore core = d) ∧
    (d.pickKernel core = some (ki, k) →
      (d.staggers core k = false → d.serveCore core = d.giveBlock core ki k) ∧
      (d.staggers core k = true → d.serveCore core = d.modCore core (fun c => { c with credit := some ki }))) := by
  have hserved : ∀ {e}, (match d.pickKernel core with
      | none => d
      | some (ki, k) => if d.staggers core k then d.modCore core (fun c => { c with credit := some ki }) else d.giveBlock core ki k) = e → d.serveCore core = e := by
    intro e he
    unfold Device.serveCore
    simp only [hstagger, hcore, Option.isSome_none]
    exact he
  refine ⟨fun hpick => hserved ?_, fun hpick => ⟨fun hno => hserved ?_, fun hyes => hserved ?_⟩⟩
  · rw [hpick]
  · rw [hpick]
    exact if_neg (by rw [hno]; exact Bool.false_ne_true)
  · rw [hpick]
    exact if_pos hyes

/-- The credit of a free core while no other waits. -/
theorem credit_of_alone (hcore : (d.core core).kernel = none) (hnone : d.work.credits = []) {d1 : Device}
    (hd1 : ({ d with work := { d.work with credits := d.work.credits ++ [core] } } : Device) = d1) (hstagger : d1.staggered core = none) :
    (d1.pickKernel core = none → d.credit core = d1) ∧
    (d1.pickKernel core = some (ki, k) →
      (d1.staggers core k = false → d.credit core = d1.giveBlock core ki k) ∧
      (d1.staggers core k = true → d.credit core = d1.modCore core (fun c => { c with credit := some ki }))) := by
  have hone : d1.work.credits = [core] := by
    rw [← hd1, hnone]
    rfl
  have hfree : (d1.core core).kernel = none := by
    rw [← hd1]
    exact hcore
  have hcredit : d.credit core = d1.serveCore core :=
    ((credit_of_free hcore).2 (by rw [hnone]; rfl)).trans ((congrArg Device.serveCredits hd1).trans (serveCredits_of_one hone))
  rw [hcredit]
  exact serveCore_of_free hfree hstagger

end

/-! A block that is given -/

theorem modHstat_units (d : Device) (h : Nat) (f : HStat → HStat) : d.SameUnits (d.modHstat h f) := .of_same rfl rfl

theorem traceDrop_units (d : Device) (h : Nat) : d.SameUnits (d.traceDrop h) :=
  ((SameUnits.wr d _ (not_unitKey_of_window (f := Reg.HOOP_TRACE_LOST) (by decide) h)).trans
    (.wr _ _ (not_unitKey_of_window (f := Reg.HOOP_TRACE_DROPPED) (by decide) h))).trans (modHstat_units ..)

theorem trace_units (d : Device) (h kind outcome : Nat) (w : Waiter) (object detail : Nat) (start : Stamp) :
    d.SameUnits (d.trace h kind outcome w object detail start) := by
  unfold Device.trace
  extract_lets x long t n st bytes
  split
  · exact .refl d
  · split
    · exact d.traceDrop_units h
    · split
      · rename_i hwrite
        exact (Device.writeVa_units hwrite).trans (.wr _ _ (not_unitKey_of_window (f := Reg.HOOP_TRACE_PTR_TAIL) (by decide) h))
      · exact .wr _ _ (not_unitKey_of_window (f := Reg.HOOP_TRACE_ENABLE) (by decide) h)

theorem claimTraffic_regs (d : Device) (k k' : Kernel) : (d.claimTraffic k k').regs = d.regs :=
  List.foldlRecOn (motive := fun z : Device => z.regs = d.regs) _ _ rfl fun _ hz _ _ =>
    List.foldlRecOn (motive := fun z : Device => z.regs = d.regs) _ _ hz fun _ hy _ _ => hy

theorem rd_eq_of_regs {d e : Device} (h : e.regs = d.regs) (f : Fld) (i : Nat) : e.rd f i = d.rd f i := by
  unfold Device.rd
  rw [h]

/-- What the other dies claim depends on registers alone. -/
theorem claimRuns_of_regs {d e : Device} (h : e.regs = d.regs) (k : Kernel) : e.claimRuns k = d.claimRuns k := by
  have hcfg : ∀ k die, e.dispCfg k die = d.dispCfg k die := by
    intro k die
    unfold Device.dispCfg
    rw [rd_eq_of_regs h, rd_eq_of_regs h]
  unfold Device.claimRuns
  simp only [rd_eq_of_regs h, hcfg]

/-- A core that holds a block does not become free. -/
theorem freeIdle_core (d : Device) (ki core : Nat) (hheld : (d.core core).blocks ≠ []) : (d.freeIdle ki).core core = d.core core := by
  unfold Device.freeIdle
  split
  · rfl
  · refine List.foldlRecOn (motive := fun z : Device => z.core core = d.core core) _ _ rfl fun z hz c _ => ?_
    split
    · rename_i hfree
      have hne : core ≠ c := by
        rintro rfl
        have hempty := (Bool.and_eq_true_iff.mp hfree).1
        rw [hz] at hempty
        exact hheld (List.isEmpty_iff.mp hempty)
      exact (Tab.get_put_ne _ _ _ _ hne).trans hz
    · exact hz

/-- The device whose core has its split for a kernel, after the claims of the other dies. -/
def splitFor (d : Device) (core ki : Nat) (k k1 : Kernel) : Device :=
  let e := d.claimTraffic k1 (d.claimRuns k1)
  if (e.core core).kernel = none then e.setSplit core ki k else e

/-- The device whose core holds a block more, in its place. -/
def placeBlock (d : Device) (core ki b p : Nat) (k k2 : Kernel) (quarters : List Nat) (c2 : Core) : Device :=
  d.modCore core (Core.withBlock p k c2.ents { k2.block ki b core d.fresh quarters with clean := (d.core core).clean })

/-- The trace record of a kernel's start, at its first block. -/
def traceStart (d : Device) (k : Kernel) (die : Nat) : Device :=
  if k.started then d
  else match k.since with
    | some s => d.trace k.hoop 4 0 { die := k.home, queue := k.queue, who := k.ptr } (match k.inst with | some (_, n) => n | none => 0xFFFFFFFF) die s
    | none => d

/-- A kernel with a block more handed out. -/
def kernelGiven (k k2 : Kernel) (core : Nat) (cfg : Nat × Nat) : Kernel :=
  { k2 with
    started := true
    age := if k.started then k.age else 0
    outstanding := k2.outstanding + 1
    given := if !k2.given.contains core then k2.given ++ [core] else k2.given
    cfg := Tab.insert k2.cfg (coreDie core) cfg }

/-- The device after the hand-out of a block, before the idle cores become free. -/
def handOut (d : Device) (core ki : Nat) (k2 : Kernel) : Device :=
  let e := (d.step1).setKernel ki k2
  { e with work := { e.work with credits := e.work.credits.erase core } }

/-- A recipe's node notes that all blocks of its kernel are handed out. -/
def noteHanded (d : Device) (ki : Nat) (inst : Option (Nat × Nat)) : Device :=
  match inst, d.kernel? ki with
  | some (i, n), some z => if z.allHanded then d.nodeHanded i n else d
  | _, _ => d

/-- The hand-out of a block by its steps. -/
theorem giveBlock_steps (d : Device) (core ki : Nat) (k : Kernel) :
    d.giveBlock core ki k = match k.take (coreDie core) with
      | none => d
      | some (b, k1) =>
        match ((d.claimTraffic k1 (d.claimRuns k1)).core core).freePlace k.resident with
        | none => d.claimTraffic k1 (d.claimRuns k1)
        | some p =>
          let quarters := placeGroups k.groups ((List.range 4).map (((d.claimTraffic k1 (d.claimRuns k1)).core core).placesFree k))
          match ((d.claimTraffic k1 (d.claimRuns k1)).core core).takeEnts p k.code k.threads (quarters.mapIdx (fun g q => (g, q))) with
          | none => d.claimTraffic k1 (d.claimRuns k1)
          | some c2 =>
            let k2 := (d.claimTraffic k1 (d.claimRuns k1)).claimRuns k1
            (((((d.splitFor core ki k k1).placeBlock core ki b p k k2 quarters c2).traceStart k (coreDie core)).handOut core ki
              (kernelGiven k k2 core (d.dispCfg k (coreDie core)))).freeIdle ki).noteHanded ki k.inst := by
  unfold Device.giveBlock
  rfl

section
variable {d : Device} {core ki b p : Nat} {k k1 : Kernel} {c2 : Core}

/-- A block of a LAUNCH kernel that is given: split, place, trace, kernel, idle cores. -/
theorem giveBlock_eq (htake : k.take (coreDie core) = some (b, k1)) (hplace : (d.core core).freePlace k.resident = some p)
    (hents : (d.core core).takeEnts p k.code k.threads
      ((placeGroups k.groups ((List.range 4).map ((d.core core).placesFree k))).mapIdx (fun g q => (g, q))) = some c2) (hinst : k.inst = none) :
    d.giveBlock core ki k =
      (((((d.splitFor core ki k k1).placeBlock core ki b p k ((d.claimTraffic k1 (d.claimRuns k1)).claimRuns k1)
        (placeGroups k.groups ((List.range 4).map ((d.core core).placesFree k))) c2).traceStart k (coreDie core)).handOut core ki
        (kernelGiven k ((d.claimTraffic k1 (d.claimRuns k1)).claimRuns k1) core (d.dispCfg k (coreDie core)))).freeIdle ki) := by
  rw [giveBlock_steps]
  simp only [htake, claimTraffic_core, hplace, hents, hinst]
  rfl

theorem traceStart_units (d : Device) (k : Kernel) (die : Nat) : d.SameUnits (d.traceStart k die) := by
  unfold Device.traceStart
  split
  · exact .refl d
  · split
    · exact d.trace_units ..
    · exact .refl d

theorem core_of_units {d e : Device} (h : d.SameUnits e) (c : Nat) : e.core c = d.core c := by
  have hcores : e.cores = d.cores := congrArg (a₁ := e.units) (a₂ := d.units) Device.cores h.units
  unfold Device.core
  rw [hcores]

/-- The core after a hand-out is the one in which the block was placed. -/
theorem giveBlock_core (htake : k.take (coreDie core) = some (b, k1)) (hplace : (d.core core).freePlace k.resident = some p)
    (hents : (d.core core).takeEnts p k.code k.threads
      ((placeGroups k.groups ((List.range 4).map ((d.core core).placesFree k))).mapIdx (fun g q => (g, q))) = some c2) (hinst : k.inst = none) :
    (d.giveBlock core ki k).core core = Core.withBlock p k c2.ents
      { (d.claimRuns k1).block ki b core (d.splitFor core ki k k1).fresh (placeGroups k.groups ((List.range 4).map ((d.core core).placesFree k))) with
        clean := ((d.splitFor core ki k k1).core core).clean } ((d.splitFor core ki k k1).core core) := by
  rw [giveBlock_eq htake hplace hents hinst, claimRuns_of_regs (claimTraffic_regs ..)]
  generalize d.splitFor core ki k k1 = e
  generalize placeGroups k.groups ((List.range 4).map ((d.core core).placesFree k)) = quarters
  have hplaced : (e.placeBlock core ki b p k (d.claimRuns k1) quarters c2).core core = Core.withBlock p k c2.ents
      { (d.claimRuns k1).block ki b core e.fresh quarters with clean := (e.core core).clean } (e.core core) := Tab.get_put_same ..
  have hhanded : ∀ (z : Device) x, (z.handOut core ki x).core core = z.core core := fun _ _ => rfl
  have hshown : ∀ x, (((e.placeBlock core ki b p k (d.claimRuns k1) quarters c2).traceStart k (coreDie core)).handOut core ki x).core core
      = Core.withBlock p k c2.ents { (d.claimRuns k1).block ki b core e.fresh quarters with clean := (e.core core).clean } (e.core core) :=
    fun _ => (hhanded ..).trans ((core_of_units (traceStart_units ..) core).trans hplaced)
  rw [freeIdle_core, hshown]
  rw [hshown]
  exact Core.withBlock_blocks_ne_nil _ _ _ _ _

/-- Where a block of a LAUNCH kernel lies once it is given, and what its kernel counts. -/
theorem giveBlock_spec (htake : k.take (coreDie core) = some (b, k1)) (hplace : (d.core core).freePlace k.resident = some p)
    (hents : (d.core core).takeEnts p k.code k.threads
      ((placeGroups k.groups ((List.range 4).map ((d.core core).placesFree k))).mapIdx (fun g q => (g, q))) = some c2) (hinst : k.inst = none) :
    (∃ epoch clean, (d.giveBlock core ki k).block? core p = some { (d.claimRuns k1).block ki b core epoch
        (placeGroups k.groups ((List.range 4).map ((d.core core).placesFree k))) with clean := clean }) ∧
      ((d.giveBlock core ki k).core core).ents = c2.ents ∧ ((d.giveBlock core ki k).core core).credit = none ∧
      ((d.giveBlock core ki k).kernel? ki).map (fun k => (k.nextBlock, k.outstanding, k.started)) =
        some ((d.claimRuns k1).nextBlock, (d.claimRuns k1).outstanding + 1, true) := by
  have hcore := giveBlock_core (ki := ki) htake hplace hents hinst
  refine ⟨⟨(d.splitFor core ki k k1).fresh, ((d.splitFor core ki k k1).core core).clean, ?_⟩, ?_, ?_, ?_⟩
  · unfold Device.block?
    rw [hcore]
    exact Tab.find?_insert_same ..
  · rw [hcore]
    rfl
  · rw [hcore]
    rfl
  · rw [giveBlock_eq htake hplace hents hinst, claimRuns_of_regs (claimTraffic_regs ..)]
    unfold Device.kernel?
    rw [freeIdle_work]
    exact congrArg (Option.map fun k : Kernel => (k.nextBlock, k.outstanding, k.started)) (Tab.find?_insert_same ..)

end

end Device

/-! The credits of a core -/

/-- A credit that no perturbation delays is the dispatcher's work, and one that is delayed comes later. -/
theorem gives_of_blockCredit {s : State} {core : Nat} {d e : Device} (hlive : s.dev.live = true) (hcore : core < 256)
    (hd : s.dev.perturb 3 (coreDie core) = d) :
    (s.dev.perturbDelay 3 (coreDie core) ≠ 0 →
      Gives (.blockCredit core) s
        { d with stat := { d.stat with late := d.stat.late ++ [(d.clock.now + s.dev.perturbDelay 3 (coreDie core), .blockCredit core)] } }) ∧
      (s.dev.perturbDelay 3 (coreDie core) = 0 → d.credit core = e → Gives (.blockCredit core) s e) := by
  subst hd
  have hruns : (s.dev.live && core < 256) = true := by simp [hlive, hcore]
  exact ⟨fun hlate => .of_done rfl ((if_pos hruns).trans (if_neg hlate)), fun hnow he => .of_done rfl ((if_pos hruns).trans ((if_pos hnow).trans he))⟩

/-! Stagger, retirement, stranded blocks -/

section
variable {s : State} {core p ki : Nat} {k : Kernel} {b : Block}

theorem gives_of_staggeredHandOut (hlive : s.dev.live = true) (hcore : core < 256) :
    ((s.dev.core core).kernel ≠ none ∨ s.dev.staggered core = none → Gives (.staggeredHandOut core) s s.dev) ∧
      ((s.dev.core core).kernel = none → s.dev.staggered core = some (ki, k) →
        Gives (.staggeredHandOut core) s (s.dev.giveBlock core ki k).serveCredits) := by
  have hover : ∀ {o e}, s.dev.staggered core = o → (match o with | some (ki, k) => (s.dev.giveBlock core ki k).serveCredits | none => s.dev) = e →
      s.dev.staggerOver core = e := by
    rintro o e rfl he
    exact he
  refine ⟨fun hnot => .of_done rfl ?_, fun hfree hwaits => .of_done rfl ((if_pos (by simp [hlive, hcore, hfree])).trans (hover hwaits rfl))⟩
  rcases hnot with hbusy | hnone
  · exact if_neg (by simp [hbusy])
  · split
    · exact hover hnone rfl
    · rfl

/-- The device without a block that has ended, its kernel's counts and the cores it leaves. -/
def Device.blockGone (d : Device) (core p ki : Nat) (k : Kernel) : Device :=
  (((d.ringCtl (coreDie core) k.home).dropBlock core p 0).modKernel ki
    (fun k => { k with outstanding := k.outstanding - 1, retired := k.retired + 1 })).freeIdle ki

theorem Device.blockRetire_steps {d : Device} (hkernel : (d.core core).kernel = some ki) (hblock : d.block? core p = some b) :
    ∀ done_, (b.allExited && (Tab.vals b.handles).all (fun h => h.done) && b.gstOut.isEmpty && b.loads.isEmpty
        && !(d.core core).upds.any (fun (x : Nat × UpdOp) => x.2.place == some p)) = done_ →
      (done_ = false → d.blockRetire core p = d) ∧
      (∀ f, done_ = true → b.lateFault = some f → d.blockRetire core p = d.blockFault core p b.last.2.1 b.last.2.2 b.last.1 f) ∧
      (done_ = true → b.lateFault = none → d.kernel? ki = some k → ∀ k2, (d.blockGone core p ki k).kernel? ki = some k2 →
        (k2.spent = false → d.blockRetire core p = d.blockGone core p ki k) ∧
        (k2.spent = true → k2.early = true → d.blockRetire core p = (d.blockGone core p ki k).setKernel ki (k2.freeze (d.blockGone core p ki k).clock.now)) ∧
        (k2.spent = true → k2.early = false → d.blockRetire core p = (d.blockGone core p ki k).endKernel ki 0)) := by
  rintro done_ rfl
  have hbusy : (!b.allExited || (Tab.vals b.handles).any (fun h => !h.done) || !b.gstOut.isEmpty || !b.loads.isEmpty
        || (d.core core).upds.any (fun (x : Nat × UpdOp) => x.2.place == some p))
      = !(b.allExited && (Tab.vals b.handles).all (fun h => h.done) && b.gstOut.isEmpty && b.loads.isEmpty
        && !(d.core core).upds.any (fun (x : Nat × UpdOp) => x.2.place == some p)) := by
    simp only [Bool.not_and, Bool.not_not, List.all_eq_not_any_not]
  unfold Device.blockRetire
  simp only [hkernel, hblock]
  rw [hbusy]
  refine ⟨fun hopen => ?_, fun f hdone hfault => ?_, fun hdone hfault hk k2 hk2 => ⟨fun hmore => ?_, fun hspent hearly => ?_, fun hspent hlate => ?_⟩⟩
  · rw [hopen]
    rfl
  · rw [hdone, hfault]
    rfl
  all_goals
    rw [hdone, hfault]
    simp only [hk]
    unfold Device.blockGone at hk2 ⊢
    simp only [hk2]
  · rw [hmore]
    rfl
  · rw [hspent, hearly]
    rfl
  · rw [hspent, hlate]
    rfl

theorem gives_of_blockRetire (hlive : s.dev.live = true) {e : Device} (he : s.dev.blockRetire core p = e) :
    Gives (.blockRetire core p) s e.serveCredits :=
  .of_done rfl ((if_pos hlive).trans (congrArg Device.serveCredits he))

theorem gives_of_barrierStranded (hlive : s.dev.live = true) (hblock : s.dev.block? core p = some b) :
    (s.dev.stranded core p b = true → Gives (.barrierStranded core p) s (s.dev.strandedFault core p)) ∧
      (s.dev.stranded core p b = false → Gives (.barrierStranded core p) s s.dev) := by
  have hseen : ∀ {e}, (if s.dev.live && s.dev.stranded core p b then s.dev.strandedFault core p else s.dev) = e → Gives (.barrierStranded core p) s e := by
    intro e he
    refine .of_done rfl ?_
    simp only [hblock]
    exact he
  exact ⟨fun hyes => hseen (if_pos (by simp [hlive, hyes])), fun hno => hseen (if_neg (by simp [hno]))⟩

theorem Device.watchdogDue_iff (d : Device) (k : Kernel) :
    d.watchdogDue k = true ↔ k.started = true ∧ d.rd Reg.HOOP_CFG_WATCHDOG k.hoop ≤ k.age := by
  unfold Device.watchdogDue
  simp

theorem gives_of_kernelWatchdog (hlive : s.dev.live = true) {e : Device} (he : s.dev.watchdog ki = e) : Gives (.kernelWatchdog ki) s e.serveCredits :=
  .of_done rfl ((if_pos hlive).trans (congrArg Device.serveCredits he))

/-- The watchdog of a kernel that runs. -/
theorem Device.watchdog_of_running {d : Device} (hk : d.kernel? ki = some k) :
    d.watchdog ki = if d.watchdogDue k then (d.watchdogFires k).endKernel ki 1 else d := by
  unfold Device.watchdog
  simp only [hk]

/-- The watchdog of a kernel that faulted at this local time (R138). -/
theorem Device.watchdog_of_faulted {d : Device} {t : Nat} (hk : d.kernel? ki = none)
    (hfound : d.work.faulted.find? (fun x => x.1 == ki && x.2.1 == d.clock.now) = some (ki, t, k)) :
    d.watchdog ki = if d.watchdogDue k then (d.watchdogFires k).abortFaulted k else d := by
  unfold Device.watchdog
  simp only [hk, hfound]

end

/-- Settles O34: each command is the dispatcher's row for its case; a block that is given lies where it was placed, since neither the trace record of its
kernel's start nor the cores that become free touch its core. -/
theorem blocks : Obligations.Blocks := by
  unfold Obligations.Blocks
  refine ⟨fun core ki k s hlive hcore => ?_, fun core p ki k b s hlive => ⟨fun hkernel hblock => ?_, fun hblock => gives_of_barrierStranded hlive hblock, ?_⟩⟩
  · intro d late
    have hsplit := fun e => gives_of_blockCredit (d := d) (e := e) hlive hcore rfl
    have hlate : late ≠ 0 → Gives (.blockCredit core) s { d with stat := { d.stat with late := d.stat.late ++ [(d.clock.now + late, .blockCredit core)] } } :=
      (hsplit d).1
    have hcredit : ∀ {e}, late = 0 → d.credit core = e → Gives (.blockCredit core) s e := fun h => (hsplit _).2 h
    clear hsplit
    clear_value d late
    refine ⟨hlate, fun hnow => ⟨fun hrun hgone => ?_, fun hrun hk => ⟨fun hfault hheld => ?_, fun hfault hheld => ?_, fun hfault => ?_⟩,
      fun hfree hin => ?_, fun hfree hout => ⟨?_, fun hnone hstagger => ⟨fun hpick => ?_, fun hpick => ⟨fun hno => ?_, fun hyes => ?_⟩⟩⟩⟩,
      (gives_of_staggeredHandOut hlive hcore (ki := ki) (k := k)).1, (gives_of_staggeredHandOut hlive hcore).2,
      ?_⟩
    · exact hcredit hnow ((Device.credit_of_running (k := k) hrun).1 hgone)
    · exact hcredit hnow (((Device.credit_of_running hrun).2 hk).1 hfault hheld)
    · exact hcredit hnow (((Device.credit_of_running hrun).2 hk).2.1 hfault hheld)
    · exact hcredit hnow (((Device.credit_of_running hrun).2 hk).2.2 hfault)
    · exact hcredit hnow ((Device.credit_of_free hfree).1 hin)
    · exact hcredit hnow ((Device.credit_of_free hfree).2 hout)
    rotate_right
    · intro b k1 p c2 htake hplace k2 quarters hents hinst
      exact Device.giveBlock_spec htake hplace hents hinst
    · exact hcredit hnow ((Device.credit_of_alone (ki := ki) (k := k) hfree hnone rfl hstagger).1 hpick)
    · exact hcredit hnow (((Device.credit_of_alone hfree hnone rfl hstagger).2 hpick).1 hno)
    · exact hcredit hnow (((Device.credit_of_alone hfree hnone rfl hstagger).2 hpick).2 hyes)
  · intro done_
    obtain ⟨hopen, hfault, hends⟩ := Device.blockRetire_steps (k := k) hkernel hblock done_ rfl
    refine ⟨fun h => gives_of_blockRetire hlive (hopen h), fun f h hf => gives_of_blockRetire hlive (hfault f h hf), ?_⟩
    intro h hnone hk d k2 hk2
    obtain ⟨hmore, hearly, hlate⟩ := hends h hnone hk k2 hk2
    exact ⟨fun h => gives_of_blockRetire hlive (hmore h), fun h he => gives_of_blockRetire hlive (hearly h he),
      fun h he => gives_of_blockRetire hlive (hlate h he)⟩
  · intro due fires
    refine ⟨fun hk => ⟨fun hdue => ?_, fun hnot => ?_⟩, fun hk hfound => ⟨fun hdue => ?_, fun hnot => ?_⟩⟩
    · exact gives_of_kernelWatchdog hlive ((Device.watchdog_of_running hk).trans (if_pos ((Device.watchdogDue_iff ..).mpr hdue)))
    · exact gives_of_kernelWatchdog hlive ((Device.watchdog_of_running hk).trans (if_neg fun h => hnot ((Device.watchdogDue_iff ..).mp h)))
    · exact gives_of_kernelWatchdog hlive ((Device.watchdog_of_faulted hk hfound).trans (if_pos ((Device.watchdogDue_iff ..).mpr hdue)))
    · exact gives_of_kernelWatchdog hlive ((Device.watchdog_of_faulted hk hfound).trans (if_neg fun h => hnot ((Device.watchdogDue_iff ..).mp h)))

end Sys2Proof.Machine

/-! Slots, retirement, confirming reads, whey descriptors and recipe nodes (R61 to R76, R84 to R95, R299, R300). -/

namespace Sys2Proof.Machine

/-! The fetch of an entry -/

namespace Device

/-- Where a queue's next entry lies (R61, R66). -/
def nextVa (x : Queue) : Nat :=
  match x.chain with
  | some (a, _, _) => a
  | none => x.ring + 64 * (x.rptr % 2 ^ x.sizeLog2)

/-- The segment that an address of a hoop lies in. -/
def segOfVa (d : Device) (h va : Nat) : Seg := d.seg h (d.slotOf h (d.curMap h) (bits va 47 44))

/-- The fetch of a queue's next entry once what the read meets has been noted. -/
def fetchSeen (d : Device) (q : Nat) (x : Queue) (va : Nat) : Device :=
  match d.readVa x.hoop va 64 with
  | .ok b => d.takeEntry q b none
  | .error e =>
    if e ≠ hostTier then
      (if e = 0xA then d.dataError x.hoop q 0xFFFFFFFF x.rptr ((d.badIn (d.segOfVa x.hoop va) (va % 2 ^ 44) 64).getD (d.tableAddr x.hoop))
        else d).takeEntry q (List.replicate 64 0) (some e)
    else match x.pre.find? (fun y => y.1 == va) with
      | some y => d.takeEntry q (slice y.2 0 64) (if y.2.length < 64 then some 0xA else none)
      | none =>
        if d.flow.reads.any (fun (r : Nat × HRead) => r.2.kind == 6 && r.2.a == q) then d
        else if !d.mayMaster (d.ownerFn x.hoop) then d.takeEntry q (List.replicate 64 0) (some 0xA)
        else d.openRead { kind := 6, a := q, b := va, c := 0, fn := d.ownerFn x.hoop, addr := (d.segOfVa x.hoop va).base + va % 2 ^ 44 } 64

theorem fetchEntry_eq (d : Device) (q : Nat) :
    d.fetchEntry q = if d.segClosed (d.queue q).hoop (d.slotOf (d.queue q).hoop (d.curMap (d.queue q).hoop) (bits (nextVa (d.queue q)) 47 44)) then d
      else (d.seenVa (d.queue q).hoop (nextVa (d.queue q)) 64).fetchSeen q (d.queue q) (nextVa (d.queue q)) := by
  unfold Device.fetchEntry
  rfl

section
variable {d : Device} {q va : Nat} {x : Queue}

theorem fetchSeen_of_ok {b : Bytes} (hread : d.readVa x.hoop va 64 = .ok b) : d.fetchSeen q x va = d.takeEntry q b none := by
  unfold fetchSeen
  rw [hread]

theorem fetchSeen_of_error {st : Nat} (hread : d.readVa x.hoop va 64 = .error st) (hst : st ≠ hostTier) :
    d.fetchSeen q x va =
      (if st = 0xA then d.dataError x.hoop q 0xFFFFFFFF x.rptr ((d.badIn (d.segOfVa x.hoop va) (va % 2 ^ 44) 64).getD (d.tableAddr x.hoop))
        else d).takeEntry q (List.replicate 64 0) (some st) := by
  unfold fetchSeen
  rw [hread]
  exact if_pos hst

/-- The fetch from the host tier: bytes at hand, a read that is open, and one that is opened where the function may master. -/
theorem fetchSeen_of_host (hread : d.readVa x.hoop va 64 = .error hostTier) :
    (∀ y, x.pre.find? (fun y => y.1 == va) = some y →
      d.fetchSeen q x va = d.takeEntry q (slice y.2 0 64) (if y.2.length < 64 then some 0xA else none)) ∧
    (x.pre.find? (fun y => y.1 == va) = none →
      (d.flow.reads.any (fun (r : Nat × HRead) => r.2.kind == 6 && r.2.a == q) = true → d.fetchSeen q x va = d) ∧
      (d.flow.reads.any (fun (r : Nat × HRead) => r.2.kind == 6 && r.2.a == q) = false →
        (d.mayMaster (d.ownerFn x.hoop) = false → d.fetchSeen q x va = d.takeEntry q (List.replicate 64 0) (some 0xA)) ∧
        (d.mayMaster (d.ownerFn x.hoop) = true → d.fetchSeen q x va =
          d.openRead { kind := 6, a := q, b := va, c := 0, fn := d.ownerFn x.hoop, addr := (d.segOfVa x.hoop va).base + va % 2 ^ 44 } 64))) := by
  unfold fetchSeen
  simp only [hread, ne_eq, not_true_eq_false, if_false]
  refine ⟨fun y hy => by rw [hy], fun hpre => ⟨fun hopen => ?_, fun hopen => ⟨fun hno => ?_, fun hmay => ?_⟩⟩⟩
  all_goals rw [hpre]; dsimp only
  · exact if_pos hopen
  · rw [if_neg (by simp [hopen]), if_pos (by simp [hno])]
  · rw [if_neg (by simp [hopen]), if_neg (by simp [hmay])]

end

/-- When a slot may fetch (R43, R67, R68, R76). -/
def FetchFree (d : Device) (k : Nat) (x : Queue) : Prop :=
  (d.slot k).state = 1 ∧ x.state = 2 ∧ x.stopFetch = false ∧ d.hoopState x.hoop = 1 ∧ d.admits x.hoop x.cls = true ∧ d.fetchRoom x = true

theorem slotFetch_spec {d : Device} {q k : Nat} (hq : (d.slot k).queue = q) :
    (¬ d.FetchFree k (d.queue q) → d.slotFetch k = d) ∧
    (d.FetchFree k (d.queue q) → (d.queue q).chain = none → (d.queue q).rptr = (d.slot k).cached → d.slotFetch k = d.settleSlot q) ∧
    (d.FetchFree k (d.queue q) → ((d.queue q).chain ≠ none ∨ (d.queue q).rptr ≠ (d.slot k).cached) →
      d.slotFetch k = (d.fetchEntry q).settleSlot q) := by
  subst hq
  generalize hx : d.queue (d.slot k).queue = x
  have hfree : d.FetchFree k x ↔ ¬ ((d.slot k).state ≠ 1 ∨ x.state ≠ 2 ∨ x.stopFetch ∨ d.hoopState x.hoop ≠ 1 ∨ d.admits x.hoop x.cls = false ∨
      d.fetchRoom x = false) := by
    simp [FetchFree, not_or]
  rw [hfree]
  unfold Device.slotFetch
  simp only [hx]
  refine ⟨fun hnot => if_pos (not_not.mp hnot), fun hok hchain hat => (if_neg hok).trans (if_pos ?_), fun hok hmore => (if_neg hok).trans (if_neg ?_)⟩
  · exact ⟨by simp [hchain], hat⟩
  · rintro ⟨hchain, hat⟩
    rcases hmore with hsome | hne
    · exact hsome (Option.isNone_iff_eq_none.mp hchain)
    · exact hne hat

/-! The mapper -/

theorem setSlotState_mem_cores (d : Device) (k st : Nat) : (d.setSlotState k st).mem = d.mem ∧ (d.setSlotState k st).cores = d.cores := by
  unfold Device.setSlotState
  split <;> exact ⟨rfl, rfl⟩

theorem mapTo_mem_cores (d : Device) (q k : Nat) : (d.mapTo q k).mem = d.mem ∧ (d.mapTo q k).cores = d.cores := by
  unfold Device.mapTo
  split <;> exact ⟨rfl, rfl⟩

theorem mapAll_mem_cores (d : Device) (n : Nat) : (d.mapAll n).mem = d.mem ∧ (d.mapAll n).cores = d.cores := by
  induction n generalizing d with
  | zero => exact ⟨rfl, rfl⟩
  | succ n ih =>
    unfold Device.mapAll
    split
    · exact ⟨rfl, rfl⟩
    · exact ⟨(ih _).1.trans (mapTo_mem_cores ..).1, (ih _).2.trans (mapTo_mem_cores ..).2⟩

/-- The mapper wakes the rung slots. -/
def wake (d : Device) (l : List Nat) : Device :=
  l.foldl (fun d k => (d.setSlot k { d.slot k with cached := (d.queue (d.slot k).queue).shadow }).setSlotState k 1) d

theorem wake_mem_cores (d : Device) (l : List Nat) : (d.wake l).mem = d.mem ∧ (d.wake l).cores = d.cores :=
  List.foldlRecOn (motive := fun e : Device => e.mem = d.mem ∧ e.cores = d.cores) _ _ ⟨rfl, rfl⟩ fun _ he _ _ =>
    ⟨(setSlotState_mem_cores ..).1.trans he.1, (setSlotState_mem_cores ..).2.trans he.2⟩

/-- Where no candidate has a slot, nothing is mapped. -/
theorem mapAll_of_none {d : Device} (hnone : d.candidates.all (fun q => (d.slotFor q).isNone) = true) (n : Nat) : d.mapAll n = d := by
  cases n with
  | zero => rfl
  | succ n =>
    unfold Device.mapAll
    have hfind : d.candidates.findSome? (fun q => (d.slotFor q).map (fun s => (q, s))) = none :=
      List.findSome?_eq_none_iff.mpr fun q hq => by
        rw [Option.isNone_iff_eq_none.mp (List.all_eq_true.mp hnone q hq)]
        rfl
    rw [hfind]

/-- A single candidate that has a slot is mapped to it, and the mapper stops once none is left. -/
theorem mapAll_of_one {d : Device} {q k : Nat} (hone : d.candidates = [q]) (hslot : d.slotFor q = some k) (hleft : (d.mapTo q k).candidates = []) (n : Nat) :
    d.mapAll (n + 1) = d.mapTo q k := by
  have hfind : d.candidates.findSome? (fun q => (d.slotFor q).map (fun s => (q, s))) = some (q, k) := by
    rw [hone]
    simp [hslot]
  rw [Device.mapAll]
  simp only [hfind]
  exact mapAll_of_none (by rw [hleft]; rfl) n

theorem mapTo_slot (d : Device) (q k : Nat) : ((d.mapTo q k).slot k).queue = q ∧ ((d.mapTo q k).slot k).state = 1 := by
  have hslot : ∃ cached since, (d.mapTo q k).slot k = { queue := q, state := 1, cached := cached, since := since } := ⟨_, _, Tab.get_put_same ..⟩
  obtain ⟨cached, since, hslot⟩ := hslot
  rw [hslot]
  exact ⟨rfl, rfl⟩

/-! Doorbells and retirement -/

theorem ringNow_spec {d : Device} {q value : Nat} (hvalue : value < 2 ^ 32) (hqueue : (d.queue q).state ≠ 0) (hhoop : d.hoopState (d.queue q).hoop < 3) :
    (¬ (ringDiff 32 value (d.queue q).rptr > 2 ^ (d.queue q).sizeLog2 ∨ ringDiff 32 value (d.queue q).shadow ≥ 2 ^ 31) →
      d.ringNow q value = d.setQueue q { (d.queue q) with shadow := value, rung := true }) ∧
    (ringDiff 32 value (d.queue q).rptr > 2 ^ (d.queue q).sizeLog2 ∨ ringDiff 32 value (d.queue q).shadow ≥ 2 ^ 31 →
      d.ringNow q value = d.post
        { code := 0x11, hoop := (d.queue q).hoop, queue := q, detail :=  le 4 value ++ le 4 (d.queue q).shadow ++ le 4 (d.queue q).rptr }) := by
  unfold Device.ringNow
  simp only [Nat.mod_eq_of_lt hvalue]
  rw [if_neg (by omega)]
  exact ⟨fun hin => if_neg hin, fun hfar => if_pos hfar⟩

/-- A doorbell that is taken, at once or after its perturbation and what waits before it. -/
theorem ring_spec {d : Device} {q value : Nat} :
    ((d.queue q).state = 0 ∨ 3 ≤ d.hoopState (d.queue q).hoop → d.ring q value = d) ∧
    ((d.queue q).state ≠ 0 → d.hoopState (d.queue q).hoop < 3 → ∀ d2 wait, d.perturb 4 (d.queue q).hoop = d2 →
      Nat.max (d.perturbDelay 4 (d.queue q).hoop) (d.ringBehind q) = wait →
      (wait ≠ 0 → d.ring q value = { d2 with stat := { d2.stat with late := d2.stat.late ++ [(d2.clock.now + wait, .doorbell q value)] } }) ∧
      (wait = 0 → d.ring q value = d2.ringNow q value)) := by
  unfold Device.ring
  refine ⟨fun hclosed => if_pos hclosed, fun hqueue hhoop d2 wait hd2 hwait => ?_⟩
  simp only [hd2, hwait]
  rw [if_neg (by omega)]
  exact ⟨fun hlate => if_neg hlate, fun hnow => if_pos hnow⟩

theorem retireEntry_spec {d : Device} {q i : Nat} :
    ((d.queue q).entries[i]? = none → d.retireEntry q i = d) ∧
    (∀ e, (d.queue q).entries[i]? = some e →
      (d.mayRetire (d.queue q) i e = false → d.retireEntry q i = d) ∧
      (d.mayRetire (d.queue q) i e = true →
        d.retireEntry q i = (((d.retire q e (e.done.getD 0)).cnt (d.queue q).hoop 14).sample (d.queue q).hoop 0
          ((d.retire q e (e.done.getD 0)).clock.now - e.since.now)).settleSlot q)) := by
  unfold Device.retireEntry
  refine ⟨fun hnone => ?_, fun e he => ⟨fun hno => ?_, fun hmay => ?_⟩⟩
  · simp only [hnone]
  · simp only [he]
    exact if_pos (by simp [hno])
  · simp only [he]
    exact if_neg (by simp [hmay])

/-! Confirming reads -/

theorem confirmOldest_of_none {d : Device} {q : Nat} {ok : Bool} (hnone : (d.queue q).recs.findSome? (fun r => r.tag) = none) :
    d.confirmOldest q ok = d := by
  unfold Device.confirmOldest
  rw [hnone]

theorem confirmOldest_of_found {d : Device} {q tag : Nat} {r : CRec} {ok : Bool} (holdest : (d.queue q).recs.findSome? (fun r => r.tag) = some tag)
    (hfound : (d.queue q).recs.find? (fun r => r.tag == some tag) = some r) :
    (ok = false → d.confirmOldest q ok = (d.closeRead tag).completionFault q r) ∧
    (ok = true → d.confirmOldest q ok =
      (if r.irq ∧ (d.queue q).state ≠ 3
        then ((d.closeRead tag).setQueue q { (d.queue q) with recs := (d.queue q).recs.erase r }).sendVector r.fn r.vec
        else (d.closeRead tag).setQueue q { (d.queue q) with recs := (d.queue q).recs.erase r }).writeRecs q 66) := by
  unfold Device.confirmOldest
  rw [holdest]
  unfold Device.confirmDone
  simp only [hfound]
  refine ⟨fun hok => if_pos (by simp [hok]), fun hok => (if_neg (by simp [hok])).trans (congrArg (fun e : Device => e.writeRecs q 66) ?_)⟩
  simp only [Bool.and_eq_true, bne_iff_ne]

/-! Whey descriptors -/

/-- A whey descriptor fails: its entry ends with the status, and the entry's later descriptors go with it (R300). -/
def wheyFail (d : Device) (h : Nat) (w : Whey) (rest : List Whey) (sum st : Nat) : Device :=
  ((d.setHx h { (d.hx h) with whey := rest.filter (fun y => !(y.queue == w.queue && y.entry == w.entry)) }).wheyCount h false).finish w.queue w.entry st sum

/-- The device once a whey descriptor's bytes have been stored. -/
def wheyDone (d : Device) (h : Nat) (w : Whey) (rest : List Whey) : Device :=
  ((d.setHx h { (d.hx h) with whey := rest }).wheyDrop w).wheyCount h true

/-- The bytes of a whey descriptor's entry so far. -/
def wheySum (d : Device) (w : Whey) : Nat := ((d.entry? w.queue w.entry).map (fun (e : Entry) => e.result)).getD 0

/-- The map that a whey descriptor's entry is bound to. -/
def wheyMap (d : Device) (h : Nat) (w : Whey) : Nat := ((d.entry? w.queue w.entry).map (fun (e : Entry) => e.map)).getD (d.curMap h)

/-- Where a whey descriptor stores (R298). -/
def wheyVa (w : Whey) : Nat := fieldLe w.bytes 16 8

def wheySlot (d : Device) (h : Nat) (w : Whey) : Nat := d.slotOf h (d.wheyMap h w) (bits (wheyVa w) 47 44)

/-- The end of a whey descriptor whose bytes have been stored. -/
def wheyStored (d : Device) (w : Whey) (sum n : Nat) : Device :=
  if w.last then d.finish w.queue w.entry 0 (sum + n)
  else d.modQueue w.queue (fun x => { x with entries := x.entries.map (fun e => if e.id = w.entry then { e with result := e.result + n } else e) })

section
variable {d d2 : Device} {h : Nat} {w : Whey} {rest : List Whey}

theorem wheyRun_spec (hfirst : (d.hx h).whey = w :: rest) {r : Except Nat (Option Bytes)} (hsource : d.wheySource w = (d2, r)) :
    (∀ st, r = .error st → d.wheyRun h = d2.wheyFail h w rest (d2.wheySum w) st) ∧
    (r = .ok none → d.wheyRun h = d2) ∧
    (∀ b, r = .ok (some b) →
      (d2.segClosed h (d2.wheySlot h w) = true → d.wheyRun h = d2) ∧
      (d2.segClosed h (d2.wheySlot h w) = false →
        (∀ st, d2.storeVa h (d2.wheyMap h w) (wheyVa w) b = .error st → d.wheyRun h =
          (if st = 0xA then d2.dataError h w.queue (d2.entWho w.queue w.entry).2 (d2.entWho w.queue w.entry).1 (d2.tableAddr h + 32 * d2.wheySlot h w)
            else d2).wheyFail h w rest (d2.wheySum w) st) ∧
        (∀ d3, d2.storeVa h (d2.wheyMap h w) (wheyVa w) b = .ok d3 →
          d.wheyRun h = (d3.wheyDone h w rest).wheyStored w (d2.wheySum w) b.length))) := by
  unfold Device.wheyRun
  simp only [hfirst, hsource]
  refine ⟨?_, ?_, ?_⟩
  · rintro st rfl
    rfl
  · rintro rfl
    rfl
  · rintro b rfl
    refine ⟨fun hclosed => if_pos hclosed, fun hopen => ⟨fun st hst => (if_neg (by rw [Bool.not_eq_true]; exact hopen)).trans ?_,
      fun d3 hd3 => (if_neg (by rw [Bool.not_eq_true]; exact hopen)).trans ?_⟩⟩
    · unfold wheyMap wheyVa at hst
      rw [hst]
      rfl
    · unfold wheyMap wheyVa at hd3
      rw [hd3]
      rfl

end

/-! Recipe nodes -/

/-- A node that ended with OK lowers its successors' counters and releases early kernels (R84, R87). -/
def lowerAll (d : Device) (i : Nat) (succ : List Nat) : Device :=
  succ.foldl (fun d m =>
    let d := d.modNode i m (fun z => { z with counter := z.counter - 1 })
    match (d.inst? i).bind (fun (s : Inst) => Tab.find? s.nodes m), d.nodeKernel i m with
    | some z, some ki => if z.counter = 0 then d.release ki else d
    | _, _ => d) d

section
variable {d : Device} {i n st : Nat} {x : Inst} {r : RNode} {y : INode}

theorem nodeSeen_spec (hinst : d.inst? i = some x) (hnode : d.rnode? x n = some r) (hy : Tab.find? x.nodes n = some y) (hdone : y.done = some st) :
    (y.seen = true → d.nodeSeen i n = d) ∧
    (y.seen = false → st = 0 → d.nodeSeen i n =
      (((d.modNode i n (fun y => { y with seen := true })).lowerAll i r.succ).startNodes i).endInst i) ∧
    (y.seen = false → st ≠ 0 → d.nodeSeen i n =
      ((r.succ.foldl (fun d m => d.cancelNode i x.nodes.length m) ((d.modNode i n (fun y => { y with seen := true })).cancelDescs i n)).startNodes i).endInst i) := by
  unfold Device.nodeSeen
  simp only [hinst, hnode, hy, hdone]
  refine ⟨fun hseen => if_pos hseen, fun hnew hok => (if_neg (by simp [hnew])).trans ?_, fun hnew hbad => (if_neg (by simp [hnew])).trans ?_⟩
  · rw [if_pos hok]
    rfl
  · rw [if_neg hbad]

end

end Device

/-! The commands -/

section
variable {s : State} {q k fn : Nat} {v : W32}

theorem gives_of_slotFetch (hlive : s.dev.live = true) (hk : k < 128) {e : Device} (he : s.dev.slotFetch k = e) : Gives (.slotFetch k) s e :=
  .of_done rfl ((if_pos (by simp [hlive, hk])).trans he)

/-- A slot that may fetch and whose entry is to be read. -/
theorem gives_of_fetchSeen (hlive : s.dev.live = true) (hk : k < 128) (hq : (s.dev.slot k).queue = q) (hfree : s.dev.FetchFree k (s.dev.queue q))
    (hmore : (s.dev.queue q).chain ≠ none ∨ (s.dev.queue q).rptr ≠ (s.dev.slot k).cached) {va : Nat} (hva : Device.nextVa (s.dev.queue q) = va) :
    (s.dev.segClosed (s.dev.queue q).hoop (s.dev.slotOf (s.dev.queue q).hoop (s.dev.curMap (s.dev.queue q).hoop) (bits va 47 44)) = true →
      Gives (.slotFetch k) s (s.dev.settleSlot q)) ∧
    (s.dev.segClosed (s.dev.queue q).hoop (s.dev.slotOf (s.dev.queue q).hoop (s.dev.curMap (s.dev.queue q).hoop) (bits va 47 44)) = false →
      ∀ e, (s.dev.seenVa (s.dev.queue q).hoop va 64).fetchSeen q (s.dev.queue q) va = e → Gives (.slotFetch k) s (e.settleSlot q)) := by
  subst hva
  have hfetch : ∀ {e}, s.dev.fetchEntry q = e → Gives (.slotFetch k) s (e.settleSlot q) := fun he =>
    gives_of_slotFetch hlive hk (((Device.slotFetch_spec hq).2.2 hfree hmore).trans (congrArg (fun z : Device => z.settleSlot q) he))
  refine ⟨fun hclosed => hfetch ((Device.fetchEntry_eq ..).trans (if_pos hclosed)), fun hopen e he => hfetch ((Device.fetchEntry_eq ..).trans ((if_neg ?_).trans he))⟩
  rw [hopen]
  exact Bool.false_ne_true

theorem gives_of_mapperRun (hlive : s.dev.live = true) : Gives .mapperRun s s.dev.mapperRun := .of_done rfl (if_pos hlive)

/-- A doorbell of the PF or of the owner of the queue's hoop. -/
theorem gives_of_qdbWptr (hlive : s.dev.live = true) (hq : q < 4096) (hfn : fn = 0 ∨ s.dev.ownerFn (s.dev.queue q).hoop = fn) {e : Device}
    (he : s.dev.hostRing q v.toNat = e) : Gives (.qdbWptr fn q v) s e :=
  .of_done rfl ((if_pos (by simp [hlive, hq, hfn])).trans he)

theorem gives_of_entryRetire (hlive : s.dev.live = true) {e : Device} (he : s.dev.retireEntry q k = e) : Gives (.entryRetire q k) s e :=
  .of_done rfl ((if_pos hlive).trans he)

theorem gives_of_confirmingReadDone (hlive : s.dev.live = true) {c : Cpl} {ok : Bool} (hok : (c == .sc) = ok) {e : Device}
    (he : s.dev.confirmOldest q ok = e) : Gives (.confirmingReadDone q c) s e :=
  .of_done rfl ((if_pos hlive).trans (hok ▸ he))

theorem gives_of_wheyDescriptorStart (hlive : s.dev.live = true) :
    (s.dev.wheyNext = none → Gives .wheyDescriptorStart s s.dev) ∧
    (∀ h, s.dev.wheyNext = some h → ∀ e, ({ s.dev with work := { s.dev.work with lastWhey := h } } : Device).wheyRun h = e →
      Gives .wheyDescriptorStart s e) := by
  have hstart : ∀ {o e}, s.dev.wheyNext = o → (match o with | none => s.dev | some h => ({ s.dev with work := { s.dev.work with lastWhey := h } } : Device).wheyRun h) = e →
      Gives .wheyDescriptorStart s e := by
    rintro o e rfl he
    exact .of_done rfl ((if_neg (by simp [hlive])).trans he)
  exact ⟨fun hnone => hstart hnone rfl, fun h hnext e he => hstart hnext he⟩

theorem gives_of_nodeComplete (hlive : s.dev.live = true) {i n : Nat} {e : Device} (he : s.dev.nodeSeen i n = e) :
    Gives (.nodeComplete i n) s e.serveCredits :=
  .of_done rfl ((if_pos hlive).trans (congrArg Device.serveCredits he))

end

/-- Settles O33: each command is its row of the queues' and recipes' rules; the mapper touches neither memory nor cores, and a slot that it gives keeps the
queue that it was given to. -/
theorem slotsAndNodes : Obligations.SlotsAndNodes := by
  unfold Obligations.SlotsAndNodes
  refine ⟨fun s q fn v => ?_, fun s hlive => ⟨(gives_of_wheyDescriptorStart hlive).1, ?_, ?_⟩⟩
  · intro d x hlive
    refine ⟨fun k hk hq => ?_, ?_, fun hq hfn => ?_, fun hqueue hhoop => Device.ringNow_spec v.isLt hqueue hhoop, fun i => ?_, fun c => ?_⟩
    · intro free va slot reading pre
      obtain ⟨hnot, hat, -⟩ := Device.slotFetch_spec hq
      refine ⟨fun h => gives_of_slotFetch hlive hk (hnot h), fun hfree hchain hptr => gives_of_slotFetch hlive hk (hat hfree hchain hptr), fun hfree hmore => ?_⟩
      obtain ⟨hclosed, hopen⟩ := gives_of_fetchSeen (va := va) hlive hk hq hfree hmore rfl
      refine ⟨hclosed, fun hseg => ?_⟩
      intro d1
      have hseen : ∀ e, d1.fetchSeen q x va = e → Gives (.slotFetch k) s (e.settleSlot q) := hopen hseg
      have hflow : d1.flow = d.flow := Device.flow_eq_of_rest (Device.seenVa_works ..).rest
      have hreading : d1.flow.reads.any (fun (r : Nat × HRead) => r.2.kind == 6 && r.2.a == q) = reading := by rw [hflow]
      clear_value d1 reading
      refine ⟨fun b hb => hseen _ (Device.fetchSeen_of_ok hb), fun st hst hne => hseen _ (Device.fetchSeen_of_error hst hne), fun hhost => ?_⟩
      obtain ⟨hheld, hfree⟩ := Device.fetchSeen_of_host hhost
      rw [hreading] at hfree
      refine ⟨fun y hy => hseen _ (hheld y hy), fun hpre hread => hseen _ ((hfree hpre).1 hread), fun hpre hread hno => hseen _ (((hfree hpre).2 hread).1 hno),
        fun hpre hread hmay => hseen _ (((hfree hpre).2 hread).2 hmay)⟩
    · intro woken d2
      have hkept := d.wake_mem_cores woken
      have hmapper : d.mapperRun = d2.mapAll 128 := rfl
      refine ⟨d.mapperRun, gives_of_mapperRun hlive, ?_⟩
      rw [hmapper]
      change d2.mem = d.mem ∧ d2.cores = d.cores at hkept
      clear_value d2
      exact ⟨(d2.mapAll_mem_cores 128).1.trans hkept.1, (d2.mapAll_mem_cores 128).2.trans hkept.2, fun hnone => Device.mapAll_of_none hnone 128,
        fun k hone hslot hleft => by
          rw [Device.mapAll_of_one hone hslot hleft 127]
          exact ⟨rfl, d2.mapTo_slot q k⟩⟩
    · have hring : ∀ {e}, d.hostRing q v.toNat = e → Gives (.qdbWptr fn q v) s e := fun he => gives_of_qdbWptr hlive hq hfn he
      refine ⟨fun hheld => hring (if_pos hheld), fun hnone => ?_⟩
      intro d2 wait
      have hnow : ∀ {e}, d.ring q v.toNat = e → Gives (.qdbWptr fn q v) s e := fun he => hring ((if_neg (by rw [hnone]; exact Bool.false_ne_true)).trans he)
      have hopen : x.state ≠ 0 → d.hoopState x.hoop < 3 → _ := fun hqueue hhoop => (Device.ring_spec (value := v.toNat)).2 hqueue hhoop d2 wait rfl rfl
      clear_value d2 wait
      exact ⟨fun hclosed => hnow (Device.ring_spec.1 hclosed), fun hqueue hhoop =>
        ⟨fun hwait => hnow ((hopen hqueue hhoop).1 hwait), fun hwait => hnow ((hopen hqueue hhoop).2 hwait)⟩⟩
    · exact ⟨fun hnone => gives_of_entryRetire hlive (Device.retireEntry_spec.1 hnone), fun e he =>
        ⟨fun hno => gives_of_entryRetire hlive ((Device.retireEntry_spec.2 e he).1 hno), fun hmay => gives_of_entryRetire hlive ((Device.retireEntry_spec.2 e he).2 hmay)⟩⟩
    · refine ⟨fun hnone => gives_of_confirmingReadDone hlive rfl (Device.confirmOldest_of_none hnone), fun r tag holdest hfound => ?_⟩
      intro d2
      refine ⟨fun hbad => ?_, fun hok => ?_⟩
      · exact gives_of_confirmingReadDone hlive (by simpa using hbad) ((Device.confirmOldest_of_found holdest hfound).1 rfl)
      · exact gives_of_confirmingReadDone hlive (by simpa using hok) ((Device.confirmOldest_of_found holdest hfound).2 rfl)
  · intro h w rest d2 r hnext wk d hfirst hsource e sum map va slot fails
    obtain ⟨hfail, hwaits, hbytes⟩ := Device.wheyRun_spec hfirst hsource
    have hruns := (gives_of_wheyDescriptorStart hlive).2 h hnext
    refine ⟨fun st hst => hruns _ (hfail st hst), fun hr => hruns _ (hwaits hr), fun b hb => ?_⟩
    obtain ⟨hclosed, hopen⟩ := hbytes b hb
    refine ⟨fun hseg => hruns _ (hclosed hseg), fun hseg => ⟨fun hst => ?_, fun st hst hne => ?_, fun d3 hd3 => ?_⟩⟩
    · exact hruns _ (((hopen hseg).1 _ hst).trans (by rw [if_pos rfl]; rfl))
    · exact hruns _ (((hopen hseg).1 st hst).trans (by rw [if_neg hne]; rfl))
    · intro d4
      have hstored := (hopen hseg).2 d3 hd3
      exact ⟨fun hlast => hruns _ (hstored.trans (if_pos hlast)), fun hmore => hruns _ (hstored.trans (if_neg (by rw [hmore]; exact Bool.false_ne_true)))⟩
  · intro i n x r y st hinst hnode hy hdone d
    obtain ⟨hseen, hok, hbad⟩ := Device.nodeSeen_spec hinst hnode hy hdone
    exact ⟨fun h => gives_of_nodeComplete hlive (hseen h), fun hnew hst => gives_of_nodeComplete hlive (hok hnew hst),
      fun hnew hst => gives_of_nodeComplete hlive (hbad hnew hst)⟩

end Sys2Proof.Machine
